-- ==== Sys2Proof/Word.lean ====
section
/-! DEFINITION. The word types of the model and the plain access to a fixed-size table of like things. -/

namespace Sys2Proof

/-- One byte of a message, a descriptor or a buffer. -/
abbrev Byte := BitVec 8

/-- A table of `n` like things (ports, slots, banks, sessions). -/
abbrev Tab (n : Nat) (α : Type) := Vector α n

/-- The entry of one thing. -/
def Tab.get {n : Nat} {α : Type} (t : Tab n α) (i : Fin n) : α := t[i]

/-- The table with one entry replaced. -/
def Tab.put {n : Nat} {α : Type} (t : Tab n α) (i : Fin n) (a : α) : Tab n α := t.set i a

/-- The table with one entry changed. -/
def Tab.upd {n : Nat} {α : Type} (t : Tab n α) (i : Fin n) (f : α → α) : Tab n α := t.put i (f (t.get i))

/-- A table whose entries are all the same. -/
def Tab.const (n : Nat) {α : Type} (a : α) : Tab n α := Vector.replicate n a

/-- A table computed from its index. -/
def Tab.of {n : Nat} {α : Type} (f : Fin n → α) : Tab n α := Vector.ofFn f

end Sys2Proof
end

