-- ==== Sys2Proof/Types.lean ====
section
/-! DEFINITION. The names and message shapes that commands carry and that the state keeps: object numbers, VCP messages, detector messages, and the closed sets of names of the spec's tables. -/

namespace Sys2Proof

/-- A downstream port, 0–511 (Table 0.3). -/
abbrev Port := Fin 512
/-- A partition, with its upstream port UPk and its Lift engine LEk (R31). -/
abbrev Part := Fin 16
/-- A slot, with its PCEk, PDEk, SPCk and chain (R15, Table 0.3). -/
abbrev Slot := Fin 16
/-- A PBM bank (R206). -/
abbrev Bank := Fin 32
/-- A VCP session: 0–15 the MF of a partition, 16–18 mailboxes A–C (Table 11.5). -/
abbrev Sess := Fin 19
/-- An OOB mailbox: 0 A, 1 B, 2 C (Table 11.7). -/
abbrev Mbox := Fin 3
/-- A position index 0–111 of a partition's tree (Table 2.1). -/
abbrev Pos := Fin 112

/-- A side of an upstream port (R32). -/
inductive Side where
  | superSpeed
  | usb2
deriving DecidableEq, Repr

/-! ## VCP messages (chapter 11) -/

/-- How a bus accesses the OOB register space (Table 11.9): SPI writes at an address; SMBus at its pointer, in a Block Write that has
ended or whose STOP is still to come, with a PEC byte that is right (or absent) or wrong, or in a Block Read of so many bytes. -/
inductive OobWrite where
  | spi (address : BitVec 16)
  | smbus (ended pecOk : Bool)
  | smbusRead (n : Fin 256)
deriving DecidableEq, Repr

/-- The two OOB buses. -/
inductive OobBus where
  | spi
  | smbus
deriving DecidableEq, Repr

/-- One VCP command as it stands in the session's transport buffer, less its OPCODE, which the row names (Table 11.1).
`flags` and `status` are the header bytes as sent; LENGTH is the length of `payload`. -/
structure VcpMsg where
  session : Sess
  cseq : BitVec 32
  flags : Byte
  status : Byte
  target : BitVec 16
  payload : List Byte
deriving DecidableEq, Repr

/-- A command taken by the device and waiting for, or in, execution (R374). `bad` is the status with which a transport
has already found the message to be answered (a transfer of the wrong length, R386); `arrival` its place in the order of arrival at
management firmware (R394). -/
structure Cmd where
  opcode : BitVec 16
  msg : VcpMsg
  bad : Option Byte
  arrival : Nat
deriving DecidableEq, Repr

/-- A response, before its transport frames it (Table 11.1). -/
structure Rsp where
  opcode : BitVec 16
  status : Byte
  cseq : BitVec 32
  target : BitVec 16
  more : Bool
  payload : List Byte
deriving DecidableEq, Repr

/-- An event of a session's ring (R382): whether it has been transmitted, and whether RESYNC asked for it again (R385). -/
structure EventRec where
  eseq : BitVec 32
  code : BitVec 16
  target : BitVec 16
  payload : List Byte
  sent : Bool
  again : Bool
deriving DecidableEq, Repr

/-- Who receives an event (the Sessions column of Table 11.15): the MF sessions of `parts`, the stewards, every session,
or the OOB sessions only (MODE_CHANGED in Safe Hold). -/
structure Audience where
  parts : List Part := []
  stewards : Bool := false
  everyone : Bool := false
  oob : Bool := false
deriving DecidableEq, Repr

/-- An event that has arisen and waits for firmware to issue it (R409). -/
structure EventOut where
  code : BitVec 16
  target : BitVec 16
  payload : List Byte
  audience : Audience
deriving DecidableEq, Repr

/-! ## Faults (chapter 12) -/

/-- The five severities (Table 12.1). -/
inductive Severity where
  | note
  | correctable
  | degraded
  | containment
  | fatal
deriving DecidableEq, Repr

/-- A detector's message to the Fault Collector (R411): the source and kind of Table 12.2 and Table 12.3, the INFO
captured at detection, and whether an injection point forced it (R429). -/
structure Detection where
  source : BitVec 12
  kind : Byte
  info : BitVec 32
  injected : Bool
deriving DecidableEq, Repr

/-- A fault record (Table 12.1), less STILL_PRESENT, which is sampled when it is read. -/
structure FaultRec where
  index : BitVec 32
  source : BitVec 12
  kind : Byte
  injected : Bool
  acked : Bool
  shadowed : Bool
  escalated : Bool
  severity : Severity
  info : BitVec 32
  timestamp : BitVec 64
  partitions : BitVec 16
  occurrences : BitVec 16
deriving DecidableEq, Repr

/-- The containment reactions of Table 12.4, with the object each acts on. -/
inductive Reaction where
  | port (p : Port)
  | portPowerOff (p : Port)
  | pceReset (k : Slot)
  | leReset (k : Part)
  | pdeReset (k : Slot)
  | portDieReset (die : Fin 2)
  | powerDieReset (die : Fin 2)
  | bankClose (b : Bank)
  | rowRetire (b : Bank) (row : Nat)
  | slotOff (k : Slot)
  | partitionHold (k : Part)
  | mgtRestart
deriving DecidableEq, Repr

/-! ## Operating modes (chapter 10) -/

/-- What the board shows a boot (Table 10.15): the straps, whether the regulator confirms the Dawn target, and the block
whose self-test fails. -/
structure BoardIn where
  bootsel : Fin 4 := 0
  avsOk : Bool := true
  selfTest : Option Byte := none
deriving DecidableEq, Repr


/-- The operating modes (Table 1.10); Factory is unreachable (R2) and has no name here. -/
inductive Mode where
  | off
  | midnight
  | night
  | dawn
  | morning
  | noon
  | evening
  | dusk
  | maintenance
  | diagnostic
  | safeHold
deriving DecidableEq, Repr

/-! ## USB requests and buses (chapters 2 to 6) -/

/-- A SETUP packet: its eight bytes as fields. -/
structure Setup where
  bmRequestType : Byte
  bRequest : Byte
  wValue : BitVec 16
  wIndex : BitVec 16
  wLength : BitVec 16
deriving DecidableEq, Repr

/-- A downstream port of a partition's tree (Table 2.1): port 1–9 of the top hub (0–8 here), or a device position. -/
inductive HubPort where
  | top (n : Fin 9)
  | leaf (i : Pos)
deriving DecidableEq, Repr

/-- A virtual hub of a partition's tree: 0 the top hub, 1–8 the leaves (Table 2.1). -/
abbrev HubIx := Fin 9

/-- The speed a bus reset finds. -/
inductive FoundSpeed where
  | low
  | full
  | high
deriving DecidableEq, Repr

/-- How a USB transaction or a control request ends: its data, a STALL, a NAK, or a bus error (R108, R128). -/
inductive XferResult where
  | data (bytes : List Byte)
  | stall
  | nak
  | busError
deriving DecidableEq, Repr

/-- What a lifted device answers to an IN token of a bulk endpoint. -/
inductive InAnswer where
  | data (bytes : List Byte)
  | nak
  | stall
  | busError
deriving DecidableEq, Repr

/-- The handshake of a High-Speed OUT transaction. -/
inductive OutAnswer where
  | ack
  | nyet
  | nak
  | busError
deriving DecidableEq, Repr

/-- The outcome of a periodic transaction of a micro-frame: the packets an IN interval brought, a NAK alone, a STALL or an
error, or the handshake of an OUT interval. -/
inductive PeriodicAnswer where
  | packets (l : List (List Byte))
  | nak
  | stall
  | error
  | taken
deriving DecidableEq, Repr

/-- A periodic transaction of a micro-frame, by port and endpoint address. -/
structure Periodic where
  port : Port
  ep : Byte
  answer : PeriodicAnswer
deriving DecidableEq, Repr

/-- A host's split transaction to a port's translator (R80): its key (device address, endpoint and direction as
CLEAR_TT_BUFFER names them), and for a complete-split what the device has answered by then, none while the downstream transaction
is not finished. -/
inductive SplitOp where
  | start (key : BitVec 16) (periodic : Bool) (bytes : List Byte)
  | complete (key : BitVec 16) (answer : Option XferResult)
deriving DecidableEq, Repr

/-- The classification of a CC line (R251). -/
inductive CcLine where
  | open
  | rd
  | ra
deriving DecidableEq, Repr

/-- SS_RATE (Table 6.6). -/
inductive SsRate where
  | none
  | gen1x1
  | gen1x2
  | gen2x1
  | gen2x2
deriving DecidableEq, Repr

/-- SS_LINK_STATE (Table 6.6). -/
inductive UpLink where
  | ssDisabled
  | rxDetect
  | ssInactive
  | polling
  | u0
  | u1
  | u2
  | u3
  | recovery
  | hotReset
  | compliance
  | loopback
deriving DecidableEq, Repr

/-- A host's request for packets on the SuperSpeed side of its upstream port, as it meets others ready at once (R200): an IN
endpoint of the MF, or an ACK transaction packet on an endpoint of a lifted position for a number of packets. -/
inductive UpRequest where
  | mf (ep : Byte)
  | lifted (p : Port) (ep : Byte) (n : Fin 32)
deriving DecidableEq, Repr

/-- A connect recognised on D+ or D- of a port, and whether its SuperSpeed link is training or in U0 then (R97). -/
structure Connect where
  port : Port
  ss : Bool
deriving DecidableEq, Repr

/-- A PD message as an upstream port receives it, and whether a Hard Reset arrives before its answer is sent (Table 6.7). -/
structure UpPdIn where
  bytes : List Byte
  cut : Bool
deriving DecidableEq, Repr

/-- A reset that a host asks of a hub port: setPortFeature(PORT_RESET) on either side, or BH_PORT_RESET, which USB 3.2 alone has. -/
inductive HubReset where
  | usb2
  | superSpeed
  | bh
deriving DecidableEq, Repr

/-- The side of the hub a reset is asked of. -/
def HubReset.side : HubReset → Side
  | .usb2 => .usb2
  | _ => .superSpeed

/-- A request to a hub, and whether the device answers ACK where the request starts an LPM transaction. -/
structure HubRequest where
  setup : Setup
  lpmAck : Bool
deriving DecidableEq, Repr

/-- An ACK transaction packet for `n` packets; `others`: the requests that reach UPk before all of them are sent, each with the
number of packets sent by then (R200). -/
structure AckTp where
  n : Fin 32
  others : List (Nat × UpRequest)
deriving DecidableEq, Repr

/-- The priority classes of packets on an upstream SuperSpeed link, in the order of R200 (link management apart). -/
inductive UpClass where
  | mf
  | isochronous
  | interrupt
  | control
  | bulk
deriving DecidableEq, Repr

/-! ## What the block puts on its outside wires -/

/-- How the device drives a port's D+ and D− (Tables 3.2, 3.9): 15 kΩ pull-downs, D+ joined to D− with the pull-downs removed, or
high-impedance. -/
inductive DataLines where
  | pullDowns
  | dcp
  | highZ
deriving DecidableEq, Repr

/-- What the block does on a downstream bus. -/
inductive BusAct where
  | se0
  | sofStop
  | sofStart
  | resumeK
  | warmReset
  | hotReset
  | ssDisabled
  | ssEnable
  | lsEop
  | lsKeepAlive
  | dataLines (l : DataLines)
  | ssU1
  | ssU2
  | ssU3
  | ssU0
  | lpmL1 (besl : Fin 16)
  | l1Exit
  | vdmSrcOn
  | vdmSrcOff
  | testMode (pattern : Byte)
deriving DecidableEq, Repr

/-- What the block does on an upstream port. -/
inductive UpAct where
  | laneMux (swapped : Bool)
  | terminationsOn
  | terminationsOff
  | pullUpOn
  | pullUpOff
  | lau
  | lxu
  | lgoU1
  | lgoU2
  | u3Exit
  | usb2Resume
  | lpmAck
  | lpmNyet
  | mfFunctionWake
deriving DecidableEq, Repr

/-- What a command made the block put on its outside wires. -/
inductive Emission where
  /-- A VCP response or event message as its bytes on session `m`'s transport. -/
  | vcp (m : Sess) (bytes : List Byte)
  /-- A PD message on a downstream port, by SOP* type. -/
  | pd (p : Port) (sop : Fin 5) (bytes : List Byte)
  /-- GoodCRC on a downstream port. -/
  | goodCrc (p : Port) (sop : Fin 5) (id : BitVec 3)
  /-- Hard Reset signalling on a downstream port. -/
  | hardReset (p : Port)
  /-- A PD message on an upstream port. -/
  | upPd (k : Part) (bytes : List Byte)
  /-- Data of a control transfer's data stage, to the host of a partition. -/
  | ctlData (k : Part) (bytes : List Byte)
  /-- The status stage of a control transfer completes. -/
  | ctlDone (k : Part)
  /-- Request Error: STALL on a control transfer. -/
  | ctlStall (k : Part)
  /-- A data packet is not accepted: NRDY, or NAK on the USB 2.0 side. -/
  | notReady (k : Part)
  /-- The bits of a chain frame, O[511] shifted out first; the word of position j is O[16j+15:16j] (R309). -/
  | chainOut (k : Slot) (bits : BitVec 512)
  /-- Characters on the UART of a port's SBU pins; `sbu2`: TX is on SBU2 (R289). -/
  | uartTx (p : Port) (sbu2 : Bool) (bytes : List Byte)
  /-- A SuperSpeed data packet of a presented endpoint (0 for EP0), to the host. -/
  | ssData (p : Port) (ep : Byte) (bytes : List Byte)
  /-- The last SuperSpeed data packet of a periodic service interval, marked last (R157). -/
  | ssDataLast (p : Port) (ep : Byte) (bytes : List Byte)
  /-- NRDY on a presented endpoint. -/
  | ssNrdy (p : Port) (ep : Byte)
  /-- ERDY on a presented endpoint. -/
  | ssErdy (p : Port) (ep : Byte)
  /-- STALL on a presented endpoint. -/
  | ssStall (p : Port) (ep : Byte)
  /-- Acknowledgement of a host's data packet, with its packet count. -/
  | ssAck (p : Port) (ep : Byte) (count : Nat)
  /-- The status stage of a presented control transfer completes. -/
  | ssStatus (p : Port)
  /-- Function Wake for a function, by its first interface. -/
  | functionWake (p : Port) (interface : Nat)
  /-- A SETUP on a downstream bus, to a device address. -/
  | dsSetup (p : Port) (address : Nat) (r : Setup)
  /-- A data packet on a downstream bus. -/
  | dsData (p : Port) (ep : Byte) (bytes : List Byte)
  /-- An IN token on a downstream bus. -/
  | dsIn (p : Port) (ep : Byte)
  /-- A PING token on a downstream bus. -/
  | dsPing (p : Port) (ep : Byte)
  /-- An SOF that the device generates, on a lifted or a translated bus. -/
  | dsSof (p : Port) (frame : BitVec 11)
  /-- What a downstream bus is made to do. -/
  | bus (p : Port) (a : BusAct)
  /-- What an upstream port is made to do. -/
  | up (k : Part) (a : UpAct)
  /-- An upstream PHY is made to drive a test pattern (0 ends it). -/
  | upTest (k : Part) (pattern : Byte)
  /-- A packet forwarded downstream by the repeater, a translator or a native position. -/
  | forwardDown (p : Port) (bytes : List Byte)
  /-- A packet for a native link in U1 or U2 is deferred: its header goes back to the host, and on to the device, with the Deferred bit
  set (R192). -/
  | deferred (k : Part) (p : Port)
  /-- A packet forwarded upstream by the repeater, a translator or a native position. -/
  | forwardUp (k : Part) (bytes : List Byte)
  /-- Data of an MF bulk IN endpoint other than the VCP's. -/
  | mfIn (k : Part) (ep : Byte) (bytes : List Byte)
  /-- STALL on a halted endpoint of the MF. -/
  | mfStall (k : Part) (ep : Byte)
  /-- The answer of the SMBus target to a Block Read: its bytes and the PEC. -/
  | smbusData (bytes : List Byte) (pec : Byte)
  /-- The SMBus target's own address, to the Alert Response Address. -/
  | smbusAddress (a : BitVec 7)
  /-- The bits that leave on TDO in a data register scan, first bit first. -/
  | tdo (bits : List Bool)
  /-- The boundary-scan cells that EXTEST drives onto their balls. -/
  | driven (cells : BitVec 103)
  /-- An AVSBus voltage write on rail 0, with commit, in mV (R351). -/
  | avsWrite (mv : Nat)
deriving DecidableEq, Repr

end Sys2Proof
end

