-- ==== Sys2Proof/Syntax.lean ====
section
/-! DEFINITION. The commands of the block: one constructor per row of the opcode table, with its operands. -/

namespace Sys2Proof

/-- A command of the block, with its operands. Ports, partitions, slots, banks and domains are named by number. -/
inductive Instr where
  /-- PORST_RELEASE (R330). `testmode`: the TESTMODE ball as sampled. `board`: what the board shows the boot. -/
  | porstRelease (testmode : Bool) (board : BoardIn)
  /-- PORST_ASSERT (R362). -/
  | porstAssert
  /-- VAON_FAILURE (R356). -/
  | vaonFailure
  /-- WRST_ASSERT (R363). -/
  | wrstAssert
  /-- EVENING_HOLD_EXPIRY (R330). -/
  | eveningHoldExpiry
  /-- AUTO_NIGHT_START (R334). -/
  | autoNightStart
  /-- DUSK_STEPS_COMPLETE (R331). -/
  | duskStepsComplete
  /-- DUSK_STEP_BOUND_EXPIRY (R331). -/
  | duskStepBoundExpiry
  /-- PREPARE_ANSWER (R336). The participant by its domain index. Whether it refuses follows from Table 10.6; `defer`: it is not ready yet. -/
  | prepareAnswer (d : Fin 25) (defer : Bool)
  /-- PREPARE_DEFER_EXPIRY (R336). -/
  | prepareDeferExpiry (d : Fin 25)
  /-- BUDGET_DOMAIN_ENTRY_START (R336). -/
  | budgetDomainEntryStart (d : Fin 25)
  /-- DOMAIN_EXIT_START (R199). The partition on whose path a link exits or a packet arrives. -/
  | domainExitStart (k : Part)
  /-- DOMAIN_EXIT_COMPLETE (R348). -/
  | domainExitComplete (d : Fin 25)
  /-- NIGHT_WAKE (R368). `code`: the source of Table 10.11. -/
  | nightWake (code : Fin 32)
  /-- MIDNIGHT_WAKE (R341). `code`: the source of Table 10.11. -/
  | midnightWake (code : Fin 32) (board : BoardIn)
  /-- WAKE_N_LOW (R367). -/
  | wakeNLow
  /-- WAKE_TIMER_EXPIRY (R367). -/
  | wakeTimerExpiry
  /-- MIDNIGHT_DETACH_DISCHARGE_END (R338). -/
  | midnightDetachDischargeEnd (p : Port)
  /-- DIE_SENSOR_SAMPLE (R355). `t`: the sixteen readings in 1/16 °C, signed. -/
  | dieSensorSample (t : Tab 16 (BitVec 16))
  /-- THERMAL_EVENING_EXPIRY (R337). -/
  | thermalEveningExpiry (sensor : Fin 16)
  /-- TJ_CRITICAL_EXPIRY (R355). -/
  | tjCriticalExpiry (sensor : Fin 16)
  /-- SUPPLY_WARNING (R356). `mv`: the rail as read, in mV. -/
  | supplyWarning (r : Fin 8) (mv : Nat)
  /-- SUPPLY_FAILURE (R356). `mv`: the rail as read, in mV. -/
  | supplyFailure (r : Fin 8) (mv : Nat)
  /-- RC_TO_CRYSTAL_SWITCH (R358). -/
  | rcToCrystalSwitch
  /-- RC_CALIBRATION (R358). -/
  | rcCalibration
  /-- REFCLK_LOSS (R359). -/
  | refclkLoss
  /-- AVS_REEVALUATE (R352). -/
  | avsReevaluate
  /-- AVS_REQUEST_COMPLETE (R351). The regulator's readings as AVS_GET returns them. -/
  | avsRequestComplete (voltage current temp status : BitVec 16)
  /-- AVS_TIMEOUT (R354). -/
  | avsTimeout
  /-- AVS_HOLDOFF_EXPIRY (R354). -/
  | avsHoldoffExpiry
  /-- PORT_DIE_LINK_RETRAIN (R17). -/
  | portDieLinkRetrain (d : Fin 2)
  /-- PORT_DIE_LINK_RETURN (R17). -/
  | portDieLinkReturn (d : Fin 2)
  /-- PORT_DIE_LINK_FAIL (R17). -/
  | portDieLinkFail (d : Fin 2)
  /-- POWER_DIE_LINK_TIMEOUT (R18). -/
  | powerDieLinkTimeout (d : Fin 2)
  /-- POWER_DIE_CORE_SILENCE (R19). -/
  | powerDieCoreSilence (d : Fin 2)
  /-- ALARM_PAIR_CHANGE (R21). `on`: the pair reads asserted. -/
  | alarmPairChange (pair : Fin 6) (on : Bool)
  /-- ALARM_LINE_FAULT (R21). `level`: the level both lines show. -/
  | alarmLineFault (pair : Fin 6) (level : Bool)
  /-- DETECTOR_MESSAGE (R411). -/
  | detectorMessage (source : BitVec 12) (kind : Byte) (info : BitVec 32) (injected : Bool) (place : Option (Port × Byte))
  /-- FAULT_N_PULSE_END (R421). -/
  | faultNPulseEnd
  /-- SAFE_HOLD_RESTART_DONE (R426). -/
  | safeHoldRestartDone
  /-- REACTION_COMPLETE (R423). `aged`: automatic returns that have left the trailing 600 s. `intact`: the retained copy passes its check after a management restart. -/
  | reactionComplete (r : Reaction) (aged : Nat) (intact : Bool)
  /-- RESET_SHADOW_END (R420). -/
  | resetShadowEnd (r : Reaction)
  /-- WATCHDOG_KICK (R425). -/
  | watchdogKick
  /-- WATCHDOG_EXPIRY (R425). -/
  | watchdogExpiry
  /-- INJECTION_DURATION_END (R429). -/
  | injectionDurationEnd (source : BitVec 12) (kind : Byte)
  /-- INJECTION_ARM_TIMEOUT (R429). -/
  | injectionArmTimeout (source : BitVec 12) (kind : Byte)
  /-- UPSTREAM_ATTACH (R179). `rp`: the host's Rp as HOST_RP codes it. `vbus`: the VBUS-present input. -/
  | upstreamAttach (k : Part) (orientation : Bool) (rp : Fin 4) (vbus : Bool)
  /-- UPSTREAM_DETACH (R179). -/
  | upstreamDetach (k : Part)
  /-- UPSTREAM_VBUS_ABSENT (R179). `late`: the absence has outlasted the Hard Reset timing. -/
  | upstreamVbusAbsent (k : Part) (late : Bool)
  /-- UPSTREAM_PD_MESSAGE (R182). -/
  | upstreamPdMessage (k : Part) (m : UpPdIn)
  /-- UPSTREAM_HARD_RESET (R183). -/
  | upstreamHardReset (k : Part)
  /-- SS_LINK_U0 (R185). -/
  | ssLinkU0 (k : Part) (rate : SsRate)
  /-- SS_DECIDING_EXPIRY (R185). -/
  | ssDecidingExpiry (k : Part)
  /-- SS_INACTIVE_EXPIRY (R186). -/
  | ssInactiveExpiry (k : Part) (link : UpLink)
  /-- SS_LINK_DISABLED (R186). -/
  | ssLinkDisabled (k : Part)
  /-- LGO_U1_U2 (R189). `unacked`: a header packet the device sent still awaits its acknowledgement. -/
  | lgoU1U2 (k : Part) (u2 unacked : Bool)
  /-- DEVICE_U1_U2_ENTRY (R190). `unacked`: a header packet the device sent still awaits its acknowledgement. -/
  | deviceU1U2Entry (k : Part) (u2 unacked : Bool)
  /-- UPSTREAM_U3_ENTRY (R193). -/
  | upstreamU3Entry (k : Part)
  /-- UPSTREAM_U3_EXIT (R56). -/
  | upstreamU3Exit (k : Part)
  /-- SS_WARM_RESET (R197). -/
  | ssWarmReset (k : Part)
  /-- SS_HOT_RESET (R197). -/
  | ssHotReset (k : Part)
  /-- USB2_BUS_RESET (R197). `highSpeed`: the chirp completes. -/
  | usb2BusReset (k : Part) (highSpeed : Bool)
  /-- USB2_LPM_TRANSACTION (R196). -/
  | usb2LpmTransaction (k : Part) (hird : BitVec 4)
  /-- USB2_SUSPEND (R195). -/
  | usb2Suspend (k : Part)
  /-- USB2_RESUME (R195). `byDevice`: the device signals remote wake. -/
  | usb2Resume (k : Part) (byDevice : Bool)
  /-- MF_STANDARD_REQUEST (R203). `data`: the data stage of a SET_SEL. -/
  | mfStandardRequest (k : Part) (r : Setup) (data : List Byte)
  /-- MF_BULK_OUT_COMMAND (R386). -/
  | mfBulkOutCommand (k : Part) (bytes : List Byte)
  /-- VCP_COMMAND (R387). -/
  | vcpCommand (k : Part) (bytes : List Byte)
  /-- VCP_LAST_RESPONSE (R386). `len`: wLength. -/
  | vcpLastResponse (k : Part) (len : BitVec 16)
  /-- MF_OTHER_VENDOR_REQUEST (R386). -/
  | mfOtherVendorRequest (k : Part) (r : Setup)
  /-- DOORBELL_RING (R390). -/
  | doorbellRing (bus : OobBus) (mask : BitVec 3)
  /-- SMBUS_DOORBELL_WRITE (R392). `pecOk`: the PEC byte is right, or the host sends none. -/
  | smbusDoorbellWrite (pecOk : Bool)
  /-- SMBUS_SET_POINTER (R392). `pecOk`: the PEC byte is right, or the host sends none. -/
  | smbusSetPointer (address : BitVec 16) (pecOk : Bool)
  /-- SMBUS_ALERT_RESPONSE (R393). -/
  | smbusAlertResponse
  /-- RSP_DONE (R391). -/
  | rspDone (m : Mbox)
  /-- EVT_DONE (R391). -/
  | evtDone (m : Mbox)
  /-- CRC_ERR_CLEAR (R372). -/
  | crcErrClear (m : Mbox)
  /-- REGISTER_WRITE (R389). -/
  | registerWrite (w : OobWrite) (bytes : List Byte)
  /-- HELLO_OPEN (R376). -/
  | helloOpen (m : VcpMsg)
  /-- HELLO_FORCE_OPEN (R376). -/
  | helloForceOpen (m : VcpMsg)
  /-- HELLO_GRANT (R378). -/
  | helloGrant (m : VcpMsg)
  /-- HELLO_REVOKE (R378). -/
  | helloRevoke (m : VcpMsg)
  /-- RESYNC (R385). -/
  | resync (m : VcpMsg)
  /-- EVENT_ACK (R383). -/
  | eventAck (m : VcpMsg)
  /-- CLOSE (R377). -/
  | close (m : VcpMsg)
  /-- GET_INFO (R374). -/
  | getInfo (m : VcpMsg)
  /-- GET_STATUS (R374). -/
  | getStatus (m : VcpMsg)
  /-- GET_TEMPS (R355). -/
  | getTemps (m : VcpMsg)
  /-- UNSUPPORTED_OPCODE (R374). -/
  | unsupportedOpcode (opcode : BitVec 16) (m : VcpMsg)
  /-- PART_GET (R204). -/
  | partGet (m : VcpMsg)
  /-- PART_ASSIGN_PORT (R49). -/
  | partAssignPort (m : VcpMsg)
  /-- PART_SET_LIMITS (R54). -/
  | partSetLimits (m : VcpMsg)
  /-- PART_CONNECT (R56). -/
  | partConnect (m : VcpMsg)
  /-- PART_DISCONNECT (R56). -/
  | partDisconnect (m : VcpMsg)
  /-- DEFERRED_DISCONNECT_EXECUTE (R57). -/
  | deferredDisconnectExecute (k : Part)
  /-- PORT_GET (R68). -/
  | portGet (m : VcpMsg)
  /-- PORT_SET_MODE (R66). -/
  | portSetMode (m : VcpMsg)
  /-- PORT_RESET (R95). -/
  | portReset (m : VcpMsg)
  /-- PORT_QUENCH (R92). -/
  | portQuench (m : VcpMsg)
  /-- PORT_RELEASE (R93). -/
  | portRelease (m : VcpMsg)
  /-- PORT_SET_BC (R79). -/
  | portSetBc (m : VcpMsg)
  /-- LIFT_GET_POLICY (R103). -/
  | liftGetPolicy (m : VcpMsg)
  /-- LIFT_SET_CLASSLIST (R103). -/
  | liftSetClasslist (m : VcpMsg)
  /-- LIFT_SET_EP_BOUNDARY (R152). -/
  | liftSetEpBoundary (m : VcpMsg)
  /-- LIFT_GET_EP_STATS (R175). -/
  | liftGetEpStats (m : VcpMsg)
  /-- LIFT_CLEAR_POISON (R172). -/
  | liftClearPoison (m : VcpMsg)
  /-- PD_SET_OFFER (R264). -/
  | pdSetOffer (m : VcpMsg)
  /-- PD_SEND (R257). -/
  | pdSend (m : VcpMsg)
  /-- PD_SET_AUTORESP (R267). -/
  | pdSetAutoresp (m : VcpMsg)
  /-- PD_HARD_RESET (R273). -/
  | pdHardReset (m : VcpMsg)
  /-- CC_SET_RP (R252). -/
  | ccSetRp (m : VcpMsg)
  /-- SBU_SET_ROUTE (R289). -/
  | sbuSetRoute (m : VcpMsg)
  /-- PD_SET_TIMERS (R262). -/
  | pdSetTimers (m : VcpMsg)
  /-- SLOT_GET (R322). -/
  | slotGet (m : VcpMsg)
  /-- SLOT_SET_LIMITS (R321). -/
  | slotSetLimits (m : VcpMsg)
  /-- SLOT_ENABLE (R307). -/
  | slotEnable (m : VcpMsg)
  /-- SLOT_CLEAR_LATCH (R301). -/
  | slotClearLatch (m : VcpMsg)
  /-- VBUS_SET (R315). -/
  | vbusSet (m : VcpMsg)
  /-- PPC_GET (R324). -/
  | ppcGet (m : VcpMsg)
  /-- MODE_GET (R328). -/
  | modeGet (m : VcpMsg)
  /-- MODE_REQUEST (R333). `board`: what the board shows the boot of a restart. -/
  | modeRequest (m : VcpMsg) (board : BoardIn)
  /-- LAT_BUDGET_SET (R347). -/
  | latBudgetSet (m : VcpMsg)
  /-- WAKE_SOURCES_SET (R329). -/
  | wakeSourcesSet (m : VcpMsg)
  /-- AVS_GET (R354). -/
  | avsGet (m : VcpMsg)
  /-- PBM_GET_STATS (R244). -/
  | pbmGetStats (m : VcpMsg)
  /-- PBM_SET_SCRUB (R243). -/
  | pbmSetScrub (m : VcpMsg)
  /-- PBM_RETIRE (R232). -/
  | pbmRetire (m : VcpMsg)
  /-- PBM_FLIPMASK (R240). -/
  | pbmFlipmask (m : VcpMsg)
  /-- FAULT_READ (R414). -/
  | faultRead (m : VcpMsg)
  /-- FAULT_ACK (R414). -/
  | faultAck (m : VcpMsg)
  /-- FAULT_SET_SEVERITY (R417). -/
  | faultSetSeverity (m : VcpMsg)
  /-- FAULT_INJECT (R429). -/
  | faultInject (m : VcpMsg)
  /-- FAULTPIN_CONTROL (R421). -/
  | faultpinControl (m : VcpMsg)
  /-- FW_GET (R401). -/
  | fwGet (m : VcpMsg)
  /-- FW_STAGE_BEGIN (R403). -/
  | fwStageBegin (m : VcpMsg)
  /-- FW_STAGE_DATA (R403). -/
  | fwStageData (m : VcpMsg)
  /-- FW_STAGE_COMMIT (R403). -/
  | fwStageCommit (m : VcpMsg)
  /-- FW_ACTIVATE (R406). -/
  | fwActivate (m : VcpMsg)
  /-- ACTIVATION_PAUSE_END (R406). -/
  | activationPauseEnd
  /-- ACTIVATION_LOAD_FAIL (R406). -/
  | activationLoadFail
  /-- TRIAL_PASS (R407). -/
  | trialPass
  /-- TRIAL_FAIL (R408). `dead`: the new image no longer runs. -/
  | trialFail (dead : Bool)
  /-- DIAG_LOOPBACK (R340). -/
  | diagLoopback (m : VcpMsg)
  /-- DIAG_PHY_TEST (R340). -/
  | diagPhyTest (m : VcpMsg)
  /-- DIAG_EYE (R340). -/
  | diagEye (m : VcpMsg)
  /-- JTAG_BYPASS (R365). The bits shifted in on TDI. -/
  | jtagBypass (tdi : List Bool)
  /-- JTAG_IDCODE (R447). -/
  | jtagIdcode
  /-- JTAG_SAMPLE_PRELOAD (R365). `balls`: the levels captured; `cells`: the values shifted in. -/
  | jtagSamplePreload (balls cells : BitVec 103)
  /-- JTAG_EXTEST (R365). `balls`: the levels captured; `cells`: the values shifted in. -/
  | jtagExtest (balls cells : BitVec 103)
  /-- CONNECT_RECOGNISED (R70). -/
  | connectRecognised (c : Connect)
  /-- DISCONNECT_RECOGNISED (R70). -/
  | disconnectRecognised (p : Port)
  /-- PRESENTATION_POSSIBLE (R69). -/
  | presentationPossible (p : Port)
  /-- DEBOUNCE_COMPLETE (R71). -/
  | debounceComplete (p : Port)
  /-- DEVICE_RESET_SE0_END (R72). `found`: the speed the reset finds. -/
  | deviceResetSe0End (p : Port) (found : FoundSpeed)
  /-- RESET_RECOVERY_END (R72). -/
  | resetRecoveryEnd (p : Port)
  /-- PROBE_REQUEST_COMPLETE (R107). -/
  | probeRequestComplete (p : Port) (r : XferResult)
  /-- PROBE_REQUEST_TIMEOUT (R108). -/
  | probeRequestTimeout (p : Port)
  /-- PROBE_TIMEOUT (R109). -/
  | probeTimeout (p : Port)
  /-- NATIVE_SS_U0_HELD (R96). -/
  | nativeSsU0Held (p : Port) (gen2 : Bool)
  /-- HOST_PORT_RESET (R130). -/
  | hostPortReset (k : Part) (pos : Pos) (f : HubReset)
  /-- HOST_RESET_SE0_END (R73). `found`: the speed the reset finds. -/
  | hostResetSe0End (p : Port) (found : FoundSpeed)
  /-- HUB_TOP_PORT_RESET (R42). `n`: port n + 1 of the top hub. -/
  | hubTopPortReset (k : Part) (f : HubReset) (n : Fin 9)
  /-- HUB_CLEAR_PORT_POWER (R42). -/
  | hubClearPortPower (k : Part) (side : Side) (q : HubPort)
  /-- HUB_SET_PORT_POWER (R42). -/
  | hubSetPortPower (k : Part) (side : Side) (q : HubPort)
  /-- HUB_SET_PORT_INDICATOR (R42). -/
  | hubSetPortIndicator (k : Part) (side : Side) (q : HubPort)
  /-- HUB_PORT_SUSPEND (R87). -/
  | hubPortSuspend (k : Part) (q : HubPort)
  /-- HUB_PORT_RESUME (R87). -/
  | hubPortResume (k : Part) (q : HubPort)
  /-- CLEAR_TT_BUFFER (R81). `key`: wValue, the device address, endpoint and direction. -/
  | clearTtBuffer (k : Part) (pos : Pos) (key : BitVec 16)
  /-- RESET_TT (R81). -/
  | resetTt (k : Part) (pos : Pos)
  /-- GET_TT_STATE (R42). -/
  | getTtState (k : Part) (pos : Pos)
  /-- STOP_TT (R42). -/
  | stopTt (k : Part) (pos : Pos)
  /-- HUB_STANDARD_REQUEST (R42). -/
  | hubStandardRequest (k : Part) (side : Side) (h : HubIx) (r : HubRequest)
  /-- LIFT_SUSPEND_ORDER (R134). -/
  | liftSuspendOrder (p : Port)
  /-- LIFT_RESUME_ORDER (R135). -/
  | liftResumeOrder (p : Port)
  /-- RESUME_K_END (R88). -/
  | resumeKEnd (p : Port)
  /-- REMOTE_WAKE_K_RECOGNISED (R165). `delta`: the time in µs between the two resume starts, as LIFT_WAKE_COLLISION reports it. -/
  | remoteWakeKRecognised (p : Port) (delta : BitVec 16)
  /-- U3_EXIT_HANDSHAKE_COMPLETE (R165). -/
  | u3ExitHandshakeComplete (p : Port)
  /-- HOST_U3_EXIT_COLLISION (R166). `delta`: the time in µs between the two resume starts, as LIFT_WAKE_COLLISION reports it. -/
  | hostU3ExitCollision (p : Port) (delta : BitVec 16)
  /-- UNARMED_WAKE_RESUSPEND (R168). -/
  | unarmedWakeResuspend (p : Port)
  /-- L1_IDLE_EXPIRY (R90). -/
  | l1IdleExpiry (p : Port)
  /-- L1_EXIT_REQUEST (R91). -/
  | l1ExitRequest (p : Port)
  /-- PORT_BABBLE (R98). -/
  | portBabble (p : Port)
  /-- DRAIN_COMPLETE (R74). -/
  | drainComplete (p : Port)
  /-- DRAIN_WINDOW_EXPIRY (R74). -/
  | drainWindowExpiry (p : Port)
  /-- DISCHARGE_INTERVAL_END (R76). -/
  | dischargeIntervalEnd (p : Port)
  /-- STD_GET_STATUS (R119). -/
  | stdGetStatus (p : Port) (recipient : Fin 3) (index len : BitVec 16)
  /-- STD_CLEAR_ENDPOINT_HALT (R122). -/
  | stdClearEndpointHalt (p : Port) (ep : Byte)
  /-- STD_SET_ENDPOINT_HALT (R119). -/
  | stdSetEndpointHalt (p : Port) (ep : Byte)
  /-- STD_SET_FUNCTION_SUSPEND (R119). -/
  | stdSetFunctionSuspend (p : Port) (interface : Byte) (suspend wake : Bool)
  /-- STD_U1_U2_ENABLE (R119). -/
  | stdU1U2Enable (p : Port) (u2 on : Bool)
  /-- STD_SET_LTM_ENABLE (R119). -/
  | stdSetLtmEnable (p : Port)
  /-- STD_DEVICE_REMOTE_WAKEUP (R119). -/
  | stdDeviceRemoteWakeup (p : Port) (on : Bool)
  /-- STD_SET_TEST_MODE (R119). -/
  | stdSetTestMode (p : Port) (selector : Byte)
  /-- STD_SET_ADDRESS (R119). -/
  | stdSetAddress (p : Port) (address : BitVec 7)
  /-- STD_GET_DESCRIPTOR (R118). -/
  | stdGetDescriptor (p : Port) (type index : Byte) (language len : BitVec 16)
  /-- STD_SET_DESCRIPTOR (R119). -/
  | stdSetDescriptor (p : Port) (type index : Byte) (language len : BitVec 16)
  /-- STD_GET_CONFIGURATION (R119). -/
  | stdGetConfiguration (p : Port)
  /-- STD_SET_CONFIGURATION (R121). -/
  | stdSetConfiguration (p : Port) (value : Byte)
  /-- STD_GET_INTERFACE (R119). -/
  | stdGetInterface (p : Port) (interface : Byte)
  /-- STD_SET_INTERFACE (R121). -/
  | stdSetInterface (p : Port) (interface alt : Byte)
  /-- STD_SYNCH_FRAME (R119). -/
  | stdSynchFrame (p : Port) (ep : Byte)
  /-- STD_SET_SEL (R119). -/
  | stdSetSel (p : Port) (data : List Byte)
  /-- STD_SET_ISOCH_DELAY (R119). -/
  | stdSetIsochDelay (p : Port) (delay : BitVec 16)
  /-- STD_OTHER_REQUEST (R119). -/
  | stdOtherRequest (p : Port) (r : Setup)
  /-- CLASS_VENDOR_REQUEST (R123). -/
  | classVendorRequest (p : Port) (r : Setup)
  /-- CONTROL_WRITE_DATA_PACKET (R125). -/
  | controlWriteDataPacket (p : Port) (bytes : List Byte)
  /-- DOWNSTREAM_CONTROL_IN_PACKET (R126). What the device answers to the IN token. -/
  | downstreamControlInPacket (p : Port) (r : InAnswer)
  /-- DOWNSTREAM_STATUS_COMPLETE (R127). -/
  | downstreamStatusComplete (p : Port) (r : XferResult)
  /-- MICROFRAME_BOUNDARY (R84). `l`: how the periodic transactions of the micro-frame end. -/
  | microframeBoundary (l : List Periodic)
  /-- HS_BULK_IN_PACKET (R150). -/
  | hsBulkInPacket (p : Port) (ep : Byte) (r : InAnswer)
  /-- HOLD_WINDOW_EXPIRY (R151). -/
  | holdWindowExpiry (p : Port) (ep : Byte)
  /-- SS_ACK_TP_RECEIVED (R143). -/
  | ssAckTpReceived (p : Port) (ep : Byte) (a : AckTp)
  /-- SS_BULK_OUT_PACKET (R144). -/
  | ssBulkOutPacket (p : Port) (ep : Byte) (bytes : List Byte)
  /-- HS_OUT_TRANSACTION_COMPLETE (R144). Endpoint 0 is the data stage of a control write. -/
  | hsOutTransactionComplete (p : Port) (ep : Byte) (r : OutAnswer)
  /-- HS_OUT_STALL (R176). -/
  | hsOutStall (p : Port) (ep : Byte)
  /-- INTEREST_LAPSE (R142). -/
  | interestLapse (p : Port) (ep : Byte)
  /-- SS_INTERRUPT_OUT_INTERVAL (R158). -/
  | ssInterruptOutInterval (p : Port) (ep : Byte) (bytes : List Byte)
  /-- ISOCH_TIMESTAMP_RECEIVED (R160). -/
  | isochTimestampReceived (k : Part) (interval : BitVec 14) (delta : BitVec 13)
  /-- SS_ISO_OUT_PACKET (R161). `bad`: received with an error. -/
  | ssIsoOutPacket (p : Port) (ep : Byte) (bytes : List Byte) (bad : Bool)
  /-- MERGE_AGE_FLUSH (R225). `word`: the logical word of the entry, row × 64 + word. -/
  | mergeAgeFlush (b : Bank) (word : Nat)
  /-- SCRUB_WORD (R231). `queued`: a write to the word waits in the bank's queue. -/
  | scrubWord (b : Bank) (queued : Bool)
  /-- BUCKET_LEAK_INTERVAL (R220). -/
  | bucketLeakInterval
  /-- BANK_ROW_EMPTY_MOVE (R236). -/
  | bankRowEmptyMove (b : Bank) (row : Nat)
  /-- BANK_ROW_TIMEOUT_COPY (R236). -/
  | bankRowTimeoutCopy (b : Bank) (row : Nat)
  /-- CC_PATTERN_CHANGE (R254). -/
  | ccPatternChange (p : Port) (cc1 cc2 : CcLine)
  /-- TCC_DEBOUNCE_EXPIRY (R254). -/
  | tccDebounceExpiry (p : Port)
  /-- TPD_DEBOUNCE_EXPIRY (R254). -/
  | tpdDebounceExpiry (p : Port)
  /-- RA_LOST (R254). -/
  | raLost (p : Port)
  /-- VCONN_OVERCURRENT (R284). -/
  | vconnOvercurrent (p : Port)
  /-- ERROR_RECOVERY_EXPIRY (R254). -/
  | errorRecoveryExpiry (p : Port)
  /-- CABLE_DISCOVERY_START (R266). -/
  | cableDiscoveryStart (p : Port)
  /-- SOURCE_CAPABILITIES_SEND (R266). -/
  | sourceCapabilitiesSend (p : Port)
  /-- TYPEC_SEND_SOURCE_CAP_EXPIRY (R263). -/
  | typecSendSourceCapExpiry (p : Port)
  /-- PD_SOP_DETECTED (R277). `size`: the length the writer places the item by. -/
  | pdSopDetected (p : Port) (sop : Fin 5) (size : Fin 300)
  /-- PD_MESSAGE_RECEIVED (R267). -/
  | pdMessageReceived (p : Port) (sop : Fin 5) (bytes : List Byte)
  /-- PD_GOODCRC_RECEIVED (R256). -/
  | pdGoodcrcReceived (p : Port)
  /-- PD_RECEIVE_TIMEOUT (R256). -/
  | pdReceiveTimeout (p : Port)
  /-- FWD_DEADLINE_EXPIRY (R268). -/
  | fwdDeadlineExpiry (p : Port)
  /-- WAIT_RETRY_EXPIRY (R262). -/
  | waitRetryExpiry (p : Port)
  /-- SINK_TX_EXPIRY (R259). -/
  | sinkTxExpiry (p : Port)
  /-- SENDER_RESPONSE_TIMEOUT (R263). -/
  | senderResponseTimeout (p : Port)
  /-- NO_RESPONSE_TIMEOUT (R263). -/
  | noResponseTimeout (p : Port)
  /-- PPS_TIMEOUT (R263). -/
  | ppsTimeout (p : Port)
  /-- SRC_TRANSITION_EXPIRY (R267). -/
  | srcTransitionExpiry (p : Port)
  /-- TRANSITION_PGOOD (R318). -/
  | transitionPgood (p : Port)
  /-- TRANSITION_TIMEOUT (R271). -/
  | transitionTimeout (p : Port)
  /-- HARD_RESET_RECEIVED (R273). -/
  | hardResetReceived (p : Port)
  /-- PS_HARD_RESET_EXPIRY (R273). -/
  | psHardResetExpiry (p : Port)
  /-- SRC_RECOVER_EXPIRY (R273). -/
  | srcRecoverExpiry (p : Port)
  /-- VCONN_SOURCE_TIMEOUT (R285). -/
  | vconnSourceTimeout (p : Port)
  /-- VCONN_LINE_LOW (R286). -/
  | vconnLineLow (p : Port)
  /-- PD_QUEUE_POP (R279). -/
  | pdQueuePop (k : Slot)
  /-- CDC_SET_LINE_CODING (R291). The line coding's dwDTERate, bCharFormat, bParityType and bDataBits. -/
  | cdcSetLineCoding (k : Part) (u : Fin 6) (rate : BitVec 32) (format parity bits : Byte)
  /-- CDC_GET_LINE_CODING (R291). -/
  | cdcGetLineCoding (k : Part) (u : Fin 6)
  /-- CDC_SET_CONTROL_LINE_STATE (R291). -/
  | cdcSetControlLineState (k : Part) (u : Fin 6) (lines : BitVec 16)
  /-- CDC_SEND_BREAK (R291). -/
  | cdcSendBreak (k : Part) (u : Fin 6) (ms : BitVec 16)
  /-- SEAT_N_LOW (R298). -/
  | seatNLow (k : Slot)
  /-- SEAT_N_HIGH (R298). -/
  | seatNHigh (k : Slot)
  /-- SEAT_DEBOUNCE_EXPIRY (R298). -/
  | seatDebounceExpiry (k : Slot)
  /-- START_CONDITION_HOLDS (R298). `mv`: VIN. -/
  | startConditionHolds (k : Slot) (mv : Nat)
  /-- PG_CONDITIONS_HOLD (R298). -/
  | pgConditionsHold (k : Slot)
  /-- PG_CONDITIONS_LOST (R298). -/
  | pgConditionsLost (k : Slot)
  /-- PG_DELAY_EXPIRY (R298). -/
  | pgDelayExpiry (k : Slot)
  /-- PG_LOST_TRIP (R298). -/
  | pgLostTrip (k : Slot)
  /-- FAST_TRIP (R294). `sense`: the sense voltage seen. -/
  | fastTrip (k : Slot) (sense : BitVec 12)
  /-- BREAKER_TIMEOUT (R294). `sense`: the sense voltage seen. -/
  | breakerTimeout (k : Slot) (sense : BitVec 12)
  /-- RAMP_STALL (R299). -/
  | rampStall (k : Slot)
  /-- VIN_WINDOW_EXIT (R298). `mv`: VIN. -/
  | vinWindowExit (k : Slot) (mv : Nat)
  /-- OFF_TIME_EXPIRY (R300). `mv`: VIN. -/
  | offTimeExpiry (k : Slot) (mv : Nat)
  /-- TRIP_WINDOW_AGING (R300). -/
  | tripWindowAging (k : Slot)
  /-- SLOT_TELEMETRY_SAMPLE (R296). -/
  | slotTelemetrySample (k : Slot) (vin vout sense : BitVec 12)
  /-- SLOT_DISABLE_TIMEOUT (R307). -/
  | slotDisableTimeout (k : Slot)
  /-- CHAIN_FRAME (R311). `input`: the input bytes of Table 9.8, by position. -/
  | chainFrame (k : Slot) (input : List Byte)
  /-- CHAIN_SETTLING_TIMEOUT (R313). -/
  | chainSettlingTimeout (k : Slot)
  /-- VBUS_RELEASE_STAGGER (R305). -/
  | vbusReleaseStagger (k : Slot)
  /-- NO_PGOOD_TIMEOUT (R319). -/
  | noPgoodTimeout (p : Port)
  /-- PGOOD_LOST_TIMEOUT (R319). -/
  | pgoodLostTimeout (p : Port)
  /-- POWER_DIE_LINK_RESUME (R19). -/
  | powerDieLinkResume (d : Fin 2)
  /-- SUPPLY_WARNING_CLEAR (R337). -/
  | supplyWarningClear
  /-- MF_IN_TRANSFER (R388). -/
  | mfInTransfer (k : Part) (ep : Byte)
  /-- CDC_BULK_OUT_DATA (R288). -/
  | cdcBulkOutData (k : Part) (u : Fin 6) (data : List Byte)
  /-- SBU_UART_RX (R288). -/
  | sbuUartRx (p : Port) (c : Byte)
  /-- SMBUS_CLOCK_LOW_TIMEOUT (R445). -/
  | smbusClockLowTimeout
  /-- MIDNIGHT_CONTRACT_RELEASE_EXPIRY (R331). -/
  | midnightContractReleaseExpiry (p : Port)
  /-- VIRTUAL_LINK_INACTIVITY_TIMEOUT (R192). -/
  | virtualLinkInactivityTimeout (k : Part) (q : HubPort) (u2 : Bool)
  /-- NATIVE_SS_PACKET_RECEIVED (R96). -/
  | nativeSsPacketReceived (p : Port) (fromDevice : Bool) (bytes : List Byte)
  /-- TT_SPLIT_TRANSACTION (R80). -/
  | ttSplitTransaction (k : Part) (pos : Pos) (op : SplitOp)
  /-- PASSTHROUGH_TRANSACTION (R86). `answer`: what the device sends back. `lpmAck`: the packet is an LPM transaction that it acknowledges. -/
  | passthroughTransaction (k : Part) (pos : Pos) (packet answer : List Byte) (lpmAck : Bool)
  /-- WRST_RELEASE (R364). `board`: what the board shows the boot. -/
  | wrstRelease (board : BoardIn)
  /-- VDP_SRC_DETECTED (R78). `present`: VDP_SRC seen, or gone. -/
  | vdpSrcDetected (p : Port) (present : Bool)
deriving DecidableEq, Repr

end Sys2Proof
end

