-- ==== Sys2Proof/Decode.lean ====
section
/-! DEFINITION. The command that a word spells. No row of the opcode table gives bits, so no word spells one. -/

namespace Sys2Proof

/-- The command spelt by a word of the table's bits: the table gives no row any bits. [DESIGN CHOICE: log 3] -/
def decodeTableWord (_nbits _w : Nat) : Option Instr := none

end Sys2Proof
end

