-- ==== Sys2Proof/Machine/Bits.lean ====
section
/-! DEFINITION. Bit fields, little-endian byte layouts, the CRC-32 of R372 and the error codes of R215 and R245. -/

namespace Sys2Proof.Machine

open Sys2Proof

/-- Two bytes, least significant first (R370). -/
def le16 (n : Nat) : List Byte := [BitVec.ofNat 8 n, BitVec.ofNat 8 (n / 256)]

/-- Four bytes, least significant first (R370). -/
def le32 (n : Nat) : List Byte := le16 n ++ le16 (n / 65536)

/-- Eight bytes, least significant first (R370). -/
def le64 (n : Nat) : List Byte := le32 n ++ le32 (n / 4294967296)

/-- The byte at an offset; 0 beyond the end. -/
def byteAt (l : List Byte) (i : Nat) : Byte := l.getD i 0

/-- The byte at an offset as a number. -/
def get8 (l : List Byte) (i : Nat) : Nat := (byteAt l i).toNat

/-- The 16-bit field at an offset (R370). -/
def get16 (l : List Byte) (i : Nat) : Nat := get8 l i + 256 * get8 l (i + 1)

/-- The 32-bit field at an offset (R370). -/
def get32 (l : List Byte) (i : Nat) : Nat := get16 l i + 65536 * get16 l (i + 2)

/-- The 32-bit field at an offset, as bits. -/
def bits32 (l : List Byte) (i : Nat) : BitVec 32 := BitVec.ofNat 32 (get32 l i)

/-- Bits `lo` and up of a number, `w` of them. -/
def field (n lo w : Nat) : Nat := (n / 2 ^ lo) % 2 ^ w

/-- A bit of a number. -/
def bit (n i : Nat) : Bool := n.testBit i

/-- A Boolean as 0 or 1. -/
def bnat (b : Bool) : Nat := if b then 1 else 0

/-- `n` zero bytes. -/
def zeros (n : Nat) : List Byte := List.replicate n 0

/-- Whether every byte of a slice is zero (reserved fields, R10). -/
def zeroSlice (l : List Byte) (i n : Nat) : Bool := ((l.drop i).take n).all (· == 0)

/-- A counter of `w` bits that saturates. -/
def satAdd (w n k : Nat) : Nat := min (n + k) (2 ^ w - 1)

/-- One bit of the CRC-32 of IEEE 802.3, reflected. -/
def crcStep (c : BitVec 32) : BitVec 32 := if c.getLsbD 0 then (c >>> 1) ^^^ 0xEDB88320#32 else c >>> 1

/-- One byte of the CRC-32. -/
def crcByte (c : BitVec 32) (b : Byte) : BitVec 32 :=
  crcStep (crcStep (crcStep (crcStep (crcStep (crcStep (crcStep (crcStep (c ^^^ b.setWidth 32))))))))

/-- The CRC-32 of R372: reflected polynomial 0x04C1_1DB7, initial value and final XOR all ones. [PRESUMED: log 71] -/
def crc32 (l : List Byte) : BitVec 32 := l.foldl crcByte 0xFFFFFFFF#32 ^^^ 0xFFFFFFFF#32

/-- The number of set bits among the lowest `w`. -/
def weight (w n : Nat) : Nat := (List.range w).foldl (fun a i => a + bnat (n.testBit i)) 0

/-- The `w`-bit values of a given weight, ascending. -/
def ofWeight (w k : Nat) : List Nat := (List.range (2 ^ w)).filter (fun n => weight w n == k)

/-- The columns of the PBM code by code word position (R215): d0–d83 weight 3, d84–d127 the 44 smallest of weight 5,
then c0–c8. -/
def pbmColumns : List Nat := ofWeight 9 3 ++ (ofWeight 9 5).take 44 ++ (List.range 9).map (2 ^ ·)

/-- The columns of the TT buffer code (R245): 56 of weight 3, the 8 smallest of weight 5, then the check bits. -/
def ttColumns : List Nat := ofWeight 8 3 ++ (ofWeight 8 5).take 8 ++ (List.range 8).map (2 ^ ·)

/-- The XOR of the columns of a word's set bits, from position `i` on. -/
def xorColumns : List Nat → Nat → Nat → Nat
  | [], _, _ => 0
  | c :: cs, i, n => (if n.testBit i then c else 0) ^^^ xorColumns cs (i + 1) n

/-- The syndrome of a PBM code word (R215). -/
def pbmSyndrome (cw : BitVec 137) : BitVec 9 := BitVec.ofNat 9 (xorColumns pbmColumns 0 cw.toNat)

/-- The code word of 128 data bits (R215): the data with the check bits the code gives for it. -/
def pbmEncode (data : BitVec 128) : BitVec 137 :=
  BitVec.ofNat 9 (xorColumns (pbmColumns.take 128) 0 data.toNat) ++ data

/-- What a checker makes of a word (Table 7.4). -/
inductive EccClass where
  | clean
  | correctable (position : Nat)
  | poison
  | double
  | multiple
deriving DecidableEq, Repr

/-- The class of a syndrome (Table 7.4). -/
def classify (syn : BitVec 9) : EccClass :=
  if syn = 0 then .clean
  else if syn = 0x155 then .poison
  else
    match pbmColumns.idxOf? syn.toNat with
    | some i => .correctable i
    | none => if weight 9 syn.toNat % 2 = 0 then .double else .multiple

/-- The data bits of a code word. -/
def dataOf (cw : BitVec 137) : BitVec 128 := cw.setWidth 128

/-- The data a reader gets from a code word of a class: a data bit found wrong is inverted (Table 7.4, R217). -/
def corrected (cw : BitVec 137) : EccClass → BitVec 128
  | .correctable i => if i < 128 then dataOf cw ^^^ (1#128 <<< i) else dataOf cw
  | _ => dataOf cw

/-- A code word whose check bits are XORed with 0x155, so that it reads as Poison (R229, R232). -/
def poisoned (data : BitVec 128) : BitVec 137 := pbmEncode data ^^^ ((0x155#9) ++ 0#128)

/-- The check bits of 64 data bits of a TT buffer (R245). -/
def ttCheck (data : BitVec 64) : BitVec 8 := BitVec.ofNat 8 (xorColumns (ttColumns.take 64) 0 data.toNat)

/-- The syndrome of a 72-bit TT buffer word (R245). -/
def ttSyndrome (cw : BitVec 72) : BitVec 8 := BitVec.ofNat 8 (xorColumns ttColumns 0 cw.toNat)

/-- The class of a TT buffer syndrome (R245): every non-zero syndrome that is not a column is uncorrectable. -/
def ttClassify (syn : BitVec 8) : EccClass :=
  if syn = 0 then .clean
  else
    match ttColumns.idxOf? syn.toNat with
    | some i => .correctable i
    | none => .multiple

end Sys2Proof.Machine
end

