-- ==== Sys2Proof/Machine/Crypto.lean ====
section
/-! DEFINITION. The digest and the signature of Emastra containers (R399, R400, Table 0.1): SHA-384 of FIPS 180-4 and ECDSA P-384 verification of FIPS 186-5. -/

namespace Sys2Proof.Machine

open Sys2Proof

/-! ## SHA-384 (FIPS 180-4) -/

/-- The first 40 constants of SHA-384. -/
def shaK0 : List (BitVec 64) :=
  [0x428A2F98D728AE22, 0x7137449123EF65CD, 0xB5C0FBCFEC4D3B2F, 0xE9B5DBA58189DBBC,
   0x3956C25BF348B538, 0x59F111F1B605D019, 0x923F82A4AF194F9B, 0xAB1C5ED5DA6D8118,
   0xD807AA98A3030242, 0x12835B0145706FBE, 0x243185BE4EE4B28C, 0x550C7DC3D5FFB4E2,
   0x72BE5D74F27B896F, 0x80DEB1FE3B1696B1, 0x9BDC06A725C71235, 0xC19BF174CF692694,
   0xE49B69C19EF14AD2, 0xEFBE4786384F25E3, 0x0FC19DC68B8CD5B5, 0x240CA1CC77AC9C65,
   0x2DE92C6F592B0275, 0x4A7484AA6EA6E483, 0x5CB0A9DCBD41FBD4, 0x76F988DA831153B5,
   0x983E5152EE66DFAB, 0xA831C66D2DB43210, 0xB00327C898FB213F, 0xBF597FC7BEEF0EE4,
   0xC6E00BF33DA88FC2, 0xD5A79147930AA725, 0x06CA6351E003826F, 0x142929670A0E6E70,
   0x27B70A8546D22FFC, 0x2E1B21385C26C926, 0x4D2C6DFC5AC42AED, 0x53380D139D95B3DF,
   0x650A73548BAF63DE, 0x766A0ABB3C77B2A8, 0x81C2C92E47EDAEE6, 0x92722C851482353B]

/-- The last 40 constants of SHA-384. -/
def shaK1 : List (BitVec 64) :=
  [0xA2BFE8A14CF10364, 0xA81A664BBC423001, 0xC24B8B70D0F89791, 0xC76C51A30654BE30,
   0xD192E819D6EF5218, 0xD69906245565A910, 0xF40E35855771202A, 0x106AA07032BBD1B8,
   0x19A4C116B8D2D0C8, 0x1E376C085141AB53, 0x2748774CDF8EEB99, 0x34B0BCB5E19B48A8,
   0x391C0CB3C5C95A63, 0x4ED8AA4AE3418ACB, 0x5B9CCA4F7763E373, 0x682E6FF3D6B2B8A3,
   0x748F82EE5DEFB2FC, 0x78A5636F43172F60, 0x84C87814A1F0AB72, 0x8CC702081A6439EC,
   0x90BEFFFA23631E28, 0xA4506CEBDE82BDE9, 0xBEF9A3F7B2C67915, 0xC67178F2E372532B,
   0xCA273ECEEA26619C, 0xD186B8C721C0C207, 0xEADA7DD6CDE0EB1E, 0xF57D4F7FEE6ED178,
   0x06F067AA72176FBA, 0x0A637DC5A2C898A6, 0x113F9804BEF90DAE, 0x1B710B35131C471B,
   0x28DB77F523047D84, 0x32CAAB7B40C72493, 0x3C9EBE0A15C9BEBC, 0x431D67C49C100D4C,
   0x4CC5D4BECB3E42B6, 0x597F299CFC657E2A, 0x5FCB6FAB3AD6FAEC, 0x6C44198C4A475817]

/-- The initial hash value of SHA-384. -/
def shaIv : List (BitVec 64) :=
  [0xCBBB9D5DC1059ED8, 0x629A292A367CD507, 0x9159015A3070DD17, 0x152FECD8F70E5939,
   0x67332667FFC00B31, 0x8EB44A8768581511, 0xDB0C2E0D64F98FA7, 0x47B5481DBEFA4FA4]

/-- The lower-case sigmas: two rotations and a shift. -/
def shaSmall (a b c : Nat) (x : BitVec 64) : BitVec 64 := x.rotateRight a ^^^ x.rotateRight b ^^^ (x >>> c)

/-- The upper-case sigmas: three rotations. -/
def shaBig (a b c : Nat) (x : BitVec 64) : BitVec 64 := x.rotateRight a ^^^ x.rotateRight b ^^^ x.rotateRight c

/-- The word of a list; 0 beyond the end. -/
def shaW (l : List (BitVec 64)) (i : Nat) : BitVec 64 := l.getD i 0

/-- One round: the working variables `v` and the window `w` of the message schedule. -/
def shaRound (x : List (BitVec 64) × List (BitVec 64)) (k : BitVec 64) : List (BitVec 64) × List (BitVec 64) :=
  let (v, w) := x
  let a := shaW v 0
  let e := shaW v 4
  let t1 := shaW v 7 + shaBig 14 18 41 e + ((e &&& shaW v 5) ^^^ (~~~e &&& shaW v 6)) + k + shaW w 0
  let t2 := shaBig 28 34 39 a + ((a &&& shaW v 1) ^^^ (a &&& shaW v 2) ^^^ (shaW v 1 &&& shaW v 2))
  let n := shaSmall 19 61 6 (shaW w 14) + shaW w 9 + shaSmall 1 8 7 (shaW w 1) + shaW w 0
  ([t1 + t2, a, shaW v 1, shaW v 2, shaW v 3 + t1, e, shaW v 5, shaW v 6], w.drop 1 ++ [n])

/-- A big-endian number of bytes. -/
def beNat (l : List Byte) : Nat := l.foldl (fun n b => 256 * n + b.toNat) 0

/-- The 16 words of a block of 128 bytes. -/
def shaWords (l : List Byte) : List (BitVec 64) :=
  (List.range 16).map (fun i => BitVec.ofNat 64 (beNat ((l.drop (8 * i)).take 8)))

/-- One block. -/
def shaBlock (h : List (BitVec 64)) (l : List Byte) : List (BitVec 64) :=
  let (v, _) := (shaK0 ++ shaK1).foldl shaRound (h, shaWords l)
  (List.range 8).map (fun i => shaW h i + shaW v i)

/-- The blocks of a padded message, `n` of them. -/
def shaBlocks : Nat → List (BitVec 64) → List Byte → List (BitVec 64)
  | 0, h, _ => h
  | n + 1, h, l => shaBlocks n (shaBlock h (l.take 128)) (l.drop 128)

/-- `n` big-endian bytes of a number. -/
def beBytes : Nat → Nat → List Byte
  | 0, _ => []
  | n + 1, x => beBytes n (x / 256) ++ [BitVec.ofNat 8 x]

/-- The SHA-384 digest of some bytes, 48 bytes. [PRESUMED: log 71] -/
def sha384 (l : List Byte) : List Byte :=
  let padded := l ++ [0x80] ++ zeros ((239 - l.length % 128) % 128) ++ beBytes 16 (8 * l.length)
  ((shaBlocks (padded.length / 128) shaIv padded).take 6).flatMap (fun w => beBytes 8 w.toNat)

/-! ## ECDSA on P-384 (FIPS 186-5) -/

/-- The field prime. -/
def p384 : Nat := 2 ^ 384 - 2 ^ 128 - 2 ^ 96 + 2 ^ 32 - 1
/-- The order of the base point. -/
def n384 : Nat := 0xffffffffffffffffffffffffffffffffffffffffffffffffc7634d81f4372ddf581a0db248b0a77aecec196accc52973
/-- The coefficient b; a is -3. -/
def b384 : Nat := 0xb3312fa7e23ee7e4988e056be3f82d19181d9c6efe8141120314088f5013875ac656398d8a2ed19d2a85c8edd3ec2aef
/-- The base point. -/
def g384 : Nat × Nat := (0xaa87ca22be8b05378eb1c71ef320ad746e1d3b628ba79b9859f741e082542a385502f25dbf55296c3a545e3872760ab7, 0x3617de4a96262c6f5d9e98bf9292dc29f8f41dbd289a147ce9da3113b5f0b8c00a60b1ce1d7e819d7a431d7c90ea0e5f)

/-- `x` to a power modulo `m`, over the lowest bits of the exponent. -/
def powMod (m : Nat) : Nat → Nat → Nat → Nat
  | 0, _, _ => 1
  | n + 1, x, e => (if e % 2 = 1 then x else 1) * powMod m n (x * x % m) (e / 2) % m

/-- The inverse modulo a prime. -/
def invMod (m x : Nat) : Nat := powMod m 384 (x % m) (m - 2)

/-- A difference modulo `m`. -/
def subMod (m x y : Nat) : Nat := (x % m + (m - y % m)) % m

/-- The line through two points with a slope meets the curve again; the third point mirrored. -/
def ecThird (l : Nat) (a b : Nat × Nat) : Nat × Nat :=
  let x := subMod p384 (subMod p384 (l * l) a.1) b.1
  (x, subMod p384 (l * subMod p384 a.1 x) a.2)

/-- The sum of two points; none is the point at infinity. -/
def ecAdd : Option (Nat × Nat) → Option (Nat × Nat) → Option (Nat × Nat)
  | none, b => b
  | a, none => a
  | some a, some b =>
    if a.1 != b.1 then some (ecThird (subMod p384 b.2 a.2 * invMod p384 (subMod p384 b.1 a.1)) a b)
    else if a.2 == b.2 && a.2 != 0 then some (ecThird ((3 * a.1 * a.1 + p384 - 3) * invMod p384 (2 * a.2)) a b)
    else none

/-- A multiple of a point, over the lowest bits of the factor. -/
def ecMul : Nat → Nat → Option (Nat × Nat) → Option (Nat × Nat)
  | 0, _, _ => none
  | n + 1, k, a => ecAdd (if k % 2 = 1 then a else none) (ecMul n (k / 2) (ecAdd a a))

/-- Whether a point lies on the curve. -/
def onCurve (a : Nat × Nat) : Bool :=
  decide (a.1 < p384) && decide (a.2 < p384) && a.2 * a.2 % p384 == (a.1 ^ 3 + (p384 - 3) * a.1 + b384) % p384

/-- Whether a signature (r then s, 48 bytes each) of some bytes verifies under a public key (x then y, 48 bytes each). [PRESUMED: log 71] -/
def ecdsaVerify (key message signature : List Byte) : Bool :=
  let q := (beNat (key.take 48), beNat ((key.drop 48).take 48))
  let r := beNat (signature.take 48)
  let t := beNat ((signature.drop 48).take 48)
  let z := beNat (sha384 message)
  let w := invMod n384 t
  onCurve q && decide (0 < r) && decide (r < n384) && decide (0 < t) && decide (t < n384) &&
    match ecAdd (ecMul 384 (z * w % n384) (some g384)) (ecMul 384 (r * w % n384) (some q)) with
    | some a => a.1 % n384 == r
    | none => false

end Sys2Proof.Machine
end

