-- ==== Sys2Proof/Config.lean ====
section
/-! DEFINITION. What the spec leaves open: opaque constants, applied to the state's plain counter, so that nothing can be proved about a value. -/

namespace Sys2Proof

/-- The nanoseconds since PORST_N release that a fault record carries (Table 12.1): the block has no clock here. [DESIGN CHOICE: log 7] -/
opaque Config.timestamp : Nat → BitVec 64
/-- The seconds since PORST_N release that UPTIME reads (Table 11.8). [DESIGN CHOICE: log 7] -/
opaque Config.uptime : Nat → BitVec 32

/-- The code word a read of a word never written returns (R213): at address `key`, at the `n`-th free value. [DESIGN CHOICE: log 11] -/
opaque Config.unwritten : Nat → Nat → BitVec 137

/-- The free-running 1 MHz counter that stamps a PD message (Table 8.11). [DESIGN CHOICE: log 7] -/
opaque Config.pdTime : Nat → BitVec 16

/-- The milliseconds of off-time left that SLOT_GET reports in COOLDOWN (Table 9.15). [DESIGN CHOICE: log 7] -/
opaque Config.cooldownLeft : Nat → Nat

/-- The device's 64-bit unique ID, fused in manufacture (R33, Table 11.10). [DESIGN CHOICE: log 8] -/
opaque Config.uniqueId : BitVec 64

/-- The fused per-part table of VDD_CORE targets (R352), in mV above 700: by the highest die reading and the mode class
(0 Noon, 1 Evening, 2 Night). [DESIGN CHOICE: log 8] -/
opaque Config.coreTarget : BitVec 16 → Nat → Fin 151

/-- The version of the boot ROM that GET_INFO reports (Table 11.10). [DESIGN CHOICE: log 8] -/
opaque Config.bootRomVersion : BitVec 32

/-- What RUNNING_SLOT and ACTIVE_SLOT read while there is none (Tables 11.10, 11.14: the tables give 0 and 1 alone). [DESIGN CHOICE: log 9] -/
opaque Config.noSlot : Byte

/-- What a version field reads where its slot holds nothing or no image runs. [DESIGN CHOICE: log 9] -/
opaque Config.noVersion : BitVec 32

/-- RECORD_SERIAL and RECORD_DIGEST of GET_INFO with no record loaded, by byte. [DESIGN CHOICE: log 9] -/
opaque Config.noRecord : Nat → Byte

/-- The bits checked and the bit errors of a loopback test (Table 11.14), by byte of the response. [DESIGN CHOICE: log 10] -/
opaque Config.loopback : Nat → Nat → Byte

/-- The link errors that GET_PORT_ERR_COUNT returns for a native position, whose link the opcode table says nothing about (R42). [DESIGN CHOICE: log 10] -/
opaque Config.linkErrors : Nat → BitVec 16

/-- A point of an eye map (Table 11.14), by its index. [DESIGN CHOICE: log 10] -/
opaque Config.eyePoint : Nat → Nat → Byte

end Sys2Proof
end

