-- ==== Sys2Proof/Machine/State.lean ====
section
/-! DEFINITION. The state of the block: everything the spec gives the ZM8516-FC, as plain data, with its value at reset; the faults and refusals; `State.reset`. -/

namespace Sys2Proof.Machine

open Sys2Proof

/-! ## Power domains (Tables 1.2, 10.8, 11.16) -/

/-- The power state of a domain. -/
inductive DomState where
  | on
  | gated
  | retention
  | off
deriving DecidableEq, Repr

/-- The mode settings of Table 10.2, in its units; `bootNoon` is BOOT_TARGET = NOON. -/
structure ModeSettings where
  bootNoon : Bool := true
  autoEvening : Bool := true
  eveningLiftCap : Nat := 1000
  eveningHold : Nat := 60
  tjWarn : Nat := 95
  tjEvening : Nat := 100
  autoNight : Bool := true
  nightDelay : Nat := 1000
  wakeSources : BitVec 16 := 0x00FD
  wakeTimer : Nat := 0
deriving DecidableEq, Repr

/-! ## Port Buffer Memory (chapter 7) -/

/-- The buffers of a Management Function (R201, Table 7.2). -/
inductive MfBuffer where
  | ep0
  | bulkOut
  | bulkIn
  | intIn
deriving DecidableEq, Repr

/-- Who holds a buffer row (Table 7.2). A native SuperSpeed position has one packet buffer for each direction. -/
inductive RowOwner where
  | endpoint (p : Port) (addr : Byte)
  | control (p : Port)
  | native (p : Port) (fromDevice : Bool)
  | mgmtFunction (k : Part) (b : MfBuffer)
deriving DecidableEq, Repr

/-- An entry of a bank's merge buffer (R224): the word within the bank, its bytes and their mask. -/
structure MergeEntry where
  word : Nat
  bytes : BitVec 128
  mask : BitVec 16
deriving DecidableEq, Repr

/-- A buffer (R208, Table 7.2): its row table in ring order as (bank, row), and the bytes written into it and read or
discarded from it since it was opened. -/
structure Ring where
  owner : RowOwner
  rows : List (Bank × Nat)
  wr : Nat
  rd : Nat
deriving DecidableEq, Repr

/-- An armed FLIPMASK (R240): its mask, and its word where PBM_FLIPMASK gave one. -/
structure FlipMask where
  mask : BitVec 137
  word : Option Nat
deriving DecidableEq, Repr

/-- One bank with its controller (Table 7.9, R224, R232, R236, R240). `remap` maps a retired row to its spare row;
`injWords` are the words an injection point has corrupted (R429). -/
structure BankState where
  filled : Bool := false
  remap : List (Nat × Nat) := []
  failedSpares : List Nat := []
  closed : Bool := false
  injWords : List Nat := []
  merge : List MergeEntry := []
  flip : Option FlipMask := none
  corrected : Nat := 0
  uncorrectable : Nat := 0
  poisonReads : Nat := 0
  poisonWrites : Nat := 0
  mergeRmw : Nat := 0
  bucket : Nat := 0
  scrubPasses : Nat := 0
  scrubRewrites : Nat := 0
  scrubSkipped : Nat := 0
  scrubAt : Nat := 0
deriving DecidableEq, Repr

/-- An entry of the sticky-word tracker (Table 7.5); the list of them runs from the least to the most recently corrected. -/
structure StickyEntry where
  word : BitVec 21
  reported : Bool
  count : Nat
  syndrome : BitVec 9
  position : Nat
deriving DecidableEq, Repr

/-- The PBM settings of Table 7.8. -/
structure PbmSettings where
  scrubEnable : Bool := true
  scrubPeriod : Nat := 1
  bucketLeak : Nat := 60
  bucketThreshold : Nat := 16
  stickyCount : Nat := 4
  ttBucketThreshold : Nat := 16
deriving DecidableEq, Repr

/-! ## Slot power and chains (chapter 9) -/

/-- The slot states of Table 9.4, in the order of Table 9.15. -/
inductive SlotSt where
  | empty
  | seating
  | idle
  | ramp
  | pgWait
  | on
  | cooldown
  | latched
deriving DecidableEq, Repr

/-- The slot settings of Table 9.2 and the card profile of Table 9.14, in the units of SLOT_SET_LIMITS. -/
structure SlotSettings where
  vcb : Nat := 250
  tFault : Nat := 20
  igate : Nat := 20
  pgDelay : Nat := 10
  seatDebounce : Nat := 100
  vinUv : Nat := 90
  vinOv : Nat := 600
  retry : Bool := true
  tripBudget : Nat := 8
  tripWindow : Nat := 60
  vbusStagger : Nat := 2
  cardImaxHs : Nat := 30
  cardImaxSs : Nat := 30
  cardFixed : BitVec 3 := 0
  cardPps : Bool := false
  rSense : Nat := 2000
deriving DecidableEq, Repr

/-- One Slot Power Controller (Tables 9.4, 9.5, 9.15): the settings written, and those in force in it (R19). `seatLow` is the level of
SPCn_SEAT_N (true: low). `unseen`: it left ON while its power-die link was down, which the core die has not learned (R303). -/
structure SlotState where
  cfg : SlotSettings := {}
  spc : SlotSettings := {}
  enable : Bool := false
  st : SlotSt := .empty
  seatLow : Bool := false
  vinLow : Bool := true
  vinHigh : Bool := false
  vin : BitVec 12 := 0
  vout : BitVec 12 := 0
  sense : BitVec 12 := 0
  peakSense : BitVec 16 := 0
  tripsInWindow : Nat := 0
  tripsTotal : Nat := 0
  lastTripKind : Byte := 0
  disabling : Bool := false
  unseen : Bool := false
deriving DecidableEq, Repr

/-- The internal link of a power die (R18, R19): whether valid frames arrive, whether none has for 10 ms, and the events that
wait for it (R323). -/
structure PowerLink where
  up : Bool := true
  silent : Bool := false
  held : List EventOut := []
deriving DecidableEq, Repr

/-- The chain states of Table 9.10. -/
inductive ChainSt where
  | down
  | settling
  | up
  | fault
deriving DecidableEq, Repr

/-- One port power chain controller (R311–R313): its state, the kind of its last FAULT and its runs of frames. -/
structure ChainState where
  st : ChainSt := .down
  faultKind : Nat := 1
  frames : Nat := 0
  cleanRun : Nat := 0
  badRun : Nat := 0
deriving DecidableEq, Repr

/-- Why a port is in hold (R319), in the codes of PPC_GET. -/
inductive HoldCause where
  | oc
  | noPgood
  | pgoodLost
  | noDischarge
  | wire
deriving DecidableEq, Repr

/-- One flag pair of a port (R312): the value acted on, the runs of invalid and valid frames, the wire fault. -/
structure PairState where
  value : Bool := false
  valid : Bool := true
  invalidRun : Nat := 0
  validRun : Nat := 0
  wireFault : Bool := false
deriving DecidableEq, Repr

/-- VBUS of one port: its setting (R315), its word in the shadow and as applied (Table 9.7), what the chain returned
(Table 9.8, R312), release (R304), hold (R319) and discharge (Table 9.12 row 3). `lats` counts the LATs since the applied
word changed (R318); `heldOver` is a hold cause met during a firmware pause; `live` says a word with EN = 1 was applied since VBUS was last taken as being at vSafe0V. -/
structure VbusState where
  setting : Bool := true
  shadow : BitVec 16 := 0x0064
  applied : BitVec 16 := 0x0000
  byte : Byte := 0
  lats : Nat := 0
  oc : PairState := {}
  pgood : PairState := {}
  twarn : PairState := {}
  released : Bool := false
  hold : Option HoldCause := none
  discharging : Bool := false
  live : Bool := false
  awaitPgood : Bool := false
  heldOver : Option HoldCause := none
deriving DecidableEq, Repr

/-! ## Type-C, Power Delivery, VCONN, SBU (chapter 8) -/

/-- The Rp levels of Table 8.1. -/
inductive RpLevel where
  | default
  | r1A5
  | r3A0
deriving DecidableEq, Repr

/-- The Type-C source states of Table 8.2, in order. -/
inductive TypeC where
  | open
  | unattached
  | attachWait
  | attached
  | debugAcc
  | unsupportedAcc
  | errorRecovery
deriving DecidableEq, Repr

/-- UNMATCHED_ACTION (Table 8.1). -/
inductive Unmatched where
  | forward
  | wait
  | reject
deriving DecidableEq, Repr

/-- A CANNED entry (Table 11.12): what it matches and the stored response. -/
structure Canned where
  kind : Nat
  msgType : Nat
  svid : BitVec 16
  command : Nat
  response : List Byte
deriving DecidableEq, Repr

/-- The per-port settings of Table 8.1; `offer` none is the default OFFER, which follows RP_LEVEL. -/
structure PdSettings where
  rpLevel : RpLevel := .r1A5
  pdEnable : Bool := true
  offer : Option (List (BitVec 32)) := none
  grant : BitVec 7 := 1
  unmatched : Unmatched := .forward
  fwdDeadline : Nat := 10
  reportAll : Bool := false
  canned : List Canned := []
  vconnAccept : Bool := true
  waitRetry : Nat := 100
  sbuOnEnter : Bool := false
  sbuSvid : BitVec 16 := 0
  sbuMode : Byte := 0
  autoDebugUart : Bool := true
  uartBaud : Nat := 115200
deriving DecidableEq, Repr

/-- A contract (PORT_GET, Table 8.8): its PDO position, RDO, voltage and current, and whether it is a PPS contract. -/
structure Contract where
  position : Nat
  rdo : BitVec 32
  mv : Nat
  ma : Nat
  pps : Bool
deriving DecidableEq, Repr

/-- The contract in force. -/
inductive ContractSt where
  | none
  | implicit
  | explicit (c : Contract)
deriving DecidableEq, Repr

/-- The steps of a contract transition (Table 8.8). -/
inductive TransStep where
  | accept
  | srcTransition
  | pgood
  | psRdy
deriving DecidableEq, Repr

/-- A contract transition in progress; `noChange` for rule 1, which changes no supply. -/
structure Transition where
  goal : Contract
  step : TransStep
  noChange : Bool
deriving DecidableEq, Repr

/-- The steps of Table 8.9: protocol reset done, VBUS being discharged, vSafe0V reached, VBUS returning. -/
inductive HrStep where
  | reset
  | discharge
  | recover
  | returning
deriving DecidableEq, Repr

/-- What a message PDEk sends is for. -/
inductive PdPurpose where
  | caps
  | capsAnswer
  | acceptRequest
  | psRdy
  | answer
  | softReset
  | acceptReset
  | discover
  | acceptSwap
  | swapPsRdy
  | pdSend (i : Sess)
  | retry
deriving DecidableEq, Repr

/-- A PD message of the device's own: its SOP* type, its bytes from the header on (MessageID filled on transmission),
what it is for, and how often it has been retried. -/
structure PdOut where
  sop : Fin 5
  bytes : List Byte
  purpose : PdPurpose
  tries : Nat
deriving DecidableEq, Repr

/-- What PDEk waits for from the partner (the timers of Table 8.6). -/
inductive PdExpect where
  | request
  | acceptOfReset
  | identity
  | swapAnswer
  | partnerPsRdy
  | vdm
  | other
deriving DecidableEq, Repr

/-- A message forwarded to host software and not yet answered (R268). -/
structure Forwarded where
  sop : Fin 5
  bytes : List Byte
  request : Option Contract
deriving DecidableEq, Repr

/-- A request message retried after Wait answers (R262). -/
structure WaitRetry where
  out : PdOut
  retries : Nat
  waiting : Bool
deriving DecidableEq, Repr

/-- The Type-C and PD side of one downstream port. `rp` is the level driven now, none with no Rp; `sinkTxNg` says Rp is
SinkTxNG; `pending` the sequences PDEk has yet to start, `tx` the message awaiting GoodCRC; `arriving` says that a message is arriving, so
that the CC line is not idle (R256). -/
structure PdPort where
  cfg : PdSettings := {}
  tc : TypeC := .open
  cc1 : CcLine := .open
  cc2 : CcLine := .open
  debounced : Bool := false
  orientation : Bool := false
  rp : Option RpLevel := none
  sinkTxNg : Bool := false
  vconnOn : Bool := false
  vconnSource : Bool := true
  vconnReturn : Bool := false
  settling : Bool := false
  contract : ContractSt := .none
  caps : List (BitVec 32) := []
  trans : Option Transition := none
  hr : Option HrStep := none
  cable5A : Bool := false
  cableDone : Bool := false
  discoverTries : Nat := 0
  capsCount : Nat := 0
  capsStopped : Bool := false
  hardResets : Nat := 0
  notPd : Bool := false
  partner : Bool := false
  stopped : Bool := false
  pending : List PdOut := []
  tx : Option PdOut := none
  arriving : Bool := false
  expect : Option PdExpect := none
  fwd : Option Forwarded := none
  retry : Option WaitRetry := none
  sendSeq : Bool := false
  txId : Tab 5 (BitVec 3) := Tab.const 5 0
  rxId : Tab 5 (Option (BitVec 3)) := Tab.const 5 none
  sbuOn : Bool := false
  uartSlot : Option (Fin 6) := none
deriving DecidableEq, Repr

/-- A UART slot of a partition's MF (R288): the port bound to it and its two 2 KiB buffers. -/
structure UartSlot where
  port : Option Port := none
  toHost : List Byte := []
  toPort : List Byte := []
  baud : Nat := 115200
deriving DecidableEq, Repr

/-- A message in a port receiver's buffer (R276, R277). `withheld`: flushed before its EOP, so that no GoodCRC is sent. -/
structure RxMsg where
  sop : Nat
  size : Nat
  time : BitVec 16
  bytes : List Byte
  whole : Bool
  overrun : Bool
  hwAnswered : Bool
  forwarded : Bool
  raise : Bool
  withheld : Bool
deriving DecidableEq, Repr

/-- What waits at the writer, in order of detection: the message in a receiver's buffer, or a Hard or Cable Reset, which has no bytes. -/
inductive RxEntry where
  | message (j : Fin 33)
  | reset (j : Fin 33) (m : RxMsg)
deriving DecidableEq, Repr

/-- What firmware needs to know of a complete item of the queue beyond its words (R270, R282). -/
structure ItemNote where
  port : Nat
  raise : Bool
  forwarded : Bool
  words : Nat
deriving DecidableEq, Repr

/-- The PD Receive Queue of a PDE (R276–R283): its banks of 77-bit stored words, the receivers in order of SOP* detection,
whether the first one's item has been placed, what firmware has popped of an item and of the bank. -/
structure PdQueue where
  fill : List (BitVec 77) := []
  drain : List (BitVec 77) := []
  fillNotes : List ItemNote := []
  drainNotes : List ItemNote := []
  order : List RxEntry := []
  placed : Bool := false
  rx : Tab 33 (Option RxMsg) := Tab.const 33 none
  overrun : Tab 33 Bool := Tab.const 33 false
  itemSeq : Byte := 0
  corrected : Nat := 0
  popped : List (BitVec 69) := []
  drainAt : Nat := 0
deriving DecidableEq, Repr

/-! ## Downstream ports (chapter 3) -/

/-- The data modes of a port, in the codes of PORT_GET. -/
inductive DataMode where
  | auto
  | lift
  | pass
  | charge
  | off
deriving DecidableEq, Repr

/-- BC_MODE (Table 3.1). -/
inductive BcMode where
  | sdp
  | cdp
deriving DecidableEq, Repr

/-- The port states of Table 3.3, in the codes of PORT_GET. -/
inductive PortSt where
  | off
  | charge
  | idle
  | pending
  | debounce
  | probe
  | waitReset
  | resetting
  | enabled
  | suspended
  | l1
  | quenched
  | error
  | draining
  | disabling
deriving DecidableEq, Repr

/-- PATH, in the codes of PORT_GET. -/
inductive Path where
  | none
  | lifted
  | passthrough
  | translated
  | native
  | extHub
deriving DecidableEq, Repr

/-- SPEED, in the codes of PORT_GET. -/
inductive Speed where
  | none
  | low
  | full
  | high
  | gen1x1
  | gen2x1
deriving DecidableEq, Repr

/-- The downstream SuperSpeed link of an SS-capable port: nothing, training, in U0 (or a lower power state), SS.Disabled. -/
inductive SsLink where
  | off
  | training
  | u0
  | disabled
deriving DecidableEq, Repr

/-- The PORT_DETACH reasons of Table 3.7, in order. -/
inductive Reason where
  | unplug
  | moved
  | withdrawn
  | mode
  | reset
  | portError
  | vbusOff
  | containment
  | sideChange
deriving DecidableEq, Repr

/-- A request deferred until a disable sequence is complete (R77); PORT_SET_MODE with its whole payload. -/
inductive Deferred where
  | setMode (m : DataMode) (payload : List Byte)
  | vbusOn
  | portReset
deriving DecidableEq, Repr

/-- An entry of a transaction translator's buffers (Table 3.10): its check bits (R245), the host micro-frames since its start-split,
whether its transaction has been issued downstream, and whether its data has been found uncorrectable (R246). -/
structure TtEntry where
  key : BitVec 16
  periodic : Bool
  bytes : List Byte
  check : List (BitVec 8) := []
  age : Nat := 0
  sent : Bool := false
  lost : Bool := false
deriving DecidableEq, Repr

/-- What is known of a device that a reassignment moves (Table 2.5 step 4a). -/
structure Carried where
  path : Path := .none
  speed : Speed := .none
  vid : BitVec 16 := 0
  pid : BitVec 16 := 0
  qualified : Bool := false
deriving DecidableEq, Repr

/-- A downstream port's data side (Tables 3.1, 3.3): its settings, its state, what it presents, and what waits for a
drain or a disable sequence to end. `line` says that a pull-up is present on D+/D-, `ssHeld` that the SuperSpeed link has
been in U0 for 100 ms, `ssGen2` that it runs at Gen 2; `shown` that PORT_ATTACH has been issued and not yet PORT_DETACH; `carry` what an identified device
was in the tree it was moved from (Table 2.5 step 4a); `lines` how the device drives D+/D− (Table 3.2); `ttFrame` the host frame
whose Full-Speed SOF the translator issued last (R86). -/
structure PortState where
  dataMode : DataMode := .auto
  isoLift : Bool := false
  bcMode : BcMode := .cdp
  bcNext : Option BcMode := none
  l1Enable : Bool := true
  l1Idle : Nat := 500
  st : PortSt := .idle
  path : Path := .none
  speed : Speed := .none
  fallenBack : Bool := false
  ssFallback : Bool := false
  shown : Bool := false
  qualified : Bool := false
  vid : BitVec 16 := 0
  pid : BitVec 16 := 0
  line : Bool := false
  ssLink : SsLink := .off
  ssGen2 : Bool := false
  ssHeld : Bool := false
  vdmSrc : Bool := false
  needSs : Bool := false
  needU2 : Bool := false
  noDebounce : Bool := false
  quenchedFrom : Option PortSt := none
  ownReset : Bool := false
  reason : Option Reason := none
  discarded : Nat := 0
  pendMove : Option (Part × Pos) := none
  pendMode : Option DataMode := none
  pendDisable : Bool := false
  pendReset : Bool := false
  pendError : Bool := false
  deferred : List Deferred := []
  carry : Option Carried := none
  resumeK : Bool := false
  reacting : Bool := false
  tt : List TtEntry := []
  ttFrame : Option (BitVec 11) := none
  lines : DataLines := .pullDowns
deriving DecidableEq, Repr

/-! ## Partitions and virtual hubs (chapter 2) -/

/-- The partition states (Table 1.11), in the codes of PART_GET. -/
inductive PartSt where
  | disabled
  | chargeOnly
  | connected
  | suspended
  | held
deriving DecidableEq, Repr

/-- An entry of a class allow list (Table 4.1). -/
structure ClassEntry where
  cls : Byte
  subclass : Byte
  protocol : Byte
  matchSub : Bool
  matchProto : Bool
deriving DecidableEq, Repr

/-- The settings of Table 2.8. -/
structure PartSettings where
  maxPorts : Nat := 112
  hostSlots : Nat := 0
  liftCap : Nat := 0
  drainWindow : Nat := 100
  startChargeOnly : Bool := true
  autoConnect : Bool := true
  autoRecover : Bool := true
deriving DecidableEq, Repr

/-- The default allow list (Table 4.2). -/
def defaultClasses : List ClassEntry :=
  [{ cls := 0x08, subclass := 0, protocol := 0x50, matchSub := false, matchProto := true },
   { cls := 0x02, subclass := 0, protocol := 0, matchSub := false, matchProto := false },
   { cls := 0x0A, subclass := 0, protocol := 0, matchSub := false, matchProto := false },
   { cls := 0xFF, subclass := 0, protocol := 0, matchSub := false, matchProto := false },
   { cls := 0x03, subclass := 0, protocol := 0, matchSub := false, matchProto := false },
   { cls := 0x06, subclass := 0, protocol := 0, matchSub := false, matchProto := false },
   { cls := 0xFE, subclass := 0x01, protocol := 0, matchSub := true, matchProto := false },
   { cls := 0x0B, subclass := 0, protocol := 0, matchSub := false, matchProto := false }]

/-- A tree being withdrawn: the reason its ports drain with, and whether a PART_DISCONNECT waits for its end. -/
structure Withdrawal where
  reason : Reason
  answer : Bool
deriving DecidableEq, Repr

/-- A partition (Tables 2.8, 2.9): its state, CONNECT_ARMED, its settings, whether its tree stands at UPk, a withdrawal in
progress, a containment reaction that holds it, the mark of Safe Hold, its automatic returns (R59), its latency budget
(R198), the deferred PART_DISCONNECT of R57 (true:
DISABLED), the lifted bytes of the present 1 ms frame (LIFT_CAP), and those of them sent upstream (R188). -/
structure PartState where
  st : PartSt := .disabled
  armed : Bool := false
  cfg : PartSettings := {}
  classes : List ClassEntry := defaultClasses
  tree : Bool := false
  withdraw : Option Withdrawal := none
  reacting : Bool := false
  safeMarked : Bool := false
  recoveries : Nat := 0
  latBudget : Nat := 20
  deferredDisconnect : Option Bool := none
  frameBytes : Nat := 0
  frameUp : Nat := 0
deriving DecidableEq, Repr

/-- The state of a virtual link (R192, R193). -/
inductive VLink where
  | disabled
  | u0
  | u1
  | u2
  | u3
  | recovery
deriving DecidableEq, Repr

/-- The status of a virtual hub port on one side (USB 2.0 11.24.2.7, USB 3.2 10.16.2.6): power, connection, enable, suspend,
their change bits, the link of a SuperSpeed port and its U1 and U2 timeouts. `bhReset` says that the reset under way is a BH_PORT_RESET,
`speedKnown` that a host reset has found the speed (Table 3.6 step 4), `wasU3` that the link has been in U3 since the bus behind it last resumed (R135), `test` the test selector of
PORT_TEST. -/
structure VPort where
  powered : Bool := true
  connected : Bool := false
  enabled : Bool := false
  suspended : Bool := false
  cConnect : Bool := false
  cEnable : Bool := false
  cSuspend : Bool := false
  cReset : Bool := false
  cLink : Bool := false
  cBhReset : Bool := false
  bhReset : Bool := false
  cL1 : Bool := false
  speedKnown : Bool := false
  wasU3 : Bool := false
  test : Byte := 0
  link : VLink := .disabled
  u1Timeout : Byte := 0
  u2Timeout : Byte := 0
  remoteWakeMask : Byte := 0
deriving DecidableEq, Repr

/-- A virtual hub on one side: its address and configuration, U1 and U2 enables, DEVICE_REMOTE_WAKEUP, hub depth,
isochronous delay and alternate setting. -/
structure VHub where
  address : BitVec 7 := 0
  configured : Bool := false
  alt : Bool := false
  u1Enable : Bool := false
  u2Enable : Bool := false
  remoteWake : Bool := false
  depth : BitVec 16 := 0
  isochDelay : BitVec 16 := 0
deriving DecidableEq, Repr

/-- The hubs of one side of a partition's tree (Table 2.1). -/
structure HubTree where
  hubs : Tab 9 VHub := Tab.const 9 {}
  top : Tab 9 VPort := Tab.const 9 {}
  leaf : Tab 112 VPort := Tab.const 112 {}
deriving DecidableEq, Repr

/-- The Management Function's USB presentation (R37, R193): the side it stands on, its address and configuration, its
function suspend and remote wake, its halted endpoints and U1/U2 enables, and the DCD of each UART slot as its serial state last
told the host (R288). -/
structure MfState where
  side : Option Side := none
  address : BitVec 7 := 0
  config : Nat := 0
  funcSuspend : Bool := false
  funcWake : Bool := false
  halted : List Byte := []
  u1Enable : Bool := false
  u2Enable : Bool := false
  remoteWake : Bool := false
  isochDelay : BitVec 16 := 0
  sel : List Byte := []
  dcd : Tab 6 Bool := Tab.const 6 false
deriving DecidableEq, Repr

/-! ## Upstream ports (chapter 6) -/

/-- SS_SIDE (Table 6.6). -/
inductive SsSide where
  | notPresented
  | deciding
  | active
  | inactive
deriving DecidableEq, Repr

/-- USB2_STATE (Table 6.6). -/
inductive Usb2St where
  | notPresented
  | fullSpeed
  | active
  | suspended
  | l1
deriving DecidableEq, Repr

/-- The upstream counters of Table 6.6. -/
structure UpCounters where
  rateDowngrades : Nat := 0
  fsUpstream : Nat := 0
  linkRecoveries : Nat := 0
  u1Entries : Nat := 0
  u2Entries : Nat := 0
  lxuSent : Nat := 0
  ssInactiveChanges : Nat := 0
deriving DecidableEq, Repr

/-- An upstream port (Table 6.6). `rd` says that Rd stands on both CC lines, which are high-impedance otherwise
(R178), `swapped` how the orientation mux maps the lanes
(R181), `isoSkip` that a micro-frame without a bus interval start is due (R163). `paced` says that Evening paces a link that runs two lanes (R188); `hardReset`
that a Hard Reset runs, in which VBUS may fall without a detach (R183); `fullSpeed` that the USB 2.0 side runs at
Full-Speed (R194), `ownExit` that the device has signalled an exit from U3, `pdTx` and `pdRx` the MessageIDs of its PD side; `isoPhase` pairs a bus interval and its delta with the device
micro-frame (R160). -/
structure UpState where
  attached : Bool := false
  orientation : Bool := false
  hostRp : Fin 4 := 0
  vbusInput : Bool := false
  vbusPresent : Bool := false
  contract : Bool := false
  hardReset : Bool := false
  ssSide : SsSide := .notPresented
  rate : SsRate := .none
  link : UpLink := .rxDetect
  usb2 : Usb2St := .notPresented
  paced : Bool := false
  hird : BitVec 4 := 0
  fullSpeed : Bool := false
  pdTx : BitVec 3 := 0
  pdRx : Option (BitVec 3) := none
  isoPhase : Option (Nat × Nat × Nat) := none
  isoSkip : Bool := false
  rd : Bool := false
  swapped : Bool := false
  ownExit : Bool := false
  counters : UpCounters := {}
deriving DecidableEq, Repr

/-! ## Speed Lift (chapters 4 and 5) -/

/-- The descriptor set of a device as read (R111): its device descriptor, its configurations in order, its BOS. -/
structure DescSet where
  device : List Byte := []
  configs : List (List Byte) := []
  bos : Option (List Byte) := none
deriving DecidableEq, Repr

/-- The step a probe has reached (Table 4.3). -/
inductive ProbeStep where
  | p1
  | p2
  | p3
  | p4 (i : Nat) (whole : Bool)
  | p5 (whole : Bool)
  | p6
deriving DecidableEq, Repr

/-- A probe or a re-fetch (R107–R109, R130). `retried` says that the present request is issued for the second time (R108);
`second` that this is the second probe of R137; `asked` the wLength of the request in flight; `errors` the consecutive bus errors of its
transaction; `waitLink` says that the request waits for the port-die link (R17). -/
structure Probe where
  step : ProbeStep := .p1
  got : DescSet := {}
  asked : Nat := 64
  retried : Bool := false
  second : Bool := false
  refetch : Bool := false
  waitFw : Bool := false
  errors : Nat := 0
  waitLink : Bool := false
deriving DecidableEq, Repr

/-- The pairing register of a bulk IN context (R150). -/
inductive PairReg where
  | empty
  | half
  | released
deriving DecidableEq, Repr

/-- BOUNDARY_MODE (Table 5.6), in the codes of LIFT_SET_EP_BOUNDARY. -/
inductive Boundary where
  | hold
  | snoopBot
  | immediate
deriving DecidableEq, Repr

/-- SNOOP_BOT states (Table 5.7); DATA_IN with REMAIN. -/
inductive Snoop where
  | expectCbw
  | dataIn (remain : Nat)
  | expectCsw
deriving DecidableEq, Repr

/-- Endpoint types of an endpoint descriptor. -/
inductive EpKind where
  | bulk
  | interrupt
  | isochronous
deriving DecidableEq, Repr

/-- The counters of Table 5.12. -/
structure EpCounters where
  bytesUp : BitVec 64 := 0
  bytesDown : BitVec 64 := 0
  bytesDiscarded : BitVec 64 := 0
  ssPackets : Nat := 0
  hsPackets : Nat := 0
  hsNaks : Nat := 0
  holdReleases : Nat := 0
  zlpAbsorbed : Nat := 0
  zlpForwarded : Nat := 0
  cbwSeen : Nat := 0
  snoopMismatch : Nat := 0
  poisonings : Nat := 0
  isoSlips : Nat := 0
  isoMissed : Nat := 0
  wakes : Nat := 0
  wakeCollisions : Nat := 0
deriving DecidableEq, Repr

/-- An open endpoint context (R140). IN: `ready` holds the lengths of the SuperSpeed packets made ready, oldest first.
OUT: `out` holds the lengths of the High-Speed packets still to be sent, each with whether it ends a SuperSpeed transfer. `stall` says a STALL is to be presented at the
host's next packet; `fresh` that the next OUT packet is the first of its transfer; `localClear` that LIFT_CLEAR_POISON has
been given, and `skim` that device data is discarded up to the end of its transfer (Table 5.10). `grid` holds, for a
periodic context, the intervals in its pipeline by micro-frame and length, none for an interval that was missed; `lastB` is the micro-frame of the last isochronous
service opportunity and `phase` its bus interval within the service interval (R161). `lasts` holds, for an interrupt IN context, for
each ready packet whether it is the last of its interval. `again` says that an OUT or PING token is to be issued again (R85). -/
structure EpCtx where
  addr : Byte
  kind : EpKind
  mps : Nat
  extra : Nat
  interval : Nat := 1
  seq : BitVec 5 := 0
  toggle : Bool := false
  pair : PairReg := .empty
  mode : Boundary := .hold
  window : Nat := 32
  snoop : Snoop := .expectCbw
  offset : Nat := 0
  halted : Bool := false
  poisoned : Bool := false
  stall : Bool := false
  localClear : Bool := false
  skim : Bool := false
  nrdy : Bool := false
  interest : Bool := false
  fresh : Bool := true
  ready : List Nat := []
  out : List (Nat × Bool) := []
  pingNext : Bool := false
  grid : List (Nat × Option Nat) := []
  lastB : Option Nat := none
  phase : Nat := 0
  lasts : List Bool := []
  again : Bool := false
deriving DecidableEq, Repr

/-- A boundary setting written for an endpoint address (R152). -/
structure EpSetting where
  addr : Byte
  mode : Option Boundary
  window : Option Nat
deriving DecidableEq, Repr

/-- The stage of a forwarded control transfer on the device's bus (R124–R128); `done` once the device has completed its status stage and
the presented one is to follow (R127). -/
inductive CtlStage where
  | setup
  | dataOut
  | dataIn
  | status
  | done
deriving DecidableEq, Repr

/-- A forwarded control transfer: what it is, its stage, the bytes of its data stage that have arrived (from the device or
from the host), those that have been passed on, whether its data stage has ended, and the consecutive bus errors of its transaction.
`wire` says that a packet of it is on the wire, `begun` that the device has answered since its SETUP, `shown` that the last packet of a
read has been presented. -/
structure CtlXfer where
  req : Setup
  stage : CtlStage
  moved : Nat := 0
  sent : Nat := 0
  ended : Bool := false
  errors : Nat := 0
  wire : Bool := false
  begun : Bool := false
  shown : Bool := false
deriving DecidableEq, Repr

/-- A function's suspend options (Table 4.9), by its first interface. -/
structure FuncState where
  first : Nat
  suspended : Bool := false
  wake : Bool := false
deriving DecidableEq, Repr

/-- The lifted side of a port (R111, R119, R140): the set as read (the presented set is computed from it), a probe in
progress, whether the presentation stands, its tracked state, the reset sequence of Table 4.12 or R132, its contexts, their
settings and counters. `reset` is the discarded count of a Table 4.12 sequence under way; `held` the SETUP that R132 holds;
`pendingReset` the reset-pending mark; `stopped` the contexts a tracked request has stopped; `wake` a remote wake in its window, with the functions that had a wake
pending (Table 5.9); `hostExit` that a host exit from U3 has begun on UPk (R166); `woken` the functions whose Function Wake the host
has not yet answered, `notify` the micro-frames until it is sent again. `sof` says that SOFs run on the bus (R83), `recover` counts
the micro-frames until the first token after a resume (Table 3.11), `rr` is the bulk endpoint served first in the last micro-frame
(R84), `nrdy0` says that EP0 awaits an ERDY (R124), `ep0Halted` that EP0 answers Request Error (R170, R172). -/
structure LiftPort where
  asRead : DescSet := {}
  probe : Option Probe := none
  presented : Bool := false
  config : Nat := 0
  alts : List (Nat × Nat) := []
  address : BitVec 7 := 0
  u1Enable : Bool := false
  u2Enable : Bool := false
  sel : List Byte := []
  isochDelay : BitVec 16 := 0
  functions : List FuncState := []
  dsWake : Bool := false
  busSuspended : Bool := false
  ctl : Option CtlXfer := none
  pendingReset : Bool := false
  reset : Option Nat := none
  byHost : Bool := false
  held : Option (Setup × List Byte) := none
  ctxs : List EpCtx := []
  stopped : List EpCtx := []
  settings : List EpSetting := []
  counters : List (Byte × EpCounters) := []
  ep0Poisoned : Bool := false
  ep0Halted : Bool := false
  wake : Option (List Nat) := none
  hostExit : Bool := false
  woken : List Nat := []
  notify : Nat := 0
  sof : Bool := false
  recover : Nat := 0
  rr : Byte := 0
  nrdy0 : Bool := false
deriving DecidableEq, Repr

/-! ## Fault collection (chapter 12) -/

/-- A shadow over the detectors that depend on a block in reset (Table 12.5); `ports` are the lifted ports LE_RESET
covers. `ending` is set once the reset has ended and its last 10 µs run. -/
structure Shadow where
  reaction : Reaction
  ports : List Port
  ending : Bool
deriving DecidableEq, Repr

/-- An armed injection point (R429): its source and kind, its PARAMETER, and whether its forcing lasts a time. -/
structure Injection where
  source : BitVec 12
  kind : Byte
  parameter : BitVec 32
  timed : Bool
deriving DecidableEq, Repr

/-- The Fault Collector (R411–R429): `inbox` holds the messages of the command being executed and is empty between commands. -/
structure FaultState where
  inbox : List Detection := []
  records : List FaultRec := []
  nextIndex : BitVec 32 := 0
  dropped : Nat := 0
  severities : List (BitVec 12 × Byte × Severity) := []
  running : List Reaction := []
  shadows : List Shadow := []
  banksClosed : Nat := 0
  threshold : Severity := .containment
  minWidth : Nat := 2
  pinHold : Bool := false
  pulsing : Bool := false
  gap : Bool := false
  waiting : Nat := 0
  injections : List Injection := []
  watchdogOn : Bool := false
  safeHoldRestart : Bool := false
  mgtRestarting : Bool := false
deriving DecidableEq, Repr

/-! ## VCP (chapter 11) -/

/-- What a command in execution waits for before its final response (R394). -/
inductive Wait where
  | assign (p : Port) (k : Part) (i : Pos)
  | portReset (p : Port)
  | setMode (p : Port)
  | disconnect (k : Part)
  | slotDisable (k : Slot)
  | mode
  | queuedMode
  | pdSend (p : Port)
deriving DecidableEq, Repr

/-- The stored command of R381. -/
structure StoredCmd where
  opcode : BitVec 16
  length : Nat
  response : Option Rsp
deriving DecidableEq, Repr

/-- One VCP session (R375–R385, R394). `store` is its command store (R387) and `out` its responses not yet taken by the host;
`repeats` counts the repeats waiting for the stored command's final response. -/
structure Session where
  isOpen : Bool := false
  eventMask : BitVec 16 := 0
  grant : Bool := false
  pendingGrant : Bool := false
  lastCseq : BitVec 32 := 0
  stored : Option StoredCmd := none
  executing : Option (Cmd × Wait) := none
  repeats : Nat := 0
  store : List Cmd := []
  out : List Rsp := []
  nextEseq : BitVec 32 := 0
  issued : Bool := false
  ring : List EventRec := []
  lastAcked : BitVec 32 := 0xFFFFFFFF
  lostCount : BitVec 32 := 0
  lostFlag : Bool := false
deriving DecidableEq, Repr

/-- One OOB mailbox (Tables 11.7, 11.8): its flags and its three buffers. -/
structure Mailbox where
  cmdBusy : Bool := false
  crcErr : Bool := false
  rspReady : Bool := false
  evtReady : Bool := false
  cmdBuf : List Byte := []
  rspBuf : List Byte := []
  evtBuf : List Byte := []
deriving DecidableEq, Repr

/-- The SMBus target (R392, R393): its pointer, its address, and the bytes of a Block Write whose end it awaits. -/
structure SmbusState where
  pointer : BitVec 16 := 0
  rx : List Byte := []
  address : BitVec 7 := 0x5A
deriving DecidableEq, Repr

/-- The state of a firmware slot or record copy as FW_GET reports it. -/
inductive AreaSt where
  | empty
  | valid
  | invalid
  | staging
  | trial
deriving DecidableEq, Repr

/-- An area of the boot flash (Table 11.17): what it holds and its state. -/
structure FlashArea where
  st : AreaSt := .empty
  bytes : List Byte := []
deriving DecidableEq, Repr

/-- One directory copy (Table 11.19); `intact` says its CRC-32 is valid. -/
structure Directory where
  intact : Bool := false
  generation : BitVec 32 := 0
  active : Fin 2 := 0
  trial : Option (Fin 2) := none
  recordCopy : Option (Fin 2) := none
  digestA : List Byte := []
  digestB : List Byte := []
  recordDigest : List Byte := []
deriving DecidableEq, Repr

/-- The use a key digest is fused for (R400). -/
inductive KeyUse where
  | image
  | record
  | both
deriving DecidableEq, Repr

/-- A fused key digest (R400). -/
structure FusedKey where
  digest : List Byte := []
  use : KeyUse := .both
  revoked : Bool := false
deriving DecidableEq, Repr

/-- Staging in progress (R403): whose, into which area (0 slot A, 1 slot B, 2 record copy 0, 3 record copy 1), how long. -/
structure Staging where
  session : Sess
  area : Fin 4
  isImage : Bool
  total : Nat
  bytes : List Byte
deriving DecidableEq, Repr

/-- The step an activation or a rollback has reached (Table 11.21). -/
inductive ActStep where
  | dusk
  | pause
deriving DecidableEq, Repr

/-- A hitless activation or rollback in progress (R406, R408). -/
structure Activation where
  target : Fin 2
  previous : Fin 2
  session : Option Sess
  cseq : BitVec 32
  step : ActStep
  rollback : Bool
deriving DecidableEq, Repr

/-- A trial in progress (R407). -/
structure Trial where
  slot : Fin 2
  previous : Fin 2
  session : Option Sess
  cseq : BitVec 32
  target : BitVec 16
deriving DecidableEq, Repr

/-- Firmware, its flash and its fuses (R398–R409). `grantList`, `retired` and `closed` are the elements of the record in force
that act after Dawn: GRANT_LIST, RETIRED_ROWS and CLOSED_BANKS (Table 11.24). -/
structure FirmwareState where
  areas : Tab 4 FlashArea := Tab.const 4 {}
  dirs : Tab 2 Directory := Tab.const 2 {}
  keys : Tab 4 FusedKey := Tab.const 4 {}
  securityFloor : Nat := 0
  running : Option (Fin 2) := none
  bootFailed : Bool := false
  recordLoaded : Option (Fin 2) := none
  staging : Option Staging := none
  activation : Option Activation := none
  trial : Option Trial := none
  rollbacks : BitVec 16 := 0
  paused : Bool := false
  retainedIntact : Bool := true
  grantList : BitVec 16 := 0
  retired : List (Bank × Nat) := []
  closed : BitVec 32 := 0
deriving DecidableEq, Repr

/-! ## The mode machinery (chapter 10) -/

/-- What a mode request asks for (Table 10.1); `maintenance` is FW_ACTIVATE of a slot, or the rollback to one. -/
inductive Goal where
  | off
  | midnight
  | night
  | morning
  | noon
  | evening
  | diagnostic
  | restart
  | maintenance (slot : Fin 2)
deriving DecidableEq, Repr

/-- A mode request: its goal, and the session and CSEQ that asked for it, none where the device itself did. -/
structure ModeRequest where
  goal : Goal
  session : Option Sess := none
  cseq : BitVec 32 := 0
deriving DecidableEq, Repr

/-- What a participant of a PREPARE has answered (R336). -/
inductive PrepAnswer where
  | awaited
  | deferring
  | accepted
deriving DecidableEq, Repr

/-- The stage of a Dusk: its steps (Table 10.4), then PREPARE. -/
inductive DuskStage where
  | steps
  | prepare
deriving DecidableEq, Repr

/-- A transition through Dusk (R331, R336): the request, whether AUTO_NIGHT started it, the origin, the stage with the
participants' answers, how many of the steps of Table 10.4 have begun, and the cause and detail of the MODE_CHANGED to come. -/
structure Trans where
  req : ModeRequest
  auto : Bool := false
  rollback : Bool := false
  origin : Mode
  stage : DuskStage := .steps
  begun : Nat := 0
  answers : List (Fin 25 × PrepAnswer) := []
  cause : Byte
  detail : BitVec 16
deriving DecidableEq, Repr

/-- A change to Noon that waits for the core supply (R353): its cause, detail and the request it answers. -/
structure Arrival where
  req : Option ModeRequest
  cause : Byte
  detail : BitVec 16
deriving DecidableEq, Repr

/-- A budget-driven entry of a domain under PREPARE (R336). -/
structure DomEntry where
  dom : Fin 25
  goal : DomState
  deferring : Bool := false
deriving DecidableEq, Repr

/-- The Evening causes of Table 10.7. -/
structure EveCauses where
  thermal : Bool := false
  supply : Bool := false
  avs : Bool := false
  command : Bool := false
deriving DecidableEq, Repr

/-- One die sensor (R355): its reading in 1/16 °C, and whether it has crossed TJ_WARN, TJ_EVENING and 115 °C upward. -/
structure Sensor where
  reading : BitVec 16 := 0
  warn : Bool := false
  eve : Bool := false
  crit : Bool := false
deriving DecidableEq, Repr

/-- One monitored rail (Table 10.14): its reading in mV as last reported, below its warning level, below its failure level. -/
structure Rail where
  mv : Nat := 0
  low : Bool := false
  failed : Bool := false
deriving DecidableEq, Repr

/-- The AVSBus master (R351–R354). -/
structure AvsState where
  target : Nat := 800
  confirmed : Nat := 800
  outstanding : Option Nat := none
  holdoff : Bool := false
  voltage : BitVec 16 := 0
  current : BitVec 16 := 0
  temp : BitVec 16 := 0
  status : BitVec 16 := 0
  timeouts : Nat := 0
deriving DecidableEq, Repr

/-- The clocks (R357–R359): the AON timebase on the AXIN crystal, RC calibrations, REFCLK selected by the record, used, and
lost. -/
structure Clocks where
  axin : Bool := false
  calibrated : Bool := false
  refSelect : Bool := false
  refUsed : Bool := false
  refLost : Bool := false
deriving DecidableEq, Repr

/-- One alarm pair (R21): its decoded state, and a line fault. -/
structure AlarmPair where
  asserted : Bool := false
  lineFault : Bool := false
deriving DecidableEq, Repr

/-- A port-die link (R17). -/
inductive PortLink where
  | active
  | retraining
  | failed
deriving DecidableEq, Repr

/-! ## Boundary scan and diagnostics -/

/-- The TAP instructions (R365). -/
inductive TapInstr where
  | idcode
  | bypass
  | samplePreload
  | extest
deriving DecidableEq, Repr

/-- A DIAG test that runs on a port or an upstream port (R340). -/
structure DiagTest where
  target : BitVec 16
  side : Byte
  pattern : Byte
deriving DecidableEq, Repr

/-! ## The outcomes -/

/-- Faults. No command of this block stops it with a fault: every address and every number an operand can carry names
something the spec gives, so this one is raised by no command (safe). [DESIGN CHOICE: log 76] -/
inductive Fault where
  /-- Raised by no command: kept so that the type of faults is not empty. Safe. -/
  | none
deriving DecidableEq, Repr

/-- Refusals. [DEDUCED: log 34] -/
inductive Refusal where
  /-- A row of the opcode table that has no meaning yet (raised by Dispatch). Safe: the machine stops. -/
  | notModelled (mnemonic : String)
  /-- An operand that no bus, pin or message of the block can carry (raised by the meaning whose operand is ill formed).
  Safe: the machine stops. -/
  | illFormed (mnemonic : String)
deriving DecidableEq, Repr

/-! ## The whole state -/

/-- The state of the block. -/
structure State where
  pending : List Instr := []
  wire : List Emission := []
  freeCount : Nat := 0
  mode : Mode := .off
  -- sessions, transports, firmware
  sessions : Tab 19 Session := Tab.const 19 {}
  mailboxes : Tab 3 Mailbox := Tab.const 3 {}
  smbus : SmbusState := {}
  alertEnable : BitVec 3 := 0
  heldEvents : List EventOut := []
  arrivals : Nat := 0
  fw : FirmwareState := {}
  fault : FaultState := {}
  -- assignment
  partOf : Tab 512 Part := Tab.of (fun p => ⟨p.val / 32, by omega⟩)
  posOf : Tab 512 Pos := Tab.of (fun p => ⟨p.val % 32, by omega⟩)
  -- power domains: 0 MGT, 1 FAB, 2 LIFT, 3-6 PBMQ0-3, 7 USPHY, 8 DSSPHY, 9-24 HSG0-15 (Table 11.16)
  domains : Tab 25 DomState := Tab.const 25 .off
  -- ports and partitions
  ports : Tab 512 PortState := Tab.const 512 {}
  parts : Tab 16 PartState := Tab.const 16 {}
  ssTree : Tab 16 HubTree := Tab.const 16 {}
  u2Tree : Tab 16 HubTree := Tab.const 16 {}
  mfs : Tab 16 MfState := Tab.const 16 {}
  ups : Tab 16 UpState := Tab.const 16 {}
  lift : Tab 512 (Option LiftPort) := Tab.const 512 none
  microframe : BitVec 16 := 0
  -- modes, supplies, clocks (chapter 10)
  modeCfg : ModeSettings := {}
  origin : Mode := .off
  cause : Byte := 0
  detail : BitVec 16 := 0
  aonUp : Bool := false
  testmode : Bool := false
  board : BoardIn := {}
  wrstLow : Bool := false
  trans : Option Trans := none
  arrival : Option Arrival := none
  queue : Option ModeRequest := none
  back : Mode := .off
  eve : EveCauses := {}
  entries : List DomEntry := []
  aborts : Nat := 0
  exiting : List (Fin 25) := []
  sensors : Tab 16 Sensor := Tab.const 16 {}
  rails : Tab 8 Rail := Tab.const 8 {}
  avs : AvsState := {}
  clocks : Clocks := {}
  alarms : Tab 6 AlarmPair := Tab.const 6 {}
  portLinks : Tab 2 PortLink := Tab.const 2 .active
  tap : TapInstr := .idcode
  scan : BitVec 103 := 0
  diag : List DiagTest := []
  vendorId : BitVec 16 := 0x3E17
  -- Type-C and PD
  pd : Tab 512 PdPort := Tab.const 512 {}
  queues : Tab 16 PdQueue := Tab.const 16 {}
  uarts : Tab 16 (Tab 6 UartSlot) := Tab.const 16 (Tab.const 6 {})
  -- buffer memory
  banks : Tab 32 BankState := Tab.const 32 {}
  cells : List (Nat × BitVec 137) := []
  rings : List Ring := []
  sticky : List StickyEntry := []
  pbm : PbmSettings := {}
  ttBucket : Tab 16 Nat := Tab.const 16 0
  -- slot power
  powerLinks : Tab 2 PowerLink := Tab.const 2 {}
  slots : Tab 16 SlotState := Tab.const 16 {}
  chains : Tab 16 ChainState := Tab.const 16 {}
  vbus : Tab 512 VbusState := Tab.const 512 {}
deriving DecidableEq, Repr

/-- The machine right after reset. [DESIGN CHOICE: log 6, 13, 15, 78; PRESUMED: log 14] -/
def State.reset : State := {}

end Sys2Proof.Machine
end

