-- ==== Sys2Proof/Machine/Ops.lean ====
section
/-! DEFINITION. The operations every meaning shares: the output wires, free values, numbers derived from a port number, detector messages, events and their rings, responses and the OOB mailboxes. -/

namespace Sys2Proof.Machine

open Sys2Proof

/-! ## The outside wires and free values -/

/-- Start of a command: nothing of it is on the wires yet. [DESIGN CHOICE: log 5] -/
def State.begin (s : State) : State := { s with wire := [] }

/-- Put one thing on the outside wires. [DESIGN CHOICE: log 5] -/
def State.emit (s : State) (e : Emission) : State := { s with wire := s.wire ++ [e] }

/-- Put several things on the outside wires, in order. [DESIGN CHOICE: log 5] -/
def State.emits (s : State) (es : List Emission) : State := { s with wire := s.wire ++ es }

/-- Advance the counter that free values are applied to. [DESIGN CHOICE: log 6] -/
def State.tick (s : State) : State := { s with freeCount := s.freeCount + 1 }

/-! ## Numbers derived from a port number (Table 0.3) -/

/-- The slot that holds a port. -/
def slotOf (p : Port) : Slot := ⟨p.val / 32, by omega⟩

/-- The position of a port in its slot. -/
def posInSlot (p : Port) : Fin 32 := ⟨p.val % 32, by omega⟩

/-- The port at a position of a slot. -/
def portAt (k : Slot) (j : Fin 32) : Port := ⟨32 * k.val + j.val, by omega⟩

/-- Whether a port is SuperSpeed-capable. -/
def ssCapable (p : Port) : Bool := p.val % 32 < 2

/-- The port die (0 PTA, 1 PTB) or power die (0 PWA, 1 PWB) of a port (Table 1.1). -/
def dieOf (p : Port) : Fin 2 := ⟨p.val / 256, by omega⟩

/-- The power die of a slot. -/
def dieOfSlot (k : Slot) : Fin 2 := ⟨k.val / 8, by omega⟩

/-- The PBM quarter of a bank (Table 1.2). -/
def quarterOf (b : Bank) : Fin 4 := ⟨b.val / 8, by omega⟩

/-- All ports, ascending. -/
def allPorts : List Port := List.finRange 512

/-- The ports of a slot, ascending. -/
def portsOfSlot (k : Slot) : List Port := (List.finRange 32).map (portAt k)

/-- The ports assigned to a partition, ascending (R45). -/
def State.portsOf (s : State) (k : Part) : List Port := allPorts.filter (fun p => s.partOf.get p == k)

/-- The partitions that own a port of a slot. -/
def State.partsOfSlot (s : State) (k : Slot) : List Part :=
  (List.finRange 16).filter (fun q => (portsOfSlot k).any (fun p => s.partOf.get p == q))

/-- Do something for every thing of a list, in order. -/
def forAll {α : Type} (l : List α) (f : State → α → State) (s : State) : State := l.foldl f s

/-! ## Targets (Table 11.3) -/

/-- The object a TARGET names. -/
inductive Target where
  | port (p : Port)
  | partition (k : Part)
  | slot (k : Slot)
  | upstream (k : Part)
  | bank (b : Bank)
  | device
deriving DecidableEq, Repr

/-- The object of a TARGET value; none outside the ranges of Table 11.3. -/
def decodeTarget (t : BitVec 16) : Option Target :=
  let n := t.toNat
  if h : n < 512 then some (.port ⟨n, h⟩)
  else if 0x8000 ≤ n ∧ n < 0x8010 then some (.partition (Fin.ofNat 16 n))
  else if 0x8100 ≤ n ∧ n < 0x8110 then some (.slot (Fin.ofNat 16 n))
  else if 0x8200 ≤ n ∧ n < 0x8210 then some (.upstream (Fin.ofNat 16 n))
  else if 0x8300 ≤ n ∧ n < 0x8320 then some (.bank (Fin.ofNat 32 n))
  else if n = 0xFFFF then some .device
  else none

/-- The TARGET of a port. -/
def portTarget (p : Port) : BitVec 16 := BitVec.ofNat 16 p.val
/-- The TARGET of a slot. -/
def slotTarget (k : Slot) : BitVec 16 := BitVec.ofNat 16 (0x8100 + k.val)
/-- The TARGET of a bank. -/
def bankTarget (b : Bank) : BitVec 16 := BitVec.ofNat 16 (0x8300 + b.val)
/-- The TARGET of the device as a whole. -/
def deviceTarget : BitVec 16 := 0xFFFF

/-! ## Detector messages (R411) -/

/-- A detector reports to the Fault Collector; the message is collected at the end of the command. -/
def State.report (s : State) (d : Detection) : State :=
  { s with fault := { s.fault with inbox := s.fault.inbox ++ [d] } }

/-- A detector's report of a real condition. -/
def State.detect (s : State) (source kind info : Nat) : State :=
  s.report { source := BitVec.ofNat 12 source, kind := BitVec.ofNat 8 kind, info := BitVec.ofNat 32 info, injected := false }

/-! ## Message framing (Table 11.1) -/

/-- Whether a session's transport is out of band (Table 11.5), where messages carry a CRC (R372). -/
def isOob (i : Sess) : Bool := 16 ≤ i.val

/-- The 16-byte header and the payload; the CRC is 0 on the Management Function (R372). -/
def frameBytes (i : Sess) (opcode : BitVec 16) (flags status : Byte) (seq : BitVec 32) (target : BitVec 16)
    (payload : List Byte) : List Byte :=
  let head := le16 opcode.toNat ++ [flags, status] ++ le32 seq.toNat ++ le16 target.toNat ++ le16 payload.length
  let crc := if isOob i then crc32 (head ++ payload) else 0
  head ++ le32 crc.toNat ++ payload

/-- A response as the bytes of its message; MORE is flag bit 2 (Table 11.2). -/
def rspBytes (i : Sess) (r : Rsp) : List Byte :=
  frameBytes i r.opcode (if r.more then 0x04 else 0) r.status r.cseq r.target r.payload

/-- An event as the bytes of its message; LOST is flag bit 3 (Table 11.2). -/
def evtBytes (i : Sess) (e : EventRec) (lost : Bool) : List Byte :=
  frameBytes i e.code (if lost then 0x08 else 0) 0 e.eseq e.target e.payload

/-! ## Sessions -/

/-- Change one session. -/
def State.updSession (s : State) (i : Sess) (f : Session → Session) : State :=
  { s with sessions := s.sessions.upd i f }

/-- The mailbox of an out-of-band session. -/
def mboxOf (i : Sess) : Option Mbox := if h : 16 ≤ i.val then some ⟨i.val - 16, by omega⟩ else none

/-- The session of a mailbox. -/
def sessOfMbox (m : Mbox) : Sess := ⟨16 + m.val, by omega⟩

/-- The MF session of a partition. -/
def mfSession (k : Part) : Sess := ⟨k.val, by omega⟩

/-- Steward scope: every out-of-band session, and an MF session while granted (Table 0.2, R378). -/
def State.isSteward (s : State) (i : Sess) : Bool := isOob i || (s.sessions.get i).grant

/-- Whether an event's group bit is set in an EVENT_MASK (Table 11.10). -/
def inMask (mask code : BitVec 16) : Bool := mask.getLsbD ((code.toNat / 256) % 16)

/-- Whether a session is among those an event is issued to (R380). -/
def State.receives (s : State) (e : EventOut) (i : Sess) : Bool :=
  (s.sessions.get i).isOpen && inMask (s.sessions.get i).eventMask e.code &&
    (e.audience.everyone || (e.audience.oob && isOob i) || (e.audience.stewards && s.isSteward i) ||
      e.audience.parts.any (fun k => mfSession k == i))

/-- The oldest event leaves a full ring (R384). -/
def evictOldest (x : Session) : Session :=
  match x.ring with
  | [] => x
  | e :: rest =>
    { x with ring := rest, lostCount := x.lostCount + 1, lostFlag := x.lostFlag || !e.sent }

/-- An event enters a session's ring with the next ESEQ (R382, R384). -/
def pushEvent (x : Session) (code target : BitVec 16) (payload : List Byte) : Session :=
  let x := if x.ring.length ≥ 4096 then evictOldest x else x
  { x with
    ring := x.ring ++ [{ eseq := x.nextEseq, code, target, payload, sent := false, again := false }]
    nextEseq := x.nextEseq + 1, issued := true }

/-- The next event to transmit: a replayed one first, then the oldest not yet transmitted (R382, R385). [DEDUCED: log 68] -/
def nextToSend (x : Session) : Option EventRec := x.ring.find? (fun e => e.again || !e.sent)

/-- The event has been transmitted; LOST is used up by it. [DEDUCED: log 68] -/
def markSent (x : Session) (eseq : BitVec 32) : Session :=
  { x with
    ring := x.ring.map (fun e => if e.eseq = eseq then { e with sent := true, again := false } else e)
    lostFlag := false }

/-! ## The OOB mailboxes (R391) -/

/-- The next response enters a free response buffer. -/
def State.fillRsp (s : State) (m : Mbox) : State :=
  let i := sessOfMbox m
  match (s.sessions.get i).out with
  | r :: rest =>
    if (s.mailboxes.get m).rspReady then s
    else
      { s.updSession i (fun x => { x with out := rest }) with
        mailboxes := s.mailboxes.upd m (fun b => { b with rspReady := true, rspBuf := rspBytes i r }) }
  | [] => s

/-- The next event enters a free event buffer, while management firmware runs (R203). -/
def State.fillEvt (s : State) (m : Mbox) : State :=
  let i := sessOfMbox m
  let x := s.sessions.get i
  match nextToSend x with
  | some e =>
    if (s.mailboxes.get m).evtReady || s.fw.paused then s
    else
      { s.updSession i (fun x => markSent x e.eseq) with
        mailboxes := s.mailboxes.upd m (fun b => { b with evtReady := true, evtBuf := evtBytes i e x.lostFlag }) }
  | none => s

/-- Whether the mailboxes are served: not in Off (R389). -/
def State.oobServed (s : State) : Bool := s.mode != .off

/-- What waits for a mailbox's buffers enters them (R391). -/
def State.fillMailbox (s : State) (m : Mbox) : State := if s.oobServed then (s.fillRsp m).fillEvt m else s

/-- A response is queued on its session's transport, and enters a mailbox's free buffer at once. -/
def State.respond (s : State) (i : Sess) (r : Rsp) : State :=
  let s := s.updSession i (fun x => { x with out := x.out ++ [r] })
  match mboxOf i with
  | some m => s.fillMailbox m
  | none => s

/-! ## Evening caps (R337) -/

/-- Whether an Evening cause holds: an automatic one where AUTO_EVENING lets it act, or COMMAND (Tables 10.2, 10.7). [DEDUCED: log 47] -/
def State.eveHolds (s : State) : Bool :=
  (s.modeCfg.autoEvening && (s.eve.thermal || s.eve.supply || s.eve.avs)) || s.eve.command

/-- Whether the caps of R337 apply: in Evening, and in Morning, Diagnostic and Safe Hold while a cause holds. -/
def State.capped (s : State) : Bool :=
  s.mode == .evening || ((s.mode == .morning || s.mode == .diagnostic || s.mode == .safeHold) && s.eveHolds)

/-! ## Events (R380, R397, R409) -/

/-- Give an event to one session, where it is among those the event is issued to. -/
def State.deliver (s : State) (e : EventOut) (i : Sess) : State :=
  if s.receives e i then
    let s := s.updSession i (fun x => pushEvent x e.code e.target e.payload)
    match mboxOf i with
    | some m => s.fillMailbox m
    | none => s
  else s

/-- Issue an event to its sessions in ascending order; while firmware is paused it waits (R409). -/
def State.issue (s : State) (e : EventOut) : State :=
  if s.fw.paused then { s with heldEvents := s.heldEvents ++ [e] }
  else forAll (List.finRange 19) (fun s i => s.deliver e i) s

/-- Events that arose during a pause are issued in order after it (R409). -/
def State.issueHeld (s : State) : State :=
  forAll s.heldEvents (fun s e => s.issue e) { s with heldEvents := [] }

/-- The audience of a port's events: the MF of its partition, and the stewards (Table 11.15). -/
def State.portAudience (s : State) (p : Port) : Audience := { parts := [s.partOf.get p], stewards := true }

/-- The audience of a slot's events (R323). -/
def State.slotAudience (s : State) (k : Slot) : Audience := { parts := s.partsOfSlot k, stewards := true }

/-- Issue a port event. -/
def State.portEvent (s : State) (p : Port) (code : Nat) (payload : List Byte) : State :=
  s.issue { code := BitVec.ofNat 16 code, target := portTarget p, payload, audience := s.portAudience p }

/-- Issue a slot event. -/
def State.slotEvent (s : State) (k : Slot) (code : Nat) (payload : List Byte) : State :=
  s.issue { code := BitVec.ofNat 16 code, target := slotTarget k, payload, audience := s.slotAudience k }

/-- Issue a bank event, to the stewards. -/
def State.bankEvent (s : State) (b : Bank) (code : Nat) (payload : List Byte) : State :=
  s.issue { code := BitVec.ofNat 16 code, target := bankTarget b, payload, audience := { stewards := true } }

/-! ## Completing a command (R374, R381, R394) -/

/-- The final response of the command in execution on a session: it is stored, sent, and copied to waiting repeats. -/
def State.complete (s : State) (i : Sess) (status : Byte) (payload : List Byte) : State :=
  let x := s.sessions.get i
  match x.executing with
  | none => s
  | some (c, _) =>
    let r : Rsp := { opcode := c.opcode, status, cseq := c.msg.cseq, target := c.msg.target, more := false, payload }
    let s := s.updSession i (fun x =>
      { x with executing := none, repeats := 0, stored := x.stored.map (fun t => { t with response := some r }) })
    forAll (List.replicate (1 + x.repeats) r) (fun s r => s.respond i r) s

/-- Answer every session whose command waits for this. -/
def State.answer (s : State) (w : Wait) (status : Byte) (payload : List Byte) : State :=
  forAll (List.finRange 19)
    (fun s i => if ((s.sessions.get i).executing.map (·.2)) = some w then s.complete i status payload else s) s

/-! ## The status codes of Table 11.4 -/

/-- OK. -/
def stOK : Byte := 0x00
/-- BUSY. -/
def stBusy : Byte := 0x01
/-- DENIED. -/
def stDenied : Byte := 0x02
/-- BAD_ARG. -/
def stBadArg : Byte := 0x03
/-- OFFLINE. -/
def stOffline : Byte := 0x04
/-- SUPERSEDED. -/
def stSuperseded : Byte := 0x05
/-- NOT_IN_MODE. -/
def stNotInMode : Byte := 0x06
/-- SEQ_GAP. -/
def stSeqGap : Byte := 0x07
/-- TOO_BIG. -/
def stTooBig : Byte := 0x08
/-- DEFERRED. -/
def stDeferred : Byte := 0x09
/-- UNSUPPORTED. -/
def stUnsupported : Byte := 0x0A

/-- What a command's execution gives: its final response, several responses of which all but the last carry MORE, a wait, or
nothing further, where the meaning itself has answered or has set its command waiting (MODE_REQUEST, FW_ACTIVATE, CLOSE). -/
inductive Reply where
  | done (status : Byte) (payload : List Byte)
  | parts (payloads : List (List Byte))
  | wait (w : Wait)
  | answered
deriving DecidableEq, Repr

/-- A refused command changes nothing (R374). -/
def refuse (s : State) (status : Byte) : State × Reply := (s, .done status [])

/-- A command that has taken effect, with no payload. -/
def ok (s : State) : State × Reply := (s, .done stOK [])

end Sys2Proof.Machine
end

