-- ==== Sys2Proof/Machine/Flash.lean ====
section
/-! DEFINITION. The boot flash: Emastra containers and their checks (R399, R400), the directory (R401), the elements of a configuration record (R405). -/

namespace Sys2Proof.Machine

open Sys2Proof

/-- Change the firmware state. -/
def State.updFw (s : State) (f : FirmwareState → FirmwareState) : State := { s with fw := f s.fw }

/-! ## Containers (Table 11.18) -/

/-- VERSION: the image version or the record serial. [PRESUMED: log 16] -/
def versionOf (l : List Byte) : Nat := get32 l 12
/-- SECURITY_VERSION. [PRESUMED: log 16] -/
def secverOf (l : List Byte) : Nat := get32 l 16
/-- BODY_LENGTH. -/
def bodyLength (l : List Byte) : Nat := get32 l 20
/-- HANDOVER. -/
def handoverOf (l : List Byte) : Nat := get32 l 24
/-- The digest of a container's header. -/
def headerDigest (l : List Byte) : List Byte := sha384 (l.take 512)
/-- A slice of bytes; erased flash reads as ones. [PRESUMED: log 16] -/
def slice (l : List Byte) (i n : Nat) : List Byte :=
  let t := (l.drop i).take n
  t ++ List.replicate (n - t.length) 0xFF
/-- The body of a container. -/
def bodyOf (l : List Byte) : List Byte := slice l 512 (bodyLength l)

/-- The largest body of an image or a record (R399). [DEDUCED: log 50] -/
def maxBody (isImage : Bool) : Nat := if isImage then 655360 else 261632

/-- Whether a fused key serves a container's KIND. -/
def KeyUse.serves (u : KeyUse) (isImage : Bool) : Bool :=
  match u with
  | .image => isImage
  | .record => !isImage
  | .both => true

/-- The result of R400 for a container, in the codes of Table 11.20; 0 where it is accepted. -/
def FirmwareState.judge (x : FirmwareState) (isImage : Bool) (l : List Byte) : Nat :=
  let h := slice l 0 512
  let kind := if isImage then 1 else 2
  if h.take 4 != [0x45, 0x4D, 0x41, 0x31] || get16 h 4 != 1 || get16 h 6 != kind then 1
  else if get16 h 8 != 0x8516 || byteAt h 10 != 0xB0 then 2
  else if maxBody isImage < bodyLength h then 3
  else if sha384 (bodyOf l) != slice h 128 48 then 4
  else
    let key := x.keys.get (Fin.ofNat 4 (get8 h 11))
    if 4 ≤ get8 h 11 || key.digest != sha384 (slice h 176 96) || key.revoked || !key.use.serves isImage then 5
    else if !ecdsaVerify (slice h 176 96) (h.take 272) (slice h 272 96) then 6
    else if isImage && secverOf h < x.securityFloor then 7
    else 0

/-! ## Areas and the directory (R401, Table 11.19) -/

/-- The area of an image slot. -/
def slotArea (i : Fin 2) : Fin 4 := ⟨i.val, by omega⟩
/-- The area of a record copy. -/
def copyArea (i : Fin 2) : Fin 4 := ⟨2 + i.val, by omega⟩
/-- The other of two. -/
def other2 (i : Fin 2) : Fin 2 := 1 - i

/-- The container in an area. [PRESUMED: log 16] -/
def FirmwareState.area (x : FirmwareState) (a : Fin 4) : List Byte := (x.areas.get a).bytes
/-- Set the state of an area. [DESIGN CHOICE: log 72] -/
def FirmwareState.mark (x : FirmwareState) (a : Fin 4) (st : AreaSt) : FirmwareState :=
  { x with areas := x.areas.upd a (fun v => { v with st }) }

/-- The directory in force: the intact copy with the higher GENERATION. -/
def FirmwareState.dir (x : FirmwareState) : Option Directory :=
  let a := x.dirs.get 0
  let b := x.dirs.get 1
  if a.intact && b.intact then some (if a.generation.toNat < b.generation.toNat then b else a)
  else if a.intact then some a
  else if b.intact then some b
  else none

/-- The copy an update is written into: the one with the older GENERATION, or one that is not intact. -/
def FirmwareState.olderCopy (x : FirmwareState) : Fin 2 :=
  let a := x.dirs.get 0
  let b := x.dirs.get 1
  if !a.intact then 0
  else if !b.intact then 1
  else if a.generation.toNat < b.generation.toNat then 0 else 1

/-- Write a directory update with the next GENERATION (R401). [DESIGN CHOICE: log 72] -/
def FirmwareState.writeDir (x : FirmwareState) (f : Directory → Directory) : FirmwareState :=
  let d := x.dir.getD {}
  let new := { f d with intact := true, generation := if x.dir.isSome then d.generation + 1 else 0 }
  { x with dirs := x.dirs.put x.olderCopy new }

/-- The digest the directory holds of a slot's header. -/
def Directory.slotDigest (d : Directory) (i : Fin 2) : List Byte := if i = 0 then d.digestA else d.digestB

/-- The directory with a slot's digest replaced. -/
def Directory.withSlot (d : Directory) (i : Fin 2) (digest : List Byte) : Directory :=
  if i = 0 then { d with digestA := digest } else { d with digestB := digest }

/-- A digest field as the directory holds it: 48 bytes, zeros where none has been committed. -/
def digestField (l : List Byte) : List Byte := l.take 48 ++ zeros (48 - l.length)

/-- The bytes of a directory copy (Table 11.19). -/
def Directory.bytes (d : Directory) : List Byte :=
  let body := [0x44, 0x49, 0x52, 0x31] ++ le32 d.generation.toNat ++
    [BitVec.ofNat 8 d.active.val, (d.trial.map (fun i => BitVec.ofNat 8 i.val)).getD 0xFF,
     (d.recordCopy.map (fun i => BitVec.ofNat 8 i.val)).getD 0xFF, 0] ++ digestField d.digestA ++ digestField d.digestB ++
    digestField d.recordDigest
  body ++ le32 (crc32 body).toNat

/-! ## Configuration records (R405, Tables 11.23 and 11.24) -/

/-- An element: its byte offset in the body, its TAG and its value. -/
structure Element where
  offset : Nat
  tag : Nat
  value : List Byte
deriving DecidableEq, Repr

/-- The LENGTH Table 11.24 gives an element with a value; none for a TAG it does not list. -/
def elementLength (tag : Nat) (v : List Byte) : Option Nat :=
  match tag with
  | 0x0001 => some 8
  | 0x0002 => some 16
  | 0x0003 => some 8
  | 0x0004 => some 6
  | 0x0005 => some 4
  | 0x0006 => some 4
  | 0x0007 => some 4
  | 0x0010 => some 14
  | 0x0011 => some (8 + 4 * get8 v 4)
  | 0x0020 => some 4
  | 0x0021 => some 12
  | 0x0022 => some 8
  | 0x0023 => some (8 + 4 * get8 v 5)
  | 0x0024 => some (12 + 40 * get8 v 10)
  | 0x0025 => some 8
  | 0x0026 => some 16
  | 0x0030 => some 36
  | 0x0040 => some (4 + 2 * get8 v 1)
  | 0x0041 => some 4
  | _ => none

/-- The reserved bits of an element's value: byte offsets with masks (Table 11.24). -/
def elementReserved (tag : Nat) (v : List Byte) : List (Nat × Nat) :=
  match tag with
  | 0x0001 => [(3, 0xFE), (4, 0xFF), (5, 0xFF), (6, 0xFF), (7, 0xFF)]
  | 0x0002 => [(1, 0xFC)]
  | 0x0003 => [(0, 0xC0)]
  | 0x0004 => [(0, 0xF8), (3, 0xFF)]
  | 0x0006 => [(2, 0xFF), (3, 0xFF)]
  | 0x0007 => [(2, 0xFF), (3, 0xFF)]
  | 0x0010 => [(2, 0xFF), (3, 0xFF), (4, 0x80), (5, 0xF8), (7, 0xFF)]
  | 0x0011 => [(2, 0xFF), (3, 0xFF), (5, 0xFF), (6, 0xFF), (7, 0xFF)] ++ (List.range (get8 v 4)).map (fun i => (11 + 4 * i, 0xFC))
  | 0x0021 => [(4, 0xF0), (6, 0xFC), (7, 0xFF)]
  | 0x0022 => [(5, 0xFF), (6, 0xFF), (7, 0xFF)]
  | 0x0023 => [(4, 0xFE), (6, 0xFF), (7, 0xFF)]
  | 0x0024 => [(4, 0xC0), (11, 0xFF)] ++
      (List.range (get8 v 10)).flatMap (fun i => [(18 + 40 * i, 0xFF), (19 + 40 * i, 0xFF), (50 + 40 * i, 0xFF), (51 + 40 * i, 0xFF)])
  | 0x0025 => [(6, 0xFF), (7, 0xFF)]
  | 0x0026 => [(4, 0xF8), (6, 0xFE), (10, 0xFF), (11, 0xFF)]
  | 0x0030 => [(3, 0xFF), (5, 0x80), (6, 0xFF), (7, 0xFF), (27, 0xF0), (32, 0xFF), (33, 0xFF), (34, 0xFF), (35, 0xFF)]
  | 0x0040 => [(2, 0xFF), (3, 0xFF)]
  | _ => []

/-- Whether an element's reserved fields are all zero. -/
def reservedClear (tag : Nat) (v : List Byte) : Bool := (elementReserved tag v).all (fun (i, m) => get8 v i &&& m == 0)

/-- The elements of a body from an offset on, or the result with which the record is invalid (R405). -/
def elementsFrom : Nat → Nat → List Byte → Except Nat (List Element)
  | 0, _, l => if l.isEmpty then .ok [] else .error 3
  | n + 1, off, l =>
    if l.isEmpty then .ok []
    else
      let tag := get16 l 0
      let len := get16 l 2
      let pad := (4 - len % 4) % 4
      let v := (l.drop 4).take len
      if l.length < 4 + len + pad then .error 3
      else if !zeroSlice l (4 + len) pad then .error 3
      else match elementLength tag v with
        | none => if 32768 ≤ tag then .error 1 else
            (elementsFrom n (off + 4 + len + pad) (l.drop (4 + len + pad))).map (fun r => { offset := off, tag, value := v } :: r)
        | some k =>
          if k != len then .error 3
          else if !reservedClear tag v then .error 1
          else (elementsFrom n (off + 4 + len + pad) (l.drop (4 + len + pad))).map (fun r => { offset := off, tag, value := v } :: r)

/-- The elements of a record body; an element is at least 4 bytes. -/
def elementsOf (body : List Byte) : Except Nat (List Element) := elementsFrom (body.length / 4 + 1) 0 body

/-- The result of R400 and R405 for a record container. -/
def FirmwareState.judgeRecord (x : FirmwareState) (l : List Byte) : Nat :=
  match x.judge false l with
  | 0 =>
    match elementsOf (bodyOf l) with
    | .ok _ => 0
    | .error c => c
  | c => c

end Sys2Proof.Machine
end

