-- ==== Sys2Proof/Machine/Vbus.lean ====
section
/-! DEFINITION. VBUS of a port: the frame word, release, hold and discharge (R304, R315–R319). -/

namespace Sys2Proof.Machine

open Sys2Proof

/-- Change the VBUS side of one port. -/
def State.updVbus (s : State) (p : Port) (f : VbusState → VbusState) : State := { s with vbus := s.vbus.upd p f }

/-- Change the Type-C and PD side of one port. -/
def State.updPd (s : State) (p : Port) (f : PdPort → PdPort) : State := { s with pd := s.pd.upd p f }

/-- The current of a class, in mA (R317). -/
def classMa : List Nat := [500, 1000, 1500, 2000, 2500, 3000, 4000, 5000]

/-- The smallest class at or above a current (Table 9.13). -/
def classFor (ma : Nat) : Nat := (classMa.findIdx? (fun c => ma ≤ c)).getD 7

/-- VSET of a voltage: 3.00 V + VSET × 20 mV (Table 9.7). -/
def vsetOf (mv : Nat) : Nat := (mv - 3000) / 20

/-- A frame word (Table 9.7). -/
def frameWord (en disch pps : Bool) (lvl vset : Nat) : BitVec 16 :=
  BitVec.ofNat 16 (bnat en * 2 ^ 15 + bnat disch * 2 ^ 14 + bnat pps * 2 ^ 13 + lvl * 2 ^ 10 + vset)

/-- EN of a frame word. -/
def wordEn (w : BitVec 16) : Bool := w.getLsbD 15

/-- The word that orders nothing: EN 0, DISCH 0, VSET 0x064. -/
def idleWord : BitVec 16 := 0x0064

/-- The word of a discharge: EN 0, DISCH 1, VSET 0x064. -/
def dischargeWord : BitVec 16 := 0x4064

/-- LVL without an explicit contract (Table 9.13). -/
def State.idleClass (s : State) (p : Port) : Nat :=
  match (s.pd.get p).cfg.rpLevel with
  | .r3A0 => 5
  | .r1A5 => 2
  | .default =>
    if (s.ports.get p).dataMode = .charge ∨ (s.ports.get p).bcMode = .cdp then 2
    else if (posInSlot p).val < 2 then 1 else 0

/-- The contract that the word carries: during Table 8.8 the new one from step 1 on (R316). -/
def wordContract (x : PdPort) : Option Contract :=
  match x.trans with
  | some t =>
    match t.step with
    | .pgood => some t.goal
    | .psRdy => some t.goal
    | _ => match x.contract with
      | .explicit c => some c
      | _ => none
  | none => match x.contract with
    | .explicit c => some c
    | _ => none

/-- The conditions of Table 9.12 row 4. A port of a partition that is becoming Disabled keeps VBUS until its drain is over
(Table 3.8). -/
def State.vbusWanted (s : State) (p : Port) : Bool :=
  let v := s.vbus.get p
  let x := s.pd.get p
  v.setting && v.hold == none && (s.ports.get p).dataMode != .off && ((s.parts.get (s.partOf.get p)).st != .disabled || (s.ports.get p).st == .draining) &&
    (x.tc == .attached || x.tc == .debugAcc) && !x.settling && x.hr != some .discharge && x.hr != some .recover

/-- The word of the shadow: Table 9.12 rows 2–5 (row 1 is the chain controller's gate, R304). -/
def State.wordOf (s : State) (p : Port) : BitVec 16 :=
  let v := s.vbus.get p
  let x := s.pd.get p
  if (s.chains.get (slotOf p)).st = .fault then dischargeWord
  else if v.discharging || v.hold == some .noDischarge || (s.slots.get (slotOf p)).disabling then dischargeWord
  else if s.vbusWanted p then
    if x.hr = some .reset then v.shadow
    else match wordContract x with
      | some c => frameWord true false c.pps (classFor c.ma) (vsetOf c.mv)
      | none => frameWord true false false (s.idleClass p) 0x064
  else idleWord

/-- Write a port's word into the shadow, as PDEk does for a detach, a Hard Reset and Safe Hold (R255); with EN = 1 anew, PGOOD is awaited
(R319). -/
def State.writeWord (s : State) (p : Port) : State :=
  let w := s.wordOf p
  s.updVbus p (fun v => { v with shadow := w, awaitPgood := v.awaitPgood || (wordEn w && !wordEn v.shadow) })

/-- Recompute a port's word; every change but PDEk's own waits for management firmware (R255, R26). -/
def State.refreshWord (s : State) (p : Port) : State := if s.fw.paused then s else s.writeWord p

/-- Whether the core die takes a slot to be ON (R303, R304). [DEDUCED: log 66] -/
def State.slotSeenOn (s : State) (k : Slot) : Bool := (s.slots.get k).st == .on || (s.slots.get k).unseen

/-- The word a frame carries for a port: Table 9.12 row 1 gates the shadow (R304). -/
def State.frameOf (s : State) (p : Port) : BitVec 16 :=
  if s.slotSeenOn (slotOf p) && (s.vbus.get p).released then (s.vbus.get p).shadow else 0x0064

/-- The bits of a frame: the word of position j is O[16j+15:16j] (R309). -/
def State.chainOut (s : State) (k : Slot) : BitVec 512 :=
  (List.finRange 32).foldl (fun a j => a ||| ((s.frameOf (portAt k j)).setWidth 512 <<< (16 * j.val))) 0

/-- Whether the word with EN = 1 stands at the card and PGOOD has been reported for it (Table 8.4 step 5, R318). -/
def State.vbusGood (s : State) (p : Port) : Bool := wordEn (s.vbus.get p).applied && !(s.vbus.get p).awaitPgood

/-- Whether VBUS is taken as being at vSafe0V without a report: no word with EN = 1 has been applied since (R318). [DEDUCED: log 66] -/
def State.atVSafe0V (s : State) (p : Port) : Bool := !(s.vbus.get p).live

/-- Start the discharge interval of a port (Table 9.12 row 3). -/
def State.startDischarge (s : State) (p : Port) : State := s.updVbus p (fun v => { v with discharging := true })

end Sys2Proof.Machine
end

