-- ==== Sys2Proof/Machine/Pd.lean ====
section
/-! DEFINITION. The PD Engine of a port: contracts, offers and their clamps, transmission, Hard Reset, the auto-responder (R255–R275, R284–R290). -/

namespace Sys2Proof.Machine

open Sys2Proof

/-! ## Message headers and objects, as USB Power Delivery 3.1 gives them (R5) -/

/-- The message type of a PD header. -/
def pdType (b : List Byte) : Nat := get8 b 0 % 32
/-- The number of data objects of a PD header. -/
def pdObjects (b : List Byte) : Nat := get8 b 1 / 16 % 8
/-- The Extended bit of a PD header. -/
def pdExtended (b : List Byte) : Bool := bit (get8 b 1) 7
/-- The MessageID of a PD header. -/
def pdId (b : List Byte) : BitVec 3 := BitVec.ofNat 3 (get8 b 1 / 2)
/-- Whether a message is a control message of a type. -/
def isControl (b : List Byte) (n : Nat) : Bool := pdObjects b == 0 && !pdExtended b && pdType b == n
/-- Whether a message is a data message of a type. -/
def isData (b : List Byte) (n : Nat) : Bool := pdObjects b != 0 && !pdExtended b && pdType b == n

/-- The header of a message the device sends as source and DFP, revision 3.0, MessageID 0. -/
def pdHeader (type objects : Nat) : List Byte := le16 (type + 2 ^ 5 + 2 * 2 ^ 6 + 2 ^ 8 + objects * 2 ^ 12)

/-- A control message. -/
def controlMsg (type : Nat) : List Byte := pdHeader type 0

/-- A data message. -/
def dataMsg (type : Nat) (objs : List (BitVec 32)) : List Byte :=
  pdHeader type objs.length ++ objs.flatMap (fun o => le32 o.toNat)

/-- A message with its MessageID. -/
def withId (b : List Byte) (id : BitVec 3) : List Byte :=
  match b with
  | x :: y :: rest => x :: BitVec.ofNat 8 (y.toNat - (y.toNat / 2 % 8) * 2 + id.toNat * 2) :: rest
  | _ => b

/-! ## Offers (R264–R266) -/

/-- Whether a PDO is an APDO (SPR Programmable Power Supply). -/
def isApdo (o : BitVec 32) : Bool := field o.toNat 30 2 == 3
/-- The voltage of a fixed PDO, in mV. -/
def pdoMv (o : BitVec 32) : Nat := 50 * field o.toNat 10 10
/-- The current of a PDO, in mA: 10 mA steps fixed, 50 mA steps APDO. -/
def pdoMa (o : BitVec 32) : Nat := if isApdo o then 50 * field o.toNat 0 7 else 10 * field o.toNat 0 10
/-- The maximum voltage of an APDO, in mV. -/
def apdoMax (o : BitVec 32) : Nat := 100 * field o.toNat 17 8
/-- The minimum voltage of an APDO, in mV. -/
def apdoMin (o : BitVec 32) : Nat := 100 * field o.toNat 8 8

/-- A PDO with its current lowered to a limit, rounded down to its step. -/
def clampMa (limit : Nat) (o : BitVec 32) : BitVec 32 :=
  if pdoMa o ≤ limit then o
  else if isApdo o then BitVec.ofNat 32 (o.toNat - field o.toNat 0 7 + limit / 50)
  else BitVec.ofNat 32 (o.toNat - field o.toNat 0 10 + limit / 10)

/-- The current of an Rp level as a PDO counts it, in mA (Table 8.1). -/
def rpMa : RpLevel → Nat
  | .default => 500
  | .r1A5 => 1500
  | .r3A0 => 3000

/-- One fixed 5 V PDO at the current of RP_LEVEL: the default OFFER (Table 8.1). -/
def fivePdo (r : RpLevel) : BitVec 32 := BitVec.ofNat 32 (100 * 2 ^ 10 + rpMa r / 10)

/-- The OFFER of a port. -/
def offerOf (c : PdSettings) : List (BitVec 32) := c.offer.getD [fivePdo c.rpLevel]

/-- USB Communications Capable in the first PDO (R265). -/
def markComm (on : Bool) : List (BitVec 32) → List (BitVec 32)
  | [] => []
  | o :: rest => BitVec.ofNat 32 (o.toNat - field o.toNat 26 1 * 2 ^ 26 + bnat on * 2 ^ 26) :: rest

/-- The Evening clamp: voltage × current at or below 15 W (R266). -/
def clampEvening (o : BitVec 32) : BitVec 32 :=
  let mv := if isApdo o then apdoMax o else pdoMv o
  clampMa (15000000 / (max 1 mv)) o

/-- The current the slot's card declares for a port's position, in mA (Table 9.14). -/
def State.cardMa (s : State) (p : Port) : Nat :=
  let c := (s.slots.get (slotOf p)).cfg
  100 * (if (posInSlot p).val < 2 then c.cardImaxSs else c.cardImaxHs)

/-- The capabilities sent: OFFER with the clamps of R266 in order; toward Midnight only the 5 V PDO (R274). -/
def State.capsOf (s : State) (p : Port) (only5 : Bool) : List (BitVec 32) :=
  let x := s.pd.get p
  let base := if only5 then [fivePdo x.cfg.rpLevel] else offerOf x.cfg
  let mode := (s.ports.get p).dataMode
  let base := markComm (mode == .auto || mode == .lift || mode == .pass) base
  let base := if ssCapable p && !x.cable5A then base.map (clampMa 3000) else base
  let base := if s.capped then base.map clampEvening else base
  base.map (clampMa (s.cardMa p))

/-! ## Events and Rp -/

/-- The contract as PORT_GET and PD_CONTRACT report it: kind, position, RDO, voltage and current; an implicit one is 5 V at the current of the Rp level. [DEDUCED: log 64] -/
def contractFields (x : PdPort) : Nat × Nat × Nat × Nat × Nat :=
  match x.contract with
  | .none => (0, 0, 0, 0, 0)
  | .implicit => (1, 0, 0, 5000, rpMa x.cfg.rpLevel)
  | .explicit c => (2, c.position, c.rdo.toNat, c.mv, c.ma)

/-- PD_CONTRACT (Table 11.15). -/
def State.contractEvent (s : State) (p : Port) : State :=
  let c := contractFields (s.pd.get p)
  s.portEvent p 0x8502 ([BitVec.ofNat 8 c.1, BitVec.ofNat 8 c.2.1, 0, 0] ++ le32 c.2.2.1 ++ le16 c.2.2.2.1 ++ le16 c.2.2.2.2)

/-- The Rp a port drives (R252, R259, R260, Table 8.2). -/
def rpNow (x : PdPort) : Option RpLevel :=
  if x.tc = .open ∨ x.tc = .errorRecovery then none
  else match x.contract with
    | .explicit _ => some (if x.sinkTxNg then .r1A5 else .r3A0)
    | _ => some x.cfg.rpLevel

/-- Drive the Rp the state calls for; a power die whose link is down keeps the level last programmed (R19). [DESIGN CHOICE: log 97] -/
def State.setRp (s : State) (p : Port) : State :=
  if (s.powerLinks.get (dieOf p)).up then s.updPd p (fun x => { x with rp := rpNow x }) else s

/-! ## Ending what runs on a port -/

/-- The outcome of a PD_SEND (Table 11.12). [DEDUCED: log 64] -/
def State.sendOutcome (s : State) (p : Port) (code : Byte) : State := s.answer (.pdSend p) stOK [code, 0, 0, 0]

/-- What PDEk has under way on a port ends: sequences, retries, forwarded messages, a VCONN swap; a PD_SEND in progress has the outcome
given (Table 11.12). -/
def State.endSequences (s : State) (p : Port) (code : Byte) : State :=
  let s := s.updPd p (fun x =>
    { x with tx := none, pending := [], expect := none, fwd := none, retry := none, sendSeq := false, sinkTxNg := false })
  s.sendOutcome p code

/-- Protocol reset: MessageIDs start afresh, and what is under way ends. -/
def State.protocolReset (s : State) (p : Port) (code : Byte) : State :=
  (s.updPd p (fun x => { x with txId := Tab.const 5 0, rxId := Tab.const 5 none, arriving := false })).endSequences p code

/-- End any contract with PD_CONTRACT, type NONE, abandoning a transition; no Hard Reset (R303, R307, R319). `code` is the outcome of a
PD_SEND that it overtakes: SOFT_RESET for a Hard Reset, NOT_ATTACHED for a detach, DISCARDED otherwise. [DEDUCED: log 64] -/
def State.endContract (s : State) (p : Port) (code : Byte) : State :=
  let had := (s.pd.get p).contract != .none
  let s := (s.protocolReset p code).updPd p (fun x => { x with contract := .none, trans := none, hr := none })
  let s := s.setRp p
  if had then s.contractEvent p else s

/-- Whether the UART of a port drives TX on SBU2: with the attach line on CC2, but not for a debug accessory (R289, R290). -/
def txOnSbu2 (x : PdPort) : Bool := x.tc == .attached && x.orientation

/-- DCD of a UART slot: a port is bound, and its mux is at the UART (R288, R289). -/
def State.dcdOf (s : State) (k : Part) (u : Fin 6) : Bool := (((s.uarts.get k).get u).port.map (fun p => (s.pd.get p).sbuOn)).getD false

/-- Whether a UART slot of an MF has characters for the host, or a serial state to report. -/
def State.cdcDue (s : State) (k : Part) : Bool :=
  (List.finRange 6).any (fun u => !((s.uarts.get k).get u).toHost.isEmpty || s.dcdOf k u != (s.mfs.get k).dcd.get u)

/-- Isolate a port's SBU pins (R287, R289). -/
def State.isolateSbu (s : State) (p : Port) : State := s.updPd p (fun x => { x with sbuOn := false })

/-- Free the UART slot bound to a port (R289, R290). -/
def State.freeUart (s : State) (p : Port) : State :=
  let k := s.partOf.get p
  { s.updPd p (fun x => { x with uartSlot := none, sbuOn := false }) with
    uarts := s.uarts.upd k (fun t => Tab.of (fun u => let x := t.get u; if x.port = some p then { x with port := none } else x)) }

/-- Bind a port to the lowest free UART slot of its partition; its kept rate is taken where the port has one (R289–R291). [DEDUCED: log 65] -/
def State.bindUart (s : State) (p : Port) : State :=
  let k := s.partOf.get p
  let t := s.uarts.get k
  match (List.finRange 6).find? (fun u => (t.get u).port == none) with
  | some u =>
    { s.updPd p (fun x => { x with uartSlot := some u }) with
      uarts := s.uarts.put k (t.upd u (fun x => { x with port := some p, baud := (s.pd.get p).cfg.uartBaud })) }
  | none => s

/-! ## Transmission (R256–R261) -/

/-- Whether PDEk sends and answers on a port (Tables 8.5, 8.7, R275). -/
def State.pdRuns (s : State) (p : Port) : Bool :=
  let x := s.pd.get p
  s.mode != .off && s.mode != .midnight && s.mode != .dawn && s.mode != .safeHold && !x.stopped &&
    x.cfg.pdEnable && x.tc == .attached

/-- The VCONN switch of a port; a power die whose link is down keeps it as it is (R19). [DESIGN CHOICE: log 97] -/
def State.setVconn (s : State) (p : Port) (on : Bool) : State :=
  if (s.powerLinks.get (dieOf p)).up then s.updPd p (fun x => { x with vconnOn := on }) else s

/-- The data objects of a message. -/
def objectsOf (b : List Byte) : List (BitVec 32) := (List.range (pdObjects b)).map (fun i => bits32 b (2 + 4 * i))

/-- Whether a message offers capabilities: those last sent are what a Request is judged by (R267). -/
def PdPurpose.offers : PdPurpose → Bool
  | .caps => true
  | .capsAnswer => true
  | _ => false

/-- Put a message on the wire, with its MessageID; GoodCRC is awaited. With PD_ENABLE = 0 nothing is sent (R248). -/
def State.pdTransmit (s : State) (p : Port) (o : PdOut) : State :=
  if (s.pd.get p).cfg.pdEnable then
    let id := (s.pd.get p).txId.get o.sop
    (s.updPd p (fun x => { x with tx := some o, caps := if o.purpose.offers then objectsOf o.bytes else x.caps })).emit
      (.pd p o.sop (withId o.bytes id))
  else s

/-- A message that answers the partner or carries a sequence on: it starts no sequence, and needs no SinkTxNG (R259). -/
def PdPurpose.carriesOn : PdPurpose → Bool
  | .capsAnswer => true
  | .acceptRequest => true
  | .psRdy => true
  | .answer => true
  | .acceptReset => true
  | .acceptSwap => true
  | .swapPsRdy => true
  | .caps => false
  | .softReset => false
  | .discover => false
  | .pdSend _ => false
  | .retry => false

/-- Whether a message is one of PD_SEND. -/
def PdOut.isSend (o : PdOut) : Bool :=
  match o.purpose with
  | .pdSend _ => true
  | _ => false

/-- A message of the device's own is abandoned for an incoming one (R258): PD_SEND is DISCARDED, an answer to what came before lapses, any
other goes back to the front of those that wait, its retries not counted. [DEDUCED: log 64] -/
def State.pdAbandon (s : State) (p : Port) (o : PdOut) : State :=
  match o.purpose with
  | .pdSend _ => (s.updPd p (fun x => { x with retry := none })).sendOutcome p 2
  | .answer => s
  | .capsAnswer => s
  | .acceptReset => s
  | .acceptSwap => s
  | .acceptRequest => s.updPd p (fun x => { x with trans := none })
  | _ => s.updPd p (fun x => { x with pending := o :: x.pending })

/-- A message that is due at once goes out where the CC line is idle (R256). -/
def State.pdSay (s : State) (p : Port) (o : PdOut) : State :=
  if (s.pd.get p).arriving then s.pdAbandon p o else s.pdTransmit p o

/-- Whether a message, an answer or a transition is under way on a port, or a message is arriving. -/
def PdPort.engaged (x : PdPort) : Bool := x.arriving || x.tx.isSome || x.expect.isSome || x.fwd.isSome || x.trans.isSome

/-- Whether an explicit contract stands. -/
def hasExplicit (x : PdPort) : Bool :=
  match x.contract with
  | .explicit _ => true
  | _ => false

/-- Start an atomic message sequence of the device's own, once nothing else is under way: under an explicit contract Rp goes to SinkTxNG
and tSinkTx runs first (R259); otherwise it goes out at once (R260). [DEDUCED: log 64] -/
def State.pdStart (s : State) (p : Port) (o : PdOut) : State :=
  let x := s.pd.get p
  if !x.cfg.pdEnable then s
  else if x.engaged then s.updPd p (fun x => { x with pending := x.pending ++ [o] })
  else if hasExplicit x then (s.updPd p (fun x => { x with pending := x.pending ++ [o], sinkTxNg := true })).setRp p
  else if !x.pending.isEmpty then s.updPd p (fun x => { x with pending := x.pending ++ [o] })
  else s.pdTransmit p o

/-- A sequence has ended, or a message has arrived: what waits for the line goes on, the next pending sequence starts, or Rp returns to
SinkTxOK (R258, R259, R261). [DEDUCED: log 64] -/
def State.pdIdle (s : State) (p : Port) : State :=
  let x := s.pd.get p
  if x.arriving || x.tx.isSome || x.expect.isSome || x.fwd.isSome then s
  else match x.pending with
    | [] => (s.updPd p (fun x => { x with sinkTxNg := false, sendSeq := x.sendSeq && x.retry.isSome })).setRp p
    | o :: rest =>
      if o.purpose.carriesOn then (s.updPd p (fun x => { x with pending := rest })).pdTransmit p o
      else if x.trans.isSome then s
      else if hasExplicit x then (s.updPd p (fun x => { x with sinkTxNg := true })).setRp p
      else (s.updPd p (fun x => { x with pending := rest })).pdTransmit p o

/-- Source_Capabilities go out as a sequence of the device's own. -/
def State.sendCaps (s : State) (p : Port) (only5 : Bool) : State :=
  s.pdStart p { sop := 0, bytes := dataMsg 1 (s.capsOf p only5), purpose := .caps, tries := 0 }

/-- Soft_Reset on SOP (R256). -/
def State.sendSoftReset (s : State) (p : Port) : State :=
  s.pdStart p { sop := 0, bytes := controlMsg 13, purpose := .softReset, tries := 0 }

/-- Answer the partner, or go on with a sequence, at once. -/
def State.pdReply (s : State) (p : Port) (bytes : List Byte) (purpose : PdPurpose) (sop : Fin 5) : State :=
  s.pdSay p { sop, bytes, purpose, tries := 0 }

/-! ## Hard Reset (Table 8.9) -/

/-- Step 1: protocol reset, contract ended with PD_CONTRACT, type NONE; the word keeps the contract's values (R316). -/
def State.hardResetBegin (s : State) (p : Port) : State :=
  let s := (s.endContract p 3).updPd p (fun x => { x with hr := some .reset, vconnSource := true, vconnReturn := false })
  s.isolateSbu p

/-- Send a Hard Reset and run Table 8.9. -/
def State.sendHardReset (s : State) (p : Port) : State :=
  ((s.updPd p (fun x => { x with hardResets := x.hardResets + 1 })).hardResetBegin p).emit (.hardReset p)

/-- Step 2: EN = 0 with DISCH = 1, VCONN off. -/
def State.hardResetOff (s : State) (p : Port) : State :=
  let s := (s.updPd p (fun x => { x with hr := some .discharge })).setVconn p false
  (s.startDischarge p).writeWord p

/-- Step 3: VBUS at vSafe0V; tSrcRecover runs. -/
def State.hardResetSafe (s : State) (p : Port) : State :=
  if (s.pd.get p).hr = some .discharge then s.updPd p (fun x => { x with hr := some .recover }) else s

/-- Whether Ra is seen on the line that is not the attach line. -/
def raSeen (x : PdPort) : Bool := if x.orientation then x.cc1 == .ra else x.cc2 == .ra

/-- Step 4: VBUS returns at vSafe5V; VCONN returns once its line reads below 0.8 V, where Ra is seen (R286). -/
def State.hardResetReturn (s : State) (p : Port) : State :=
  let s := s.updPd p (fun x =>
    { x with hr := some .returning, vconnReturn := ssCapable p && raSeen x, capsCount := 0, capsStopped := false })
  let s := s.updVbus p (fun v => { v with awaitPgood := true })
  s.refreshWord p

/-! ## Contract transitions (Table 8.8) -/

/-- What a Request asks for, where it is valid against the capabilities last sent (R267). -/
def requestOf (caps : List (BitVec 32)) (rdo : BitVec 32) : Option Contract :=
  let r := rdo.toNat
  let pos := field r 28 4
  match caps[pos - 1]? with
  | none => none
  | some o =>
    if pos = 0 then none
    else if isApdo o then
      let mv := 20 * field r 9 12
      let ma := 50 * field r 0 7
      if ma ≤ pdoMa o ∧ apdoMin o ≤ mv ∧ mv ≤ apdoMax o then some { position := pos, rdo, mv, ma, pps := true } else none
    else
      let op := 10 * field r 10 10
      let mx := 10 * field r 0 10
      if op ≤ pdoMa o ∧ op ≤ mx ∧ (mx ≤ pdoMa o ∨ bit r 26 = true) then
        some { position := pos, rdo, mv := pdoMv o, ma := op, pps := false }
      else none

/-- Accept a Request: the transition runs from the GoodCRC of the Accept (Table 8.8, rules 1 and 2). -/
def State.acceptRequest (s : State) (p : Port) (c : Contract) (noChange : Bool) : State :=
  (s.updPd p (fun x =>
    { x with trans := some { goal := c, step := .accept, noChange }, expect := none,
             pending := x.pending.filter (fun o => o.purpose != .psRdy) })).pdReply p (controlMsg 3) .acceptRequest 0

/-- Send PS_RDY. -/
def State.sendPsRdy (s : State) (p : Port) : State :=
  (s.updPd p (fun x => { x with trans := x.trans.map (fun t => { t with step := .psRdy }) })).pdReply p (controlMsg 6) .psRdy 0

/-- PS_RDY has drawn GoodCRC: the contract is in force, and PD_CONTRACT reports it unless nothing changed (Table 8.8 step 4). -/
def State.contractInForce (s : State) (p : Port) : State :=
  match (s.pd.get p).trans with
  | none => s
  | some t =>
    let s := (s.updPd p (fun x => { x with contract := .explicit t.goal, trans := none, hardResets := 0 })).setRp p
    if t.noChange then s else s.contractEvent p

/-! ## The auto-responder (Table 8.7) -/

/-- Modes in which rules 2, 4 FORWARD and 12 act. -/
def State.forwardMode (s : State) : Bool := s.mode == .noon || s.mode == .evening || s.mode == .dusk || s.mode == .diagnostic

/-- How a received message was dealt with: answered in hardware, forwarded, and whether a rule decided it on loaded policy
(R270). -/
structure Handled where
  answered : Bool
  forwarded : Bool
  unhandled : Bool
deriving DecidableEq, Repr

/-- Decided by a rule on loaded policy. -/
def byRule : Handled := { answered := true, forwarded := false, unhandled := false }
/-- Answered at once, but not on loaded policy. -/
def byDefault : Handled := { answered := true, forwarded := false, unhandled := true }
/-- Forwarded to host software. -/
def toHost : Handled := { answered := false, forwarded := true, unhandled := true }
/-- Calls for no response. -/
def noAnswer : Handled := { answered := false, forwarded := false, unhandled := false }

/-- Whether a CANNED entry matches a message (Tables 8.7, 11.12). -/
def Canned.isFor (c : Canned) (b : List Byte) : Bool :=
  let vdm := get32 b 2
  if c.kind = 0 then isControl b c.msgType
  else if c.kind = 1 then isData b c.msgType
  else isData b 15 && c.msgType == 15 && bit vdm 15 && field vdm 16 16 == c.svid.toNat && field vdm 0 5 == c.command

/-- Whether a message is a structured VDM. -/
def isSvdm (b : List Byte) : Bool := isData b 15 && bit (get32 b 2) 15

/-- Whether a message calls for no response: an answer of the partner's, or a message that only informs (USB PD 3.1). -/
def noResponse (b : List Byte) : Bool :=
  [1, 2, 3, 4, 5, 6, 12, 15, 16].any (fun n => isControl b n) || [3, 4, 5, 6, 11, 12].any (fun n => isData b n) ||
    (isSvdm b && field (get32 b 2) 6 2 != 0) || (isData b 15 && !bit (get32 b 2) 15) || (isSvdm b && field (get32 b 2) 0 5 == 6)

/-- The answer PDEk gives itself at the deadline (R268). -/
def deadlineAnswer (b : List Byte) : List Byte :=
  if isData b 2 then controlMsg 12
  else if isSvdm b then dataMsg 15 [BitVec.ofNat 32 (get32 b 2 + 2 * 2 ^ 6)]
  else controlMsg 16

/-- Forward a message: PD_SEND answers it before the deadline (R268). A repeat replaces the first (Table 8.13). -/
def State.forward (s : State) (p : Port) (sop : Fin 5) (b : List Byte) (c : Option Contract) : State × Handled :=
  (s.updPd p (fun x => { x with fwd := some { sop, bytes := b, request := c } }), toHost)

/-- A Request (rules 1–4). During a transition, one for another PDO is answered Wait (R272). -/
def State.onRequest (s : State) (p : Port) (b : List Byte) : State × Handled :=
  let x := s.pd.get p
  let rdo := bits32 b 2
  let s := s.updPd p (fun x => { x with partner := true, expect := if x.expect = some .request then none else x.expect })
  let same := match x.contract with
    | .explicit c => c.rdo == rdo
    | _ => false
  match requestOf x.caps rdo with
  | none => (s.pdReply p (controlMsg 4) .answer 0, byRule)
  | some c =>
    if x.trans.any (fun t => t.goal.position != c.position) then (s.pdReply p (controlMsg 12) .answer 0, byDefault)
    else if same then (s.acceptRequest p c x.trans.isNone, byRule)
    else if x.cfg.grant.getLsbD (c.position - 1) && s.forwardMode then (s.acceptRequest p c false, byRule)
    else match x.cfg.unmatched with
      | .reject => (s.pdReply p (controlMsg 4) .answer 0, byDefault)
      | .wait => (s.pdReply p (controlMsg 12) .answer 0, byDefault)
      | .forward =>
        if s.forwardMode then s.forward p 0 b (some c)
        else (s.pdReply p (controlMsg 12) .answer 0, byDefault)

/-- A VCONN_Swap (rules 7 and 8, R285). -/
def State.onVconnSwap (s : State) (p : Port) : State × Handled :=
  if !ssCapable p then (s.pdReply p (controlMsg 16) .answer 0, byRule)
  else if !(s.pd.get p).cfg.vconnAccept then (s.pdReply p (controlMsg 4) .answer 0, byRule)
  else (s.pdReply p (controlMsg 3) .acceptSwap 0, byRule)

/-- The first rule of Table 8.7 that matches a received message. [DEDUCED: log 64] -/
def State.autoRespond (s : State) (p : Port) (sop : Fin 5) (b : List Byte) : State × Handled :=
  let x := s.pd.get p
  if isData b 2 then s.onRequest p b
  else if isControl b 7 then
    (s.pdReply p (dataMsg 1 (s.capsOf p false)) .capsAnswer 0, byRule)
  else if isControl b 11 then s.onVconnSwap p
  else if isControl b 9 || isControl b 10 then (s.pdReply p (controlMsg 4) .answer 0, byRule)
  else if isControl b 19 || isControl b 8 || isData b 9 || isData b 10 || (pdExtended b && 16 ≤ pdType b && pdType b ≤ 18) then
    (s.pdReply p (controlMsg 16) .answer 0, byRule)
  else match x.cfg.canned.find? (fun c => c.isFor b) with
    | some c => (s.pdReply p c.response .answer sop, byRule)
    | none =>
      if noResponse b then (s, noAnswer)
      else if s.forwardMode then s.forward p sop b none
      else (s.pdReply p (deadlineAnswer b) .answer sop, byDefault)

end Sys2Proof.Machine
end

