-- ==== Sys2Proof/Machine/PdQueues.lean ====
section
/-! DEFINITION. The PD Receive Queue: receivers, items, banks, flush, its code, and what firmware does with an item (R270, R276–R283). -/

namespace Sys2Proof.Machine

open Sys2Proof

/-- The columns of the queue's code (R283): 56 of weight 3, the 13 smallest of weight 5, then the check bits. -/
def queueColumns : List Nat := ofWeight 8 3 ++ (ofWeight 8 5).take 13 ++ (List.range 8).map (2 ^ ·)

/-- The syndrome of a stored word. -/
def queueSyndrome (w : BitVec 77) : BitVec 8 := BitVec.ofNat 8 (xorColumns queueColumns 0 w.toNat)

/-- A 69-bit word with its check bits. -/
def queueEncode (w : BitVec 69) : BitVec 77 := BitVec.ofNat 8 (xorColumns (queueColumns.take 69) 0 w.toNat) ++ w

/-- The class of a syndrome: no poison (R283). -/
def queueClass (syn : BitVec 8) : EccClass :=
  if syn = 0 then .clean
  else match queueColumns.idxOf? syn.toNat with
    | some i => .correctable i
    | none => .multiple

/-- A stored word (Table 8.10). -/
def queueWord (last : Bool) (valid : Nat) (data : BitVec 64) : BitVec 69 :=
  BitVec.ofNat 69 (bnat last * 2 ^ 68 + valid * 2 ^ 64 + data.toNat)

/-- The header word of an item (Table 8.11). -/
def itemHeader (time : BitVec 16) (seq : Byte) (hw flushed overrun : Bool) (aux count sop port : Nat) : BitVec 64 :=
  BitVec.ofNat 64 (time.toNat * 2 ^ 48 + seq.toNat * 2 ^ 40 + bnat hw * 2 ^ 34 + bnat flushed * 2 ^ 33 + bnat overrun * 2 ^ 32 +
    aux * 2 ^ 24 + count * 2 ^ 15 + sop * 2 ^ 12 + port)

/-- The payload words of a message. -/
def payloadWords : Nat → List Byte → List (BitVec 69)
  | 0, _ => []
  | n + 1, l =>
    match l with
    | [] => []
    | _ =>
      let part := l.take 8
      queueWord (l.length ≤ 8) part.length ((packBytes64 part)) :: payloadWords n (l.drop 8)
where
  /-- Bytes as a word's data: byte b in bits 8b+7 to 8b. -/
  packBytes64 : List Byte → BitVec 64
    | [] => 0
    | b :: rest => (packBytes64 rest <<< 8) ||| b.setWidth 64

/-- The number of words an item takes (R277). -/
def itemWords (m : RxMsg) : Nat := 1 + (m.size + 7) / 8

/-- The words of a complete item of receiver `j`. -/
def itemOf (m : RxMsg) (j : Fin 33) (seq : Byte) : List (BitVec 77) :=
  (queueWord (m.size == 0) 8 (itemHeader m.time seq m.hwAnswered false m.overrun 0 m.size m.sop j.val) ::
    payloadWords 34 m.bytes).map queueEncode

/-- The banks swap. -/
def swapBanks (q : PdQueue) : PdQueue :=
  { q with drain := q.fill, drainNotes := q.fillNotes, fill := [], fillNotes := [], drainAt := 0 }

/-- The receiver of an entry. -/
def entryPort : RxEntry → Fin 33
  | .message j => j
  | .reset j _ => j

/-- What an entry holds. -/
def entryMsg (q : PdQueue) : RxEntry → Option RxMsg
  | .message j => q.rx.get j
  | .reset _ m => some m

/-- The receivers once an entry has been taken: a message leaves its buffer. -/
def entryTaken (q : PdQueue) : RxEntry → Tab 33 (Option RxMsg)
  | .message j => q.rx.put j none
  | .reset _ _ => q.rx

/-- One act of the writer: place the first message's item where the fill bank has room (R277, R278), complete it once the
message is whole, or swap the banks (R279). -/
def queueStep (q : PdQueue) : PdQueue :=
  match q.order with
  | e :: rest =>
    match entryMsg q e with
    | none => { q with order := rest, placed := false }
    | some m =>
      if q.placed then
        if m.whole then
          { q with
            fill := q.fill ++ itemOf m (entryPort e) q.itemSeq
            fillNotes := q.fillNotes ++ [{ port := (entryPort e).val, raise := m.raise, forwarded := m.forwarded, words := itemWords m }]
            itemSeq := q.itemSeq + 1, order := rest, placed := false, rx := entryTaken q e }
        else q
      else if q.fill.length + itemWords m ≤ 64 then { q with placed := true }
      else if q.drain = [] && q.fillNotes != [] then
        swapBanks q
      else q
  | [] => if q.drain = [] && q.fillNotes != [] then swapBanks q else q

/-- The banks swap at the end of a cycle in which the drain bank is empty, the fill bank holds a complete item and no placed
item is incomplete (R279). -/
def queueSwap (q : PdQueue) : PdQueue :=
  if q.drain = [] && q.fillNotes != [] && !q.placed then swapBanks q else q

/-- The writer acts until it must wait. -/
def queueRun : Nat → PdQueue → PdQueue
  | 0, q => q
  | n + 1, q => let q' := queueStep q; if q' = q then queueSwap q else queueRun n q'

/-- Change the queue of a PDE and let its writer act. -/
def State.updQueue (s : State) (k : Slot) (f : PdQueue → PdQueue) : State :=
  { s with queues := s.queues.upd k (fun q => queueRun 200 (f q)) }

/-- Whether receiver `j` refuses a new SOP*: its buffer still holds a message that the writer has not taken (R280). -/
def refusesSop (q : PdQueue) (j : Fin 33) : Bool :=
  match q.rx.get j with
  | some m => m.whole
  | none => false

/-- An SOP* starts a message at a receiver, or is refused (R277, R280). [DESIGN CHOICE: log 7] -/
def State.sopDetected (s : State) (k : Slot) (j : Fin 33) (sop : Nat) (size : Nat) : State :=
  let q := s.queues.get k
  if refusesSop q j then { s with queues := s.queues.upd k (fun q => { q with overrun := q.overrun.put j true }) }
  else
    let m : RxMsg := { sop, size, time := Config.pdTime s.freeCount, bytes := [], whole := false, overrun := q.overrun.get j,
                       hwAnswered := false, forwarded := false, raise := false, withheld := false }
    (s.tick).updQueue k (fun q =>
      { q with rx := q.rx.put j (some m), overrun := q.overrun.put j false, placed := q.placed && q.order.head? != some (.message j),
               order := q.order.erase (.message j) ++ [.message j] })

/-- The message of a receiver is whole: its item can be completed. -/
def State.messageWhole (s : State) (k : Slot) (j : Fin 33) (bytes : List Byte) (hw fwd raise : Bool) : State :=
  s.updQueue k (fun q =>
    { q with rx := q.rx.upd j (fun o => o.map (fun m =>
        { m with bytes, size := bytes.length, whole := true, hwAnswered := hw, forwarded := fwd, raise })) })

/-- The message of a receiver produces no item: a repeat, or one flushed before its EOP (R276, R281). -/
def State.messageDropped (s : State) (k : Slot) (j : Fin 33) : State :=
  s.updQueue k (fun q =>
    { q with rx := q.rx.put j none, placed := q.placed && q.order.head? != some (.message j), order := q.order.erase (.message j) })

/-- A Hard Reset or Cable Reset item: SOP_TYPE 5 or 6, no bytes; it follows the item of a message that stands whole in the buffer (Table
8.12), and ends one that was still arriving. [DESIGN CHOICE: log 7] -/
def State.resetItem (s : State) (k : Slot) (j : Fin 33) (sop : Nat) (raise : Bool) : State :=
  let s := if refusesSop (s.queues.get k) j then s else s.messageDropped k j
  let m : RxMsg := { sop, size := 0, time := Config.pdTime s.freeCount, bytes := [], whole := true, overrun := (s.queues.get k).overrun.get j,
                     hwAnswered := false, forwarded := false, raise, withheld := false }
  (s.tick).updQueue k (fun q => { q with overrun := q.overrun.put j false, order := q.order ++ [.reset j m] })

/-! ## Flush (R281, R282) -/

/-- Messages lost per receiver index in a flush: complete items in both banks, and a partial item whose GoodCRC had been sent. -/
def lostIn (q : PdQueue) (j : Nat) : Nat :=
  let items := (q.fillNotes ++ q.drainNotes).filter (fun n => n.port == j)
  let part := match q.order with
    | h :: _ => if (entryPort h).val == j && ((entryMsg q h).map (·.whole)).getD false then 1 else 0
    | [] => 0
  min 63 (items.length + part)

/-- Empty the queue, discard the partial item and push a marker (R281). -/
def flushQueue (q : PdQueue) (time : BitVec 16) : PdQueue :=
  let complete := min 255 (q.fillNotes.length + q.drainNotes.length)
  let port := (q.order.head?.map (fun e => (entryPort e).val)).getD 63
  let marker := queueEncode (queueWord true 8 (itemHeader time q.itemSeq false true false complete 0 7 port))
  let rx := match q.order with
    | .reset _ _ :: _ => q.rx
    | .message h :: _ => q.rx.upd h (fun o => o.bind (fun m => if m.whole then none else some { m with withheld := true }))
    | [] => q.rx
  { q with
    fill := [marker], drain := [], fillNotes := [{ port := 63, raise := false, forwarded := false, words := 1 }],
    drainNotes := [], order := q.order.drop 1, placed := false, rx, itemSeq := q.itemSeq + 1, popped := [] }

/-- Flush the queue of a PDE; PD_MSG_LOST names every port that lost acknowledged messages (R281, R282). -/
def State.flushPd (s : State) (k : Slot) : State :=
  let q := s.queues.get k
  let s := (s.tick).updQueue k (fun q => flushQueue q (Config.pdTime s.freeCount))
  forAll (List.finRange 32) (fun s j =>
    let n := lostIn q j.val
    if n = 0 then s else s.portEvent (portAt k j) 0x8503 [BitVec.ofNat 8 n]) s

/-! ## The consumer (R279, R283, R270) -/

/-- PD_MESSAGE for a complete item (Table 11.15). -/
def State.pdMessageEvent (s : State) (k : Slot) (note : ItemNote) (words : List (BitVec 69)) : State :=
  match words with
  | [] => s
  | h :: rest =>
    let hd := h.toNat
    let count := field hd 15 9
    let bytes := (rest.flatMap (fun w => (List.range 8).map (fun i => BitVec.ofNat 8 (w.toNat / 2 ^ (8 * i))))).take count
    let flags := field hd 34 1 + 2 * field hd 32 1 + 4 * bnat note.forwarded
    if h : note.port < 32 then
      s.portEvent (portAt k ⟨note.port, h⟩) 0x8501
        ([BitVec.ofNat 8 (field hd 12 3), BitVec.ofNat 8 flags] ++ le16 count ++ le16 (field hd 48 16) ++
          [BitVec.ofNat 8 (field hd 40 8), 0] ++ bytes)
    else s

/-- Firmware takes a word of an item; the last word completes the item, and PD_MESSAGE is raised where R270 calls for it. -/
def State.takeWord (s : State) (k : Slot) (w : BitVec 69) : State :=
  let q := s.queues.get k
  let got := q.popped ++ [w]
  if w.getLsbD 68 then
    let s := s.updQueue k (fun q => { q with popped := [], drainNotes := q.drainNotes.drop 1 })
    match q.drainNotes with
    | note :: _ => if note.raise then s.pdMessageEvent k note got else s
    | [] => s
  else s.updQueue k (fun q => { q with popped := got })

/-- Pop the head word of the drain bank through the queue's checker (R283). -/
def State.popQueue (s : State) (k : Slot) : State :=
  if s.fw.paused then s
  else match (s.queues.get k).drain with
    | [] => s
    | w :: rest =>
      let s := { s with queues := s.queues.upd k (fun q => { q with drain := rest, drainAt := q.drainAt + 1 }) }
      let (s, syn, inj) := match s.fault.injections.find? (fun i => i.source.toNat == 0x150 + k.val) with
        | some i => ({ s with fault := { s.fault with injections := s.fault.injections.filter (· != i) } },
            queueSyndrome w ^^^ 0xFF, true)
        | none => (s, queueSyndrome w, false)
      match queueClass syn with
      | .clean => s.takeWord k (w.setWidth 69)
      | .correctable i =>
        let s := { s with queues := s.queues.upd k (fun q => { q with corrected := satAdd 16 q.corrected 1 }) }
        s.takeWord k (if i < 69 then w.setWidth 69 ^^^ (1#69 <<< i) else w.setWidth 69)
      | _ =>
        (s.report { source := BitVec.ofNat 12 (0x150 + k.val), kind := 0x01,
                    info := BitVec.ofNat 32 ((s.queues.get k).drainAt - 1), injected := inj }).flushPd k

end Sys2Proof.Machine
end

