-- ==== Sys2Proof/Machine/PdFlow.lean ====
section
/-! DEFINITION. Type-C state transitions and the PD events of a port: messages received and sent, timers, transitions, Hard Reset steps, VCONN (R254–R275, R284–R290). -/

namespace Sys2Proof.Machine

open Sys2Proof

/-! ## Receiving a message -/

/-- What a message means for the sequence of the device's own that awaits it (R256, R285, R266). None: the rules of Table 8.7 apply. -/
def State.inSequence (s : State) (p : Port) (sop : Fin 5) (b : List Byte) : Option State :=
  let x := s.pd.get p
  let done := fun (s : State) => s.updPd p (fun x => { x with expect := none })
  match x.expect with
  | some .acceptOfReset =>
    if isControl b 3 then some ((done s).sendCaps p false) else none
  | some .identity =>
    if sop = 1 && isSvdm b && field (get32 b 2) 0 5 == 1 then
      let cable := field (get32 b 6) 27 3 == 3 || field (get32 b 6) 27 3 == 4
      let five := pdObjects b ≥ 5 && cable && field (get32 b 18) 5 2 == 2 && field (get32 b 2) 6 2 == 1
      some ((s.updPd p (fun x => { x with expect := none, cable5A := five, cableDone := true })).pdIdle p)
    else none
  | some .swapAnswer =>
    if isControl b 11 then some (((done s).sendOutcome p 3).sendSoftReset p)
    else if isControl b 3 then
      let s := s.sendOutcome p 0
      if x.vconnSource then some (s.updPd p (fun x => { x with expect := some .partnerPsRdy }))
      else some (((done s).setVconn p true).pdReply p (controlMsg 6) .swapPsRdy 0)
    else some (((done s).sendOutcome p 0).pdIdle p)
  | some .partnerPsRdy =>
    if isControl b 6 then some (((s.updPd p (fun x => { x with expect := none, vconnSource := false })).setVconn p false).pdIdle p)
    else none
  | some .vdm => if noResponse b then some ((done s).pdIdle p) else none
  | some .other => if noResponse b then some ((done s).pdIdle p) else none
  | some .request => none
  | none => none

/-- The mux connects the SBU pins to the UART; characters that waited for it go out (R288, R289). [DEDUCED: log 65] -/
def State.connectSbu (s : State) (p : Port) : State :=
  match (s.pd.get p).uartSlot with
  | none => s
  | some u =>
    let k := s.partOf.get p
    let data := ((s.uarts.get k).get u).toPort
    let s := { s.updPd p (fun x => { x with sbuOn := true }) with
      uarts := s.uarts.upd k (fun t => t.upd u (fun x => { x with toPort := [] })) }
    if data.isEmpty then s else s.emit (.uartTx p (txOnSbu2 (s.pd.get p)) data)

/-- SBU follows Enter Mode and Exit Mode acknowledgements (R289). -/
def State.sbuFollow (s : State) (p : Port) (b : List Byte) : State :=
  let v := get32 b 2
  let c := (s.pd.get p).cfg
  if isSvdm b && field v 6 2 == 1 then
    if field v 0 5 == 4 && c.sbuOnEnter && field v 16 16 == c.sbuSvid.toNat && field v 8 3 == c.sbuMode.toNat &&
        (s.pd.get p).uartSlot.isSome then
      s.connectSbu p
    else if field v 0 5 == 5 then s.isolateSbu p
    else s
  else s

/-- A Wait answer to a message sent with WAIT_RETRY (R262): retried up to 8 times, then PD_WAIT_EXHAUSTED. A VCONN_Swap's PD_SEND is
answered SENT. -/
def State.onRetryWait (s : State) (p : Port) (w : WaitRetry) : State :=
  let s := s.sendOutcome p 0
  if w.retries < 8 then
    (s.updPd p (fun x => { x with retry := some { w with waiting := true }, expect := none })).pdIdle p
  else
    let s := s.updPd p (fun x => { x with retry := none, expect := none })
    (s.portEvent p 0x8504 [BitVec.ofNat 8 (pdType w.out.bytes), 8]).pdIdle p

/-- A Soft_Reset from the partner (rule 6): Accept; protocol counters reset; contract kept. A transition whose Accept had drawn no GoodCRC
ends. [DEDUCED: log 64] -/
def State.onSoftReset (s : State) (p : Port) : State :=
  ((s.protocolReset p 3).updPd p (fun x => { x with trans := x.trans.filter (fun t => t.step != .accept) })).pdReply p
    (controlMsg 3) .acceptReset 0

/-- Whether the answer to a message sent with WAIT_RETRY is awaited. -/
def PdPort.retryAnswer (x : PdPort) : Bool :=
  (x.retry.map (fun w => !w.waiting)).getD false && (x.expect == some .other || x.expect == some .vdm || x.expect == some .swapAnswer)

/-- The answer to a new message, and whether the queue item is answered, forwarded and reported. [DEDUCED: log 64] -/
def State.pdAnswer (s : State) (p : Port) (sop : Fin 5) (b : List Byte) : State × Bool × Bool × Bool :=
  let x := s.pd.get p
  let all := x.cfg.reportAll
  if isControl b 13 then (s.onSoftReset p, true, false, all)
  else if x.retryAnswer && isControl b 12 then ((x.retry.map (s.onRetryWait p)).getD s, true, false, false)
  else match s.inSequence p sop b with
    | some t => ((if x.retryAnswer then t.updPd p (fun x => { x with retry := none }) else t), false, false, all || x.sendSeq || x.retryAnswer)
    | none =>
      let (t, h) := s.autoRespond p sop b
      (t, h.answered, h.forwarded, all || h.unhandled || x.sendSeq)

/-- An incoming SOP*: what PDEk has not started, or awaits GoodCRC for, is abandoned for it, and Rp leaves SinkTxNG until the partner's
sequence is over (R258, R261). [DEDUCED: log 64] -/
def State.sopPrecedence (s : State) (p : Port) : State :=
  let s := s.updPd p (fun x => { x with arriving := true })
  let s := match (s.pd.get p).tx with
    | some o => (s.updPd p (fun x => { x with tx := none })).pdAbandon p o
    | none => s
  let s := if (s.pd.get p).pending.any PdOut.isSend then
      (s.updPd p (fun x => { x with pending := x.pending.filter (fun o => !o.isSend), retry := none })).sendOutcome p 2
    else s
  if (s.pd.get p).expect.isNone then (s.updPd p (fun x => { x with sinkTxNg := false })).setRp p else s

/-- A whole message with good CRC stands in a receiver's buffer: acknowledged, answered and queued, or dropped as a repeat (R270, R276). -/
def State.pdArrived (s : State) (p : Port) (sop : Fin 5) (b : List Byte) : State :=
  let k := slotOf p
  let j : Fin 33 := ⟨(posInSlot p).val, by omega⟩
  match (s.queues.get k).rx.get j with
  | none => s
  | some m =>
    if m.whole then s
    else if m.withheld then s.messageDropped k j
    else if !(s.pd.get p).cfg.pdEnable || (s.pd.get p).tc != .attached || s.mode == .midnight || s.mode == .off || s.mode == .dawn then
      s.messageDropped k j
    else
      let s := s.emit (.goodCrc p sop (pdId b))
      if (s.pd.get p).rxId.get sop = some (pdId b) && !isControl b 13 then s.messageDropped k j
      else
        let s := s.updPd p (fun x => { x with rxId := x.rxId.put sop (some (pdId b)) })
        let s := s.sbuFollow p b
        if s.pdRuns p then
          let (s, hw, fwd, raise) := s.pdAnswer p sop b
          s.messageWhole k j b hw fwd raise
        else s.messageWhole k j b false false (s.pd.get p).cfg.reportAll

/-- A whole message with good CRC at a downstream port (R267, R270, R276); what waited for the line goes on (R258). -/
def State.pdReceived (s : State) (p : Port) (sop : Fin 5) (b : List Byte) : State :=
  let k := slotOf p
  let j : Fin 33 := ⟨(posInSlot p).val, by omega⟩
  let s := if ((s.queues.get k).rx.get j).isNone then (s.sopDetected k j sop.val b.length).sopPrecedence p else s
  let s := (s.updPd p (fun x => { x with arriving := false })).pdArrived p sop b
  if s.pdRuns p then s.pdIdle p else s

/-! ## GoodCRC and its absence (R256, R257) -/

/-- The MessageID counter of a SOP* advances. -/
def bumpTx (x : PdPort) (sop : Fin 5) : PdPort := { x with txId := x.txId.upd sop (· + 1), tx := none }

/-- GoodCRC for a PD_SEND message: SENT, unless its outcome still depends on the answer to a VCONN_Swap (Table 8.13); an
Accept to a forwarded Request starts the transition (R268). -/
def State.sentByHost (s : State) (p : Port) (o : PdOut) : State :=
  let x := s.pd.get p
  let s := s.updPd p (fun x => { x with sendSeq := true })
  if isControl o.bytes 11 then s.updPd p (fun x => { x with expect := some .swapAnswer })
  else
    let s := s.sendOutcome p 0
    let s := match x.fwd with
      | some f =>
        let s := s.updPd p (fun x => { x with fwd := none })
        match f.request with
        | some c =>
          if isControl o.bytes 3 then s.updPd p (fun x => { x with trans := some { goal := c, step := .srcTransition, noChange := false } })
          else s
        | none => s
      | none => s
    let s := if x.notPd then
        (s.updPd p (fun x => { x with notPd := false, capsCount := 0, capsStopped := false })).sendCaps p false
      else s
    if noResponse o.bytes then s.pdIdle p
    else s.updPd p (fun x => { x with expect := some (if isSvdm o.bytes then .vdm else .other) })

/-- GoodCRC for the message awaiting it (R256). -/
def State.goodCrcFor (s : State) (p : Port) : State :=
  match (s.pd.get p).tx with
  | none => s
  | some o =>
    let s := s.updPd p (fun x => bumpTx x o.sop)
    match o.purpose with
    | .caps => s.updPd p (fun x => { x with expect := some .request, partner := true, capsCount := 0 })
    | .capsAnswer => s.updPd p (fun x => { x with expect := some .request, partner := true })
    | .acceptRequest => s.updPd p (fun x => { x with trans := x.trans.map (fun t => { t with step := .srcTransition }) })
    | .psRdy => (s.contractInForce p).pdIdle p
    | .answer => s.pdIdle p
    | .softReset => s.updPd p (fun x => { x with expect := some .acceptOfReset, txId := Tab.const 5 0, rxId := Tab.const 5 none })
    | .acceptReset => s.sendCaps p false
    | .discover => s.updPd p (fun x => { x with expect := some .identity })
    | .acceptSwap =>
      if (s.pd.get p).vconnSource then s.updPd p (fun x => { x with expect := some .partnerPsRdy })
      else (s.setVconn p true).pdReply p (controlMsg 6) .swapPsRdy 0
    | .swapPsRdy => (s.updPd p (fun x => { x with vconnSource := true })).pdIdle p
    | .pdSend _ => s.sentByHost p o
    | .retry => s.updPd p (fun x => { x with expect := some (if isControl o.bytes 11 then .swapAnswer else if isSvdm o.bytes then .vdm else .other) })

/-- A message whose retries are exhausted (R256, R257, R263, R266). -/
def State.sendFailed (s : State) (p : Port) (o : PdOut) : State :=
  let s := s.updPd p (fun x => { x with tx := none })
  match o.purpose with
  | .caps =>
    if hasExplicit (s.pd.get p) then s.sendSoftReset p
    else (s.updPd p (fun x => { x with capsCount := x.capsCount + 1, capsStopped := 50 ≤ x.capsCount + 1 })).pdIdle p
  | .discover => (s.updPd p (fun x => { x with cableDone := 3 ≤ x.discoverTries })).pdIdle p
  | .softReset => s.sendHardReset p
  | .pdSend _ =>
    let s := (s.updPd p (fun x => { x with retry := none })).sendOutcome p 1
    if o.sop = 0 && !(s.pd.get p).notPd then (s.updPd p (fun x => { x with fwd := none })).sendSoftReset p else s.pdIdle p
  | _ =>
    let s := s.updPd p (fun x => { x with trans := none, retry := none })
    if o.sop = 0 then s.sendSoftReset p else s.pdIdle p

/-- tReceive passes without GoodCRC: up to nRetryCount = 2 retries (R256, Table 8.6). -/
def State.receiveTimeout (s : State) (p : Port) : State :=
  match (s.pd.get p).tx with
  | none => s
  | some o => if o.tries < 2 then s.pdTransmit p { o with tries := o.tries + 1 } else s.sendFailed p o

/-! ## The PD timers (Table 8.6) -/

/-- tTypeCSendSourceCap: Source_Capabilities again, up to nCapsCount (R263). -/
def State.capsTimer (s : State) (p : Port) : State :=
  let x := s.pd.get p
  if s.pdRuns p && s.vbusGood p && 0 < x.capsCount && !x.capsStopped && !hasExplicit x && x.tx == none && x.expect == none then s.sendCaps p false else s

/-- The first Source_Capabilities, or new ones after PD_SET_OFFER or a Hard Reset (R264, R266, Table 8.4 step 7). -/
def State.capsDue (s : State) (p : Port) : State :=
  let x := s.pd.get p
  if s.pdRuns p && !x.capsStopped && !x.notPd && x.hr == none && s.vbusGood p then s.sendCaps p false else s

/-- Cable discovery (R266): Discover Identity on SOP', up to three times, before the first Source_Capabilities. -/
def State.discoverStart (s : State) (p : Port) : State :=
  let x := s.pd.get p
  if s.pdRuns p && ssCapable p && x.vconnOn && x.hr == none && s.vbusGood p && !x.cableDone && x.discoverTries < 3 && x.tx == none && x.expect == none then
    (s.updPd p (fun x => { x with discoverTries := x.discoverTries + 1 })).pdStart p
      { sop := 1, bytes := dataMsg 15 [0xFF00A001#32], purpose := .discover, tries := 0 }
  else s

/-- tSinkTx has run since SinkTxNG: the pending sequence starts (R259). -/
def State.sinkTxDone (s : State) (p : Port) : State :=
  let x := s.pd.get p
  match x.pending with
  | o :: rest =>
    if x.sinkTxNg && !x.engaged then (s.updPd p (fun x => { x with pending := rest })).pdTransmit p o else s
  | [] => s

/-- tSenderResponse or tVDMSenderResponse expires (R263). -/
def State.responseTimeout (s : State) (p : Port) : State :=
  let x := s.pd.get p
  let s' := s.updPd p (fun x => { x with expect := none })
  match x.expect with
  | some .request => s'.sendHardReset p
  | some .acceptOfReset => s'.sendHardReset p
  | some .identity => (s'.updPd p (fun x => { x with cableDone := 3 ≤ x.discoverTries })).pdIdle p
  | some .swapAnswer => (s'.sendOutcome p 0).pdIdle p
  | some .vdm => (s'.updPd p (fun x => { x with retry := none })).pdIdle p
  | some .other => (s'.updPd p (fun x => { x with retry := none })).pdIdle p
  | some .partnerPsRdy => s
  | none => s

/-- tNoResponse after a Hard Reset: another Hard Reset, or after nHardResetCount = 2 the partner is not PD-capable (R263). -/
def State.noResponse (s : State) (p : Port) : State :=
  let x := s.pd.get p
  if x.hardResets = 0 || hasExplicit x || !s.pdRuns p then s
  else if 2 ≤ x.hardResets then
    (s.updPd p (fun x =>
      { x with notPd := true, expect := none, tx := x.tx.filter PdOut.isSend, pending := x.pending.filter PdOut.isSend })).pdIdle p
  else s.sendHardReset p

/-- tPPSTimeout under a PPS contract (R263). -/
def State.ppsTimeout (s : State) (p : Port) : State :=
  match (s.pd.get p).contract with
  | .explicit c => if c.pps && s.pdRuns p then s.sendHardReset p else s
  | _ => s

/-- FWD_DEADLINE passes without a PD_SEND: the deadline answer of R268. -/
def State.fwdDeadline (s : State) (p : Port) : State :=
  match (s.pd.get p).fwd with
  | some f =>
    if (s.pd.get p).tx.any PdOut.isSend then s
    else (s.updPd p (fun x => { x with fwd := none })).pdReply p (deadlineAnswer f.bytes) .answer f.sop
  | none => s

/-- WAIT_RETRY after a Wait: the request again, with a fresh MessageID (R262). -/
def State.waitRetryDue (s : State) (p : Port) : State :=
  match (s.pd.get p).retry with
  | some w =>
    if w.waiting then
      (s.updPd p (fun x => { x with retry := some { w with waiting := false, retries := w.retries + 1 } })).pdStart p
        { w.out with purpose := .retry, tries := 0 }
    else s
  | none => s

/-- tSrcTransition after the Accept: the word carries the new level, or PS_RDY follows at once where nothing changes
(Table 8.7 rule 1, Table 8.8 step 1). -/
def State.srcTransition (s : State) (p : Port) : State :=
  match (s.pd.get p).trans with
  | some t =>
    if t.step = .srcTransition then
      if t.noChange then s.sendPsRdy p
      else
        let s := s.updPd p (fun x => { x with trans := some { t with step := .pgood } })
        (s.updVbus p (fun v => { v with awaitPgood := true })).refreshWord p
    else s
  | none => s

/-- PGOOD has been reported at the new level: PS_RDY (Table 8.8 steps 2 and 3). -/
def State.transitionPgood (s : State) (p : Port) : State :=
  match (s.pd.get p).trans with
  | some t => if t.step = .pgood && !(s.vbus.get p).awaitPgood then s.sendPsRdy p else s
  | none => s

/-- A transition's PGOOD does not arrive in bound: Hard Reset and a fault record (R271). -/
def State.transitionTimeout (s : State) (p : Port) : State :=
  match (s.pd.get p).trans with
  | some t =>
    if t.step = .pgood && (s.vbus.get p).awaitPgood then (s.detect (0x400 + p.val) 0x41 (vsetOf t.goal.mv)).sendHardReset p else s
  | none => s

/-! ## Hard Reset received, VCONN -/

/-- A Hard Reset received as source (R273, Table 8.9); its item is queued, raising PD_MESSAGE only where REPORT = ALL (R270). -/
def State.hardResetReceived (s : State) (p : Port) : State :=
  let x := s.pd.get p
  if x.tc = .attached && x.cfg.pdEnable && s.mode != .midnight && s.mode != .off && s.mode != .dawn then
    let k := slotOf p
    let j : Fin 33 := ⟨(posInSlot p).val, by omega⟩
    (s.hardResetBegin p).resetItem k j 5 x.cfg.reportAll
  else s

/-- tPSHardReset after the Hard Reset (Table 8.9 step 2). -/
def State.psHardReset (s : State) (p : Port) : State := if (s.pd.get p).hr = some .reset then s.hardResetOff p else s

/-- tSrcRecover after vSafe0V (Table 8.9 step 4). -/
def State.srcRecover (s : State) (p : Port) : State := if (s.pd.get p).hr = some .recover then s.hardResetReturn p else s

/-- No PS_RDY within tVCONNSourceTimeout: VCONN stays on, Hard Reset (R285). -/
def State.vconnTimeout (s : State) (p : Port) : State :=
  if (s.pd.get p).expect = some .partnerPsRdy then s.sendHardReset p else s

/-- The VCONN line reads below 0.8 V: VCONN on again (R286). -/
def State.vconnLow (s : State) (p : Port) : State :=
  let x := s.pd.get p
  if x.vconnReturn && x.tc == .attached then (s.updPd p (fun x => { x with vconnReturn := false })).setVconn p true else s

/-! ## Type-C transitions (Table 8.3) -/

/-- Whether the two lines form an attach pattern. -/
def attachPattern (x : PdPort) : Bool :=
  (x.cc1 == .rd && x.cc2 != .rd) || (x.cc2 == .rd && x.cc1 != .rd) || (x.cc1 == .rd && x.cc2 == .rd) || (x.cc1 == .ra && x.cc2 == .ra)

/-- UNATTACHED with an attach pattern starts the debounce; after a detach, once VBUS is at vSafe0V (Table 8.3). -/
def State.ccEvaluate (s : State) (p : Port) : State :=
  s.updPd p (fun x =>
    if x.tc == .unattached && !x.settling && attachPattern x then { x with tc := .attachWait, debounced := false } else x)

/-- The classification of the CC lines changes (R254). -/
def State.ccChange (s : State) (p : Port) (c1 c2 : CcLine) : State :=
  let x := s.pd.get p
  let s := s.updPd p (fun x => { x with cc1 := c1, cc2 := c2 })
  let s := if x.tc = .attachWait ∧ (x.cc1 ≠ c1 ∨ x.cc2 ≠ c2) then s.updPd p (fun x => { x with tc := .unattached, debounced := false }) else s
  s.ccEvaluate p

/-- ATTACHED: orientation fixed, VCONN where Ra is seen on a SuperSpeed-capable port, VBUS ordered, PD_CONTRACT IMPLICIT
(Tables 8.3, 8.4). -/
def State.enterAttached (s : State) (p : Port) : State :=
  let held := (s.vbus.get p).hold.isSome
  let s := s.updPd p (fun x =>
    let o := x.cc2 == .rd
    { x with tc := .attached, debounced := false, orientation := o, vconnSource := true, vconnReturn := false, stopped := held,
             contract := .implicit, capsCount := 0, capsStopped := false, hardResets := 0, notPd := false, partner := false,
             cable5A := false, cableDone := false, discoverTries := 0, txId := Tab.const 5 0, rxId := Tab.const 5 none })
  let s := s.setVconn p (ssCapable p && raSeen (s.pd.get p))
  let s := ((s.setRp p).updVbus p (fun v => { v with awaitPgood := true })).refreshWord p
  s.contractEvent p

/-- DEBUG_ACC: vSafe5V, and the UART where AUTO_DEBUG_UART is set and a slot is free (R290). -/
def State.enterDebug (s : State) (p : Port) : State :=
  let s := s.updPd p (fun x => { x with tc := .debugAcc, debounced := false })
  let s := ((s.setRp p).updVbus p (fun v => { v with awaitPgood := true })).refreshWord p
  if (s.pd.get p).cfg.autoDebugUart && ssCapable p then
    let s := if (s.pd.get p).uartSlot.isNone then s.bindUart p else s
    s.connectSbu p
  else s

/-- The attach pattern has held for tCCDebounce; with firmware paused the transition waits for the pause to end (R254). -/
def State.ccDebounced (s : State) (p : Port) : State :=
  let x := s.pd.get p
  if x.tc != .attachWait then s
  else if x.cc1 == .ra && x.cc2 == .ra then s.updPd p (fun x => { x with tc := .unsupportedAcc, debounced := false })
  else if s.fw.paused then s.updPd p (fun x => { x with debounced := true })
  else if x.cc1 == .rd && x.cc2 == .rd then s.enterDebug p
  else s.enterAttached p

/-- The hold of R319 ends. -/
def State.endHold (s : State) (p : Port) : State := s.updVbus p (fun v => { v with hold := none, heldOver := none })

/-- What a detach takes away, by PDEk: VBUS with a discharge, VCONN, the contract (R255, Table 8.3). `event` is clear for a
debug accessory, which reported no contract. -/
def State.detachTypeC (s : State) (p : Port) : State :=
  let s := (s.endContract p 4).endHold p
  let s := s.isolateSbu p
  let s := if (s.pd.get p).tc = .debugAcc then s.freeUart p else s
  let s := (s.setVconn p false).updPd p (fun x =>
    { x with tc := .unattached, stopped := false, vconnSource := true, vconnReturn := false, cable5A := false, cableDone := false,
             discoverTries := 0, partner := false, notPd := false, hr := none, settling := !s.atVSafe0V p, caps := [] })
  (((s.setRp p).startDischarge p).writeWord p).ccEvaluate p

/-- Rd lost for tPDDebounce (R254). -/
def State.rdLost (s : State) (p : Port) : State :=
  let x := s.pd.get p
  if x.tc == .attached || x.tc == .debugAcc then
    let gone := if x.tc == .attached then (if x.orientation then x.cc2 != .rd else x.cc1 != .rd) else !(x.cc1 == .rd && x.cc2 == .rd)
    if gone then s.detachTypeC p else s
  else s

/-- Ra lost on either line in UNSUPPORTED_ACC (R254). -/
def State.raLost (s : State) (p : Port) : State :=
  if (s.pd.get p).tc = .unsupportedAcc && !((s.pd.get p).cc1 == .ra && (s.pd.get p).cc2 == .ra) then
    (s.updPd p (fun x => { x with tc := .unattached })).ccEvaluate p
  else s

/-- ERROR_RECOVERY: both lines Open, VBUS and VCONN off, any contract ended (Tables 8.2, 8.3). -/
def State.enterRecovery (s : State) (p : Port) : State :=
  let s := (s.endContract p 4).isolateSbu p
  let s := if (s.pd.get p).tc = .debugAcc then s.freeUart p else s
  let s := (s.setVconn p false).updPd p (fun x =>
    { x with tc := .errorRecovery, vconnSource := true, vconnReturn := false, hr := none, cable5A := false,
             cableDone := false, discoverTries := 0, debounced := false })
  (s.setRp p).refreshWord p

/-- A VCONN over-current lasting 1 ms (R284). -/
def State.vconnOvercurrent (s : State) (p : Port) : State :=
  if (s.pd.get p).tc = .attached && (s.pd.get p).vconnOn then (s.detect (0x400 + p.val) 0x42 0).enterRecovery p else s

/-- tErrorRecovery has elapsed: Rp again, once VBUS is at vSafe0V (R254). -/
def State.recoveryDone (s : State) (p : Port) : State :=
  if (s.pd.get p).tc = .errorRecovery && s.atVSafe0V p then
    ((s.updPd p (fun x => { x with tc := .unattached, settling := false })).setRp p).ccEvaluate p
  else s

/-- OPEN: no Rp, VBUS and VCONN off, any contract ended (Table 8.3). -/
def State.openTypeC (s : State) (p : Port) : State :=
  let s := (s.endContract p 4).freeUart p
  let s := (s.setVconn p false).updPd p (fun x => { x with tc := .open, vconnSource := true, vconnReturn := false, debounced := false, hr := none })
  (s.setRp p).refreshWord p

/-- OPEN is left for UNATTACHED: Rp applied (Table 8.3). -/
def State.leaveOpen (s : State) (p : Port) : State :=
  if (s.pd.get p).tc = .open && (s.ports.get p).dataMode != .off then
    ((s.updPd p (fun x => { x with tc := .unattached, settling := false })).setRp p).ccEvaluate p
  else s

end Sys2Proof.Machine
end

