-- ==== Sys2Proof/Machine/PdOps.lean ====
section
/-! DEFINITION. The Type-C, PD and sideband commands (Table 11.12) and the CDC functions of the UART slots (R288, R291). -/

namespace Sys2Proof.Machine

open Sys2Proof

/-- RP_LEVEL from its code. -/
def rpOfCode : Nat → Option RpLevel
  | 0 => some .default
  | 1 => some .r1A5
  | 2 => some .r3A0
  | _ => none

/-- The highest current an offer may name on a port, in mA (R265). -/
def offerLimit (p : Port) : Nat := if ssCapable p then 5000 else 3000

/-- Whether one PDO is allowed (R265, R321). -/
def State.pdoOk (s : State) (p : Port) (o : BitVec 32) : Bool :=
  let c := (s.slots.get (slotOf p)).cfg
  let kind := field o.toNat 30 2
  let fixedOk := pdoMv o == 5000 || (pdoMv o == 9000 && c.cardFixed.getLsbD 0) || (pdoMv o == 15000 && c.cardFixed.getLsbD 1) ||
    (pdoMv o == 20000 && c.cardFixed.getLsbD 2)
  let apdoOk := field o.toNat 28 2 == 0 && 3300 ≤ apdoMin o && apdoMin o ≤ apdoMax o && apdoMax o ≤ 21000 && c.cardPps
  pdoMa o ≤ offerLimit p && ((kind == 0 && fixedOk) || (kind == 3 && apdoOk))

/-- Whether two neighbours stand in the order of USB Power Delivery 3.1: fixed by rising voltage, then APDOs by rising
maximum voltage, none repeated (R265). -/
def pdoOrder (a b : BitVec 32) : Bool :=
  if isApdo a then isApdo b && (apdoMax a < apdoMax b || (apdoMax a == apdoMax b && apdoMin a < apdoMin b))
  else isApdo b || pdoMv a < pdoMv b

/-- Whether every neighbouring pair stands in order. -/
def pdosOrdered : List (BitVec 32) → Bool
  | a :: b :: rest => pdoOrder a b && pdosOrdered (b :: rest)
  | _ => true

/-- Whether an OFFER is allowed on a port (R265, R321). -/
def State.offerOk (s : State) (p : Port) (l : List (BitVec 32)) : Bool :=
  match l with
  | [] => false
  | o :: _ =>
    !isApdo o && pdoMv o == 5000 && !bit o.toNat 29 && !bit o.toNat 25 && !bit o.toNat 23 && l.all (s.pdoOk p) && pdosOrdered l

/-- The PDOs of a request. -/
def pdosAt (l : List Byte) (i n : Nat) : List (BitVec 32) := (List.range n).map (fun j => bits32 l (i + 4 * j))

/-- PD_SET_OFFER (R264): the settings, where the request is allowed. -/
def State.setOffer (s : State) (p : Port) (l : List Byte) : Option State :=
  let n := get8 l 1
  let pdos := pdosAt l 4 n
  if l.length != 4 + 4 * n || n < 1 || 7 < n || 2 ≤ get8 l 0 || get16 l 2 != 0 || !s.offerOk p pdos then none
  else some (s.updPd p (fun x => { x with cfg := { x.cfg with offer := some pdos, pdEnable := bit (get8 l 0) 0 } }))

/-- PD_ENABLE = 0 (R248): what PDEk has under way ends, a PD_SEND with PD_DISABLED; a contract stands. [DEDUCED: log 64] -/
def State.pdDisable (s : State) (p : Port) : State :=
  ((s.endSequences p 5).updPd p (fun x => { x with trans := none })).setRp p |>.refreshWord p

/-- PD_SET_OFFER: new Source_Capabilities follow where PD runs (R264); where a first or a resuming one is still to come, it is that one
(Tables 8.4, 8.9). -/
def opPdSetOffer (m : VcpMsg) (p : Port) (s : State) : State × Reply :=
  match s.setOffer p m.payload with
  | none => refuse s stBadArg
  | some t =>
    if !(t.pd.get p).cfg.pdEnable then ok (t.pdDisable p)
    else
      let x := t.pd.get p
      let ready := x.hr.isNone && (x.trans.isSome || t.vbusGood p)
      ok (if t.pdRuns p && !x.capsStopped && !x.notPd && ready then t.sendCaps p false else t)

/-- PD_SEND (R257): the message goes out, at once as an answer to a forwarded message, otherwise as a sequence of its own. -/
def opPdSend (m : VcpMsg) (p : Port) (s : State) : State × Reply :=
  let l := m.payload
  let x := s.pd.get p
  if l.length < 6 || 5 ≤ get8 l 0 || 2 ≤ get8 l 1 || 260 < get16 l 4 || l.length != 6 + get16 l 4 then refuse s stBadArg
  else if x.tc != .attached then (s, .done stOK [4, 0, 0, 0])
  else if !x.cfg.pdEnable then (s, .done stOK [5, 0, 0, 0])
  else if x.stopped || (x.fwd.isSome && x.arriving) then (s, .done stOK [2, 0, 0, 0])
  else
    let bytes := (l.drop 2).take 2 ++ l.drop 6
    let o : PdOut := { sop := Fin.ofNat 5 (get8 l 0), bytes, purpose := .pdSend m.session, tries := 0 }
    let s := if bit (get8 l 1) 0 then s.updPd p (fun x => { x with retry := some { out := o, retries := 0, waiting := false } }) else s
    if x.fwd.isSome then (s.pdTransmit p o, .wait (.pdSend p)) else (s.pdStart p o, .wait (.pdSend p))

/-- One CANNED entry of a request, at an offset. -/
def cannedAt (l : List Byte) (i : Nat) : Option Canned :=
  let n := get8 l (i + 5)
  if 3 ≤ get8 l i || n < 2 || 30 < n || get16 l (i + 6) != 0 || get16 l (i + 38) != 0 then none
  else some { kind := get8 l i, msgType := get8 l (i + 1), svid := BitVec.ofNat 16 (get16 l (i + 2)), command := get8 l (i + 4),
              response := (l.drop (i + 8)).take n }

/-- Whether the reserved bytes of a CANNED entry at an offset are zero (R10). -/
def cannedZero (l : List Byte) (i : Nat) : Bool := get16 l (i + 6) == 0 && get16 l (i + 38) == 0

/-- PD_SET_AUTORESP (Tables 8.1, 11.12): the settings, where the request is allowed. [DESIGN CHOICE: log 32] -/
def setAutoresp (p : Port) (l : List Byte) (c : PdSettings) : Option PdSettings :=
  let v := get8 l 0
  let n := get8 l 6
  let canned := (List.range n).map (fun i => cannedAt l (8 + 40 * i))
  let rng := fun (i x lo hi : Nat) => !bit v i || (lo ≤ x && x ≤ hi)
  if l.length != 8 + 40 * n || 64 ≤ v || byteAt l 7 != 0 || !rng 0 (get8 l 1) 0 127 || !rng 1 (get8 l 2) 0 2 || !rng 2 (get8 l 3) 1 14 ||
      !rng 3 (get8 l 4) 0 1 || !rng 4 (get8 l 5) 0 1 || !rng 5 n 0 4 || (bit v 5 && canned.any (·.isNone)) ||
      (List.range n).any (fun i => !cannedZero l (8 + 40 * i)) ||
      (bit v 4 && get8 l 5 == 0 && !ssCapable p) then none
  else some
    { c with
      grant := if bit v 0 then BitVec.ofNat 7 (get8 l 1) else c.grant
      unmatched := if bit v 1 then (if get8 l 2 = 0 then .forward else if get8 l 2 = 1 then .wait else .reject) else c.unmatched
      fwdDeadline := if bit v 2 then get8 l 3 else c.fwdDeadline
      reportAll := if bit v 3 then get8 l 4 == 1 else c.reportAll
      vconnAccept := if bit v 4 then get8 l 5 == 0 else c.vconnAccept
      canned := if bit v 5 then canned.filterMap id else c.canned }

/-- PD_SET_AUTORESP. -/
def opPdSetAutoresp (m : VcpMsg) (p : Port) (s : State) : State × Reply :=
  match setAutoresp p m.payload (s.pd.get p).cfg with
  | none => refuse s stBadArg
  | some c => ok (s.updPd p (fun x => { x with cfg := c }))

/-- PD_HARD_RESET (R273). -/
def opPdHardReset (m : VcpMsg) (p : Port) (s : State) : State × Reply :=
  let x := s.pd.get p
  if !m.payload.isEmpty then refuse s stBadArg
  else if x.tc != .attached then (s, .done stOK [4, 0, 0, 0])
  else if !x.cfg.pdEnable then (s, .done stOK [5, 0, 0, 0])
  else (s.sendHardReset p, .done stOK [0, 0, 0, 0])

/-- Write a port's Rp level (R252, R321). -/
def State.setRpLevel (s : State) (p : Port) (r : RpLevel) : State :=
  ((s.updPd p (fun x => { x with cfg := { x.cfg with rpLevel := r } })).setRp p).refreshWord p

/-- CC_SET_RP (R252, R321). -/
def opCcSetRp (m : VcpMsg) (p : Port) (s : State) : State × Reply :=
  let l := m.payload
  match rpOfCode (get8 l 0) with
  | none => refuse s stBadArg
  | some r =>
    if l.length != 2 || 2 ≤ get8 l 1 || s.cardMa p < rpMa r then refuse s stBadArg
    else
      let s := s.setRpLevel p r
      ok (if bit (get8 l 1) 0 && (s.pd.get p).tc != .open then s.enterRecovery p else s)

/-- Whether an SBU_SET_ROUTE request is well formed (Table 11.12, R250). [DESIGN CHOICE: log 32] -/
def sbuArgsOk (p : Port) (l : List Byte) : Bool :=
  let v := get8 l 0
  ssCapable p && l.length == 12 && v < 8 && (!bit v 0 || get8 l 1 ≤ 1) &&
    (!bit v 1 || get8 l 2 ≤ 1) && get16 l 6 == 0 &&
    (!bit v 2 || (1200 ≤ get32 l 8 && get32 l 8 ≤ 3000000))

/-- The settings an SBU_SET_ROUTE request leaves. -/
def sbuSettings (l : List Byte) (c : PdSettings) : PdSettings :=
  let v := get8 l 0
  { c with
    sbuOnEnter := if bit v 0 then get8 l 1 == 1 else c.sbuOnEnter
    sbuSvid := if bit v 0 then BitVec.ofNat 16 (get16 l 4) else c.sbuSvid
    sbuMode := if bit v 0 then byteAt l 3 else c.sbuMode
    autoDebugUart := if bit v 1 then get8 l 2 == 1 else c.autoDebugUart
    uartBaud := if bit v 2 then get32 l 8 else c.uartBaud }

/-- The UART of a bound port runs at the port's rate. -/
def State.syncBaud (s : State) (p : Port) : State :=
  { s with uarts := s.uarts.upd (s.partOf.get p) (fun t => Tab.of (fun u =>
      let x := t.get u
      if x.port = some p then { x with baud := (s.pd.get p).cfg.uartBaud } else x)) }

/-- SBU_SET_ROUTE (R289, R290): ON_ENTER binds the lowest free UART slot, DENIED where none is free; ISOLATED frees it. -/
def opSbuSetRoute (m : VcpMsg) (p : Port) (s : State) : State × Reply :=
  let l := m.payload
  let v := get8 l 0
  if !sbuArgsOk p l then refuse s stBadArg
  else
    let full := ((List.finRange 6).find? (fun u => ((s.uarts.get (s.partOf.get p)).get u).port == none)).isNone
    if bit v 0 && get8 l 1 == 1 && (s.pd.get p).uartSlot.isNone && full then refuse s stDenied
    else
      let s := s.updPd p (fun x => { x with cfg := sbuSettings l x.cfg })
      let s := if bit v 0 then
          (if get8 l 1 = 1 then (if (s.pd.get p).uartSlot.isNone then s.bindUart p else s) else s.freeUart p)
        else s
      let s := s.syncBaud p
      (s, .done stOK [match (s.pd.get p).uartSlot with
        | some u => BitVec.ofNat 8 u.val
        | none => 0xFF])

/-- PD_SET_TIMERS (R262, Table 8.1). -/
def opPdSetTimers (m : VcpMsg) (p : Port) (s : State) : State × Reply :=
  let n := get16 m.payload 0
  if m.payload.length != 2 || n < 10 || 500 < n || n % 10 != 0 then refuse s stBadArg
  else ok (s.updPd p (fun x => { x with cfg := { x.cfg with waitRetry := n } }))

/-! ## The CDC functions (R288, R291) -/

/-- Change a UART slot. -/
def State.updUart (s : State) (k : Part) (u : Fin 6) (f : UartSlot → UartSlot) : State :=
  { s with uarts := s.uarts.upd k (fun t => t.upd u f) }

/-- SET_LINE_CODING: sets UART_BAUD of the bound port; no effect on an unbound slot; STALL for any other format (R291). -/
def State.cdcSetLine (s : State) (k : Part) (u : Fin 6) (rate format parity bits : Nat) : State :=
  if rate < 1200 || 3000000 < rate || format != 0 || parity != 0 || bits != 8 then s.emit (.ctlStall k)
  else match ((s.uarts.get k).get u).port with
    | some p =>
      ((s.updUart k u (fun x => { x with baud := rate })).updPd p (fun x => { x with cfg := { x.cfg with uartBaud := rate } })).emit (.ctlDone k)
    | none => s.emit (.ctlDone k)

/-- GET_LINE_CODING: the bound port's rate, or 115,200 bit/s, with 1 stop bit, no parity, 8 data bits (R291). -/
def State.cdcGetLine (s : State) (k : Part) (u : Fin 6) : State :=
  let x := (s.uarts.get k).get u
  s.emit (.ctlData k (le32 (if x.port.isSome then x.baud else 115200) ++ [0, 0, 8]))

/-- Host data on a slot's bulk OUT: to the bound port's UART, waiting in the slot's 2 KiB buffer while the mux is isolated;
discarded on an unbound slot (R288). [DEDUCED: log 65] -/
def State.cdcOut (s : State) (k : Part) (u : Fin 6) (data : List Byte) : State :=
  let x := (s.uarts.get k).get u
  match x.port with
  | none => s
  | some p =>
    if (s.pd.get p).sbuOn then s.emit (.uartTx p (txOnSbu2 (s.pd.get p)) data)
    else if x.toPort.length + data.length ≤ 2048 then s.updUart k u (fun x => { x with toPort := x.toPort ++ data })
    else s.emit (.notReady k)

/-- A character on the RX line of a port's SBU UART, buffered for the slot's bulk IN (R288). -/
def State.uartRx (s : State) (p : Port) (c : Byte) : State :=
  match (s.pd.get p).uartSlot with
  | none => s
  | some u =>
    if (s.pd.get p).sbuOn then
      s.updUart (s.partOf.get p) u (fun x => if x.toHost.length < 2048 then { x with toHost := x.toHost ++ [c] } else x)
    else s

end Sys2Proof.Machine
end

