-- ==== Sys2Proof/Machine/Descriptors.lean ====
section
/-! DEFINITION. USB descriptors: parsing (R107), qualification (R64, R104), the mapping check (R110), the presented set (R113–R117), buffer sizes (R209–R211). -/

namespace Sys2Proof.Machine

open Sys2Proof

/-- An endpoint descriptor as read. -/
structure EpDesc where
  addr : Byte
  attrs : Byte
  mps : Nat
  interval : Nat
deriving DecidableEq, Repr

/-- An interface descriptor with the endpoint descriptors that follow it. -/
structure IfDesc where
  num : Nat
  alt : Nat
  numEps : Nat
  cls : Byte
  sub : Byte
  proto : Byte
  eps : List EpDesc
deriving DecidableEq, Repr

/-- A configuration that parses: its value, bmAttributes, interfaces in order, and interface associations (first, count). -/
structure ConfDesc where
  value : Nat
  attrs : Byte
  numIfs : Nat
  ifs : List IfDesc
  iads : List (Nat × Nat)
deriving DecidableEq, Repr

/-! ## Parsing (R107) -/

/-- The descriptors of a byte string; none where one has bLength below 2 or runs past the end. -/
def splitDescs : Nat → List Byte → Option (List (List Byte))
  | 0, l => if l.isEmpty then some [] else none
  | n + 1, l =>
    match l with
    | [] => some []
    | b :: _ =>
      if b.toNat < 2 || l.length < b.toNat then none
      else (splitDescs n (l.drop b.toNat)).map (fun r => l.take b.toNat :: r)

/-- The bDescriptorType of a descriptor. -/
def descType (d : List Byte) : Nat := get8 d 1

/-- Add a descriptor to what precedes it. -/
def addDesc (c : ConfDesc) (d : List Byte) : ConfDesc :=
  if descType d = 4 then
    { c with ifs := c.ifs ++ [{ num := get8 d 2, alt := get8 d 3, numEps := get8 d 4, cls := d.getD 5 0, sub := d.getD 6 0,
                                proto := d.getD 7 0, eps := [] }] }
  else if descType d = 5 then
    let e : EpDesc := { addr := d.getD 2 0, attrs := d.getD 3 0, mps := get16 d 4, interval := get8 d 6 }
    match c.ifs.reverse with
    | [] => c
    | i :: rest => { c with ifs := (({ i with eps := i.eps ++ [e] } : IfDesc) :: rest).reverse }
  else if descType d = 11 then { c with iads := c.iads ++ [(get8 d 2, get8 d 3)] }
  else c

/-- A configuration that parses (R107). -/
def parseConfig (l : List Byte) : Option ConfDesc :=
  match splitDescs (l.length + 1) l with
  | none => none
  | some ds =>
    let head := ds.headD []
    let c := (ds.drop 1).foldl addDesc
      { value := get8 head 5, attrs := head.getD 7 0, numIfs := get8 head 4, ifs := [], iads := [] }
    let keys := c.ifs.map (fun i => (i.num, i.alt))
    let nums := (c.ifs.map (·.num)).eraseDups
    let ok := 9 ≤ head.length && descType head == 2 && get16 l 2 == l.length && keys.eraseDups.length == keys.length &&
      nums.length == c.numIfs && nums.all (fun n => keys.contains (n, 0)) && c.ifs.all (fun i => i.eps.length == i.numEps)
    if ok then some c else none

/-- The device capability descriptors of a BOS that parses (R107). -/
def parseBos (l : List Byte) : Option (List (List Byte)) :=
  match splitDescs (l.length + 1) l with
  | some (h :: caps) =>
    if h.length = 5 && descType h == 0x0F && get16 l 2 == l.length && get8 l 4 == caps.length && caps.all (fun c => descType c == 0x10)
    then some caps else none
  | _ => none

/-! ## What can be lifted (R64, R104, R110) -/

/-- Whether an allow list entry admits an interface (R104). -/
def ClassEntry.admits (e : ClassEntry) (i : IfDesc) : Bool :=
  i.cls == e.cls && (!e.matchSub || i.sub == e.subclass) && (!e.matchProto || i.proto == e.protocol)

/-- The transfer type of an endpoint: 0 control, 1 isochronous, 2 bulk, 3 interrupt. -/
def EpDesc.type (e : EpDesc) : Nat := e.attrs.toNat % 4

/-- The configurations of a set, parsed. -/
def DescSet.parsed (d : DescSet) : List ConfDesc := d.configs.filterMap parseConfig

/-- Every interface descriptor of a set. -/
def DescSet.interfaces (d : DescSet) : List IfDesc := d.parsed.flatMap (·.ifs)

/-- Every endpoint descriptor of a set. -/
def DescSet.endpoints (d : DescSet) : List EpDesc := d.interfaces.flatMap (·.eps)

/-- Whether a device is a hub: class 0x09 of the device or of an interface. -/
def DescSet.isHub (d : DescSet) : Bool := get8 d.device 4 == 9 || d.interfaces.any (fun i => i.cls == 9)

/-- The test of R64. -/
def DescSet.qualifies (d : DescSet) (list : List ClassEntry) (isoLift : Bool) : Bool :=
  !d.isHub && d.interfaces.all (fun i => list.any (fun e => e.admits i)) && (isoLift || d.endpoints.all (fun e => e.type != 1))

/-- Whether an endpoint is one that R110 admits. -/
def EpDesc.mappable (e : EpDesc) : Bool :=
  let m := e.mps % 2048
  let a := e.mps / 2048 % 4
  match e.type with
  | 0 => false
  | 2 => e.mps == 512
  | _ => 1 ≤ m && m ≤ 1024 && a ≤ 2

/-- The UNMAPPABLE detail of a set that R110 refuses (Table 4.13). -/
def DescSet.unmappable (d : DescSet) : Option Nat := (d.endpoints.find? (fun e => !e.mappable)).map (fun e => e.addr.toNat)

/-! ## The presented set (Tables 4.4–4.8) -/

/-- Replace two bytes of a descriptor. -/
def put16 (l : List Byte) (i n : Nat) : List Byte := (l.set i (BitVec.ofNat 8 n)).set (i + 1) (BitVec.ofNat 8 (n / 256))

/-- The presented device descriptor (Table 4.4). -/
def presentDevice (d : List Byte) : List Byte := (put16 d 2 0x0320).set 7 0x09

/-- The presented endpoint descriptor and its companion (Table 4.6). -/
def presentEndpoint (d : List Byte) : List Byte :=
  let w := get16 d 4
  let m := w % 2048
  let a := w / 2048 % 4
  let bytes := m * (a + 1)
  match get8 d 3 % 4 with
  | 2 => (put16 d 4 0x0400).set 6 0 ++ [6, 0x30, 7, 0, 0, 0]
  | _ =>
    if a = 0 then put16 d 4 m ++ [6, 0x30, 0, 0] ++ le16 m
    else put16 d 4 0x0400 ++ [6, 0x30, BitVec.ofNat 8 ((bytes + 1023) / 1024 - 1), 0] ++ le16 bytes

/-- The presented image of one descriptor of a configuration (Table 4.5). -/
def presentDesc (d : List Byte) : List Byte :=
  if descType d = 2 then d.set 8 (BitVec.ofNat 8 ((get8 d 8 + 3) / 4))
  else if descType d = 9 then []
  else if descType d = 5 then presentEndpoint d
  else d

/-- The presented configuration (Table 4.5). -/
def presentConfig (l : List Byte) : List Byte :=
  match splitDescs (l.length + 1) l with
  | none => l
  | some ds =>
    let out := ds.flatMap presentDesc
    put16 out 2 out.length

/-- The presented BOS (Table 4.8). -/
def presentBos (bos : Option (List Byte)) : List Byte :=
  let caps := (bos.bind parseBos).getD []
  let kept := caps.filter (fun c => get8 c 2 == 4) ++ caps.filter (fun c => !([2, 3, 4, 10].contains (get8 c 2)))
  let all := [[7, 0x10, 2, 2, 0, 0, 0], [10, 0x10, 3, 0, 8, 0, 3, 1, 0x10, 0]] ++ kept
  let body := all.flatten
  [5, 0x0F] ++ le16 (5 + body.length) ++ [BitVec.ofNat 8 all.length] ++ body

/-- A presented set: device, configurations, BOS. -/
structure Presented where
  device : List Byte
  configs : List (List Byte)
  bos : List Byte
deriving DecidableEq, Repr

/-- The presented set of a set as read (R113–R116). -/
def DescSet.present (d : DescSet) : Presented :=
  { device := presentDevice d.device, configs := d.configs.map presentConfig, bos := presentBos d.bos }

/-- The size of a presented set (R111). -/
def Presented.size (p : Presented) : Nat := p.device.length + (p.configs.map (·.length)).sum + p.bos.length

/-! ## Buffers (R209–R211) -/

/-- The rows an endpoint needs (Table 7.2). -/
def EpDesc.rows (e : EpDesc) : Nat :=
  let bytes := (e.mps % 2048) * (e.mps / 2048 % 4 + 1)
  match e.type with
  | 2 => 4
  | 1 => (10 * bytes + 1023) / 1024
  | _ => max 1 ((2 * bytes + 1023) / 1024)

/-- The endpoint addresses of a set, each once. -/
def DescSet.addresses (d : DescSet) : List Byte := (d.endpoints.map (·.addr)).eraseDups

/-- The largest requirement of an endpoint address over every configuration and alternate setting (R210). -/
def DescSet.rowsOf (d : DescSet) (a : Byte) : Nat :=
  (d.endpoints.filter (fun e => e.addr == a)).foldl (fun n e => max n e.rows) 0

/-- The buffers a lifted port asks for: one row for the control context, one buffer per endpoint address. -/
def DescSet.buffers (d : DescSet) (p : Port) : List (RowOwner × Nat) :=
  (.control p, 1) :: d.addresses.map (fun a => (.endpoint p a, d.rowsOf a))

/-- Whether the rows asked for are within PORT_ROW_LIMIT (R211). -/
def DescSet.withinLimit (d : DescSet) (p : Port) : Bool := ((d.buffers p).map (·.2)).sum ≤ 46

/-! ## Functions and configurations in force -/

/-- The configuration of a value. -/
def DescSet.config (d : DescSet) (value : Nat) : Option ConfDesc := d.parsed.find? (fun c => c.value == value)

/-- The first interface of the function an interface belongs to: that of its association, or itself (R134). -/
def ConfDesc.firstOf (c : ConfDesc) (i : Nat) : Nat :=
  match c.iads.find? (fun a => a.1 ≤ i && i < a.1 + a.2) with
  | some a => a.1
  | none => i

/-- Insert into an ascending list. -/
def insertAsc (n : Nat) : List Nat → List Nat
  | [] => [n]
  | m :: rest => if n ≤ m then n :: m :: rest else m :: insertAsc n rest

/-- A list of numbers in ascending order. -/
def insertSort (l : List Nat) : List Nat := l.foldr insertAsc []

/-- The functions of a configuration by their first interfaces, ascending. -/
def ConfDesc.functions (c : ConfDesc) : List Nat := insertSort ((c.ifs.map (·.num)).eraseDups.map c.firstOf).eraseDups

/-- The interface descriptor in force of an interface, under a list of alternate settings. -/
def ConfDesc.inForce (c : ConfDesc) (alts : List (Nat × Nat)) (num : Nat) : Option IfDesc :=
  let alt := ((alts.find? (fun a => a.1 == num)).map (·.2)).getD 0
  c.ifs.find? (fun i => i.num == num && i.alt == alt)

/-- Whether a bulk IN endpoint of an interface is eligible for SNOOP_BOT (R153). -/
def IfDesc.botEligible (i : IfDesc) (a : Byte) : Bool :=
  i.cls == 0x08 && i.proto == 0x50 && i.eps.any (fun e => e.addr == a && e.type == 2 && 128 ≤ a.toNat) &&
    i.eps.countP (fun e => e.type == 2 && e.addr.toNat < 128) == 1

/-- The bulk OUT endpoint that is snooped for it. -/
def IfDesc.botOut (i : IfDesc) : Option Byte := (i.eps.find? (fun e => e.type == 2 && e.addr.toNat < 128)).map (·.addr)

end Sys2Proof.Machine
end

