-- ==== Sys2Proof/Machine/Pbm.lean ====
section
/-! DEFINITION. Port Buffer Memory: words, checkers, counters, the sticky-word tracker, merge buffers, buffers and their rows, fill, retirement, closure (chapter 7). -/

namespace Sys2Proof.Machine

open Sys2Proof

/-! ## The memory: a sorted list of (address, code word), with no entry equal to the fill pattern -/

/-- What a word that the list does not hold reads as in a filled bank: the fill pattern (R214). [DEDUCED: log 12] -/
def fillPattern : BitVec 137 := 0

/-- The code word listed at an address. [DEDUCED: log 12] -/
def cellsGet : List (Nat × BitVec 137) → Nat → Option (BitVec 137)
  | [], _ => none
  | (a, v) :: rest, k => if a = k then some v else cellsGet rest k

/-- Store a code word, keeping the addresses rising and no entry equal to the fill pattern. [DEDUCED: log 12] -/
def cellsPut : List (Nat × BitVec 137) → Nat → BitVec 137 → List (Nat × BitVec 137)
  | [], k, v => if v = fillPattern then [] else [(k, v)]
  | (a, w) :: rest, k, v =>
    if a < k then (a, w) :: cellsPut rest k v
    else if a = k then (if v = fillPattern then rest else (k, v) :: rest)
    else if v = fillPattern then (a, w) :: rest
    else (k, v) :: (a, w) :: rest

/-- The canonical form: addresses strictly rising, no entry equal to what an unlisted address reads as. [DEDUCED: log 12] -/
def cellsWf : List (Nat × BitVec 137) → Bool
  | [] => true
  | [(_, v)] => v != fillPattern
  | (a, v) :: (b, w) :: rest => v != fillPattern && a < b && cellsWf ((b, w) :: rest)

/-- The physical row behind a row: the spare row it is retired into, 768 + spare (R232), or itself. -/
def BankState.physRow (b : BankState) (row : Nat) : Nat :=
  match b.remap.find? (fun e => e.1 == row) with
  | some (_, spare) => 768 + spare
  | none => row

/-- The key of a physical word: 784 rows of 64 words in a bank (R206). -/
def cellKey (b : Bank) (prow word : Nat) : Nat := (b.val * 784 + prow) * 64 + word

/-- The 21-bit word address of Table 7.1. -/
def wordAddr (b : Bank) (row word : Nat) : Nat := b.val * 65536 + row * 64 + word

/-- The code word that stands in a word; a word of a bank not yet filled holds undefined data (R213). [DESIGN CHOICE: log 11; DEDUCED: log 12] -/
def State.cell (s : State) (b : Bank) (row word : Nat) : BitVec 137 :=
  let k := cellKey b ((s.banks.get b).physRow row) word
  match cellsGet s.cells k with
  | some v => v
  | none => if (s.banks.get b).filled then fillPattern else Config.unwritten k s.freeCount

/-- Change one bank. -/
def State.updBank (s : State) (b : Bank) (f : BankState → BankState) : State := { s with banks := s.banks.upd b f }

/-! ## Injection points (R429) -/

/-- The armed injection point at a source and kind. -/
def State.armed (s : State) (source kind : Nat) : Option Injection :=
  s.fault.injections.find? (fun i => i.source.toNat == source && i.kind.toNat == kind)

/-- A point that has acted is disarmed. -/
def State.spend (s : State) (i : Injection) : State :=
  { s with fault := { s.fault with injections := s.fault.injections.filter (· != i) } }

/-- The armed point of a bank's checker or injector with a given PARAMETER (Table 12.7, 0x200–0x25F). -/
def State.bankPoint (s : State) (b : Bank) (parameter : Nat) : Option Injection :=
  s.fault.injections.find? (fun i =>
    0x200 ≤ i.source.toNat && i.source.toNat < 0x260 && i.source.toNat % 32 == b.val && i.parameter.toNat == parameter)

/-- The armed point of a bank's controller (Table 12.7, 0x260–0x27F). -/
def State.addrPoint (s : State) (b : Bank) : Option Injection := s.armed (0x260 + b.val) 0x05

/-- An access that an injection point addresses to row 768 is refused with an address fault (R207). [DEDUCED: log 67] -/
def State.addrCheck (s : State) (b : Bank) : State × Bool :=
  match s.addrPoint b with
  | some i =>
    ((s.spend i).report { source := i.source, kind := i.kind, info := BitVec.ofNat 32 (wordAddr b 768 0), injected := true }, true)
  | none => (s, false)

/-! ## Writing a word -/

/-- Store a code word as a write: an armed FLIPMASK or injection point corrupts it (R240, R429). [DESIGN CHOICE: log 11, 77] -/
def State.storeWord (s : State) (b : Bank) (row word : Nat) (cw : BitVec 137) : State :=
  let (s, refused) := s.addrCheck b
  if refused || !(s.banks.get b).filled then s
  else
    let k := cellKey b ((s.banks.get b).physRow row) word
    let at_ := row * 64 + word
    let put := fun (s : State) (cw : BitVec 137) (inj : Bool) =>
      { s.updBank b (fun x => { x with injWords := if inj then k :: x.injWords.erase k else x.injWords.erase k }) with
        cells := cellsPut s.cells k cw }
    match (s.banks.get b).flip with
    | some f =>
      if f.word = none ∨ f.word = some at_ then
        put (s.updBank b (fun x => { x with flip := none })) (cw ^^^ f.mask) false
      else put s cw false
    | none =>
      match s.bankPoint b 1, s.bankPoint b 2 with
      | some i, _ => put (s.spend i) (cw ^^^ 1#137) true
      | none, some i => put (s.spend i) (cw ^^^ 3#137) true
      | none, none => put s cw false

/-! ## Reading a word through its checker (R216, R219–R223) -/

/-- The two words of a tracker entry (Table 7.5). -/
def stickyWords (e : StickyEntry) : List Byte :=
  le32 (2 ^ 31 + bnat e.reported * 2 ^ 30 + e.count * 2 ^ 26 + (e.word.toNat / 65536) * 2 ^ 21 +
      (e.word.toNat / 64 % 1024) * 2 ^ 11 + (e.word.toNat % 64) * 2 ^ 5) ++
    le32 (e.syndrome.toNat * 256 + e.position)

/-- Room in the tracker for one more word (R222). -/
def stickyRoom (l : List StickyEntry) : List StickyEntry :=
  if l.length < 64 then l
  else match l.find? (fun e => !e.reported) with
    | some e => l.erase e
    | none => l.drop 1

/-- The tracker counts a correction (R222). [DEDUCED: log 67] -/
def State.trackSticky (s : State) (b : Bank) (row word : Nat) (syn : BitVec 9) (position : Nat) (inj : Bool) : State :=
  let a := BitVec.ofNat 21 (wordAddr b row word)
  let old := s.sticky.find? (fun e => e.word == a)
  let rest := match old with
    | some e => s.sticky.erase e
    | none => stickyRoom s.sticky
  let count := match old with
    | some e => min 15 (e.count + 1)
    | none => 1
  let was := (old.map (·.reported)).getD false
  let now := !was && s.pbm.stickyCount ≤ count
  let e : StickyEntry := { word := a, reported := was || now, count, syndrome := syn, position }
  let s := { s with sticky := rest ++ [e] }
  if now then
    (s.bankEvent b 0x8802 (stickyWords e)).report
      { source := BitVec.ofNat 12 (0x220 + b.val), kind := 0x04, info := a.setWidth 32, injected := inj }
  else s

/-- The bank's leaky bucket gains one (R220, R221). -/
def State.raiseBucket (s : State) (b : Bank) (inj : Bool) : State :=
  let old := (s.banks.get b).bucket
  let s := s.updBank b (fun x => { x with bucket := min 255 (old + 1) })
  if old = s.pbm.bucketThreshold then
    (s.bankEvent b 0x8801 ([BitVec.ofNat 8 (old + 1), BitVec.ofNat 8 s.pbm.bucketThreshold, 0, 0] ++
        le32 (s.banks.get b).corrected)).report
      { source := BitVec.ofNat 12 (0x200 + b.val), kind := 0x03, info := BitVec.ofNat 32 (old + 1), injected := inj }
  else s

/-- What a checker found is counted (R219, Table 7.9). -/
def State.countClass (s : State) (b : Bank) (row word : Nat) (syn : BitVec 9) (inj : Bool) : EccClass → State
  | .clean => s
  | .correctable i =>
    let s := s.updBank b (fun x => { x with corrected := satAdd 32 x.corrected 1 })
    (s.raiseBucket b inj).trackSticky b row word syn i inj
  | .poison => s.updBank b (fun x => { x with poisonReads := satAdd 32 x.poisonReads 1 })
  | .double => s.updBank b (fun x => { x with uncorrectable := satAdd 32 x.uncorrectable 1 })
  | .multiple => s.updBank b (fun x => { x with uncorrectable := satAdd 32 x.uncorrectable 1 })

/-- What a read of a word gives: its class, the data, and whether an injection point made it so. -/
structure WordRead where
  cls : EccClass
  data : BitVec 128
  injected : Bool
deriving DecidableEq, Repr

/-- Read a word through the bank's checker; an armed inverted-check-bit point inverts the check bits of this one read (R242). [DEDUCED: log 67; DESIGN CHOICE: log 77] -/
def State.readWord (s : State) (b : Bank) (row word : Nat) : State × WordRead :=
  let (s, refused) := s.addrCheck b
  if refused then (s, { cls := .multiple, data := 0, injected := true })
  else
    let cw := s.cell b row word
    let k := cellKey b ((s.banks.get b).physRow row) word
    let marked := (s.banks.get b).injWords.contains k
    let (s, syn, inj) := match s.bankPoint b 0 with
      | some i => (s.spend i, pbmSyndrome cw ^^^ 0x1FF, true)
      | none => (s, pbmSyndrome cw, marked)
    let c := classify syn
    ((s.countClass b row word syn inj c).tick, { cls := c, data := corrected cw c, injected := inj })

/-- Whether a class means that the word's bytes are lost (R218). -/
def EccClass.lost : EccClass → Bool
  | .clean => false
  | .correctable _ => false
  | .poison => true
  | .double => true
  | .multiple => true

/-! ## Merge buffers (R224–R229) -/

/-- The bytes of a partial write laid over a word. -/
def mergeBytes (old new : BitVec 128) (mask : BitVec 16) : BitVec 128 :=
  let m := (List.range 16).foldl (fun a i => if mask.getLsbD i then a ||| (0xFF#128 <<< (8 * i)) else a) (0#128)
  (old &&& ~~~m) ||| (new &&& m)

/-- Flush one entry: a complete one is written whole, an incomplete one by read-modify-write (R225, R228, R229). -/
def State.flushEntry (s : State) (b : Bank) (e : MergeEntry) : State :=
  let s := s.updBank b (fun x => { x with merge := x.merge.filter (·.word != e.word) })
  let row := e.word / 64
  let word := e.word % 64
  if e.mask = 0xFFFF then s.storeWord b row word (pbmEncode e.bytes)
  else
    let s := s.updBank b (fun x => { x with mergeRmw := satAdd 32 x.mergeRmw 1 })
    let (s, r) := s.readWord b row word
    let merged := mergeBytes r.data e.bytes e.mask
    if r.cls.lost then
      (s.updBank b (fun x => { x with poisonWrites := satAdd 32 x.poisonWrites 1 })).storeWord b row word (poisoned merged)
    else s.storeWord b row word (pbmEncode merged)

/-- A fence flushes every merge-buffer entry of a bank (R227). -/
def State.fence (s : State) (b : Bank) : State := forAll (s.banks.get b).merge (fun s e => s.flushEntry b e) s

/-- A write narrower than a word joins its entry or takes a new one, evicting the least recently written (R224, R225). -/
def State.writePartial (s : State) (b : Bank) (row word : Nat) (bytes : BitVec 128) (mask : BitVec 16) : State :=
  let w := row * 64 + word
  let here := (s.banks.get b).merge.find? (·.word == w)
  let e : MergeEntry := match here with
    | some o => { word := w, bytes := mergeBytes o.bytes bytes mask, mask := o.mask ||| mask }
    | none => { word := w, bytes, mask }
  let s := match here, (s.banks.get b).merge with
    | none, old :: rest => if rest.length ≥ 7 then s.flushEntry b old else s
    | _, _ => s
  let s := s.updBank b (fun x => { x with merge := x.merge.filter (·.word != w) ++ [e] })
  if e.mask = 0xFFFF then s.flushEntry b e else s

/-- A write of all 16 bytes bypasses the merge buffer and replaces any entry for the word (R224). -/
def State.writeFull (s : State) (b : Bank) (row word : Nat) (data : BitVec 128) : State :=
  (s.updBank b (fun x => { x with merge := x.merge.filter (·.word != row * 64 + word) })).storeWord b row word (pbmEncode data)

/-! ## Fill (R214, R235, R239) -/

/-- Fill a bank: every word of its rows and mapped spare rows takes the fill pattern, unaffected by FLIPMASK, after a fence. [DEDUCED: log 12] -/
def State.fillBank (s : State) (b : Bank) : State :=
  let s := s.updBank b (fun x => { x with merge := [], filled := true, injWords := [] })
  { s with cells := s.cells.filter (fun c => c.1 / (784 * 64) != b.val) }

/-- What a bank is after a power-off: contents, counters, bucket, remap, merge buffer, arming and tracker entries are gone; a closure and
the failed spare rows stay until Dawn (R233, R236, R239, R240). -/
def State.clearBank (s : State) (b : Bank) : State :=
  { s.updBank b (fun x => { ({} : BankState) with closed := x.closed, failedSpares := x.failedSpares }) with
    cells := s.cells.filter (fun c => c.1 / (784 * 64) != b.val)
    sticky := s.sticky.filter (fun e => e.word.toNat / 65536 != b.val) }

/-- A spare row of a bank that no row is mapped to and that has not failed. -/
def BankState.freeSpare (x : BankState) : Option Nat :=
  (List.range 16).find? (fun i => !x.failedSpares.contains i && !x.remap.any (fun e => e.2 == i))

/-- Map a row listed as retired to a spare row before the fill; nothing is copied (R235). -/
def State.mapRetired (s : State) (b : Bank) (row : Nat) : State :=
  match (s.banks.get b).freeSpare with
  | some spare =>
    s.updBank b (fun x => { x with remap := x.remap.filter (·.1 != row) ++ [(row, spare)] })
  | none => s

/-- Close a bank to new allocation (R236). -/
def State.closeBank (s : State) (b : Bank) : State := s.updBank b (fun x => { x with closed := true })

/-! ## Power states of the quarters (R227, R237–R239) -/

/-- Closed banks and retired rows of the record in force, for some banks (R235, R239). -/
def State.applyRows (s : State) (which : Bank → Bool) : State :=
  let s := forAll ((List.finRange 32).filter (fun b => which b && s.fw.closed.getLsbD b.val)) (fun s b => s.closeBank b) s
  forAll (s.fw.retired.filter (fun r => which r.1)) (fun s r => s.mapRetired r.1 r.2) s

/-- The domain of a quarter. -/
def quarterDom (q : Fin 4) : Fin 25 := ⟨3 + q.val, by omega⟩

/-- The banks of a PBMQ domain. -/
def quarterBanks (d : Fin 25) : List Bank := (List.finRange 32).filter (fun b => quarterDom (quarterOf b) == d)

/-- A domain comes up. A quarter that was off is filled anew, its retired rows mapped first (R239). [DESIGN CHOICE: log 21] -/
def State.riseDomain (s : State) (d : Fin 25) : State :=
  let was := s.domains.get d
  let s := { s with domains := s.domains.put d .on, exiting := s.exiting.filter (· != d), entries := s.entries.filter (·.dom != d) }
  if was = .off && 3 ≤ d.val && d.val < 7 then
    let l := quarterBanks d
    let s := forAll l (fun s b => s.clearBank b) s
    forAll l (fun s b => s.fillBank b) (s.applyRows (fun b => l.contains b))
  else s

/-- A domain goes to a low state; a fence precedes it in a quarter (R227), which loses what it holds where it powers off (R239, R240). -/
def State.lowerDomain (s : State) (d : Fin 25) (st : DomState) : State :=
  let l := quarterBanks d
  let s := forAll l (fun s b => s.fence b) s
  let s := if st = .off then forAll l (fun s b => s.clearBank b) s else s
  { s with domains := s.domains.put d st }

/-- A data access to a bank whose quarter is in retention or off brings the quarter up first, and is then served (R237, R239, Table
7.10). -/
def State.wakeBank (s : State) (b : Bank) : State :=
  let d := quarterDom (quarterOf b)
  if s.domains.get d = .on then s else s.riseDomain d

/-! ## Buffers as rings of rows (R208) -/

/-- Bytes as data bits: byte b holds bits 8b+7 to 8b (R207). -/
def packBytes : List Byte → BitVec 128
  | [] => 0
  | b :: rest => (packBytes rest <<< 8) ||| b.setWidth 128

/-- The bank, row, word and byte at which a ring's byte position lies. [DEDUCED: log 67] -/
def ringPlace (rows : List (Bank × Nat)) (pos : Nat) : Option (Bank × Nat × Nat × Nat) :=
  (rows[pos / 1024 % (max 1 rows.length)]?).map (fun (b, r) => (b, r, pos % 1024 / 16, pos % 16))

/-- Write bytes into a ring from a byte position on, word by word: whole words directly, parts through the merge buffer. -/
def writeRing : Nat → List (Bank × Nat) → Nat → List Byte → State → State
  | 0, _, _, _, s => s
  | _ + 1, _, _, [], s => s
  | n + 1, rows, pos, bytes, s =>
    match ringPlace rows pos with
    | none => s
    | some (b, r, w, o) =>
      let s := s.wakeBank b
      let part := bytes.take (16 - o)
      let s := if part.length = 16 then s.writeFull b r w (packBytes part)
        else s.writePartial b r w (packBytes part <<< (8 * o)) (BitVec.ofNat 16 ((2 ^ part.length - 1) * 2 ^ o))
      writeRing n rows (pos + part.length) (bytes.drop (16 - o)) s

/-- What a read of a ring for delivery gives: the bytes up to the first lost word, and the poison source where one was lost
(R218: 0x01 Uncorrectable, 0x02 Poison). -/
structure RingRead where
  bytes : List Byte
  lost : Option Byte
deriving DecidableEq, Repr

/-- The bytes of a data word. -/
def wordBytes (d : BitVec 128) : List Byte := (List.range 16).map (fun i => (d >>> (8 * i)).setWidth 8)

/-- Read a word for delivery: a merge-buffer entry's bytes stand over the stored word (R226); a lost word is recorded from
the bank's uncorrectable source (Table 12.3). -/
def State.readForDelivery (s : State) (b : Bank) (row word : Nat) : State × WordRead :=
  let (s, r) := (s.wakeBank b).readWord b row word
  let r := match (s.banks.get b).merge.find? (·.word == row * 64 + word) with
    | some e => { r with data := mergeBytes r.data e.bytes e.mask }
    | none => r
  if r.cls.lost then
    (s.report { source := BitVec.ofNat 12 (0x240 + b.val), kind := if r.cls = .poison then 0x02 else 0x01,
                info := BitVec.ofNat 32 (wordAddr b row word), injected := r.injected }, r)
  else (s, r)

/-- Read `len` bytes of a ring for delivery, stopping at a lost word (R218). -/
def readRing : Nat → List (Bank × Nat) → Nat → Nat → List Byte → State → State × RingRead
  | 0, _, _, _, acc, s => (s, { bytes := acc, lost := none })
  | n + 1, rows, pos, len, acc, s =>
    if len = 0 then (s, { bytes := acc, lost := none })
    else match ringPlace rows pos with
      | none => (s, { bytes := acc, lost := none })
      | some (b, r, w, o) =>
        let (s, x) := s.readForDelivery b r w
        if x.cls.lost then (s, { bytes := acc, lost := some (if x.cls = .poison then 0x02 else 0x01) })
        else
          let got := ((wordBytes x.data).drop o).take len
          readRing n rows (pos + got.length) (len - got.length) (acc ++ got) s

/-- The buffer of an owner. -/
def State.ring (s : State) (o : RowOwner) : Option Ring := s.rings.find? (·.owner == o)

/-- Change the buffer of an owner. -/
def State.updRing (s : State) (o : RowOwner) (f : Ring → Ring) : State :=
  { s with rings := s.rings.map (fun r => if r.owner = o then f r else r) }

/-- The bytes a buffer holds. -/
def Ring.held (r : Ring) : Nat := r.wr - r.rd

/-- Append bytes to a buffer. -/
def State.ringWrite (s : State) (o : RowOwner) (bytes : List Byte) : State :=
  match s.ring o with
  | none => s
  | some r => (writeRing (bytes.length + 1) r.rows r.wr bytes s).updRing o (fun r => { r with wr := r.wr + bytes.length })

/-- Read bytes of a buffer from an offset after its read position, leaving the position. -/
def State.ringPeek (s : State) (o : RowOwner) (off len : Nat) : State × RingRead :=
  match s.ring o with
  | none => (s, { bytes := [], lost := none })
  | some r => readRing (len + 1) r.rows (r.rd + off) len [] s

/-- Bytes of a buffer have been delivered or are discarded. -/
def State.ringDrop (s : State) (o : RowOwner) (len : Nat) : State :=
  s.updRing o (fun r => { r with rd := min r.wr (r.rd + len) })

/-- Fence the banks in which a buffer lies (R227). -/
def State.fenceRing (s : State) (r : Ring) : State := forAll (r.rows.map (·.1)).eraseDups (fun s b => s.fence b) s

/-- Discard everything a buffer holds; a fence precedes it (R227). -/
def State.ringClear (s : State) (o : RowOwner) : State :=
  match s.ring o with
  | none => s
  | some r => (s.fenceRing r).updRing o (fun r => { r with rd := r.wr })

/-- Discard what a buffer holds beyond its oldest `n` bytes; a fence precedes it (R227). -/
def State.ringKeep (s : State) (o : RowOwner) (n : Nat) : State :=
  match s.ring o with
  | none => s
  | some r => (s.fenceRing r).updRing o (fun r => { r with wr := min r.wr (r.rd + n) })

/-! ## Allocation (R209–R212) -/

/-- Rows set aside for fixed buffers: MF rows 0–10 of bank 2k, native rows 0–31 of bank 2k+1 (R212). -/
def setAside (b : Bank) (row : Nat) : Bool := if b.val % 2 = 0 then row < 11 else row < 32

/-- Whether a row is held by a buffer. -/
def State.rowHeld (s : State) (b : Bank) (row : Nat) : Bool := s.rings.any (fun r => r.rows.contains (b, row))

/-- The rows of a bank that a buffer may take: not held, not set aside, the bank not closed. -/
def State.freeRows (s : State) (b : Bank) : List Nat :=
  if (s.banks.get b).closed then []
  else (List.range 768).filter (fun r => !setAside b r && !s.rowHeld b r)

/-- The number of rows of a bank held by buffers (ROWS_ALLOCATED). -/
def State.rowsAllocated (s : State) (b : Bank) : Nat :=
  s.rings.foldl (fun a r => a + (r.rows.filter (fun x => x.1 == b)).length) 0

/-- Take rows alternately from two lists. -/
def alternate {α : Type} : List α → List α → List α
  | [], b => b
  | a :: as, b => a :: (match b with
    | [] => as
    | x :: xs => x :: alternate as xs)

/-- The free rows in the order in which partition `k`'s lifted buffers take them (R212); the quarters that are off come last, so that a
reservation fails only while a bank is closed (R211). -/
def State.rowOrder (s : State) (k : Part) : List (Bank × Nat) :=
  let b0 : Bank := ⟨2 * k.val, by omega⟩
  let b1 : Bank := ⟨2 * k.val + 1, by omega⟩
  let f0 := (s.freeRows b0).map (fun r => (b0, r))
  let f1 := (s.freeRows b1).map (fun r => (b1, r))
  let home := if f1.length > f0.length then alternate f1 f0 else alternate f0 f1
  let rest := fun (b : Bank) => b != b0 && b != b1
  let near := (List.finRange 32).filter (fun b => rest b && quarterOf b == quarterOf b0)
  let others := (List.finRange 32).filter (fun b => quarterOf b != quarterOf b0)
  let off := fun (b : Bank) => s.domains.get (quarterDom (quarterOf b)) == .off
  home ++ (near ++ others.filter (fun b => !off b) ++ others.filter off).flatMap (fun b => (s.freeRows b).map (fun r => (b, r)))

/-- Split rows among buffers of given sizes; none where they do not suffice. -/
def carve : List (RowOwner × Nat) → List (Bank × Nat) → Option (List Ring)
  | [], _ => some []
  | (o, n) :: rest, rows =>
    if rows.length < n then none
    else (carve rest (rows.drop n)).map (fun l => { owner := o, rows := rows.take n, wr := 0, rd := 0 } :: l)

/-- Buffers come to stand on their rows; a quarter that is off comes up first (R239). -/
def State.addRings (s : State) (l : List Ring) : State :=
  let s := forAll (l.flatMap (fun r => r.rows.map (·.1))).eraseDups
    (fun s b => if s.domains.get (quarterDom (quarterOf b)) = .off then s.wakeBank b else s) s
  { s with rings := s.rings ++ l }

/-- Reserve buffers for a lifted port; none where no rows are free (R211, NO_BUFFER). -/
def State.reserve (s : State) (k : Part) (want : List (RowOwner × Nat)) : Option State := (carve want (s.rowOrder k)).map s.addRings

/-- Allocate a fixed buffer on its set-aside rows, or outside a closed bank where rows are free (R236). -/
def State.allocFixed (s : State) (o : RowOwner) (b : Bank) (first n : Nat) (k : Part) : State :=
  if (s.ring o).isSome then s
  else
    let own := (List.range n).map (fun i => (b, first + i))
    let rows := if (s.banks.get b).closed && n ≤ (s.rowOrder k).length then (s.rowOrder k).take n else own
    s.addRings [{ owner := o, rows, wr := 0, rd := 0 }]

/-- The Management Function buffers of a partition: EP0, bulk OUT, bulk IN, interrupt IN (Table 7.2, R212). -/
def State.allocMf (s : State) (k : Part) : State :=
  let b : Bank := ⟨2 * k.val, by omega⟩
  let s := (s.allocFixed (.mgmtFunction k .ep0) b 0 2 k).allocFixed (.mgmtFunction k .bulkOut) b 2 4 k
  (s.allocFixed (.mgmtFunction k .bulkIn) b 6 4 k).allocFixed (.mgmtFunction k .intIn) b 10 1 k

/-- The native SuperSpeed buffers of a port, 8 rows for each direction (Table 7.2, R212). -/
def State.allocNative (s : State) (p : Port) : State :=
  let b : Bank := ⟨2 * (slotOf p).val + 1, by have := (slotOf p).isLt; omega⟩
  let first := 16 * (p.val % 32)
  (s.allocFixed (.native p false) b first 8 (slotOf p)).allocFixed (.native p true) b (first + 8) 8 (slotOf p)

/-- Release the buffers of which the owner is given; a fence precedes it (R227). -/
def State.release (s : State) (which : RowOwner → Bool) : State :=
  let s := forAll (s.rings.filter (fun r => which r.owner)) (fun s r => s.fenceRing r) s
  { s with rings := s.rings.filter (fun r => !which r.owner) }

/-- A packet passes through a buffer: it is written, and read for delivery; none where a word of it is lost, which discards the packet
(R218). -/
def State.passBuffer (s : State) (o : RowOwner) (bytes : List Byte) : State × Option (List Byte) :=
  let s := s.ringWrite o bytes
  let (s, r) := s.ringPeek o 0 bytes.length
  (s.ringDrop o bytes.length, match r.lost with
    | some _ => none
    | none => some (if (s.ring o).isSome then r.bytes else bytes))

/-- A transfer passes through a buffer in packets of `m` bytes; a packet of which a word is lost is missing from it (R218). -/
def passPackets (o : RowOwner) (m : Nat) : Nat → List Byte → State → State × List Byte
  | 0, _, s => (s, [])
  | n + 1, bytes, s =>
    let (s, r) := s.passBuffer o (bytes.take m)
    if bytes.length ≤ m then (s, r.getD [])
    else
      let (s, rest) := passPackets o m n (bytes.drop m) s
      (s, r.getD [] ++ rest)

/-- The buffers of a port. -/
def RowOwner.ofPort (p : Port) : RowOwner → Bool
  | .endpoint q _ => q == p
  | .control q => q == p
  | .native q _ => q == p
  | .mgmtFunction _ _ => false

/-! ## Retirement and closure (R232–R236) -/

/-- SPARES_USED: spare rows mapped or failed (Table 7.9). -/
def BankState.sparesUsed (x : BankState) : Nat := x.remap.length + x.failedSpares.length

/-- The word a row copy writes: corrected with fresh check bits, or kept poison (R232 step 3). -/
def copyWord (r : WordRead) : BitVec 137 := if r.cls.lost then poisoned r.data else pbmEncode r.data

/-- Read the 64 words of a row for a copy; poison copies are counted (Table 7.9). -/
def State.readRow (s : State) (b : Bank) (row : Nat) : State × List (BitVec 137) :=
  (List.range 64).foldl (fun (s, acc) w =>
    let (s, r) := s.readWord b row w
    let s := if r.cls.lost then s.updBank b (fun x => { x with poisonWrites := satAdd 32 x.poisonWrites 1 }) else s
    (s, acc ++ [copyWord r])) (s, [])

/-- Write the 64 words of a copied row. -/
def State.writeRow (s : State) (b : Bank) (row : Nat) (l : List (BitVec 137)) : State :=
  (l.foldl (fun (s, w) cw => ((s : State).storeWord b row w cw, w + 1)) (s, 0)).1

/-- Retire a row into a free spare row, with its data (R232–R234); none where no spare is free. -/
def State.retire (s : State) (b : Bank) (row : Nat) : Option (State × Nat) :=
  (s.banks.get b).freeSpare.map (fun spare =>
    let s := s.fence b
    let (s, words) := s.readRow b row
    let s := s.updBank b (fun x =>
      { x with
        failedSpares := x.failedSpares ++ (x.remap.filter (·.1 == row)).map (·.2)
        remap := x.remap.filter (·.1 != row) ++ [(row, spare)] })
    let s := s.writeRow b row words
    ({ s with sticky := s.sticky.filter (fun e => e.word.toNat / 64 != b.val * 1024 + row) }, spare))

/-- Whether the ring holds data in its row of index `i` (R236). -/
def Ring.rowBusy (r : Ring) (i : Nat) : Bool :=
  (List.range (r.held / 1024 + 2)).any (fun d =>
    let pos := r.rd / 1024 + d
    pos % (max 1 r.rows.length) == i && pos * 1024 < r.wr && r.rd < (pos + 1) * 1024 && r.rd < r.wr)

/-- The partition whose row order a buffer's rows move under. -/
def State.ownerPart (s : State) : RowOwner → Part
  | .endpoint p _ => s.partOf.get p
  | .control p => s.partOf.get p
  | .native p _ => slotOf p
  | .mgmtFunction k _ => k

/-- Move a row of a closed bank to a free row elsewhere, with its data or without (R236). -/
def State.moveRow (s : State) (b : Bank) (row : Nat) (copy : Bool) : State :=
  match s.rings.find? (fun r => r.rows.contains (b, row)) with
  | none => s
  | some r =>
    match (s.rowOrder (s.ownerPart r.owner)).find? (fun x => x.1 != b) with
    | none => s
    | some dst =>
      let s := s.wakeBank dst.1
      let s :=
        if copy then
          let s := s.fence b
          let (s, words) := s.readRow b row
          s.writeRow dst.1 dst.2 words
        else s
      s.updRing r.owner (fun r => { r with rows := r.rows.map (fun x => if x = (b, row) then dst else x) })

end Sys2Proof.Machine
end

