-- ==== Sys2Proof/Machine/PortBase.lean ====
section
/-! DEFINITION. Access to ports, partitions, virtual hubs and lifted presentations; what a virtual port shows; the port events (Tables 2.2, 11.15). -/

namespace Sys2Proof.Machine

open Sys2Proof

/-- Change the data side of one port. -/
def State.updPort (s : State) (p : Port) (f : PortState → PortState) : State := { s with ports := s.ports.upd p f }
/-- Change one partition. -/
def State.updPart (s : State) (k : Part) (f : PartState → PartState) : State := { s with parts := s.parts.upd k f }
/-- Change one upstream port. -/
def State.updUp (s : State) (k : Part) (f : UpState → UpState) : State := { s with ups := s.ups.upd k f }
/-- Change the MF presentation of one partition. -/
def State.updMf (s : State) (k : Part) (f : MfState → MfState) : State := { s with mfs := s.mfs.upd k f }
/-- Change the lifted side of a port that has one. -/
def State.updLift (s : State) (p : Port) (f : LiftPort → LiftPort) : State := { s with lift := s.lift.upd p (fun o => o.map f) }

/-- The port at a position of a partition's tree, where one is assigned (R44). -/
def State.portAtPos (s : State) (k : Part) (i : Pos) : Option Port :=
  allPorts.find? (fun p => s.partOf.get p == k && s.posOf.get p == i)

/-- Whether the SuperSpeed side of a partition's upstream port is active. -/
def State.ssActive (s : State) (k : Part) : Bool := (s.ups.get k).ssSide == .active

/-- Whether the USB 2.0 side can carry devices: presented, and not at Full-Speed, suspended or not (R194). -/
def State.u2Usable (s : State) (k : Part) : Bool := (s.ups.get k).usb2 != .notPresented && !(s.ups.get k).fullSpeed

/-- Whether presentation is possible on a port's partition now: Connected, not in Maintenance, its side decided (Table 3.3, R185). -/
def State.possibleOn (s : State) (k : Part) : Bool :=
  (s.parts.get k).st == .connected && (s.parts.get k).withdraw.isNone && s.mode != .maintenance && (s.ups.get k).ssSide != .deciding

/-- Whether presentation of a port is possible now; LIFT-mode devices that wait for a side wait for it (Table 3.3), and a PASS device on
D+/D− waits for a USB 2.0 side that carries devices (R194). -/
def State.possible (s : State) (p : Port) : Bool :=
  let k := s.partOf.get p
  let x := s.ports.get p
  s.possibleOn k && (!x.needSs || s.ssActive k) && (!x.needU2 || s.u2Usable k) && (x.dataMode != .pass || !x.line || s.u2Usable k)

/-- Whether the port-die link of a port is active (R17). -/
def State.dieUp (s : State) (p : Port) : Bool := s.portLinks.get (dieOf p) == .active

/-- Whether a port's data mode is one in which devices attach. -/
def dataModeAttaches (m : DataMode) : Bool := m == .auto || m == .lift || m == .pass

/-- Whether a device is connected on a port. -/
def PortState.connected (x : PortState) : Bool := x.line || x.ssLink == .u0

/-- The presented states of Table 3.4. -/
def presentedSt : PortSt → Bool
  | .waitReset => true
  | .resetting => true
  | .enabled => true
  | .suspended => true
  | .l1 => true
  | .probe => true
  | _ => false

/-- Whether a port is presented: QUENCHED counts when entered from a presented state other than PROBE (R69, R94). -/
def PortState.presented (x : PortState) : Bool :=
  presentedSt x.st && !x.ownReset ||
    (x.st == .quenched && match x.quenchedFrom with
      | some q => presentedSt q && q != .probe
      | none => false)

/-- The side on which a path appears (Table 2.2). -/
def sideOf : Path → Side
  | .lifted => .superSpeed
  | .native => .superSpeed
  | _ => .usb2

/-! ## Virtual hubs -/

/-- Change one hub tree of a partition. -/
def State.updTree (s : State) (k : Part) (side : Side) (f : HubTree → HubTree) : State :=
  match side with
  | .superSpeed => { s with ssTree := s.ssTree.upd k f }
  | .usb2 => { s with u2Tree := s.u2Tree.upd k f }

/-- One hub tree of a partition. -/
def State.treeOf (s : State) (k : Part) : Side → HubTree
  | .superSpeed => s.ssTree.get k
  | .usb2 => s.u2Tree.get k

/-- Change one leaf port. -/
def State.updLeaf (s : State) (k : Part) (side : Side) (i : Pos) (f : VPort → VPort) : State :=
  s.updTree k side (fun t => { t with leaf := t.leaf.upd i f })

/-- Change one top-hub port. -/
def State.updTop (s : State) (k : Part) (side : Side) (n : Fin 9) (f : VPort → VPort) : State :=
  s.updTree k side (fun t => { t with top := t.top.upd n f })

/-- The leaf hub of a position (Table 2.1), as its hub index. -/
def leafOf (i : Pos) : HubIx := ⟨1 + i.val / 14, by omega⟩

/-- The leaf-hub port number 1–14 of a position. -/
def leafPortOf (i : Pos) : Nat := 1 + i.val % 14

/-- The positions of a leaf hub. -/
def positionsOf (h : HubIx) : List Pos := (List.finRange 112).filter (fun i => leafOf i == h)

/-- UPk in U3 signals its exit. -/
def State.signalU3Exit (s : State) (k : Part) : State :=
  if (s.ups.get k).link = .u3 then (s.updUp k (fun u => { u with ownExit := true })).emit (.up k .u3Exit) else s

/-- A change of connection at a position, while its side of UPk is suspended, wakes the host where the hub that holds the position lets
it: DEVICE_REMOTE_WAKEUP of the USB 2.0 leaf hub, the function remote wake and the port's wake mask of the SuperSpeed leaf hub (Table
2.6, R195). [DEDUCED: log 54] -/
def State.hubWake (s : State) (k : Part) (side : Side) (i : Pos) (connect : Bool) : State :=
  let t := s.treeOf k side
  let hub := t.hubs.get (leafOf i)
  match side with
  | .usb2 => if hub.remoteWake && (s.ups.get k).usb2 == .suspended && (s.u2Tree.get k |>.hubs.get 0).remoteWake then s.emit (.up k .usb2Resume) else s
  | .superSpeed =>
    if hub.remoteWake && (t.leaf.get i).remoteWakeMask.getLsbD (if connect then 0 else 1) then s.signalU3Exit k else s

/-- Whether a top-hub port of a side has power and a device, so that the hub behind it answers (Table 2.4). -/
def State.topOn (s : State) (k : Part) (side : Side) (h : HubIx) : Bool :=
  if g : h.val = 0 then true
  else
    let v := (s.treeOf k side).top.get ⟨h.val - 1, by omega⟩
    v.powered && v.connected

/-- A position shows a connect on a side. A Powered-off SuperSpeed port shows it once it is powered, and the positions of a leaf hub
behind a Powered-off port show nothing (Table 2.4). -/
def State.showConnect (s : State) (p : Port) (side : Side) (enabled : Bool) : State :=
  let k := s.partOf.get p
  let i := s.posOf.get p
  if !s.topOn k side (leafOf i) then s
  else
    let s := s.updLeaf k side i (fun v =>
      { v with connected := true, cConnect := true, enabled, suspended := false, speedKnown := false, link := if enabled then .u0 else .disabled })
    s.hubWake k side i true

/-- A position shows a disconnect. -/
def State.showDisconnect (s : State) (p : Port) (side : Side) : State :=
  let k := s.partOf.get p
  let i := s.posOf.get p
  let s := s.updLeaf k side i (fun v =>
    { v with connected := false, cConnect := v.cConnect || v.connected, enabled := false, suspended := false, speedKnown := false, link := .disabled })
  s.hubWake k side i false

/-! ## Codes and events -/

/-- The code of a data mode. -/
def modeCode : DataMode → Nat
  | .auto => 0
  | .lift => 1
  | .pass => 2
  | .charge => 3
  | .off => 4

/-- A data mode from its code. -/
def modeOfCode : Nat → Option DataMode
  | 0 => some .auto
  | 1 => some .lift
  | 2 => some .pass
  | 3 => some .charge
  | 4 => some .off
  | _ => none

/-- The code of a path. -/
def pathCode : Path → Nat
  | .none => 0
  | .lifted => 1
  | .passthrough => 2
  | .translated => 3
  | .native => 4
  | .extHub => 5

/-- The code of a speed. -/
def speedCode : Speed → Nat
  | .none => 0
  | .low => 1
  | .full => 2
  | .high => 3
  | .gen1x1 => 4
  | .gen2x1 => 5

/-- The code of a port state (Table 3.3 in order). -/
def portStCode : PortSt → Nat
  | .off => 0
  | .charge => 1
  | .idle => 2
  | .pending => 3
  | .debounce => 4
  | .probe => 5
  | .waitReset => 6
  | .resetting => 7
  | .enabled => 8
  | .suspended => 9
  | .l1 => 10
  | .quenched => 11
  | .error => 12
  | .draining => 13
  | .disabling => 14

/-- The code of a PORT_DETACH reason (Table 3.7). -/
def reasonCode : Reason → Nat
  | .unplug => 1
  | .moved => 2
  | .withdrawn => 3
  | .mode => 4
  | .reset => 5
  | .portError => 6
  | .vbusOff => 7
  | .containment => 8
  | .sideChange => 9

/-- The flags of PORT_GET byte 8. -/
def State.portFlags (s : State) (p : Port) : Nat :=
  let x := s.ports.get p
  bnat x.isoLift + 2 * bnat x.l1Enable + 4 * bnat (x.bcMode == .cdp) + 8 * bnat (s.vbus.get p).setting +
    16 * bnat (s.vbus.get p).released + 32 * bnat x.fallenBack

/-- PORT_ATTACH (Table 11.15). -/
def State.attachEvent (s : State) (p : Port) : State :=
  let x := s.ports.get p
  s.portEvent p 0x8301
    ([BitVec.ofNat 8 (s.partOf.get p).val, BitVec.ofNat 8 (s.posOf.get p).val, BitVec.ofNat 8 (pathCode x.path),
      BitVec.ofNat 8 (speedCode x.speed)] ++ le16 x.vid.toNat ++ le16 x.pid.toNat ++
      [BitVec.ofNat 8 (modeCode x.dataMode), BitVec.ofNat 8 (bnat x.qualified)])

/-- PORT_DETACH (Table 11.15), to the partition left. -/
def State.detachEvent (s : State) (p : Port) (r : Reason) (discarded : Nat) : State :=
  s.portEvent p 0x8302 ([BitVec.ofNat 8 (reasonCode r), BitVec.ofNat 8 (s.partOf.get p).val, 0, 0] ++ le64 discarded)

/-- PORT_MODE_CHANGED (Table 11.15). -/
def State.modeEvent (s : State) (p : Port) (old : DataMode) : State :=
  s.portEvent p 0x8303
    [BitVec.ofNat 8 (modeCode (s.ports.get p).dataMode), BitVec.ofNat 8 (modeCode old), BitVec.ofNat 8 (s.portFlags p)]

/-- LIFT_FALLBACK (Table 11.15). -/
def State.fallbackEvent (s : State) (p : Port) (reason detail : Nat) : State :=
  s.portEvent p 0x8401 ([BitVec.ofNat 8 reason, BitVec.ofNat 8 (modeCode (s.ports.get p).dataMode)] ++ le16 detail)

end Sys2Proof.Machine
end

