-- ==== Sys2Proof/Machine/HubDesc.lean ====
section
/-! DEFINITION. The descriptors of the virtual hubs and of the Management Function, and the hub status bits (R32, R33, R37, R39, R40, R191, R288). -/

namespace Sys2Proof.Machine

open Sys2Proof

/-! ## Descriptors (Tables 2.3, 6.3) -/

/-- The Container ID of a hub or of the MF (R33). [DESIGN CHOICE: log 8; PRESUMED: log 55] -/
def containerId (k : Part) (hub : Nat) : List Byte :=
  le64 Config.uniqueId.toNat ++ [BitVec.ofNat 8 k.val, BitVec.ofNat 8 hub, 0x5A, 0x4D, 0x85, 0x16, 0, 0]

/-- A hexadecimal digit as a character, uppercase. -/
def hexDigit (n : Nat) : Nat := if n < 10 then 48 + n else 55 + n

/-- The characters of the serial number: unique ID, partition, and the hub index or MF (R40). -/
def serialChars (k : Part) (hub : Option HubIx) : List Nat :=
  let id := (List.range 16).map (fun i => hexDigit (field Config.uniqueId.toNat (4 * (15 - i)) 4))
  let tail := match hub with
    | some h => [72, 48 + h.val]
    | none => [77, 70]
  id ++ [45, 80, 48 + k.val / 10, 48 + k.val % 10, 45] ++ tail

/-- A string descriptor. -/
def stringDesc (chars : List Nat) : List Byte := [BitVec.ofNat 8 (2 + 2 * chars.length), 3] ++ chars.flatMap le16

/-- The device descriptor of a hub (Table 2.3). [PRESUMED: log 55] -/
def State.hubDevice (s : State) (side : Side) (h : HubIx) : List Byte :=
  let ss := side == .superSpeed
  let pid := match ss, h == 0 with
    | true, true => 0x8516
    | false, true => 0x8517
    | true, false => 0x8518
    | false, false => 0x8519
  [18, 1] ++ le16 (if ss then 0x0320 else 0x0210) ++ [9, 0, if ss then 3 else 2, if ss then 9 else 0x40] ++
    le16 s.vendorId.toNat ++ le16 pid ++ le16 0x0B00 ++ [0, 0, 1, 1]

/-- A configuration descriptor over its body. -/
def configOver (ifs : Nat) (type : Byte) (body : List Byte) : List Byte :=
  [9, type] ++ le16 (9 + body.length) ++ [BitVec.ofNat 8 ifs, 1, 0, 0xE0, 0] ++ body

/-- The configuration of a hub; a USB 2.0 hub offers both alternate settings of a multi-TT hub (R39). [PRESUMED: log 55] -/
def hubConfig (side : Side) (type : Byte) : List Byte :=
  match side with
  | .superSpeed => configOver 1 type ([9, 4, 0, 0, 1, 9, 0, 0, 0] ++ [7, 5, 0x81, 0x13, 2, 0, 8] ++ [6, 0x30, 0, 0, 2, 0])
  | .usb2 =>
    configOver 1 type ([9, 4, 0, 0, 1, 9, 0, 1, 0] ++ [7, 5, 0x81, 3, 2, 0, 12] ++ [9, 4, 0, 1, 1, 9, 0, 2, 0] ++ [7, 5, 0x81, 3, 2, 0, 12])

/-- The hub descriptor (Table 2.3). [PRESUMED: log 55] -/
def hubDescriptor (side : Side) (h : HubIx) : List Byte :=
  let top := h == 0
  let n : Byte := if top then 9 else 14
  let removable := le16 (if top then 0x03FE else 0)
  match side with
  | .superSpeed => [0x0C, 0x2A, n] ++ le16 (if top then 0x000C else 0x0008) ++ [1, 0, 1] ++ le16 0x00C8 ++ removable
  | .usb2 => [0x0B, 0x29, n] ++ le16 (if top then 0x000E else 0x000A) ++ [1, 0] ++ removable ++ le16 0xFFFF

/-- A BOS over its capabilities. -/
def bosOver (caps : List (List Byte)) : List Byte :=
  let body := caps.flatten
  [5, 15] ++ le16 (5 + body.length) ++ [BitVec.ofNat 8 caps.length] ++ body

/-- The USB 2.0 Extension presented (Table 2.3). [PRESUMED: log 55] -/
def usb2Ext : List Byte := [7, 16, 2, 2, 0, 0, 0]

/-- The Container ID capability. -/
def containerCap (id : List Byte) : List Byte := [20, 16, 4, 0] ++ id

/-- The BOS of a hub (Tables 2.3, 6.3). [PRESUMED: log 55] -/
def hubBos (k : Part) (side : Side) (h : HubIx) : List Byte :=
  let id := containerCap (containerId k h.val)
  match side with
  | .usb2 => bosOver [usb2Ext, id]
  | .superSpeed =>
    if h = 0 then
      bosOver [usb2Ext, [10, 16, 3, 0] ++ le16 0x000E ++ [3, 2] ++ le16 0x0040, id,
        [28, 16, 10, 0] ++ le32 0x00000023 ++ le16 0x1100 ++ [0, 0] ++ le32 0x00050030 ++ le32 0x000500B0 ++ le32 0x000A4031 ++ le32 0x000A40B1]
    else bosOver [usb2Ext, [10, 16, 3, 0] ++ le16 0x000E ++ [3, 1] ++ le16 0x0010, id]

/-- The device qualifier of a USB 2.0 hub. [PRESUMED: log 55] -/
def hubQualifier : List Byte := [10, 6] ++ le16 0x0210 ++ [9, 0, 0, 0x40, 1, 0]

/-- A descriptor of a virtual hub; none for a type or index it does not have. -/
def State.hubGetDescriptor (s : State) (k : Part) (side : Side) (h : HubIx) (type index : Nat) : Option (List Byte) :=
  match type with
  | 1 => some (s.hubDevice side h)
  | 2 => if index = 0 then some (hubConfig side 2) else none
  | 3 => if index = 0 then some [4, 3, 9, 4] else if index = 1 then some (stringDesc (serialChars k (some h))) else none
  | 6 => if side = .usb2 then some hubQualifier else none
  | 7 => if side = .usb2 && index == 0 then some (hubConfig side 7) else none
  | 15 => some (hubBos k side h)
  | _ => none

/-! ## The Management Function (R37, R288) -/

/-- The device descriptor of the MF. [PRESUMED: log 55] -/
def State.mfDevice (s : State) (side : Side) : List Byte :=
  let ss := side == .superSpeed
  [18, 1] ++ le16 (if ss then 0x0320 else 0x0210) ++ [0xEF, 2, 1, if ss then 9 else 0x40] ++ le16 s.vendorId.toNat ++ le16 0x851A ++ le16 0x0B00 ++
    [0, 0, 1, 1]

/-- An endpoint of the MF with its companion on the SuperSpeed side. -/
def mfEp (side : Side) (addr attrs : Byte) (interval : Byte) : List Byte :=
  let mps := if attrs = 3 then 64 else if side = .superSpeed then 1024 else 512
  [7, 5, addr, attrs] ++ le16 mps ++ [interval] ++
    (if side = .superSpeed then [6, 0x30, 0, 0] ++ le16 (if attrs = 3 then 64 else 0) else [])

/-- The CDC ACM function of UART slot `u` (R288). -/
def mfCdc (side : Side) (u : Nat) : List Byte :=
  let b := fun (n : Nat) => BitVec.ofNat 8 n
  [8, 11, b (1 + 2 * u), 2, 2, 2, 1, 0] ++ [9, 4, b (1 + 2 * u), 0, 1, 2, 2, 1, 0] ++
    [5, 0x24, 0, 0x10, 1, 5, 0x24, 1, 0, b (2 + 2 * u), 4, 0x24, 2, 6, 5, 0x24, 6, b (1 + 2 * u), b (2 + 2 * u)] ++
    mfEp side (b (0x84 + 2 * u)) 3 8 ++ [9, 4, b (2 + 2 * u), 0, 2, 10, 0, 0, 0] ++ mfEp side (b (3 + 2 * u)) 2 0 ++ mfEp side (b (0x83 + 2 * u)) 2 0

/-- The configuration of the MF: the vendor interface on endpoint numbers 1 and 2, then the six UART slots. [PRESUMED: log 55] -/
def mfConfig (side : Side) (type : Byte) : List Byte :=
  configOver 13 type ([9, 4, 0, 0, 3, 0xFF, 0, 0, 0] ++ mfEp side 0x01 2 0 ++ mfEp side 0x81 2 0 ++ mfEp side 0x82 3 1 ++
    (List.range 6).flatMap (mfCdc side))

/-- The BOS of the MF; its Container ID takes the top hub's index. [PRESUMED: log 55] -/
def mfBos (k : Part) (side : Side) : List Byte :=
  let id := containerCap (containerId k 0)
  match side with
  | .superSpeed => bosOver [usb2Ext, [10, 16, 3, 0] ++ le16 0x0008 ++ [3, 1] ++ le16 0x0010, id]
  | .usb2 => bosOver [usb2Ext, id]

/-- A descriptor of the MF. -/
def State.mfGetDescriptor (s : State) (k : Part) (side : Side) (type index : Nat) : Option (List Byte) :=
  match type with
  | 1 => some (s.mfDevice side)
  | 2 => if index = 0 then some (mfConfig side 2) else none
  | 3 => if index = 0 then some [4, 3, 9, 4] else if index = 1 then some (stringDesc (serialChars k none)) else none
  | 6 => if side = .usb2 then some ([10, 6] ++ le16 0x0210 ++ [0xEF, 2, 1, 0x40, 1, 0]) else none
  | 7 => if side = .usb2 && index == 0 then some (mfConfig side 7) else none
  | 15 => some (mfBos k side)
  | _ => none

/-! ## Port status (USB 2.0 11.24.2.7, USB 3.2 10.16.2.6, R43) -/

/-- The link state code of wPortStatus. -/
def vlinkCode (v : VPort) : Nat :=
  match v.link with
  | .u0 => 0
  | .u1 => 1
  | .u2 => 2
  | .u3 => 3
  | .disabled => if v.connected then 4 else 5
  | .recovery => 8

/-- wPortStatus and wPortChange of a virtual port. `resetting` and `speed` are those of the port behind it; a USB 2.0 port shows the speed
that a host reset has found (Table 3.6 step 4). -/
def portStatus (side : Side) (v : VPort) (resetting l1 : Bool) (speed : Speed) : List Byte :=
  match side with
  | .superSpeed =>
    let on := v.powered
    let speedBits := if speed = .gen2x1 then 1 else 0
    le16 (bnat (on && v.connected) + 2 * bnat (on && v.enabled) + 16 * bnat resetting + 32 * (if on then vlinkCode v else 4) + 512 * bnat on +
        1024 * speedBits) ++
      le16 (bnat v.cConnect + 16 * bnat v.cReset + 32 * bnat v.cBhReset + 64 * bnat v.cLink)
  | .usb2 =>
    le16 (bnat v.connected + 2 * bnat v.enabled + 4 * bnat v.suspended + 16 * bnat resetting + 32 * bnat l1 + 256 +
        512 * bnat (v.connected && v.speedKnown && speed == .low) + 1024 * bnat (v.connected && v.speedKnown && speed == .high) +
        2048 * bnat (v.test != 0)) ++
      le16 (bnat v.cConnect + 2 * bnat v.cEnable + 4 * bnat v.cSuspend + 16 * bnat v.cReset + 32 * bnat v.cL1)

end Sys2Proof.Machine
end

