-- ==== Sys2Proof/Machine/SlotPower.lean ====
section
/-! DEFINITION. Slot Power Controllers: states, trips, the latch, the disable sequence, settings and reports (R294–R307, R321–R323). -/

namespace Sys2Proof.Machine

open Sys2Proof

/-- Change one slot. -/
def State.updSlot (s : State) (k : Slot) (f : SlotState → SlotState) : State := { s with slots := s.slots.upd k f }

/-- The code of a slot state (Table 9.15). -/
def slotCode : SlotSt → Nat
  | .empty => 0
  | .seating => 1
  | .idle => 2
  | .ramp => 3
  | .pgWait => 4
  | .on => 5
  | .cooldown => 6
  | .latched => 7

/-- Whether the gate is driven: RAMP, PG_WAIT or ON (Table 9.4). -/
def gateOn (x : SlotState) : Bool := x.st == .ramp || x.st == .pgWait || x.st == .on

/-- SPCn_PGD: high in ON only (Table 9.4). -/
def pgdHigh (x : SlotState) : Bool := x.st == .on

/-- A slot event, held while its power-die link is down (R323). -/
def State.spcEvent (s : State) (k : Slot) (code : Nat) (payload : List Byte) : State :=
  let d := dieOfSlot k
  if (s.powerLinks.get d).up then s.slotEvent k code payload
  else
    let e : EventOut := { code := BitVec.ofNat 16 code, target := slotTarget k, payload, audience := s.slotAudience k }
    { s with powerLinks := s.powerLinks.upd d (fun x => { x with held := x.held ++ [e] }) }

/-! ## Hold (R319) -/

/-- The code of a hold cause (PPC_GET). -/
def holdCode : HoldCause → Nat
  | .oc => 1
  | .noPgood => 2
  | .pgoodLost => 3
  | .noDischarge => 4
  | .wire => 5

/-- Entry into hold: the contract ends without Hard Reset, VBUS is removed with a discharge, a fault record is made. A
NO_DISCHARGE hold at Table 8.9 step 3 stops PD on the port. -/
def State.enterHold (s : State) (p : Port) (c : HoldCause) : State :=
  let stop := c == .noDischarge && (s.pd.get p).hr == some .discharge
  let s := (s.endContract p 2).updPd p (fun x => { x with stopped := x.stopped || stop })
  let s := s.updVbus p (fun v => { v with hold := some c, heldOver := none, discharging := v.discharging || c != .noDischarge })
  (s.writeWord p).detect (0x400 + p.val) 0x40 (holdCode c)

/-- A cause of hold arises: at once, or after a firmware pause (R319). In Midnight the wake logic writes EN = 0 for a valid
OC = 1 (R338). -/
def State.holdPort (s : State) (p : Port) (c : HoldCause) : State :=
  if (s.vbus.get p).hold.isSome then s
  else if s.fw.paused then
    let off := s.mode == .midnight && c == .oc
    s.updVbus p (fun v => { v with heldOver := some (v.heldOver.getD c), shadow := if off then idleWord else v.shadow })
  else s.enterHold p c

/-- Whether the conditions under which VBUS at vSafe0V needs no report hold: the slot has left ON or its chain has left UP (R318). -/
def State.noReportNeeded (s : State) (p : Port) : Bool :=
  !s.slotSeenOn (slotOf p) || (s.chains.get (slotOf p)).st != .up

/-! ## Leaving ON (R303, R304) -/

/-- The chain goes DOWN and the ports of the slot are no longer released (Table 9.10, R304); a FAULT ends with its event (R323). -/
def State.chainDown (s : State) (k : Slot) : State :=
  let c := s.chains.get k
  let s := if c.st = .fault then s.spcEvent k 0x8603 [BitVec.ofNat 8 c.faultKind, 0xFF, 0xFF, 1] else s
  let s := { s with chains := s.chains.put k {} }
  forAll (portsOfSlot k) (fun s p => s.updVbus p (fun v => { v with released := false, awaitPgood := false })) s

/-- A slot leaves ON other than by ENABLE = 0: PDEk ends every contract; a disable sequence ends at that moment, answered OK
(R303, R307). -/
def State.leaveOn (s : State) (k : Slot) : State :=
  let was := (s.slots.get k).disabling
  let s := s.updSlot k (fun x => { x with disabling := false, enable := x.enable && !was, unseen := false })
  let s := s.chainDown k
  let s := forAll (portsOfSlot k) (fun s p => (s.endContract p 2).refreshWord p) s
  if was then s.answer (.slotDisable k) stOK [] else s

/-! ## Trips (R300) -/

/-- SLOT_TRIP (Table 11.15). [DEDUCED: log 66] -/
def State.slotTripEvent (s : State) (k : Slot) (kind : Byte) (counted : Bool) (inj : Bool) : State :=
  let x := s.slots.get k
  let off := if x.st = .cooldown then 10 * x.spc.tFault else 0
  (s.spcEvent k 0x8601 ([kind, BitVec.ofNat 8 (bnat counted), BitVec.ofNat 8 x.tripsInWindow, BitVec.ofNat 8 (slotCode x.st)] ++
      le16 off ++ le16 x.peakSense.toNat)).report
    { source := BitVec.ofNat 12 (0x160 + k.val), kind := 0x50, info := kind.setWidth 32, injected := inj }

/-- The gate goes off into a state; leaving ON takes the ports' contracts with it, once the core die learns of it over the power-die link
(R303). With the link down the chain's FAULT ends them, or the link's return. [DEDUCED: log 66] -/
def State.gateOff (s : State) (k : Slot) (dest : SlotSt) : State :=
  let wasOn := (s.slots.get k).st == .on
  let s := s.updSlot k (fun x => { x with st := dest })
  if !wasOn then s
  else if (s.powerLinks.get (dieOfSlot k)).up then s.leaveOn k
  else s.updSlot k (fun x => { x with unseen := true })

/-- A counted trip: LATCHED where RETRY = 0 or the budget is reached, otherwise COOLDOWN (R300). `atBudget` takes the count
as having reached TRIP_BUDGET (Table 12.7, SLOT_LATCHED). -/
def State.trip (s : State) (k : Slot) (kind : Byte) (inj atBudget : Bool) : State :=
  let x := s.slots.get k
  let n := if atBudget then max x.spc.tripBudget (x.tripsInWindow + 1) else x.tripsInWindow + 1
  let latch := !x.spc.retry || x.spc.tripBudget ≤ n
  let s := s.updSlot k (fun x =>
    { x with tripsInWindow := min 63 n, tripsTotal := satAdd 16 x.tripsTotal 1, lastTripKind := kind })
  let s := s.gateOff k (if latch then .latched else .cooldown)
  let s := s.slotTripEvent k kind true inj
  if latch then
    (s.spcEvent k 0x8602 ([BitVec.ofNat 8 (min 63 n), 0] ++ le16 x.spc.tripWindow)).report
      { source := BitVec.ofNat 12 (0x160 + k.val), kind := 0x51, info := BitVec.ofNat 32 (min 63 n), injected := inj }
  else s

/-- The sense voltage seen, for PEAK_SENSE. -/
def State.notePeak (s : State) (k : Slot) (sense : Nat) : State :=
  s.updSlot k (fun x => { x with peakSense := BitVec.ofNat 16 (max x.peakSense.toNat (min 65535 sense)) })

/-- Fast trip: sense at 3 × VCB in RAMP, PG_WAIT or ON (R294, Table 9.5). -/
def State.fastTrip (s : State) (k : Slot) (sense : Nat) (inj : Bool) : State :=
  if gateOn (s.slots.get k) then (s.notePeak k sense).trip k 0x01 inj false else s

/-- Breaker: sense at or above VCB for T_FAULT (R294, Table 9.5). -/
def State.breakerTrip (s : State) (k : Slot) (sense : Nat) (inj atBudget : Bool) : State :=
  if gateOn (s.slots.get k) then (s.notePeak k sense).trip k 0x02 inj atBudget else s

/-- The ramp-stall check fails, or PG is not reached in 1,000 ms (R299). -/
def State.rampStall (s : State) (k : Slot) (inj : Bool) : State :=
  if (s.slots.get k).st = .ramp then s.trip k 0x03 inj false else s

/-- VOUT or gate below its level for 10 µs in ON (Table 9.5). -/
def State.pgLost (s : State) (k : Slot) (inj : Bool) : State :=
  if (s.slots.get k).st = .on then s.trip k 0x04 inj false else s

/-- Whether a VIN in mV meets the start condition's window. -/
def vinInWindow (c : SlotSettings) (mv : Nat) : Bool := 100 * c.vinUv ≤ mv && mv < 100 * c.vinOv

/-- What the VIN comparators show. -/
def State.noteVin (s : State) (k : Slot) (mv : Nat) : State :=
  s.updSlot k (fun x => { x with vinLow := mv < 100 * x.spc.vinUv, vinHigh := 100 * x.spc.vinOv ≤ mv })

/-- VIN leaves its window: gate off, IDLE, SLOT_TRIP not counted (Table 9.5). -/
def State.vinExit (s : State) (k : Slot) (mv : Nat) (inj : Bool) : State :=
  let s := s.noteVin k mv
  let x := s.slots.get k
  if gateOn x then
    let kind : Byte := if 100 * x.spc.vinOv ≤ mv then 0x11 else 0x10
    (((s.updSlot k (fun x => { x with lastTripKind := kind })).gateOff k .idle)).slotTripEvent k kind false inj
  else s

/-! ## Seat, ramp and retry (Table 9.5) -/

/-- SEAT_N low. -/
def State.seatLow (s : State) (k : Slot) : State :=
  s.updSlot k (fun x => { x with seatLow := true, st := if x.st = .empty then .seating else x.st })

/-- SEAT_N high for 1 µs: EMPTY, a retry cancelled; SLOT_TRIP UNSEATED, not counted, from RAMP, PG_WAIT or ON. -/
def State.seatHigh (s : State) (k : Slot) (inj : Bool) : State :=
  let x := s.slots.get k
  let s := s.updSlot k (fun x => { x with seatLow := false })
  if x.st = .latched || x.st = .empty then s
  else if gateOn x then
    ((s.updSlot k (fun x => { x with lastTripKind := 0x12 })).gateOff k .empty).slotTripEvent k 0x12 false inj
  else s.updSlot k (fun x => { x with st := .empty })

/-- SEAT_N low for SEAT_DEBOUNCE. -/
def State.seatDebounced (s : State) (k : Slot) : State :=
  s.updSlot k (fun x => if x.st = .seating && x.seatLow then { x with st := .idle } else x)

/-- The start condition is met in IDLE. -/
def State.startRamp (s : State) (k : Slot) (mv : Nat) : State :=
  (s.noteVin k mv).updSlot k (fun x =>
    if x.st = .idle && x.enable && vinInWindow x.spc mv then { x with st := .ramp, peakSense := 0 } else x)

/-- The off-time has elapsed (Table 9.5). -/
def State.offTime (s : State) (k : Slot) (mv : Nat) : State :=
  (s.noteVin k mv).updSlot k (fun x =>
    if x.st = .cooldown then
      (if x.enable && vinInWindow x.spc mv then { x with st := .ramp, peakSense := 0 } else { x with st := .idle })
    else x)

/-- The PG conditions hold in RAMP. -/
def State.pgHold (s : State) (k : Slot) : State := s.updSlot k (fun x => if x.st = .ramp then { x with st := .pgWait } else x)

/-- The PG conditions are lost in PG_WAIT. -/
def State.pgConditionsLost (s : State) (k : Slot) : State := s.updSlot k (fun x => if x.st = .pgWait then { x with st := .ramp } else x)

/-- The chain of a slot that is ON starts settling (Table 9.10). -/
def State.chainSettles (s : State) (k : Slot) : State := { s with chains := s.chains.put k { ({} : ChainState) with st := .settling } }

/-- PG_DELAY elapses: ON, SPCn_PGD released, and the chain starts settling (Tables 9.5, 9.10), once the core die learns of it. -/
def State.pgDelay (s : State) (k : Slot) : State :=
  if (s.slots.get k).st = .pgWait then
    let s := s.updSlot k (fun x => { x with st := .on })
    if (s.powerLinks.get (dieOfSlot k)).up then s.chainSettles k else s
  else s

/-- The power-die link is back: what the slot did meanwhile becomes known (R303, R323). [DEDUCED: log 66] -/
def State.slotLearned (s : State) (k : Slot) : State :=
  let s := if (s.slots.get k).unseen then s.leaveOn k else s
  if (s.slots.get k).st = .on && (s.chains.get k).st = .down then s.chainSettles k else s

/-- A counted trip leaves the trailing TRIP_WINDOW (R300). -/
def State.tripAging (s : State) (k : Slot) : State := s.updSlot k (fun x => { x with tripsInWindow := x.tripsInWindow - 1 })

/-- Telemetry is sampled every 1 ms (R296); it reaches the core die over the power-die link. -/
def State.slotSample (s : State) (k : Slot) (vin vout sense : BitVec 12) : State :=
  if (s.powerLinks.get (dieOfSlot k)).up then
    (s.updSlot k (fun x => { x with vin, vout, sense })).notePeak k sense.toNat
  else s.notePeak k sense.toNat

/-! ## The disable sequence (R307) -/

/-- Whether every port of a slot has VBUS at vSafe0V. -/
def State.slotDischarged (s : State) (k : Slot) : Bool := (portsOfSlot k).all (fun p => s.atVSafe0V p)

/-- Step 4: the gate goes off, IDLE; the command is answered. -/
def State.slotDisableEnd (s : State) (k : Slot) : State :=
  let s := (s.updSlot k (fun x => { x with st := .idle, disabling := false })).chainDown k
  let s := forAll (portsOfSlot k) (fun s p => s.refreshWord p) s
  s.answer (.slotDisable k) stOK []

/-- Steps 1–2 on a slot that is ON: EN = 0 with DISCH = 1 for every port, every contract ended without Hard Reset. -/
def State.slotDisableBegin (s : State) (k : Slot) : State :=
  let s := s.updSlot k (fun x => { x with enable := false, disabling := true })
  forAll (portsOfSlot k) (fun s p => (s.endContract p 2).refreshWord p) s

/-- The sequence waits until every port reports vSafe0V. -/
def State.slotDisableCheck (s : State) (k : Slot) : State :=
  if (s.slots.get k).disabling && s.slotDischarged k then s.slotDisableEnd k else s

/-- 650 ms have passed: ports that have not reported vSafe0V enter hold with cause NO_DISCHARGE, and the gate goes off. -/
def State.slotDisableTimeout (s : State) (k : Slot) : State :=
  if (s.slots.get k).disabling then
    (forAll (portsOfSlot k) (fun s p => if s.atVSafe0V p then s else s.holdPort p .noDischarge) s).slotDisableEnd k
  else s

/-- ENABLE set to 0 (Table 9.5); on a slot that is ON the disable sequence starts. -/
def State.slotOff (s : State) (k : Slot) : State :=
  let x := s.slots.get k
  if x.st = .on then (if x.disabling then s else s.slotDisableBegin k)
  else s.updSlot k (fun x => { x with enable := false, st := if x.st = .ramp || x.st = .pgWait then .idle else x.st })

/-! ## Commands (Tables 9.2, 9.14, 11.13) -/

/-- SLOT_ENABLE (R307). -/
def opSlotEnable (m : VcpMsg) (k : Slot) (s : State) : State × Reply :=
  let e := get8 m.payload 0
  if m.payload.length != 1 || 2 ≤ e then refuse s stBadArg
  else if e = 1 then ok (s.updSlot k (fun x => { x with enable := true }))
  else
    let s := s.slotOff k
    if (s.slots.get k).disabling then
      (if s.slotDischarged k then
        (let s := (s.updSlot k (fun x => { x with st := .idle, disabling := false })).chainDown k
         ok (forAll (portsOfSlot k) (fun s p => s.refreshWord p) s))
      else (s, .wait (.slotDisable k)))
    else ok s

/-- SLOT_CLEAR_LATCH (R301). -/
def opSlotClearLatch (m : VcpMsg) (k : Slot) (s : State) : State × Reply :=
  if !m.payload.isEmpty then refuse s stBadArg
  else ok (s.updSlot k (fun x =>
    if x.st = .latched then { x with st := if x.seatLow then .seating else .empty, tripsInWindow := 0 } else x))

/-- The settings a SLOT_SET_LIMITS request names, over the present ones (Table 11.13). -/
def limitsOf (l : List Byte) (c : SlotSettings) : SlotSettings :=
  let v := get16 l 0
  { vcb := if bit v 0 then get16 l 4 else c.vcb
    tFault := if bit v 1 then get16 l 6 else c.tFault
    igate := if bit v 2 then get8 l 8 else c.igate
    pgDelay := if bit v 3 then get8 l 9 else c.pgDelay
    seatDebounce := if bit v 4 then get16 l 10 else c.seatDebounce
    vinUv := if bit v 5 then get16 l 12 else c.vinUv
    vinOv := if bit v 6 then get16 l 14 else c.vinOv
    retry := if bit v 7 then get8 l 16 == 1 else c.retry
    tripBudget := if bit v 8 then get8 l 17 else c.tripBudget
    tripWindow := if bit v 9 then get16 l 18 else c.tripWindow
    vbusStagger := if bit v 10 then get8 l 20 else c.vbusStagger
    cardImaxHs := if bit v 11 then get8 l 21 else c.cardImaxHs
    cardImaxSs := if bit v 12 then get8 l 22 else c.cardImaxSs
    cardFixed := if bit v 13 then BitVec.ofNat 3 (get8 l 23) else c.cardFixed
    cardPps := if bit v 13 then bit (get8 l 23) 3 else c.cardPps
    rSense := if bit v 14 then get32 l 24 else c.rSense }

/-- Whether a request is well formed: every field named is in its range and step (Tables 9.2, 9.14). [DESIGN CHOICE: log 32] -/
def limitsOk (l : List Byte) : Bool :=
  let v := get16 l 0
  let rng := fun (i n lo hi step : Nat) => !bit v i || (lo ≤ n && n ≤ hi && (n - lo) % step == 0)
  l.length == 32 && v < 32768 && get16 l 2 == 0 && get32 l 28 == 0 &&
    rng 0 (get16 l 4) 100 500 25 && rng 1 (get16 l 6) 5 500 5 && rng 2 (get8 l 8) 10 100 10 && rng 3 (get8 l 9) 1 50 1 &&
    rng 4 (get16 l 10) 50 500 10 && rng 5 (get16 l 12) 90 580 5 && rng 6 (get16 l 14) 100 600 5 && rng 7 (get8 l 16) 0 1 1 &&
    rng 8 (get8 l 17) 1 32 1 && rng 9 (get16 l 18) 10 600 1 && rng 10 (get8 l 20) 0 10 1 && rng 11 (get8 l 21) 5 30 5 &&
    rng 12 (get8 l 22) 5 50 5 && rng 13 (get8 l 23) 0 15 1 && rng 14 (get32 l 24) 100 100000 1

/-- What a card profile covers of the RP_LEVEL and the OFFER of a port: the Rp current, and for each PDO its current and its voltage or
PPS (R321). -/
def profileCovers (c : SlotSettings) (j : Fin 32) (x : PdSettings) : List Bool :=
  let imax := 100 * (if j.val < 2 then c.cardImaxSs else c.cardImaxHs)
  decide (rpMa x.rpLevel ≤ imax) :: (offerOf x).flatMap (fun o =>
    [decide (pdoMa o ≤ imax), if isApdo o then c.cardPps
      else pdoMv o == 5000 || (pdoMv o == 9000 && c.cardFixed.getLsbD 0) || (pdoMv o == 15000 && c.cardFixed.getLsbD 1) ||
        (pdoMv o == 20000 && c.cardFixed.getLsbD 2)])

/-- Whether a profile withdraws nothing that the old one covers and a port of the slot names (R321). -/
def State.profileKeeps (s : State) (k : Slot) (old c : SlotSettings) : Bool :=
  (List.finRange 32).all (fun j =>
    let x := (s.pd.get (portAt k j)).cfg
    ((profileCovers old j x).zip (profileCovers c j x)).all (fun a => !a.1 || a.2))

/-- The slot settings a request leaves, where it is allowed (R295, R321). They reach the SPC over the power-die link: one whose link is
down keeps its last programmed thresholds and timers, until frames resume (R19). [DEDUCED: log 66; DESIGN CHOICE: log 97] -/
def State.setLimits (s : State) (k : Slot) (l : List Byte) : Option State :=
  let old := (s.slots.get k).cfg
  let c := limitsOf l old
  if !limitsOk l || c.vinOv < c.vinUv + 10 || !s.profileKeeps k old c then none
  else
    let up := (s.powerLinks.get (dieOfSlot k)).up
    some (s.updSlot k (fun x => { x with cfg := c, spc := if up then c else x.spc }))

/-- SLOT_SET_LIMITS (R295, R321). -/
def opSlotSetLimits (m : VcpMsg) (k : Slot) (s : State) : State × Reply :=
  match s.setLimits k m.payload with
  | none => refuse s stBadArg
  | some t => ok t

/-- The SLOT_SET_LIMITS layout with the values in force (Table 11.13). -/
def limitsBytes (c : SlotSettings) : List Byte :=
  le16 0x7FFF ++ [0, 0] ++ le16 c.vcb ++ le16 c.tFault ++ [BitVec.ofNat 8 c.igate, BitVec.ofNat 8 c.pgDelay] ++ le16 c.seatDebounce ++
    le16 c.vinUv ++ le16 c.vinOv ++ [BitVec.ofNat 8 (bnat c.retry), BitVec.ofNat 8 c.tripBudget] ++ le16 c.tripWindow ++
    [BitVec.ofNat 8 c.vbusStagger, BitVec.ofNat 8 c.cardImaxHs, BitVec.ofNat 8 c.cardImaxSs,
      BitVec.ofNat 8 (c.cardFixed.toNat + 8 * bnat c.cardPps)] ++ le32 c.rSense ++ zeros 4

/-- The power a port has committed, in 0.1 W (Table 9.15). -/
def State.committed (s : State) (p : Port) : Nat :=
  if wordEn (s.frameOf p) then
    match (s.pd.get p).contract with
    | .explicit c => c.mv * c.ma / 100000
    | _ => 5 * classMa.getD (s.idleClass p) 0 / 100
  else 0

/-- The code of a chain state (Table 9.15). -/
def chainCode : ChainSt → Nat
  | .down => 0
  | .settling => 1
  | .up => 2
  | .fault => 3

/-- IDLE_CAUSE (Table 9.15). -/
def idleCause (x : SlotState) : Nat :=
  if x.st != .idle then 0 else if !x.enable then 1 else if x.vinLow then 2 else if x.vinHigh then 3 else 0

/-- The SLOT_GET response (Tables 9.15, 11.13). [DESIGN CHOICE: log 7] -/
def State.slotStatus (s : State) (k : Slot) : List Byte :=
  let x := s.slots.get k
  let seated := x.seatLow && x.st != .empty && x.st != .seating
  let left := if x.st = .cooldown then Config.cooldownLeft s.freeCount % 5001 else 0
  let rel := (List.finRange 32).foldl (fun a j => a + bnat (s.vbus.get (portAt k j)).released * 2 ^ j.val) 0
  [BitVec.ofNat 8 (slotCode x.st),
    BitVec.ofNat 8 (bnat seated + 2 * idleCause x + 8 * chainCode (s.chains.get k).st + 32 * bnat x.enable)] ++
    le16 x.vin.toNat ++ le16 x.vout.toNat ++ le16 x.sense.toNat ++ le16 (min 65535 (x.sense.toNat * 40000 / x.cfg.rSense)) ++
    le16 (min 65535 ((portsOfSlot k).foldl (fun a p => a + s.committed p) 0)) ++
    [BitVec.ofNat 8 x.tripsInWindow, x.lastTripKind] ++ le16 x.tripsTotal ++ le16 left ++ [0, 0] ++ le32 rel ++ limitsBytes x.cfg

/-- SLOT_GET (R322). -/
def opSlotGet (m : VcpMsg) (k : Slot) (s : State) : State × Reply :=
  if !m.payload.isEmpty then refuse s stBadArg else (s.tick, .done stOK (s.slotStatus k))

/-- One port's entry of the PPC_GET response (Table 11.13). -/
def State.ppcEntry (s : State) (p : Port) : List Byte :=
  let v := s.vbus.get p
  let three := fun (f : PairState → Bool) => bnat (f v.oc) + 2 * bnat (f v.pgood) + 4 * bnat (f v.twarn)
  [BitVec.ofNat 8 (posInSlot p).val, BitVec.ofNat 8 (bnat v.released)] ++ le16 v.applied.toNat ++
    [v.byte, BitVec.ofNat 8 (three (·.valid) + 16 * three (·.wireFault)), BitVec.ofNat 8 ((v.hold.map holdCode).getD 0), 0]

/-- PPC_GET of a slot or of a port; a partition-scoped session sees its own ports only (R324). -/
def opPpcGet (m : VcpMsg) (k : Slot) (only : Option Port) (s : State) : State × Reply :=
  let mine := fun (p : Port) => s.isSteward m.session || mfSession (s.partOf.get p) == m.session
  let ports := match only with
    | some p => [p]
    | none => (portsOfSlot k).filter mine
  if !m.payload.isEmpty then refuse s stBadArg
  else (s, .done stOK ([BitVec.ofNat 8 k.val, BitVec.ofNat 8 (chainCode (s.chains.get k).st), BitVec.ofNat 8 ports.length, 0] ++
    ports.flatMap (fun p => s.ppcEntry p)))

end Sys2Proof.Machine
end

