-- ==== Sys2Proof/Machine/Chain.lean ====
section
/-! DEFINITION. The port power chains: frames, what comes back, release of ports, vSafe0V and hold (R304–R305, R309–R320). -/

namespace Sys2Proof.Machine

open Sys2Proof

/-- Change one chain. -/
def State.updChain (s : State) (k : Slot) (f : ChainState → ChainState) : State := { s with chains := s.chains.upd k f }

/-! ## Pairs (R312, Table 9.8) -/

/-- Whether pair `i` (0 OC, 1 PGOOD, 2 TWARN) of an input byte is valid: its two bits differ. -/
def pairValid (b : Byte) (i : Nat) : Bool := bit b.toNat (2 * i) != bit b.toNat (2 * i + 1)

/-- Whether every pair of an input byte is valid. -/
def byteClean (b : Byte) : Bool := pairValid b 0 && pairValid b 1 && pairValid b 2

/-- One frame of one pair: its new state, and the wire fault declared (false) or cleared (true) by it (R312). `failing`: the frame has
invalid pairs on 8 or more positions, so that the chain is failing and no wire fault is declared. [DEDUCED: log 66] -/
def judgePair (b : Byte) (i : Nat) (asserted failing : Bool) (x : PairState) : PairState × Option Bool :=
  if pairValid b i then
    let n := min 100 (x.validRun + 1)
    if x.wireFault && n < 100 then ({ x with valid := true, invalidRun := 0, validRun := n }, none)
    else ({ value := bit b.toNat (2 * i), valid := true, invalidRun := 0, validRun := n, wireFault := false },
      if x.wireFault then some true else none)
  else
    let n := min 3 (x.invalidRun + 1)
    if !x.wireFault && n == 3 && !failing then
      ({ value := asserted, valid := false, invalidRun := n, validRun := 0, wireFault := true }, some false)
    else ({ x with valid := false, invalidRun := n, validRun := 0 }, none)

/-- PPC_LINK_FAULT and the fault record of a wire fault, or the event that it has cleared (R312, R323). -/
def State.wireNote (s : State) (p : Port) (i : Nat) : Option Bool → State
  | none => s
  | some cleared =>
    let k := slotOf p
    let pos := (posInSlot p).val
    let s := s.spcEvent k 0x8603 [3, BitVec.ofNat 8 pos, BitVec.ofNat 8 i, BitVec.ofNat 8 (bnat cleared)]
    if cleared then s else s.detect (0x170 + k.val) 0x53 (pos + 256 * i)

/-! ## vSafe0V (R318) -/

/-- VBUS is taken as being at vSafe0V: a detach is over, Table 8.9 goes on, and a slot disable sequence may end. [DEDUCED: log 66] -/
def State.reachSafe0V (s : State) (p : Port) : State :=
  if (s.vbus.get p).live then
    let s := (s.updVbus p (fun v => { v with live := false })).updPd p (fun x => { x with settling := false })
    ((s.hardResetSafe p).ccEvaluate p).slotDisableCheck (slotOf p)
  else s

/-- 650 ms of discharge are over: no report of vSafe0V is a hold, unless none is needed (R318, R319). -/
def State.dischargeOver (s : State) (p : Port) : State :=
  let was := (s.vbus.get p).discharging
  let s := s.updVbus p (fun v => { v with discharging := false })
  let s :=
    if !(s.vbus.get p).live then s
    else if s.noReportNeeded p then s.reachSafe0V p
    else if was then s.holdPort p .noDischarge
    else s
  s.refreshWord p

/-! ## Release (R304, R305) -/

/-- Whether management firmware may release ports of a slot. -/
def State.mayRelease (s : State) (k : Slot) : Bool :=
  (s.slots.get k).st == .on && (s.chains.get k).st == .up && !s.fw.paused && s.mode != .midnight

/-- Every port whose word would carry EN = 0 is released at once. -/
def State.releaseIdle (s : State) (k : Slot) : State :=
  if s.mayRelease k then
    forAll (portsOfSlot k)
      (fun s p => s.updVbus p (fun v => { v with released := v.released || !wordEn v.shadow })) s
  else s

/-- A VBUS_STAGGER interval ends: the next port with EN = 1, in ascending order, is released. -/
def State.releaseNext (s : State) (k : Slot) : State :=
  let s := s.releaseIdle k
  if s.mayRelease k then
    match (portsOfSlot k).find? (fun p => !(s.vbus.get p).released) with
    | some p =>
      (s.updVbus p (fun v => { v with released := true, awaitPgood := true })).updPd p (fun x => { x with capsCount := 0, capsStopped := false })
    | none => s
  else s

/-- The chain is UP; the ports it holds off are released under R305. -/
def State.chainUp (s : State) (k : Slot) : State :=
  let s := { s with chains := s.chains.put k { ({} : ChainState) with st := .up } }
  let fresh := fun (x : PairState) => { x with invalidRun := 0, validRun := 0 }
  let s := forAll (portsOfSlot k) (fun s p => s.updVbus p (fun v =>
    { v with released := false, oc := fresh v.oc, pgood := fresh v.pgood, twarn := fresh v.twarn })) s
  s.releaseIdle k

/-- Entry into chain FAULT: event, record, contracts ended, EN = 0 and DISCH = 1 in every word (Table 9.10). [DEDUCED: log 66] -/
def State.chainFault (s : State) (k : Slot) (kind : Nat) : State :=
  let s := { s with chains := s.chains.put k { ({} : ChainState) with st := .fault, faultKind := kind } }
  let s := (s.spcEvent k 0x8603 [BitVec.ofNat 8 kind, 0xFF, 0xFF, 0]).detect (0x170 + k.val) 0x52 kind
  forAll (portsOfSlot k) (fun s p => (s.endContract p 2).refreshWord p) s

/-! ## A frame (R311) -/

/-- PGOOD = 1 from inputs loaded later than the word they answer (R318). -/
def State.pgoodSeen (s : State) (p : Port) : State :=
  if wordEn (s.vbus.get p).applied then
    (s.updVbus p (fun v => { v with awaitPgood := false })).updPd p
      (fun x => { x with hr := if x.hr = some .returning then none else x.hr })
  else s.reachSafe0V p

/-- One port of a frame on a chain that is UP: its pairs, TWARN, PGOOD, and the causes of hold (R312, R318–R320). [DEDUCED: log 66] -/
def State.judgePort (s : State) (p : Port) (b : Byte) (failing : Bool) : State :=
  let v := s.vbus.get p
  let (oc, e0) := judgePair b 0 true failing v.oc
  let (pgood, e1) := judgePair b 1 false failing v.pgood
  let (twarn, e2) := judgePair b 2 true failing v.twarn
  let s := s.updVbus p (fun v => { v with byte := b, oc, pgood, twarn })
  let s := ((s.wireNote p 0 e0).wireNote p 1 e1).wireNote p 2 e2
  let s := if twarn.valid && twarn.value && !twarn.wireFault && !v.twarn.value then s.detect (0x600 + p.val) 0x43 0 else s
  let s := if pgood.valid && pgood.value && 1 ≤ v.lats then s.pgoodSeen p else s
  if wordEn v.applied then
    if oc.wireFault || pgood.wireFault then s.holdPort p .wire
    else if oc.valid && oc.value then s.holdPort p .oc
    else s
  else s

/-- The input byte of a port in a frame. -/
def inputByte (input : List Byte) (p : Port) : Byte := input.getD (posInSlot p).val 0

/-- What a frame returns is judged, as the chain's state has it (R312, R313). -/
def State.judgeFrame (s : State) (k : Slot) (input : List Byte) : State :=
  let c := s.chains.get k
  let clean := (portsOfSlot k).all (fun p => byteClean (inputByte input p))
  let bad := (portsOfSlot k).countP (fun p => !byteClean (inputByte input p))
  match c.st with
  | .down => s
  | .settling =>
    let run := if clean && (50 ≤ c.frames || s.mode == .midnight) then c.cleanRun + 1 else 0
    if run = 3 then s.chainUp k else s.updChain k (fun c => { c with frames := min 50 (c.frames + 1), cleanRun := run })
  | .up =>
    let run := if 8 ≤ bad then c.badRun + 1 else 0
    if run = 3 then s.chainFault k 1
    else forAll (portsOfSlot k) (fun s p => s.judgePort p (inputByte input p) (decide (8 ≤ bad))) (s.updChain k (fun c => { c with badRun := run }))
  | .fault =>
    let run := if clean then c.cleanRun + 1 else 0
    if run = 100 then (s.spcEvent k 0x8603 [BitVec.ofNat 8 c.faultKind, 0xFF, 0xFF, 1]).chainUp k else s.updChain k (fun c => { c with cleanRun := run })

/-- The card applies a word of the frame at its LAT (R311, R318). -/
def applyWord (w : BitVec 16) (v : VbusState) : VbusState :=
  { v with applied := w, lats := if w = v.applied then min 2 (v.lats + 1) else 0, live := v.live || wordEn w }

/-- One chain frame: it carries the shadow as it stood at its start, and the inputs loaded at the last LAT come back with it.
The chains stand still in Off (R311). -/
def State.chainFrame (s : State) (k : Slot) (input : List Byte) : State :=
  if s.mode = .off then s
  else
    let words := (portsOfSlot k).map (fun p => (p, s.frameOf p))
    let bits := s.chainOut k
    (forAll words (fun s pw => s.updVbus pw.1 (applyWord pw.2)) (s.judgeFrame k input)).emit (.chainOut k bits)

/-- 100 ms of SETTLING: FAULT, kind NO_RESPONSE (Table 9.10). -/
def State.settlingTimeout (s : State) (k : Slot) : State := if (s.chains.get k).st = .settling then s.chainFault k 2 else s

/-! ## Causes of hold that time brings (R319) -/

/-- Whether a port is one whose flags the chain judges. -/
def State.chainJudges (s : State) (p : Port) : Bool := (s.chains.get (slotOf p)).st == .up && wordEn (s.vbus.get p).applied

/-- No PGOOD within 275 ms of EN = 1 at VSET 0x064; a transition of Table 8.8 has its own bound (R271). -/
def State.noPgoodTimeout (s : State) (p : Port) : State :=
  if s.chainJudges p && (s.vbus.get p).awaitPgood && ((s.pd.get p).trans).isNone then s.holdPort p .noPgood else s

/-- PGOOD = 0 for 10 ms outside a transition. -/
def State.pgoodLostTimeout (s : State) (p : Port) : State :=
  let v := s.vbus.get p
  if s.chainJudges p && !v.awaitPgood && !v.pgood.value && ((s.pd.get p).trans).isNone then s.holdPort p .pgoodLost else s

end Sys2Proof.Machine
end

