-- ==== Sys2Proof/Machine/LiftData.lean ====
section
/-! DEFINITION. Speed Lift II: endpoint contexts, bulk IN pairing and snooping, flow control, bulk OUT, interrupt and isochronous data, poison (chapter 5). -/

namespace Sys2Proof.Machine

open Sys2Proof

/-! ## Contexts and counters (R140, R175) -/

/-- Whether an endpoint address names an IN endpoint. -/
def isIn (a : Byte) : Bool := 128 ≤ a.toNat

/-- The context of an endpoint address, where one is open. -/
def State.ctx (s : State) (p : Port) (a : Byte) : Option EpCtx := (s.lift.get p).bind (fun x => x.ctxs.find? (·.addr == a))

/-- Change the context of an endpoint address. -/
def State.updCtx (s : State) (p : Port) (a : Byte) (f : EpCtx → EpCtx) : State :=
  s.updLift p (fun x => { x with ctxs := x.ctxs.map (fun c => if c.addr = a then f c else c) })

/-- The counters of an endpoint address; they start at zero. -/
def countersOf (l : List (Byte × EpCounters)) (a : Byte) : EpCounters := ((l.find? (·.1 == a)).map (·.2)).getD {}

/-- Change the counters of an endpoint address. -/
def State.count (s : State) (p : Port) (a : Byte) (f : EpCounters → EpCounters) : State :=
  s.updLift p (fun x =>
    if x.counters.any (·.1 == a) then { x with counters := x.counters.map (fun e => if e.1 = a then (a, f e.2) else e) }
    else { x with counters := x.counters ++ [(a, f {})] })

/-- A 32-bit event counter, which saturates. -/
def up1 (n : Nat) : Nat := satAdd 32 n 1

/-- A 64-bit byte counter, which wraps. -/
def upBytes (c : BitVec 64) (n : Nat) : BitVec 64 := c + BitVec.ofNat 64 n

/-- The buffer of an endpoint (R140). -/
def epOwner (p : Port) (a : Byte) : RowOwner := .endpoint p a

/-- The bytes a context's buffer holds. -/
def State.epHeld (s : State) (p : Port) (a : Byte) : Nat := ((s.ring (epOwner p a)).map Ring.held).getD 0

/-- The bytes a context's buffer still has room for. -/
def State.epRoom (s : State) (p : Port) (a : Byte) : Nat :=
  ((s.ring (epOwner p a)).map (fun r => 1024 * r.rows.length - r.held)).getD 0

/-- Discard what a context holds, counting it: half, ready packets and packets still to be sent. -/
def State.discardCtx (s : State) (p : Port) (a : Byte) : State :=
  let n := s.epHeld p a
  let s := s.count p a (fun c => { c with bytesDiscarded := upBytes c.bytesDiscarded n })
  (s.ringClear (epOwner p a)).updCtx p a (fun c =>
    { c with pair := .empty, ready := [], lasts := [], out := [], grid := [], pingNext := false, again := false, offset := 0, fresh := true })

/-! ## The settings in force (R152, R153) -/

/-- The interface that holds an endpoint address in the alternate settings in force. -/
def LiftPort.ifaceOf (x : LiftPort) (a : Byte) : Option IfDesc :=
  (x.asRead.config x.config).bind (fun c =>
    ((c.ifs.map (·.num)).eraseDups.filterMap (c.inForce x.alts)).find? (fun i => i.eps.any (·.addr == a)))

/-- Whether a context follows SNOOP_BOT now: its mode is SNOOP_BOT and the endpoint is eligible in force (R153). -/
def LiftPort.snoops (x : LiftPort) (c : EpCtx) : Bool :=
  c.mode == .snoopBot && ((x.ifaceOf c.addr).map (fun i => i.botEligible c.addr)).getD false

/-- The mode and window with which a context opens (Table 5.6). -/
def LiftPort.boundaryOf (x : LiftPort) (i : IfDesc) (a : Byte) : Boundary × Nat :=
  let set := x.settings.find? (·.addr == a)
  let dflt : Boundary := if i.botEligible a then .snoopBot else .hold
  ((set.bind (·.mode)).getD dflt, (set.bind (·.window)).getD 32)

/-- The kind of an endpoint. -/
def EpDesc.kind (e : EpDesc) : EpKind :=
  match e.type with
  | 1 => .isochronous
  | 3 => .interrupt
  | _ => .bulk

/-- A context as it opens (R121 step 4). -/
def LiftPort.fresh (x : LiftPort) (i : IfDesc) (e : EpDesc) : EpCtx :=
  { addr := e.addr, kind := e.kind, mps := e.mps % 2048, extra := e.mps / 2048 % 4, interval := e.interval,
    mode := (x.boundaryOf i e.addr).1, window := (x.boundaryOf i e.addr).2 }

/-- The contexts of an interface's alternate setting. -/
def LiftPort.freshOf (x : LiftPort) (i : IfDesc) : List EpCtx := i.eps.map (fun e => x.fresh i e)

/-! ## Whether the two sides move -/

/-- Whether the host side of a lifted port passes data: presented, its bus running or in L1, and not before the first token that a resume
allows (R92, R135). -/
def State.hostMoves (s : State) (p : Port) : Bool :=
  let x := s.ports.get p
  (x.st == .enabled || x.st == .l1) && ((s.lift.get p).map (fun l => l.presented && l.recover == 0)).getD false

/-- Whether PCEj issues tokens on a lifted bus: enabled, its recovery after a resume over (Table 3.11), its die's link active (R17). -/
def State.busMoves (s : State) (p : Port) : Bool :=
  (s.ports.get p).st == .enabled && ((s.lift.get p).map (fun x => x.presented && x.recover == 0)).getD false && s.dieUp p

/-- Whether a control packet that was on the wire when PORT_QUENCH took effect still completes (Table 4.14). -/
def State.wireEnds (s : State) (p : Port) : Bool :=
  (s.ports.get p).st == .quenched && ((s.lift.get p).map (fun x => x.presented && (x.ctl.map (·.wire)).getD false)).getD false && s.dieUp p

/-- A host's packet for a position takes its path to U0: UPk, and the virtual link, leave U1 or U2 (R192, Table 6.7). [DEDUCED: log 101] -/
def State.useLink (s : State) (p : Port) : State :=
  let k := s.partOf.get p
  let s := s.updUp k (fun u =>
    if u.link == .u1 || u.link == .u2 then
      { u with link := .u0, counters := { u.counters with linkRecoveries := satAdd 32 u.counters.linkRecoveries 1 } }
    else u)
  s.updLeaf k .superSpeed (s.posOf.get p) (fun v => if v.link == .u1 || v.link == .u2 then { v with link := .u0 } else v)

/-- Whether a tracked request in flight has stopped the tokens of an endpoint (R122 step 1). -/
def LiftPort.tokensStopped (x : LiftPort) (a : Byte) : Bool :=
  match x.ctl with
  | some t => t.req.bmRequestType == 0x02 && t.req.bRequest == 1 && t.req.wIndex.toNat % 256 == a.toNat
  | none => false

/-- The lifted bytes a partition may move in a 1 ms frame: LIFT_CAP, in Evening the lower of it and the Evening cap (R55);
none without a cap. [DEDUCED: log 58] -/
def State.frameCap (s : State) (k : Part) : Option Nat :=
  let own := (s.parts.get k).cfg.liftCap
  let evening := s.capped
  if own = 0 then (if evening then some (1000 * s.modeCfg.eveningLiftCap) else none)
  else some (1000 * (if evening then min own s.modeCfg.eveningLiftCap else own))

/-- The bytes that a link at the Gen 2x1 figure of Table 6.2 sends in a 1 ms frame (R188). -/
def gen2x1Frame : Nat := 1100000

/-- Whether a port's partition is paced now (R145), or its two-lane link in Evening (R188). [DEDUCED: log 58] -/
def State.paced (s : State) (p : Port) : Bool :=
  let k := s.partOf.get p
  (match s.frameCap k with
    | some n => n ≤ (s.parts.get k).frameBytes
    | none => false) || ((s.ups.get k).paced && gen2x1Frame ≤ (s.parts.get k).frameUp)

/-- Lifted bytes count towards the cap (R145), and those sent upstream towards the Gen 2x1 figure too (R188). [DEDUCED: log 58] -/
def State.useFrame (s : State) (p : Port) (n : Nat) (up : Bool) : State :=
  s.updPart (s.partOf.get p) (fun x => { x with frameBytes := x.frameBytes + n, frameUp := if up then x.frameUp + n else x.frameUp })

/-! ## Poison (R169–R172) -/

/-- LIFT_POISON with its record (R171): `held` bytes are discarded. -/
def State.poisonNote (s : State) (p : Port) (a : Byte) (src : Byte) (offset held : Nat) : State :=
  let s := s.count p a (fun c => { c with bytesDiscarded := upBytes c.bytesDiscarded held, poisonings := up1 c.poisonings })
  let s := s.portEvent p 0x8402 ([a, src, 0, 0] ++ le64 offset ++ le64 held)
  s.detect (0x800 + p.val) 0x60 (a.toNat + 256 * src.toNat)

/-- Poison a context from its read position on: everything it holds is discarded (R169). [DEDUCED: log 89] -/
def State.poisonCtx (s : State) (p : Port) (a : Byte) (src : Byte) : State :=
  match s.ctx p a with
  | none => s
  | some c =>
    let held := s.epHeld p a
    let s := s.ringClear (epOwner p a)
    let s := s.updCtx p a (fun c =>
      { c with poisoned := true, halted := true, pair := .empty, ready := [], lasts := [], out := [], grid := [], again := false })
    s.poisonNote p a src c.offset held

/-- A failed port-die link poisons a context (R169): the SuperSpeed packets of an IN endpoint made ready from earlier data stay to be
delivered, and what it holds after them is discarded; of an OUT endpoint everything held is. -/
def State.poisonLink (s : State) (p : Port) (a : Byte) : State :=
  match s.ctx p a with
  | none => s
  | some c =>
    let ready := if isIn a then c.ready.sum else 0
    let held := s.epHeld p a - ready
    let s := s.ringKeep (epOwner p a) ready
    let s := s.updCtx p a (fun c =>
      { c with poisoned := true, halted := true, pair := .empty, ready := if isIn a then c.ready else [],
               lasts := if isIn a then c.lasts else [], out := [], grid := [], again := false })
    s.poisonNote p a 0x03 (c.offset + ready) held

/-- Poison EP0 (R170): OFFSET counts what the transfer has delivered. -/
def State.poisonEp0 (s : State) (p : Port) (src : Byte) : State :=
  let held := ((s.ring (.control p)).map Ring.held).getD 0
  let offset := (((s.lift.get p).bind (·.ctl)).map (·.sent)).getD 0
  let s := (s.ringClear (.control p)).updLift p (fun x => { x with ep0Poisoned := true, ep0Halted := true, ctl := none })
  s.poisonNote p 0 src offset held

/-! ## Making packets ready (R143, Table 5.4) -/

/-- ERDY goes out where an NRDY awaits it and something waits for the host, unless pacing delays it (R143, R145). [DEDUCED: log 89] -/
def State.erdy (s : State) (p : Port) (a : Byte) : State :=
  match s.ctx p a with
  | none => s
  | some c =>
    let waits := if isIn a then !c.ready.isEmpty || c.stall else c.stall || 1024 ≤ s.epRoom p a
    if c.nrdy && waits && (s.hostMoves p || (s.ports.get p).st == .draining) && !(c.kind == .bulk && s.paced p) then
      (s.updCtx p a (fun c => { c with nrdy := false })).emit (.ssErdy p a)
    else s

/-- A SuperSpeed packet of a length becomes ready. -/
def State.makeReady (s : State) (p : Port) (a : Byte) (n : Nat) : State :=
  (s.updCtx p a (fun c => { c with ready := c.ready ++ [n] })).erdy p a

/-- What happens on a bulk IN endpoint, as Table 5.4 sees it. -/
inductive InEvent where
  | packet (n : Nat)
  | stall
  | expiry
deriving DecidableEq, Repr

/-- What Table 5.4 gives: the packets made ready, the next state, whether the device transfer ended, whether a zero-length
packet was absorbed. -/
structure PairStep where
  ready : List Nat
  next : PairReg
  ended : Bool
  absorbed : Bool
deriving DecidableEq, Repr

/-- Table 5.4. -/
def pairStep (r : PairReg) (e : InEvent) : PairStep :=
  match r, e with
  | .empty, .packet n =>
    if n = 512 then { ready := [], next := .half, ended := false, absorbed := false }
    else { ready := [n], next := .empty, ended := true, absorbed := false }
  | .half, .packet n =>
    if n = 512 then { ready := [1024], next := .empty, ended := false, absorbed := false }
    else { ready := [512 + n], next := .empty, ended := true, absorbed := n == 0 }
  | .released, .packet n =>
    if n = 512 then { ready := [], next := .half, ended := false, absorbed := false }
    else if n = 0 then { ready := [], next := .empty, ended := true, absorbed := true }
    else { ready := [n], next := .empty, ended := true, absorbed := false }
  | .half, .expiry => { ready := [512], next := .released, ended := false, absorbed := false }
  | r, .expiry => { ready := [], next := r, ended := false, absorbed := false }
  | .half, .stall => { ready := [512], next := .empty, ended := true, absorbed := false }
  | _, .stall => { ready := [], next := .empty, ended := true, absorbed := false }

/-- Apply Table 5.4 to a context. -/
def State.pairApply (s : State) (p : Port) (a : Byte) (e : InEvent) : State :=
  match s.ctx p a with
  | none => s
  | some c =>
    let t := pairStep c.pair e
    let s := s.updCtx p a (fun c => { c with pair := t.next })
    let s := if t.absorbed then s.count p a (fun k => { k with zlpAbsorbed := up1 k.zlpAbsorbed }) else s
    forAll t.ready (fun s n => s.makeReady p a n) s

/-- A held half is released at once as a 512-byte packet (R155, R156, Table 5.11). -/
def State.releaseHalf (s : State) (p : Port) (a : Byte) : State :=
  match s.ctx p a with
  | some c => if c.pair = .half then (s.updCtx p a (fun c => { c with pair := .empty })).makeReady p a 512 else s
  | none => s

/-! ## SNOOP_BOT (R154, R155) -/

/-- What Table 5.7 makes of an IN packet: the next state, whether a half then left is released at once, whether it is a
mismatch, whether the packet goes out alone. -/
structure SnoopStep where
  next : Snoop
  flush : Bool := false
  mismatch : Bool := false
  alone : Bool := false
deriving DecidableEq, Repr

/-- Table 5.7, for an IN packet of `n` bytes. -/
def snoopStep (st : Snoop) (n : Nat) : SnoopStep :=
  match st with
  | .expectCbw => { next := .expectCbw }
  | .dataIn r =>
    if r < n then { next := .expectCbw, mismatch := true }
    else if n = 512 then (if r = 512 then { next := .expectCsw, flush := true } else { next := .dataIn (r - 512) })
    else { next := .expectCsw }
  | .expectCsw => if n = 13 then { next := .expectCbw, alone := true } else { next := .expectCbw, mismatch := true }

/-- A CBW: its data length and whether it is IN (R154). -/
def cbwOf (bytes : List Byte) : Option (Nat × Bool) :=
  if bytes.length = 31 && bytes.take 4 == [0x55, 0x53, 0x42, 0x43] then some (get32 bytes 8, bit (get8 bytes 12) 7) else none

/-- A CBW is recognised for a bulk IN context (Table 5.7): a half held is released, and the register is EMPTY. -/
def State.onCbw (s : State) (p : Port) (a : Byte) (len : Nat) (isInDir : Bool) : State :=
  let s := s.count p a (fun k => { k with cbwSeen := up1 k.cbwSeen })
  let s := s.releaseHalf p a
  s.updCtx p a (fun c => { c with pair := .empty, snoop := if isInDir && 0 < len then .dataIn len else .expectCsw })

/-- The bulk IN contexts in SNOOP_BOT that snoop a bulk OUT endpoint. -/
def LiftPort.snoopersOf (x : LiftPort) (out : Byte) : List Byte :=
  (x.ctxs.filter (fun c => isIn c.addr && c.kind == .bulk && x.snoops c &&
    ((x.ifaceOf c.addr).bind IfDesc.botOut) == some out)).map (·.addr)

/-- The snoop states of the Bulk-Only interface that holds an endpoint return to EXPECT_CBW (Table 5.7, last row). -/
def State.resetSnoop (s : State) (p : Port) (a : Byte) : State :=
  match s.lift.get p with
  | none => s
  | some x =>
    match x.ifaceOf a with
    | none => s
    | some i =>
      if i.cls = 0x08 && i.proto = 0x50 then
        s.updLift p (fun x => { x with ctxs := x.ctxs.map (fun c =>
          if i.eps.any (·.addr == c.addr) then { c with snoop := .expectCbw } else c) })
      else s

/-! ## Bulk IN from the device (R142, R150, R155, R156) -/

/-- Whether PCEj may issue an IN token to a bulk endpoint (R142). -/
def State.inTokens (s : State) (p : Port) (c : EpCtx) : Bool :=
  s.busMoves p && !c.poisoned && !c.halted && !c.stall && !(((s.lift.get p).map (fun x => x.tokensStopped c.addr)).getD false) &&
    512 ≤ s.epRoom p c.addr && (c.interest || c.nrdy) && !(c.kind == .bulk && s.paced p)

/-- Data discarded up to the end of the device's transfer after LIFT_CLEAR_POISON (Table 5.10). [DEDUCED: log 88] -/
def State.skimData (s : State) (p : Port) (c : EpCtx) (snooping : Bool) (n : Nat) : State :=
  let t := snoopStep c.snoop n
  let phase := match c.snoop with
    | .dataIn _ => snooping
    | _ => false
  let ends := if phase then (match t.next with
      | .dataIn _ => false
      | _ => true) else n < 512
  (s.count p c.addr (fun k => { k with bytesDiscarded := upBytes k.bytesDiscarded n })).updCtx p c.addr (fun c =>
    { c with skim := !ends, snoop := if phase then t.next else c.snoop })

/-- A bulk IN packet enters its context (Tables 5.4, 5.7, R156). -/
def State.takeIn (s : State) (p : Port) (a : Byte) (bytes : List Byte) : State :=
  let n := bytes.length
  match s.lift.get p, s.ctx p a with
  | some x, some c =>
    let snooping := x.snoops c
    if c.skim then s.skimData p c snooping n
    else
      let s := s.ringWrite (epOwner p a) bytes
      if c.mode = .immediate then
        (s.updCtx p a (fun c => { c with pair := if n < 512 then .empty else c.pair })).makeReady p a n
      else if snooping then
        let t := snoopStep c.snoop n
        let s := s.updCtx p a (fun c => { c with snoop := t.next })
        let s := if t.mismatch then s.count p a (fun k => { k with snoopMismatch := up1 k.snoopMismatch }) else s
        let s := if t.alone && c.pair == .empty then s.makeReady p a n else s.pairApply p a (.packet n)
        if t.flush then s.releaseHalf p a else s
      else s.pairApply p a (.packet n)
  | _, _ => s

/-- The hold window of a held half expires (R151, Table 5.4). -/
def State.expireHalf (s : State) (p : Port) (a : Byte) : State :=
  match s.lift.get p, s.ctx p a with
  | some x, some c =>
    let inData := x.snoops c && (match c.snoop with
      | .dataIn _ => true
      | _ => false)
    if c.pair = .half && c.mode != .immediate && !inData then
      (s.count p a (fun k => { k with holdReleases := up1 k.holdReleases })).pairApply p a .expiry
    else s
  | _, _ => s

/-- The hold window's expiring NAK, which is a NAK too (R151, R175). -/
def State.holdExpiry (s : State) (p : Port) (a : Byte) : State :=
  match s.ctx p a with
  | some c =>
    if isIn a && c.kind == .bulk && s.inTokens p c then (s.count p a (fun k => { k with hsNaks := up1 k.hsNaks })).expireHalf p a else s
  | none => s

/-- What a lifted device answers to an IN token of a bulk endpoint (R150). A packet of an endpoint a tracked request has
stopped completes on the wire and is counted as discarded (Table 4.14). -/
def State.bulkIn (s : State) (p : Port) (a : Byte) (r : InAnswer) : State :=
  match s.lift.get p with
  | none => s
  | some x =>
    match x.ctxs.find? (·.addr == a) with
    | none =>
      match x.stopped.find? (·.addr == a), r with
      | some _, .data bytes =>
        (s.count p a (fun k => { k with bytesDown := upBytes k.bytesDown bytes.length, hsPackets := up1 k.hsPackets,
                                        bytesDiscarded := upBytes k.bytesDiscarded bytes.length })).updLift p (fun x =>
          { x with stopped := x.stopped.map (fun c => if c.addr = a then { c with toggle := !c.toggle } else c) })
      | _, _ => s
    | some c =>
      if isIn a && c.kind == .bulk && s.inTokens p c then
        match r with
        | .data bytes =>
          let s := s.count p a (fun k => { k with bytesDown := upBytes k.bytesDown bytes.length, hsPackets := up1 k.hsPackets })
          let s := (s.updCtx p a (fun c => { c with toggle := !c.toggle })).takeIn p a bytes
          if (s.ctx p a).any (s.inTokens p) then s.emit (.dsIn p a) else s
        | .nak =>
          let s := s.count p a (fun k => { k with hsNaks := up1 k.hsNaks })
          if c.window = 0 then s.expireHalf p a else s
        | .stall =>
          let s := s.updCtx p a (fun c =>
            { c with stall := true, skim := false, snoop := match c.snoop with
              | .dataIn _ => if x.snoops c then .expectCsw else c.snoop
              | o => o })
          (s.pairApply p a .stall).erdy p a
        | .busError => s
      else s

/-! ## To the host: IN (R143) -/

/-- The longest packet of a presented IN endpoint: 1,024 bytes, or m for a periodic endpoint with a = 0 (Table 4.6). -/
def EpCtx.ssMax (c : EpCtx) : Nat := if c.kind != .bulk && c.extra == 0 then c.mps else 1024

/-- Send the oldest ready packets, at most `n`; a lost byte poisons the endpoint (R143, R169). The last packet of a periodic interval is
marked last (R157). [DEDUCED: log 59] -/
def sendReady : Nat → Port → Byte → State → State
  | 0, _, _, s => s
  | n + 1, p, a, s =>
    match s.ctx p a with
    | none => s
    | some c =>
      match c.ready with
      | [] => s
      | len :: rest =>
        let (s, r) := s.ringPeek (epOwner p a) 0 len
        match r.lost with
        | some src => s.poisonCtx p a src
        | none =>
          let s := (s.ringDrop (epOwner p a) len).useFrame p len true
          let s := s.count p a (fun k =>
            { k with bytesUp := upBytes k.bytesUp len, ssPackets := up1 k.ssPackets,
                     zlpForwarded := if len = 0 then up1 k.zlpForwarded else k.zlpForwarded })
          let s := s.updCtx p a (fun c =>
            { c with ready := rest, lasts := c.lasts.drop 1, seq := c.seq + 1, offset := if len < c.ssMax then 0 else c.offset + len })
          sendReady n p a (s.emit (if c.lasts.headD false then .ssDataLast p a r.bytes else .ssData p a r.bytes))

/-- For each packet of an interval whether it is the last one. -/
def lastMarks (l : List Nat) : List Bool := (List.range l.length).map (fun i => i + 1 == l.length)

/-- The packets of an isochronous interval of `n` bytes (Table 5.8). -/
def isoPackets (c : EpCtx) (n : Nat) : List Nat :=
  if c.extra = 0 then [n] else List.replicate (n / 1024) 1024 ++ (if n % 1024 = 0 then [] else [n % 1024])

/-- Whether a datum of the isochronous pipeline has stood in it for 8 micro-frames (R161). [DEDUCED: log 58] -/
def State.isoDue (s : State) (g : Nat × Option Nat) : Bool :=
  let d := (s.microframe.toNat + 65536 - g.1) % 65536
  8 ≤ d && d < 32768

/-- The bus interval of UPk that starts in micro-frame `m` as its timestamps give it (R160); none without a timestamp. [DEDUCED: log 58] -/
def State.busInterval (s : State) (k : Part) (m : Nat) : Option Nat :=
  (s.ups.get k).isoPhase.map (fun f => (f.1 + (m + 65536 - f.2.2) % 65536) % 16384)

/-- The service interval of a periodic context, in micro-frames. -/
def EpCtx.every (c : EpCtx) : Nat := 2 ^ (min 16 c.interval - 1)

/-- A host's isochronous opportunity fixes which bus interval of the service interval it takes (R161). [DEDUCED: log 58] -/
def State.noteOpportunity (s : State) (p : Port) (a : Byte) : State :=
  let now := s.microframe.toNat
  match s.busInterval (s.partOf.get p) now with
  | some b => s.updCtx p a (fun c => { c with lastB := some now, phase := b % c.every })
  | none => s.updCtx p a (fun c => { c with lastB := some now })

/-- An isochronous IN opportunity: the oldest datum collected 8 micro-frames before or earlier, or a zero-length packet; a second
opportunity in one micro-frame is a slip (R161–R164). At most `m` packets of it go out now. [DEDUCED: log 58] -/
def State.isoInOpportunity (s : State) (p : Port) (a : Byte) (c : EpCtx) (m : Nat) : State :=
  let now := s.microframe.toNat
  let zlp := fun (s : State) => (s.count p a (fun k => { k with ssPackets := up1 k.ssPackets })).emit (.ssDataLast p a [])
  if c.lastB = some now then zlp (s.count p a (fun k => { k with isoSlips := up1 k.isoSlips }))
  else
    let s := s.noteOpportunity p a
    match c.grid with
    | [] => zlp s
    | g :: rest =>
      if !s.isoDue g then zlp s
      else
        let s := s.updCtx p a (fun c => { c with grid := rest, seq := 0 })
        match g.2 with
        | none => zlp s
        | some n =>
          let lens := if n = 0 then [0] else isoPackets c n
          sendReady m p a (s.updCtx p a (fun c => { c with ready := lens, lasts := lastMarks lens }))

/-- A poisoned or halted endpoint answers STALL (R170). -/
def State.answerStall (s : State) (p : Port) (a : Byte) : State :=
  (s.updCtx p a (fun c => { c with stall := false, halted := true, nrdy := false })).emit (.ssStall p a)

/-- Not ready: NRDY, whose ERDY is then awaited. -/
def State.answerNrdy (s : State) (p : Port) (a : Byte) : State := (s.updCtx p a (fun c => { c with nrdy := true })).emit (.ssNrdy p a)

/-- Ready packets answer an ACK transaction packet; where the first is found lost, STALL does (R143, R169, R170). -/
def State.answerReady (s : State) (p : Port) (a : Byte) (c : EpCtx) (n : Nat) : State :=
  let s := sendReady (min n 8) p a (s.updCtx p a (fun c => { c with nrdy := false }))
  if !c.poisoned && 0 < n && (s.ctx p a).any (fun d => d.poisoned && d.seq == c.seq) then s.answerStall p a else s

/-- A host's ACK transaction packet that requests `n` packets of a presented IN endpoint (R143, R170, R192). [DEDUCED: log 59] -/
def State.ackTp (s : State) (p : Port) (a : Byte) (n : Nat) : State :=
  match s.ctx p a with
  | none => s
  | some c =>
    if !isIn a || !((s.lift.get p).map (·.presented)).getD false then s
    else
      let draining := (s.ports.get p).st == .draining
      let s := (s.useLink p).updCtx p a (fun c => { c with interest := true })
      if !s.hostMoves p && !draining then s.answerNrdy p a
      else if c.kind = .isochronous then (if c.poisoned || c.halted || c.stall then s.answerStall p a else s.isoInOpportunity p a c (max 1 n))
      else if !c.ready.isEmpty && (!c.halted || c.poisoned) then s.answerReady p a c n
      else if c.poisoned || c.halted || c.stall then s.answerStall p a
      else s.answerNrdy p a

/-- 1 ms after the last ACK transaction packet the interest lapses (R142). -/
def State.interestLapse (s : State) (p : Port) (a : Byte) : State := s.updCtx p a (fun c => { c with interest := false })

/-! ## Bulk OUT (R144, R148, R149, R176) -/

/-- The High-Speed packets of a SuperSpeed bulk OUT packet (Table 5.3), each with whether it ends the transfer. -/
def outPackets (n : Nat) : List (Nat × Bool) :=
  if n = 1024 then [(512, false), (512, false)]
  else if 512 < n then [(512, false), (n - 512, true)]
  else [(n, true)]

/-- Whether OUT or PING tokens may go to a context now; a drain still delivers (R17, R74, R122, R170). -/
def State.outTokens (s : State) (p : Port) (c : EpCtx) : Bool :=
  (s.busMoves p || ((s.ports.get p).st == .draining && s.dieUp p)) && !c.poisoned &&
    !(((s.lift.get p).map (fun x => x.tokensStopped c.addr)).getD false)

/-- Put the head packet of a bulk OUT context on the wire, or a PING after NAK or NYET (R85); a lost byte poisons the
endpoint (R169). -/
def State.sendOut (s : State) (p : Port) (a : Byte) : State :=
  match s.ctx p a with
  | none => s
  | some c =>
    match c.out with
    | [] => s
    | (len, _) :: _ =>
      if !s.outTokens p c then s
      else
        let s := s.updCtx p a (fun c => { c with again := false })
        if c.pingNext then s.emit (.dsPing p a)
        else
          let (s, r) := s.ringPeek (epOwner p a) 0 len
          match r.lost with
          | some src => s.poisonCtx p a src
          | none => s.emit (.dsData p a r.bytes)

/-- The packet count of an acknowledgement: the whole slots of 1,024 bytes still free, at most 8, none while pacing delays (R144, R145). -/
def State.slotsFree (s : State) (p : Port) (a : Byte) : Nat := if s.paced p then 0 else min 8 (s.epRoom p a / 1024)

/-- A host data packet on a presented bulk OUT endpoint (R144, R170, R192). -/
def State.bulkOut (s : State) (p : Port) (a : Byte) (bytes : List Byte) : State :=
  match s.lift.get p, s.ctx p a with
  | some x, some c =>
    let n := bytes.length
    if isIn a || c.kind != .bulk || !x.presented then s
    else
      let s := s.useLink p
      if !s.hostMoves p then s.answerNrdy p a
      else if c.poisoned || c.halted || c.stall then s.answerStall p a
      else if s.epRoom p a < 1024 then s.answerNrdy p a
      else
        let idle := c.out.isEmpty
        let s := (s.ringWrite (epOwner p a) bytes).useFrame p n false
        let s := s.count p a (fun k => { k with bytesUp := upBytes k.bytesUp n, ssPackets := up1 k.ssPackets })
        let s := match (if c.fresh then cbwOf bytes else none) with
          | some (len, isInDir) => forAll (x.snoopersOf a) (fun s b => s.onCbw p b len isInDir) s
          | none => s
        let left := s.slotsFree p a
        let s := s.updCtx p a (fun c => { c with out := c.out ++ outPackets n, seq := c.seq + 1, fresh := n < 1024, nrdy := left == 0 })
        let s := s.emit (.ssAck p a left)
        if idle then s.sendOut p a else s
  | _, _ => s

/-- A downstream OUT transaction, or PING, of a bulk endpoint completes (R85, R144). After NAK, NYET or a NAKed PING the next token waits
for the next micro-frame, which is at least 2 µs later in its bulk part. [DEDUCED: log 59] -/
def State.bulkOutDone (s : State) (p : Port) (a : Byte) (r : OutAnswer) : State :=
  match s.ctx p a with
  | none => s
  | some c =>
    match c.out with
    | [] => s
    | (len, ends) :: rest =>
      if isIn a || c.kind != .bulk || c.poisoned then s
      else
        let nak := fun (s : State) => s.count p a (fun k => { k with hsNaks := up1 k.hsNaks })
        let taken := fun (s : State) (ping : Bool) =>
          let s := (s.ringDrop (epOwner p a) len).count p a (fun k =>
            { k with bytesDown := upBytes k.bytesDown len, hsPackets := up1 k.hsPackets,
                     zlpForwarded := if len = 0 then up1 k.zlpForwarded else k.zlpForwarded })
          (s.updCtx p a (fun c =>
            { c with out := rest, toggle := !c.toggle, pingNext := ping, again := ping, offset := if ends then 0 else c.offset + len })).erdy p a
        match r with
        | .ack => if c.pingNext then (s.updCtx p a (fun c => { c with pingNext := false })).sendOut p a else (taken s false).sendOut p a
        | .nyet => taken (nak s) true
        | .nak => (nak s).updCtx p a (fun c => { c with pingNext := true, again := true })
        | .busError => s.sendOut p a

/-- A device STALL on an OUT endpoint discards the data still held for it (R176). -/
def State.bulkOutStall (s : State) (p : Port) (a : Byte) : State :=
  match s.ctx p a with
  | none => s
  | some c => if isIn a || c.poisoned then s else ((s.discardCtx p a).updCtx p a (fun c => { c with stall := true })).erdy p a

/-! ## Interrupt and isochronous endpoints (R157–R164) -/

/-- The packets of one interrupt interval: up to the first one shorter than `m`, or `n` packets (R157). -/
def intervalTaken (m : Nat) : Nat → List (List Byte) → List (List Byte)
  | 0, _ => []
  | _ + 1, [] => []
  | n + 1, b :: rest => if b.length < m then [b] else b :: intervalTaken m n rest

/-- The SuperSpeed packets of an interval of `n` bytes (Table 5.8). -/
def intervalPackets (extra n : Nat) : List Nat :=
  if extra = 0 then [n]
  else if n = 0 then [0]
  else List.replicate (n / 1024) 1024 ++ (if n % 1024 = 0 then [] else [n % 1024])

/-- The bytes of one full interval of a context. -/
def EpCtx.intervalMax (c : EpCtx) : Nat := c.mps * (c.extra + 1)

/-- The intervals that a host's bytes on an interrupt OUT endpoint make, none longer than wBytesPerInterval (R158). [DEDUCED: log 59] -/
def intervalLens (m n : Nat) : List Nat :=
  if n ≤ m || m == 0 then [n] else List.replicate (n / m) m ++ (if n % m = 0 then [] else [n % m])

/-- The toggle of a context after a number of its packets. -/
def EpCtx.toggleBy (c : EpCtx) (n : Nat) : Bool := if n % 2 = 0 then c.toggle else !c.toggle

/-- What a periodic IN interval brought is counted. -/
def State.countInterval (s : State) (p : Port) (a : Byte) (l : List (List Byte)) : State :=
  s.count p a (fun k => { k with bytesDown := upBytes k.bytesDown l.flatten.length, hsPackets := satAdd 32 k.hsPackets l.length })

/-- A periodic IN interval discarded after LIFT_CLEAR_POISON, up to and including the device's next short packet (Table 5.10). -/
def State.skimInterval (s : State) (p : Port) (c : EpCtx) (l : List (List Byte)) : State :=
  (s.count p c.addr (fun k => { k with bytesDiscarded := upBytes k.bytesDiscarded l.flatten.length })).updCtx p c.addr (fun c =>
    { c with skim := !l.any (fun b => decide (b.length < c.mps)) })

/-- A periodic IN interval of an interrupt endpoint (R157). -/
def State.interruptIn (s : State) (p : Port) (c : EpCtx) (l : List (List Byte)) : State :=
  let a := c.addr
  let l := intervalTaken c.mps (c.extra + 1) l
  let s := (s.countInterval p a l).updCtx p a (fun c => { c with toggle := c.toggleBy l.length })
  if c.skim then s.skimInterval p c l
  else
    let lens := intervalPackets c.extra l.flatten.length
    ((s.ringWrite (epOwner p a) l.flatten).updCtx p a (fun c => { c with ready := c.ready ++ lens, lasts := c.lasts ++ lastMarks lens })).erdy p a

/-- A datum, or a missed one, enters the pipeline of an isochronous context (R161, R164). -/
def State.isoEnter (s : State) (p : Port) (a : Byte) (n : Option Nat) : State :=
  s.updCtx p a (fun c => { c with grid := c.grid ++ [(s.microframe.toNat, n)] })

/-- A periodic IN interval of an isochronous endpoint, collected for the opportunity 8 micro-frames on (R161). -/
def State.isoIn (s : State) (p : Port) (c : EpCtx) (l : List (List Byte)) : State :=
  let a := c.addr
  let l := l.take (c.extra + 1)
  let s := s.countInterval p a l
  if c.skim then (s.skimInterval p c l).isoEnter p a none
  else
    let bytes := l.flatten.take c.intervalMax
    (s.ringWrite (epOwner p a) bytes).isoEnter p a (some bytes.length)

/-- Cut bytes into packets of `m`. -/
def cutPackets (m : Nat) : Nat → List Byte → List (List Byte)
  | 0, _ => []
  | n + 1, b => if b.length ≤ m then [b] else b.take m :: cutPackets m n (b.drop m)

/-- Put an interval of a periodic OUT endpoint on the wire in packets of m bytes (R158). -/
def State.sendInterval (s : State) (p : Port) (a : Byte) (c : EpCtx) (len : Nat) : State :=
  let (s, r) := s.ringPeek (epOwner p a) 0 len
  match r.lost with
  | some src => s.poisonCtx p a src
  | none =>
    let l := cutPackets c.mps (c.extra + 1) r.bytes
    let s := (s.ringDrop (epOwner p a) len).count p a (fun k =>
      { k with bytesDown := upBytes k.bytesDown len, hsPackets := satAdd 32 k.hsPackets l.length,
               zlpForwarded := if len = 0 then up1 k.zlpForwarded else k.zlpForwarded })
    (s.updCtx p a (fun c => { c with toggle := c.toggleBy l.length })).emits (l.map (fun b => .dsData p a b))

/-- Whether a periodic endpoint is due in the present micro-frame: an interrupt endpoint where its service interval starts, an isochronous
IN endpoint where the bus interval 8 micro-frames on is the host's opportunity (R161), an isochronous OUT endpoint where its oldest datum
was received 8 micro-frames before or earlier; none of the isochronous ones in a micro-frame in which no bus interval starts (R163). [DEDUCED: log 58] -/
def State.dueNow (s : State) (p : Port) (c : EpCtx) : Bool :=
  let k := s.partOf.get p
  let now := s.microframe.toNat
  if c.kind == .interrupt then now % c.every == 0
  else if (s.ups.get k).isoSkip then false
  else if isIn c.addr then c.lastB.isSome && ((s.busInterval k (now + 8)).map (fun b => b % c.every == c.phase)).getD false
  else (c.grid.head?.map s.isoDue).getD false

/-- Whether PCEj has a transaction for a periodic endpoint in the present micro-frame (R122, R157, R158, R170). -/
def State.periodicDue (s : State) (p : Port) (c : EpCtx) : Bool :=
  c.kind != .bulk && !c.poisoned && !c.halted && !c.stall && s.dueNow p c &&
    (if isIn c.addr then s.busMoves p && !(((s.lift.get p).map (fun x => x.tokensStopped c.addr)).getD false) && c.intervalMax ≤ s.epRoom p c.addr
     else s.outTokens p c && (c.kind == .isochronous || !c.out.isEmpty))

/-- The bytes of a micro-frame that a periodic endpoint's transactions take, with the protocol overhead of USB 2.0. [PRESUMED: log 91] -/
def EpCtx.busTime (c : EpCtx) : Nat := (c.extra + 1) * (c.mps + if c.kind == .isochronous then 38 else 55)

/-- The periodic endpoints, in order, that fit in a number of bytes. [PRESUMED: log 91] -/
def periodicFit : Nat → List EpCtx → List EpCtx
  | _, [] => []
  | n, c :: rest => if c.busTime ≤ n then c :: periodicFit (n - c.busTime) rest else periodicFit n rest

/-- The periodic transaction of an endpoint in the present micro-frame, with what the device answered to it (R157, R158, R161, R164); a
poll that brings nothing is its token alone. [DEDUCED: log 70] -/
def State.periodic (s : State) (p : Port) (c : EpCtx) (answer : Option PeriodicAnswer) : State :=
  let a := c.addr
  let nak := fun (s : State) => s.count p a (fun k => { k with hsNaks := up1 k.hsNaks })
  if isIn a then
    let s := s.emit (.dsIn p a)
    match answer with
    | some (.packets l) => if c.kind = .interrupt then s.interruptIn p c l else s.isoIn p c l
    | some .nak => if c.kind = .interrupt then nak s else s.isoIn p c []
    | some .stall => if c.kind = .interrupt then (s.updCtx p a (fun c => { c with stall := true, skim := false })).erdy p a else s.isoIn p c []
    | some .error =>
      if c.kind = .isochronous then (s.count p a (fun k => { k with isoMissed := up1 k.isoMissed })).isoEnter p a none else s
    | _ => s
  else if c.kind = .interrupt then
    match c.out, answer with
    | (len, _) :: rest, some .taken => ((s.sendInterval p a c len).updCtx p a (fun c => { c with out := if c.poisoned then [] else rest })).erdy p a
    | _, some .nak => nak s
    | _, some .stall => s.bulkOutStall p a
    | _, _ => s
  else
    match c.grid with
    | g :: rest =>
      let s := match g.2 with
        | some n => s.sendInterval p a c n
        | none => s
      s.updCtx p a (fun c => { c with grid := if c.poisoned then [] else rest })
    | [] => s

/-- A host's interrupt OUT service interval (R158). -/
def State.interruptOut (s : State) (p : Port) (a : Byte) (bytes : List Byte) : State :=
  match s.ctx p a with
  | none => s
  | some c =>
    let n := bytes.length
    let packets := max 1 ((n + 1023) / 1024)
    if isIn a || c.kind != .interrupt || !((s.lift.get p).map (·.presented)).getD false then s
    else
      let s := s.useLink p
      if !s.hostMoves p then s.answerNrdy p a
      else if c.poisoned || c.halted || c.stall then s.answerStall p a
      else if s.epRoom p a < n then s.answerNrdy p a
      else
        let s := (s.ringWrite (epOwner p a) bytes).useFrame p n false
        let s := s.count p a (fun k => { k with bytesUp := upBytes k.bytesUp n, ssPackets := satAdd 32 k.ssPackets packets })
        let s := s.updCtx p a (fun c =>
          { c with out := c.out ++ (intervalLens c.intervalMax n).map (fun m => (m, true)), seq := c.seq + BitVec.ofNat 5 packets })
        s.emit (.ssAck p a (min 8 (s.epRoom p a / 1024)))

/-- A host's isochronous OUT data of one opportunity; `bad` when it was received with an error (R161, R163, R164, R170). -/
def State.isoOut (s : State) (p : Port) (a : Byte) (bytes : List Byte) (bad : Bool) : State :=
  match s.ctx p a with
  | none => s
  | some c =>
    let n := bytes.length
    if isIn a || c.kind != .isochronous || !s.hostMoves p then s
    else
      let s := s.useLink p
      if c.poisoned || c.halted || c.stall then s.answerStall p a
      else if c.lastB = some s.microframe.toNat then s.count p a (fun k => { k with isoSlips := up1 k.isoSlips })
      else
        let s := s.noteOpportunity p a
        if bad then s.count p a (fun k => { k with isoMissed := up1 k.isoMissed })
        else if s.epRoom p a < n then s
        else
          let s := (s.ringWrite (epOwner p a) bytes).useFrame p n false
          let s := s.count p a (fun k => { k with bytesUp := upBytes k.bytesUp n, ssPackets := satAdd 32 k.ssPackets (max 1 ((n + 1023) / 1024)) })
          s.isoEnter p a (some n)

/-- The ports with a lifted side. -/
def State.liftedPorts (s : State) : List Port := allPorts.filter (fun p => (s.lift.get p).isSome)

/-! ## Commands and drains (R152, R172, R175, Table 5.11) -/

/-- A drain begins: held halves are released at once (Table 5.11, C). -/
def State.releaseHalves (s : State) (p : Port) : State :=
  match s.lift.get p with
  | none => s
  | some x => forAll (x.ctxs.filter (fun c => !c.poisoned)) (fun s c => s.releaseHalf p c.addr) s

/-- Whether a lifted port holds accepted data that can still be delivered. -/
def State.deliverable (s : State) (p : Port) : Bool :=
  match s.lift.get p with
  | none => false
  | some x => x.ctxs.any (fun c => !c.poisoned && (!c.ready.isEmpty || !c.out.isEmpty || c.grid.any (·.2.isSome)))

/-- The bytes a lifted port's endpoint buffers hold. -/
def State.liftHeld (s : State) (p : Port) : Nat :=
  match s.lift.get p with
  | none => 0
  | some x => (x.ctxs.map (fun c => s.epHeld p c.addr)).sum

/-- Close every context, discarding and counting what it holds (R121, R132, Table 4.12 step 1); the bytes discarded. -/
def State.closeContexts (s : State) (p : Port) : State × Nat :=
  match s.lift.get p with
  | none => (s, 0)
  | some x =>
    let n := s.liftHeld p
    let s := forAll x.ctxs (fun s c => s.discardCtx p c.addr) s
    (s.updLift p (fun x => { x with ctxs := [], stopped := [] }), n)

end Sys2Proof.Machine
end

