-- ==== Sys2Proof/Machine/LiftCtl.lean ====
section
/-! DEFINITION. Speed Lift I, control: contexts opened and closed by requests, the treatment of standard requests (Table 4.9), control transfer repacking (R124–R128). -/

namespace Sys2Proof

open Sys2Proof.Machine

/-! ## Requests -/

/-- The request type of a SETUP: 0 standard, 1 class, 2 vendor, 3 reserved. -/
def Setup.type (r : Setup) : Nat := field r.bmRequestType.toNat 5 2

/-- Whether a SETUP has an IN data stage. -/
def Setup.isRead (r : Setup) : Bool := bit r.bmRequestType.toNat 7 && r.wLength != 0

/-- Whether a SETUP is a standard request of a bmRequestType and bRequest. -/
def Setup.is (r : Setup) (bm : Byte) (req : Nat) : Bool := r.bmRequestType == bm && r.bRequest.toNat == req

/-- The endpoint a request names. -/
def Setup.endpoint (r : Setup) : Byte := BitVec.ofNat 8 r.wIndex.toNat

/-- CLEAR_FEATURE(ENDPOINT_HALT). -/
def Setup.isClearHalt (r : Setup) : Bool := r.is 0x02 1 && r.wValue == 0
/-- SET_FEATURE(ENDPOINT_HALT). -/
def Setup.isSetHalt (r : Setup) : Bool := r.is 0x02 3 && r.wValue == 0
/-- SET_CONFIGURATION. -/
def Setup.isSetConfig (r : Setup) : Bool := r.is 0x00 9
/-- SET_INTERFACE. -/
def Setup.isSetInterface (r : Setup) : Bool := r.is 0x01 11
/-- Bulk-Only Mass Storage Reset. -/
def Setup.isBotReset (r : Setup) : Bool := r.bmRequestType == 0x21 && r.bRequest == 0xFF

end Sys2Proof

namespace Sys2Proof.Machine

open Sys2Proof

/-! ## Contexts of configurations and interfaces (R121) -/

/-- The configuration in force of a lifted side. -/
def LiftPort.conf (x : LiftPort) : Option ConfDesc := x.asRead.config x.config

/-- The alternate setting in force of an interface. -/
def LiftPort.altOf (x : LiftPort) (i : Nat) : Nat := ((x.alts.find? (·.1 == i)).map (·.2)).getD 0

/-- The endpoint addresses of the alternate setting in force of an interface. -/
def LiftPort.addrsOf (x : LiftPort) (i : Nat) : List Byte :=
  ((x.conf.bind (fun c => c.inForce x.alts i)).map (fun d => d.eps.map (·.addr))).getD []

/-- The endpoint addresses a request replaces (R121 step 1). -/
def LiftPort.replaced (x : LiftPort) (r : Setup) : List Byte :=
  if r.isSetConfig then x.ctxs.map (·.addr)
  else if r.isSetInterface then x.addrsOf (r.wIndex.toNat % 256)
  else []

/-- On the SETUP of a tracked request: the contexts it replaces stop and their data is discarded and counted (R121 steps 1–2). -/
def State.stopReplaced (s : State) (p : Port) (r : Setup) : State :=
  match s.lift.get p with
  | none => s
  | some x =>
    let gone := x.replaced r
    let s := forAll gone (fun s a => s.discardCtx p a) s
    s.updLift p (fun x =>
      { x with stopped := x.stopped ++ x.ctxs.filter (fun c => gone.contains c.addr), ctxs := x.ctxs.filter (fun c => !gone.contains c.addr) })

/-- Failure of a tracked request: the stopped contexts reopen as they were, without the discarded data (R120, R121). -/
def State.reopenStopped (s : State) (p : Port) : State :=
  s.updLift p (fun x => { x with ctxs := x.ctxs ++ x.stopped, stopped := [] })

/-- Success of SET_CONFIGURATION: the contexts of alternate setting 0 of every interface open (R121 step 4). -/
def State.configured (s : State) (p : Port) (value : Nat) : State :=
  s.updLift p (fun x =>
    let x := { x with config := value, alts := [], stopped := [] }
    match x.conf with
    | none => { x with ctxs := [], functions := [] }
    | some c =>
      let ifs := (c.ifs.map (·.num)).eraseDups.filterMap (c.inForce [])
      { x with ctxs := ifs.flatMap x.freshOf, functions := c.functions.map (fun n => { first := n }) })

/-- Success of SET_INTERFACE: the contexts of the new alternate setting open (R121 step 4). -/
def State.altSet (s : State) (p : Port) (i alt : Nat) : State :=
  s.updLift p (fun x =>
    let x := { x with alts := (x.alts.filter (·.1 != i)) ++ [(i, alt)], stopped := [] }
    match x.conf.bind (fun c => c.inForce x.alts i) with
    | none => x
    | some d => { x with ctxs := x.ctxs ++ x.freshOf d })

/-- Success of CLEAR_FEATURE(ENDPOINT_HALT) (R122 steps 3–4). -/
def State.haltCleared (s : State) (p : Port) (a : Byte) : State :=
  if a.toNat % 128 = 0 then s.updLift p (fun x => { x with ep0Poisoned := false, ep0Halted := false })
  else
    let s := s.discardCtx p a
    let s := s.updCtx p a (fun c =>
      { c with seq := 0, toggle := false, halted := false, poisoned := false, stall := false, localClear := false, skim := false })
    s.resetSnoop p a

/-- The clear-halt that LIFT_CLEAR_POISON has made local (Table 5.10). [DEDUCED: log 88] -/
def State.haltClearedLocally (s : State) (p : Port) (a : Byte) : State :=
  let s := s.discardCtx p a
  let keep := ((s.lift.get p).bind (fun x => (s.ctx p a).map (fun c => x.snoops c && (match c.snoop with
    | .dataIn _ => true
    | _ => false)))).getD false
  let s := s.updCtx p a (fun c => { c with seq := 0, halted := false, localClear := false, stall := false, skim := isIn a })
  if keep then s else s.resetSnoop p a

/-- What the Lift engine does of a forwarded request whose status stage the device has completed (R119–R122, Table 5.7). -/
def State.ctlEffect (s : State) (p : Port) (r : Setup) : State :=
  if r.isSetConfig then s.configured p (r.wValue.toNat % 256)
  else if r.isSetInterface then s.altSet p (r.wIndex.toNat % 256) (r.wValue.toNat % 256)
  else if r.isClearHalt then s.haltCleared p r.endpoint
  else if r.isSetHalt then s.updCtx p r.endpoint (fun c => { c with halted := true })
  else if r.isBotReset then
    match (s.lift.get p).bind (fun x => x.conf.bind (fun c => c.inForce x.alts (r.wIndex.toNat % 256))) with
    | some i => match i.eps with
      | e :: _ => s.resetSnoop p e.addr
      | [] => s
    | none => s
  else s

/-! ## Forwarded control transfers (R124–R128) -/

/-- Change the control transfer of a port. -/
def State.updCtl (s : State) (p : Port) (f : CtlXfer → CtlXfer) : State := s.updLift p (fun x => { x with ctl := x.ctl.map f })

/-- Put the head of a control write's data on the wire where the bus allows tokens: up to 64 bytes (R125). -/
def State.sendCtlOut (s : State) (p : Port) : State :=
  match (s.lift.get p).bind (·.ctl) with
  | none => s
  | some t =>
    if t.moved = t.sent || t.wire || !s.busMoves p then s
    else
      let (s, r) := s.ringPeek (.control p) 0 (min 64 (t.moved - t.sent))
      match r.lost with
      | some src => s.poisonEp0 p src
      | none => (s.updCtl p (fun t => { t with wire := true })).emit (.dsData p 0 r.bytes)

/-- The device has completed the status stage: the request takes effect and the presented status stage completes (R119–R122, R127). -/
def State.ctlFinish (s : State) (p : Port) (r : Setup) : State :=
  let s := (s.ringClear (.control p)).updLift p (fun x => { x with ctl := none })
  (s.ctlEffect p r).emit (.ssStatus p)

/-- Move a forwarded transfer on where its bus allows tokens: its SETUP, or the token its stage stands at. -/
def State.kickCtl (s : State) (p : Port) : State :=
  match (s.lift.get p).bind (·.ctl) with
  | none => s
  | some t =>
    let token := fun (s : State) (st : CtlStage) (e : Emission) => (s.updCtl p (fun t => { t with stage := st, wire := true })).emit e
    if !s.busMoves p || t.wire then s
    else match t.stage with
      | .setup =>
        let s := (s.updCtl p (fun t => { t with begun := false })).emit (.dsSetup p 1 t.req)
        if t.req.wLength = 0 then token s .status (.dsIn p 0)
        else if t.req.isRead then token s .dataIn (.dsIn p 0)
        else s.updCtl p (fun t => { t with stage := .dataOut })
      | .dataIn => token s .dataIn (.dsIn p 0)
      | .dataOut => s.sendCtlOut p
      | .status => token s .status (if t.req.isRead then .dsData p 0 [] else .dsIn p 0)
      | .done => s.ctlFinish p t.req

/-- ERDY on EP0 where a not-ready answer awaits it and EP0 can go on (R124, R127). -/
def State.erdy0 (s : State) (p : Port) : State :=
  match s.lift.get p with
  | none => s
  | some x =>
    let ready := match x.ctl with
      | none => x.held.isNone && x.reset.isNone
      | some t => t.stage == .dataOut && t.moved - t.sent ≤ 512
    if x.nrdy0 && ready && s.hostMoves p then (s.updLift p (fun x => { x with nrdy0 := false })).emit (.ssErdy p 0) else s

/-- EP0 is not ready; its ERDY is then awaited. -/
def State.nrdy0 (s : State) (p : Port) : State := (s.updLift p (fun x => { x with nrdy0 := true })).emit (.ssNrdy p 0)

/-- A request is forwarded verbatim (R101, R123). -/
def State.forwardCtl (s : State) (p : Port) (r : Setup) : State :=
  let s := s.stopReplaced p r
  (s.updLift p (fun x => { x with ctl := some { req := r, stage := .setup }, nrdy0 := false })).kickCtl p

/-- The transfer under way is abandoned at a packet boundary; a tracked one leaves the state as it was (R120, Table 4.14). -/
def State.dropCtl (s : State) (p : Port) : State :=
  match (s.lift.get p).bind (·.ctl) with
  | none => s
  | some _ => (((s.ringClear (.control p)).updLift p (fun x => { x with ctl := none })).reopenStopped p)

/-- A forwarded transfer has failed: STALL on the presented EP0 (R120, R127, R128). -/
def State.failCtl (s : State) (p : Port) : State := (s.dropCtl p).emit (.ssStall p 0)

/-- A bus error on a control transaction: it is issued again, and the third in a row fails the transfer (R128). -/
def State.ctlBusError (s : State) (p : Port) (t : CtlXfer) : State :=
  if t.errors = 2 then s.failCtl p else (s.updCtl p (fun t => { t with errors := t.errors + 1, wire := false })).kickCtl p

/-- A NAK on a control transaction: its token waits for the control time of the next micro-frame (R84, R128). -/
def State.ctlNak (s : State) (p : Port) : State :=
  (s.count p 0 (fun k => { k with hsNaks := up1 k.hsNaks })).updCtl p (fun t => { t with errors := 0, wire := false, begun := true })

/-- Whether the packet of a control transfer that is on the wire completes now (R128, Table 4.14). -/
def State.ctlAnswered (s : State) (p : Port) (t : CtlXfer) : Bool := t.wire && (s.busMoves p || s.wireEnds p)

/-- A host data packet of a control write (R124, R125). -/
def State.ctlOutPacket (s : State) (p : Port) (bytes : List Byte) : State :=
  match (s.lift.get p).bind (·.ctl) with
  | none => s
  | some t =>
    if t.req.isRead || t.req.wLength == 0 || t.ended then s
    else if !s.hostMoves p || t.moved - t.sent + bytes.length > 1024 || t.stage != .dataOut then s.nrdy0 p
    else
      let n := min bytes.length (t.req.wLength.toNat - t.moved)
      let s := (s.ringWrite (.control p) (bytes.take n)).count p 0 (fun k =>
        { k with bytesUp := upBytes k.bytesUp n, ssPackets := up1 k.ssPackets })
      let ended := t.moved + n == t.req.wLength.toNat || bytes.length < 512
      let s := (s.updCtl p (fun t => { t with moved := t.moved + n, ended })).emit (.ssAck p 0 1)
      if ended && t.moved + n == t.sent then (s.updCtl p (fun t => { t with stage := .status })).kickCtl p
      else s.sendCtlOut p

/-- A downstream SETUP or OUT transaction of EP0 completes (R125, R128). [DEDUCED: log 60] -/
def State.ctlOutDone (s : State) (p : Port) (r : OutAnswer) : State :=
  match (s.lift.get p).bind (·.ctl) with
  | none => s
  | some t =>
    if r == .busError && !t.begun && t.stage != .setup && (t.stage != .dataOut || !t.wire) && (s.busMoves p || s.wireEnds p) then
      (s.updCtl p (fun t => { t with stage := .setup })).ctlBusError p t
    else if t.stage != .dataOut || !s.ctlAnswered p t then s
    else match r with
      | .nak => s.ctlNak p
      | .busError => s.ctlBusError p t
      | _ =>
        let n := min 64 (t.moved - t.sent)
        let s := if r == .nyet then s.count p 0 (fun k => { k with hsNaks := up1 k.hsNaks }) else s
        let s := (s.ringDrop (.control p) n).count p 0 (fun k =>
          { k with bytesDown := upBytes k.bytesDown n, hsPackets := up1 k.hsPackets })
        let last := t.ended && t.sent + n == t.moved
        let s := s.updCtl p (fun t =>
          { t with sent := t.sent + n, errors := 0, wire := false, begun := true, stage := if last then .status else .dataOut })
        (s.kickCtl p).erdy0 p

/-- Present what a control read holds: packets of 512 bytes, and at the end of the stage the rest (R126). -/
def presentRead : Nat → Port → State → State
  | 0, _, s => s
  | n + 1, p, s =>
    match (s.lift.get p).bind (·.ctl) with
    | none => s
    | some t =>
      let held := t.moved - t.sent
      let len := if 512 ≤ held then some 512
        else if t.ended && (0 < held || (t.moved < t.req.wLength.toNat && t.moved % 512 == 0 && !t.shown)) then some held
        else none
      match (if s.hostMoves p then len else none) with
      | none => s
      | some len =>
        let (s, r) := s.ringPeek (.control p) 0 len
        match r.lost with
        | some src => (s.poisonEp0 p src).emit (.ssStall p 0)
        | none =>
          let s := (s.ringDrop (.control p) len).count p 0 (fun k =>
            { k with bytesUp := upBytes k.bytesUp len, ssPackets := up1 k.ssPackets,
                     zlpForwarded := if len = 0 then up1 k.zlpForwarded else k.zlpForwarded })
          let s := (s.updCtl p (fun t => { t with sent := t.sent + len, shown := len < 512 })).emit (.ssData p 0 r.bytes)
          presentRead n p s

/-- What the device answers to an IN token of a control read's data stage (R126–R128). -/
def State.ctlInPacket (s : State) (p : Port) (r : InAnswer) : State :=
  match (s.lift.get p).bind (·.ctl) with
  | none => s
  | some t =>
    if t.stage != .dataIn || !s.ctlAnswered p t then s
    else match r with
      | .nak => s.ctlNak p
      | .stall => s.failCtl p
      | .busError => s.ctlBusError p t
      | .data bytes =>
        let n := bytes.length
        let left := t.req.wLength.toNat - t.moved
        let s := s.count p 0 (fun k => { k with bytesDown := upBytes k.bytesDown n, hsPackets := up1 k.hsPackets })
        if 64 < n || left < n then s.failCtl p
        else
          let ended := n < 64 || n == left
          let s := (s.ringWrite (.control p) bytes).updCtl p (fun t =>
            { t with moved := t.moved + n, errors := 0, wire := false, begun := true, ended })
          let s := if n = 0 && (t.moved + n) % 512 != 0 then s.count p 0 (fun k => { k with zlpAbsorbed := up1 k.zlpAbsorbed }) else s
          let s := presentRead 4 p s
          let s := if ended then s.updCtl p (fun t => { t with stage := .status }) else s
          s.kickCtl p

/-- The downstream status stage ends (R120, R127, R128); under PORT_QUENCH the presented one follows the release (Table 4.14). -/
def State.ctlStatus (s : State) (p : Port) (r : XferResult) : State :=
  match (s.lift.get p).bind (·.ctl) with
  | none => s
  | some t =>
    if t.stage != .status || !s.ctlAnswered p t then s
    else match r with
      | .data _ => if s.hostMoves p then s.ctlFinish p t.req else s.updCtl p (fun t => { t with stage := .done, wire := false })
      | .nak => s.ctlNak p
      | .busError => s.ctlBusError p t
      | .stall => s.failCtl p

/-! ## The treatment of requests (Tables 4.9, R118, R123) -/

/-- A local read: its data, no longer than wLength, and its status (R119). -/
def State.localData (s : State) (p : Port) (r : Setup) (bytes : List Byte) : State :=
  let out := bytes.take r.wLength.toNat
  (s.count p 0 (fun k => { k with bytesUp := upBytes k.bytesUp out.length, ssPackets := up1 k.ssPackets })).emits [.ssData p 0 out, .ssStatus p]

/-- Request Error. -/
def State.requestError (s : State) (p : Port) : State := s.emit (.ssStall p 0)

/-- The bmAttributes GET_STATUS reads: of the current configuration, or of the first while unconfigured (Table 4.9). -/
def LiftPort.attrs (x : LiftPort) : Nat := ((x.conf.or (x.asRead.parsed.head?)).map (fun c => c.attrs.toNat)).getD 0

/-- Whether an interface is in the current configuration. -/
def LiftPort.hasIface (x : LiftPort) (i : Nat) : Bool := (x.conf.map (fun c => c.ifs.any (·.num == i))).getD false

/-- The function state of an interface. -/
def LiftPort.funcOf (x : LiftPort) (i : Nat) : FuncState :=
  let first := (x.conf.map (fun c => c.firstOf i)).getD i
  (x.functions.find? (·.first == first)).getD { first }

/-- GET_STATUS, by recipient (Table 4.9). -/
def State.stdGetStatus (s : State) (p : Port) (x : LiftPort) (r : Setup) : State :=
  let i := r.wIndex.toNat % 256
  if r.bmRequestType = 0x80 then
    s.localData p r (le16 (bnat (bit x.attrs 6) + 4 * bnat x.u1Enable + 8 * bnat x.u2Enable))
  else if r.bmRequestType = 0x81 then
    if x.hasIface i then s.localData p r (le16 (bnat (bit x.attrs 5) + 2 * bnat (x.funcOf i).wake)) else s.requestError p
  else if r.bmRequestType = 0x82 then
    if i % 128 = 0 then s.localData p r (le16 (bnat x.ep0Halted))
    else match x.ctxs.find? (·.addr == r.endpoint) with
      | some c => s.localData p r (le16 (bnat (c.halted || c.poisoned)))
      | none => s.requestError p
  else s.requestError p

/-- SET_FEATURE(FUNCTION_SUSPEND): the options of the function whose first interface is named (Table 4.9, R134). -/
def State.stdFunctionSuspend (s : State) (p : Port) (x : LiftPort) (r : Setup) : State :=
  let i := r.wIndex.toNat % 256
  let o := r.wIndex.toNat / 256
  if x.functions.any (·.first == i) then
    let s := s.updLift p (fun x => { x with woken := x.woken.filter (· != i), functions := x.functions.map (fun f =>
      if f.first = i then { f with suspended := bit o 0, wake := bit o 1 } else f) })
    (s.updLeaf (s.partOf.get p) .superSpeed (s.posOf.get p) (fun v => { v with wasU3 := false })).emit (.ssStatus p)
  else s.requestError p

/-- GET_DESCRIPTOR (R118). [DEDUCED: log 86] -/
def State.stdGetDescriptor (s : State) (p : Port) (x : LiftPort) (r : Setup) : State :=
  let set := x.asRead.present
  let t := r.wValue.toNat / 256
  let i := r.wValue.toNat % 256
  if r.bmRequestType != 0x80 then s.forwardCtl p r
  else if t = 1 then s.localData p r set.device
  else if t = 2 then match set.configs[i]? with
    | some c => s.localData p r c
    | none => s.requestError p
  else if t = 15 then s.localData p r set.bos
  else if t = 6 || t = 7 then s.requestError p
  else s.forwardCtl p r

/-- Local settings: the request completes. -/
def State.localSet (s : State) (p : Port) (f : LiftPort → LiftPort) : State := (s.updLift p f).emit (.ssStatus p)

/-- The treatment of a request on a lifted presentation (Table 4.9, R118, R121–R123, R170). `data` is the data stage of a
local write (SET_SEL). -/
def State.treat (s : State) (p : Port) (x : LiftPort) (r : Setup) (data : List Byte) : State :=
  let w := r.wValue.toNat
  if x.ep0Poisoned || x.ep0Halted then
    if r.isClearHalt && r.endpoint.toNat % 128 == 0 then s.localSet p (fun x => { x with ep0Poisoned := false, ep0Halted := false })
    else s.requestError p
  else if r.type != 0 then s.forwardCtl p r
  else if r.bRequest = 0 then s.stdGetStatus p x r
  else if r.isClearHalt then
    if (x.ctxs.find? (·.addr == r.endpoint)).any (·.localClear) then (s.haltClearedLocally p r.endpoint).emit (.ssStatus p)
    else s.forwardCtl p r
  else if r.isSetHalt then s.forwardCtl p r
  else if r.is 0x01 3 && w == 0 then s.stdFunctionSuspend p x r
  else if r.is 0x00 3 && w == 48 then s.localSet p (fun x => { x with u1Enable := true })
  else if r.is 0x00 1 && w == 48 then s.localSet p (fun x => { x with u1Enable := false })
  else if r.is 0x00 3 && w == 49 then s.localSet p (fun x => { x with u2Enable := true })
  else if r.is 0x00 1 && w == 49 then s.localSet p (fun x => { x with u2Enable := false })
  else if (r.is 0x00 3 || r.is 0x00 1) && w == 1 then s.emit (.ssStatus p)
  else if r.is 0x00 5 then s.localSet p (fun x => { x with address := BitVec.ofNat 7 w })
  else if r.bRequest = 6 && bit r.bmRequestType.toNat 7 then s.stdGetDescriptor p x r
  else if r.is 0x00 7 then s.forwardCtl p r
  else if r.is 0x80 8 then s.localData p r [BitVec.ofNat 8 x.config]
  else if r.isSetConfig then s.forwardCtl p r
  else if r.is 0x81 10 then
    let i := r.wIndex.toNat % 256
    if x.hasIface i then s.localData p r [BitVec.ofNat 8 (x.altOf i)] else s.requestError p
  else if r.isSetInterface then s.forwardCtl p r
  else if r.is 0x82 12 then s.forwardCtl p r
  else if r.is 0x00 48 && r.wLength == 6 && data.length == 6 then s.localSet p (fun x => { x with sel := data })
  else if r.is 0x00 49 then s.localSet p (fun x => { x with isochDelay := r.wValue })
  else s.requestError p

/-! ## Suspend and L1 (R90, R134, R135) -/

/-- Whether every function of the current configuration is in function suspend. -/
def LiftPort.allSuspended (x : LiftPort) : Bool := !x.functions.isEmpty && x.functions.all (·.suspended)

/-- The virtual link of a port's lifted position. -/
def State.linkOf (s : State) (p : Port) : VLink := ((s.ssTree.get (s.partOf.get p)).leaf.get (s.posOf.get p)).link

/-- Set the virtual link of a port's position. -/
def State.setLink (s : State) (p : Port) (l : VLink) : State :=
  s.updLeaf (s.partOf.get p) .superSpeed (s.posOf.get p) (fun v => { v with link := l })

/-- Whether the link at a port's position has been in U3 since the host last wrote a function's suspend option. [DEDUCED: log 94] -/
def State.wasU3 (s : State) (p : Port) : Bool := ((s.ssTree.get (s.partOf.get p)).leaf.get (s.posOf.get p)).wasU3

/-- The Lift engine orders downstream suspend (R134): once the link is in U3, or once every function is suspended. With the port-die link
not active the order waits (R17). [DEDUCED: log 94] -/
def State.suspendOrder (s : State) (p : Port) : State :=
  match s.lift.get p with
  | none => s
  | some x =>
    let due := s.linkOf p == .u3 || (x.allSuspended && !s.wasU3 p)
    let st := (s.ports.get p).st
    if !x.presented || x.busSuspended || !due || !(st == .enabled || st == .l1) || !s.dieUp p then s
    else
      let s := if st = .l1 then s.emit (.bus p .l1Exit) else s
      let arm := bit x.attrs 5 && x.functions.any (·.wake)
      let ask := fun (s : State) (req : Nat) =>
        s.emit (.dsSetup p 1 { bmRequestType := 0, bRequest := BitVec.ofNat 8 req, wValue := 1, wIndex := 0, wLength := 0 })
      let s := if x.conf.isNone then s else if arm then ask s 3 else if x.dsWake then ask s 1 else s
      let s := s.updLift p (fun x => { x with dsWake := if x.conf.isNone then x.dsWake else arm, busSuspended := true, sof := false })
      (s.updPort p (fun y => { y with st := .suspended })).emit (.bus p .sofStop)

/-- The Lift engine orders downstream resume (R135): once the link has left U3, or once a function has left its suspend. [DEDUCED: log 94] -/
def State.resumeOrder (s : State) (p : Port) : State :=
  match s.lift.get p with
  | none => s
  | some x =>
    if x.busSuspended && s.linkOf p != .u3 && (s.wasU3 p || !x.allSuspended) && !(s.ports.get p).resumeK then
      (s.updPort p (fun y => { y with resumeK := true })).emit (.bus p .resumeK)
    else s

/-- The resume durations of the LPM rules by BESL, in µs. -/
def beslUs : List Nat := [125, 150, 200, 300, 400, 500, 1000, 2000, 3000, 4000, 5000, 6000, 7000, 8000, 9000, 10000]

/-- bmAttributes of the USB 2.0 Extension in the BOS as read. -/
def LiftPort.lpmAttrs (x : LiftPort) : Nat :=
  (((x.asRead.bos.bind parseBos).getD []).find? (fun c => get8 c 2 == 2)).elim 0 (fun c => get32 c 3)

/-- The baseline BESL of a device, or 0 where it reports none (R90). -/
def LiftPort.besl (x : LiftPort) : Fin 16 := if bit x.lpmAttrs 3 then Fin.ofNat 16 (field x.lpmAttrs 8 4) else 0

/-- A lifted bus idle for L1_IDLE enters L1 where R90 allows it. -/
def State.l1Idle (s : State) (p : Port) : State :=
  match s.lift.get p with
  | none => s
  | some x =>
    let exit := beslUs.getD x.besl.val 0 + 50
    if s.busMoves p && (s.ports.get p).l1Enable && bit x.lpmAttrs 1 && x.ctl.isNone && x.ctxs.all (fun c => c.kind == .bulk) &&
        exit ≤ (s.parts.get (s.partOf.get p)).latBudget then
      ((s.updPort p (fun y => { y with st := .l1 })).updLift p (fun x => { x with sof := false })).emit (.bus p (.lpmL1 x.besl))
    else s

/-- What waits for a lifted bus goes out once it runs again: the rest of a control read to the host, a held request, OUT data, ERDYs. -/
def State.busWakes (s : State) (p : Port) : State :=
  match s.lift.get p with
  | none => s
  | some x =>
    let s := ((presentRead 4 p s).kickCtl p).erdy0 p
    forAll x.ctxs (fun s c => if !isIn c.addr && c.kind == .bulk then (s.sendOut p c.addr).erdy p c.addr else s.erdy p c.addr) s

/-- A request or data for a lifted device in L1 starts the exit (R91). -/
def State.l1Exit (s : State) (p : Port) : State :=
  if (s.ports.get p).st = .l1 then
    (((s.updPort p (fun y => { y with st := .enabled })).updLift p (fun x => { x with sof := true })).emit (.bus p .l1Exit)).busWakes p
  else s

/-! ## The micro-frame (R82–R85) -/

/-- The bulk endpoints of a lifted port in round-robin order, from the one after that served first in the last micro-frame (R84). -/
def LiftPort.bulkOrder (x : LiftPort) : List EpCtx :=
  let l := x.ctxs.filter (·.kind == .bulk)
  l.filter (fun c => decide (x.rr.toNat < c.addr.toNat)) ++ l.filter (fun c => decide (c.addr.toNat ≤ x.rr.toNat))

/-- Whether the bulk time of a micro-frame has a token for an endpoint. -/
def State.bulkDue (s : State) (p : Port) (c : EpCtx) : Bool :=
  if isIn c.addr then s.inTokens p c else c.again && !c.out.isEmpty && s.outTokens p c

/-- The bulk time of a micro-frame: a token for each endpoint that has buffer space or data ready (R84, R85). [DEDUCED: log 59] -/
def State.bulkTime (s : State) (p : Port) (x : LiftPort) : State :=
  let l := x.bulkOrder.filter (s.bulkDue p)
  let s := forAll l (fun s c => if isIn c.addr then s.emit (.dsIn p c.addr) else s.sendOut p c.addr) s
  match l with
  | c :: _ => s.updLift p (fun x => { x with rr := c.addr })
  | [] => s

/-- The bytes of a High-Speed micro-frame that periodic transactions may take: 80 % of 7,500 (R84). [PRESUMED: log 91] -/
def periodicTime : Nat := 6000

/-- The periodic time of a micro-frame (R84). -/
def State.periodicTime (s : State) (p : Port) (x : LiftPort) (l : List Periodic) : State :=
  forAll (periodicFit Machine.periodicTime (x.ctxs.filter (s.periodicDue p)))
    (fun s c => s.periodic p c ((l.find? (fun t => t.port == p && t.ep == c.addr)).map (·.answer))) s

/-- The timers of a lifted port that a micro-frame advances: the time from a resume to the first token (Table 3.11), and that until a
Function Wake that the host has not answered is sent again (Table 5.9). [PRESUMED: log 92; DEDUCED: log 93] -/
def State.liftTimers (s : State) (p : Port) (x : LiftPort) : State :=
  let s := if x.recover = 0 then s else s.updLift p (fun x => { x with recover := x.recover - 1 })
  let s := if x.recover = 1 then s.busWakes p else s
  if x.woken.isEmpty then s
  else if 1 < x.notify then s.updLift p (fun x => { x with notify := x.notify - 1 })
  else (s.emits (x.woken.map (fun i => .functionWake p i))).updLift p (fun x => { x with notify := 20000 })

/-- What one lifted bus does in a micro-frame, in the order of R84: its SOF, periodic transactions, control transactions, bulk
transactions; and the readiness that pacing had delayed (R145). [DEDUCED: log 70] -/
def State.busFrame (s : State) (p : Port) (l : List Periodic) : State :=
  match s.lift.get p with
  | none => s
  | some x =>
    let s := if x.sof && s.dieUp p then s.emit (.dsSof p (BitVec.ofNat 11 (s.microframe.toNat / 8))) else s
    let s := s.liftTimers p x
    let s := (s.periodicTime p x l).kickCtl p
    let s := forAll x.ctxs (fun s c => s.erdy p c.addr) (s.erdy0 p)
    match s.lift.get p with
    | some x => s.bulkTime p x
    | none => s

/-- A micro-frame boundary: the counter of R82 advances, a new frame opens the pacing of LIFT_CAP and of R188 afresh, every lifted bus
runs its micro-frame, and a bus interval that did not start is past (R163). [DEDUCED: log 70] -/
def State.microFrame (s : State) (l : List Periodic) : State :=
  let s := { s with microframe := s.microframe + 1 }
  let s := if s.microframe.toNat % 8 = 0 then { s with parts := Tab.of (fun k => { s.parts.get k with frameBytes := 0, frameUp := 0 }) } else s
  let s := forAll s.liftedPorts (fun s p => s.busFrame p l) s
  { s with ups := Tab.of (fun k => { s.ups.get k with isoSkip := false }) }

end Sys2Proof.Machine
end

