-- ==== Sys2Proof/Machine/Ports.lean ====
section
/-! DEFINITION. Presenting and withdrawing a tree; port attach, detach, drain, disable sequence, data modes, moves (chapters 2 and 3). -/

namespace Sys2Proof.Machine

open Sys2Proof

/-! ## The tree at UPk (R184) -/

/-- Whether a mode permits a partition to become Connected (Table 1.12; in Safe Hold a partition only stays Connected). -/
def modePresents (m : Mode) : Bool := m == .noon || m == .evening || m == .dusk || m == .maintenance

/-- Whether partitions may become Connected now: a Dusk that withdraws every tree presents none (Table 10.4). -/
def State.presentsNow (s : State) : Bool :=
  modePresents s.mode && !(s.mode == .dusk && match s.trans with
    | some t => !(t.req.goal == .night || match t.req.goal with
        | .maintenance _ => true
        | _ => false)
    | none => false)

/-- A virtual port in its default state: powered, showing what is connected. -/
def freshPort (connected : Bool) : VPort := { connected, cConnect := connected }

/-- The hubs of a side as first presented: leaf hubs on top ports 1–8, nothing on port 9 (R185). -/
def freshTree : HubTree := { top := Tab.of (fun n => freshPort (n.val < 8)) }

/-- The hubs of a side in their default state, with what is connected kept (Table 6.4). -/
def defaultTree (t : HubTree) : HubTree :=
  { hubs := Tab.const 9 {}, top := Tab.of (fun n => freshPort (t.top.get n).connected),
    leaf := Tab.of (fun i => freshPort (t.leaf.get i).connected) }

/-- The MF leaves its side, or takes another (R37). -/
def State.placeMf (s : State) (k : Part) (side : Option Side) : State :=
  let n : Fin 9 := 8
  let gone := fun (s : State) (d : Side) => s.updTop k d n (fun v => { freshPort false with cConnect := v.connected })
  let s := match (s.mfs.get k).side with
    | some d => gone s d
    | none => s
  let s := s.updMf k (fun _ => { side })
  match side with
  | some d =>
    let up := d == .superSpeed && ((s.treeOf k d).hubs.get 0).configured
    s.updTop k d n (fun _ => { freshPort true with enabled := up, link := if up then .u0 else .disabled })
  | none => s

/-- The side on which the MF stands once the SuperSpeed side is decided (R37, R194). -/
def State.mfSide (s : State) (k : Part) : Option Side :=
  if (s.ups.get k).ssSide = .active then some .superSpeed
  else if (s.ups.get k).ssSide = .inactive && s.u2Usable k then some .usb2
  else none

/-- Present the tree of a partition: the lanes mapped, then terminations and pull-up on, the SuperSpeed side deciding (R181, R184, R185). [DEDUCED: log 99] -/
def State.presentTree (s : State) (k : Part) : State :=
  let s := s.updPart k (fun x => { x with st := .connected, tree := true })
  let s := { s.allocMf k with ssTree := s.ssTree.put k freshTree, u2Tree := s.u2Tree.put k freshTree, mfs := s.mfs.put k {} }
  let s := s.updUp k (fun u =>
    { u with ssSide := .deciding, link := .rxDetect, rate := .none, usb2 := .active, fullSpeed := false, paced := false, isoPhase := none,
             isoSkip := false, ownExit := false, swapped := u.orientation })
  s.emits [.up k (.laneMux (s.ups.get k).swapped), .up k .terminationsOn, .up k .pullUpOn]

/-- Re-evaluate the presentation condition (R56): CONNECT_ARMED, a mode that permits Connected, UPk attached. -/
def State.evalPresent (s : State) (k : Part) : State :=
  let x := s.parts.get k
  if x.st == .chargeOnly && x.armed && x.withdraw.isNone && !x.tree && s.presentsNow && (s.ups.get k).attached then s.presentTree k else s

/-- The tree of a partition is gone from UPk (R184); a PART_DISCONNECT that waited is answered. -/
def State.treeGone (s : State) (k : Part) : State :=
  let w := (s.parts.get k).withdraw
  let had := (s.parts.get k).tree
  let s := s.updPart k (fun x => { x with tree := false, withdraw := none })
  let s := { s with ssTree := s.ssTree.put k {}, u2Tree := s.u2Tree.put k {}, mfs := s.mfs.put k {} }
  let s := s.release (fun o => match o with
    | .mgmtFunction j _ => j == k
    | _ => false)
  let s := s.updUp k (fun u =>
    { u with ssSide := .notPresented, link := .rxDetect, rate := .none, usb2 := .notPresented, fullSpeed := false, paced := false, isoPhase := none,
             isoSkip := false, ownExit := false })
  let s := if had then s.emits [.up k .terminationsOff, .up k .pullUpOff] else s
  let s := match w with
    | some w => if w.answer then s.answer (.disconnect k) stOK [] else s
    | none => s
  s.evalPresent k

/-- A withdrawal is over once no port of the partition drains for it. -/
def State.checkWithdraw (s : State) (k : Part) : State :=
  if (s.parts.get k).withdraw.isSome && !(s.portsOf k).any (fun p => (s.ports.get p).st == .draining) then s.treeGone k else s

/-! ## Showing devices (Tables 2.2, 3.4) -/

/-- A device appears on the USB 2.0 side, not enabled, with PORT_ATTACH. -/
def State.showUsb2 (s : State) (p : Port) (path : Path) (speed : Speed) : State :=
  if s.u2Usable (s.partOf.get p) || !s.possibleOn (s.partOf.get p) then
    let s := s.updPort p (fun x => { x with st := .waitReset, path, speed, shown := true, noDebounce := false, carry := none, needU2 := false })
    (s.showConnect p .usb2 false).attachEvent p
  else s.updPort p (fun x => { x with st := .pending, path := .none, speed := .none, needU2 := true, noDebounce := true })

/-- A PASS device is shown at once, its speed and path not yet known (R73). -/
def State.showPass (s : State) (p : Port) : State := s.showUsb2 p .none .none

/-- A native SuperSpeed device appears on the SuperSpeed side (R96); its link runs. -/
def State.showNative (s : State) (p : Port) : State :=
  let speed : Speed := if (s.ports.get p).ssGen2 then .gen2x1 else .gen1x1
  let s := (s.allocNative p).updPort p (fun x => { x with st := .enabled, path := .native, speed, shown := true, noDebounce := false, carry := none })
  (s.showConnect p .superSpeed true).attachEvent p

/-- The device's own reset of the device starts (Table 3.5 step 3). -/
def State.startProbe (s : State) (p : Port) : State :=
  let s := { s with lift := s.lift.put p (some {}) }
  (s.updPort p (fun x => { x with st := .probe, noDebounce := false, needSs := false, needU2 := false, carry := none })).emit (.bus p .se0)

/-- An identified device is shown again in the tree it was moved to, by what is known of it (Table 2.5 step 4a); one that would be lifted
but for the SuperSpeed side is fallen back (R34, R36, R136). -/
def State.showCarried (s : State) (p : Port) (c : Carried) : State :=
  let fell := c.path == .passthrough && c.qualified
  let s := s.updPort p (fun x => { x with vid := c.vid, pid := c.pid, qualified := c.qualified, fallenBack := fell, ssFallback := fell })
  let s := s.showUsb2 p c.path c.speed
  if fell && (s.ports.get p).shown then s.fallbackEvent p 1 0 else s

/-- A device connected on a port attaches as the IDLE rows of Table 3.4 give, or as what it was before a move (Table 2.5 step 4a). [DEDUCED: log 61] -/
def State.attachFlow (s : State) (p : Port) : State :=
  let x := s.ports.get p
  let active := s.ssActive (s.partOf.get p)
  if !s.possible p then s.updPort p (fun x => { x with st := .pending })
  else if x.ssLink == .u0 && x.ssHeld && !x.line then
    if active then s.showNative p
    else (s.updPort p (fun x => { x with ssLink := .disabled, ssHeld := false, st := .idle, noDebounce := true })).emit (.bus p .ssDisabled)
  else if x.dataMode = .pass then s.showPass p
  else match x.carry with
    | some c => if c.path == .passthrough && c.qualified && active then s.startProbe p else s.showCarried p c
    | none => if x.noDebounce then s.startProbe p else s.updPort p (fun x => { x with st := .debounce })

/-- The state a port takes when nothing else waits: by data mode, then by what is connected. -/
def State.settle (s : State) (p : Port) : State :=
  let x := s.ports.get p
  match x.dataMode with
  | .off => s.updPort p (fun x => { x with st := .off })
  | .charge => s.updPort p (fun x => { x with st := .charge })
  | _ => if x.line || (x.ssLink == .u0 && x.ssHeld) then s.attachFlow p else s.updPort p (fun x => { x with st := .idle })

/-! ## What a drain hands over to -/

/-- How D+ and D− are driven in a data mode (Tables 3.2, 3.9). [DEDUCED: log 98] -/
def modeLines : DataMode → DataLines
  | .off => .highZ
  | .charge => .dcp
  | _ => .pullDowns

/-- Drive a port's D+ and D−. [DEDUCED: log 98] -/
def State.setLines (s : State) (p : Port) (l : DataLines) : State :=
  if (s.ports.get p).lines = l then s else (s.updPort p (fun x => { x with lines := l })).emit (.bus p (.dataLines l))

/-- The per-port settings a PORT_SET_MODE request leaves, but for the data mode. -/
def applyPortMode (b : List Byte) (x : PortState) : PortState :=
  let v := get8 b 0
  let f := get8 b 2
  { x with isoLift := if bit v 1 then bit f 0 else x.isoLift
           l1Enable := if bit v 2 then bit f 1 else x.l1Enable
           l1Idle := if bit v 3 then get16 b 4 else x.l1Idle }

/-- The data mode waiting takes effect, with PORT_MODE_CHANGED (R63, R66, R67, R77). -/
def State.applyMode (s : State) (p : Port) : State :=
  match (s.ports.get p).pendMode with
  | none => s
  | some m =>
    let old := (s.ports.get p).dataMode
    let s := s.updPort p (fun x => { x with dataMode := m, pendMode := none, needSs := false, needU2 := false, noDebounce := false, carry := none })
    let s := (s.modeEvent p old).setLines p (modeLines m)
    let s := if m = .off then (s.updVbus p (fun v => { v with hold := none, heldOver := none })).openTypeC p
      else if old = .off then s.leaveOpen p
      else s
    let s := (s.refreshWord p)
    s.answer (.setMode p) stOK []

/-- Whether what is known of a device still tells where it goes in another partition: a translated or hub device by its speed and class, a
passthrough one where AUTO would judge it by the same list (R34, R48, R64). [DEDUCED: log 61] -/
def State.carries (s : State) (p : Port) (k old : Part) (was : Carried) : Bool :=
  was.path == .translated || was.path == .extHub ||
    (was.path == .passthrough && (s.ports.get p).dataMode == .auto && (s.parts.get k).classes == (s.parts.get old).classes)

/-- The port changes its partition and position (Table 2.5 step 3, R249): UART slot freed, SBU isolated, the command answered. A move into a
Disabled partition is a disable order (R76). [DEDUCED: log 79] -/
def State.applyMove (s : State) (p : Port) (was : Carried) : State :=
  match (s.ports.get p).pendMove with
  | none => s
  | some (k, i) =>
    let old := s.partOf.get p
    let s := (s.freeUart p).isolateSbu p
    let s := s.updPd p (fun x => { x with cfg := { x.cfg with sbuOnEnter := false } })
    let keeps := s.carries p k old was
    let s := { s with partOf := s.partOf.put p k, posOf := s.posOf.put p i }
    let x := s.ports.get p
    let dis := (s.parts.get k).st == .disabled
    let s := s.updPort p (fun x =>
      { x with pendMove := none, quenchedFrom := none, carry := if keeps && x.line then some was else none, needSs := false, needU2 := false,
               noDebounce := false, pendDisable := x.pendDisable || dis })
    let s := if x.st == .disabling then s else s.refreshWord p
    s.answer (.assign p k i) stOK
      [BitVec.ofNat 8 k.val, BitVec.ofNat 8 i.val, BitVec.ofNat 8 (1 + i.val / 14), BitVec.ofNat 8 (1 + i.val % 14)]

/-- The disable sequence reaches step 4: data lines released, contract ended, EN = 0 with DISCH = 1 (Table 3.8). [DEDUCED: log 63, 98] -/
def State.startDisable (s : State) (p : Port) : State :=
  let s := (s.updPort p (fun x => { x with st := .disabling, pendDisable := false, pendError := false })).setLines p .highZ
  ((s.endContract p 2).startDischarge p).refreshWord p

/-- PORT_RESET's own reset: SE0, or a warm reset on a native link, which then trains anew (R95, R96). -/
def State.startOwnReset (s : State) (p : Port) : State :=
  let x := s.ports.get p
  let s := s.updPort p (fun x => { x with pendReset := false, noDebounce := false })
  if x.line then (s.updPort p (fun x => { x with st := .resetting, ownReset := true })).emit (.bus p .se0)
  else if x.ssLink = .u0 then
    (s.updPort p (fun x => { x with st := .resetting, ownReset := true, ssLink := .training, ssHeld := false })).emit (.bus p .warmReset)
  else (s.answer (.portReset p) stOK []).settle p

/-- What was waiting for a port's drain, in order: a move (unless a containment reaction is to complete first, Table 12.9), a disable
sequence, a data mode, PORT_RESET's reset, ERROR where the device is still there and no data-mode change ends it (R98), a fresh attach
(R66, R76, R95, Tables 2.5, 3.4). [DEDUCED: log 62] -/
def State.afterDrain (s : State) (p : Port) (was : Carried) : State :=
  let s := if (s.ports.get p).reacting then s else s.applyMove p was
  if (s.ports.get p).pendDisable then s.startDisable p
  else
    let changes := (s.ports.get p).pendMode.isSome
    let s := s.applyMode p
    let x := s.ports.get p
    let s := s.updPort p (fun x => { x with pendError := false })
    if x.pendReset then s.startOwnReset p
    else if x.pendError && x.line && !changes then s.updPort p (fun x => { x with st := .error })
    else s.settle p

/-! ## Drains (R74, R75) -/

/-- The bytes that a drain drops as it begins: those a control transfer holds, and those of the port's translator (R74). -/
def State.droppedByDrain (s : State) (p : Port) : Nat :=
  (((s.lift.get p).bind (·.ctl)).map (fun t => t.moved - t.sent)).getD 0 + (((s.ports.get p).tt).map (fun e => e.bytes.length)).sum

/-- A drain begins: the first cause gives the reason, but UNPLUG replaces any (R75). The lifted side releases its halves and
abandons its control transfer; a translator is emptied (R81). -/
def State.beginDrain (s : State) (p : Port) (r : Reason) : State :=
  if (s.ports.get p).st = .draining then
    if r = .unplug then s.updPort p (fun x => { x with reason := some .unplug }) else s
  else
    let n := s.droppedByDrain p
    let s := (s.releaseHalves p).dropCtl p
    let s := s.updLift p (fun x => { x with probe := none, wake := none, held := none, woken := [] })
    s.updPort p (fun x => { x with st := .draining, reason := some r, tt := [], resumeK := false, discarded := x.discarded + n })

/-- What a port forgets when its presentation ends. -/
def PortState.cleared (x : PortState) : PortState :=
  { x with st := .idle, path := .none, speed := .none, shown := false, fallenBack := false, ssFallback := false, qualified := false,
           vid := 0, pid := 0, quenchedFrom := none, ownReset := false, reason := none, discarded := 0, tt := [], ttFrame := none,
           resumeK := false }

/-- The presentation of a port ends: virtual disconnect, PORT_DETACH where PORT_ATTACH was issued, with the bytes of a reset sequence that
ends in it (R74), SOFs stopped, buffers released (Table 3.8 step 3). -/
def State.endPresentation (s : State) (p : Port) : State :=
  let x := s.ports.get p
  let n := s.liftHeld p + x.discarded + ((s.lift.get p).bind (·.reset)).getD 0
  let s := if x.shown then (s.showDisconnect p (sideOf x.path)).detachEvent p (x.reason.getD .unplug) n else s
  let s := if ((s.lift.get p).map (·.sof)).getD false then s.emit (.bus p .sofStop) else s
  let s := s.release (RowOwner.ofPort p)
  let s := { s with lift := s.lift.put p none }
  s.updPort p PortState.cleared

/-- What is known of a port's device. -/
def PortState.known (x : PortState) : Carried := { path := x.path, speed := x.speed, vid := x.vid, pid := x.pid, qualified := x.qualified }

/-- A drain is over. -/
def State.finishDrain (s : State) (p : Port) : State :=
  let x := s.ports.get p
  let k := s.partOf.get p
  ((s.endPresentation p).afterDrain p x.known).checkWithdraw k

/-- A port is drained where it is presented, then what waits for it happens (Table 3.4). A data-mode change abandons a probe at once (Table
3.12); a port in ERROR stays there but for PORT_RESET and a data-mode change (R98). -/
def State.drainThen (s : State) (p : Port) (r : Reason) (f : PortState → PortState) : State :=
  let s := s.updPort p f
  let x := s.ports.get p
  if x.st == .disabling || x.st == .draining then s
  else if x.presented && !(x.st == .probe && r == .mode) then s.beginDrain p r
  else
    let s := s.updPort p (fun x => { x with pendError := x.st == .error && r != .mode && r != .reset })
    (s.endPresentation p).afterDrain p {}

/-- DRAIN_COMPLETE: nothing deliverable is left. -/
def State.drainComplete (s : State) (p : Port) : State :=
  if (s.ports.get p).st = .draining && !s.deliverable p then s.finishDrain p else s

/-- DRAIN_WINDOW ends: the rest is discarded and counted in the event (R74). -/
def State.drainExpired (s : State) (p : Port) : State := if (s.ports.get p).st = .draining then s.finishDrain p else s

/-! ## The disable sequence (R76, R77) -/

/-- VBUS_SET on (R315): a hold ends, and one for want of discharge lets PD go on (R319). -/
def State.vbusOn (s : State) (p : Port) : State :=
  let stopped := (s.vbus.get p).hold == some .noDischarge
  let s := (s.updVbus p (fun v => { v with setting := true })).endHold p
  (s.updPd p (fun d => { d with stopped := d.stopped && !stopped })).refreshWord p

/-- A request that was deferred to the end of the disable sequence takes effect (R77): PORT_SET_MODE with all its settings, PORT_RESET as
R95 gives for the port as it then stands. [DEDUCED: log 63; DESIGN CHOICE: log 83] -/
def State.runDeferred (s : State) (p : Port) : Deferred → State
  | .setMode m b => (s.updPort p (fun x => { applyPortMode b x with pendMode := some m })).applyMode p
  | .vbusOn => s.vbusOn p
  | .portReset => s.updPort p (fun x => { x with pendReset := x.connected && dataModeAttaches x.dataMode })

/-- Table 3.8 step 5: the sequence is complete; the data lines and the mode in effect, a waiting move, and the deferred requests in order
(R77). -/
def State.disableComplete (s : State) (p : Port) : State :=
  if (s.ports.get p).st != .disabling then s
  else
    let s := (s.updPort p (fun x => { x with st := .idle })).setLines p (modeLines (s.ports.get p).dataMode)
    let l := (s.ports.get p).deferred
    let s := (s.updPort p (fun x => { x with deferred := [] })).applyMode p
    let s := forAll l (fun s d => s.runDeferred p d) s
    s.afterDrain p {}

/-- A port's 650 ms of discharge are over (Tables 3.8, 9.12 row 3). -/
def State.dischargeEnd (s : State) (p : Port) : State :=
  if (s.vbus.get p).discharging then (s.dischargeOver p).disableComplete p else s

/-! ## Connect and disconnect (R70, R71, R96, R97) -/

/-- A connect is recognised on D+/D-; beside a SuperSpeed link that trains or is in U0 it is a USB 3.2 hub (R97). `training` says that the
downstream link is training, or has been in U0 for less than 100 ms. -/
def State.connectSeen (s : State) (p : Port) (training : Bool) : State :=
  let x := s.ports.get p
  if !dataModeAttaches x.dataMode || x.line then s
  else
    let ss := ssCapable p && (training || x.ssLink == .u0)
    let s := s.updPort p (fun x => { x with line := true, vdmSrc := false, ssLink := if ss then .disabled else x.ssLink, ssHeld := x.ssHeld && !ss })
    let s := if x.vdmSrc then s.emit (.bus p .vdmSrcOff) else s
    let s := if ss then s.emit (.bus p .ssDisabled) else s
    if ss && x.shown then s.drainThen p .sideChange (fun x => x)
    else match x.st with
      | .idle => s.attachFlow p
      | .pending => s
      | _ => s

/-- A disconnect is recognised (R70, Tables 3.4, 3.12, 4.14). A BC_MODE change that waited takes effect (R79). -/
def State.disconnectSeen (s : State) (p : Port) : State :=
  let x := s.ports.get p
  if !x.line && x.ssLink != .u0 then s.updPort p (fun x => { x with ssLink := .off, ssHeld := false, noDebounce := false })
  else
    let s := s.updPort p (fun x =>
      { x with line := false, ssLink := .off, ssHeld := false, bcMode := x.bcNext.getD x.bcMode, bcNext := none, needSs := false, needU2 := false,
               noDebounce := false, carry := none, pendError := false })
    match x.st with
    | .pending => s.updPort p (fun x => { x with st := .idle })
    | .debounce => s.updPort p (fun x => { x with st := .idle })
    | .error => s.updPort p (fun x => { x with st := .idle })
    | .draining => s.beginDrain p .unplug
    | .quenched => if x.presented then s.beginDrain p .unplug else s.updPort p PortState.cleared
    | .resetting =>
      if x.ownReset then (s.answer (.portReset p) stOK []).updPort p PortState.cleared
      else
        let s := s.updLeaf (s.partOf.get p) (sideOf x.path) (s.posOf.get p)
          (fun v => { v with connected := false, enabled := false, cConnect := true, cReset := true, link := .disabled })
        s.beginDrain p .unplug
    | .probe => s.beginDrain p .unplug
    | .waitReset => s.beginDrain p .unplug
    | .enabled => s.beginDrain p .unplug
    | .suspended => s.beginDrain p .unplug
    | .l1 => s.beginDrain p .unplug
    | _ => s

/-- The 100 ms debounce of AUTO and LIFT is over (R71). -/
def State.debounced (s : State) (p : Port) : State := if (s.ports.get p).st = .debounce then s.startProbe p else s

/-- A PENDING port's presentation becomes possible (Table 3.4). -/
def State.presentPending (s : State) (p : Port) : State :=
  if (s.ports.get p).st = .pending && s.possible p then s.attachFlow p else s

/-- A downstream SuperSpeed link has been in U0 for 100 ms with no connect on D+/D- (R96). -/
def State.ssU0Held (s : State) (p : Port) (gen2 : Bool) : State :=
  let x := s.ports.get p
  if ssCapable p && dataModeAttaches x.dataMode && !x.line && x.st == .idle then
    (s.updPort p (fun x => { x with ssLink := .u0, ssGen2 := gen2, ssHeld := true })).attachFlow p
  else s

/-- VDP_SRC on D+ of a CDP port before connect: VDM_SRC is driven on D-, and removed per BC 1.2 when VDP_SRC goes (Table 3.9). [DEDUCED: log 98] -/
def State.vdpSrc (s : State) (p : Port) (present : Bool) : State :=
  let x := s.ports.get p
  if present then
    if dataModeAttaches x.dataMode && x.bcMode == .cdp && !x.line && x.st == .idle && !x.vdmSrc then
      (s.updPort p (fun x => { x with vdmSrc := true })).emit (.bus p .vdmSrcOn)
    else s
  else if x.vdmSrc then (s.updPort p (fun x => { x with vdmSrc := false })).emit (.bus p .vdmSrcOff)
  else s

/-! ## Side changes (R36) -/

/-- Whether a presented device stands on the wrong side now. -/
def State.wrongSide (s : State) (p : Port) : Bool :=
  let x := s.ports.get p
  let active := s.ssActive (s.partOf.get p)
  x.shown && ((!active && (x.path == .lifted || x.path == .native)) || (active && x.ssFallback))

/-- The SuperSpeed side of a partition has become active or inactive: each affected device moves, without a new debounce (R36). [DEDUCED: log 57] -/
def State.sideChanged (s : State) (k : Part) : State :=
  forAll ((s.portsOf k).filter s.wrongSide) (fun s p =>
    let native := (s.ports.get p).path == .native
    let s := if native then (s.updPort p (fun x => { x with ssLink := .disabled, ssHeld := false })).emit (.bus p .ssDisabled) else s
    s.drainThen p .sideChange (fun x => { x with noDebounce := true })) s

/-- The SuperSpeed side is decided, or changes: the MF and the devices take their sides (R185, R186, R36). -/
def State.setSide (s : State) (k : Part) (side : SsSide) : State :=
  let s := s.updUp k (fun u => { u with ssSide := side })
  (s.placeMf k (s.mfSide k)).sideChanged k

/-! ## Withdrawal (Table 2.9) -/

/-- Withdraw a tree: every presented port is drained first (R56). [DEDUCED: log 62; DESIGN CHOICE: log 82] -/
def State.withdraw (s : State) (k : Part) (r : Reason) (answer : Bool) (dest : PartSt) : State :=
  let s := s.updPart k (fun x => { x with st := dest, withdraw := some { reason := r, answer } })
  let s := forAll (s.portsOf k) (fun s p =>
    if dest = .disabled then s.drainThen p r (fun x => { x with pendDisable := x.st != .disabling })
    else if (s.ports.get p).presented || (s.ports.get p).st == .debounce then s.drainThen p r (fun x => x)
    else s) s
  s.checkWithdraw k

end Sys2Proof.Machine
end

