-- ==== Sys2Proof/Machine/LiftFlow.lean ====
section
/-! DEFINITION. The probe and its outcome, resets of downstream devices, fallback, the first SETUP of a reset-pending position, quench and release, remote wake (chapters 3 and 4, Table 5.9). -/

namespace Sys2Proof.Machine

open Sys2Proof

/-! ## The probe's requests (Table 4.3) -/

/-- Change the probe of a port. -/
def State.updProbe (s : State) (p : Port) (f : Probe → Probe) : State := s.updLift p (fun x => { x with probe := x.probe.map f })

/-- A GET_DESCRIPTOR request of the probe. -/
def getDesc (type index len : Nat) : Setup :=
  { bmRequestType := 0x80, bRequest := 6, wValue := BitVec.ofNat 16 (256 * type + index), wIndex := 0, wLength := BitVec.ofNat 16 len }

/-- The request of a probe's step and the address it goes to. -/
def Probe.request (b : Probe) : Nat × Setup :=
  match b.step with
  | .p1 => (0, getDesc 1 0 64)
  | .p2 => (0, { bmRequestType := 0, bRequest := 5, wValue := 1, wIndex := 0, wLength := 0 })
  | .p3 => (1, getDesc 1 0 18)
  | .p4 i _ => (1, getDesc 2 i b.asked)
  | .p5 _ => (1, getDesc 15 0 b.asked)
  | .p6 => (1, getDesc 1 0 0)

/-- Issue the request of the probe's present step; with the port-die link not active it waits (R17). -/
def State.issueProbe (s : State) (p : Port) : State :=
  match (s.lift.get p).bind (·.probe) with
  | some b =>
    let s := s.updProbe p (fun b => { b with errors := 0, waitLink := !s.dieUp p })
    if s.dieUp p then s.emit (.dsSetup p b.request.1 b.request.2) else s
  | none => s

/-- The probe goes on to a step with a wLength. -/
def State.probeTo (s : State) (p : Port) (st : ProbeStep) (len : Nat) : State :=
  (s.updProbe p (fun b => { b with step := st, asked := len, retried := false })).issueProbe p

/-- How a probe ends before evaluation: failed (its detail), or unmappable (its detail) (R457, Table 4.13). -/
inductive ProbeEnd where
  | failed (detail : Nat)
  | unmappable (detail : Nat)
deriving DecidableEq, Repr

/-- The failed step and bRequest of the PROBE_FAILED detail. -/
def Probe.detail (b : Probe) : Nat :=
  match b.step with
  | .p1 => 0x0106
  | .p2 => 0x0205
  | .p3 => 0x0306
  | .p4 _ _ => 0x0406
  | .p5 _ => 0x0506
  | .p6 => 0x0606

/-- What a probe's answer leads to. -/
inductive ProbeNext where
  | go (got : DescSet) (st : ProbeStep) (len : Nat)
  | hub (got : DescSet)
  | evaluate (got : DescSet)
  | stop (e : ProbeEnd)
deriving DecidableEq, Repr

/-- After the last configuration: the BOS, where bcdUSB is at least 0x0201 (Table 4.3). -/
def afterConfigs (d : DescSet) : ProbeNext := if 0x0201 ≤ get16 d.device 2 then .go d (.p5 false) 5 else .evaluate d

/-- The answer to a probe request, bytes in hand (Table 4.3, R457). [DEDUCED: log 61, 84] -/
def probeAnswer (b : Probe) (l : List Byte) : ProbeNext :=
  let d := b.got
  match b.step with
  | .p1 =>
    if 8 ≤ l.length && get8 l 1 == 1 && get8 l 7 != 0x40 then .stop (.unmappable 0)
    else if l.length < 18 || get8 l 0 != 18 || get8 l 1 != 1 then .stop (.failed b.detail)
    else
      let d := { d with device := l.take 18 }
      if get8 l 4 = 9 then .hub d else .go d .p2 0
  | .p2 => .go d .p3 18
  | .p3 =>
    if l != d.device then .stop (.failed b.detail)
    else
      let n := get8 l 17
      if n = 0 || 8 < n then .stop (.unmappable 0xFE) else .go d (.p4 0 false) 9
  | .p4 i false =>
    if l.length < 9 then .stop (.failed b.detail)
    else if get8 l 0 < 9 || get8 l 1 != 2 || get16 l 2 < 9 then .stop (.unmappable 0xFF)
    else .go d (.p4 i true) (get16 l 2)
  | .p4 i true =>
    if l.length < b.asked then .stop (.failed b.detail)
    else if (parseConfig l).isNone then .stop (.unmappable 0xFF)
    else
      let d := { d with configs := d.configs ++ [l] }
      if i + 1 < get8 d.device 17 then .go d (.p4 (i + 1) false) 9 else afterConfigs d
  | .p5 false =>
    if l.length < 5 then .stop (.failed b.detail)
    else if get8 l 0 != 5 || get8 l 1 != 15 || get16 l 2 < 5 then .stop (.unmappable 0xFF)
    else .go d (.p5 true) (get16 l 2)
  | .p5 true =>
    if l.length < b.asked then .stop (.failed b.detail)
    else if (parseBos l).isNone then .stop (.unmappable 0xFF)
    else .evaluate { d with bos := some l }
  | .p6 => .evaluate d

/-! ## Evaluation (P6, Tables 2.2, 4.13) -/

/-- What a High-Speed device's descriptors make of it. -/
inductive Verdict where
  | lift
  | unqualified
  | hub
  | waitSs
  | fallback (reason detail : Nat)
deriving DecidableEq, Repr

/-- The rows that a re-fetch needs beyond those the port holds: none where its buffers already stand. -/
def State.rowsFree (s : State) (p : Port) (d : DescSet) : Option State :=
  (s.release (RowOwner.ofPort p)).reserve (s.partOf.get p) (d.buffers p)

/-- R110–R112 on a set: the fallback reason that applies, none where the set can be lifted. [DEDUCED: log 85] -/
def State.liftable (s : State) (p : Port) (d : DescSet) : Option (Nat × Nat) :=
  match d.unmappable with
  | some a => some (3, a)
  | none =>
    let size := d.present.size
    let read := d.device.length + (d.configs.map (·.length)).sum + (d.bos.map (·.length)).getD 0
    if 4096 < size || 4096 < read then some (4, (size + 15) / 16)
    else if !d.withinLimit p || (s.rowsFree p d).isNone then some (5, d.addresses.length)
    else none

/-- The device data of a set, with R64 where AUTO applies (R64, R106). -/
def State.qualifies (s : State) (p : Port) (d : DescSet) : Bool :=
  (s.ports.get p).dataMode == .lift || d.qualifies (s.parts.get (s.partOf.get p)).classes (s.ports.get p).isoLift

/-- The outcome of P6 for a first probe. [DEDUCED: log 61, 87] -/
def State.verdict (s : State) (p : Port) (d : DescSet) : Verdict :=
  let active := s.ssActive (s.partOf.get p)
  if d.isHub then .hub
  else if !s.qualifies p d then .unqualified
  else if !active then (if (s.ports.get p).dataMode = .lift then .waitSs else .fallback 1 0)
  else match s.liftable p d with
    | some (r, n) => .fallback r n
    | none => .lift

/-- Keep what PORT_ATTACH reports of a device. -/
def State.noteDevice (s : State) (p : Port) (d : DescSet) (qualified : Bool) : State :=
  s.updPort p (fun x => { x with vid := BitVec.ofNat 16 (get16 d.device 8), pid := BitVec.ofNat 16 (get16 d.device 10), qualified })

/-- The lifted side of a port ends without a lifted presentation: SOF stops. -/
def State.endLift (s : State) (p : Port) : State :=
  let s := s.release (RowOwner.ofPort p)
  ({ s with lift := s.lift.put p none } : State).emit (.bus p .sofStop)

/-- LIFT_FALLBACK follows the PORT_ATTACH of the passthrough presentation, where there is one (R136). [DEDUCED: log 61] -/
def State.fallbackNote (s : State) (p : Port) (reason detail : Nat) : State :=
  if (s.ports.get p).shown then s.fallbackEvent p reason detail else s

/-- The passthrough presentation after a fallback, and LIFT_FALLBACK after its PORT_ATTACH (R136, R138). -/
def State.fallBack (s : State) (p : Port) (reason detail : Nat) : State :=
  let s := (s.endLift p).updPort p (fun x => { x with fallenBack := true, ssFallback := reason == 1 })
  (s.showUsb2 p .passthrough .high).fallbackNote p reason detail

/-- The lifted presentation begins: buffers held, the position connected and enabled on the SuperSpeed side, PORT_ATTACH. -/
def State.presentLifted (s : State) (p : Port) (d : DescSet) : State :=
  let s := (s.rowsFree p d).getD s
  let s := { s with lift := s.lift.put p (some { asRead := d, presented := true, sof := true }) }
  let s := s.updPort p (fun x => { x with st := .enabled, path := .lifted, speed := .high, shown := true, needSs := false })
  (s.showConnect p .superSpeed true).attachEvent p

/-- Carry out the verdict of a first probe. -/
def State.conclude (s : State) (p : Port) (d : DescSet) : State :=
  match s.verdict p d with
  | .hub => ((s.noteDevice p d false).endLift p).showUsb2 p .extHub .high
  | .unqualified => ((s.noteDevice p d false).endLift p).showUsb2 p .passthrough .high
  | .waitSs => (s.endLift p).updPort p (fun x => { x with st := .pending, needSs := true, noDebounce := false })
  | .fallback r n => (s.noteDevice p d true).fallBack p r n
  | .lift =>
    if s.fw.paused then s.updProbe p (fun b => { b with got := d, step := .p6, waitFw := true })
    else (s.noteDevice p d true).presentLifted p d

/-! ## The end of a reset of a lifted position (R130, R131) -/

/-- The leaf hub port of a lifted position reports its reset complete; a link placed in U3 meanwhile stays there. -/
def State.leafResetDone (s : State) (p : Port) (connected : Bool) : State :=
  s.updLeaf (s.partOf.get p) .superSpeed (s.posOf.get p) (fun v =>
    let v := { v with cReset := true, cBhReset := v.cBhReset || v.bhReset, bhReset := false }
    if connected then { v with connected := true, enabled := true, link := if v.link = .u3 then .u3 else .u0 }
    else { v with connected := false, enabled := false, cConnect := true, link := .disabled })

/-- Step 6: the presentation stands again; a held request is now treated (R132). -/
def State.resetStep6 (s : State) (p : Port) (d : DescSet) : State :=
  match s.lift.get p with
  | none => s
  | some x =>
    let held := x.held
    let s := if x.byHost then s.leafResetDone p true else s
    let s := s.updLift p (fun x => { x with asRead := d, probe := none, presented := true, reset := none, byHost := false, held := none, pendingReset := false })
    let s := (s.noteDevice p d true).updPort p (fun x => { x with st := .enabled })
    match held, s.lift.get p with
    | some (r, data), some x => (s.erdy0 p).treat p x r data
    | _, _ => s

/-- The reset sequence ends in a detach: the leaf port reports the reset complete with no device, PORT_DETACH with reason SIDE_CHANGE
carries the data of step 1 (R131, R132, R138). -/
def State.resetDetach (s : State) (p : Port) : State :=
  match s.lift.get p with
  | none => s
  | some x =>
    let s := s.leafResetDone p false
    let s := s.detachEvent p .sideChange (x.reset.getD 0)
    (s.updPort p (fun x => { x.cleared with line := true, st := .resetting })).endLift p

/-- The device is no longer lifted after a reset (R131, REQUALIFY). -/
def State.requalify (s : State) (p : Port) (d : DescSet) (detail : Nat) (qualified : Bool) : State :=
  let s := (s.resetDetach p).noteDevice p d qualified
  let s := s.updPort p (fun x => { x with fallenBack := true })
  (s.showUsb2 p .passthrough .high).fallbackNote p 6 detail

/-- The REQUALIFY detail of a reason (Table 4.13). -/
def requalifyDetail (reason detail : Nat) : Nat := if reason = 3 then 3 + 256 * (detail % 256) else reason

/-- The end of a re-fetch whose descriptors have all arrived (R131). [DEDUCED: log 61] -/
def State.refetched (s : State) (p : Port) (d : DescSet) : State :=
  match s.lift.get p with
  | none => s
  | some x =>
    if d.isHub then (((s.resetDetach p).noteDevice p d false).showUsb2 p .extHub .high)
    else if d.present = x.asRead.present && s.qualifies p d && d.unmappable.isNone then s.resetStep6 p d
    else if !s.qualifies p d then s.requalify p d 0 false
    else match s.liftable p d with
      | some (r, n) => s.requalify p d (requalifyDetail r n) true
      | none =>
        if s.fw.paused && !(d.buffers p).all (fun b => ((s.ring b.1).map (fun r => decide (b.2 ≤ r.rows.length))).getD false) then
          s.updProbe p (fun b => { b with got := d, step := .p6, waitFw := true })
        else ((s.rowsFree p d).getD s).resetStep6 p d

/-- A probe or re-fetch ends before evaluation (R131, R137, R457). [DEDUCED: log 61] -/
def State.probeStopped (s : State) (p : Port) (e : ProbeEnd) : State :=
  match (s.lift.get p).bind (·.probe) with
  | none => s
  | some b =>
    let d := b.got
    if b.refetch then
      match e with
      | .failed _ => s.requalify p d 2 true
      | .unmappable n => s.requalify p d (requalifyDetail 3 n) true
    else match e with
      | .unmappable n => (s.noteDevice p d true).fallBack p 3 n
      | .failed n =>
        if (s.ports.get p).dataMode = .lift && !b.second then
          (s.updProbe p (fun _ => { second := true })).emit (.bus p .se0)
        else (s.noteDevice p d true).fallBack p 2 n

/-- What the probe's answer leads to is carried out. [DEDUCED: log 61] -/
def State.probeGo (s : State) (p : Port) (b : Probe) : ProbeNext → State
  | .go d st len => (s.updProbe p (fun b => { b with got := d })).probeTo p st len
  | .hub d => if b.refetch then s.refetched p d else s.conclude p d
  | .evaluate d => if b.refetch then s.refetched p d else s.conclude p d
  | .stop e => s.probeStopped p e

/-- Whether the probe of a port runs now. -/
def State.probing (s : State) (p : Port) : Option Probe :=
  let st := (s.ports.get p).st
  if st = .probe || st = .resetting then (s.lift.get p).bind (fun x => x.probe.bind (fun b => if b.waitFw then none else some b)) else none

/-- A probe request fails: it is issued once more from its SETUP, a second failure ends the probe (R108). -/
def State.requestFails (s : State) (p : Port) : State :=
  match s.probing p with
  | none => s
  | some b => if b.retried then s.probeStopped p (.failed b.detail) else (s.updProbe p (fun b => { b with retried := true })).issueProbe p

/-- A transaction of a probe request ends (R107, R108): a NAK is retried, and the third bus error in a row fails the request. [DEDUCED: log 61] -/
def State.probeRequest (s : State) (p : Port) (r : XferResult) : State :=
  match s.probing p with
  | none => s
  | some b =>
    if b.waitLink then s
    else match r with
      | .data l => s.probeGo p b (probeAnswer b (l.take b.request.2.wLength.toNat))
      | .nak => (s.updProbe p (fun b => { b with errors := 0 })).emit (.dsIn p 0)
      | .busError =>
        if b.errors = 2 then s.requestFails p else (s.updProbe p (fun b => { b with errors := b.errors + 1 })).emit (.dsIn p 0)
      | .stall => match b.step with
        | .p5 _ => s.probeGo p b (.evaluate { b.got with bos := none })
        | _ => s.requestFails p

/-- A probe exceeds its overall limit (R109, R130). -/
def State.probeTimeout (s : State) (p : Port) : State :=
  match s.probing p with
  | some b => s.probeStopped p (.failed b.detail)
  | none => s

/-- A firmware pause has ended: evaluations that waited for buffers go on (R102, Table 4.14). -/
def State.probesAfterPause (s : State) : State :=
  forAll s.liftedPorts (fun s p =>
    match (s.lift.get p).bind (·.probe) with
    | some b =>
      if b.waitFw then
        let s := s.updProbe p (fun b => { b with waitFw := false })
        if b.refetch then s.refetched p b.got else s.conclude p b.got
      else s
    | none => s) s

/-! ## Resets on the wire (R72, R73, R95, R130, R132) -/

/-- Steps 1–2 of Table 4.12: the presentation returns to the Default state, its contexts close, SE0 starts. `byHost` is clear
for the reset that a SETUP starts at a reset-pending position. -/
def State.startLiftReset (s : State) (p : Port) (byHost : Bool) : State :=
  let s := s.dropCtl p
  let (s, n) := s.closeContexts p
  let was := (s.ports.get p).st
  let s := s.updLift p (fun x =>
    { x with probe := none, config := 0, alts := [], address := 0, u1Enable := false, u2Enable := false, functions := [], dsWake := false,
             busSuspended := false, pendingReset := false, reset := some (x.reset.getD 0 + n), byHost := byHost || x.byHost, held := none,
             ep0Poisoned := false, ep0Halted := false, wake := none, hostExit := false, woken := [], sof := false, recover := 0 })
  let s := if s.linkOf p = .u3 then s.setLink p .u0 else s
  let s := if was = .l1 then s.emit (.bus p .l1Exit) else s
  (s.updPort p (fun x => { x with st := .resetting, resumeK := false })).emit (.bus p .se0)

/-- A presented device's speed and path from what a reset found (Table 3.6 step 4). -/
def pathOf : FoundSpeed → Path × Speed
  | .low => (.translated, .low)
  | .full => (.translated, .full)
  | .high => (.passthrough, .high)

/-- SOFs run on a lifted bus from the end of a reset that found High-Speed (R83). -/
def State.sofRuns (s : State) (p : Port) : State := s.updLift p (fun x => { x with sof := true })

/-- The end of a host's reset at a position that is not lifted (Table 3.6 step 4): enabled, or under PORT_QUENCH left disabled (R92, Table
3.12). A native link is in U0 again. -/
def State.hostResetDone (s : State) (p : Port) (side : Side) : State :=
  let quenched := (s.ports.get p).quenchedFrom.isSome
  let s := s.updLeaf (s.partOf.get p) side (s.posOf.get p) (fun v =>
    { v with enabled := !quenched, suspended := false, cReset := true, cBhReset := v.cBhReset || v.bhReset, bhReset := false,
             cEnable := v.cEnable || (quenched && side == .usb2), speedKnown := true,
             link := if side == .superSpeed then (if quenched then .disabled else .u0) else v.link })
  s.updPort p (fun x => { x with st := if quenched then .quenched else .enabled })

/-- The SE0 of a reset ends (Tables 3.5, 3.6, 4.12, R131). [DEDUCED: log 53] -/
def State.se0End (s : State) (p : Port) (found : FoundSpeed) : State :=
  let x := s.ports.get p
  match x.st with
  | .probe =>
    match found with
    | .high => s.sofRuns p
    | _ =>
      let s := (s.endLift p).updPort p (fun x => { x with qualified := false })
      s.updPort p (fun x => { x with ssFallback := false, resumeK := false, path := (pathOf found).1, speed := (pathOf found).2 })
  | .resetting =>
    if x.ownReset then
      let s := (s.updPort p (fun x => { x with ownReset := false, st := .idle })).answer (.portReset p) stOK []
      if x.quenchedFrom.isSome then s.updPort p (fun x => { x with st := .quenched }) else s.settle p
    else if (s.lift.get p).isSome then
      match found with
      | .high => s.sofRuns p
      | _ =>
        if x.pendMove.isSome then s
        else
          let s := (s.resetDetach p).showUsb2 p (pathOf found).1 (pathOf found).2
          if x.quenchedFrom.isSome then s.updPort p (fun x => { x with st := .quenched, quenchedFrom := some .waitReset }) else s
    else if x.path = .native then s.hostResetDone p .superSpeed
    else
      let path := if x.path = .extHub && found = .high then .extHub else (pathOf found).1
      (s.updPort p (fun x => { x with path, speed := (pathOf found).2 })).hostResetDone p .usb2
  | _ => s

/-- Reset recovery ends: the first request of a probe or re-fetch is issued, or a Full- or Low-Speed device is shown (Table 3.5
steps 5–6, Table 4.12 steps 4–5); a move that waited goes on in place of the re-fetch (Table 4.14). -/
def State.recoveryEnd (s : State) (p : Port) : State :=
  let x := s.ports.get p
  match x.st, s.lift.get p with
  | .probe, some l =>
    let second := (l.probe.map (·.second)).getD false
    (s.updLift p (fun l => { l with probe := some { second } })).issueProbe p
  | .probe, none => s.showUsb2 p x.path x.speed
  | .resetting, some l =>
    if x.ownReset || l.probe.isSome then s
    else if x.pendMove.isSome then s.drainThen p .moved (fun x => x)
    else if x.quenchedFrom.isSome then s.updPort p (fun x => { x with st := .quenched })
    else (s.updLift p (fun l => { l with probe := some { refetch := true } })).issueProbe p
  | _, _ => s

/-- A host reset that reaches the virtual port only: reported complete, with the port not enabled (R92, Table 2.6). -/
def State.virtualReset (s : State) (k : Part) (side : Side) (i : Pos) (bh : Bool) : State :=
  s.updLeaf k side i (fun v => { v with cReset := true, cBhReset := v.cBhReset || bh, enabled := false })

/-- A host reset starts on the wire of a position that is not lifted: PORT_ENABLE falls, the translator is emptied (R73, R81). -/
def State.startHostReset (s : State) (k : Part) (side : Side) (i : Pos) (p : Port) (bh : Bool) (a : BusAct) : State :=
  let s := s.updLeaf k side i (fun v => { v with enabled := false, speedKnown := false, bhReset := bh })
  (s.updPort p (fun y => { y with st := .resetting, tt := [], resumeK := false })).emit (.bus p a)

/-- SetPortFeature(PORT_RESET), or BH_PORT_RESET where `bh`, on a leaf port (R73, R92, R93, R130, Tables 2.6, 3.4, 4.14). A native link takes
a hot reset or a warm reset; from SS.Disabled, after a release, only BH_PORT_RESET brings it back. [DEDUCED: log 54] -/
def State.hostPortReset (s : State) (k : Part) (i : Pos) (side : Side) (bh : Bool) : State :=
  match s.portAtPos k i with
  | none => s
  | some p =>
    let x := s.ports.get p
    let runs := x.st == .waitReset || x.st == .enabled || x.st == .suspended || x.st == .l1 || x.st == .resetting
    if !x.shown || sideOf x.path != side then s
    else if x.st == .draining || x.st == .quenched then s.virtualReset k side i bh
    else if x.path = .lifted then (s.updLeaf k side i (fun v => { v with bhReset := bh })).startLiftReset p true
    else if !runs then s
    else if x.path = .native then
      if x.st == .waitReset && !bh then s else s.startHostReset k side i p bh (if bh then .warmReset else .hotReset)
    else s.startHostReset k side i p bh .se0

/-- R132: a lifted presentation returns to the Default state, marked reset-pending. -/
def State.makeResetPending (s : State) (p : Port) : State :=
  match s.lift.get p with
  | none => s
  | some x =>
    if !x.presented || (s.ports.get p).st == .draining then s
    else
      let s := s.dropCtl p
      let (s, _) := s.closeContexts p
      s.updLift p (fun x =>
        { x with config := 0, alts := [], address := 0, u1Enable := false, u2Enable := false, functions := [], held := none, wake := none,
                 woken := [], pendingReset := x.reset.isNone })

/-! ## SETUP on a presented EP0 (R119, R132, Table 4.14) -/

/-- A SETUP on the presented EP0 of a lifted position, with the data stage of a request that is answered locally. -/
def State.setup (s : State) (p : Port) (r : Setup) (data : List Byte) : State :=
  match s.lift.get p with
  | none => s
  | some x =>
    let st := (s.ports.get p).st
    if !x.presented || st == .draining then s
    else if st = .quenched then s.nrdy0 p
    else if x.reset.isSome then
      if x.byHost then s else (s.updLift p (fun x => { x with held := some (r, data) })).nrdy0 p
    else if x.pendingReset then ((s.startLiftReset p false).updLift p (fun x => { x with held := some (r, data) })).nrdy0 p
    else
      let s := ((s.useLink p).dropCtl p).updLift p (fun x => { x with woken := [] })
      match s.lift.get p with
      | some x => s.treat p x r data
      | none => s

/-! ## Quench and release (R92–R94) -/

/-- PORT_QUENCH on a port. -/
def State.quench (s : State) (p : Port) : State :=
  let x := s.ports.get p
  let k := s.partOf.get p
  match x.st with
  | .debounce => s.updPort p (fun x => { x with st := .quenched, quenchedFrom := some .debounce })
  | .probe => (s.endLift p).updPort p (fun x => { x with st := .quenched, quenchedFrom := some .probe, path := .none, speed := .none })
  | .resetting =>
    if x.ownReset then s.updPort p (fun x => { x with quenchedFrom := some .probe })
    else s.updPort p (fun x => { x with quenchedFrom := some .resetting, st := if ((s.lift.get p).bind (·.probe)).isSome then .quenched else .resetting })
  | st =>
    if st = .waitReset || st = .enabled || st = .suspended || st = .l1 then
      let s := s.updPort p (fun x => { x with st := .quenched, quenchedFrom := some st, resumeK := false })
      match x.path with
      | .lifted => s
      | .native => (s.updLeaf k .superSpeed (s.posOf.get p) (fun v => { v with link := .disabled, enabled := false })).emit (.bus p .ssU3)
      | _ => s.updLeaf k .usb2 (s.posOf.get p) (fun v => { v with enabled := false, cEnable := true })
    else s

/-- PORT_RELEASE on a port (R93, R94, Table 4.14). -/
def State.releasePort (s : State) (p : Port) : State :=
  let x := s.ports.get p
  if x.st = .resetting then s.updPort p (fun x => { x with quenchedFrom := none })
  else if x.st != .quenched then s
  else if !x.presented then (s.updPort p PortState.cleared).settle p
  else
    let from_ := x.quenchedFrom
    let s := s.updPort p (fun x => { x with quenchedFrom := none })
    match x.path, s.lift.get p with
    | .lifted, some l =>
      if l.reset.isSome then
        ((s.updPort p (fun x => { x with st := .resetting })).updLift p (fun l => { l with probe := some { refetch := true } })).issueProbe p
      else if l.busSuspended then s.updPort p (fun x => { x with st := .suspended })
      else if from_ = some .l1 then (s.updPort p (fun x => { x with st := .l1 })).busWakes p
      else (s.updPort p (fun x => { x with st := .enabled })).busWakes p
    | _, _ => s.updPort p (fun x => { x with st := .waitReset })

/-! ## Suspend, resume and wake (R87, R134, R135, R165–R168) -/

/-- The functions in function suspend with remote wake enabled, ascending (Table 5.9 step 5). -/
def LiftPort.wakers (x : LiftPort) : List Nat := (x.functions.filter (fun f => f.suspended && f.wake)).map (·.first)

/-- The functions that had a wake pending, as a map: bit i for first interface i (R167). -/
def wakeMap (l : List Nat) : Nat := ((l.eraseDups.filter (· < 32)).map (2 ^ ·)).sum

/-- LIFT_WAKE_COLLISION (R167). -/
def State.collision (s : State) (p : Port) (order : Nat) (delta : Nat) (map : Nat) : State :=
  let s := s.count p 0 (fun k => { k with wakeCollisions := up1 k.wakeCollisions })
  s.portEvent p 0x8403 ([BitVec.ofNat 8 order, 0] ++ le16 (min delta 65535) ++ le32 map)

/-- Send Function Wake for each function in function suspend with remote wake enabled, and end the wake window (Table 5.9 step 5); it is
sent again where the host has not responded. -/
def State.functionWakes (s : State) (p : Port) : State :=
  match s.lift.get p with
  | none => s
  | some x =>
    let l := if (s.ports.get p).st = .quenched then [] else x.wakers
    (s.updLift p (fun x => { x with wake := none, woken := l, notify := 20000 })).emits (l.map (fun i => .functionWake p i))

/-- PCEk takes over a device's K, unless it drives K already. -/
def State.driveK (s : State) (p : Port) : State :=
  if (s.ports.get p).resumeK then s else (s.updPort p (fun y => { y with resumeK := true })).emit (.bus p .resumeK)

/-- The USB 2.0 side of UPk signals resume upstream, where it is suspended and the host has enabled remote wake (R195). -/
def State.usb2Signals (s : State) (k : Part) : State :=
  if (s.ups.get k).usb2 = .suspended && ((s.u2Tree.get k).hubs.get 0).remoteWake then s.emit (.up k .usb2Resume) else s

/-- Remote-wake K on a lifted bus (Table 5.9, R165, R166, R168). A host exit that began before t0 makes a collision with ORDER 1; a wake
of functions alone needs no link to move. [DEDUCED: log 94] -/
def State.liftedWake (s : State) (p : Port) (x : LiftPort) (delta : Nat) : State :=
  let k := s.partOf.get p
  let own := (s.ports.get p).resumeK
  let s := (s.count p 0 (fun c => { c with wakes := up1 c.wakes })).driveK p
  if !x.dsWake then s
  else if s.linkOf p = .u3 then
    if x.hostExit then s.collision p 1 delta (wakeMap x.wakers)
    else
      ((s.updLift p (fun x => { x with wake := some x.wakers })).setLink p .recovery).signalU3Exit k
  else if own then s
  else if s.wasU3 p then s.collision p 1 delta (wakeMap x.wakers)
  else s.functionWakes p

/-- Remote-wake K recognised: on a lifted bus; on a passthrough or translated port that is selectively suspended, that takes part in a
global suspend, or whose bus is in L1 (R87, R89, Table 3.12); or the wake of a native device whose link is in U3 (R193). -/
def State.remoteWakeK (s : State) (p : Port) (delta : Nat) : State :=
  let k := s.partOf.get p
  let y := s.ports.get p
  match s.lift.get p with
  | some x => if !x.presented || !x.busSuspended || y.st == .draining then s else s.liftedWake p x delta
  | none =>
    if y.path == .passthrough || y.path == .translated || y.path == .extHub then
      if y.st = .suspended || (y.st == .enabled && (s.ups.get k).usb2 == .suspended) then (s.driveK p).usb2Signals k
      else if y.st = .l1 then
        ((s.updLeaf k .usb2 (s.posOf.get p) (fun v => { v with cL1 := true })).updPort p (fun y => { y with st := .enabled })).emit (.bus p .l1Exit)
      else s
    else if y.path == .native && s.linkOf p == .u3 then
      ((s.updLeaf k .superSpeed (s.posOf.get p) (fun v => { v with link := .u0, cLink := true })).emit (.bus p .ssU0)).signalU3Exit k
    else s

/-- A Suspended partition is Connected again, in a mode that permits it (R29, Table 2.9). -/
def State.wakePart (s : State) (k : Part) : State :=
  s.updPart k (fun x => if x.st = .suspended && s.mode != .night then { x with st := .connected } else x)

/-- The upstream exit of a lifted wake is complete: the virtual link is in U0 and Function Wake is sent (Table 5.9 steps 4–5). [PRESUMED: log 92] -/
def State.u3ExitDone (s : State) (p : Port) : State :=
  match (s.lift.get p).bind (·.wake) with
  | none => s
  | some _ =>
    let k := s.partOf.get p
    let s := s.setLink p .u0
    let s := s.updUp k (fun u =>
      if u.link = .u3 then { u with link := .u0, ownExit := false, counters := { u.counters with linkRecoveries := satAdd 32 u.counters.linkRecoveries 1 } } else u)
    (s.wakePart k).functionWakes p

/-- A host-initiated exit from U3 within the wake window (R166): the wake is cancelled, no Function Wake, the event. [DEDUCED: log 94] -/
def State.wakeCollision (s : State) (p : Port) (delta : Nat) : State :=
  match s.lift.get p with
  | some x =>
    match x.wake with
    | some l => ((s.updLift p (fun x => { x with wake := none })).setLink p .u0).collision p 0 delta (wakeMap l)
    | none => s
  | none => s

/-- The resume K ends: Low-Speed EOP; SOFs again on a lifted bus, whose first token waits 10 ms more (Table 3.11, R87, R88). [DEDUCED: log 93] -/
def State.resumeEnd (s : State) (p : Port) : State :=
  let y := s.ports.get p
  if !y.resumeK then s
  else
    let s := (s.updPort p (fun y => { y with resumeK := false, st := if y.st = .suspended then .enabled else y.st })).emit (.bus p .lsEop)
    match s.lift.get p with
    | some _ => (s.updLift p (fun x => { x with busSuspended := false, hostExit := false, sof := true, recover := 81 })).emit (.bus p .sofStart)
    | none => s.updLeaf (s.partOf.get p) .usb2 (s.posOf.get p) (fun v => { v with suspended := false, cSuspend := v.cSuspend || v.suspended })

/-- 1 ms after EOP of an unarmed wake, the virtual link still in U3: the bus is suspended again (R168). -/
def State.unarmedResuspend (s : State) (p : Port) : State :=
  match s.lift.get p with
  | some x => if !x.dsWake && !x.busSuspended && s.linkOf p == .u3 then s.suspendOrder p else s
  | none => s

/-- Babble or a port error (R98). -/
def State.babble (s : State) (p : Port) : State :=
  let x := s.ports.get p
  let s' := s.detect (0x800 + p.val) 0x61 (portStCode x.st)
  if x.st != .enabled then s
  else if x.path = .lifted then s'.drainThen p .portError (fun x => { x with pendError := true })
  else
    let s := s'.updLeaf (s.partOf.get p) (sideOf x.path) (s.posOf.get p) (fun v => { v with enabled := false, cEnable := true })
    s.updPort p (fun x => { x with st := .waitReset, tt := [] })

end Sys2Proof.Machine
end

