-- ==== Sys2Proof/Machine/PbmOps.lean ====
section
/-! DEFINITION. What the PBM commands and the buffer-memory events do (R220–R244). -/

namespace Sys2Proof.Machine

open Sys2Proof

/-! ## Events of the bank controllers -/

/-- A merge-buffer entry 64 ns old is flushed (R225). -/
def State.mergeAge (s : State) (b : Bank) (word : Nat) : State :=
  match (s.banks.get b).merge.find? (·.word == word) with
  | some e => s.flushEntry b e
  | none => s

/-- Whether the patrol scrubber runs on a bank: enabled, filled, its quarter neither in retention nor off (R213, R230, R237). -/
def State.scrubRuns (s : State) (b : Bank) : Bool :=
  let q := s.domains.get (quarterDom (quarterOf b))
  s.pbm.scrubEnable && (s.banks.get b).filled && q != .retention && q != .off

/-- The scrubber's next word; a pass ends after row 767 (R230, Table 7.9). -/
def State.scrubAdvance (s : State) (b : Bank) : State :=
  s.updBank b (fun x =>
    if x.scrubAt + 1 < 49152 then { x with scrubAt := x.scrubAt + 1 }
    else { x with scrubAt := 0, scrubPasses := satAdd 32 x.scrubPasses 1 })

/-- What the scrubber does with the word it has read (Table 7.6). `pending`: the word has a merge-buffer entry or a queued write. [DEDUCED: log 67] -/
def State.scrubAct (s : State) (b : Bank) (row word : Nat) (r : WordRead) (pending : Bool) : State :=
  let rewrite := fun (s : State) (cw : BitVec 137) =>
    (s.updBank b (fun x => { x with scrubRewrites := satAdd 32 x.scrubRewrites 1 })).storeWord b row word cw
  let record := fun (s : State) (kind : Byte) =>
    s.report { source := BitVec.ofNat 12 (0x240 + b.val), kind, info := BitVec.ofNat 32 (wordAddr b row word), injected := r.injected }
  match r.cls with
  | .clean => s
  | .correctable _ =>
    if pending then s.updBank b (fun x => { x with scrubSkipped := satAdd 32 x.scrubSkipped 1 })
    else rewrite s (pbmEncode r.data)
  | c =>
    if s.rowHeld b row then record s (if c = .poison then 0x02 else 0x01)
    else if pending then record s 0x06
    else record (rewrite s fillPattern) 0x06

/-- The patrol scrubber reads the next word of a bank and acts on it (R230, R231). -/
def State.scrubWord (s : State) (b : Bank) (queued : Bool) : State :=
  if s.scrubRuns b then
    let at_ := (s.banks.get b).scrubAt
    let pending := queued || (s.banks.get b).merge.any (·.word == at_)
    let (s, r) := s.readWord b (at_ / 64) (at_ % 64)
    (s.scrubAct b (at_ / 64) (at_ % 64) r pending).scrubAdvance b
  else s

/-- A BUCKET_LEAK interval ends: each bucket loses 1, unless its quarter is in retention or off (R220, R237, R246). -/
def State.bucketLeak (s : State) : State :=
  let runs := fun (b : Bank) =>
    let q := s.domains.get (quarterDom (quarterOf b))
    q != .retention && q != .off
  { s with
    banks := Tab.of (fun b => let x := s.banks.get b; if runs b then { x with bucket := x.bucket - 1 } else x)
    ttBucket := Tab.of (fun k => s.ttBucket.get k - 1) }

/-- A row of a closed bank that holds no data moves to a free row elsewhere (R236). -/
def State.emptyRowMove (s : State) (b : Bank) (row : Nat) : State :=
  match s.rings.find? (fun r => r.rows.contains (b, row)) with
  | some r =>
    if (s.banks.get b).closed && !r.rowBusy (r.rows.idxOf (b, row)) then s.moveRow b row false else s
  | none => s

/-- A row of a closed bank that still holds data after 100 ms moves with its data (R236). -/
def State.timeoutRowCopy (s : State) (b : Bank) (row : Nat) : State :=
  match s.rings.find? (fun r => r.rows.contains (b, row)) with
  | some r => if (s.banks.get b).closed && r.rowBusy (r.rows.idxOf (b, row)) then s.moveRow b row true else s
  | none => s

/-- A correction in a TT buffer raises the PCE's bucket; its crossing makes a fault record, with the value just above the threshold, and no PBM event (R220, R246). -/
def State.raiseTtBucket (s : State) (k : Slot) (by_ : Nat) (inj : Bool) : State :=
  let old := s.ttBucket.get k
  let new := min 255 (old + by_)
  let s := { s with ttBucket := s.ttBucket.put k new }
  if old ≤ s.pbm.ttBucketThreshold ∧ s.pbm.ttBucketThreshold < new then
    s.report { source := BitVec.ofNat 12 (0x130 + k.val), kind := 0x03, info := BitVec.ofNat 32 (s.pbm.ttBucketThreshold + 1), injected := inj }
  else s

/-! ## The PBM commands (Table 11.14) -/

/-- The PBM_GET_STATS response of a bank (Table 11.14). -/
def State.bankStats (s : State) (b : Bank) (tracker : Bool) : List Byte :=
  let x := s.banks.get b
  [BitVec.ofNat 8 b.val, 0, 0, 0] ++ le32 x.corrected ++ le32 x.uncorrectable ++ le32 x.poisonReads ++ le32 x.poisonWrites ++
    le32 x.mergeRmw ++ [BitVec.ofNat 8 x.bucket, BitVec.ofNat 8 (x.sparesUsed + bnat x.closed * 128)] ++
    le16 (s.rowsAllocated b) ++ le32 x.scrubPasses ++ le32 x.scrubRewrites ++ le32 x.scrubSkipped ++
    (if tracker then s.sticky.flatMap stickyWords ++ zeros (8 * (64 - s.sticky.length)) else [])

/-- The clear option zeroes the bank's counters and bucket and frees its tracker entries (R244). -/
def State.clearStats (s : State) (b : Bank) : State :=
  { s.updBank b (fun x =>
      { x with corrected := 0, uncorrectable := 0, poisonReads := 0, poisonWrites := 0, mergeRmw := 0, bucket := 0,
               scrubPasses := 0, scrubRewrites := 0, scrubSkipped := 0 }) with
    sticky := s.sticky.filter (fun e => e.word.toNat / 65536 != b.val) }

/-- PBM_GET_STATS: any session; CLEAR needs a steward (R244, Table 11.14). -/
def opPbmGetStats (m : VcpMsg) (b : Bank) (s : State) : State × Reply :=
  let o := get8 m.payload 0
  if m.payload.length != 1 || 4 ≤ o then refuse s stBadArg
  else if bit o 0 && !s.isSteward m.session then refuse s stDenied
  else
    let out := s.bankStats b (bit o 1)
    (if bit o 0 then s.clearStats b else s, .done stOK out)

/-- Whether a PBM_SET_SCRUB request is well formed and in range (Table 7.8). [DESIGN CHOICE: log 32] -/
def scrubArgsOk (p : List Byte) : Bool :=
  let v := get8 p 0
  let rng := fun (i n lo hi : Nat) => !bit v i || (lo ≤ n && n ≤ hi)
  p.length == 8 && v < 64 && rng 0 (get8 p 1) 0 1 && rng 1 (get8 p 2) 1 168 && rng 2 (get16 p 4) 1 3600 &&
    rng 3 (get8 p 3) 1 254 && rng 4 (get8 p 6) 2 15 && rng 5 (get8 p 7) 1 254

/-- The PBM settings a request leaves (R243). -/
def applyScrub (p : List Byte) (x : PbmSettings) : PbmSettings :=
  let v := get8 p 0
  { scrubEnable := if bit v 0 then get8 p 1 == 1 else x.scrubEnable
    scrubPeriod := if bit v 1 then get8 p 2 else x.scrubPeriod
    bucketLeak := if bit v 2 then get16 p 4 else x.bucketLeak
    bucketThreshold := if bit v 3 then get8 p 3 else x.bucketThreshold
    stickyCount := if bit v 4 then get8 p 6 else x.stickyCount
    ttBucketThreshold := if bit v 5 then get8 p 7 else x.ttBucketThreshold }

/-- PBM_SET_SCRUB (R243). -/
def opPbmSetScrub (m : VcpMsg) (s : State) : State × Reply :=
  if scrubArgsOk m.payload then ok { s with pbm := applyScrub m.payload s.pbm } else refuse s stBadArg

/-- PBM_RETIRE (R232, R233, R236). -/
def opPbmRetire (m : VcpMsg) (b : Bank) (s : State) : State × Reply :=
  let p := m.payload
  if p.length != 4 || 2 ≤ get8 p 0 || byteAt p 1 != 0 then refuse s stBadArg
  else if get8 p 0 = 1 then
    if get16 p 2 != 0 then refuse s stBadArg
    else (s.closeBank b, .done stOK [0xFF, BitVec.ofNat 8 (s.banks.get b).sparesUsed])
  else if 768 ≤ get16 p 2 then refuse s stBadArg
  else match s.retire b (get16 p 2) with
    | none => refuse s stDenied
    | some (t, spare) => (t, .done stOK [BitVec.ofNat 8 spare, BitVec.ofNat 8 (t.banks.get b).sparesUsed])

/-- The 137-bit mask of a PBM_FLIPMASK request: byte i of bytes 8–25 holds positions 8i+7 to 8i. -/
def flipBits (p : List Byte) : BitVec 137 :=
  (List.range 18).foldl (fun a i => a ||| ((byteAt p (8 + i)).setWidth 137 <<< (8 * i))) 0

/-- PBM_FLIPMASK (R240, R241): arms the bank's injector, or disarms it with a mask of zeros. -/
def opPbmFlipmask (m : VcpMsg) (b : Bank) (s : State) : State × Reply :=
  let p := m.payload
  let given := bit (get8 p 0) 0
  let a := get32 p 4
  if p.length != 26 || 2 ≤ get8 p 0 || !zeroSlice p 1 3 || 2 ≤ get8 p 25 then refuse s stBadArg
  else if (if given then a / 65536 != b.val || 768 ≤ a / 64 % 1024 else a != 0) then refuse s stBadArg
  else
    let mask := flipBits p
    ok (s.updBank b (fun x =>
      { x with flip := if mask = 0 then none else some { mask, word := if given then some (a % 65536) else none } }))

end Sys2Proof.Machine
end

