-- ==== Sys2Proof/Machine/Hubs.lean ====
section
/-! DEFINITION. Hub-class requests (Table 2.4), top-hub resets, translators, the repeater, native packets, MF standard requests (R38, R42, R80, R86, R203). -/

namespace Sys2Proof.Machine

open Sys2Proof

/-! ## Completing a request on a hub or the MF -/

/-- A read completes: its data, no longer than wLength. -/
def State.ctlRead (s : State) (k : Part) (r : Setup) (bytes : List Byte) : State :=
  s.emits [.ctlData k (bytes.take r.wLength.toNat), .ctlDone k]

/-- A request without data completes. -/
def State.ctlOk (s : State) (k : Part) : State := s.emit (.ctlDone k)

/-- Request Error. -/
def State.ctlError (s : State) (k : Part) : State := s.emit (.ctlStall k)

/-! ## Resets within the tree (R132, Tables 2.4, 6.4) -/

/-- A USB 2.0 position under a reset above it: its translator is emptied, its port awaits the host's reset of the position. -/
def State.usb2PositionReset (s : State) (p : Port) : State :=
  let x := s.ports.get p
  if !x.shown || sideOf x.path != .usb2 then s
  else if x.st == .enabled || x.st == .suspended || x.st == .l1 || x.st == .resetting then
    s.updPort p (fun x => { x with st := .waitReset, tt := [], ttFrame := none, resumeK := false })
  else s.updPort p (fun x => { x with tt := [], ttFrame := none })

/-- The positions of some leaf hubs are treated as under an upstream partition reset. -/
def State.resetPositions (s : State) (k : Part) (side : Side) (which : Pos → Bool) : State :=
  forAll ((s.portsOf k).filter (fun p => which (s.posOf.get p))) (fun s p =>
    match side with
    | .superSpeed => if (s.ports.get p).path = .lifted then s.makeResetPending p else s
    | .usb2 => s.usb2PositionReset p) s

/-- The MF's USB presentation restarts; its session keeps its state (R38). -/
def State.restartMf (s : State) (k : Part) : State := s.updMf k (fun m => { side := m.side })

/-- The leaf hub behind a top-hub port other than port 9. -/
def leafBehind (n : Fin 9) : HubIx := ⟨1 + n.val % 8, by omega⟩

/-- A leaf hub returns to its default state; its positions show what `shown` says is connected, and are treated as under an upstream
partition reset (Table 2.4). -/
def State.leafDefault (s : State) (k : Part) (side : Side) (h : HubIx) (shown : Pos → Bool) : State :=
  let s := s.updTree k side (fun t =>
    { t with hubs := t.hubs.put h {}, leaf := Tab.of (fun i => if leafOf i = h then freshPort (shown i) else t.leaf.get i) })
  s.resetPositions k side (fun i => leafOf i == h)

/-- A reset of a top-hub port, or a BH reset where `bh` (Table 2.4). -/
def State.topPortReset (s : State) (k : Part) (side : Side) (n : Fin 9) (bh : Bool) : State :=
  let v := (s.treeOf k side).top.get n
  if !v.connected || (side == .superSpeed && !v.powered) then s
  else
    let s := s.updTop k side n (fun v =>
      { v with enabled := true, suspended := false, cReset := true, cBhReset := v.cBhReset || bh, speedKnown := true, link := .u0 })
    if n.val = 8 then s.restartMf k
    else
      let t := s.treeOf k side
      s.leafDefault k side (leafBehind n) (fun i => (t.leaf.get i).connected)

/-! ## Port power (Table 2.4) -/

/-- Change a port of a hub tree. -/
def State.updHubPort (s : State) (k : Part) (side : Side) (q : HubPort) (f : VPort → VPort) : State :=
  match q with
  | .top n => s.updTop k side n f
  | .leaf i => s.updLeaf k side i f

/-- A port of a hub tree. -/
def State.hubPort (s : State) (k : Part) (side : Side) (q : HubPort) : VPort :=
  match q with
  | .top n => (s.treeOf k side).top.get n
  | .leaf i => (s.treeOf k side).leaf.get i

/-- The native port at a position, where one is. -/
def State.nativeAt (s : State) (k : Part) (q : HubPort) : Option Port :=
  match q with
  | .top _ => none
  | .leaf i => (s.portAtPos k i).bind (fun p => if (s.ports.get p).path = .native then some p else none)

/-- Whether a device stands at a position of a side. -/
def State.presentAt (s : State) (k : Part) (side : Side) (i : Pos) : Bool :=
  match s.portAtPos k i with
  | some p => (s.ports.get p).shown && sideOf (s.ports.get p).path == side
  | none => false

/-- ClearPortFeature(PORT_POWER) (Table 2.4): a Powered-off leaf port shows no connection, and behind a Powered-off top port none of the 14
positions does. [DEDUCED: log 54] -/
def State.clearPortPower (s : State) (k : Part) (side : Side) (q : HubPort) : State :=
  match side with
  | .usb2 => s.ctlOk k
  | .superSpeed =>
    let s := s.updHubPort k side q (fun v => { v with powered := false, enabled := false, link := .disabled })
    let s := match s.nativeAt k q with
      | some p => s.emit (.bus p .ssDisabled)
      | none => s
    let s := match q with
      | .top n => if n.val = 8 then s.updMf k (fun _ => {}) else s.leafDefault k side (leafBehind n) (fun _ => false)
      | .leaf _ => s
    s.ctlOk k

/-- SetPortFeature(PORT_POWER) (Table 2.4): what is there is shown as a new connection, its link in U0. [DEDUCED: log 54] -/
def State.setPortPower (s : State) (k : Part) (side : Side) (q : HubPort) : State :=
  match side with
  | .usb2 => s.ctlOk k
  | .superSpeed =>
    if (s.hubPort k side q).powered then s.ctlOk k
    else
      let s := s.updHubPort k side q (fun v =>
        { v with powered := true, cConnect := v.connected, enabled := v.connected, link := if v.connected then .u0 else .disabled })
      let s := match s.nativeAt k q with
        | some p => s.emit (.bus p .ssEnable)
        | none => s
      let s := match q with
        | .top n =>
          if n.val = 8 then (if s.mfSide k == some Side.superSpeed then s.placeMf k (some .superSpeed) else s)
          else
            let t := s
            s.updTree k side (fun tr =>
              { tr with leaf := Tab.of (fun i => if leafOf i = leafBehind n then freshPort (t.presentAt k side i) else tr.leaf.get i) })
        | .leaf _ => s
      s.ctlOk k

/-! ## Selective suspend (R87) -/

/-- SetPortFeature(PORT_SUSPEND) on the USB 2.0 side. -/
def State.hubSuspend (s : State) (k : Part) (q : HubPort) : State :=
  let s := s.ctlOk k
  if !(s.hubPort k .usb2 q).enabled then s
  else
    let s := s.updHubPort k .usb2 q (fun v => { v with suspended := true })
    match q with
    | .top _ => s
    | .leaf i => match s.portAtPos k i with
      | some p =>
        if (s.ports.get p).st == .enabled && (s.ports.get p).path != .lifted then
          (s.updPort p (fun x => { x with st := .suspended })).emit (.bus p .sofStop)
        else s
      | none => s

/-- A port that is not lifted leaves L1: the exit is signalled, and C_PORT_L1 set (R89). [PRESUMED: log 90] -/
def State.leaveL1 (s : State) (k : Part) (i : Pos) (p : Port) : State :=
  ((s.updLeaf k .usb2 i (fun v => { v with cL1 := true })).updPort p (fun y => { y with st := .enabled })).emit (.bus p .l1Exit)

/-- ClearPortFeature(PORT_SUSPEND), or PORT_L1: K is driven for 20 ms from the earlier start (Table 3.12); a bus in L1 leaves it (R89). -/
def State.hubResume (s : State) (k : Part) (q : HubPort) : State :=
  let s := s.ctlOk k
  match q with
  | .top n => s.updTop k .usb2 n (fun v => if v.suspended then { v with suspended := false, cSuspend := true } else v)
  | .leaf i => match s.portAtPos k i with
    | some p =>
      if (s.ports.get p).path == .lifted then s
      else if (s.ports.get p).st = .l1 then s.leaveL1 k i p
      else if (s.ports.get p).st == .suspended && !(s.ports.get p).resumeK then
        (s.updPort p (fun x => { x with resumeK := true })).emit (.bus p .resumeK)
      else s
    | none => s

/-- SetAndTestFeature(PORT_L1): the port sends an LPM transaction to its device and reports how it answered (R89): 0x10 where the bus
is in L1, 0x20 where the device did not take it. [PRESUMED: log 90] -/
def State.hubLpm (s : State) (k : Part) (q : HubPort) (r : Setup) (ack : Bool) : State :=
  let port := match q with
    | .leaf i => s.portAtPos k i
    | .top _ => none
  match port with
  | some p =>
    let y := s.ports.get p
    if y.path == .passthrough && y.st == .enabled && y.shown && s.dieUp p then
      let s := s.emit (.bus p (.lpmL1 (Fin.ofNat 16 (r.wIndex.toNat / 4096))))
      let s := if ack then s.updPort p (fun y => { y with st := .l1 }) else s
      s.ctlRead k r [if ack then 0x10 else 0x20]
    else s.ctlError k
  | none => s.ctlError k

/-! ## Transaction translators (R80, R81, R86, R245, R246) -/

/-- The 64-bit words of bytes in a TT buffer. -/
def ttWords : Nat → List Byte → List (BitVec 64)
  | 0, _ => []
  | _ + 1, [] => []
  | n + 1, l => (packBytes (l.take 8)).setWidth 64 :: ttWords n (l.drop 8)

/-- The check bits stored with bytes in a TT buffer (R245). -/
def ttChecks (l : List Byte) : List (BitVec 8) := (ttWords (l.length + 1) l).map ttCheck

/-- Read a word of a TT buffer through the PCE's checker: a correction raises the bucket, an uncorrectable result is recorded, and an armed
injection point inverts the check bits of this one read (R242, R245, R246). -/
def State.ttReadWord (s : State) (p : Port) (d : BitVec 64) (c : BitVec 8) : State × Option (BitVec 64) :=
  let k := slotOf p
  let (s, syn, inj) := match s.armed (0x130 + k.val) 0x01 with
    | some i => (s.spend i, ttSyndrome (c ++ d) ^^^ 0xFF, true)
    | none => (s, ttSyndrome (c ++ d), false)
  match ttClassify syn with
  | .clean => (s, some d)
  | .correctable i => (s.raiseTtBucket k 1 inj, some (if i < 64 then d ^^^ (1#64 <<< i) else d))
  | _ =>
    (s.report { source := BitVec.ofNat 12 (0x130 + k.val), kind := 0x01, info := BitVec.ofNat 32 (p.val % 32), injected := inj }, none)

/-- Read words of a TT buffer; none where one of them is uncorrectable. -/
def State.ttReadWords (s : State) (p : Port) : List (BitVec 64) → List (BitVec 8) → State × Option (List Byte)
  | d :: ds, c :: cs =>
    match s.ttReadWord p d c with
    | (s, none) => (s, none)
    | (s, some d) =>
      let (s, rest) := s.ttReadWords p ds cs
      (s, rest.map (fun l => (List.range 8).map (fun i => (d >>> (8 * i)).setWidth 8) ++ l))
  | _, _ => (s, some [])

/-- Read bytes of a TT buffer stored with their check bits. -/
def State.ttRead (s : State) (p : Port) (bytes : List Byte) (check : List (BitVec 8)) : State × Option (List Byte) :=
  let (s, r) := s.ttReadWords p (ttWords (bytes.length + 1) bytes) check
  (s, r.map (·.take bytes.length))

/-- Whether a translator can take a start-split: 16 periodic entries in a micro-frame, 2,048 bytes of periodic data, four non-periodic
buffers of 64 bytes (Table 3.10). [PRESUMED: log 90] -/
def ttRoom (l : List TtEntry) (periodic : Bool) (n : Nat) : Bool :=
  if periodic then
    l.countP (fun e => e.periodic && e.age == 0) < 16 && l.countP (·.periodic) < 64 &&
      ((l.filter (·.periodic)).map (·.bytes.length)).sum + n ≤ 2048
  else l.countP (fun e => !e.periodic) < 4 && n ≤ 64

/-- Change the entries of a key. -/
def State.updTt (s : State) (p : Port) (key : BitVec 16) (f : TtEntry → TtEntry) : State :=
  s.updPort p (fun x => { x with tt := x.tt.map (fun e => if e.key = key then f e else e) })

/-- The translator issues the transaction of an entry downstream; one whose data is uncorrectable is discarded, and answered as a bus
error (R246). With the port-die link not active it waits (R17). -/
def State.ttIssue (s : State) (p : Port) (e : TtEntry) : State :=
  if e.sent || !s.dieUp p then s
  else
    let (s, r) := s.ttRead p e.bytes e.check
    let s := s.updTt p e.key (fun e => { e with sent := true, lost := r.isNone, bytes := if r.isNone then [] else e.bytes })
    match r with
    | some l => s.emit (.forwardDown p l)
    | none => s

/-- A handshake of the translator to the host, by its packet identifier. [PRESUMED: log 90] -/
def State.ttShake (s : State) (k : Part) (pid : Byte) : State := s.emit (.forwardUp k [pid])

/-- The answer to a complete-split whose transaction ended in a bus error (R246): ERR, or STALL from a non-periodic buffer. [PRESUMED: log 90] -/
def State.ttError (s : State) (k : Part) (periodic : Bool) : State := s.ttShake k (if periodic then 0x3C else 0x1E)

/-- The complete-split of an entry whose transaction has ended: what the device sent passes through the buffer (R245, R246). -/
def State.ttAnswer (s : State) (k : Part) (p : Port) (e : TtEntry) : XferResult → State
  | .data bytes =>
    match s.ttRead p bytes (ttChecks bytes) with
    | (s, some l) => s.emit (.forwardUp k l)
    | (s, none) => s.ttError k e.periodic
  | .stall => s.ttShake k 0x1E
  | .nak => s.ttShake k 0x5A
  | .busError => s.ttError k e.periodic

/-- A host's split transaction (R80). A start-split without a buffer is answered NAK where it is not periodic; its transaction goes out
at once, a periodic one in the next micro-frame. A complete-split before its transaction has ended is answered NYET. [PRESUMED: log 90] -/
def State.split (s : State) (k : Part) (i : Pos) (op : SplitOp) : State :=
  match s.portAtPos k i with
  | none => s
  | some p =>
    let x := s.ports.get p
    if x.path != .translated || x.st != .enabled then s
    else match op with
      | .start key periodic bytes =>
        if ttRoom x.tt periodic bytes.length then
          let e : TtEntry := { key, periodic, bytes, check := ttChecks bytes }
          let s := s.updPort p (fun x => { x with tt := x.tt ++ [e] })
          if periodic then s else s.ttIssue p e
        else if periodic then s
        else s.emit (.notReady k)
      | .complete key answer =>
        match x.tt.find? (·.key == key) with
        | none => s.ttShake k 0x96
        | some e =>
          let gone := fun (s : State) => s.updPort p (fun x => { x with tt := x.tt.filter (·.key != key) })
          if e.lost then (gone s).ttError k e.periodic
          else match e.sent, answer with
            | true, some a => (gone s).ttAnswer k p e a
            | _, _ => s.ttShake k 0x96

/-- A host SOF reaches a translator: periodic entries grow one micro-frame older and leave the pipeline after the fourth; what waits goes
downstream; with the first SOF of a frame the translator issues its own, or a Low-Speed keep-alive (R80, R86, R87). [PRESUMED: log 90] -/
def State.ttTick (s : State) (p : Port) (frame : BitVec 11) : State :=
  let x := s.ports.get p
  let s := s.updPort p (fun x =>
    { x with tt := (x.tt.map (fun e => if e.periodic then { e with age := e.age + 1 } else e)).filter (fun e => decide (e.age ≤ 4)),
             ttFrame := some frame })
  let s := if x.ttFrame = some frame || !s.dieUp p then s
    else s.emit (if x.speed = .low then .bus p .lsKeepAlive else .dsSof p frame)
  forAll (s.ports.get p).tt (fun s e => s.ttIssue p e) s

/-- CLEAR_TT_BUFFER clears the entry in the addressed port's own translator (R42, R81). -/
def State.clearTt (s : State) (k : Part) (i : Pos) (key : BitVec 16) : State :=
  let s := s.ctlOk k
  match s.portAtPos k i with
  | some p => s.updPort p (fun x => { x with tt := x.tt.filter (·.key != key) })
  | none => s

/-- RESET_TT empties the addressed port's translator only (R42, R81). -/
def State.resetTt (s : State) (k : Part) (i : Pos) : State :=
  let s := s.ctlOk k
  match s.portAtPos k i with
  | some p => s.updPort p (fun x => { x with tt := [] })
  | none => s

/-! ## The repeater and native packets (R86, R89, R96, R192) -/

/-- The frame number of an SOF packet. [PRESUMED: log 90] -/
def sofFrame : List Byte → Option (BitVec 11)
  | [0xA5, lo, hi] => some (BitVec.ofNat 11 (lo.toNat + 256 * (hi.toNat % 8)))
  | _ => none

/-- A host packet for a passthrough position is repeated downstream and the answer upstream, where the port-die link is active (R17); an
LPM transaction that the device acknowledges takes the bus to L1, in which nothing is repeated (R89). An SOF on the USB 2.0 side runs a
translator (R86). [DEDUCED: log 54] -/
def State.repeat_ (s : State) (k : Part) (i : Pos) (packet answer : List Byte) (lpmAck : Bool) : State :=
  match s.portAtPos k i with
  | none => s
  | some p =>
    let x := s.ports.get p
    if !x.shown || x.st != .enabled || !s.dieUp p then s
    else if x.path == .passthrough || x.path == .extHub then
      let s := s.emit (.forwardDown p packet)
      let s := if answer.isEmpty then s else s.emit (.forwardUp k answer)
      if lpmAck && x.path == .passthrough then s.updPort p (fun x => { x with st := .l1 }) else s
    else if x.path == .translated then
      match sofFrame packet with
      | some f => s.ttTick p f
      | none => s
    else s

/-- A packet of a native SuperSpeed position is stored in its PBM packet buffer of that direction and forwarded; one that holds a lost word
is discarded (R96, R218). A packet for a link in U1 or U2 is deferred while the link returns to U0 (R192); in U3 none passes. [DEDUCED: log 101] -/
def State.nativePacket (s : State) (p : Port) (fromDevice : Bool) (bytes : List Byte) : State :=
  let x := s.ports.get p
  let k := s.partOf.get p
  let link := s.linkOf p
  if x.path != .native || x.st != .enabled || link == .u3 || link == .disabled then s
  else if !fromDevice && (link == .u1 || link == .u2) then ((s.useLink p).emit (.bus p .ssU0)).emit (.deferred k p)
  else
    match (s.useLink p).passBuffer (.native p fromDevice) bytes with
    | (s, some l) => s.emit (if fromDevice then .forwardUp k l else .forwardDown p l)
    | (s, none) => s

/-! ## Every other request to a hub (R42) -/

/-- The port a hub-class port request names on hub `h`. -/
def hubPortOf (h : HubIx) (n : Nat) : Option HubPort :=
  if h.val = 0 then (if g : 1 ≤ n ∧ n ≤ 9 then some (.top ⟨n - 1, by omega⟩) else none)
  else if g : 1 ≤ n ∧ n ≤ 14 then some (.leaf ⟨14 * (h.val - 1) + (n - 1), by omega⟩) else none

/-- The speed behind a virtual port, and whether its port is in reset or in L1. -/
def State.behind (s : State) (k : Part) (side : Side) (q : HubPort) : Speed × Bool × Bool :=
  match q with
  | .top _ => (.high, false, false)
  | .leaf i => match s.portAtPos k i with
    | some p =>
      let x := s.ports.get p
      if x.shown && sideOf x.path == side then (if x.path = .lifted then .gen1x1 else x.speed, x.st == .resetting, x.st == .l1)
      else (.none, false, false)
    | none => (.none, false, false)

/-- SetPortFeature(PORT_LINK_STATE) on a SuperSpeed hub port; a native position's real link follows (R192), but comes back after a
release by BH_PORT_RESET alone (R93). -/
def State.setPortLink (s : State) (k : Part) (q : HubPort) (code : Nat) : State :=
  let link : Option VLink := match code with
    | 0 => some .u0
    | 1 => some .u1
    | 2 => some .u2
    | 3 => some .u3
    | 4 => some .disabled
    | 5 => some .disabled
    | _ => none
  match link with
  | none => s.ctlError k
  | some l =>
    let v := s.hubPort k .superSpeed q
    let waits := match s.nativeAt k q with
      | some p => (s.ports.get p).st != .enabled
      | none => false
    let back := code == 5 && v.connected && !waits
    let s := if code < 4 && v.link == .disabled then s
      else s.updHubPort k .superSpeed q (fun v =>
        if back then { v with enabled := true, link := .u0 }
        else { v with link := l, enabled := v.enabled && l != .disabled, cLink := v.cLink || (code == 0 && v.link == .u3),
                      wasU3 := v.wasU3 || l == .u3 })
    let act : BusAct := match l with
      | .u0 => .ssU0
      | .u1 => .ssU1
      | .u2 => .ssU2
      | .u3 => .ssU3
      | .disabled => .ssDisabled
      | .recovery => .ssU0
    let s := match s.nativeAt k q with
      | some p => s.emit (.bus p (if back then .ssU0 else act))
      | none => s
    s.ctlOk k

/-- SetPortFeature(PORT_TEST): the port drives the test pattern that the selector names. [PRESUMED: log 90] -/
def State.portTest (s : State) (k : Part) (q : HubPort) (sel : Nat) : State :=
  if sel = 0 || 5 < sel then s.ctlError k
  else
    let s := s.updHubPort k .usb2 q (fun v => { v with test := BitVec.ofNat 8 sel })
    let port := match q with
      | .leaf i => s.portAtPos k i
      | .top _ => none
    let s := match port with
      | some p => if sideOf (s.ports.get p).path == Side.usb2 then s.emit (.bus p (.testMode (BitVec.ofNat 8 sel))) else s
      | none => s
    s.ctlOk k

/-- Features of a hub port that no row of its own carries. -/
def State.portFeature (s : State) (k : Part) (side : Side) (q : HubPort) (r : Setup) (set : Bool) : State :=
  let sel := r.wValue.toNat
  let arg := r.wIndex.toNat / 256
  let upd := fun (f : VPort → VPort) => (s.updHubPort k side q f).ctlOk k
  match set, side, sel with
  | false, _, 16 => upd (fun v => { v with cConnect := false })
  | false, _, 20 => upd (fun v => { v with cReset := false })
  | false, _, 19 => s.ctlOk k
  | false, .usb2, 17 => upd (fun v => { v with cEnable := false })
  | false, .usb2, 18 => upd (fun v => { v with cSuspend := false })
  | false, .usb2, 1 =>
    let s := s.updHubPort k side q (fun v => { v with enabled := false, suspended := false })
    let s := match q with
      | .leaf i => match s.portAtPos k i with
        | some p => if (s.ports.get p).path != Path.lifted then s.usb2PositionReset p else s
        | none => s
      | .top _ => s
    s.ctlOk k
  | false, .usb2, 29 => s.hubResume k q
  | false, .usb2, 30 => upd (fun v => { v with cL1 := false })
  | true, .usb2, 21 => s.portTest k q arg
  | false, .superSpeed, 25 => upd (fun v => { v with cLink := false })
  | false, .superSpeed, 26 => s.ctlOk k
  | false, .superSpeed, 29 => upd (fun v => { v with cBhReset := false })
  | true, .superSpeed, 5 => s.setPortLink k q arg
  | true, .superSpeed, 23 => upd (fun v => { v with u1Timeout := BitVec.ofNat 8 arg })
  | true, .superSpeed, 24 => upd (fun v => { v with u2Timeout := BitVec.ofNat 8 arg })
  | true, .superSpeed, 27 => upd (fun v => { v with remoteWakeMask := BitVec.ofNat 8 arg })
  | true, .superSpeed, 30 => s.ctlOk k
  | _, _, _ => s.ctlError k

/-- Change a virtual hub. -/
def State.updHub (s : State) (k : Part) (side : Side) (h : HubIx) (f : VHub → VHub) : State :=
  s.updTree k side (fun t => { t with hubs := t.hubs.upd h f })

/-- Device-level features of a hub. -/
def State.hubFeature (s : State) (k : Part) (side : Side) (h : HubIx) (sel : Nat) (set : Bool) : State :=
  match side, sel with
  | _, 1 => (s.updHub k side h (fun u => { u with remoteWake := set })).ctlOk k
  | .superSpeed, 48 => (s.updHub k side h (fun u => { u with u1Enable := set })).ctlOk k
  | .superSpeed, 49 => (s.updHub k side h (fun u => { u with u2Enable := set })).ctlOk k
  | _, _ => s.ctlError k

/-- The SuperSpeed links below a hub that comes to be configured: those of a top hub's ports, or of the positions of a leaf hub, leave
SS.Disabled for U0 (Table 6.4); a native position that a quench or its release holds does not (R92, R93). -/
def State.linksUp (s : State) (k : Part) (h : HubIx) : State :=
  let up := fun (v : VPort) => if v.powered && v.connected && v.link == .disabled then { v with enabled := true, link := .u0 } else v
  if h = 0 then s.updTree k .superSpeed (fun t => { t with top := Tab.of (fun n => up (t.top.get n)) })
  else
    let t := s
    let free := fun (i : Pos) => match t.nativeAt k (.leaf i) with
      | some p => (t.ports.get p).st == .enabled
      | none => true
    s.updTree k .superSpeed (fun t => { t with leaf := Tab.of (fun i => if leafOf i = h && free i then up (t.leaf.get i) else t.leaf.get i) })

/-- GetPortStatus (USB 2.0 11.24.2.7, USB 3.2 10.16.2.6): wValue 0 the port status, and on the SuperSpeed side 2 the extended one, whose
sublinks run at Gen 1x1 (R117, R192). -/
def State.hubPortStatus (s : State) (k : Part) (side : Side) (q : HubPort) (r : Setup) : State :=
  let b := s.behind k side q
  let st := portStatus side (s.hubPort k side q) b.2.1 b.2.2 b.1
  if r.wValue = 0 then s.ctlRead k r st
  else if r.wValue = 2 && side == .superSpeed then s.ctlRead k r (st ++ [0, 0, 0, 0])
  else s.ctlError k

/-- GET_PORT_ERR_COUNT: a virtual link has no errors; the count of a native link is a free value. [DESIGN CHOICE: log 10] -/
def State.hubErrCount (s : State) (k : Part) (q : HubPort) (r : Setup) : State :=
  match s.nativeAt k q with
  | some _ => s.tick.ctlRead k r (le16 (Config.linkErrors s.freeCount).toNat)
  | none => s.ctlRead k r [0, 0]

/-- A standard or hub-class request to a virtual hub, as USB 3.2 or USB 2.0 prescribes for the hub presented (R39, R42).
`lpmAck` says that the device behind a port takes the LPM transaction of SetAndTestFeature(PORT_L1). -/
def State.hubRequest (s : State) (k : Part) (side : Side) (h : HubIx) (r : Setup) (lpmAck : Bool) : State :=
  let u := (s.treeOf k side).hubs.get h
  let w := r.wValue.toNat
  let upd := fun (f : VHub → VHub) => (s.updHub k side h f).ctlOk k
  if !(s.parts.get k).tree then s
  else if r.is 0x80 6 then
    match s.hubGetDescriptor k side h (w / 256) (w % 256) with
    | some b => s.ctlRead k r b
    | none => s.ctlError k
  else if r.is 0x80 0 then
    s.ctlRead k r (le16 (1 + 2 * bnat (side == .usb2 && u.remoteWake) + 4 * bnat u.u1Enable + 8 * bnat u.u2Enable))
  else if r.is 0x81 0 || r.is 0x82 0 then s.ctlRead k r [0, 0]
  else if r.is 0x00 5 then upd (fun u => { u with address := BitVec.ofNat 7 w })
  else if r.is 0x80 8 then s.ctlRead k r [BitVec.ofNat 8 (bnat u.configured)]
  else if r.is 0x00 9 then
    if 1 < w then s.ctlError k
    else
      let s := s.updHub k side h (fun u => { u with configured := w == 1, alt := false })
      (if w = 1 && side == .superSpeed then s.linksUp k h else s).ctlOk k
  else if r.is 0x81 10 then s.ctlRead k r [BitVec.ofNat 8 (bnat u.alt)]
  else if r.is 0x01 11 then
    if w = 0 || (w == 1 && side == .usb2) then upd (fun u => { u with alt := w == 1 }) else s.ctlError k
  else if r.is 0x00 3 then s.hubFeature k side h w true
  else if r.is 0x00 1 then s.hubFeature k side h w false
  else if r.is 0x01 3 && side == .superSpeed then upd (fun u => { u with remoteWake := bit r.wIndex.toNat 9 })
  else if r.is 0x02 1 || r.is 0x02 3 then s.ctlOk k
  else if r.is 0x00 48 && side == .superSpeed then s.ctlOk k
  else if r.is 0x00 49 && side == .superSpeed then upd (fun u => { u with isochDelay := r.wValue })
  else if r.is 0x20 12 && side == .superSpeed then upd (fun u => { u with depth := r.wValue })
  else if r.is 0xA0 6 then
    if w / 256 = (if side = .superSpeed then 0x2A else 0x29) then s.ctlRead k r (hubDescriptor side h) else s.ctlError k
  else if r.is 0xA0 0 then s.ctlRead k r [0, 0, 0, 0]
  else if r.is 0x20 1 || r.is 0x20 3 then (if w ≤ 1 then s.ctlOk k else s.ctlError k)
  else if r.is 0xA3 0 then
    match hubPortOf h (r.wIndex.toNat % 256) with
    | some q => s.hubPortStatus k side q r
    | none => s.ctlError k
  else if r.is 0xA3 12 && side == .usb2 && w == 29 then
    match hubPortOf h (r.wIndex.toNat % 16) with
    | some q => s.hubLpm k q r lpmAck
    | none => s.ctlError k
  else if r.is 0xA3 13 && side == .superSpeed then
    match hubPortOf h (r.wIndex.toNat % 256) with
    | some q => s.hubErrCount k q r
    | none => s.ctlError k
  else if r.is 0x23 1 || r.is 0x23 3 then
    match hubPortOf h (r.wIndex.toNat % 256) with
    | some q => s.portFeature k side q r (r.bRequest.toNat == 3)
    | none => s.ctlError k
  else s.ctlError k

/-! ## The Management Function's standard requests (R38, R203) -/

/-- Whether an endpoint address is one of the MF's. -/
def mfHasEp (a : Byte) : Bool :=
  let n := a.toNat % 128
  a.toNat % 128 == 0 || [0x01, 0x81, 0x82].contains a.toNat || (3 ≤ n && n ≤ 14 && (n % 2 == 1 || isIn a))

/-- A standard request to the MF; a request while it is not presented reaches nothing. -/
def State.mfRequest (s : State) (k : Part) (r : Setup) (data : List Byte) : State :=
  let m := s.mfs.get k
  match m.side with
  | none => s
  | some side =>
    let ss := side == .superSpeed
    let w := r.wValue.toNat
    let i := r.wIndex.toNat % 256
    let upd := fun (f : MfState → MfState) => (s.updMf k f).ctlOk k
    if r.is 0x80 6 then
      match s.mfGetDescriptor k side (w / 256) (w % 256) with
      | some b => s.ctlRead k r b
      | none => s.ctlError k
    else if r.is 0x80 0 then
      s.ctlRead k r (le16 (1 + 2 * bnat (!ss && m.remoteWake) + 4 * bnat (ss && m.u1Enable) + 8 * bnat (ss && m.u2Enable)))
    else if r.is 0x81 0 then
      if m.config == 1 && i < 13 then s.ctlRead k r (le16 (if ss && i == 0 then 1 + 2 * bnat m.funcWake else 0)) else s.ctlError k
    else if r.is 0x82 0 then
      if mfHasEp r.endpoint then s.ctlRead k r (le16 (bnat (m.halted.contains r.endpoint))) else s.ctlError k
    else if r.is 0x00 5 then upd (fun m => { m with address := BitVec.ofNat 7 w })
    else if r.is 0x80 8 then s.ctlRead k r [BitVec.ofNat 8 m.config]
    else if r.is 0x00 9 then (if w ≤ 1 then upd (fun m => { m with config := w, halted := [] }) else s.ctlError k)
    else if r.is 0x81 10 then (if m.config == 1 && i < 13 then s.ctlRead k r [0] else s.ctlError k)
    else if r.is 0x01 11 then (if m.config == 1 && i < 13 && w == 0 then s.ctlOk k else s.ctlError k)
    else if r.isClearHalt then
      if mfHasEp r.endpoint then upd (fun m => { m with halted := m.halted.filter (· != r.endpoint) }) else s.ctlError k
    else if r.isSetHalt then
      if mfHasEp r.endpoint then upd (fun m => { m with halted := r.endpoint :: m.halted.filter (· != r.endpoint) }) else s.ctlError k
    else if r.is 0x01 3 && w == 0 && ss && i == 0 then
      upd (fun m => { m with funcSuspend := bit r.wIndex.toNat 8, funcWake := bit r.wIndex.toNat 9 })
    else if (r.is 0x00 3 || r.is 0x00 1) && w == 48 && ss then upd (fun m => { m with u1Enable := r.bRequest == 3 })
    else if (r.is 0x00 3 || r.is 0x00 1) && w == 49 && ss then upd (fun m => { m with u2Enable := r.bRequest == 3 })
    else if (r.is 0x00 3 || r.is 0x00 1) && w == 1 then upd (fun m => { m with remoteWake := r.bRequest == 3 })
    else if r.is 0x00 48 && ss && data.length == 6 then upd (fun m => { m with sel := data })
    else if r.is 0x00 49 && ss then upd (fun m => { m with isochDelay := r.wValue })
    else s.ctlError k

end Sys2Proof.Machine
end

