-- ==== Sys2Proof/Machine/Upstream.lean ====
section
/-! DEFINITION. Upstream ports: attach, upstream PD, the two sides, link power, resets, virtual links (chapter 6). -/

namespace Sys2Proof.Machine

open Sys2Proof

/-! ## Attach and detach (R179, R180) -/

/-- UPk attaches (R179): the orientation is fixed, the presentation condition re-evaluated. `vbus` is the level of the
VBUS-present input where one is configured. Without Rd on the lines no host is seen (R178). [DEDUCED: log 99] -/
def State.upAttach (s : State) (k : Part) (orientation : Bool) (rp : Fin 4) (vbus : Bool) : State :=
  let u := s.ups.get k
  if !u.rd || u.attached || rp == 0 || (u.vbusInput && !vbus) then s
  else
    let s := s.updUp k (fun u => { u with attached := true, orientation, hostRp := rp, vbusPresent := vbus || !u.vbusInput, hardReset := false })
    s.evalPresent k

/-- UPk detaches: the tree is withdrawn, CONNECT_ARMED kept; a Held partition stays Held (Tables 2.9, 2.10). [DEDUCED: log 99] -/
def State.upDetach (s : State) (k : Part) : State :=
  if !(s.ups.get k).attached then s
  else
    let s := s.updUp k (fun u =>
      { u with attached := false, orientation := false, swapped := false, hostRp := 0, vbusPresent := false, contract := false,
               hardReset := false, pdTx := 0, pdRx := none })
    let st := (s.parts.get k).st
    if st == .connected || st == .suspended then s.withdraw k .withdrawn false .chargeOnly else s

/-- The VBUS-present input has reported VBUS absent for 10 ms; within the Hard Reset timing that is no detach (R179, R183). [DEDUCED: log 56] -/
def State.upVbusAbsent (s : State) (k : Part) (late : Bool) : State :=
  let u := s.ups.get k
  if u.vbusInput && u.attached then
    if u.hardReset && !late then s.updUp k (fun u => { u with vbusPresent := false }) else s.upDetach k
  else s

/-! ## Upstream PD (Table 6.1) -/

/-- The header of a message the device sends as sink and UFP, revision 3.0. -/
def sinkHeader (type objects : Nat) (id : BitVec 3) : List Byte := le16 (type + 2 * 2 ^ 6 + id.toNat * 2 ^ 9 + objects * 2 ^ 12)

/-- A message of the device's on an upstream port. -/
def sinkMsg (type : Nat) (objs : List Nat) (id : BitVec 3) : List Byte := sinkHeader type objs.length id ++ objs.flatMap le32

/-- The Request of Table 6.1: position 1, USB Communications Capable, No USB Suspend, no Capability Mismatch, no current. -/
def sinkRequest : Nat := 2 ^ 28 + 2 ^ 25 + 2 ^ 24

/-- The one sink PDO of Table 6.1: 5 V, no current, Unconstrained Power, USB Communications Capable. -/
def sinkPdo : Nat := 2 ^ 27 + 2 ^ 26 + 100 * 2 ^ 10

/-- The Discover Identity ACK of Table 6.1. [PRESUMED: log 55] -/
def State.identityVdos (s : State) (vdm : Nat) : List Nat :=
  [vdm + 2 ^ 6, 2 ^ 30 + 1 * 2 ^ 27 + 2 * 2 ^ 21 + s.vendorId.toNat, 0, 0x8516 * 2 ^ 16 + 0x0B00, 3 * 2 ^ 29 + 5 * 2 ^ 24 + 2 * 2 ^ 22 + 2]

/-- The response to a message on SOP: its type and objects; none for GoodCRC and for the source's answers to the device's own
Request (Table 6.1). [DEDUCED: log 56] -/
def State.sinkAnswer (s : State) (b : List Byte) : Option (Nat × List Nat) :=
  let vdm := get32 b 2
  let svdm := isSvdm b && field vdm 6 2 == 0
  let cmd := field vdm 0 5
  if isControl b 1 || isControl b 3 || isControl b 4 || isControl b 12 || isControl b 6 then none
  else if isData b 1 then some (2, [sinkRequest])
  else if isControl b 8 then some (4, [sinkPdo])
  else if svdm && cmd == 1 then some (15, s.identityVdos vdm)
  else if svdm && (cmd == 2 || cmd == 3 || cmd == 4) then some (15, [vdm + 2 * 2 ^ 6])
  else if isControl b 9 || isControl b 10 || isControl b 11 then some (4, [])
  else if isControl b 13 then some (3, [])
  else some (16, [])

/-- A PD message received on an upstream port is answered in hardware (R182). A repeat of the last MessageID is acknowledged only. `cut`:
a Hard Reset arrives before the answer is sent, which then is not sent (Table 6.7). PDEk queues it as of receiver 32, and no event follows
(R276, R280). [DEDUCED: log 56] -/
def State.upPdMessage (s : State) (k : Part) (b : List Byte) (cut : Bool) : State :=
  let u := s.ups.get k
  if !u.attached || isControl b 1 then s
  else if refusesSop (s.queues.get k) 32 then s.sopDetected k 32 0 b.length
  else
    let id := pdId b
    let s := s.emit (.upPd k (sinkHeader 1 0 id))
    let soft := isControl b 13
    if u.pdRx = some id && !soft then s
    else
      let s := (s.sopDetected k 32 0 b.length).messageWhole k 32 b (!cut && (s.sinkAnswer b).isSome) false false
      let s := s.updUp k (fun u =>
        { u with pdRx := if soft then none else some id, pdTx := if soft then 0 else u.pdTx, hardReset := false,
                 contract := u.contract || isControl b 6 })
      match if cut then none else s.sinkAnswer b with
      | none => s
      | some (t, objs) =>
        let id := (s.ups.get k).pdTx
        (s.updUp k (fun u => { u with pdTx := u.pdTx + 1 })).emit (.upPd k (sinkMsg t objs id))

/-- A Hard Reset on an upstream port ends its contract and changes neither USB side (R183); its item is queued (R270). [DEDUCED: log 56] -/
def State.upHardReset (s : State) (k : Part) : State :=
  if (s.ups.get k).attached then
    (s.updUp k (fun u => { u with contract := false, hardReset := true, pdTx := 0, pdRx := none })).resetItem k 32 5 false
  else s

/-! ## The SuperSpeed side (R185–R188) -/

/-- Whether a rate runs two lanes. -/
def twoLanes (r : SsRate) : Bool := r == .gen1x2 || r == .gen2x2

/-- Whether a link state lies before U0 in a training (R187). -/
def beforeU0 (l : UpLink) : Bool := l == .polling || l == .rxDetect || l == .ssInactive || l == .ssDisabled

/-- The pairs TX/RX 1 and 2 (0 and 1 here) that a link uses, lane 0 first: swapped with Rp on CC2, and lane 0 alone on a single-lane
link (R181). -/
def UpState.pairs (u : UpState) : List (Fin 2) :=
  let l : List (Fin 2) := if u.swapped then [1, 0] else [0, 1]
  if twoLanes u.rate then l else l.take 1

/-- Whether a link leaves a state through Recovery on its way to U0. -/
def throughRecovery (l : UpLink) : Bool := l == .u1 || l == .u2 || l == .u3

/-- UPk is in U0, through Recovery where its state gives that (Table 6.6). -/
def UpState.toU0 (u : UpState) : UpState :=
  { u with link := .u0, ownExit := false,
           counters := if throughRecovery u.link then { u.counters with linkRecoveries := satAdd 32 u.counters.linkRecoveries 1 } else u.counters }

/-- Lifted positions whose link is still in U3 note that a host has begun an exit from U3 on UPk, or that none has (R166). -/
def State.noteExit (s : State) (k : Part) (host : Bool) : State :=
  forAll (s.liftedPorts.filter (fun p => s.partOf.get p == k)) (fun s p => s.updLift p (fun x => { x with hostExit := host && x.busSuspended })) s

/-- UPk leaves U3; its virtual links stay in U3 (R193). An exit that the device did not signal is the host's. [DEDUCED: log 57] -/
def State.leaveU3 (s : State) (k : Part) : State :=
  if (s.ups.get k).link != .u3 then s
  else
    let own := (s.ups.get k).ownExit
    let s := s.updUp k UpState.toU0
    (if own then s else s.noteExit k true).wakePart k

/-- The upstream link reaches U0 at a rate; Evening offers one lane only (R185–R188). [DEDUCED: log 57] -/
def State.ssU0 (s : State) (k : Part) (rate : SsRate) : State :=
  let u := s.ups.get k
  if u.ssSide == .notPresented || rate == .none || (s.capped && beforeU0 u.link && twoLanes rate) then s
  else if u.link = .u3 then s.leaveU3 k
  else
    let trained := beforeU0 u.link
    let down := trained && !s.capped && rate != .gen2x2
    let s := s.updUp k (fun u =>
      let w := u.toU0
      { w with rate := if trained then rate else u.rate, paced := u.paced && !trained,
               counters := if down then { w.counters with rateDowngrades := satAdd 16 w.counters.rateDowngrades 1 } else w.counters })
    if u.ssSide = .active then s else s.setSide k .active

/-- 300 ms after presentation without U0 (R185). -/
def State.ssDecided (s : State) (k : Part) : State := if (s.ups.get k).ssSide = .deciding then s.setSide k .inactive else s

/-- An active side becomes inactive (R186). [DEDUCED: log 57] -/
def State.ssLost (s : State) (k : Part) : State :=
  if (s.ups.get k).ssSide = .active then
    (s.updUp k (fun u =>
      { u with rate := .none, counters := { u.counters with ssInactiveChanges := satAdd 16 u.counters.ssInactiveChanges 1 } })).setSide k .inactive
  else s

/-- The link has stayed 300 ms in SS.Inactive, Rx.Detect or Polling (R186). -/
def State.ssInactiveFor (s : State) (k : Part) (link : UpLink) : State :=
  if (s.ups.get k).ssSide = .active && (link == .ssInactive || link == .rxDetect || link == .polling) then
    (s.updUp k (fun u => { u with link })).ssLost k
  else s

/-- The link enters SS.Disabled (R186). -/
def State.ssDisabled (s : State) (k : Part) : State :=
  if (s.ups.get k).ssSide = .notPresented then s else (s.updUp k (fun u => { u with link := .ssDisabled })).ssLost k

/-! ## Link power (R189–R193) -/

/-- Whether an endpoint has a packet ready for the host, or an ERDY due (R143, R189). -/
def State.ctxReady (s : State) (p : Port) (c : EpCtx) : Bool :=
  if isIn c.addr then !c.ready.isEmpty || c.stall || (c.grid.head?.map s.isoDue).getD false
  else c.nrdy && (c.stall || 1024 ≤ s.epRoom p c.addr)

/-- Whether a control read has data that can be presented. -/
def CtlXfer.dataReady (t : CtlXfer) : Bool := t.req.isRead && !t.shown && (t.ended || t.sent + 512 ≤ t.moved)

/-- Whether a lifted port has a packet, an ERDY or a Function Wake ready for the host. -/
def State.liftReady (s : State) (p : Port) : Bool :=
  match s.lift.get p with
  | none => false
  | some x =>
    x.ctxs.any (s.ctxReady p) || x.wake.isSome || !x.woken.isEmpty || (x.ctl.map CtlXfer.dataReady).getD false ||
      (x.nrdy0 && x.ctl.isNone && x.held.isNone)

/-- Whether the MF waits to wake its host: an event is queued, remote wake is enabled, the function or the side is suspended (R193,
R195). [DEDUCED: log 102] -/
def State.mfWakeDue (s : State) (k : Part) : Bool :=
  let m := s.mfs.get k
  let u := s.ups.get k
  match m.side with
  | some .superSpeed => m.funcWake && (m.funcSuspend || u.link == .u3) && (nextToSend (s.sessions.get (mfSession k))).isSome
  | some .usb2 => u.usb2 == .suspended && ((s.u2Tree.get k).hubs.get 0).remoteWake && (nextToSend (s.sessions.get (mfSession k))).isSome
  | none => false

/-- Whether the MF has something to transmit on a side: a response, an event, or what a UART slot has. -/
def State.mfReady (s : State) (k : Part) (side : Side) : Bool :=
  let x := s.sessions.get (mfSession k)
  (s.mfs.get k).side == some side &&
    (!x.out.isEmpty || (nextToSend x).isSome || s.cdcDue k)

/-- The conditions for LXU (R189). `unacked`: a header the device sent still awaits its acknowledgement. -/
def State.notIdle (s : State) (k : Part) (unacked : Bool) : Bool :=
  unacked || s.mfReady k .superSpeed || s.mfWakeDue k || (s.portsOf k).any s.liftReady

/-- The link enters U1 or U2, counted. -/
def State.enterU (s : State) (k : Part) (u2 : Bool) : State :=
  s.updUp k (fun u =>
    { u with link := if u2 then .u2 else .u1,
             counters := if u2 then { u.counters with u2Entries := satAdd 32 u.counters.u2Entries 1 }
               else { u.counters with u1Entries := satAdd 32 u.counters.u1Entries 1 } })

/-- A host's LGO_U1 or LGO_U2 (R189). -/
def State.lgo (s : State) (k : Part) (u2 unacked : Bool) : State :=
  if (s.ups.get k).link != .u0 then s
  else if s.notIdle k unacked then
    (s.updUp k (fun u => { u with counters := { u.counters with lxuSent := satAdd 32 u.counters.lxuSent 1 } })).emit (.up k .lxu)
  else (s.enterU k u2).emit (.up k .lau)

/-- Whether every virtual link of a partition, and every native link, is in U1 or a lower state (R190). -/
def State.linksLow (s : State) (k : Part) : Bool :=
  let t := s.ssTree.get k
  let low := fun (v : VPort) => v.link != .u0 && v.link != .recovery
  (List.finRange 9).all (fun n => low (t.top.get n)) && (List.finRange 112).all (fun i => low (t.leaf.get i))

/-- The device starts U1 or U2 on UPk where R190 allows it. -/
def State.ownU (s : State) (k : Part) (u2 unacked : Bool) : State :=
  let hub := (s.ssTree.get k).hubs.get 0
  let on := if u2 then hub.u2Enable else hub.u1Enable
  let exit := if u2 then 64 else 2
  if (s.ups.get k).link == .u0 && on && s.linksLow k && !s.notIdle k unacked && exit ≤ (s.parts.get k).latBudget then
    (s.enterU k u2).emit (.up k (if u2 then .lgoU2 else .lgoU1))
  else s

/-- UPk leaves U1 or U2 through Recovery. -/
def State.leaveU (s : State) (k : Part) : State := s.updUp k (fun u => if u.link == .u1 || u.link == .u2 then u.toU0 else u)

/-- Whether every presented side of UPk is suspended (Table 2.9). An inactive SuperSpeed side carries nothing. [DEDUCED: log 57] -/
def State.allSuspended (s : State) (k : Part) : Bool :=
  let u := s.ups.get k
  u.ssSide != .deciding && (u.ssSide != .active || u.link == .u3) && (u.usb2 == .suspended || u.usb2 == .notPresented) &&
    (u.ssSide == .active || u.usb2 == .suspended)

/-- A Connected partition whose sides are all suspended is Suspended. -/
def State.checkSuspended (s : State) (k : Part) : State :=
  if (s.parts.get k).st == .connected && (s.parts.get k).withdraw.isNone && s.allSuspended k then s.updPart k (fun x => { x with st := .suspended })
  else s

/-- A virtual link in U3, where it is not disabled. -/
def toU3 (v : VPort) : VPort := if v.link = .disabled then v else { v with link := .u3, wasU3 := true }

/-- UPk enters U3: every virtual link goes to U3 (R193). -/
def State.enterU3 (s : State) (k : Part) : State :=
  let l := (s.ups.get k).link
  if (s.ups.get k).ssSide != .active || !(l == .u0 || l == .u1 || l == .u2) then s
  else
    let s := ((s.updUp k (fun u => { u with link := .u3, ownExit := false })).noteExit k false).emit (.up k .lau)
    let s := s.updTree k .superSpeed (fun t =>
      { t with top := Tab.of (fun n => toU3 (t.top.get n)), leaf := Tab.of (fun i => toU3 (t.leaf.get i)) })
    s.checkSuspended k

/-- The MF wakes the host where R193 or R195 lets it. [DEDUCED: log 102] -/
def State.mfWake (s : State) (k : Part) : State :=
  if !s.mfWakeDue k then s
  else if (s.mfs.get k).side = some .superSpeed then (s.signalU3Exit k).emit (.up k .mfFunctionWake)
  else s.emit (.up k .usb2Resume)

/-! ## Resets arriving at UPk (Table 6.4) -/

/-- A warm or hot reset on the SuperSpeed side. A warm reset takes the link through Polling, a hot reset from Recovery to Hot Reset. -/
def State.ssReset (s : State) (k : Part) (warm : Bool) : State :=
  if (s.ups.get k).ssSide = .notPresented then s
  else
    let s := s.updUp k (fun u =>
      if warm then { u with link := .polling, ownExit := false }
      else if beforeU0 u.link then u
      else { u with link := .hotReset, ownExit := false, counters := { u.counters with linkRecoveries := satAdd 32 u.counters.linkRecoveries 1 } })
    let s := s.updTree k .superSpeed defaultTree
    let s := if (s.mfs.get k).side = some .superSpeed then s.restartMf k else s
    (s.resetPositions k .superSpeed (fun _ => true)).wakePart k

/-- A bus reset on the USB 2.0 side; without a completed chirp the twins run at Full-Speed (R194). [DEDUCED: log 57] -/
def State.usb2Reset (s : State) (k : Part) (highSpeed : Bool) : State :=
  if (s.ups.get k).usb2 = .notPresented then s
  else
    let s := s.updUp k (fun u =>
      { u with usb2 := if highSpeed then .active else .fullSpeed, fullSpeed := !highSpeed, hird := 0,
               counters := if highSpeed then u.counters else { u.counters with fsUpstream := satAdd 16 u.counters.fsUpstream 1 } })
    let s := s.updTree k .usb2 defaultTree
    let s := if (s.mfs.get k).side = some .usb2 then s.restartMf k else s
    let s := s.resetPositions k .usb2 (fun _ => true)
    let s := if (s.mfs.get k).side = s.mfSide k then s else s.placeMf k (s.mfSide k)
    let s := if highSpeed then s
      else forAll ((s.portsOf k).filter (fun p => (s.ports.get p).shown && sideOf (s.ports.get p).path == .usb2))
        (fun s p => s.drainThen p .sideChange (fun x => { x with needU2 := true, noDebounce := true })) s
    s.wakePart k

/-! ## The USB 2.0 side (R195, R196) -/

/-- Whether the USB 2.0 side is quiet enough for L1 (R196). -/
def State.usb2Quiet (s : State) (k : Part) : Bool :=
  let t := s.u2Tree.get k
  let low := fun (v : VPort) => !v.connected || !v.enabled || v.suspended
  (List.finRange 112).all (fun i => low (t.leaf.get i) || (match s.portAtPos k i with
    | some p => (s.ports.get p).st == .l1
    | none => false)) && low (t.top.get 8) && !s.mfReady k .usb2 && (s.portsOf k).all (fun p => (s.ports.get p).tt.isEmpty)

/-- An LPM transaction on the USB 2.0 side (R196). -/
def State.usb2Lpm (s : State) (k : Part) (hird : BitVec 4) : State :=
  if (s.ups.get k).usb2 != .active && (s.ups.get k).usb2 != .fullSpeed then s
  else if s.usb2Quiet k then (s.updUp k (fun u => { u with usb2 := .l1, hird })).emit (.up k .lpmAck)
  else s.emit (.up k .lpmNyet)

/-- The USB 2.0 side is suspended (R195). -/
def State.usb2Suspend (s : State) (k : Part) : State :=
  let u := (s.ups.get k).usb2
  if u == .active || u == .fullSpeed || u == .l1 then (s.updUp k (fun u => { u with usb2 := .suspended })).checkSuspended k else s

/-- A resume on the suspended USB 2.0 side is repeated to every enabled port (R87, Table 3.12). -/
def State.repeatResume (s : State) (k : Part) : State :=
  forAll ((s.portsOf k).filter (fun p => let y := s.ports.get p; y.shown && y.st == .enabled && sideOf y.path == .usb2)) (fun s p => s.driveK p) s

/-- The USB 2.0 side resumes: from the host, or by the device's remote wake where the host has enabled it (R195). -/
def State.usb2Resume (s : State) (k : Part) (byDevice : Bool) : State :=
  let u := s.ups.get k
  if !(u.usb2 == .suspended || u.usb2 == .l1) then s
  else if byDevice && !((s.u2Tree.get k).hubs.get 0).remoteWake then s
  else
    let s := if byDevice then s.emit (.up k .usb2Resume) else s
    let s := if u.usb2 = .suspended then s.repeatResume k else s
    (s.updUp k (fun u => { u with usb2 := if u.fullSpeed then .fullSpeed else .active })).wakePart k

/-! ## Virtual links (R192) -/

/-- A virtual link, or a native link, idle for the host's timeout enters U1 or U2. A timeout of 0 or 0xFF starts no entry. -/
def State.linkTimeout (s : State) (k : Part) (q : HubPort) (u2 : Bool) : State :=
  let v := s.hubPort k .superSpeed q
  let t := if u2 then v.u2Timeout else v.u1Timeout
  if (v.link == .u0 || (u2 && v.link == .u1)) && t != 0 && t != 0xFF then
    let s := s.updHubPort k .superSpeed q (fun v => { v with link := if u2 then .u2 else .u1 })
    match s.nativeAt k q with
    | some p => s.emit (.bus p (if u2 then .ssU2 else .ssU1))
    | none => s
  else s

/-- An isochronous timestamp packet pairs a bus interval with the device micro-frame (R160); one that names the interval before the
expected one says that no bus interval starts in this micro-frame (R163). [DEDUCED: log 58] -/
def State.timestamp (s : State) (k : Part) (interval : BitVec 14) (delta : BitVec 13) : State :=
  if (s.ups.get k).link = .u0 then
    let late := s.busInterval k s.microframe.toNat = some ((interval.toNat + 1) % 16384)
    s.updUp k (fun u => { u with isoPhase := some (interval.toNat, delta.toNat, s.microframe.toNat), isoSkip := u.isoSkip || late })
  else s

end Sys2Proof.Machine
end

