-- ==== Sys2Proof/Machine/PortOps.lean ====
section
/-! DEFINITION. The partition, port, VBUS and Lift commands (Tables 11.11–11.13). -/

namespace Sys2Proof.Machine

open Sys2Proof

/-! ## Codes of PART_GET -/

/-- The code of a partition state. -/
def partCode : PartSt → Nat
  | .disabled => 0
  | .chargeOnly => 1
  | .connected => 2
  | .suspended => 3
  | .held => 4

/-- The code of SS_SIDE. -/
def ssSideCode : SsSide → Nat
  | .notPresented => 0
  | .deciding => 1
  | .active => 2
  | .inactive => 3

/-- The code of SS_RATE. -/
def ssRateCode : SsRate → Nat
  | .none => 0
  | .gen1x1 => 1
  | .gen1x2 => 2
  | .gen2x1 => 3
  | .gen2x2 => 4

/-- The code of SS_LINK_STATE. -/
def upLinkCode : UpLink → Nat
  | .ssDisabled => 0
  | .rxDetect => 1
  | .ssInactive => 2
  | .polling => 3
  | .u0 => 4
  | .u1 => 5
  | .u2 => 6
  | .u3 => 7
  | .recovery => 8
  | .hotReset => 9
  | .compliance => 10
  | .loopback => 11

/-- The code of USB2_STATE. -/
def usb2Code : Usb2St → Nat
  | .notPresented => 0
  | .fullSpeed => 1
  | .active => 2
  | .suspended => 3
  | .l1 => 4

/-! ## PART_GET (R204) -/

/-- The upstream status of PART_GET (Table 6.6). -/
def upStatus (u : UpState) : List Byte :=
  let c := u.counters
  [BitVec.ofNat 8 (bnat u.attached + 2 * bnat u.orientation + 4 * u.hostRp.val + 16 * bnat u.contract),
   BitVec.ofNat 8 (ssSideCode u.ssSide + 4 * ssRateCode u.rate), BitVec.ofNat 8 (upLinkCode u.link + 16 * usb2Code u.usb2), 0] ++
    le16 c.rateDowngrades ++ le16 c.fsUpstream ++ le32 c.linkRecoveries ++ le32 c.u1Entries ++ le32 c.u2Entries ++ le32 c.lxuSent ++
    le16 c.ssInactiveChanges ++ [0, 0]

/-- The PART_GET response. -/
def State.partStatus (s : State) (k : Part) : List Byte :=
  let x := s.parts.get k
  let c := x.cfg
  [BitVec.ofNat 8 (partCode x.st),
   BitVec.ofNat 8 (bnat x.armed + 2 * bnat (s.sessions.get (mfSession k)).grant + 4 * bnat c.autoConnect + 8 * bnat c.autoRecover +
     16 * bnat c.startChargeOnly),
   BitVec.ofNat 8 (s.portsOf k).length, BitVec.ofNat 8 (3 - x.recoveries), BitVec.ofNat 8 c.maxPorts, 0] ++
    le16 c.hostSlots ++ le16 c.liftCap ++ le16 c.drainWindow ++ le16 x.latBudget ++ [0, 0] ++ upStatus (s.ups.get k) ++
    (List.finRange 112).flatMap (fun i => le16 (((s.portAtPos k i).map (·.val)).getD 0xFFFF))

/-- PART_GET. -/
def opPartGet (m : VcpMsg) (k : Part) (s : State) : State × Reply :=
  let o := get8 m.payload 0
  if m.payload.length != 1 || 2 ≤ o then refuse s stBadArg
  else
    let out := s.partStatus k
    (if o = 1 then s.updUp k (fun u => { u with counters := {} }) else s, .done stOK out)

/-! ## PART_ASSIGN_PORT (R47, R49, R55) -/

/-- The ports of a partition in data mode AUTO, LIFT or PASS. [DEDUCED: log 80] -/
def State.dataPorts (s : State) (k : Part) : Nat := (s.portsOf k).countP (fun p => dataModeAttaches (s.ports.get p).dataMode)

/-- The host slot check of R55 for one more port. [DEDUCED: log 63, 80] -/
def State.slotsAllow (s : State) (k : Part) : Bool :=
  let n := (s.parts.get k).cfg.hostSlots
  n == 0 || 19 + s.dataPorts k + 1 ≤ n

/-- The lowest free index of a partition. [DEDUCED: log 63] -/
def State.freeIndex (s : State) (k : Part) : Option Pos := (List.finRange 112).find? (fun i => (s.portAtPos k i).isNone)

/-- The response of PART_ASSIGN_PORT. -/
def assignReply (k : Part) (i : Pos) : Reply :=
  .done stOK [BitVec.ofNat 8 k.val, BitVec.ofNat 8 i.val, BitVec.ofNat 8 (1 + i.val / 14), BitVec.ofNat 8 (1 + i.val % 14)]

/-- Whether steps 2 to 4 of Table 4.12 run on a lifted port: they complete before a move goes on (Table 4.14). -/
def State.resetOnWire (s : State) (p : Port) : Bool :=
  (s.ports.get p).st == .resetting && !(s.ports.get p).ownReset && ((s.lift.get p).map (fun x => x.presented && x.probe.isNone)).getD false

/-- Whether a partition may take a port at another position (R47, R55). -/
def State.assignable (s : State) (p : Port) (k : Part) : Bool :=
  (s.portsOf k).length < (s.parts.get k).cfg.maxPorts &&
    (s.partOf.get p == k || !dataModeAttaches (s.ports.get p).dataMode || s.slotsAllow k)

/-- Start the move of a port to a free index. -/
def State.assignTo (s : State) (p : Port) (k : Part) (i : Pos) : State × Reply :=
  if !s.assignable p k then refuse s stDenied
  else
    let move := fun (x : PortState) => { x with pendMove := some (k, i) }
    let s := if (s.ports.get p).reacting || s.resetOnWire p then s.updPort p move else s.drainThen p .moved move
    if (s.ports.get p).pendMove.isNone then (s, assignReply k i) else (s, .wait (.assign p k i))

/-- PART_ASSIGN_PORT. [DEDUCED: log 62, 63] -/
def opPartAssignPort (m : VcpMsg) (p : Port) (s : State) : State × Reply :=
  let b := m.payload
  let k : Part := Fin.ofNat 16 (get8 b 0)
  let i : Pos := Fin.ofNat 112 (get8 b 1)
  if b.length != 2 || 16 ≤ get8 b 0 || (112 ≤ get8 b 1 && get8 b 1 != 0xFF) then refuse s stBadArg
  else if get8 b 1 = 0xFF then
    match s.freeIndex k with
    | some i => s.assignTo p k i
    | none => refuse s stDenied
  else if s.partOf.get p = k ∧ s.posOf.get p = i then (s, assignReply k i)
  else if (s.portAtPos k i).isSome then refuse s stBadArg
  else s.assignTo p k i

/-! ## PART_SET_LIMITS (R54) -/

/-- Whether a PART_SET_LIMITS request is well formed and in range (Table 2.8). [DESIGN CHOICE: log 32] -/
def State.partArgsOk (s : State) (k : Part) (b : List Byte) : Bool :=
  let v := get8 b 0
  let f := get8 b 1
  let n := get8 b 2
  let hs := get16 b 4
  let cap := get16 b 6
  let dw := get16 b 8
  b.length == 10 && v < 128 && f < 8 &&
    (!bit v 0 || (1 ≤ n && n ≤ 112 && (s.portsOf k).length ≤ n)) && byteAt b 3 == 0 &&
    (!bit v 1 || hs == 0 || (32 ≤ hs && hs ≤ 255)) &&
    (!bit v 2 || cap == 0 || (50 ≤ cap && cap ≤ 2400 && cap % 50 == 0)) &&
    (!bit v 3 || dw ≤ 1000)

/-- The settings a PART_SET_LIMITS request leaves. -/
def applyLimits (b : List Byte) (c : PartSettings) : PartSettings :=
  let v := get8 b 0
  let f := get8 b 1
  { maxPorts := if bit v 0 then get8 b 2 else c.maxPorts
    hostSlots := if bit v 1 then get16 b 4 else c.hostSlots
    liftCap := if bit v 2 then get16 b 6 else c.liftCap
    drainWindow := if bit v 3 then get16 b 8 else c.drainWindow
    startChargeOnly := if bit v 4 then bit f 0 else c.startChargeOnly
    autoConnect := if bit v 5 then bit f 1 else c.autoConnect
    autoRecover := if bit v 6 then bit f 2 else c.autoRecover }

/-- The values in force, in the request's layout. -/
def partLimits (c : PartSettings) : List Byte :=
  [0x7F, BitVec.ofNat 8 (bnat c.startChargeOnly + 2 * bnat c.autoConnect + 4 * bnat c.autoRecover), BitVec.ofNat 8 c.maxPorts, 0] ++
    le16 c.hostSlots ++ le16 c.liftCap ++ le16 c.drainWindow

/-- PART_SET_LIMITS. -/
def opPartSetLimits (m : VcpMsg) (k : Part) (s : State) : State × Reply :=
  let b := m.payload
  let v := get8 b 0
  if !s.partArgsOk k b then refuse s stBadArg
  else if !s.isSteward m.session && (bit v 0 || bit v 4 || bit v 5 || bit v 6) then refuse s stDenied
  else
    let s := s.updPart k (fun x => { x with cfg := applyLimits b x.cfg })
    (s, .done stOK (partLimits (s.parts.get k).cfg))

/-! ## PART_CONNECT and PART_DISCONNECT (R56–R59) -/

/-- Port power of a partition that has left Disabled, or takes another state: every word is recomputed, but for ports whose own
disable sequence runs (R77). -/
def State.refreshPart (s : State) (k : Part) : State :=
  forAll ((s.portsOf k).filter (fun p => (s.ports.get p).st != .disabling)) (fun s p => s.refreshWord p) s

/-- PART_CONNECT. [DEDUCED: log 62] -/
def opPartConnect (m : VcpMsg) (k : Part) (s : State) : State × Reply :=
  let x := s.parts.get k
  if !m.payload.isEmpty then refuse s stBadArg
  else
    let arm := s.updPart k (fun x => { x with armed := true })
    match x.st with
    | .disabled => ok (((arm.updPart k (fun x => { x with st := .chargeOnly })).refreshPart k).evalPresent k)
    | .chargeOnly => ok (arm.evalPresent k)
    | .held =>
      if !s.isSteward m.session then refuse s stDenied
      else if x.reacting || x.safeMarked then ok arm
      else ok ((arm.updPart k (fun x => { x with st := .chargeOnly })).evalPresent k)
    | _ => if s.isSteward m.session then ok arm else ok s

/-- The transition of a PART_DISCONNECT (Table 2.9). `answer`: a command waits for its end. [DESIGN CHOICE: log 81] -/
def State.disconnect (s : State) (k : Part) (dis answer : Bool) : State :=
  let x := s.parts.get k
  let s := s.updPart k (fun x => { x with armed := false, deferredDisconnect := none })
  if x.safeMarked then s
  else match x.st, dis with
    | .disabled, _ => s
    | .chargeOnly, false => s
    | _, true => s.withdraw k .withdrawn answer .disabled
    | _, false => s.withdraw k .withdrawn answer .chargeOnly

/-- PART_DISCONNECT; an MF session's own is deferred (R57). [DESIGN CHOICE: log 81] -/
def opPartDisconnect (m : VcpMsg) (k : Part) (s : State) : State × Reply :=
  let b := m.payload
  if b.length != 1 || 2 ≤ get8 b 0 then refuse s stBadArg
  else if m.session = mfSession k then
    (s.updPart k (fun x => { x with deferredDisconnect := some (get8 b 0 == 1) }), .done stDeferred [])
  else
    let s := s.disconnect k (get8 b 0 == 1) true
    if (s.parts.get k).withdraw.isSome then (s, .wait (.disconnect k)) else ok s

/-- Whether the DEFERRED response of a PART_DISCONNECT still waits for the host of a partition (R57). -/
def State.deferredWaits (s : State) (k : Part) : Bool :=
  (s.sessions.get (mfSession k)).out.any (fun r => r.opcode == 0x0205 && r.status == stDeferred)

/-- The transition that R57 deferred, once the response has been delivered. [DEDUCED: log 62] -/
def State.deferredDisconnect (s : State) (k : Part) : State :=
  match (s.parts.get k).deferredDisconnect with
  | some dis => if s.deferredWaits k then s else s.disconnect k dis false
  | none => s

/-! ## PORT_GET (R68) -/

/-- The code of a Type-C state (Table 8.2). -/
def typeCCode : TypeC → Nat
  | .open => 0
  | .unattached => 1
  | .attachWait => 2
  | .attached => 3
  | .debugAcc => 4
  | .unsupportedAcc => 5
  | .errorRecovery => 6

/-- The code of a CC classification. -/
def ccCode : CcLine → Nat
  | .open => 0
  | .rd => 1
  | .ra => 2

/-- The code of an Rp level. -/
def rpCode : RpLevel → Nat
  | .default => 0
  | .r1A5 => 1
  | .r3A0 => 2

/-- UART_SLOT of PORT_GET: 0xFE where a debug accessory found no slot free, 0xFF where none is bound (R290). -/
def uartField (x : PdPort) : Nat :=
  match x.uartSlot with
  | some u => u.val
  | none => if x.tc == .debugAcc && x.cfg.autoDebugUart then 0xFE else 0xFF

/-- The PORT_GET response. -/
def State.portStatus (s : State) (p : Port) : List Byte :=
  let x := s.ports.get p
  let d := s.pd.get p
  let b := fun (n : Nat) => BitVec.ofNat 8 n
  let (kind, pos, rdo, mv, ma) := contractFields d
  le16 p.val ++
    [b (s.partOf.get p).val, b (s.posOf.get p).val, b (portStCode x.st), b (modeCode x.dataMode), b (pathCode x.path), b (speedCode x.speed),
     b (s.portFlags p), b (typeCCode d.tc),
     b (ccCode d.cc1 + 4 * ccCode d.cc2 + 16 * bnat d.orientation + 32 * bnat d.vconnOn + 64 * bnat d.cable5A + 128 * bnat d.partner),
     b (rpCode d.cfg.rpLevel), b kind, b pos, b (((s.vbus.get p).hold.map holdCode).getD 0), b (uartField d)] ++
    le32 rdo ++ le16 mv ++ le16 ma ++ le16 x.l1Idle

/-- PORT_GET. -/
def opPortGet (m : VcpMsg) (p : Port) (s : State) : State × Reply :=
  if m.payload.isEmpty then (s, .done stOK (s.portStatus p)) else refuse s stBadArg

/-! ## PORT_SET_MODE (R60, R62, R66, R67, R77) -/

/-- Whether a PORT_SET_MODE request is well formed and in range (Table 3.1). [DESIGN CHOICE: log 32] -/
def setModeArgsOk (b : List Byte) : Bool :=
  let v := get8 b 0
  let f := get8 b 2
  let n := get16 b 4
  b.length == 6 && v < 16 && (!bit v 0 || get8 b 1 ≤ 4) && f < 4 &&
    byteAt b 3 == 0 && (!bit v 3 || (50 ≤ n && n ≤ 10000 && n % 50 == 0))

/-- Whether a port is in its disable sequence, its drain included (R77, Table 3.8). -/
def PortState.disabling (x : PortState) : Bool := x.st == .disabling || x.pendDisable

/-- A data-mode change of a port (R66, R67, R76). -/
def State.changeMode (s : State) (p : Port) (m : DataMode) : State :=
  let old := (s.ports.get p).dataMode
  let cycle := m == .off || ((m == .charge || old == .charge) && !hasExplicit (s.pd.get p))
  let running := (s.ports.get p).st == .disabling
  s.drainThen p .mode (fun x => { x with pendMode := some m, pendDisable := x.pendDisable || (cycle && !running) })

/-- PORT_SET_MODE. [DEDUCED: log 62] -/
def opPortSetMode (m : VcpMsg) (p : Port) (s : State) : State × Reply :=
  let b := m.payload
  let x := s.ports.get p
  if !setModeArgsOk b then refuse s stBadArg
  else if !bit (get8 b 0) 0 then ok (s.updPort p (applyPortMode b))
  else match modeOfCode (get8 b 1) with
    | none => refuse s stBadArg
    | some d =>
      if dataModeAttaches d && !dataModeAttaches x.dataMode && !s.slotsAllow (s.partOf.get p) then refuse s stDenied
      else
        if x.disabling && d != .off then
          (s.updPort p (fun x => { x with deferred := x.deferred ++ [.setMode d b] }), .done stDeferred [])
        else if d = x.dataMode && x.pendMode.isNone then ok (s.updPort p (applyPortMode b))
        else
          let s := (s.updPort p (applyPortMode b)).changeMode p d
          if (s.ports.get p).pendMode.isNone then ok s else (s, .wait (.setMode p))

/-! ## PORT_RESET, PORT_QUENCH, PORT_RELEASE, PORT_SET_BC, VBUS_SET (R79, R92–R95, R315) -/

/-- PORT_RESET. [DEDUCED: log 62; DESIGN CHOICE: log 83] -/
def opPortReset (m : VcpMsg) (p : Port) (s : State) : State × Reply :=
  let x := s.ports.get p
  if !m.payload.isEmpty then refuse s stBadArg
  else if x.disabling then (s.updPort p (fun x => { x with deferred := x.deferred ++ [.portReset] }), .done stDeferred [])
  else if !x.connected || !dataModeAttaches x.dataMode then ok s
  else
    let s := s.drainThen p .reset (fun x => { x with pendReset := true })
    let y := s.ports.get p
    if y.pendReset || y.ownReset then (s, .wait (.portReset p)) else ok s

/-- PORT_QUENCH. -/
def opPortQuench (m : VcpMsg) (p : Port) (s : State) : State × Reply :=
  if m.payload.isEmpty then ok (s.quench p) else refuse s stBadArg

/-- PORT_RELEASE. -/
def opPortRelease (m : VcpMsg) (p : Port) (s : State) : State × Reply :=
  if m.payload.isEmpty then ok (s.releasePort p) else refuse s stBadArg

/-- PORT_SET_BC: at once in IDLE, otherwise at the next disconnect (R79). -/
def opPortSetBc (m : VcpMsg) (p : Port) (s : State) : State × Reply :=
  if m.payload.length != 1 || 2 ≤ get8 m.payload 0 then refuse s stBadArg
  else
    let mode : BcMode := if get8 m.payload 0 = 1 then .cdp else .sdp
    ok (s.updPort p (fun x => if x.st = .idle then { x with bcMode := mode, bcNext := none } else { x with bcNext := some mode }))

/-- VBUS_SET (R76, R77, R315, R319). [DEDUCED: log 62] -/
def opVbusSet (m : VcpMsg) (p : Port) (s : State) : State × Reply :=
  let x := s.ports.get p
  if m.payload.length != 1 || 2 ≤ get8 m.payload 0 then refuse s stBadArg
  else if get8 m.payload 0 = 1 then
    if x.disabling then (s.updPort p (fun x => { x with deferred := x.deferred ++ [.vbusOn] }), .done stDeferred [])
    else ok (s.vbusOn p)
  else
    let s := s.updVbus p (fun v => { v with setting := false })
    ok (if x.st = .disabling then s else s.drainThen p .vbusOff (fun x => { x with pendDisable := true }))

/-! ## Lift commands (R103, R152, R172, R173, R175) -/

/-- A class entry as its four bytes (Table 4.1). -/
def classBytes (e : ClassEntry) : List Byte := [e.cls, e.subclass, e.protocol, BitVec.ofNat 8 (bnat e.matchSub + 2 * bnat e.matchProto)]

/-- LIFT_GET_POLICY. -/
def opLiftGetPolicy (m : VcpMsg) (k : Part) (s : State) : State × Reply :=
  if m.payload.isEmpty then
    let l := (s.parts.get k).classes
    (s, .done stOK ([BitVec.ofNat 8 l.length, 0, 0, 0] ++ l.flatMap classBytes))
  else refuse s stBadArg

/-- The class entry at an offset. -/
def classAt (b : List Byte) (i : Nat) : ClassEntry :=
  let f := get8 b (i + 3)
  { cls := byteAt b i, subclass := byteAt b (i + 1), protocol := byteAt b (i + 2), matchSub := bit f 0, matchProto := bit f 1 }

/-- LIFT_SET_CLASSLIST. -/
def opLiftSetClasslist (m : VcpMsg) (k : Part) (s : State) : State × Reply :=
  let b := m.payload
  let n := get8 b 0
  if n = 0 || 32 < n || b.length != 4 + 4 * n || !zeroSlice b 1 3 || (List.range n).any (fun i => 4 ≤ get8 b (4 * i + 7)) then refuse s stBadArg
  else ok (s.updPart k (fun x => { x with classes := (List.range n).map (fun i => classAt b (4 * i + 4)) }))

/-- The lifted side of a port with a lifted presentation (R173). -/
def State.presentation (s : State) (p : Port) : Option LiftPort := (s.lift.get p).bind (fun x => if x.presented then some x else none)

/-- Whether an endpoint is bulk IN in the set as read. -/
def DescSet.isBulkIn (d : DescSet) (a : Byte) : Bool := isIn a && d.endpoints.any (fun e => e.addr == a && e.type == 2)

/-- Whether an endpoint is eligible for SNOOP_BOT in some alternate setting that holds it (R153). -/
def DescSet.botSomewhere (d : DescSet) (a : Byte) : Bool := d.interfaces.any (fun i => i.botEligible a)

/-- BOUNDARY_MODE from its code. -/
def boundaryOfCode : Nat → Option Boundary
  | 0 => some .hold
  | 1 => some .snoopBot
  | 2 => some .immediate
  | _ => none

/-- The code of BOUNDARY_MODE. -/
def boundaryCode : Boundary → Nat
  | .hold => 0
  | .snoopBot => 1
  | .immediate => 2

/-- Write a boundary setting for an endpoint address, and apply it to its open context (R152, R155, R156, Table 5.13). -/
def State.setBoundary (s : State) (p : Port) (a : Byte) (mode : Option Boundary) (window : Option Nat) : State :=
  let s := s.updLift p (fun x =>
    let old := x.settings.find? (·.addr == a)
    { x with settings := x.settings.filter (·.addr != a) ++
        [{ addr := a, mode := mode.or (old.bind (·.mode)), window := window.or (old.bind (·.window)) }] })
  let put := fun (c : EpCtx) => { c with mode := mode.getD c.mode, window := window.getD c.window, snoop := .expectCbw }
  let s := (s.updCtx p a put).updLift p (fun x => { x with stopped := x.stopped.map (fun c => if c.addr = a then put c else c) })
  if mode = some .immediate then s.releaseHalf p a else s

/-- LIFT_SET_EP_BOUNDARY. [DESIGN CHOICE: log 32] -/
def opLiftSetEpBoundary (m : VcpMsg) (p : Port) (s : State) : State × Reply :=
  let b := m.payload
  let a := byteAt b 0
  let v := get8 b 1
  match s.presentation p with
  | none => refuse s stBadArg
  | some x =>
    if b.length != 6 || 4 ≤ v || byteAt b 3 != 0 || !x.asRead.isBulkIn a ||
        (bit v 1 && 1000 < get16 b 4) then refuse s stBadArg
    else match (if bit v 0 then (boundaryOfCode (get8 b 2)).map some else some none) with
      | none => refuse s stBadArg
      | some mode =>
        if mode = some .snoopBot && !x.asRead.botSomewhere a then refuse s stBadArg
        else ok (s.setBoundary p a mode (if bit v 1 then some (get16 b 4) else none))

/-- The 84 bytes of one endpoint of LIFT_GET_EP_STATS. -/
def epStats (x : LiftPort) (a : Byte) : List Byte :=
  let k := countersOf x.counters a
  let c := x.ctxs.find? (·.addr == a)
  let set := x.settings.find? (·.addr == a)
  let bulkIn := x.asRead.isBulkIn a
  let dflt : Boundary := if ((x.ifaceOf a).map (fun i => i.botEligible a)).getD false then .snoopBot else .hold
  let mode := (c.map (·.mode)).getD ((set.bind (·.mode)).getD dflt)
  let window := (c.map (·.window)).getD ((set.bind (·.window)).getD 32)
  let zero := a.toNat == 0
  [a, BitVec.ofNat 8 (if bulkIn then boundaryCode mode else 0)] ++ le16 (if bulkIn then window else 0) ++
    [BitVec.ofNat 8 (bnat (zero || c.isSome) + 2 * bnat ((c.map (fun c => c.halted || c.poisoned)).getD (zero && x.ep0Halted)) +
      4 * bnat ((c.map (·.poisoned)).getD (zero && x.ep0Poisoned))), 0, 0, 0] ++
    le64 k.bytesUp.toNat ++ le64 k.bytesDown.toNat ++ le64 k.bytesDiscarded.toNat ++ le32 k.ssPackets ++ le32 k.hsPackets ++ le32 k.hsNaks ++
    le32 k.holdReleases ++ le32 k.zlpAbsorbed ++ le32 k.zlpForwarded ++ le32 k.cbwSeen ++ le32 k.snoopMismatch ++ le32 k.poisonings ++
    le32 k.isoSlips ++ le32 k.isoMissed ++ le32 k.wakes ++ le32 k.wakeCollisions

/-- Cut a list into pieces of 12 (Table 11.12). -/
def twelves : Nat → List Byte → List (List Byte)
  | 0, _ => []
  | n + 1, l => if l.length ≤ 12 then [l] else l.take 12 :: twelves n (l.drop 12)

/-- LIFT_GET_EP_STATS. -/
def opLiftGetEpStats (m : VcpMsg) (p : Port) (s : State) : State × Reply :=
  let b := m.payload
  let a := byteAt b 0
  if b.length != 2 || 2 ≤ get8 b 1 then refuse s stBadArg
  else match s.presentation p with
    | none => (s, .done stOK [0, 0, 0, 0])
    | some x =>
      let all := 0 :: x.asRead.addresses
      let want := if a = 0xFF then all else if all.contains a then [a] else []
      if want.isEmpty then refuse s stBadArg
      else
        let out := (twelves 32 want).map (fun l => [BitVec.ofNat 8 l.length, 0, 0, 0] ++ l.flatMap (epStats x))
        let s := if get8 b 1 = 1 then
            s.updLift p (fun x => { x with counters := x.counters.filter (fun e => !want.contains e.1) })
          else s
        match out with
        | [one] => (s, .done stOK one)
        | l => (s, .parts l)

/-- LIFT_CLEAR_POISON (R172, Table 5.10). -/
def opLiftClearPoison (m : VcpMsg) (p : Port) (s : State) : State × Reply :=
  let a := byteAt m.payload 0
  match s.presentation p with
  | none => refuse s stBadArg
  | some x =>
    if m.payload.length != 1 || !(a == 0 || x.asRead.addresses.contains a) then refuse s stBadArg
    else if a = 0 then ok (s.updLift p (fun x => { x with ep0Poisoned := false }))
    else ok (s.updCtx p a (fun c => if c.poisoned then { c with poisoned := false, halted := true, localClear := true, stall := false } else c))

end Sys2Proof.Machine
end

