-- ==== Sys2Proof/Machine/FaultTable.lean ====
section
/-! DEFINITION. The fault sources and kinds (Tables 12.2, 12.3, R413, R415, R417, R419): what a source belongs to, its group, its severities, whether its condition is present. -/

namespace Sys2Proof.Machine

open Sys2Proof

/-- The containment reactions as Table 12.3 names them; `safeHold` for a source whose kinds are Fatal without one. -/
inductive ReactClass where
  | none
  | mgtRestart
  | portDieReset
  | powerDieReset
  | leReset
  | partitionHold
  | pceReset
  | pdeReset
  | slotOff
  | bankClose
  | rowRetire
  | portPowerOff
  | port
deriving DecidableEq, Repr

/-- A row of Table 12.3: the sources from `lo` to `hi`, the kind, the default severity, whether it is locked, the reaction. -/
structure FaultRow where
  lo : Nat
  hi : Nat
  kind : Nat
  sev : Severity
  locked : Bool := false
  react : ReactClass := .none
deriving DecidableEq, Repr

/-- Table 12.3, the device-wide sources. -/
def deviceRows : List FaultRow :=
  [{ lo := 0x000, hi := 0x000, kind := 0x20, sev := .fatal, locked := true },
   { lo := 0x001, hi := 0x001, kind := 0x21, sev := .containment, react := .mgtRestart },
   { lo := 0x002, hi := 0x002, kind := 0x07, sev := .correctable, react := .mgtRestart },
   { lo := 0x002, hi := 0x002, kind := 0x01, sev := .containment, react := .mgtRestart },
   { lo := 0x003, hi := 0x003, kind := 0x70, sev := .degraded },
   { lo := 0x003, hi := 0x003, kind := 0x74, sev := .degraded },
   { lo := 0x004, hi := 0x004, kind := 0x71, sev := .degraded },
   { lo := 0x004, hi := 0x004, kind := 0x72, sev := .note },
   { lo := 0x004, hi := 0x004, kind := 0x73, sev := .note },
   { lo := 0x004, hi := 0x004, kind := 0x75, sev := .fatal, locked := true },
   { lo := 0x005, hi := 0x005, kind := 0x34, sev := .degraded },
   { lo := 0x006, hi := 0x006, kind := 0x35, sev := .degraded },
   { lo := 0x007, hi := 0x007, kind := 0x07, sev := .correctable },
   { lo := 0x007, hi := 0x007, kind := 0x01, sev := .degraded },
   { lo := 0x007, hi := 0x007, kind := 0x22, sev := .fatal },
   { lo := 0x008, hi := 0x008, kind := 0x23, sev := .note },
   { lo := 0x009, hi := 0x009, kind := 0x24, sev := .degraded },
   { lo := 0x010, hi := 0x01F, kind := 0x30, sev := .note },
   { lo := 0x010, hi := 0x01F, kind := 0x31, sev := .fatal, locked := true },
   { lo := 0x020, hi := 0x027, kind := 0x32, sev := .note },
   { lo := 0x020, hi := 0x027, kind := 0x33, sev := .fatal, locked := true }]

/-- Table 12.3, the sources of dies, engines, slots, banks and ports. -/
def blockRows : List FaultRow :=
  [{ lo := 0x030, hi := 0x031, kind := 0x10, sev := .containment, react := .portDieReset },
   { lo := 0x032, hi := 0x033, kind := 0x10, sev := .containment, react := .powerDieReset },
   { lo := 0x034, hi := 0x039, kind := 0x11, sev := .degraded },
   { lo := 0x034, hi := 0x039, kind := 0x12, sev := .correctable },
   { lo := 0x100, hi := 0x10F, kind := 0x22, sev := .containment, react := .leReset },
   { lo := 0x110, hi := 0x11F, kind := 0x22, sev := .containment, react := .partitionHold },
   { lo := 0x120, hi := 0x12F, kind := 0x22, sev := .containment, react := .pceReset },
   { lo := 0x130, hi := 0x13F, kind := 0x01, sev := .correctable, react := .pceReset },
   { lo := 0x130, hi := 0x13F, kind := 0x03, sev := .degraded, react := .pceReset },
   { lo := 0x140, hi := 0x14F, kind := 0x22, sev := .containment, react := .pdeReset },
   { lo := 0x150, hi := 0x15F, kind := 0x01, sev := .degraded, react := .pdeReset },
   { lo := 0x160, hi := 0x16F, kind := 0x50, sev := .note, react := .slotOff },
   { lo := 0x160, hi := 0x16F, kind := 0x51, sev := .degraded, react := .slotOff },
   { lo := 0x170, hi := 0x17F, kind := 0x52, sev := .degraded, react := .slotOff },
   { lo := 0x170, hi := 0x17F, kind := 0x53, sev := .correctable, react := .slotOff },
   { lo := 0x200, hi := 0x21F, kind := 0x03, sev := .degraded, react := .bankClose },
   { lo := 0x220, hi := 0x23F, kind := 0x04, sev := .degraded, react := .rowRetire },
   { lo := 0x240, hi := 0x25F, kind := 0x01, sev := .degraded, react := .bankClose },
   { lo := 0x240, hi := 0x25F, kind := 0x02, sev := .degraded, react := .bankClose },
   { lo := 0x240, hi := 0x25F, kind := 0x06, sev := .note },
   { lo := 0x260, hi := 0x27F, kind := 0x05, sev := .degraded },
   { lo := 0x400, hi := 0x5FF, kind := 0x40, sev := .degraded, react := .portPowerOff },
   { lo := 0x400, hi := 0x5FF, kind := 0x41, sev := .degraded, react := .portPowerOff },
   { lo := 0x400, hi := 0x5FF, kind := 0x42, sev := .degraded, react := .portPowerOff },
   { lo := 0x600, hi := 0x7FF, kind := 0x43, sev := .correctable, react := .portPowerOff },
   { lo := 0x800, hi := 0x9FF, kind := 0x60, sev := .degraded, react := .port },
   { lo := 0x800, hi := 0x9FF, kind := 0x61, sev := .note, react := .port },
   { lo := 0x800, hi := 0x9FF, kind := 0x22, sev := .containment, react := .port }]

/-- The rows of Table 12.3 that pair a source. -/
def rowsOf (source : Nat) : List FaultRow := (deviceRows ++ blockRows).filter (fun r => r.lo ≤ source && source ≤ r.hi)

/-- The row of Table 12.3 of a source and kind. [DEDUCED: log 34] -/
def faultRow (source kind : Nat) : Option FaultRow := (rowsOf source).find? (fun r => r.kind == kind)

/-- The group of a source, by its key (Table 12.2). -/
def groupOf (source : Nat) : Nat :=
  if source < 0x010 then source
  else if source < 0x020 then 0x010
  else if source < 0x028 then 0x020
  else if source < 0x032 then 0x030
  else if source < 0x034 then 0x032
  else if source < 0x037 then 0x034
  else if source < 0x03A then 0x037
  else if source < 0x200 then source
  else if source < 0x280 then source / 8 * 8
  else source / 32 * 32

/-! ## The partitions a source belongs to (R413) -/

/-- The partitions that own a port of one of some slots. -/
def State.partsOfSlots (s : State) (which : Slot → Bool) : List Part :=
  ((List.finRange 16).filter which).flatMap s.partsOfSlot

/-- The partitions of a bank source: the owners of buffers with rows in the bank, and the partition of its home pair. -/
def State.partsOfBank (s : State) (b : Bank) : List Part :=
  ⟨b.val / 2, by omega⟩ :: (s.rings.filter (fun r => r.rows.any (fun x => x.1 == b))).map (fun r => s.ownerPart r.owner)

/-- The partitions a source belongs to; all of them for a device-wide source. -/
def State.partsOfSource (s : State) (source : Nat) : List Part :=
  let n := Fin.ofNat 16 source
  if source < 0x030 then List.finRange 16
  else if source < 0x032 then
    (List.finRange 16).filter (fun k => allPorts.any (fun p => s.partOf.get p == k && (dieOf p).val == source - 0x030))
  else if source < 0x034 then s.partsOfSlots (fun k => (dieOfSlot k).val == source - 0x032)
  else if source < 0x040 then s.partsOfSlots (fun k => (dieOfSlot k).val == (source - 0x034) / 3)
  else if source < 0x120 then [n]
  else if source < 0x200 then s.partsOfSlot n
  else if source < 0x400 then s.partsOfBank (Fin.ofNat 32 source)
  else [s.partOf.get (Fin.ofNat 512 source)]

/-- PARTITIONS of a record. -/
def partMask (l : List Part) : BitVec 16 := l.foldl (fun m k => m ||| (1#16 <<< k.val)) 0

/-! ## Whether a condition is present (Table 12.2, R419) -/

/-- Whether an endpoint of a lifted port is poisoned. -/
def State.isPoisoned (s : State) (p : Port) (a : Byte) : Bool :=
  ((s.lift.get p).map (fun x => if a = 0 then x.ep0Poisoned else x.ctxs.any (fun c => c.addr == a && c.poisoned))).getD false

/-- One pair of a port. -/
def VbusState.pair (v : VbusState) (i : Nat) : PairState := if i = 0 then v.oc else if i = 1 then v.pgood else v.twarn

/-- Whether the word at a word address reads as Uncorrectable or Poison. -/
def State.wordBad (s : State) (a : Nat) : Bool :=
  let b : Bank := Fin.ofNat 32 (a / 65536)
  (classify (pbmSyndrome (s.cell b (a / 64 % 1024) (a % 64)))).lost

/-- STILL_PRESENT of a record. [DEDUCED: log 36] -/
def State.stillPresent (s : State) (r : FaultRec) : Bool :=
  let src := r.source.toNat
  let info := r.info.toNat
  let k : Fin 16 := Fin.ofNat 16 src
  let b : Bank := Fin.ofNat 32 src
  let p : Port := Fin.ofNat 512 src
  if src = 0x003 then r.kind == 0x70 && (s.fw.areas.get (slotArea (Fin.ofNat 2 info))).st == .invalid
  else if src = 0x005 then s.eve.avs
  else if src = 0x006 then s.clocks.refLost
  else if src < 0x010 then false
  else if src < 0x020 then if r.kind = 0x31 then (s.sensors.get k).crit else (s.sensors.get k).eve
  else if src < 0x028 then
    let x := s.rails.get (Fin.ofNat 8 src)
    if r.kind = 0x33 then x.failed else x.low
  else if src < 0x032 then s.portLinks.get (Fin.ofNat 2 src) != .active
  else if src < 0x034 then !(s.powerLinks.get (Fin.ofNat 2 src)).up
  else if src < 0x03A then (s.alarms.get (Fin.ofNat 6 (src - 0x034))).asserted
  else if src < 0x130 then false
  else if src < 0x140 then s.pbm.ttBucketThreshold < s.ttBucket.get k
  else if src < 0x160 then false
  else if src < 0x170 then r.kind == 0x51 && (s.slots.get k).st == .latched
  else if src < 0x180 then
    if r.kind = 0x52 then (s.chains.get k).st == .fault
    else ((s.vbus.get (portAt k (Fin.ofNat 32 (info % 256)))).pair (info / 256 % 256)).wireFault
  else if src < 0x220 then s.pbm.bucketThreshold < (s.banks.get b).bucket
  else if src < 0x240 then s.sticky.any (fun e => e.word.toNat == info)
  else if src < 0x260 then s.wordBad info
  else if src < 0x400 then false
  else if src < 0x600 then (s.vbus.get p).hold.isSome
  else if src < 0x800 then (s.vbus.get p).twarn.valid && (s.vbus.get p).twarn.value
  else s.isPoisoned p (BitVec.ofNat 8 info) || (s.ports.get p).st == .error

/-! ## The severity table (R417) -/

/-- The severity of a source and kind now. -/
def State.severityOf (s : State) (source : BitVec 12) (kind : Byte) : Severity :=
  match s.fault.severities.find? (fun e => e.1 == source && e.2.1 == kind) with
  | some e => e.2.2
  | none => ((faultRow source.toNat kind.toNat).map (·.sev)).getD .note

/-- A severity from its code. -/
def severityOfCode : Nat → Option Severity
  | 0 => some .note
  | 1 => some .correctable
  | 2 => some .degraded
  | 3 => some .containment
  | 4 => some .fatal
  | _ => none

/-- The code of a severity. -/
def severityCode : Severity → Nat
  | .note => 0
  | .correctable => 1
  | .degraded => 2
  | .containment => 3
  | .fatal => 4

/-- Write the severity of one pair. -/
def State.putSeverity (s : State) (source : BitVec 12) (kind : Byte) (v : Severity) : State :=
  { s with fault := { s.fault with
      severities := s.fault.severities.filter (fun e => !(e.1 == source && e.2.1 == kind)) ++ [(source, kind, v)] } }

/-- FAULT_SET_SEVERITY's settings: the new state, or the status it is refused with (R417). -/
def State.setSeverity (s : State) (l : List Byte) : Except Byte State :=
  let src := get16 l 0
  let kind := get8 l 2
  let rows := if 4096 ≤ src then [] else if kind = 0xFF then rowsOf src else (faultRow src kind).toList
  match severityOfCode (get8 l 3) with
  | none => .error stBadArg
  | some v =>
    if l.length != 4 || rows.isEmpty then .error stBadArg
    else if rows.any (·.locked) then .error stDenied
    else .ok (forAll rows (fun s r => s.putSeverity (BitVec.ofNat 12 src) (BitVec.ofNat 8 r.kind) v) s)

/-! ## FAULT_N settings (R421) -/

/-- Whether a FAULTPIN_CONTROL request is well formed and in range. [DESIGN CHOICE: log 32] -/
def faultPinOk (l : List Byte) : Bool :=
  let v := get8 l 0
  l.length == 6 && v < 8 && byteAt l 3 == 0 && (!bit v 0 || get8 l 1 ≤ 4) &&
    (!bit v 2 || get8 l 2 ≤ 1) && (!bit v 1 || (2 ≤ get16 l 4 && get16 l 4 ≤ 1000))

/-- The FAULT_N settings a request leaves. [DEDUCED: log 41] -/
def applyFaultPin (l : List Byte) (x : FaultState) : FaultState :=
  let v := get8 l 0
  { x with threshold := if bit v 0 then (severityOfCode (get8 l 1)).getD x.threshold else x.threshold
           minWidth := if bit v 1 then get16 l 4 else x.minWidth
           pinHold := if bit v 2 then get8 l 2 == 1 else x.pinHold }

end Sys2Proof.Machine
end

