-- ==== Sys2Proof/Machine/Record.lean ====
section
/-! DEFINITION. What a configuration record sets in Dawn (R329, R405, R456, Table 11.24), and the defaults it starts from. -/

namespace Sys2Proof.Machine

open Sys2Proof

/-! ## The defaults that Dawn restores (R46, R347, R417, R456, Table 10.2) -/

/-- The default partition of a port (R45). -/
def defaultPart (p : Port) : Part := ⟨p.val / 32, by omega⟩
/-- The default position of a port (R45). -/
def defaultPos (p : Port) : Pos := ⟨p.val % 32, by omega⟩

/-- The per-port settings of Table 3.1 at their defaults. -/
def PortState.defaults (x : PortState) : PortState :=
  { x with dataMode := .auto, isoLift := false, bcMode := .cdp, bcNext := none, l1Enable := true, l1Idle := 500 }

/-- Every setting that Dawn returns, at its default (R456). -/
def State.defaultSettings (s : State) : State :=
  { s with
    partOf := Tab.of defaultPart, posOf := Tab.of defaultPos, modeCfg := {}, pbm := {}, vendorId := 0x3E17
    ports := Tab.of (fun p => (s.ports.get p).defaults)
    pd := Tab.of (fun p => { s.pd.get p with cfg := {} })
    vbus := Tab.of (fun p => { s.vbus.get p with setting := true })
    parts := Tab.of (fun k => { s.parts.get k with cfg := {}, classes := defaultClasses, latBudget := 20 })
    ups := Tab.of (fun k => { s.ups.get k with vbusInput := false })
    smbus := { s.smbus with address := 0x5A }
    clocks := { s.clocks with refSelect := false }
    fault := { s.fault with severities := [] }
    fw := { s.fw with grantList := 0, retired := [], closed := 0 } }

/-! ## Fields of a borrowed layout (R405) -/

/-- A fault record of kind SETTING_REPLACED (Table 12.3). [DEDUCED: log 51] -/
def State.replaced (s : State) (offset : Nat) : State := s.detect 0x004 0x72 offset

/-- A request that writes only the field of VALID bit `i`: `keep` lists its bytes with their masks. -/
def onePiece (wide : Bool) (i : Nat) (keep : List (Nat × Nat)) (l : List Byte) : List Byte :=
  (List.range l.length).map (fun j =>
    if j = 0 then BitVec.ofNat 8 (2 ^ i)
    else if wide && j == 1 then BitVec.ofNat 8 (2 ^ i / 256)
    else match keep.find? (·.1 == j) with
      | some (_, m) => byteAt l j &&& BitVec.ofNat 8 m
      | none => 0)

/-- Write a borrowed request field by field; a field the command would refuse takes the setting's default, with a record. -/
def applyPieces (offset : Nat) (wide : Bool) (fields : List (Nat × List (Nat × Nat))) (dflt l : List Byte)
    (write : State → List Byte → Option State) (s : State) : State :=
  let v := if wide then get16 l 0 else get8 l 0
  forAll (fields.filter (fun f => bit v f.1)) (fun s f =>
    match write s (onePiece wide f.1 f.2 l) with
    | some t => t
    | none =>
      let t := s.replaced offset
      (write t (onePiece wide f.1 f.2 dflt)).getD t) s

/-- A value where a test of it holds, none otherwise. -/
def when {α : Type} (b : Bool) (a : α) : Option α := if b then some a else none

/-- The fields of PBM_SET_SCRUB. -/
def scrubFields : List (Nat × List (Nat × Nat)) :=
  [(0, [(1, 255)]), (1, [(2, 255)]), (2, [(4, 255), (5, 255)]), (3, [(3, 255)]), (4, [(6, 255)]), (5, [(7, 255)])]
/-- The fields of FAULTPIN_CONTROL. -/
def pinFields : List (Nat × List (Nat × Nat)) := [(0, [(1, 255)]), (1, [(4, 255), (5, 255)]), (2, [(2, 255)])]
/-- The fields of PART_SET_LIMITS. -/
def limitFields : List (Nat × List (Nat × Nat)) :=
  [(0, [(2, 255)]), (1, [(4, 255), (5, 255)]), (2, [(6, 255), (7, 255)]), (3, [(8, 255), (9, 255)]), (4, [(1, 1)]), (5, [(1, 2)]), (6, [(1, 4)])]
/-- The fields of PORT_SET_MODE. -/
def modeFields : List (Nat × List (Nat × Nat)) := [(0, [(1, 255)]), (1, [(2, 1)]), (2, [(2, 2)]), (3, [(4, 255), (5, 255)])]
/-- The fields of SBU_SET_ROUTE. -/
def sbuFields : List (Nat × List (Nat × Nat)) :=
  [(0, [(1, 255), (3, 255), (4, 255), (5, 255)]), (1, [(2, 1)]), (2, [(8, 255), (9, 255), (10, 255), (11, 255)])]
/-- The fields of PD_SET_AUTORESP but for the canned entries. -/
def autorespFields : List (Nat × List (Nat × Nat)) := [(0, [(1, 255)]), (1, [(2, 255)]), (2, [(3, 255)]), (3, [(4, 255)]), (4, [(5, 255)])]
/-- The fields of SLOT_SET_LIMITS. -/
def slotFields : List (Nat × List (Nat × Nat)) :=
  [(0, [(4, 255), (5, 255)]), (1, [(6, 255), (7, 255)]), (2, [(8, 255)]), (3, [(9, 255)]), (4, [(10, 255), (11, 255)]),
   (5, [(12, 255), (13, 255)]), (6, [(14, 255), (15, 255)]), (7, [(16, 255)]), (8, [(17, 255)]), (9, [(18, 255), (19, 255)]),
   (10, [(20, 255)]), (11, [(21, 255)]), (12, [(22, 255)]), (13, [(23, 255)]), (14, [(24, 255), (25, 255), (26, 255), (27, 255)])]

/-! ## Elements -/

/-- The numbers of an inclusive range FIRST–LAST below `n`; none where it is not one. -/
def rangeOf (n first last : Nat) : Option (List Nat) :=
  if first ≤ last && last < n then some ((List.range n).filter (fun i => first ≤ i && i ≤ last)) else none

/-- Apply an element to each object of its range; a range that is none is skipped with a record. -/
def overRange (n : Nat) (h : 0 < n) (e : Element) (first last : Nat) (f : State → Fin n → State) (s : State) : State :=
  match rangeOf n first last with
  | some l => forAll l (fun s i => f s ⟨i % n, Nat.mod_lt _ h⟩) s
  | none => s.replaced e.offset

/-- A ranged value of MODE_SETTINGS: the value, or the default with a record (R329). -/
def ranged (offset : Nat) (good : Bool) (f : ModeSettings → ModeSettings) (dflt : ModeSettings → ModeSettings) (s : State) : State :=
  if good then { s with modeCfg := f s.modeCfg } else let t := s.replaced offset; { t with modeCfg := dflt t.modeCfg }

/-- MODE_SETTINGS (Table 10.2). -/
def State.recordModes (s : State) (o : Nat) (v : List Byte) : State :=
  let lift := get16 v 2
  let hold := get16 v 4
  let warn := get8 v 6
  let eve := get8 v 7
  let delay := get16 v 8
  let timer := get32 v 12
  let d : ModeSettings := {}
  let s := ranged o (get8 v 0 ≤ 1) (fun m => { m with bootNoon := get8 v 0 == 1 }) (fun m => { m with bootNoon := d.bootNoon }) s
  let s := ranged o true (fun m => { m with autoEvening := bit (get8 v 1) 0, autoNight := bit (get8 v 1) 1 }) id s
  let s := ranged o (100 ≤ lift && lift ≤ 2400 && lift % 50 == 0) (fun m => { m with eveningLiftCap := lift })
    (fun m => { m with eveningLiftCap := d.eveningLiftCap }) s
  let s := ranged o (10 ≤ hold && hold ≤ 3600) (fun m => { m with eveningHold := hold }) (fun m => { m with eveningHold := d.eveningHold }) s
  let s := ranged o (60 ≤ warn && warn ≤ 105) (fun m => { m with tjWarn := warn }) (fun m => { m with tjWarn := d.tjWarn }) s
  let s := ranged o (70 ≤ eve && eve ≤ 105 && s.modeCfg.tjWarn ≤ eve) (fun m => { m with tjEvening := eve })
    (fun m => { m with tjEvening := max d.tjEvening m.tjWarn }) s
  let s := ranged o (100 ≤ delay && delay ≤ 60000) (fun m => { m with nightDelay := delay }) (fun m => { m with nightDelay := d.nightDelay }) s
  let s := ranged o true (fun m => { m with wakeSources := BitVec.ofNat 16 (get16 v 10) }) id s
  ranged o (timer ≤ 86400) (fun m => { m with wakeTimer := timer }) (fun m => { m with wakeTimer := d.wakeTimer }) s

/-- PORT_ASSIGN under R47: the index named, the lowest free one for AUTO, or, where it would be refused, the assignment of R45. [DEDUCED: log 51] -/
def State.recordAssign (s : State) (o : Nat) (v : List Byte) : State :=
  let n := get16 v 0
  if h : n < 512 then
    let p : Port := ⟨n, h⟩
    let k : Part := Fin.ofNat 16 (get8 v 2)
    let free := if get8 v 3 = 0xFF then s.freeIndex k else
      if get8 v 3 < 112 then (let i : Pos := Fin.ofNat 112 (get8 v 3); if (s.portAtPos k i).all (· == p) then some i else none) else none
    let put := fun (s : State) (k : Part) (i : Pos) => { s with partOf := s.partOf.put p k, posOf := s.posOf.put p i }
    match free with
    | some i =>
      if get8 v 2 < 16 && ((s.partOf.get p == k && s.posOf.get p == i) || s.assignable p k) then put s k i
      else (let s := s.replaced o; if (s.portAtPos (defaultPart p) (defaultPos p)).isSome then s else put s (defaultPart p) (defaultPos p))
    | none => let s := s.replaced o; if (s.portAtPos (defaultPart p) (defaultPos p)).isSome then s else put s (defaultPart p) (defaultPos p)
  else s.replaced o

/-- The data mode and settings of a PORT_SET_MODE request in a record. -/
def State.recordPortMode (s : State) (p : Port) (l : List Byte) : Option State :=
  if !setModeArgsOk l then none
  else if !bit (get8 l 0) 0 then some (s.updPort p (applyPortMode l))
  else match modeOfCode (get8 l 1) with
    | none => none
    | some d =>
      if dataModeAttaches d && !dataModeAttaches (s.ports.get p).dataMode && !s.slotsAllow (s.partOf.get p) then none
      else some (s.updPort p (fun x => { applyPortMode l x with dataMode := d }))

/-- PORT_DATA. -/
def State.recordPortData (s : State) (o : Nat) (p : Port) (v : List Byte) : State :=
  let s := applyPieces o false modeFields [0x0F, 0, 2, 0, 0xF4, 0x01] ((v.drop 4).take 6) (fun s l => s.recordPortMode p l) s
  let bc := get8 v 10
  let s := if bc = 0xFF then s
    else if bc ≤ 1 then s.updPort p (fun x => { x with bcMode := if bc = 1 then .cdp else .sdp })
    else (s.replaced o).updPort p (fun x => { x with bcMode := .cdp })
  let vb := get8 v 11
  if vb = 0xFF then s
  else if vb ≤ 1 then s.updVbus p (fun x => { x with setting := vb == 1 })
  else (s.replaced o).updVbus p (fun x => { x with setting := true })

/-- PORT_AUTORESP: the fields, then the canned entries. -/
def State.recordAutoresp (s : State) (o : Nat) (p : Port) (l : List Byte) : State :=
  let write := fun (s : State) (q : List Byte) => (setAutoresp p q (s.pd.get p).cfg).map (fun c => s.updPd p (fun x => { x with cfg := c }))
  let s := applyPieces o false autorespFields [0x1F, 1, 0, 10, 0, if ssCapable p then 0 else 1, 0, 0] (l.take 8) write s
  if bit (get8 l 0) 5 then
    match write s ([0x20, 0, 0, 0, 0, 0] ++ l.drop 6) with
    | some t => t
    | none => (s.replaced o).updPd p (fun x => { x with cfg := { x.cfg with canned := [] } })
  else s

/-- An element applied in step 10 of Table 10.15. [DEDUCED: log 51] -/
def State.recordElement (s : State) (e : Element) : State :=
  let v := e.value
  let o := e.offset
  let ports := fun (f : State → Port → State) => overRange 512 (by omega) e (get16 v 0) (get16 v 2) f s
  match e.tag with
  | 0x0001 =>
    let a := get8 v 2
    let s := { s with vendorId := if get16 v 0 = 0 then 0x3E17 else BitVec.ofNat 16 (get16 v 0), clocks := { s.clocks with refSelect := bit (get8 v 3) 0 } }
    if 0x08 ≤ a && a ≤ 0x77 then { s with smbus := { s.smbus with address := BitVec.ofNat 7 a } }
    else let t := s.replaced o; { t with smbus := { t.smbus with address := 0x5A } }
  | 0x0002 => s.recordModes o v
  | 0x0003 => applyPieces o false scrubFields [0x3F, 1, 1, 16, 60, 0, 4, 16] v (fun s l => when (scrubArgsOk l) { s with pbm := applyScrub l s.pbm }) s
  | 0x0004 => applyPieces o false pinFields [7, 3, 0, 0, 2, 0] v (fun s l => when (faultPinOk l) { s with fault := applyFaultPin l s.fault }) s
  | 0x0005 =>
    match s.setSeverity v with
    | .ok t => t
    | .error _ => s.replaced o
  | 0x0006 => { s with ups := Tab.of (fun k => { s.ups.get k with vbusInput := bit (get16 v 0) k.val }) }
  | 0x0007 => s.updFw (fun x => { x with grantList := BitVec.ofNat 16 (get16 v 0) })
  | 0x0010 =>
    overRange 16 (by omega) e (get8 v 0) (get8 v 1) (fun s k =>
      applyPieces o false limitFields [0x7F, 7, 112, 0, 0, 0, 0, 0, 100, 0] (v.drop 4)
        (fun s l => when (s.partArgsOk k l) (s.updPart k (fun x => { x with cfg := applyLimits l x.cfg }))) s) s
  | 0x0011 =>
    let n := get8 v 4
    overRange 16 (by omega) e (get8 v 0) (get8 v 1) (fun s k =>
      if 1 ≤ n && n ≤ 32 then s.updPart k (fun x => { x with classes := (List.range n).map (fun i => classAt v (4 * i + 8)) })
      else (s.replaced o).updPart k (fun x => { x with classes := defaultClasses })) s
  | 0x0020 => s.recordAssign o v
  | 0x0021 => ports (fun s p => s.recordPortData o p v)
  | 0x0022 =>
    ports (fun s p =>
      let set := fun (s : State) (r : RpLevel) => s.updPd p (fun x => { x with cfg := { x.cfg with rpLevel := r } })
      match rpOfCode (get8 v 4) with
      | some r => if s.cardMa p < rpMa r then set (s.replaced o) .r1A5 else set s r
      | none => set (s.replaced o) .r1A5)
  | 0x0023 =>
    ports (fun s p =>
      match s.setOffer p (v.drop 4) with
      | some t => t
      | none => (s.replaced o).updPd p (fun x => { x with cfg := { x.cfg with offer := none, pdEnable := true } }))
  | 0x0024 => ports (fun s p => s.recordAutoresp o p (v.drop 4))
  | 0x0025 =>
    let n := get16 v 4
    ports (fun s p =>
      if 10 ≤ n && n ≤ 500 && n % 10 == 0 then s.updPd p (fun x => { x with cfg := { x.cfg with waitRetry := n } })
      else (s.replaced o).updPd p (fun x => { x with cfg := { x.cfg with waitRetry := 100 } }))
  | 0x0026 =>
    ports (fun s p =>
      applyPieces o false sbuFields [7, 0, 1, 0, 0, 0, 0, 0, 0x00, 0xC2, 0x01, 0x00] (v.drop 4) (fun s l =>
        let full := ((List.finRange 6).find? (fun u => ((s.uarts.get (s.partOf.get p)).get u).port == none)).isNone
        let on := bit (get8 l 0) 0 && get8 l 1 == 1
        if !sbuArgsOk p l || (on && (s.pd.get p).uartSlot.isNone && full) then none
        else
          let t := s.updPd p (fun x => { x with cfg := sbuSettings l x.cfg })
          some ((if on && (t.pd.get p).uartSlot.isNone then t.bindUart p else t).syncBaud p)) s)
  | 0x0030 => s
  | 0x0040 => s
  | 0x0041 => s
  | _ => s.replaced o

/-- A SLOT element, in step 9. -/
def State.recordSlot (s : State) (e : Element) : State :=
  let v := e.value
  if e.tag != 0x0030 then s
  else overRange 16 (by omega) e (get8 v 0) (get8 v 1) (fun s k =>
    let s := applyPieces e.offset true slotFields (limitsBytes {}) (v.drop 4) (fun s l => s.setLimits k l) s
    if get8 v 2 = 1 then s.updSlot k (fun x => { x with enable := true })
    else (if get8 v 2 = 0 then s else s.replaced e.offset).slotOff k) s

/-- RETIRED_ROWS and CLOSED_BANKS, before the fill of step 8 (R235, R236). -/
def State.recordRows (s : State) (e : Element) : State :=
  let v := e.value
  match e.tag with
  | 0x0040 =>
    let n := get8 v 1
    if 32 ≤ get8 v 0 || n < 1 || 16 < n then s.replaced e.offset
    else
      forAll (List.range n) (fun s i =>
        if get16 v (2 * i + 4) < 768 then s.updFw (fun x => { x with retired := x.retired ++ [(Fin.ofNat 32 (get8 v 0), get16 v (2 * i + 4))] })
        else s.replaced e.offset) s
  | 0x0041 => s.updFw (fun x => { x with closed := bits32 v 0 })
  | _ => s

end Sys2Proof.Machine
end

