-- ==== Sys2Proof/Machine/ModeBase.lean ====
section
/-! DEFINITION. Operating modes and power domains: codes, sessions that end, domain states, entering a mode, Dawn and the start-up sequence (chapter 10). -/

namespace Sys2Proof.Machine

open Sys2Proof

/-! ## Codes (Tables 10.1, 10.5, 10.6a, 11.16) -/

/-- The code of an operating mode (Table 10.1). -/
def opModeCode : Mode → Nat
  | .off => 0x00
  | .midnight => 0x01
  | .night => 0x02
  | .dawn => 0x03
  | .morning => 0x04
  | .noon => 0x05
  | .evening => 0x06
  | .dusk => 0x07
  | .maintenance => 0x08
  | .diagnostic => 0x09
  | .safeHold => 0x0A

/-- The target code of a goal (Table 10.1). -/
def goalCode : Goal → Nat
  | .off => 0x00
  | .midnight => 0x01
  | .night => 0x02
  | .morning => 0x04
  | .noon => 0x05
  | .evening => 0x06
  | .maintenance _ => 0x08
  | .diagnostic => 0x09
  | .restart => 0x10

/-- The goal a MODE_REQUEST target names; none for a target not accepted (Table 10.1). -/
def goalOf : Nat → Option Goal
  | 0x00 => some .off
  | 0x01 => some .midnight
  | 0x02 => some .night
  | 0x04 => some .morning
  | 0x05 => some .noon
  | 0x06 => some .evening
  | 0x09 => some .diagnostic
  | 0x10 => some .restart
  | _ => none

/-- The code of a domain (Table 11.16). -/
def domCode (d : Fin 25) : Nat := if d.val < 9 then d.val + 1 else d.val + 7

/-- The MODE_CHANGED causes of Table 10.5. -/
def causeRequest : Byte := 0x01
/-- BOOT. -/
def causeBoot : Byte := 0x02
/-- BOOT_TARGET. -/
def causeBootTarget : Byte := 0x03
/-- AUTO_NIGHT. -/
def causeAutoNight : Byte := 0x04
/-- WAKE. -/
def causeWake : Byte := 0x05
/-- EVENING_CAUSE. -/
def causeEvening : Byte := 0x06
/-- EVENING_CLEAR. -/
def causeClear : Byte := 0x07
/-- FW_ACTIVATE. -/
def causeActivate : Byte := 0x08
/-- ABORTED. -/
def causeAborted : Byte := 0x09
/-- FATAL. -/
def causeFatal : Byte := 0x0A
/-- ACTIVATION_DONE. -/
def causeDone : Byte := 0x0B

/-- The Evening causes as GET_STATUS and MODE_GET report them. -/
def eveBits (e : EveCauses) : Nat := bnat e.thermal + 2 * bnat e.supply + 4 * bnat e.avs + 8 * bnat e.command

/-- Whether a mode is visible through MODE_CHANGED (Table 10.1). -/
def modeVisible : Mode → Bool
  | .off => false
  | .midnight => false
  | .dawn => false
  | _ => true

/-- MODE_CHANGED of the mode that stands (Table 11.15). -/
def State.modeChanged (s : State) (req : Option ModeRequest) : State :=
  let sess := ((req.bind (·.session)).map (fun i => BitVec.ofNat 8 i.val)).getD 0xFF
  let cseq := (req.map (·.cseq.toNat)).getD 0
  let oob := s.mode == .safeHold
  s.issue { code := 0x8701, target := deviceTarget,
            payload := [BitVec.ofNat 8 (opModeCode s.mode), BitVec.ofNat 8 (opModeCode s.origin), s.cause, 0] ++ le16 s.detail.toNat ++
              [sess, 0] ++ le32 cseq,
            audience := { everyone := !oob, oob } }

/-! ## Sessions that end (R332, R377, R403) -/

/-- Staging is abandoned: its area is INVALID (Table 11.22). -/
def State.abandonStaging (s : State) : State :=
  match s.fw.staging with
  | some g => s.updFw (fun x => { x.mark g.area .invalid with staging := none })
  | none => s

/-- What a session is after it has closed; what waits on its transport stays. [DEDUCED: log 69] -/
def Session.closed (x : Session) : Session :=
  { executing := x.executing, repeats := x.repeats, store := x.store, out := x.out, pendingGrant := x.pendingGrant }

/-- The closing response of an activation or trial has no session any more. -/
def FirmwareState.orphan (x : FirmwareState) (gone : Sess → Bool) : FirmwareState :=
  let keep := fun (o : Option Sess) => o.filter (fun i => !gone i)
  { x with activation := x.activation.map (fun a => { a with session := keep a.session })
           trial := x.trial.map (fun a => { a with session := keep a.session }) }

/-- Close a session (R377). [DEDUCED: log 69] -/
def State.closeSession (s : State) (i : Sess) : State :=
  let s := (s.updSession i Session.closed).updFw (fun x => x.orphan (· == i))
  match s.fw.staging with
  | some g => if g.session = i then s.abandonStaging else s
  | none => s

/-- Every session ends (R332); pending grants are cleared (R378). `keep`: responses that wait behind a mailbox stay. [DEDUCED: log 69] -/
def State.endSessions (s : State) (keep : Bool) : State :=
  let s := { s with sessions := Tab.of (fun i => if keep && isOob i then { out := (s.sessions.get i).out } else {}), heldEvents := [] }
  (s.updFw (fun x => x.orphan (fun _ => true))).abandonStaging

/-! ## Domains (Tables 10.8, 10.9, R198, R199, R345, R346) -/

/-- How deep a domain state is. -/
def domDepth : DomState → Nat
  | .on => 0
  | .gated => 1
  | .retention => 2
  | .off => 3

/-- The low states a domain may take within a mode, deepest first, with their exit times in µs (Table 10.8). -/
def domStates (d : Fin 25) : List (DomState × Nat) :=
  if d.val = 0 then [(.gated, 1)]
  else if d.val = 1 then [(.gated, 1)]
  else if d.val = 2 then [(.off, 70), (.retention, 20), (.gated, 2)]
  else if d.val < 7 then [(.off, 70), (.retention, 12)]
  else if d.val = 7 then [(.off, 250)]
  else if d.val = 8 then [(.off, 200)]
  else [(.off, 180), (.gated, 4)]

/-- The slot of an HSG domain. -/
def hsgSlot (d : Fin 25) : Slot := Fin.ofNat 16 (d.val - 9)
/-- Whether a port is in a state that keeps its HSG domain from no low state (Table 10.8). -/
def hsgQuiet : PortSt → Bool
  | .idle => true
  | .pending => true
  | .suspended => true
  | .l1 => true
  | .error => true
  | .off => true
  | .charge => true
  | _ => false

/-- Whether anything is queued for an MF. -/
def State.mfQueued (s : State) : Bool :=
  (List.finRange 16).any (fun k =>
    let x := s.sessions.get (mfSession k)
    !x.out.isEmpty || !x.store.isEmpty || (nextToSend x).isSome || s.cdcDue k)

/-- Whether a port has a lifted presentation. -/
def State.liftPresented (s : State) (p : Port) : Bool := ((s.lift.get p).map (·.presented)).getD false

/-! ## PLLs (R360, Table 10.13) -/

/-- The PLLs of Table 10.13; HSPLL_A is of PTA (0), HSPLL_B of PTB (1). -/
inductive Pll where
  | sys
  | mgt
  | us
  | ds
  | hs (d : Fin 2)
deriving DecidableEq, Repr

/-- What a PLL is doing. -/
inductive PllState where
  | stopped
  | locking
  | locked
deriving DecidableEq, Repr

/-- The domains a PLL feeds (Table 10.13). PCE logic and the High-Speed PHYs of a port die lie in its HSG domains. [DEDUCED: log 100] -/
def pllFeeds : Pll → List (Fin 25)
  | .sys => (List.finRange 25).filter (fun d => (1 ≤ d.val && d.val < 7) || 9 ≤ d.val)
  | .mgt => [0]
  | .us => [7]
  | .ds => [8]
  | .hs d => (List.finRange 25).filter (fun q => 9 ≤ q.val && dieOfSlot (hsgSlot q) == d)

/-- The state of a PLL: stopped while every domain it feeds is Off, started when one of them begins its exit, and locked once one has
left Off, since the exit time includes the lock (R345, R360). [DEDUCED: log 100] -/
def State.pll (s : State) (x : Pll) : PllState :=
  if (pllFeeds x).any (fun d => s.domains.get d != .off) then .locked
  else if (pllFeeds x).any (fun d => s.exiting.contains d) then .locking
  else .stopped

/-- Whether a PLL runs from REFCLK (R359, Table 10.13). [DEDUCED: log 100] -/
def State.pllOnRefclk (s : State) (x : Pll) : Bool := (x == .us || x == .ds) && s.clocks.refUsed

/-- Whether every port of an HSG domain is in a state that Table 10.8 admits, for Off or for clock-gated. -/
def State.hsgPorts (s : State) (d : Fin 25) (off : Bool) : Bool :=
  (portsOfSlot (hsgSlot d)).all (fun p => hsgQuiet (s.ports.get p).st && (!off || (s.ports.get p).st != .l1))

/-- The condition of Table 10.8 under which a domain may enter a state. -/
def State.domCond (s : State) (d : Fin 25) (st : DomState) : Bool :=
  if d.val = 0 then st == .gated && !s.fw.paused
  else if d.val = 1 then st == .gated && !s.mfQueued
  else if d.val = 2 then
    match st with
    | .gated => true
    | .retention => (List.finRange 16).all (fun k => (s.parts.get k).st != .connected)
    | .off => allPorts.all (fun p => !s.liftPresented p)
    | .on => true
  else if d.val < 7 then st != .off || (quarterBanks d).all (fun b => s.rowsAllocated b == 0)
  else if d.val = 7 then (List.finRange 16).all (fun k => !(s.parts.get k).tree)
  else if d.val = 8 then
    allPorts.all (fun p => !(ssCapable p && (s.pd.get p).tc == .attached && dataModeAttaches (s.ports.get p).dataMode))
  else
    s.hsgPorts d (st == .off) && (st != .off || (portsOfSlot (hsgSlot d)).all (fun p => (s.ports.get p).tt.isEmpty))

/-- Whether a partition governs a domain: a presented port in it, or buffers in its banks (R199). -/
def State.governs (s : State) (k : Part) (d : Fin 25) : Bool :=
  if 3 ≤ d.val && d.val < 7 then s.rings.any (fun r => s.ownerPart r.owner == k && r.rows.any (fun x => quarterDom (quarterOf x.1) == d))
  else (s.portsOf k).any (fun p => (s.ports.get p).presented &&
    (d.val < 8 && (d.val != 2 || s.liftPresented p) || (d.val == 8 && (s.ports.get p).path == .native) ||
      (9 ≤ d.val && slotOf p == hsgSlot d)))

/-- Whether the governing budgets admit an exit time; in Night they exclude every exit (R198, R346). -/
def State.budgetAdmits (s : State) (d : Fin 25) (exit : Nat) : Bool :=
  s.mode == .night || (List.finRange 16).all (fun k => !s.governs k d || exit ≤ (s.parts.get k).latBudget)

/-- What Table 10.9 says of a domain in a mode. -/
inductive DomRule where
  | on
  | auto
  | toState (st : DomState)
deriving DecidableEq, Repr

/-- Table 10.9, but for Dusk, which is as its origin. -/
def domRule (m : Mode) (d : Fin 25) : DomRule :=
  match m with
  | .off => .toState .off
  | .midnight => .toState .off
  | .dawn => .on
  | .diagnostic => .on
  | .night => if d.val = 0 then .on else if d.val = 1 then .toState .gated else if d.val < 7 then .toState .retention else if d.val = 7 then .on else .auto
  | .morning => if d.val = 0 then .on else if d.val = 2 || d.val == 7 then .toState .off else .auto
  | _ => if d.val = 0 then .on else .auto

/-- The rule in force now. -/
def State.ruleNow (s : State) (d : Fin 25) : DomRule := if s.mode = .dusk then domRule s.back d else domRule s.mode d

/-- The deepest state a domain under Auto may take now (R346). -/
def State.autoTarget (s : State) (d : Fin 25) : Option DomState :=
  ((domStates d).find? (fun e => s.domCond d e.1 && s.budgetAdmits d e.2)).map (·.1)

/-- A domain takes a state that a mode entry gives it. -/
def State.setDomain (s : State) (d : Fin 25) (st : DomState) : State :=
  if st = .on then (if s.domains.get d = .on then s else s.riseDomain d)
  else if domDepth st < domDepth (s.domains.get d) then (s.riseDomain d).lowerDomain d st
  else s.lowerDomain d st

/-- The order in which a mode entry lowers domains: HSG0–15, DSSPHY, USPHY, LIFT, PBMQ0–3, FAB, MGT (R348). -/
def lowerOrder : List (Fin 25) := (List.finRange 25).filter (fun d => 9 ≤ d.val) ++ [8, 7, 2, 3, 4, 5, 6, 1, 0]

/-- The domains of a mode that has been entered from another (Table 10.9): a domain that the old mode held low exits. [DEDUCED: log 47] -/
def State.enterDomains (s : State) (old m : Mode) : State :=
  forAll lowerOrder (fun s d =>
    match domRule m d with
    | .on => s.setDomain d .on
    | .toState st => s.setDomain d st
    | .auto =>
      match domRule old d with
      | .toState _ => s.setDomain d .on
      | _ => s) { s with entries := [] }

/-! ## Partitions and a mode (Table 1.12, R29) -/

/-- Table 1.12. -/
def permitted (m : Mode) (st : PartSt) : Bool :=
  match m with
  | .off => st == .disabled
  | .midnight => st == .disabled || st == .chargeOnly
  | .night => st != .connected
  | .dawn => st == .disabled
  | .morning => st == .disabled || st == .chargeOnly
  | .diagnostic => st == .disabled || st == .chargeOnly || st == .held
  | _ => true

/-- Withdraw a tree at once: what has not been delivered is discarded and counted in PORT_DETACH (R426, R427). [DEDUCED: log 44] -/
def State.withdrawNow (s : State) (k : Part) (r : Reason) (dest : PartSt) : State :=
  let s := if (s.parts.get k).tree then s.emits [.up k .terminationsOff, .up k .pullUpOff] else s
  let answer := (((s.parts.get k).withdraw).map (·.answer)).getD false
  let s := s.updPart k (fun x => { x with st := dest, tree := false, withdraw := some { reason := r, answer } })
  let s := forAll (s.portsOf k) (fun s p =>
    if (s.ports.get p).st = .draining then s.finishDrain p
    else if (s.ports.get p).presented then (s.beginDrain p r).finishDrain p
    else if (s.ports.get p).st = .debounce then s.drainThen p r (fun x => x)
    else s) s
  s.checkWithdraw k

/-- Every partition takes a state that the mode permits (Table 2.9, last row). -/
def State.permitParts (s : State) (m : Mode) : State :=
  forAll ((List.finRange 16).filter (fun k => !permitted m (s.parts.get k).st)) (fun s k =>
    let dest : PartSt := if permitted m .chargeOnly then .chargeOnly else .disabled
    let s := s.updPart k (fun x => { x with safeMarked := false, reacting := false })
    if (s.parts.get k).tree then s.withdrawNow k .withdrawn dest else s.updPart k (fun x => { x with st := dest })) s

/-! ## Entering a mode -/

/-- The broad injection points of Table 12.7; the others are narrow. -/
def injectionBroad (source kind : Nat) : Bool :=
  source < 0x007 || (source == 0x007 && kind == 0x22) || (0x010 ≤ source && source < 0x130) || (0x130 ≤ source && source < 0x150 && kind == 0x22) ||
    (0x160 ≤ source && source < 0x180)

/-- Points still armed when the device leaves the modes they are accepted in are disarmed (R429). -/
def State.disarmFor (s : State) (m : Mode) : State :=
  let keep := fun (i : Injection) => m == .diagnostic || ((m == .noon || m == .evening) && !injectionBroad i.source.toNat i.kind.toNat)
  { s with fault := { s.fault with injections := s.fault.injections.filter keep } }

/-- The caps of R337 on upstream links: a link that runs two lanes is paced while they apply (R188). -/
def State.repace (s : State) : State :=
  { s with ups := Tab.of (fun k => let u := s.ups.get k; { u with paced := s.capped && twoLanes u.rate }) }

/-- Partitions that Safe Hold marked become Charge-only once it is left for Noon or Evening (Table 2.9). -/
def State.unmarkParts (s : State) : State :=
  { s with parts := Tab.of (fun k => let x := s.parts.get k
    if x.safeMarked then { x with st := if x.st = PartSt.held then PartSt.chargeOnly else x.st, safeMarked := false } else x) }

/-- Enter a mode: partitions and domains follow, then MODE_CHANGED, then presentation is re-evaluated (R29, R330). Where Safe Hold is left
for Noon or Evening, capabilities go out again (Table 8.7). -/
def State.enterMode (s : State) (m : Mode) (cause : Byte) (detail : Nat) (req : Option ModeRequest) : State :=
  let old := s.mode
  let s := { s with mode := m, origin := old, cause, detail := BitVec.ofNat 16 detail }
  let left := old == .safeHold && (m == .noon || m == .evening)
  let s := (if left then s.unmarkParts else s).permitParts m
  let s := s.disarmFor m
  let s := (if m = .dusk then s else s.enterDomains (if old = .dusk then s.back else old) m).repace
  let s := if modeVisible m then s.modeChanged req else s
  let s := if m = .dusk then s else forAll (List.finRange 16) (fun s k => s.evalPresent k) s
  if left then forAll (allPorts.filter (fun p => (s.pd.get p).tc == .attached)) (fun s p => s.capsDue p) s else s

/-! ## The firmware pause -/

/-- Management firmware runs again: events that arose meanwhile are issued in order, holds are entered, attaches taken, words
recomputed, ports released, probes concluded (R254, R319, R409). -/
def State.pauseEnd (s : State) : State :=
  let s := (s.updFw (fun x => { x with paused := false })).issueHeld
  let s := forAll (List.finRange 3) (fun s m => s.fillMailbox m) s
  let s := forAll allPorts (fun s p =>
    let s := match (s.vbus.get p).heldOver with
      | some c => if (s.vbus.get p).hold.isNone then s.enterHold p c else s
      | none => s
    let s := if (s.pd.get p).debounced then (s.updPd p (fun x => { x with debounced := false })).ccDebounced p else s
    s.refreshWord p) s
  (forAll (List.finRange 16) (fun s k => s.releaseIdle k) s).probesAfterPause

/-! ## The core supply (R351–R354) -/

/-- The highest die reading as a signed number. -/
def State.hottest (s : State) : BitVec 16 :=
  (List.finRange 16).foldl (fun m i => if m.toInt < (s.sensors.get i).reading.toInt then (s.sensors.get i).reading else m) (s.sensors.get 0).reading

/-- The class of a mode in the fused table: Noon, Evening or Night. -/
def coreClass : Mode → Nat
  | .evening => 1
  | .night => 2
  | _ => 0

/-- The VDD_CORE target for a mode, in mV: 700–850 (R352). [DESIGN CHOICE: log 8] -/
def State.coreNeed (s : State) (m : Mode) : Nat := 700 + (Config.coreTarget s.hottest (coreClass m)).val

/-- An AVSBus request is not complete within 2 ms: its record, and the Evening cause AVS (R354). -/
def State.avsFail (s : State) (target : Nat) : State :=
  ({ s with avs := { s.avs with outstanding := none, holdoff := true, timeouts := satAdd 32 s.avs.timeouts 1 },
            eve := { s.eve with avs := true } }).detect 0x005 0x34 target

/-! ## Dawn (R363, R366, Tables 2.9, 8.3, 10.15) -/

/-- The device in PORST_N reset: everything but the flash and the fuses, the queue of commands and the model's own fields. [DESIGN CHOICE: log 15; DEDUCED: log 17] -/
def State.powerOff (s : State) : State :=
  { State.reset with
    pending := s.pending, wire := s.wire, freeCount := s.freeCount
    fw := { areas := s.fw.areas, dirs := s.fw.dirs, keys := s.fw.keys, securityFloor := s.fw.securityFloor } }

/-- A port at Dawn: detached, its disable sequence running (R76). -/
def PortState.atDawn (x : PortState) : PortState := { ({} : PortState).defaults with st := .disabling, reacting := x.reacting && false }

/-- The Fault Collector at Dawn: its records and FAULT_N settings stay (R363, R417, R421). -/
def FaultState.atDawn (x : FaultState) : FaultState :=
  { x with severities := [], running := [], shadows := [], injections := [], banksClosed := 0, watchdogOn := false, safeHoldRestart := false,
           mgtRestarting := false }

/-- Firmware at Dawn: nothing runs. -/
def FirmwareState.atDawn (x : FirmwareState) : FirmwareState :=
  { areas := x.areas, dirs := x.dirs, keys := x.keys, securityFloor := x.securityFloor, rollbacks := x.rollbacks }

/-- Enter Dawn: every switched domain is reset, AON stays; every partition Disabled, every port OPEN with its disable sequence
running. [DEDUCED: log 44, 51, 52] -/
def State.dawn (s : State) : State :=
  let s := s.endSessions false
  let s := { s with
    mode := .dawn, origin := s.mode, cause := causeBoot, detail := 0, trans := none, arrival := none, queue := none, entries := [], exiting := []
    domains := Tab.const 25 .on, eve := { s.eve with command := false }, fw := s.fw.atDawn, fault := s.fault.atDawn, diag := []
    ports := Tab.of (fun p => (s.ports.get p).atDawn), parts := Tab.const 16 {}, lift := Tab.const 512 none
    ssTree := Tab.const 16 {}, u2Tree := Tab.const 16 {}, mfs := Tab.const 16 {}
    ups := Tab.of (fun k => let u := s.ups.get k
      { ({} : UpState) with attached := u.attached, orientation := u.orientation, hostRp := u.hostRp, vbusPresent := u.vbusPresent,
                             rd := u.rd })
    pd := Tab.of (fun p => { ({} : PdPort) with cc1 := (s.pd.get p).cc1, cc2 := (s.pd.get p).cc2 })
    queues := Tab.const 16 {}, uarts := Tab.const 16 (Tab.const 6 {})
    banks := Tab.const 32 {}, cells := [], rings := [], sticky := [], ttBucket := Tab.const 16 0
    vbus := Tab.of (fun p => { s.vbus.get p with hold := none, heldOver := none, discharging := true, awaitPgood := false }) }
  let s := s.defaultSettings
  forAll allPorts (fun s p => s.writeWord p) s

/-- The boot-failed hold (R344). [DEDUCED: log 51] -/
def State.bootFail (s : State) (source : Nat) : State :=
  (s.updFw (fun x => { x with bootFailed := true, running := none, paused := false })).enterMode .safeHold causeFatal source none

/-- VDD_CORE at its Dawn target, or left at 0.80 V (Table 10.15 step 3). [DESIGN CHOICE: log 18] -/
def State.bootAvs (s : State) : State :=
  let v := s.coreNeed .noon
  let s := { s with avs := { s.avs with target := v, outstanding := none, holdoff := false } }
  if s.board.avsOk then { s with avs := { s.avs with confirmed := v }, eve := { s.eve with avs := false } }
  else ({ s with avs := { s.avs with confirmed := 800 } }).avsFail v

/-- Step 5: the record that the directory names, with its elements; a record that fails its check is ignored, with a record of it.
`brief`: only its digest is checked (R341). [DEDUCED: log 51] -/
def State.bootRecord (s : State) (brief : Bool) : State × List Element :=
  match s.fw.dir with
  | none => (s, [])
  | some d =>
    match d.recordCopy with
    | none => (s.updFw (fun x => { x with recordLoaded := none }), [])
    | some c =>
      let l := s.fw.area (copyArea c)
      let r := if brief then (if headerDigest l = d.recordDigest then 0 else 4) else s.fw.judgeRecord l
      match r, elementsOf (bodyOf l) with
      | 0, .ok es => (s.updFw (fun x => { x with recordLoaded := some c }), es)
      | 0, .error e => ((s.updFw (fun x => { x with recordLoaded := none })).detect 0x004 0x71 e, [])
      | n, _ => ((s.updFw (fun x => { x with recordLoaded := none })).detect 0x004 0x71 n, [])

/-- R402: a TRIAL entry is cleared, its slot INVALID. -/
def State.clearTrial (s : State) : State :=
  match s.fw.dir.bind (·.trial) with
  | some t => s.updFw (fun x => (x.writeDir (fun d => { d with trial := none })).mark (slotArea t) .invalid)
  | none => s

/-- Try slots in order; the first whose container passes R400 runs. A slot that fails is recorded, and is INVALID unless empty. [DEDUCED: log 51] -/
def trySlots : List (Fin 2) → State → State × Bool
  | [], s => (s, false)
  | i :: rest, s =>
    match s.fw.judge true (s.fw.area (slotArea i)) with
    | 0 => (s.updFw (fun x => { x.mark (slotArea i) .valid with running := some i, bootFailed := false }), true)
    | r =>
      let s := s.updFw (fun x => if (x.areas.get (slotArea i)).st = .empty then x else x.mark (slotArea i) .invalid)
      trySlots rest (s.detect 0x003 0x70 (i.val + 256 * r))

/-- Step 6: the image (R402): the ACTIVE slot first, or with BOOTSEL 0b01 the other. [DESIGN CHOICE: log 15; DEDUCED: log 51] -/
def State.bootImage (s : State) : State × Bool :=
  let s := s.clearTrial
  let active := ((s.fw.dir).map (·.active)).getD 0
  let first := if s.board.bootsel = 1 then other2 active else active
  trySlots [first, other2 first] s

/-- Step 8: retired rows and closed banks, then the fill of all of PBM (R214, R235). -/
def State.bootFill (s : State) (es : List Element) : State :=
  let s := forAll es (fun s e => s.recordRows e) (s.updFw (fun x => { x with retired := [], closed := 0 }))
  forAll (List.finRange 32) (fun s b => s.fillBank b) (s.applyRows (fun _ => true))

/-- Morning that ends Dawn: partitions and Type-C ports take their first states (Tables 2.9, 8.3). -/
def State.firstMorning (s : State) : State :=
  let s := { s with parts := Tab.of (fun k => let x := s.parts.get k
    { x with st := if x.cfg.startChargeOnly then .chargeOnly else .disabled, armed := x.cfg.autoConnect }) }
  forAll allPorts (fun s p => s.leaveOpen p) s

/-- Go to Noon, or to Evening where a cause holds; a higher core voltage comes first (R337, R353). The Boolean says whether the
mode has been reached. -/
def State.arriveUp (s : State) (cause : Byte) (detail : Nat) (req : Option ModeRequest) : State × Bool :=
  if s.eveHolds then (({ s with arrival := none }).enterMode .evening cause detail req, true)
  else if s.coreNeed .noon ≤ s.avs.confirmed then (({ s with arrival := none }).enterMode .noon cause detail req, true)
  else
    let s := { s with arrival := some { req, cause, detail := BitVec.ofNat 16 detail } }
    if s.avs.outstanding.isSome || s.avs.holdoff then (s, false)
    else
      let v := min (s.coreNeed .noon) (s.avs.confirmed + 25)
      (({ s with avs := { s.avs with target := v, outstanding := some v } }).emit (.avsWrite v), false)

/-- Morning is reached, and BOOT_TARGET applies (Table 10.3). -/
def State.reachMorning (s : State) (midnight : Bool) : State :=
  let s := if midnight then s else s.firstMorning
  let s := s.enterMode .morning causeBoot (bnat midnight) none
  let s := if midnight then s.pauseEnd else s
  if s.modeCfg.bootNoon then (s.arriveUp causeBootTarget 0 none).1 else s

/-- Steps 7 to 10 of Table 10.15, once an image runs. -/
def State.bootRest (s : State) (es : List Element) (midnight : Bool) : State :=
  match s.board.selfTest with
  | some b => (s.detect 0x004 0x75 b.toNat).bootFail 0x004
  | none =>
    let s := if midnight then forAll (List.finRange 32) (fun s b => s.clearBank b) { s with domains := Tab.const 25 .on } else s
    let s := s.bootFill es
    let s := if midnight then s else forAll es (fun s e => s.recordElement e) (forAll es (fun s e => s.recordSlot e) s)
    let s := { s with clocks := { s.clocks with refUsed := s.clocks.refSelect && !s.clocks.refLost } }
    ({ s with fault := { s.fault with watchdogOn := true } }).reachMorning midnight

/-- Steps 2 to 6 of Table 10.15; a management self-test that fails, or no image, ends in the boot-failed hold (R344). [DESIGN CHOICE: log 18; DEDUCED: log 51] -/
def State.boot (s : State) (midnight : Bool) : State :=
  let s := s.bootAvs
  let (s, es) := s.bootRecord midnight
  match s.board.selfTest with
  | some b =>
    if b = 0x20 || b == 0x21 then (s.detect 0x004 0x75 b.toNat).bootFail 0x004
    else
      let (s, found) := s.bootImage
      if found then s.bootRest es midnight else s.bootFail 0x003
  | none =>
    let (s, found) := s.bootImage
    if found then s.bootRest es midnight else s.bootFail 0x003

/-- The straps are sampled (R364, Table 10.14b) and the start-up sequence runs. -/
def State.strapAndBoot (s : State) : State :=
  let s := if s.board.bootsel = 3 then s.detect 0x004 0x73 3 else s
  if s.board.bootsel = 2 then s.bootFail 0x004 else s.boot false

end Sys2Proof.Machine
end

