-- ==== Sys2Proof/Machine/Modes.lean ====
section
/-! DEFINITION. The mode machinery: Dusk, the PREPARE handshake, mode requests and their answers, wakes, budget-driven domain changes, Evening causes, the core supply, sensors and supplies (chapter 10). -/

namespace Sys2Proof.Machine

open Sys2Proof

/-! ## Answers to mode requests (R335) -/

/-- The response of MODE_REQUEST (Table 11.13). [DEDUCED: log 45] -/
def modeAnswer (m : Mode) (reason dom : Nat) : List Byte := [BitVec.ofNat 8 (opModeCode m), BitVec.ofNat 8 reason, BitVec.ofNat 8 dom, 0]

/-- Whether a goal is an activation or a rollback. -/
def Goal.isMaintenance : Goal → Bool
  | .maintenance _ => true
  | _ => false

/-- The mode a goal leads to. -/
def goalMode : Goal → Mode
  | .off => .off
  | .midnight => .midnight
  | .night => .night
  | .morning => .morning
  | .noon => .noon
  | .evening => .evening
  | .maintenance _ => .maintenance
  | .diagnostic => .diagnostic
  | .restart => .dawn

/-- Answer the session that a request came from, where it still waits for it. FW_ACTIVATE turned away carries no payload. [DEDUCED: log 45] -/
def State.answerReq (s : State) (req : Option ModeRequest) (status : Byte) (payload : List Byte) : State :=
  match req with
  | none => s
  | some r =>
    match r.session with
    | none => s
    | some i =>
      match (s.sessions.get i).executing with
      | none => s
      | some (c, _) => if c.msg.cseq = r.cseq then s.complete i status (if r.goal.isMaintenance then [] else payload) else s

/-- DENIED with a reason and the refusing block. [DEDUCED: log 45] -/
def State.denyReq (s : State) (req : Option ModeRequest) (reason dom : Nat) : State :=
  s.answerReq req stDenied (modeAnswer s.mode reason dom)

/-- OK with the mode reached. -/
def State.okReq (s : State) (req : Option ModeRequest) : State := s.answerReq req stOK (modeAnswer s.mode 0 0xFF)

/-- Go to Noon or Evening, and answer once there. [DEDUCED: log 46] -/
def State.rise (s : State) (cause : Byte) (detail : Nat) (req : Option ModeRequest) : State :=
  let r := s.arriveUp cause detail req
  if r.2 then r.1.okReq req else r.1

/-- Return to the origin, or to Evening where a cause holds (Table 10.3, R337). [DEDUCED: log 46] -/
def State.goBack (s : State) (origin : Mode) (cause : Byte) (detail : Nat) : State :=
  match origin with
  | .noon => s.rise cause detail none
  | m => s.enterMode m cause detail none

/-- Whether a transition runs. -/
def State.busy (s : State) : Bool := s.trans.isSome || s.arrival.isSome

/-! ## Dusk (Table 10.4) -/

/-- Whether every tree is gone. -/
def State.treesGone (s : State) : Bool := (List.finRange 16).all (fun k => !(s.parts.get k).tree && (s.parts.get k).withdraw.isNone)

/-- Whether a partition's presentation condition holds, mode apart (R56). -/
def State.wantsTree (s : State) (k : Part) : Bool :=
  (s.parts.get k).st == .chargeOnly && (s.parts.get k).armed && (s.ups.get k).attached

/-- What step 1 of a Dusk toward Night finds (Table 10.4). -/
def State.nightBlocked (s : State) : Bool := (List.finRange 16).any (fun k => (s.parts.get k).st == .connected || s.wantsTree k)

/-- The state a domain is to be lowered to in a mode, where it is not there yet. -/
def State.targetState (s : State) (m : Mode) (d : Fin 25) : Option DomState :=
  let t := match domRule m d with
    | .on => none
    | .toState st => some st
    | .auto => ({ s with mode := m } : State).autoTarget d
  t.bind (fun st => if domDepth (s.domains.get d) < domDepth st then some st else none)

/-- The participants of a PREPARE (Table 10.4). -/
def State.participants (s : State) : Goal → List (Fin 25)
  | .night => [1, 2, 3, 4, 5, 6] ++ (List.finRange 25).filter (fun d => 9 ≤ d.val && (s.targetState .night d).isSome)
  | .maintenance _ => [0]
  | .midnight => List.finRange 25
  | .off => List.finRange 25
  | .morning => [2, 7].filter (fun d => (s.targetState .morning d).isSome)
  | _ => []

/-- The reason with which a participant refuses, none where it accepts (Table 10.6). [DEDUCED: log 46] -/
def State.refusal (s : State) (g : Goal) (d : Fin 25) : Option Nat :=
  let off := g == .off || g == .midnight
  if d.val = 0 then when s.fw.staging.isSome 0x09
  else if d.val = 1 then none
  else if d.val = 2 then
    if g = .night then when ((List.finRange 16).any (fun k => (s.parts.get k).st == .connected)) 0x01 else when (!s.domCond d .off) 0x01
  else if d.val < 7 then when (off && !s.domCond d .off) 0x02
  else if d.val < 9 then when (!s.domCond d .off) 0x04
  else when (!s.hsgPorts d off) 0x03

/-- The reason of a budget-driven entry's refusal. -/
def State.budgetRefusal (s : State) (e : DomEntry) : Option Nat :=
  let cond := if 9 ≤ e.dom.val then s.hsgPorts e.dom (e.goal == .off) else s.domCond e.dom e.goal
  if !cond then some (if e.dom.val = 2 then 0x01 else if e.dom.val < 7 then 0x02 else if e.dom.val < 9 then 0x04 else 0x03)
  else when (!s.budgetAdmits e.dom ((((domStates e.dom).find? (·.1 == e.goal)).map (·.2)).getD 0)) 0x05

/-- Withdraw every presented tree. -/
def State.withdrawTrees (s : State) : State :=
  forAll ((List.finRange 16).filter (fun k => (s.parts.get k).tree && (s.parts.get k).withdraw.isNone))
    (fun s k => s.withdraw k .withdrawn false .chargeOnly) s

/-- The request that MODE_CHANGED names. -/
def ModeRequest.asker (r : ModeRequest) : Option ModeRequest := r.session.map (fun _ => r)

/-- Enter Dusk toward a goal; its first step begins. From Night, the domains exit first (Table 10.3). -/
def State.startDusk (s : State) (req : ModeRequest) (auto rollback : Bool) (cause : Byte) (detail : Nat) : State :=
  let origin := if s.mode = .dusk then s.back else s.mode
  let s := { s with arrival := none, back := origin,
                    trans := some { req, auto, rollback, origin, cause, detail := BitVec.ofNat 16 detail } }
  let s := if s.mode = .dusk then s else s.enterMode .dusk cause detail req.asker
  let s := if origin = .night then forAll (List.finRange 25) (fun s d => s.setDomain d .on) s else s
  match req.goal with
  | .night => s
  | .maintenance _ => s
  | _ => s.withdrawTrees

/-- A step of Dusk is complete. -/
def State.nextStep (s : State) : State := { s with trans := s.trans.map (fun (t : Trans) => { t with begun := t.begun + 1 }) }

/-- Whether a port's explicit contract has been released (R274): at 5 V under capabilities that hold only that. [DEDUCED: log 52] -/
def State.contractReleased (s : State) (p : Port) : Bool :=
  let x := s.pd.get p
  match x.contract with
  | .explicit c =>
    !c.pps && c.mv == 5000 && x.caps == s.capsOf p true && x.trans.isNone && x.tx.isNone && x.pending.isEmpty && x.expect.isNone && x.hr.isNone
  | _ => x.hr.isNone

/-- Whether a port's last capabilities, sent or waiting to be sent, hold 5 V alone. -/
def State.fiveOffered (s : State) (p : Port) : Bool :=
  let x := s.pd.get p
  x.caps == s.capsOf p true || x.pending.any (fun o => o.purpose == .caps && objectsOf o.bytes == s.capsOf p true)

/-- Offer 5 V alone to every explicit contract; `all`: also to one that stands at 5 V already (R274). [DEDUCED: log 52] -/
def State.offerFive (s : State) (all : Bool) : State :=
  forAll (allPorts.filter (fun p => hasExplicit (s.pd.get p) && (all || !s.fiveOffered p))) (fun s p => s.sendCaps p true) s

/-- Whether no port drains or runs a disable sequence. -/
def State.noDisable (s : State) : Bool :=
  allPorts.all (fun p => (s.ports.get p).st != .draining && (s.ports.get p).st != .disabling)

/-- The disable order on every port, in parallel (R76). -/
def State.disableAll (s : State) : State :=
  forAll allPorts (fun s p => if (s.ports.get p).st = .disabling then s else s.drainThen p .vbusOff (fun x => { x with pendDisable := true })) s

/-- Whether no session executes a command but those the mode machinery holds (Table 10.4, Maintenance). -/
def State.commandsDone (s : State) : Bool :=
  (List.finRange 19).all (fun i => match (s.sessions.get i).executing with
    | none => true
    | some (_, w) => w == .mode || w == .queuedMode)

/-- The next step of the running Dusk, where the present one is complete; none once all are (Table 10.4). -/
def State.duskStep (s : State) (g : Goal) (begun : Nat) : Option State :=
  match g with
  | .night => none
  | .maintenance _ => if s.commandsDone then none else some s
  | .midnight =>
    if begun = 0 then (if s.treesGone then some (s.offerFive true).nextStep else some s)
    else if allPorts.all s.contractReleased && s.noDisable then none
    else some (s.offerFive false)
  | .off =>
    if begun = 0 then (if s.treesGone then some s.disableAll.nextStep else some s)
    else if begun = 1 then
      (if s.noDisable then some (forAll ((List.finRange 16).filter (fun k => (s.slots.get k).st == .on)) (fun s k => s.slotOff k) s).nextStep
       else some s)
    else if (List.finRange 16).all (fun k => (s.slots.get k).st != .on && !(s.slots.get k).disabling) then none
    else some s
  | _ => if s.treesGone then none else some s

/-! ## Abort and arrival -/

/-- Maintenance is reached; the firmware pause starts (Table 11.21 step 2). -/
def State.enterMaintenance (s : State) (req : ModeRequest) : State :=
  let s := s.enterMode .maintenance causeActivate 0 req.asker
  s.updFw (fun x => { x with paused := true, activation := x.activation.map (fun a => { a with step := .pause }) })

/-- A transition aborts: the origin, MODE_CHANGED with cause ABORTED, the answer DENIED (Table 10.3). A rollback goes on to
Maintenance all the same (R408). [DEDUCED: log 45, 46] -/
def State.abortDusk (s : State) (reason dom : Nat) : State :=
  match s.trans with
  | none => s
  | some t =>
    let s := { s with trans := none }
    if t.rollback then s.enterMaintenance t.req
    else
      let s := if t.req.goal.isMaintenance then s.updFw (fun x => { x with activation := none }) else s
      (s.goBack t.origin causeAborted reason).denyReq (some t.req) reason dom

/-- PD stops where Midnight is entered: contracts are implicit, nothing is under way (R274). -/
def PdPort.asleep (x : PdPort) : PdPort :=
  { x with contract := if x.contract = .none then .none else .implicit, trans := none, tx := none, pending := [], expect := none, fwd := none
           retry := none, sendSeq := false, sinkTxNg := false, capsCount := 0, capsStopped := false, hardResets := 0 }

/-- Management firmware stops; a trial is over (R347). -/
def State.fwAsleep (s : State) : State := s.updFw (fun x => { x with paused := true, trial := none })

/-- Midnight: the answer, then the end of every session; firmware stops (R332, R335, R338, R347). [DEDUCED: log 52] -/
def State.enterMidnight (s : State) (t : Trans) : State :=
  let s := (s.answerReq (some t.req) stOK (modeAnswer .midnight 0 0xFF)).endSessions true
  let s := { s with queue := none, parts := Tab.of (fun k => { s.parts.get k with latBudget := 20 }),
                    pd := Tab.of (fun p => (s.pd.get p).asleep), fault := { s.fault with watchdogOn := false } }
  let s := forAll allPorts (fun s p => if (s.pd.get p).tc = .open then s else s.setRp p) s
  s.fwAsleep.enterMode .midnight t.cause t.detail.toNat t.req.asker

/-- Off: the answer, then the end of every session; only the OOB status registers are served (R389). [DEDUCED: log 43] -/
def State.enterOff (s : State) (t : Trans) : State :=
  let s := (s.answerReq (some t.req) stOK (modeAnswer .off 0 0xFF)).endSessions true
  let s := { s with queue := none, fault := s.fault.atDawn, fw := s.fw.atDawn }
  s.enterMode .off t.cause t.detail.toNat t.req.asker

/-- Every participant has accepted: ENTER (R336, R348). -/
def State.commitDusk (s : State) : State :=
  match s.trans with
  | none => s
  | some t =>
    let s := { s with trans := none }
    let reach := fun (s : State) (m : Mode) => (s.enterMode m t.cause t.detail.toNat t.req.asker).okReq (some t.req)
    match t.req.goal with
    | .night =>
      let low := t.answers.filterMap (fun a => (s.targetState .night a.1).map (fun st => (a.1, st)))
      reach (forAll low (fun s x => if 9 ≤ x.1.val then s.lowerDomain x.1 x.2 else s) s) .night
    | .midnight => s.enterMidnight t
    | .off => s.enterOff t
    | .maintenance _ => s.enterMaintenance t.req
    | g => reach s (goalMode g)

/-- PREPARE goes to the participants; with none, the goal is reached. -/
def State.sendPrepare (s : State) : State :=
  match s.trans with
  | none => s
  | some t =>
    let l := s.participants t.req.goal
    let s := { s with trans := some { t with stage := .prepare, answers := l.map (fun d => (d, .awaited)) } }
    if l.isEmpty then s.commitDusk else s

/-! ## Starting a request (Table 10.3, R333) -/

/-- A Dusk toward Night: step 1 is checked, then every merge buffer is fenced. -/
def State.startNight (s : State) (req : ModeRequest) (auto : Bool) (cause : Byte) (detail : Nat) : State :=
  let s := s.startDusk req auto false cause detail
  if s.nightBlocked then s.abortDusk 0x01 0xFF else forAll (List.finRange 32) (fun s b => s.fence b) s

/-- Whether Safe Hold may be left for Noon (R343). -/
def State.safeHoldClear (s : State) : Bool :=
  !s.fw.bootFailed && s.fault.records.all (fun r => r.severity != .fatal || (r.acked && !s.stillPresent r))

/-- Safe Hold is left for Noon (R343). -/
def State.leaveSafeHold (s : State) (req : ModeRequest) : State := s.rise causeRequest 0x05 (some req)

/-- Restart: OK, then Dawn (R335, R363). -/
def State.restart (s : State) (req : ModeRequest) : State :=
  ((s.answerReq (some req) stOK (modeAnswer .dawn 0 0xFF)).dawn).strapAndBoot

/-- FW_ACTIVATE in the mode machinery (R406). -/
def State.startActivation (s : State) (req : ModeRequest) (slot : Fin 2) : State :=
  if !(s.mode == .noon || s.mode == .evening) then s.answerReq (some req) stNotInMode []
  else if s.fw.staging.isSome || s.fw.trial.isSome || s.fw.activation.isSome then s.answerReq (some req) stBusy []
  else if (s.fw.areas.get (slotArea slot)).st != .valid || s.fw.running = some slot then s.answerReq (some req) stBadArg []
  else
    let a : Activation :=
      { target := slot, previous := s.fw.running.getD (other2 slot), session := req.session, cseq := req.cseq, step := .dusk, rollback := false }
    let s := s.updFw (fun x => { x with activation := some a })
    s.startDusk req false false causeActivate 0

/-- Start a request from the mode that stands, but for the wake that Night takes first. -/
def State.startFrom (s : State) (req : ModeRequest) : State :=
  let dusk := s.startDusk req false false causeRequest (goalCode req.goal)
  let direct := fun (m : Mode) => (s.enterMode m causeRequest (goalCode req.goal) req.asker).okReq (some req)
  let never := s.answerReq (some req) stNotInMode []
  let day := s.mode == .noon || s.mode == .evening
  match req.goal with
  | .maintenance slot => s.startActivation req slot
  | .restart => s.restart req
  | .off => dusk
  | .midnight => if day || s.mode == .morning || s.mode == .night then dusk else never
  | .night => if day || s.mode == .morning then s.startNight req false causeRequest 0x02 else never
  | .morning =>
    if day then dusk
    else if s.mode = .diagnostic then (if s.diag.isEmpty then direct .morning else s.denyReq (some req) 0x08 0xFF)
    else never
  | .diagnostic => if day then dusk else if s.mode = .morning then direct .diagnostic else never
  | .noon =>
    if s.mode = .morning then s.rise causeRequest 0x05 (some req)
    else if s.mode = .diagnostic then (if s.diag.isEmpty then s.rise causeRequest 0x05 (some req) else s.denyReq (some req) 0x08 0xFF)
    else if s.mode = .evening then
      let s' := { s with eve := { s.eve with command := false } }
      if s'.eveHolds then s.denyReq (some req) 0x0A 0xFF else s'.rise causeRequest 0x05 (some req)
    else if s.mode = .safeHold then (if s.safeHoldClear then s.leaveSafeHold req else s.denyReq (some req) 0x0A 0xFF)
    else never
  | .evening =>
    let s := { s with eve := { s.eve with command := true } }
    if s.mode = .noon then (s.enterMode .evening causeEvening 0x04 req.asker).okReq (some req)
    else if s.mode = .evening then s.okReq (some req)
    else never

/-- A wake from Night to its origin, or to Evening (Table 10.3). -/
def State.nightWake (s : State) (code : Nat) : State := if s.mode = .night && s.arrival.isNone then s.goBack s.back causeWake code else s

/-- The queue slot is taken; what was in it is superseded (R333). -/
def State.enqueue (s : State) (req : ModeRequest) : State :=
  { s.answerReq s.queue stSuperseded [] with queue := some req }

/-- Start a request; in Night one that its rows do not name wakes the device first (Table 10.11, source 0x12). -/
def State.startMode (s : State) (req : ModeRequest) : State :=
  if s.mode = .night && !(req.goal == .midnight || req.goal == .off || req.goal == .restart) then
    let s := s.nightWake 0x12
    if s.busy then s.enqueue req else s.startFrom req
  else s.startFrom req

/-- The queued request starts once nothing runs (R333). -/
def State.runQueue (s : State) : State :=
  match s.queue with
  | none => s
  | some r =>
    if s.busy || s.fw.paused then s
    else
      let s := { s with queue := none }
      let s := match r.session with
        | some i => s.updSession i (fun x => { x with executing := x.executing.map (fun (e : Cmd × Wait) => (e.1, if e.2 = Wait.queuedMode then Wait.mode else e.2)) })
        | none => s
      s.startMode r

/-- What runs is abandoned for Off or restart: its request and the queued one are answered (R333). -/
def State.preempt (s : State) : State :=
  let s := s.answerReq s.queue stSuperseded []
  let s := match s.trans with
    | some t => (s.updFw (fun x => if t.req.goal.isMaintenance then { x with activation := none } else x)).denyReq (some t.req) 0x0B 0xFF
    | none => s
  let s := match s.arrival with
    | some a => s.denyReq a.req 0x0B 0xFF
    | none => s
  { s with queue := none, trans := none, arrival := none }

/-- A command enters execution on its session and waits for an answer. -/
def State.beginWait (s : State) (m : VcpMsg) (opcode : BitVec 16) (w : Wait) : State :=
  s.updSession m.session (fun x => { x with executing := some ({ opcode, msg := m, bad := none, arrival := 0 }, w) })

/-- A request meets the mode machinery: it starts, pre-empts or takes the queue slot (R333, R334). -/
def State.meetRequest (s : State) (m : VcpMsg) (opcode : BitVec 16) (goal : Goal) : State :=
  let req : ModeRequest := { goal, session := some m.session, cseq := m.cseq }
  let s := match s.trans with
    | some t => if t.auto && t.stage == DuskStage.steps then s.abortDusk 0 0xFF else s
    | none => s
  if !s.busy then (s.beginWait m opcode .mode).startMode req
  else if goal = .off || goal = .restart then ((s.preempt).beginWait m opcode .mode).startMode req
  else (s.beginWait m opcode .queuedMode).enqueue req

/-- MODE_REQUEST (R333, R344). -/
def opModeRequest (m : VcpMsg) (s : State) : State × Reply :=
  match goalOf (get8 m.payload 0) with
  | none => refuse s stBadArg
  | some g =>
    if m.payload.length != 1 then refuse s stBadArg
    else if s.fw.bootFailed && g != .restart then refuse s stOffline
    else (s.meetRequest m 0x0702 g, .answered)

/-- FW_ACTIVATE (R396, R406). -/
def opFwActivate (m : VcpMsg) (s : State) : State × Reply :=
  let slot : Fin 2 := Fin.ofNat 2 (get8 m.payload 0)
  if m.payload.length != 1 || 2 ≤ get8 m.payload 0 then refuse s stBadArg
  else if !s.busy && !(s.mode == .noon || s.mode == .evening) then refuse s stNotInMode
  else if s.fw.staging.isSome || s.fw.trial.isSome || s.fw.activation.isSome then refuse s stBusy
  else if (s.fw.areas.get (slotArea slot)).st != .valid || s.fw.running = some slot then refuse s stBadArg
  else (s.meetRequest m 0x0A05 (.maintenance slot), .answered)

/-- MODE_GET (R328). -/
def opModeGet (m : VcpMsg) (s : State) : State × Reply :=
  if m.payload.isEmpty then
    (s, .done stOK ([BitVec.ofNat 8 (opModeCode s.mode), BitVec.ofNat 8 (opModeCode s.origin), s.cause,
      ((s.queue.map (fun r => BitVec.ofNat 8 (goalCode r.goal))).getD 0xFF)] ++ le16 s.detail.toNat ++ [BitVec.ofNat 8 (eveBits s.eve), 0]))
  else refuse s stBadArg

/-! ## The Dusk rows -/

/-- The Night condition has held for NIGHT_DELAY (R334). -/
def State.autoNight (s : State) : State :=
  let quiet := (List.finRange 16).all (fun k => (s.parts.get k).st != .connected && !s.wantsTree k)
  if s.modeCfg.autoNight && (s.mode == .noon || s.mode == .evening || s.mode == .morning) && !s.busy && s.queue.isNone && quiet && !s.fw.paused then
    (s.startNight { goal := .night } true causeAutoNight 0).runQueue
  else s

/-- DUSK_STEPS_COMPLETE: what can be completed is; then PREPARE goes out (R331). -/
def State.duskSteps (s : State) : State :=
  match s.trans with
  | none => s
  | some t =>
    if t.stage = .prepare then s
    else match s.duskStep t.req.goal t.begun with
      | none =>
        let s := if t.req.goal = .off then forAll allPorts (fun s p => s.openTypeC p) s else s
        s.sendPrepare.runQueue
      | some s => s

/-- A step has passed its bound (R331). -/
def State.duskBound (s : State) : State :=
  match s.trans with
  | some t => if t.stage = .steps then (s.abortDusk 0x07 0xFF).runQueue else s
  | none => s

/-- A participant's answer stands. -/
def State.setAnswer (s : State) (d : Fin 25) (a : PrepAnswer) : State :=
  { s with trans := s.trans.map (fun (t : Trans) => { t with answers := t.answers.map (fun (x : Fin 25 × PrepAnswer) => if x.1 = d then (d, a) else x) }) }

/-- A budget-driven entry is refused: counted, with no event (R336). -/
def State.dropEntry (s : State) (d : Fin 25) : State :=
  { s with entries := s.entries.filter (fun (e : DomEntry) => e.dom != d), aborts := s.aborts + bnat (s.entries.any (fun (e : DomEntry) => e.dom == d)) }

/-- Whether an atomic PD message sequence runs on a port: a message of it is on its way, or an answer, a transition or a forwarded
message's deadline is awaited. [DEDUCED: log 46] -/
def PdPort.inSequence (x : PdPort) : Bool := x.tx.isSome || x.expect.isSome || x.trans.isSome || x.fwd.isSome

/-- Whether the state holds a condition under which a participant can only defer (Table 10.6): in MGT a command that executes, an AVSBus
request or an atomic PD message sequence, in HSGk a TT that empties before Off. [DEDUCED: log 46] -/
def State.mustDefer (s : State) (off : Bool) (d : Fin 25) : Bool :=
  if d.val = 0 then !s.commandsDone || s.avs.outstanding.isSome || allPorts.any (fun p => (s.pd.get p).inSequence)
  else 9 ≤ d.val && off && (portsOfSlot (hsgSlot d)).any (fun p => !(s.ports.get p).tt.isEmpty)

/-- PREPARE_ANSWER: the participant refuses by its rule, defers, or accepts (R336, Table 10.6). -/
def State.prepareAnswer (s : State) (d : Fin 25) (defer : Bool) : State :=
  let pending := match s.trans with
    | some t => t.stage == DuskStage.prepare && t.answers.any (fun (x : Fin 25 × PrepAnswer) => x.1 == d && x.2 != PrepAnswer.accepted)
    | none => false
  if pending then
    match s.trans with
    | none => s
    | some t =>
      match s.refusal t.req.goal d with
      | some r => (s.abortDusk r (domCode d)).runQueue
      | none =>
        if defer || s.mustDefer (t.req.goal == .off || t.req.goal == .midnight) d then s.setAnswer d .deferring
        else
          let s := s.setAnswer d .accepted
          if ((s.trans.map (fun (t : Trans) => t.answers.all (fun x => x.2 == PrepAnswer.accepted))).getD false) then s.commitDusk.runQueue else s
  else match s.entries.find? (fun (e : DomEntry) => e.dom == d) with
    | none => s
    | some e =>
      if (s.budgetRefusal e).isSome then s.dropEntry d
      else if defer || s.mustDefer (e.goal == .off) d then { s with entries := s.entries.map (fun (x : DomEntry) => if x.dom = d then { x with deferring := true } else x) }
      else { s with entries := s.entries.filter (fun (e : DomEntry) => e.dom != d) }.lowerDomain d e.goal

/-- PREPARE_DEFER_EXPIRY: a participant still defers after its maximum (R336). -/
def State.deferExpired (s : State) (d : Fin 25) : State :=
  let pending := match s.trans with
    | some t => t.stage == DuskStage.prepare && t.answers.any (fun (x : Fin 25 × PrepAnswer) => x.1 == d && x.2 == PrepAnswer.deferring)
    | none => false
  if pending then (s.abortDusk 0x07 (domCode d)).runQueue
  else if s.entries.any (fun (e : DomEntry) => e.dom == d && e.deferring) then s.dropEntry d
  else s

/-! ## Budget-driven entries and exits (R336, R199, R348) -/

/-- A budget-driven entry starts where the mode leaves the domain to Auto. -/
def State.budgetEntry (s : State) (d : Fin 25) : State :=
  let busy := s.entries.any (fun (e : DomEntry) => e.dom == d) || s.exiting.contains d ||
    ((s.trans.map (fun (t : Trans) => t.stage == DuskStage.prepare && t.answers.any (·.1 == d))).getD false)
  if s.ruleNow d = .auto && !busy then
    match s.autoTarget d with
    | some st => if domDepth (s.domains.get d) < domDepth st then { s with entries := s.entries ++ [{ dom := d, goal := st }] } else s
    | none => s
  else s

/-- Work or a wake that reaches a participant which has accepted makes it refuse (R336). [DESIGN CHOICE: log 21] -/
def State.workArrives (s : State) (on : Fin 25 → Bool) : State :=
  let s := forAll ((s.entries.filter (fun (e : DomEntry) => on e.dom)).map (·.dom)) (fun s d => s.dropEntry d) s
  match s.trans with
  | some t =>
    match t.answers.find? (fun x => x.2 == PrepAnswer.accepted && on x.1) with
    | some x => if t.stage = .prepare then (s.abortDusk 0x06 (domCode x.1)).runQueue else s
    | none => s
  | none => s

/-- DOMAIN_EXIT_START: a link exit or a first packet for an idle path starts every exit on the partition's path together (R199). [DESIGN CHOICE: log 21] -/
def State.exitPath (s : State) (k : Part) : State :=
  if s.mode = .off || s.mode = .midnight || s.mode = .dawn || s.mode = .night then s
  else
    let s := (s.leaveU k).workArrives (fun d => s.governs k d)
    let low := (List.finRange 25).filter (fun d => s.governs k d && s.domains.get d != .on && !s.exiting.contains d)
    { s with exiting := s.exiting ++ low }

/-- DOMAIN_EXIT_COMPLETE. -/
def State.exitDone (s : State) (d : Fin 25) : State := if s.exiting.contains d then s.riseDomain d else s

/-- LAT_BUDGET_SET (R347). A state deeper than the new budget admits is left at its next exit (Table 6.7); no entry into it follows. [DEDUCED: log 47] -/
def opLatBudgetSet (m : VcpMsg) (k : Part) (s : State) : State × Reply :=
  if m.payload.length != 2 then refuse s stBadArg
  else ok (s.updPart k (fun x => { x with latBudget := get16 m.payload 0 }))

/-- WAKE_SOURCES_SET (R329). [DESIGN CHOICE: log 32] -/
def opWakeSourcesSet (m : VcpMsg) (s : State) : State × Reply :=
  let b := m.payload
  let v := get8 b 0
  let timer := get32 b 4
  if b.length != 8 || 4 ≤ v || byteAt b 1 != 0 || (bit v 1 && 86400 < timer) then refuse s stBadArg
  else
    ok { s with modeCfg := { s.modeCfg with
      wakeSources := if bit v 0 then BitVec.ofNat 16 (get16 b 2) else s.modeCfg.wakeSources
      wakeTimer := if bit v 1 then timer else s.modeCfg.wakeTimer } }

/-! ## Wakes (R341, R367) -/

/-- Whether a source wakes Night (Table 10.11). -/
def State.wakesNight (s : State) (code : Nat) : Bool :=
  code == 0x10 || code == 0x11 || code == 0x12 ||
    ((code == 2 || code == 3 || code == 6) && s.modeCfg.wakeSources.getLsbD code && (code != 2 || (List.finRange 16).any s.wantsTree) &&
      (code != 6 || s.modeCfg.wakeTimer != 0))

/-- Whether a source wakes Midnight (Table 10.11). -/
def State.wakesMidnight (s : State) (code : Nat) : Bool :=
  code < 8 && s.modeCfg.wakeSources.getLsbD code && (code != 6 || s.modeCfg.wakeTimer != 0)

/-- A wake source is recognised. In a Dusk toward Night or Midnight it makes a participant that has accepted refuse. [DEDUCED: log 20] -/
def State.wake (s : State) (code : Nat) : State :=
  match s.mode with
  | .night => if s.wakesNight code then (s.nightWake code).runQueue else s
  | .midnight => if s.wakesMidnight code then s.boot true else s
  | .dusk =>
    match s.trans with
    | some t => if (t.req.goal = .night && s.wakesNight code) || (t.req.goal = .midnight && s.wakesMidnight code) then s.workArrives (fun _ => true) else s
    | none => s
  | _ => s

/-- 650 ms after a detach in Midnight: EN = 0 and DISCH = 0 (R338). -/
def State.midnightDischarged (s : State) (p : Port) : State :=
  if s.mode = .midnight && (s.vbus.get p).discharging then (s.dischargeOver p).writeWord p else s

/-- 1,000 ms after its new capabilities a sink has not contracted at 5 V: Hard Reset (Table 10.4). -/
def State.releaseExpired (s : State) (p : Port) : State :=
  match s.trans with
  | some t =>
    if t.req.goal = .midnight && t.begun = 1 && hasExplicit (s.pd.get p) && !s.contractReleased p && (s.pd.get p).hr.isNone then s.sendHardReset p else s
  | none => s

/-! ## Evening causes (Table 10.7, R337) -/

/-- An Evening cause has arisen: Noon is left for Evening, a change to Noon that waits ends in Evening, elsewhere the caps follow. [DEDUCED: log 47] -/
def State.causeArisen (s : State) (code : Nat) : State :=
  match s.arrival with
  | some a => if s.eveHolds then (s.rise a.cause a.detail.toNat a.req).runQueue else s
  | none => if s.mode = .noon && s.eveHolds then s.enterMode .evening causeEvening code none else s.repace

/-- All automatic causes have stayed clear for EVENING_HOLD (Table 10.3). -/
def State.eveningOver (s : State) : State :=
  if s.mode = .evening && !s.busy && !s.eveHolds then s.rise causeClear 0 none else s

/-- The clearing condition of cause THERMAL. [DEDUCED: log 48] -/
def State.thermalClear (s : State) : Bool :=
  (List.finRange 16).all (fun i => (s.sensors.get i).reading.toInt ≤ 16 * ((s.modeCfg.tjEvening : Int) - 5)) &&
    !(s.alarms.get 1).asserted && !(s.alarms.get 4).asserted

/-- The clearing condition of cause SUPPLY. [DEDUCED: log 48] -/
def State.supplyClear (s : State) : Bool :=
  (List.finRange 8).all (fun i => !(s.rails.get i).low) && !(s.alarms.get 2).asserted && !(s.alarms.get 5).asserted

/-- The automatic causes clear where their conditions are over. -/
def State.causesCleared (s : State) (thermal supply : Bool) : State :=
  ({ s with eve := { s.eve with thermal := s.eve.thermal && !(thermal && s.thermalClear), supply := s.eve.supply && !(supply && s.supplyClear) } }).repace

/-! ## Die sensors (R355) -/

/-- THERMAL (Table 11.15). -/
def State.thermalEvent (s : State) (i : Fin 16) (crossing : Byte) : State :=
  s.issue { code := 0x8702, target := deviceTarget, payload := [BitVec.ofNat 8 i.val, crossing] ++ le16 (s.sensors.get i).reading.toNat,
            audience := { everyone := true } }

/-- One threshold of one sensor: up at it, down 5 °C below it. -/
def crossed (was : Bool) (celsius : Nat) (t : BitVec 16) : Bool :=
  if was then !(t.toInt ≤ 16 * ((celsius : Int) - 5)) else 16 * (celsius : Int) ≤ t.toInt

/-- The reading a sensor shows: a forced one while its injection point acts (Table 12.7). -/
def State.shownTemp (s : State) (i : Fin 16) (t : BitVec 16) : BitVec 16 :=
  match (s.armed (0x010 + i.val) 0x30).or (s.armed (0x010 + i.val) 0x31) with
  | some x => BitVec.ofNat 16 x.parameter.toNat
  | none => t

/-- One sensor is read and its crossings are judged. -/
def State.sampleSensor (s : State) (i : Fin 16) (raw : BitVec 16) : State :=
  let t := s.shownTemp i raw
  let x := s.sensors.get i
  let y : Sensor := { reading := t, warn := crossed x.warn s.modeCfg.tjWarn t, eve := crossed x.eve s.modeCfg.tjEvening t, crit := 16 * 115 ≤ t.toInt }
  let s := { s with sensors := s.sensors.put i y }
  let s := if x.warn = y.warn then s else s.thermalEvent i (if y.warn then 0 else 1)
  if x.eve = y.eve then s else s.thermalEvent i (if y.eve then 2 else 3)

/-- Whether management runs: it reads the sensors and masters AVSBus. -/
def State.mgtUp (s : State) : Bool := s.mode != .off && s.mode != .midnight && s.mode != .dawn

/-- DIE_SENSOR_SAMPLE. -/
def State.sampleTemps (s : State) (l : Tab 16 (BitVec 16)) : State :=
  if s.mgtUp then (forAll (List.finRange 16) (fun s i => s.sampleSensor i (l.get i)) s).causesCleared true false else s

/-- A sensor has been at or above TJ_EVENING for 1 s: a record and cause THERMAL. [DEDUCED: log 48] -/
def State.thermalEvening (s : State) (i : Fin 16) : State :=
  let t := (s.sensors.get i).reading
  if s.mgtUp && 16 * (s.modeCfg.tjEvening : Int) ≤ t.toInt then
    ({ s with eve := { s.eve with thermal := true } }.detect (0x010 + i.val) 0x30 t.toNat).causeArisen 1
  else s

/-- A sensor has been at or above 115 °C for 10 ms. [DEDUCED: log 48] -/
def State.thermalCritical (s : State) (i : Fin 16) : State :=
  if s.mgtUp && (s.sensors.get i).crit then s.detect (0x010 + i.val) 0x31 (s.sensors.get i).reading.toNat else s

/-! ## Supplies (R356) -/

/-- A rail has been below its warning level for 100 µs. [DEDUCED: log 48] -/
def State.supplyWarning (s : State) (r : Fin 8) (mv : Nat) : State :=
  if s.mode = .off then s
  else
    ({ s with rails := s.rails.upd r (fun x => { x with mv, low := true }), eve := { s.eve with supply := true } }.detect (0x020 + r.val) 0x32 mv).causeArisen 2

/-- A rail has been below its failure level for 10 µs. -/
def State.supplyFailure (s : State) (r : Fin 8) (mv : Nat) : State :=
  if s.mode = .off then s
  else { s with rails := s.rails.upd r (fun x => { x with mv, low := true, failed := true }) }.detect (0x020 + r.val) 0x33 mv

/-- Every rail is above its warning level by 1 %. -/
def State.supplyRestored (s : State) : State :=
  { s with rails := Tab.of (fun r => { s.rails.get r with low := false, failed := false }) }.causesCleared false true

/-! ## AVSBus (R351–R354) -/

/-- The target is re-evaluated; one request moves it by at most 25 mV (R352). -/
def State.avsEvaluate (s : State) : State :=
  if !s.mgtUp || s.fw.paused || s.avs.outstanding.isSome || s.avs.holdoff then s
  else
    let need := s.coreNeed s.mode
    let c := s.avs.confirmed
    let v := if c < need then min need (c + 25) else max need (c - 25)
    if v = c then s else { s with avs := { s.avs with target := v, outstanding := some v } }.emit (.avsWrite v)

/-- What waits for the core supply goes on. -/
def State.resumeArrival (s : State) : State :=
  match s.arrival with
  | some a => (s.rise a.cause a.detail.toNat a.req).runQueue
  | none => s

/-- The regulator reports the target reached: confirmed, and cause AVS clears. [DEDUCED: log 48] -/
def State.avsComplete (s : State) (voltage current temp status : BitVec 16) : State :=
  match s.avs.outstanding with
  | none => s
  | some v =>
    let s := { s with avs := { s.avs with confirmed := v, outstanding := none, voltage, current, temp, status }, eve := { s.eve with avs := false } }
    s.repace.resumeArrival

/-- 2 ms without completion; a mode change that waited for it ends in Evening (Table 10.16). [DEDUCED: log 46] -/
def State.avsTimeout (s : State) : State :=
  match s.avs.outstanding with
  | none => s
  | some v =>
    let s := s.avsFail v
    match s.arrival with
    | some a => ((({ s with arrival := none }).enterMode .evening a.cause a.detail.toNat a.req).okReq a.req).runQueue
    | none => s.causeArisen 3

/-- 100 ms after a timeout. -/
def State.avsHoldoffOver (s : State) : State := { s with avs := { s.avs with holdoff := false } }.resumeArrival

/-- AVS_GET. -/
def opAvsGet (m : VcpMsg) (s : State) : State × Reply :=
  if m.payload.isEmpty then
    (s, .done stOK (le16 s.avs.target ++ le16 s.avs.confirmed ++ le16 s.avs.voltage.toNat ++ le16 s.avs.current.toNat ++ le16 s.avs.temp.toNat ++
      le16 s.avs.status.toNat ++ le32 s.avs.timeouts))
  else refuse s stBadArg

/-- GET_TEMPS (R355). -/
def opGetTemps (m : VcpMsg) (s : State) : State × Reply :=
  if m.payload.isEmpty then (s, .done stOK ([16, 0] ++ (List.finRange 16).flatMap (fun i => le16 (s.sensors.get i).reading.toNat)))
  else refuse s stBadArg

/-! ## Clocks (R358, R359) -/

/-- The AON timebase changes to the crystal. -/
def State.toCrystal (s : State) : State := if s.mode = .off && !s.aonUp then s else { s with clocks := { s.clocks with axin := true } }

/-- The RC oscillator is calibrated against the 25 MHz clock while MGT runs. -/
def State.calibrate (s : State) : State := if s.mgtUp then { s with clocks := { s.clocks with calibrated := true } } else s

/-- A selected REFCLK is lost: the PLLs return to the crystal, with a record. -/
def State.refclkLoss (s : State) : State :=
  if s.clocks.refUsed then { s with clocks := { s.clocks with refLost := true, refUsed := false } }.detect 0x006 0x35 0 else s

/-! ## Resets (R362, R363, R365) -/

/-- PORST_N is released: Rd stands on the upstream CC lines (R178); with TESTMODE the device stays in Off, else Dawn runs. [DESIGN CHOICE: log 3, 18; DEDUCED: log 99] -/
def State.porstRelease (s : State) (testmode : Bool) (b : BoardIn) : State :=
  if s.mode = .off && !s.aonUp then
    let s := { s with aonUp := true, testmode, board := b, ups := Tab.of (fun k => { s.ups.get k with rd := true }) }
    if testmode then s else s.dawn.strapAndBoot
  else s

/-- WRST_N is asserted, but in Off and Dawn: Dawn. -/
def State.wrstAssert (s : State) : State :=
  if s.mode = .off || s.mode = .dawn then s else { s.dawn with wrstLow := true }

/-- WRST_N is released: the straps are sampled and the start-up sequence runs. [DESIGN CHOICE: log 18] -/
def State.wrstRelease (s : State) (b : BoardIn) : State :=
  if s.mode = .dawn && s.wrstLow then { s with wrstLow := false, board := b }.strapAndBoot else s

end Sys2Proof.Machine
end

