-- ==== Sys2Proof/Machine/Firmware.lean ====
section
/-! DEFINITION. Firmware management: FW_GET, staging and commit, hitless activation, the trial and its rollback (R403, R406–R409). -/

namespace Sys2Proof.Machine

open Sys2Proof

/-! ## FW_GET (Table 11.14) -/

/-- The state of an area as FW_GET reports it. -/
def areaCode : AreaSt → Nat
  | .empty => 0
  | .valid => 1
  | .invalid => 2
  | .staging => 3
  | .trial => 4

/-- A header field of a slot's container; free where the slot is empty. [DESIGN CHOICE: log 9] -/
def State.slotField (s : State) (i : Fin 2) (f : List Byte → Nat) : List Byte :=
  let a := s.fw.areas.get (slotArea i)
  le32 (if a.st = .empty then Config.noVersion.toNat else f (slice a.bytes 0 512))

/-- The FW_GET response. [DESIGN CHOICE: log 9] -/
def State.fwStatus (s : State) : List Byte :=
  let x := s.fw
  let slot := fun (o : Option (Fin 2)) => (o.map (fun i => BitVec.ofNat 8 i.val)).getD Config.noSlot
  let copies := bnat ((x.areas.get 2).st == .valid) + 2 * bnat ((x.areas.get 3).st == .valid) + 4 * bnat (x.recordLoaded == some 1)
  [slot x.running, slot (x.dir.map (·.active)), BitVec.ofNat 8 (areaCode (x.areas.get 0).st), BitVec.ofNat 8 (areaCode (x.areas.get 1).st)] ++
    s.slotField 0 versionOf ++ s.slotField 1 versionOf ++ s.slotField 0 secverOf ++ s.slotField 1 secverOf ++ le32 x.securityFloor ++
    le32 ((x.staging.map (·.bytes.length)).getD 0) ++ [(x.staging.map (fun g => BitVec.ofNat 8 g.session.val)).getD 0xFF, BitVec.ofNat 8 copies] ++
    le16 x.rollbacks.toNat

/-- FW_GET. -/
def opFwGet (m : VcpMsg) (s : State) : State × Reply := if m.payload.isEmpty then (s, .done stOK s.fwStatus) else refuse s stBadArg

/-! ## Staging (R403) -/

/-- Whether the mode serves the staging commands (R344, R396). -/
def State.stagingMode (s : State) : Bool :=
  s.mode == .morning || s.mode == .noon || s.mode == .evening || s.mode == .diagnostic || s.fw.bootFailed

/-- The area that staging takes. -/
def FirmwareState.stagingArea (x : FirmwareState) (isImage : Bool) : Fin 4 :=
  if isImage then slotArea (other2 (x.running.getD ((x.dir.map (·.active)).getD 1)))
  else copyArea (match x.dir.bind (·.recordCopy) with
    | some c => other2 c
    | none => 0)

/-- FW_STAGE_BEGIN. [DEDUCED: log 50] -/
def opFwStageBegin (m : VcpMsg) (s : State) : State × Reply :=
  let b := m.payload
  let kind := get8 b 0
  let total := get32 b 4
  let isImage := kind == 1
  if !s.stagingMode then refuse s stNotInMode
  else if b.length != 8 || !(kind == 1 || kind == 2) || !zeroSlice b 1 3 || total = 0 || (if isImage then 8388608 else 262144) < total then refuse s stBadArg
  else if (s.fw.staging.map (·.session)).any (· != m.session) || s.fw.trial.isSome || s.fw.activation.isSome then refuse s stBusy
  else
    let s := s.abandonStaging
    let a := s.fw.stagingArea isImage
    let s := s.updFw (fun x => { x with
      areas := x.areas.put a { st := .staging, bytes := [] }
      staging := some { session := m.session, area := a, isImage, total, bytes := [] } })
    (s, .done stOK [BitVec.ofNat 8 a.val])

/-- FW_STAGE_DATA. [DEDUCED: log 50; DESIGN CHOICE: log 72] -/
def opFwStageData (m : VcpMsg) (s : State) : State × Reply :=
  let b := m.payload
  let data := b.drop 8
  if !s.stagingMode then refuse s stNotInMode
  else match s.fw.staging with
    | none => refuse s stDenied
    | some g =>
      if g.session != m.session then refuse s stDenied
      else if data.isEmpty || 1016 < data.length || !zeroSlice b 4 4 || get32 b 0 != g.bytes.length || g.total < g.bytes.length + data.length then
        refuse s stBadArg
      else
        let l := g.bytes ++ data
        let s := s.updFw (fun x => { x with
          areas := x.areas.put g.area { st := .staging, bytes := l }, staging := some { g with bytes := l } })
        (s, .done stOK (le32 l.length))

/-- The result of a commit (Table 11.20). -/
def State.commitResult (s : State) (g : Staging) : Nat :=
  if g.bytes.length != g.total then 3
  else
    let r := if g.isImage then s.fw.judge true g.bytes else s.fw.judgeRecord g.bytes
    if r = 0 && g.total < 512 + bodyLength g.bytes then 3 else r

/-- The directory a commit leaves; in a boot-failed hold the image is ACTIVE as well. -/
def commitDirectory (g : Staging) (bootFailed : Bool) (d : Directory) : Directory :=
  let digest := headerDigest g.bytes
  let i : Fin 2 := Fin.ofNat 2 g.area.val
  if g.isImage then
    let d := d.withSlot i digest
    if bootFailed then { d with active := i } else d
  else { d with recordCopy := some i, recordDigest := digest }

/-- FW_STAGE_COMMIT. [DEDUCED: log 50] -/
def opFwStageCommit (m : VcpMsg) (s : State) : State × Reply :=
  if !s.stagingMode then refuse s stNotInMode
  else match s.fw.staging with
    | none => refuse s stDenied
    | some g =>
      if g.session != m.session then refuse s stDenied
      else if !m.payload.isEmpty then refuse s stBadArg
      else
        let r := s.commitResult g
        let h := slice g.bytes 0 512
        let answer : List Byte := [BitVec.ofNat 8 r, 0, 0, 0] ++ le32 (versionOf h) ++ le32 (secverOf h)
        let s := s.updFw (fun x => { x with staging := none })
        if r = 0 then
          (s.updFw (fun x => (x.writeDir (commitDirectory g x.bootFailed)).mark g.area .valid), .done stOK answer)
        else (s.updFw (fun x => x.mark g.area .invalid), .done stBadArg answer)

/-! ## The responses of FW_ACTIVATE (R406) -/

/-- A response of FW_ACTIVATE with its RESULT. [DEDUCED: log 45] -/
def activateRsp (cseq : BitVec 32) (result : Byte) (more : Bool) : Rsp :=
  { opcode := 0x0A05, status := stOK, cseq, target := deviceTarget, more, payload := [result, 0, 0, 0] }

/-- Send a response to the session that asked, where it is still open; it becomes the stored response while FW_ACTIVATE is the
stored command. -/
def State.sendResult (s : State) (session : Option Sess) (cseq : BitVec 32) (result : Byte) (more : Bool) : State :=
  match session with
  | none => s
  | some i =>
    let r := activateRsp cseq result more
    let x := s.sessions.get i
    let mine := (x.executing.map (fun (e : Cmd × Wait) => e.1.opcode == 0x0A05 && e.1.msg.cseq == cseq)).getD false
    let copies := if mine then x.repeats else 0
    let s := s.updSession i (fun x => { x with
      executing := if mine then none else x.executing
      repeats := if mine then 0 else x.repeats
      stored := if x.lastCseq = cseq then x.stored.map (fun t => if t.opcode = 0x0A05 then { t with response := some r } else t) else x.stored })
    forAll (List.replicate (1 + copies) r) (fun s r => s.respond i r) s

/-! ## Activation and trial (R406–R408) -/

/-- Maintenance is left, where it was reached (Table 11.21 step 6). -/
def State.leaveMaintenance (s : State) (detail : Nat) : State := if s.mode = .maintenance then s.goBack s.back causeDone detail else s

/-- A rollback has happened: the slot is INVALID, a record is made, MODE_CHANGED and the response say so (R408). [DEDUCED: log 49] -/
def State.rolledBack (s : State) (a : Activation) (failed keep : Fin 2) : State :=
  let version := versionOf (slice (s.fw.area (slotArea failed)) 0 512)
  let s := s.updFw (fun x => { (if x.dir.bind (·.trial) = none then x else x.writeDir (fun d => { d with trial := none })) with
    running := some keep, trial := none, activation := none, rollbacks := x.rollbacks + 1 })
  let s := (s.updFw (fun x => x.mark (slotArea failed) .invalid)).detect 0x003 0x74 version
  ((s.pauseEnd.leaveMaintenance 1).sendResult a.session a.cseq 1 false).runQueue

/-- Whether step 4 of Table 11.21 accepts the image: the header digest of the directory, the running image's handover. -/
def State.loadOk (s : State) (a : Activation) : Bool :=
  let h := slice (s.fw.area (slotArea a.target)) 0 512
  (s.fw.dir.map (fun d => d.slotDigest a.target == sha384 h)).getD false &&
    handoverOf h == handoverOf (slice (s.fw.area (slotArea a.previous)) 0 512)

/-- ACTIVATION_LOAD_FAIL: step 4 or 5 fails; the previous image goes on (R406). [DEDUCED: log 49] -/
def State.loadFailed (s : State) : State :=
  match s.fw.activation with
  | some a => if a.step = .pause && !a.rollback then s.rolledBack a a.target a.previous else s
  | none => s

/-- ACTIVATION_PAUSE_END: the image has taken the handover block (Table 11.21 step 6); a management restart within the pause, or an
image that step 4 does not accept, ends it in rollback (Table 12.9). [DEDUCED: log 49] -/
def State.activationEnd (s : State) : State :=
  match s.fw.activation with
  | none => s
  | some a =>
    let restarted := s.fault.mgtRestarting
    if a.step = .dusk then s
    else if a.rollback then ({ s with fault := { s.fault with mgtRestarting := false } }).rolledBack a a.previous a.target
    else if restarted || !s.loadOk a then ({ s with fault := { s.fault with mgtRestarting := false } }).rolledBack a a.target a.previous
    else
      let t : Trial := { slot := a.target, previous := a.previous, session := a.session, cseq := a.cseq, target := deviceTarget }
      let s := s.updFw (fun x => { (x.writeDir (fun d => { d with trial := some a.target })).mark (slotArea a.target) .trial with
        running := some a.target, trial := some t, activation := none })
      ((s.pauseEnd.leaveMaintenance 0).sendResult a.session a.cseq 0 true).runQueue

/-- Keys of the same use below REVOKE_BELOW are revoked (R407). [DEDUCED: log 49] -/
def FirmwareState.revoke (x : FirmwareState) (l : List Byte) : FirmwareState :=
  let use := (x.keys.get (Fin.ofNat 4 (get8 l 11))).use
  { x with keys := Tab.of (fun i => let k := x.keys.get i
    if i.val < get8 l 28 && k.use = use then { k with revoked := true } else k) }

/-- TRIAL_PASS: the directory makes the slot ACTIVE, the floor rises, COMMITTED is sent (R407). -/
def State.trialPass (s : State) : State :=
  match s.fw.trial with
  | none => s
  | some t =>
    if s.fw.paused then s
    else
      let h := slice (s.fw.area (slotArea t.slot)) 0 512
      let s := s.updFw (fun x => { ((x.writeDir (fun d => { d with active := t.slot, trial := none })).mark (slotArea t.slot) .valid).revoke h with
        securityFloor := max x.securityFloor (secverOf h), trial := none })
      s.sendResult t.session t.cseq 2 false

/-- The trial fails (R408). From Noon or Evening the device goes to Maintenance through Dusk, at once where the image no longer
runs (`dead`); in another mode the pause runs alone. [DEDUCED: log 49] -/
def State.trialFail (s : State) (dead : Bool) : State :=
  match s.fw.trial with
  | none => s
  | some t =>
    let a : Activation := { target := t.previous, previous := t.slot, session := t.session, cseq := t.cseq, step := .dusk, rollback := true }
    let s := s.updFw (fun x => { x with trial := none, activation := some a })
    let req : ModeRequest := { goal := .maintenance t.previous }
    if (s.mode == .noon || s.mode == .evening) && !s.busy then
      let s := s.startDusk req false true causeActivate 0
      if dead then { s with trans := none }.enterMaintenance req else s
    else s.updFw (fun x => { x with paused := true, activation := some { a with step := .pause } })

end Sys2Proof.Machine
end

