-- ==== Sys2Proof/Machine/Links.lean ====
section
/-! DEFINITION. Links between the dies and the alarm pairs (R17–R19, R21, Table 1.3). -/

namespace Sys2Proof.Machine

open Sys2Proof

/-- The ports of a port die. -/
def portsOfDie (d : Fin 2) : List Port := allPorts.filter (fun p => dieOf p == d)

/-- The slots of a die. -/
def slotsOfDie (d : Fin 2) : List Slot := (List.finRange 16).filter (fun k => dieOfSlot k == d)

/-- A port-die link leaves the active state: its PCEs issue no tokens and no SOFs (R17). -/
def State.portLinkRetrain (s : State) (d : Fin 2) : State :=
  { s with portLinks := s.portLinks.upd d (fun x => if x = .active then .retraining else x) }

/-- What a lifted port held while its port-die link was not active goes on: a request of its probe, a suspend that was due, its traffic. -/
def State.linkBack (s : State) (p : Port) : State :=
  let s := if (((s.lift.get p).bind (·.probe)).map (·.waitLink)).getD false then s.issueProbe p else s
  let s := s.suspendOrder p
  if s.busMoves p then s.busWakes p else s

/-- A port-die link is active again: what was held moves on in order. -/
def State.portLinkReturn (s : State) (d : Fin 2) : State :=
  if s.portLinks.get d = .active then s
  else forAll (s.liftedPorts.filter (fun p => dieOf p == d)) (fun s p => s.linkBack p) { s with portLinks := s.portLinks.put d .active }

/-- Every lifted endpoint of a die's ports is poisoned with source 0x03 (R169). -/
def State.poisonDie (s : State) (d : Fin 2) : State :=
  forAll (s.liftedPorts.filter (fun p => dieOf p == d)) (fun s p =>
    match s.lift.get p with
    | some x =>
      let s := forAll (x.ctxs.filter (fun c => !c.poisoned)) (fun s c => s.poisonLink p c.addr) s
      if x.ctl.isSome then s.poisonEp0 p 0x03 else s
    | none => s) s

/-- A port-die link is not back 1 ms after it left: failed, with a record; the data held is poisoned. -/
def State.portLinkFail (s : State) (d : Fin 2) : State :=
  if s.portLinks.get d = .retraining then ({ s with portLinks := s.portLinks.put d .failed }.detect (0x030 + d.val) 0x10 1000).poisonDie d else s

/-- No valid frame on a power-die link for 100 µs (R18). [DESIGN CHOICE: log 97] -/
def State.powerLinkTimeout (s : State) (d : Fin 2) : State :=
  if s.mode != .off && (s.powerLinks.get d).up then
    { s with powerLinks := s.powerLinks.upd d (fun x => { x with up := false }) }.detect (0x032 + d.val) 0x10 0
  else s

/-- A power die has received no valid frame for 10 ms: it opens its VCONN switches, and keeps Rp and the SPC settings (R19). [DESIGN CHOICE: log 97] -/
def State.powerLinkSilence (s : State) (d : Fin 2) : State :=
  if !(s.powerLinks.get d).up then
    let s := { s with powerLinks := s.powerLinks.upd d (fun x => { x with silent := true }) }
    forAll (portsOfDie d) (fun s p => s.updPd p (fun x => { x with vconnOn := false })) s
  else s

/-- Valid frames resume: held events go out, and the die's settings are written again: the SPC limits, Rp and the VCONN switches (R19). [DESIGN CHOICE: log 97] -/
def State.powerLinkResume (s : State) (d : Fin 2) : State :=
  let x := s.powerLinks.get d
  if x.up then s
  else
    let s := { s with powerLinks := s.powerLinks.put d {} }
    let s := forAll x.held (fun s e => s.issue e) s
    let s := forAll (slotsOfDie d) (fun s k => (s.updSlot k (fun y => { y with spc := y.cfg })).slotLearned k) s
    forAll (portsOfDie d) (fun s p =>
      let y := s.pd.get p
      (s.setRp p).setVconn p (ssCapable p && y.tc == .attached && y.vconnSource && raSeen y && y.hr == none && !y.vconnReturn)) s

/-- The Evening cause that an alarm raises: over-temperature THERMAL, V5_CC undervoltage SUPPLY, slot trip none (Table 10.7). -/
def State.alarmCause (s : State) (i : Fin 6) : State :=
  if i.val % 3 = 1 then { s with eve := { s.eve with thermal := true } }.causeArisen 1
  else if i.val % 3 = 2 then { s with eve := { s.eve with supply := true } }.causeArisen 2
  else s

/-- An alarm pair shows its two levels different: clear or asserted (Table 1.3). -/
def State.alarmChange (s : State) (i : Fin 6) (on : Bool) : State :=
  if s.mode = .off then s
  else
    let was := (s.alarms.get i).asserted
    let s := { s with alarms := s.alarms.put i { asserted := on, lineFault := false } }
    if on && !was then (s.detect (0x034 + i.val) 0x12 0).alarmCause i
    else if !on then s.causesCleared (i.val % 3 == 1) (i.val % 3 == 2)
    else s

/-- An alarm pair has shown equal levels for 200 ns: acted on as asserted, and recorded. -/
def State.alarmLineFault (s : State) (i : Fin 6) (level : Bool) : State :=
  if s.mode = .off then s
  else
    let was := s.alarms.get i
    let s := { s with alarms := s.alarms.put i { asserted := true, lineFault := true } }
    let s := if was.lineFault then s else s.detect (0x034 + i.val) 0x11 (if level then 3 else 0)
    if was.asserted then s else s.alarmCause i

end Sys2Proof.Machine
end

