-- ==== Sys2Proof/Machine/Faults.lean ====
section
/-! DEFINITION. The Fault Collector: records, escalation and merging, reset shadows, FAULT_N, containment reactions, the management restart and Safe Hold (R411–R428). -/

namespace Sys2Proof.Machine

open Sys2Proof

/-- Change the Fault Collector. -/
def State.updFault (s : State) (f : FaultState → FaultState) : State := { s with fault := f s.fault }

/-! ## Records (R411, R412, R419, Table 12.1) -/

/-- A record as FAULT_READ and the FAULT event carry it; STILL_PRESENT is sampled now. [DEDUCED: log 36] -/
def State.recordBytes (s : State) (r : FaultRec) : List Byte :=
  le32 r.index.toNat ++ le16 r.source.toNat ++
    [r.kind, BitVec.ofNat 8 (128 * bnat r.injected + 64 * bnat (s.stillPresent r) + 32 * bnat r.acked + 16 * bnat r.shadowed +
      8 * bnat r.escalated + severityCode r.severity)] ++
    le32 r.info.toNat ++ le64 r.timestamp.toNat ++ le16 r.partitions.toNat ++ le16 r.occurrences.toNat

/-- The store with room for one more record of a severity: the oldest acknowledged record goes, else the oldest of the lowest
severity where that is below the new one's; none where the new record is dropped (R412). -/
def makeRoom (l : List FaultRec) (sev : Severity) : Option (List FaultRec) :=
  if l.length < 1024 then some l
  else match l.find? (·.acked) with
    | some r => some (l.erase r)
    | none =>
      let low := l.foldl (fun n r => min n (severityCode r.severity)) 4
      if low < severityCode sev then (l.find? (fun r => severityCode r.severity == low)).map (fun r => l.erase r) else none

/-- Write a record, with its FAULT event; false where it was dropped and counted. -/
def State.storeRecord (s : State) (d : Detection) (sev : Severity) (shadowed escalated : Bool) : State × Bool :=
  match makeRoom s.fault.records sev with
  | none => (s.updFault (fun x => { x with dropped := x.dropped + 1 }), false)
  | some l =>
    let parts := s.partsOfSource d.source.toNat
    let r : FaultRec :=
      { index := s.fault.nextIndex, source := d.source, kind := d.kind, injected := d.injected, acked := false, shadowed, escalated,
        severity := sev, info := d.info, timestamp := Config.timestamp s.freeCount, partitions := partMask parts, occurrences := 1 }
    let s := s.tick.updFault (fun x => { x with records := l ++ [r], nextIndex := x.nextIndex + 1 })
    (s.issue { code := 0x8901, target := deviceTarget, payload := [24, 0, 0, 0] ++ le32 r.index.toNat ++ s.recordBytes r,
               audience := { parts, stewards := true } }, true)

/-- Once a record can next be written, the drop count becomes an OVERFLOW detection (R412). -/
def State.overflow (s : State) : State :=
  if 0 < s.fault.dropped && (makeRoom s.fault.records (s.severityOf 0x009 0x24)).isSome then
    s.updFault (fun x => { x with
      inbox := { source := 0x009, kind := 0x24, info := BitVec.ofNat 32 x.dropped, injected := false } :: x.inbox, dropped := 0 })
  else s

/-! ## FAULT_N (R421) -/

/-- Drive FAULT_N low for a new record at or above THRESHOLD, or let the pulse wait. [DEDUCED: log 41] -/
def State.pulse (s : State) (sev : Severity) : State :=
  if severityCode sev < severityCode s.fault.threshold then s
  else s.updFault (fun x =>
    if x.pulsing || x.gap || x.pinHold then { x with waiting := min 255 (x.waiting + 1) } else { x with pulsing := true })

/-- MIN_WIDTH elapses: the pulse ends, or the released time after it does and the next waiting pulse follows. [DEDUCED: log 41] -/
def State.pulseEnd (s : State) : State :=
  s.updFault (fun x =>
    if x.pulsing then { x with pulsing := false, gap := true }
    else if x.gap then
      (if 0 < x.waiting && !x.pinHold then { x with gap := false, pulsing := true, waiting := x.waiting - 1 } else { x with gap := false })
    else x)

/-- The level of the FAULT_N ball: false is low. [DEDUCED: log 41] -/
def FaultState.pin (x : FaultState) : Bool := !x.pulsing && !x.pinHold

/-! ## Reset shadows (R420, Table 12.5) -/

/-- Whether a shadow covers a detector. -/
def State.shadowCovers (s : State) (x : Shadow) (source kind info : Nat) : Bool :=
  let p : Port := Fin.ofNat 512 source
  let k : Slot := Fin.ofNat 16 source
  let data := 0x800 ≤ source && source < 0xA00
  let vbus := 0x400 ≤ source && source < 0x600
  let probes := (s.ports.get p).st == .debounce || ((s.lift.get p).bind (·.probe)).isSome
  match x.reaction with
  | .pceReset j => source == 0x130 + j.val || (data && slotOf p == j) || (source == 0x170 + j.val && kind == 0x53)
  | .leReset j => (data && (x.ports.contains p || (s.partOf.get p == j && probes))) || (source == 0x007 && kind == 0x01 && info == j.val)
  | .pdeReset j => source == 0x150 + j.val || (vbus && kind == 0x41 && slotOf p == j)
  | .portDieReset d => (0x120 ≤ source && source < 0x140 && dieOfSlot k == d) || (data && dieOf p == d)
  | .powerDieReset d =>
    (0x034 + 3 * d.val ≤ source && source < 0x037 + 3 * d.val) || (0x160 ≤ source && source < 0x180 && dieOfSlot k == d) || (vbus && dieOf p == d)
  | .mgtRestart => source == 0x005 || source == 0x008
  | .port q => (data || vbus) && p == q
  | _ => false

/-- Whether a detection is under a shadow. -/
def State.shadowed (s : State) (d : Detection) : Bool :=
  s.fault.shadows.any (fun x => s.shadowCovers x d.source.toNat d.kind.toNat d.info.toNat)

/-! ## The containment reactions (R423, R424, Table 12.4) -/

/-- The reaction of Table 12.4 that a source's detection calls for. -/
def reactionOf (c : ReactClass) (source info : Nat) : Option Reaction :=
  match c with
  | .none => none
  | .mgtRestart => some .mgtRestart
  | .portDieReset => some (.portDieReset (Fin.ofNat 2 source))
  | .powerDieReset => some (.powerDieReset (Fin.ofNat 2 source))
  | .leReset => some (.leReset (Fin.ofNat 16 source))
  | .partitionHold => some (.partitionHold (Fin.ofNat 16 source))
  | .pceReset => some (.pceReset (Fin.ofNat 16 source))
  | .pdeReset => some (.pdeReset (Fin.ofNat 16 source))
  | .slotOff => some (.slotOff (Fin.ofNat 16 source))
  | .bankClose => some (.bankClose (Fin.ofNat 32 source))
  | .rowRetire => some (.rowRetire (Fin.ofNat 32 (info / 65536)) (info / 64 % 1024))
  | .portPowerOff => some (.portPowerOff (Fin.ofNat 512 source))
  | .port => some (.port (Fin.ofNat 512 source))

/-- Whether a running reaction keeps another from running: it is larger and has that one's object (R424). -/
def reactionBlocks (a b : Reaction) : Bool :=
  match a, b with
  | .pceReset k, .port p => slotOf p == k
  | .pceReset k, .portPowerOff p => slotOf p == k
  | .portDieReset d, .port p => dieOf p == d
  | .portDieReset d, .portPowerOff p => dieOf p == d
  | .portDieReset d, .pceReset k => dieOfSlot k == d
  | _, _ => false

/-- Whether a reaction takes a running one over (R424). -/
def reactionTakesOver (a b : Reaction) : Bool :=
  match b with
  | .portPowerOff _ => false
  | _ => reactionBlocks a b

/-- The ports whose return to service a reaction waits for. -/
def reactionPorts : Reaction → List Port
  | .port p => [p]
  | .portPowerOff p => [p]
  | .pceReset k => portsOfSlot k
  | .portDieReset d => portsOfDie d
  | _ => []

/-- Whether a reaction has a row in Table 12.5. -/
def castsShadow : Reaction → Bool
  | .port _ => true
  | .pceReset _ => true
  | .leReset _ => true
  | .pdeReset _ => true
  | .portDieReset _ => true
  | .powerDieReset _ => true
  | .mgtRestart => true
  | _ => false

/-- The lifted ports of a partition (LE_RESET). -/
def State.liftedOf (s : State) (k : Part) : List Port := (s.portsOf k).filter (fun p => (s.ports.get p).path == .lifted && (s.ports.get p).presented)

/-- Cast the shadow of a reaction that starts. -/
def State.castShadow (s : State) (r : Reaction) : State :=
  if castsShadow r then
    let ports := match r with
      | .leReset k => s.liftedOf k
      | _ => []
    s.updFault (fun x => { x with shadows := x.shadows ++ [{ reaction := r, ports, ending := false }] })
  else s

/-- PORT's action on one port: drain, reset, fresh attach. A port with nothing attached is back in service at once. -/
def State.containPort (s : State) (p : Port) : State :=
  let x := s.ports.get p
  if x.st == .off || x.st == .charge || x.st == .idle || x.st == .disabling then s.updPort p (fun x => { x with tt := [] })
  else s.drainThen p .containment (fun x => { x with reacting := true, pendReset := true, pendError := false, tt := [] })

/-- PORT_POWER_OFF: the disable order, the VBUS setting left OFF. -/
def State.powerOffPort (s : State) (p : Port) : State :=
  let s := s.updVbus p (fun v => { v with setting := false })
  if (s.ports.get p).st = .disabling then s.updPort p (fun x => { x with reacting := true })
  else s.drainThen p .containment (fun x => { x with reacting := true, pendDisable := true })

/-- LE_RESET: the lifted ports of the partition are drained and probed afresh. [DEDUCED: log 39] -/
def State.resetLift (s : State) (k : Part) : State :=
  forAll ((s.portsOf k).filter (fun p => (s.ports.get p).path == .lifted || (s.ports.get p).st == .probe))
    (fun s p => s.drainThen p .containment (fun x => { x with noDebounce := true })) s

/-- PDE_RESET: the queue flushed, MessageIDs reset, Soft_Reset on each port that holds an explicit contract. -/
def State.resetPde (s : State) (k : Slot) : State :=
  let s := s.flushPd k
  let s := forAll (portsOfSlot k) (fun s p =>
    let s := s.protocolReset p 3
    if hasExplicit (s.pd.get p) then s.sendSoftReset p else s) s
  s.updUp k (fun u => { u with pdTx := 0, pdRx := none })

/-- PORT_DIE_RESET: lifted endpoints poisoned, ports drained, the link reset, the HSG domains of its slots reset. -/
def State.resetPortDie (s : State) (d : Fin 2) : State :=
  let s := s.poisonDie d
  let s := forAll (portsOfDie d) (fun s p => s.containPort p) s
  let s := { s with portLinks := s.portLinks.put d .retraining }
  forAll ((List.finRange 25).filter (fun q => 9 ≤ q.val && dieOfSlot (hsgSlot q) == d)) (fun s q => s.riseDomain q) s

/-- BANK_CLOSE, but once reactions have closed four banks. -/
def State.closeByReaction (s : State) (b : Bank) : State :=
  if (s.banks.get b).closed || 4 ≤ s.fault.banksClosed then s
  else (s.closeBank b).updFault (fun x => { x with banksClosed := x.banksClosed + 1 })

/-- PARTITION_HOLD (Table 2.9): the tree is withdrawn; the reaction's completion permits the return from Held. -/
def State.holdPart (s : State) (k : Part) : State :=
  let st := (s.parts.get k).st
  if st = .connected || st = .suspended then (s.updPart k (fun x => { x with reacting := true })).withdraw k .containment false .held else s

/-- The reaction's action at its start (Table 12.4). -/
def State.reactOn (s : State) (r : Reaction) : State :=
  match r with
  | .port p => s.containPort p
  | .portPowerOff p => s.powerOffPort p
  | .pceReset k => forAll (portsOfSlot k) (fun s p => s.containPort p) s
  | .leReset k => s.resetLift k
  | .pdeReset k => s.resetPde k
  | .portDieReset d => s.resetPortDie d
  | .powerDieReset d => { s with powerLinks := s.powerLinks.upd d (fun x => { x with up := false }) }
  | .bankClose b => s.closeByReaction b
  | .rowRetire b row => match s.retire b row with
    | some (t, _) => t
    | none => s.closeByReaction b
  | .slotOff k => s.slotOff k
  | .partitionHold k => s.holdPart k
  | .mgtRestart => s.updFw (fun x => { x with paused := true })

/-- Whether a reaction is over as soon as it has acted: no return of an object follows. [DESIGN CHOICE: log 37] -/
def briefReaction : Reaction → Bool
  | .bankClose _ => true
  | .rowRetire _ _ => true
  | .slotOff _ => true
  | _ => false

/-- A containment reaction starts, unless it runs already or a larger one holds its object; a smaller one is taken over (R424). [DESIGN CHOICE: log 37] -/
def State.startReaction (s : State) (r : Reaction) : State :=
  if briefReaction r then s.reactOn r
  else if s.fault.running.any (fun q => q == r || reactionBlocks q r) then s
  else
    let s := s.updFault (fun x => { x with
      running := x.running.filter (fun q => !reactionTakesOver r q) ++ [r]
      shadows := x.shadows.filter (fun y => y.ending || !reactionTakesOver r y.reaction) })
    (s.castShadow r).reactOn r

/-! ## The management restart (R425) -/

/-- Whether an activation pause runs. -/
def State.inActivationPause (s : State) : Bool := (s.fw.activation.map (fun a => a.step == .pause)).getD false

/-- MGT_RESTART. Within an activation pause the pause ends in rollback, in one pause (Table 12.9); with management down already it is
merged. [DEDUCED: log 38] -/
def State.restartMgt (s : State) : State :=
  if s.inActivationPause then s.updFault (fun x => { x with mgtRestarting := true })
  else if s.fault.mgtRestarting || s.fault.safeHoldRestart || s.mode == .midnight || s.mode == .off then s
  else (s.updFault (fun x => { x with mgtRestarting := true })).startReaction .mgtRestart

/-! ## Safe Hold (R426, R427) -/

/-- An affected partition (Table 2.9). [DEDUCED: log 44] -/
def State.safeHoldPart (s : State) (k : Part) : State :=
  let x := s.parts.get k
  if x.st = .disabled then s
  else
    let s := if x.tree then s.withdrawNow k .containment .held else s.updPart k (fun x => { x with st := .held })
    s.updPart k (fun x => { x with safeMarked := true })

/-- R275: Hard Reset on every port with an explicit contract; elsewhere what the PDE had begun ends. [DEDUCED: log 39] -/
def State.safeHoldPd (s : State) (p : Port) : State :=
  let x := s.pd.get p
  if x.hr.isNone && (hasExplicit x || x.trans.isSome) then s.sendHardReset p else s.protocolReset p 2

/-- The running request and the queued one are answered DENIED, PREEMPTED; a rollback under way goes on as a pause alone (R333, R408). -/
def State.dropRequests (s : State) : State :=
  let a := s.fw.activation
  let rolling := (s.trans.map (·.rollback)).getD false
  let q := s.queue
  let s := (({ s with queue := none } : State).denyReq q 0x0B 0xFF).preempt
  if rolling then s.updFw (fun x => { x with paused := true, activation := a.map (fun a => { a with step := .pause }) }) else s

/-- Safe Hold is entered from another mode. [DEDUCED: log 38] -/
def State.toSafeHold (s : State) (source : Nat) : State :=
  if s.mode = .safeHold then s
  else
    let asleep := s.mode == .midnight
    let s := s.dropRequests
    let s := forAll allPorts (fun s p => s.safeHoldPd p) s
    let s := s.enterMode .safeHold causeFatal source none
    if asleep && 2 < source then s.pauseEnd else s

/-- A Fatal from the management sources resets the management processor; its image restarts in Safe Hold service. -/
def State.resetMgt (s : State) : State :=
  (s.updFw (fun x => { x with paused := true })).updFault (fun x => { x with
    safeHoldRestart := true, mgtRestarting := false, running := x.running.filter (· != .mgtRestart)
    shadows := x.shadows.filter (fun y => y.reaction != .mgtRestart) ++ [{ reaction := .mgtRestart, ports := [], ending := false }] })

/-- A Fatal detection takes effect, in any mode but Off, and but while WRST_N holds the device in reset. [DEDUCED: log 38] -/
def State.fatal (s : State) (source kind : Nat) : State :=
  if s.mode = .off || s.wrstLow then s
  else
    let s := forAll (s.partsOfSource source) (fun s k => s.safeHoldPart k) s
    let s := s.toSafeHold source
    let s := if source ≤ 2 then s.resetMgt else s
    if 0x010 ≤ source && source < 0x020 && kind = 0x31 then s.thermalEvent (Fin.ofNat 16 source) 4 else s

/-! ## Collecting (R411–R418) -/

/-- One level up, capped at Fatal (R415). -/
def raisedSeverity : Severity → Severity
  | .note => .correctable
  | .correctable => .degraded
  | .degraded => .containment
  | .containment => .fatal
  | .fatal => .fatal

/-- Whether a record is of the class of a detection, and counts for escalation: unacknowledged and not SHADOWED (R415). -/
def recEscalates (r : FaultRec) (d : Detection) : Bool :=
  !r.acked && !r.shadowed && groupOf r.source.toNat == groupOf d.source.toNat && r.kind == d.kind

/-- A detection at a point that waits for its event leaves it disarmed (Table 12.9, R429). [DEDUCED: log 40] -/
def State.spendPoint (s : State) (d : Detection) : State :=
  s.updFault (fun x => { x with injections := x.injections.filter (fun i => i.timed || i.source != d.source || i.kind != d.kind) })

/-- What the severity of a detection decides (R418), and a trial that fails by it (R408). -/
def State.react (s : State) (d : Detection) (sev : Severity) : State :=
  let source := d.source.toNat
  let kind := d.kind.toNat
  let s := match sev with
    | .fatal => s.fatal source kind
    | .containment =>
      match (faultRow source kind).bind (fun r => reactionOf r.react source d.info.toNat) with
      | some .mgtRestart => s.restartMgt
      | some r => s.startReaction r
      | none => s
    | _ => s
  if (source = 0x001 && kind = 0x21) || (sev == .fatal && source ≤ 2) then s.trialFail true else s

/-- The management processor is reset by the detection itself, before firmware can issue its FAULT event (R425, R426). [DEDUCED: log 38] -/
def State.stopMgt (s : State) (d : Detection) (sev : Severity) : State :=
  if s.mode != .off && !s.wrstLow && d.source.toNat ≤ 2 && (sev == .fatal || sev == .containment) then s.updFw (fun x => { x with paused := true })
  else s

/-- One detector's message: shadowed, merged, or graded and stored, with its reaction. -/
def State.collectOne (s : State) (d : Detection) : State :=
  let s := s.spendPoint d
  if s.shadowed d then ((s.storeRecord d .note true false).1).overflow
  else
    let live := s.fault.records.filter (fun r => recEscalates r d)
    match live.find? (·.escalated) with
    | some e =>
      (s.updFault (fun x => { x with
        records := x.records.map (fun r => if r.index = e.index then { r with occurrences := BitVec.ofNat 16 (satAdd 16 r.occurrences.toNat 1) } else r) })).react
          d e.severity
    | none =>
      let base := s.severityOf d.source d.kind
      let sev := if live.isEmpty then base else raisedSeverity base
      let (s, stored) := (s.stopMgt d sev).storeRecord d sev false (!live.isEmpty)
      let s := if stored then s.pulse sev else s
      (s.react d sev).overflow

/-- The Collector takes what has arrived, in order. [DESIGN CHOICE: log 22] -/
def collectLoop : Nat → State → State
  | 0, s => s
  | n + 1, s =>
    match s.fault.inbox with
    | [] => s
    | d :: rest => collectLoop n ((s.updFault (fun x => { x with inbox := rest })).collectOne d)

/-- Everything that the detectors have reported in a command is collected before the next command. [DESIGN CHOICE: log 22] -/
def State.collect (s : State) : State := collectLoop 8192 s

/-! ## What ends (R420, R423, R426) -/

/-- A port of a reaction is back in service: a reassignment that waited begins (Table 12.9). [DEDUCED: log 39] -/
def State.portReturned (s : State) (p : Port) : State :=
  if (s.ports.get p).reacting then
    let s := s.updPort p (fun x => { x with reacting := false })
    if (s.ports.get p).pendMove.isSome then s.drainThen p .moved (fun x => x) else s
  else s

/-- The automatic return from Held, at most three in 600 s (R59, Table 2.9). `aged` of those counted have left that time. [DESIGN CHOICE: log 37] -/
def State.holdReturn (s : State) (k : Part) (aged : Nat) : State :=
  let s := s.updPart k (fun x => { x with reacting := false, recoveries := x.recoveries - aged })
  let x := s.parts.get k
  if x.st = .held && !x.safeMarked && x.cfg.autoRecover && x.recoveries < 3 then
    (s.updPart k (fun x => { x with st := .chargeOnly, recoveries := x.recoveries + 1 })).evalPresent k
  else s

/-- Management firmware runs again after MGT_RESTART; without its retained copy every session closes (R425). -/
def State.mgtBack (s : State) (intact : Bool) : State :=
  let s := (s.updFault (fun x => { x with mgtRestarting := false })).updFw (fun x => { x with retainedIntact := intact })
  let s := if intact then s else forAll ((List.finRange 19).filter (fun i => (s.sessions.get i).isOpen)) (fun s i => s.closeSession i) s
  s.pauseEnd

/-- A containment reaction's objects have returned to service (R423); its shadow has 10 µs left (R420). [DESIGN CHOICE: log 37] -/
def State.reactionDone (s : State) (r : Reaction) (aged : Nat) (intact : Bool) : State :=
  if !s.fault.running.contains r then s
  else
    let s := s.updFault (fun x => { x with
      running := x.running.erase r
      shadows := x.shadows.map (fun (y : Shadow) => if y.reaction = r then { y with ending := true } else y) })
    let s := forAll (reactionPorts r) (fun s p => s.portReturned p) s
    match r with
    | .portDieReset d => s.portLinkReturn d
    | .powerDieReset d => s.powerLinkResume d
    | .partitionHold k => s.holdReturn k aged
    | .mgtRestart => s.mgtBack intact
    | _ => s

/-- 10 µs after a reset has ended its shadow is lifted (R420). -/
def State.shadowEnd (s : State) (r : Reaction) : State :=
  s.updFault (fun x => { x with shadows := x.shadows.filter (fun y => !(y.ending && y.reaction == r)) })

/-- The restarted image serves Safe Hold (R426); a pause of activation that it fell into ends in rollback. -/
def State.safeHoldServed (s : State) : State :=
  if !s.fault.safeHoldRestart then s
  else
    let s := s.updFault (fun x => { x with
      safeHoldRestart := false, shadows := x.shadows.map (fun (y : Shadow) => if y.reaction = .mgtRestart then { y with ending := true } else y) })
    if s.inActivationPause then (s.updFault (fun x => { x with mgtRestarting := true })).activationEnd else s.pauseEnd

/-- The management watchdog expires (R425). [DEDUCED: log 4] -/
def State.watchdogExpiry (s : State) : State :=
  if s.fault.watchdogOn && s.mgtUp && !s.fault.mgtRestarting && !s.fault.safeHoldRestart then
    s.report { source := 0x001, kind := 0x21, info := 250, injected := (s.armed 0x001 0x21).isSome }
  else s

end Sys2Proof.Machine
end

