-- ==== Sys2Proof/Machine/Package.lean ====
section
/-! DEFINITION. The ball map of the package and the boundary-scan chain (R432–R440, R447). -/

namespace Sys2Proof.Machine

open Sys2Proof

/-! ## Balls -/

/-- The eight SuperSpeed balls of a port, in the order of Table 13.3. -/
inductive SsPin where
  | tx1p
  | tx1n
  | tx2p
  | tx2n
  | rx1p
  | rx1n
  | rx2p
  | rx2n
deriving DecidableEq, Repr

/-- The balls of an upstream port. -/
inductive UpPin where
  | ss (x : SsPin)
  | dp
  | dm
  | cc1
  | cc2
deriving DecidableEq, Repr

/-- The balls of a downstream port; SuperSpeed and SBU balls on SuperSpeed-capable ports alone. -/
inductive DnPin where
  | ss (x : SsPin)
  | dp
  | dm
  | cc1
  | cc2
  | sbu1
  | sbu2
deriving DecidableEq, Repr

/-- The balls of a Slot Power Controller, in the row order of R435. -/
inductive SpcPin where
  | vin
  | snsp
  | snsn
  | gate
  | vout
  | pgd
  | seatN
deriving DecidableEq, Repr

/-- The balls of a port power chain. -/
inductive PpcPin where
  | clk
  | lat
  | dout
  | din
deriving DecidableEq, Repr

/-- The system balls of the middle area (Table 13.5). -/
inductive SysPin where
  | xin
  | xout
  | refclkP
  | refclkN
  | axin
  | axout
  | gpio (n : Fin 16)
  | tck
  | tms
  | tdi
  | tdo
  | trstN
  | porstN
  | wrstN
  | faultN
  | wakeN
  | alertN
  | bootsel0
  | bootsel1
  | testmode
  | ospiSck
  | ospiCsN
  | ospiMosi
  | ospiMiso
  | smbScl
  | smbSda
  | avsSdata
  | avsClk
  | avsMdata
  | qspiClk
  | qspiCsN
  | qspiIo (n : Fin 4)
deriving DecidableEq, Repr

/-- The supplies and ground (Table 13.8). -/
inductive Supply where
  | vss
  | vddCore
  | vddSram
  | vddPt
  | vddaHs33
  | vddaHs18
  | vddSs
  | vddIo
  | v5Cc
  | vaon
deriving DecidableEq, Repr

/-- A ball of the package: `hsrext` of port die `d`, `back` its return. -/
inductive Ball where
  | dn (p : Port) (x : DnPin)
  | up (k : Part) (x : UpPin)
  | spc (k : Slot) (x : SpcPin)
  | ppc (k : Slot) (x : PpcPin)
  | sys (x : SysPin)
  | hsrext (d : Fin 2) (back : Bool)
  | supply (x : Supply)
deriving DecidableEq, Repr

/-- Ground. -/
def ground : Ball := .supply .vss

/-! ## The regions (R434–R438) -/

/-- Bands T and B (R434). -/
def bandPortDie (r c : Nat) : Ball :=
  let top := r ≤ 16
  if c = 37 then
    (if r = 16 then .hsrext 0 false else if r = 15 then .hsrext 0 true else if r = 58 then .hsrext 1 false else if r = 59 then .hsrext 1 true else ground)
  else
    let u := if c ≤ 36 then c - 13 else c - 14
    let p : Port := Fin.ofNat 512 (if top then 16 * (r - 1) + u / 3 else 256 + 16 * (73 - r) + u / 3)
    if u % 3 = 0 then .dn p .dp else if u % 3 = 1 then .dn p .dm else ground

/-- The signals of a Slot Power Controller in rows 34–40 (R435). -/
def spcRow (r : Nat) : SpcPin :=
  match r with
  | 34 => .vin
  | 35 => .snsp
  | 36 => .snsn
  | 37 => .gate
  | 38 => .vout
  | 39 => .pgd
  | _ => .seatN

/-- Bands L and R (R435); in band R the column is counted from the right. -/
def bandPowerDie (right : Bool) (r c : Nat) : Ball :=
  let s := (c - 1) / 3
  let g := (c - 1) % 3
  if g = 2 || r = 33 || r = 41 then ground
  else if 34 ≤ r && r ≤ 40 then .spc (Fin.ofNat 16 ((if right then 8 else 0) + 2 * s + g)) (spcRow r)
  else
    let d := 4 * (if r ≤ 32 then r - 1 else r - 10) + s
    .dn (Fin.ofNat 512 ((if right then 256 else 0) + d)) (if g = 0 then .cc1 else .cc2)

/-- A SuperSpeed ball of a tile: row 0 or 2 of Table 13.3; none where the entry is VSS. -/
def tileSs (y x : Nat) : Option SsPin :=
  match y, x with
  | 0, 0 => some .tx1p
  | 0, 1 => some .tx1n
  | 0, 3 => some .tx2p
  | 0, 4 => some .tx2n
  | 2, 0 => some .rx1p
  | 2, 1 => some .rx1n
  | 2, 3 => some .rx2p
  | 2, 4 => some .rx2n
  | _, _ => none

/-- An entry of an upstream tile (Table 13.3). -/
def upTile (k : Part) (y x : Nat) : Ball :=
  match tileSs y x, y, x with
  | some p, _, _ => .up k (.ss p)
  | none, 3, 0 => .up k .dp
  | none, 3, 1 => .up k .dm
  | none, 3, 3 => .up k .cc1
  | none, 3, 4 => .up k .cc2
  | none, _, _ => ground

/-- An entry of a downstream tile (Table 13.3). -/
def dnTile (p : Port) (y x : Nat) : Ball :=
  match tileSs y x, y, x with
  | some q, _, _ => .dn p (.ss q)
  | none, 3, 0 => .dn p .sbu1
  | none, 3, 1 => .dn p .sbu2
  | none, 3, 3 => .supply .vddSs
  | none, 3, 4 => .supply .vddSs
  | none, _, _ => ground

/-- The strips (R436, Table 13.4). -/
def stripBall (top : Bool) (r c : Nat) : Ball :=
  if c = 37 then ground
  else
    let a := if c ≤ 36 then (c - 13) / 6 else 4 + (c - 38) / 6
    let x := if c ≤ 36 then (c - 13) % 6 else (c - 38) % 6
    let t := if top then (r - 17) / 4 else 2 - (r - 46) / 4
    let y := if top then (r - 17) % 4 else (r - 46) % 4
    let half := if top then 0 else 8
    if t = 0 then upTile (Fin.ofNat 16 (half + a)) y x
    else
      let i := 8 * (t - 1) + a
      dnTile (Fin.ofNat 512 (32 * (half + i / 2) + i % 2)) y x

/-- The chain balls of row 29 in their column order; row 45 runs the other way (Table 13.5). -/
def chainBall (k : Slot) (i : Nat) : Ball :=
  match i with
  | 0 => .ppc k .clk
  | 1 => .ppc k .lat
  | 2 => .ppc k .dout
  | 3 => .ppc k .din
  | _ => ground

/-- The entries of a list of system balls from a column on; `none` is VSS. -/
def sysAt (l : List (Option SysPin)) (i : Nat) : Ball := ((l.getD i none).map Ball.sys).getD ground

/-- The rails of the middle area where r + c is odd (Table 13.6). -/
def middleRail (r c : Nat) : Supply :=
  if r = 30 || r = 44 then .vddIo
  else if c ≤ 16 || 58 ≤ c then .v5Cc
  else if r = 31 || r = 43 then .vddPt
  else if r = 32 || r = 42 then (if c % 4 = 1 then .vddaHs33 else .vddaHs18)
  else if r = 33 || r = 41 then .vddSs
  else if r = 34 || r = 40 then (if c ≤ 21 then .vaon else .vddSram)
  else .vddCore

/-- The middle area (R437, R438). -/
def middleBall (r c : Nat) : Ball :=
  if r = 29 then
    (if c ≤ 52 then chainBall (Fin.ofNat 16 ((c - 13) / 5)) ((c - 13) % 5)
     else sysAt [some .xin, some .xout, none, some .refclkP, some .refclkN, none, some .axin, some .axout, none] (c - 53))
  else if r = 30 && c ≤ 28 then .sys (.gpio (Fin.ofNat 16 (c - 13)))
  else if r = 30 && c ≤ 33 then sysAt [some .tck, some .tms, some .tdi, some .tdo, some .trstN] (c - 29)
  else if r = 30 && 53 ≤ c then
    sysAt [some .porstN, some .wrstN, some .faultN, some .wakeN, some .alertN, some .bootsel0, some .bootsel1, some .testmode, none] (c - 53)
  else if r = 44 && c ≤ 21 then
    sysAt [some .ospiSck, none, some .ospiCsN, some .ospiMosi, some .ospiMiso, some .smbScl, some .smbSda, some .avsSdata, none] (c - 13)
  else if r = 45 && c ≤ 21 then
    sysAt [some .qspiClk, none, some .qspiCsN, some (.qspiIo 0), some (.qspiIo 1), some (.qspiIo 2), some (.qspiIo 3), some .avsClk, some .avsMdata]
      (c - 13)
  else if r = 45 then (if (c - 22) % 5 = 0 then ground else chainBall (Fin.ofNat 16 (15 - (c - 22) / 5)) (4 - (c - 22) % 5))
  else if (r + c) % 2 = 0 then ground
  else .supply (middleRail r c)

/-- The ball at a row and a column of the array; none outside it (R432, R433, Table 13.2). -/
def ballAt (r c : Nat) : Option Ball :=
  if r < 1 || 73 < r || c < 1 || 73 < c then none
  else if c ≤ 12 then some (bandPowerDie false r c)
  else if 62 ≤ c then some (bandPowerDie true r (74 - c))
  else if r ≤ 16 || 58 ≤ r then some (bandPortDie r c)
  else if r ≤ 28 then some (stripBall true r c)
  else if 46 ≤ r then some (stripBall false r c)
  else some (middleBall r c)

/-! ## The boundary-scan chain (R447) -/

/-- Whether a ball is of the 1.8 V CMOS or open-drain classes (Table 13.10) and none of the five JTAG balls. -/
def scanned : Ball → Bool
  | .ppc _ _ => true
  | .sys x => !([SysPin.xin, .xout, .refclkP, .refclkN, .axin, .axout, .tck, .tms, .tdi, .tdo, .trstN].contains x)
  | _ => false

/-- The balls of the chain in its order: ascending row, then ascending column. They lie in four rows of the middle area. -/
def scanChain : List Ball := [29, 30, 44, 45].flatMap (fun r => ((List.range 49).map (fun i => middleBall r (13 + i))).filter scanned)

/-- The cells that observe alone: PORST_N, WRST_N and TESTMODE. Cell i is the i-th of the chain. [PRESUMED: log 14] -/
def observeCells : BitVec 103 := (1#103 <<< 48) ||| (1#103 <<< 49) ||| (1#103 <<< 55)

/-- What the cells drive onto their balls: the observe-only ones nothing. -/
def drivenCells (x : BitVec 103) : BitVec 103 := x &&& ~~~observeCells

end Sys2Proof.Machine
end

