-- ==== Sys2Proof/Machine/Diag.lean ====
section
/-! DEFINITION. The diagnostic commands (R340, Table 11.14) and the boundary-scan TAP (R365, R447). -/

namespace Sys2Proof.Machine

open Sys2Proof

/-! ## DIAG commands -/

/-- What a DIAG command names: a downstream port, or an upstream port. [DEDUCED: log 75] -/
def diagSs : Target → Bool
  | .port p => ssCapable p
  | .upstream _ => true
  | _ => false

/-- Lanes of an object's SuperSpeed PHY: two upstream, one downstream. [DEDUCED: log 75] -/
def diagLanes : Target → Nat
  | .port p => if ssCapable p then 1 else 0
  | .upstream _ => 2
  | _ => 0

/-- DIAG_LOOPBACK: KIND 0 ends a loopback; the counts of a test are what the PHY measures. [DESIGN CHOICE: log 10] -/
def opDiagLoopback (m : VcpMsg) (t : Target) (s : State) : State × Reply :=
  let b := m.payload
  let kind := get8 b 0
  if b.length != 4 || 4 ≤ kind || byteAt b 1 != 0 || (2 ≤ kind && !diagSs t) then refuse s stBadArg
  else (s.tick, .done stOK ((List.range 16).map (fun i => Config.loopback s.freeCount i)))

/-- What a test pattern makes the block drive. -/
def State.testOn (s : State) (t : Target) (pattern : Byte) : State :=
  match t with
  | .port p => s.emit (.bus p (.testMode pattern))
  | .upstream k => s.emit (.upTest k pattern)
  | _ => s

/-- DIAG_PHY_TEST: a test selector 1–5, or a compliance pattern number up to 16, runs until pattern 0 ends it. [DEDUCED: log 75] -/
def opDiagPhyTest (m : VcpMsg) (t : Target) (s : State) : State × Reply :=
  let b := m.payload
  let side := get8 b 0
  let pattern := get8 b 1
  if b.length != 2 || 2 ≤ side || (if side = 0 then 5 else 16) < pattern || (side == 1 && !diagSs t) then refuse s stBadArg
  else
    let others := s.diag.filter (fun (x : DiagTest) => !(x.target == m.target && x.side.toNat == side))
    let mine : DiagTest := { target := m.target, side := byteAt b 0, pattern := byteAt b 1 }
    ok (({ s with diag := if pattern = 0 then others else others ++ [mine] }).testOn t (byteAt b 1))

/-- DIAG_EYE: an eye map of 32 by 31 points. [DESIGN CHOICE: log 10; DEDUCED: log 75] -/
def opDiagEye (m : VcpMsg) (t : Target) (s : State) : State × Reply :=
  let b := m.payload
  if b.length != 4 || diagLanes t ≤ get8 b 0 || byteAt b 1 != 0 then refuse s stBadArg
  else (s.tick, .done stOK ([32, 31, 0, 0] ++ (List.range 992).map (fun i => Config.eyePoint s.freeCount i)))

/-! ## The TAP -/

/-- IDCODE (R447). -/
def idcodeValue : BitVec 32 := 0x1851695B

/-- The bits of a register in the order they leave on TDO, least significant first. -/
def tdoBits {w : Nat} (x : BitVec w) : List Bool := (List.range w).map (fun i => x.getLsbD i)

/-- BYPASS: one bit between TDI and TDO, 0 at first. [PRESUMED: log 14] -/
def State.tapBypass (s : State) (tdi : List Bool) : State := { s with tap := .bypass }.emit (.tdo ((false :: tdi).take tdi.length))

/-- IDCODE. [PRESUMED: log 14] -/
def State.tapIdcode (s : State) : State := { s with tap := .idcode }.emit (.tdo (tdoBits idcodeValue))

/-- SAMPLE/PRELOAD: the balls are captured and shifted out while the cells' next values are shifted in. [PRESUMED: log 14] -/
def State.tapSample (s : State) (balls next : BitVec 103) : State := { s with tap := .samplePreload, scan := next }.emit (.tdo (tdoBits balls))

/-- EXTEST, with TESTMODE = 1 alone: the cells drive their balls, the balls are captured, and new cell values are shifted in. [PRESUMED: log 14; DEDUCED: log 75] -/
def State.tapExtest (s : State) (balls next : BitVec 103) : State :=
  if s.testmode then ({ s with tap := .extest, scan := next }.emits [.driven (drivenCells s.scan), .tdo (tdoBits balls), .driven (drivenCells next)]) else s

end Sys2Proof.Machine
end

