-- ==== Sys2Proof/Machine/Inject.lean ====
section
/-! DEFINITION. The fault commands and the injection points: FAULT_READ, FAULT_ACK, FAULT_SET_SEVERITY, FAULTPIN_CONTROL, FAULT_INJECT (R414, R417, R421, R429, Table 12.7), and detectors that no other command drives. -/

namespace Sys2Proof.Machine

open Sys2Proof

/-! ## FAULT_READ, FAULT_ACK, FAULT_SET_SEVERITY, FAULTPIN_CONTROL -/

/-- Whether a session may see a record: its own partition's bit, but for stewards (R414). -/
def State.seesRecord (s : State) (i : Sess) (r : FaultRec) : Bool := s.isSteward i || (i.val < 16 && r.partitions.getLsbD i.val)

/-- FAULT_READ (R414). -/
def opFaultRead (m : VcpMsg) (s : State) : State × Reply :=
  let b := m.payload
  let opts := get8 b 1
  let asked := get16 b 2
  let n := if asked = 0 then 42 else min asked 42
  if b.length != 8 || 4 < get8 b 0 || 2 ≤ opts then refuse s stBadArg
  else
    let l := (s.fault.records.filter (fun r =>
      get32 b 4 ≤ r.index.toNat && get8 b 0 ≤ severityCode r.severity && (opts == 0 || !r.acked) && s.seesRecord m.session r)).take n
    let next := (l.getLast?.map (fun r => r.index.toNat + 1)).getD (get32 b 4)
    (s, .done stOK ([BitVec.ofNat 8 l.length, 24, 0, 0] ++ le32 next ++ l.flatMap s.recordBytes))

/-- Whether a session may acknowledge a record: its own partition's bit and no other, but for stewards (R414). -/
def State.mayAck (s : State) (i : Sess) (r : FaultRec) : Bool := s.isSteward i || (i.val < 16 && r.partitions == 1#16 <<< i.val)

/-- FAULT_ACK (R414). -/
def opFaultAck (m : VcpMsg) (s : State) : State × Reply :=
  let b := m.payload
  let idx := get32 b 0
  let upTo := get8 b 4 == 1
  if b.length != 5 || 2 ≤ get8 b 4 then refuse s stBadArg
  else
    let hit := fun (r : FaultRec) => !r.acked && (r.index.toNat == idx || (upTo && r.index.toNat ≤ idx)) && s.mayAck m.session r
    let n := s.fault.records.countP hit
    ((s.updFault (fun x => { x with records := x.records.map (fun r => if hit r then { r with acked := true } else r) })).overflow,
      .done stOK (le32 n))

/-- FAULT_SET_SEVERITY (R417). -/
def opFaultSetSeverity (m : VcpMsg) (s : State) : State × Reply :=
  match s.setSeverity m.payload with
  | .ok t => ok t
  | .error e => refuse s e

/-- FAULTPIN_CONTROL (R421); at a RELEASE the released time of MIN_WIDTH comes before the pulses that wait. [DEDUCED: log 41] -/
def opFaultpinControl (m : VcpMsg) (s : State) : State × Reply :=
  if faultPinOk m.payload then
    let was := s.fault.pinHold
    let s := s.updFault (applyFaultPin m.payload)
    let s := s.updFault (fun x => { x with gap := x.gap || (was && !x.pinHold && !x.pulsing) })
    let x := s.fault
    (s, .done stOK ([BitVec.ofNat 8 (bnat x.pinHold), BitVec.ofNat 8 (severityCode x.threshold)] ++ le16 x.minWidth))
  else refuse s stBadArg

/-! ## Which points there are (Table 12.7) -/

/-- The trip kinds of Table 9.16. -/
def tripKinds : List Nat := [1, 2, 3, 4, 0x10, 0x11, 0x12]

/-- Whether a PARAMETER is one that Table 12.7 or Table 12.3a gives for a point. -/
def injectionParamOk (source kind v : Nat) : Bool :=
  if source = 0x000 then v ≤ 15
  else if source = 0x002 || source = 0x008 then true
  else if source = 0x007 then v ≤ 0x70
  else if source < 0x010 then v == 0
  else if source < 0x028 then v < 65536
  else if source < 0x034 then true
  else if source < 0x03A then v ≤ 1
  else if source < 0x110 then true
  else if source < 0x120 then v == 0
  else if source < 0x130 then v < 32
  else if source < 0x140 then if kind = 0x03 then 1 ≤ v && v ≤ 255 else v == 0
  else if source < 0x150 then v ≤ 32
  else if source < 0x160 then v == 0
  else if source < 0x170 then if kind = 0x50 then tripKinds.contains v else v == 0
  else if source < 0x180 then if kind = 0x52 then 1 ≤ v && v ≤ 1000 else v % 256 < 32 && v / 256 ≤ 2
  else if source < 0x260 then v ≤ 2
  else if source < 0x280 then v == 0
  else if source < 0x800 then v ≤ 2
  else v ≤ 255

/-- Whether a point's forcing lasts a time (R429, Table 12.7). [DEDUCED: log 40] -/
def injectionTimed (source : Nat) : Bool := (0x010 ≤ source && source < 0x034) || (0x400 ≤ source && source < 0x800)

/-- Whether the mode accepts a point (R429). -/
def State.injectionMode (s : State) (source kind : Nat) : Bool :=
  s.mode == .diagnostic || (!injectionBroad source kind && (s.mode == .noon || s.mode == .evening))

/-! ## What a point forces -/

/-- Run what a forced input does; the records of that source, or of that port's VBUS and thermal sources, carry INJECTED. -/
def State.forced (s : State) (source : Nat) (f : State → State) : State :=
  let n := s.fault.inbox.length
  let mine := fun (d : Detection) =>
    d.source.toNat == source || (0x400 ≤ source && source < 0x800 && 0x400 ≤ d.source.toNat && d.source.toNat < 0x800 &&
      d.source.toNat % 512 == source % 512)
  (f s).updFault (fun x =>
    { x with inbox := x.inbox.take n ++ (x.inbox.drop n).map (fun d => if mine d then { d with injected := true } else d) })

/-- A forced condition that the detector itself reports. -/
def State.forcedReport (s : State) (source kind info : Nat) : State :=
  s.report { source := BitVec.ofNat 12 source, kind := BitVec.ofNat 8 kind, info := BitVec.ofNat 32 info, injected := true }

/-- The condition of a trip kind at an SPC's inputs, which it then leaves again. -/
def State.forceTrip (s : State) (k : Slot) (kind : Nat) : State :=
  let x := s.slots.get k
  let c := x.cfg
  let vinBack := fun (s : State) => s.updSlot k (fun y => { y with vinLow := x.vinLow, vinHigh := x.vinHigh })
  match kind with
  | 1 => s.fastTrip k (15 * c.vcb / 2) true
  | 2 => s.breakerTrip k (5 * c.vcb / 2) true false
  | 3 => s.rampStall k true
  | 4 => s.pgLost k true
  | 0x10 => if gateOn x then vinBack (s.vinExit k 0 true) else s
  | 0x11 => if gateOn x then vinBack (s.vinExit k (100 * c.vinOv) true) else s
  | _ => if gateOn x then (s.seatHigh k true).seatLow k else s

/-- Every input pair of a chain reads invalid for some frames. -/
def State.forceChain (s : State) (k : Slot) (frames : Nat) : State :=
  forAll (List.replicate (min frames 4) ()) (fun s _ => s.judgeFrame k (zeros 32)) s

/-- One pair of one position reads with equal bits for three frames, on a chain that is UP. [DEDUCED: log 40] -/
def State.forceWire (s : State) (k : Slot) (v : Nat) : State :=
  let p := portAt k (Fin.ofNat 32 v)
  let i := v / 256
  let b := (s.vbus.get p).byte.toNat
  let b' := if bit b (2 * i) = bit b (2 * i + 1) then b else b ^^^ (2 ^ (2 * i + 1))
  if (s.chains.get k).st = .up then forAll [(), (), ()] (fun s _ => s.judgePort p (BitVec.ofNat 8 b') false) s else s

/-- OC, PGOOD lost or TWARN reported from a port (R319, R320). -/
def State.forceFlags (s : State) (p : Port) (v : Nat) : State :=
  let x := s.vbus.get p
  if (s.chains.get (slotOf p)).st != .up then s
  else if v = 0 then
    let s := s.updVbus p (fun x => { x with oc := { x.oc with value := true, valid := true, invalidRun := 0 } })
    if wordEn x.applied then s.holdPort p .oc else s
  else if v = 1 then (s.updVbus p (fun x => { x with pgood := { x.pgood with value := false, valid := true, invalidRun := 0 } })).pgoodLostTimeout p
  else
    let s := s.updVbus p (fun x => { x with twarn := { x.twarn with value := true, valid := true, invalidRun := 0 } })
    if x.twarn.value then s else s.detect (0x600 + p.val) 0x43 0

/-- The warning and failure levels of a rail in mV (Table 10.14); VDD_CORE's follow its confirmed voltage. -/
def State.railLevels (s : State) (r : Fin 8) : Nat × Nat :=
  match r.val with
  | 0 => (s.avs.confirmed - 30, s.avs.confirmed - 60)
  | 1 => (768, 736)
  | 2 => (768, 736)
  | 3 => (816, 782)
  | 4 => (1728, 1656)
  | 5 => (1728, 1656)
  | 6 => (3168, 3036)
  | _ => (4500, 4200)

/-- A rail reads a forced voltage for 10 ms. [DEDUCED: log 40] -/
def State.forceRail (s : State) (r : Fin 8) (mv : Nat) : State :=
  let (warn, fail) := s.railLevels r
  let s := if mv < fail then s.supplyFailure r mv else s
  if mv < warn then s.supplyWarning r mv else s

/-- A link is held out of the active state, or its frames dropped, for a time in µs. [DEDUCED: log 40] -/
def State.forceLink (s : State) (source us : Nat) : State :=
  let d : Fin 2 := Fin.ofNat 2 source
  if source < 0x032 then
    let s := s.portLinkRetrain d
    if 1000 ≤ us then s.portLinkFail d else s
  else if 100 ≤ us then s.powerLinkTimeout d
  else s

/-- One line of an alarm pair is forced, so that its two levels are equal; the pair then reads as before. -/
def State.forceAlarm (s : State) (i : Fin 6) (line : Nat) : State :=
  let was := s.alarms.get i
  let s := s.alarmLineFault i ((line == 0) != was.asserted)
  { s with alarms := s.alarms.put i was }

/-- A point that acts as soon as it is armed: what it does; none where it waits for its event or lasts a time. [DEDUCED: log 40] -/
def State.actNow (s : State) (source kind v : Nat) : Option State :=
  let k : Slot := Fin.ofNat 16 source
  let forced := fun (f : State → State) => some (s.forced source f)
  if source = 0x000 || source = 0x002 || (source = 0x007 && kind = 0x22) || source = 0x008 then some (s.forcedReport source kind v)
  else if source = 0x006 then (if s.clocks.refUsed then forced (fun s => s.refclkLoss) else none)
  else if source = 0x009 then some (s.forcedReport source kind s.fault.dropped)
  else if 0x034 ≤ source && source < 0x03A then
    if kind = 0x11 then forced (fun s => s.forceAlarm (Fin.ofNat 6 (source - 0x034)) v) else some s
  else if 0x100 ≤ source && source < 0x150 && kind = 0x22 then some (s.forcedReport source kind v)
  else if 0x130 ≤ source && source < 0x140 && kind = 0x03 then some (s.raiseTtBucket k v true)
  else if 0x160 ≤ source && source < 0x170 then
    if kind = 0x50 then forced (fun s => s.forceTrip k v) else forced (fun s => s.breakerTrip k (5 * (s.slots.get k).cfg.vcb / 2) true true)
  else if 0x170 ≤ source && source < 0x180 then
    if kind = 0x52 then forced (fun s => s.forceChain k v) else forced (fun s => s.forceWire k v)
  else if 0x800 ≤ source && kind = 0x61 then forced (fun s => s.babble (Fin.ofNat 512 source))
  else none

/-- What an armed point whose forcing lasts a time does from its start. -/
def State.beginForce (s : State) (source v : Nat) : State :=
  if source < 0x020 then s.forced source (fun s => s.sampleSensor (Fin.ofNat 16 source) 0)
  else if source < 0x028 then s.forced source (fun s => s.forceRail (Fin.ofNat 8 source) v)
  else if source < 0x034 then s.forced source (fun s => s.forceLink source v)
  else s.forced source (fun s => s.forceFlags (Fin.ofNat 512 source) v)

/-- FAULT_INJECT (R429). [DEDUCED: log 40] -/
def opFaultInject (m : VcpMsg) (s : State) : State × Reply :=
  let b := m.payload
  let source := get16 b 0
  let kind := get8 b 2
  let v := get32 b 4
  if b.length != 8 || byteAt b 3 != 0 || 4096 ≤ source || (faultRow source kind).isNone || !injectionParamOk source kind v then refuse s stBadArg
  else if (s.armed source kind).isSome then refuse s stBusy
  else if !s.injectionMode source kind then refuse s stNotInMode
  else match s.actNow source kind v with
    | some t => ok t
    | none =>
      let i : Injection :=
        { source := BitVec.ofNat 12 source, kind := BitVec.ofNat 8 kind, parameter := BitVec.ofNat 32 v, timed := injectionTimed source }
      let s := s.updFault (fun x => { x with injections := x.injections ++ [i] })
      ok (if i.timed then s.beginForce source v else s)

/-! ## How a point ends -/

/-- What a forcing that lasted a time leaves behind. [DEDUCED: log 40] -/
def State.endForce (s : State) (source : Nat) : State :=
  let d : Fin 2 := Fin.ofNat 2 source
  if source < 0x020 then s
  else if source < 0x028 then
    { s with rails := s.rails.upd (Fin.ofNat 8 source) (fun x => { x with low := false, failed := false }) }.causesCleared false true
  else if source < 0x032 then (if s.fault.running.contains (.portDieReset d) then s else s.portLinkReturn d)
  else if source < 0x034 then (if s.fault.running.contains (.powerDieReset d) then s else s.powerLinkResume d)
  else s

/-- INJECTION_DURATION_END: a sensor that read 115 °C or more for the 10 ms is reported first (R355). -/
def State.injectionEnds (s : State) (source : BitVec 12) (kind : Byte) : State :=
  match s.fault.injections.find? (fun i => i.source == source && i.kind == kind && i.timed) with
  | none => s
  | some i =>
    let n := source.toNat
    let s := if 0x010 ≤ n && n < 0x020 then s.forced n (fun s => s.thermalCritical (Fin.ofNat 16 n)) else s
    (s.spend i).endForce n

/-- INJECTION_ARM_TIMEOUT: 60 s without its event. -/
def State.injectionLapses (s : State) (source : BitVec 12) (kind : Byte) : State :=
  s.updFault (fun x => { x with injections := x.injections.filter (fun i => i.timed || i.source != source || i.kind != kind) })

/-! ## Detectors that no other command drives (R411) -/

/-- A packet of an endpoint is lost: the endpoint is poisoned (R169, R170). [DEDUCED: log 35] -/
def State.losePacket (s : State) (p : Port) (a src : Byte) : State :=
  if a = 0 then (if s.liftPresented p then s.poisonEp0 p src else s) else s.poisonCtx p a src

/-- The oldest entry of a translator is discarded: its complete-split is answered as a bus error (R246). [DEDUCED: log 35] -/
def ttLose : List TtEntry → List TtEntry
  | [] => []
  | e :: rest => { e with sent := true, lost := true, bytes := [], check := [] } :: rest

/-- What a detector's condition does whatever its severity, where it does not report itself (Table 12.3). [DEDUCED: log 35] -/
def State.inherent (s : State) (source : Nat) (kind : Nat) (info : Nat) (place : Option (Port × Byte)) : State :=
  let k : Slot := Fin.ofNat 16 source
  if source = 0x007 && kind = 0x01 then
    match place with
    | some (p, a) => s.losePacket p a 0x01
    | none => s
  else if 0x130 ≤ source && source < 0x140 && kind = 0x01 then s.updPort (portAt k (Fin.ofNat 32 info)) (fun x => { x with tt := ttLose x.tt })
  else if 0x130 ≤ source && source < 0x140 && kind = 0x03 then { s with ttBucket := s.ttBucket.put k (max (s.ttBucket.get k) (min 255 info)) }
  else if 0x150 ≤ source && source < 0x160 then s.flushPd k
  else s

/-- A detector reports (DETECTOR_MESSAGE). A lost packet and a babbling port report what they do themselves. [DEDUCED: log 35] -/
def State.detectorReports (s : State) (source : BitVec 12) (kind : Byte) (info : BitVec 32) (inj : Bool) (place : Option (Port × Byte)) : State :=
  let n := source.toNat
  let p : Port := Fin.ofNat 512 n
  let f := fun (s : State) =>
    if 0x800 ≤ n && n < 0xA00 && kind = 0x60 then s.losePacket p (info.setWidth 8) ((info >>> 8).setWidth 8)
    else if 0x800 ≤ n && n < 0xA00 && kind = 0x61 then s.babble p
    else (s.report { source, kind, info, injected := inj }).inherent n kind.toNat info.toNat place
  if inj then s.forced n f else f s

/-- DETECTOR_MESSAGE: a forced report comes only from an armed point, which an event then leaves disarmed; a fabric point names the
packet it corrupts by its parameter (Table 12.7). [DEDUCED: log 35] -/
def State.detectorMessage (s : State) (source : BitVec 12) (kind : Byte) (info : BitVec 32) (inj : Bool) (place : Option (Port × Byte)) : State :=
  if inj then
    match s.armed source.toNat kind.toNat with
    | some i =>
      if source.toNat = 0x007 && i.parameter != info then s
      else (if i.timed then s else s.spend i).detectorReports source kind info true place
    | none => s
  else s.detectorReports source kind info false place

end Sys2Proof.Machine
end

