-- ==== Sys2Proof/Machine/Vcp.lean ====
section
/-! DEFINITION. VCP sessions: the command table, sequence numbers, scope, objects, execution, and the session commands (R370–R385, R394–R396, Tables 11.3–11.5, 11.10). -/

namespace Sys2Proof.Machine

open Sys2Proof

/-! ## Session commands (Table 11.10) -/

/-- The version of the running image. -/
def State.fwVersion (s : State) : BitVec 32 :=
  match s.fw.running with
  | some i => BitVec.ofNat 32 (versionOf (slice (s.fw.area (slotArea i)) 0 512))
  | none => Config.noVersion

/-- HELLO with GRANT or REVOKE (R378). -/
def opHelloGrant (m : VcpMsg) (k : Part) (s : State) : State × Reply :=
  let b := m.payload
  let op := get8 b 0
  if s.fw.bootFailed then refuse s stOffline
  else if b.length != 6 || byteAt b 1 != 1 || !zeroSlice b 2 2 || get16 b 4 &&& 0xFC07 != 0 then refuse s stBadArg
  else
    ok (s.updSession (mfSession k) (fun x => { x with grant := op == 2 && x.isOpen, pendingGrant := op == 2 && !x.isOpen }))

/-- RESYNC (R385). [DEDUCED: log 68] -/
def opResync (m : VcpMsg) (s : State) : State × Reply :=
  let b := m.payload
  let x := s.sessions.get m.session
  let oldest := (x.ring.head?.map (·.eseq)).getD x.nextEseq
  if b.length != 8 || 2 ≤ get8 b 0 || !zeroSlice b 1 3 then refuse s stBadArg
  else
    let off := (bits32 b 4 - oldest).toNat
    let first := if 2 ^ 31 ≤ off then 0 else off
    let s := if get8 b 0 = 1 then
        s.updSession m.session (fun x => { x with ring := x.ring.mapIdx (fun i e => if first ≤ i && e.sent then { e with again := true } else e) })
      else s
    (s, .done stOK (le32 x.lastCseq.toNat ++ le32 oldest.toNat ++ le32 (x.nextEseq - 1).toNat ++ le32 x.lastAcked.toNat ++ le32 x.lostCount.toNat))

/-- EVENT_ACK (R383). [DEDUCED: log 68] -/
def opEventAck (m : VcpMsg) (s : State) : State × Reply :=
  let e := bits32 m.payload 0
  let x := s.sessions.get m.session
  if m.payload.length != 4 || 2 ^ 31 ≤ (x.nextEseq - 1 - e).toNat then refuse s stBadArg
  else
    let rest := x.ring.dropWhile (fun r => (e - r.eseq).toNat < 2 ^ 31)
    ok (s.updSession m.session (fun x => { x with ring := rest, lastAcked := if rest.length = x.ring.length then x.lastAcked else e }))

/-- CLOSE: answered, then the session closes (R377). -/
def opClose (m : VcpMsg) (s : State) : State × Reply :=
  if !m.payload.isEmpty then refuse s stBadArg
  else
    let r : Rsp := { opcode := 0x0004, status := stOK, cseq := m.cseq, target := m.target, more := false, payload := [] }
    ((s.respond m.session r).closeSession m.session, .answered)

/-- GET_INFO (Table 11.10). [DESIGN CHOICE: log 8, 9] -/
def opGetInfo (m : VcpMsg) (s : State) : State × Reply :=
  if !m.payload.isEmpty then refuse s stBadArg
  else
    let x := s.fw
    let flags := bnat x.recordLoaded.isSome + 2 * bnat s.clocks.refSelect + 4 * bnat s.clocks.axin
    let record := match x.recordLoaded with
      | some c => let h := slice (x.area (copyArea c)) 0 512
                  le32 (versionOf h) ++ le32 x.securityFloor ++ sha384 h
      | none => (List.range 4).map Config.noRecord ++ le32 x.securityFloor ++ (List.range 48).map (fun i => Config.noRecord (4 + i))
    (s, .done stOK (le64 Config.uniqueId.toNat ++ le16 s.vendorId.toNat ++ le16 0x8516 ++
      [0xB0, (x.running.map (fun i => BitVec.ofNat 8 i.val)).getD Config.noSlot, BitVec.ofNat 8 flags, 0] ++ le32 s.fwVersion.toNat ++
      le32 Config.bootRomVersion.toNat ++ record))

/-- A mask of partitions or slots. -/
def mask16 (f : Fin 16 → Bool) : BitVec 16 := partMask ((List.finRange 16).filter f)

/-- The highest severity of an unacknowledged record. -/
def State.maxUnacked (s : State) : Nat :=
  (s.fault.records.filter (fun r => !r.acked)).foldl (fun n r => max n (severityCode r.severity)) 0

/-- GET_STATUS (Table 11.10). [DESIGN CHOICE: log 7] -/
def opGetStatus (m : VcpMsg) (s : State) : State × Reply :=
  if !m.payload.isEmpty then refuse s stBadArg
  else
    (s.tick, .done stOK ([BitVec.ofNat 8 (opModeCode s.mode), (s.queue.map (fun r => BitVec.ofNat 8 (goalCode r.goal))).getD 0xFF] ++
      le16 (mask16 (fun k => (s.parts.get k).st == .connected)).toNat ++ le16 (mask16 (fun k => (s.parts.get k).st == .held)).toNat ++
      le16 (mask16 (fun k => (s.slots.get k).st == .on)).toNat ++ le16 (mask16 (fun k => (s.slots.get k).st == .latched)).toNat ++
      le16 (s.fault.records.countP (fun r => !r.acked)) ++ [BitVec.ofNat 8 s.maxUnacked, BitVec.ofNat 8 (eveBits s.eve), 0, 0] ++
      le32 (Config.uptime s.freeCount).toNat))

/-! ## The command table (Tables 11.10–11.14) -/

/-- The scopes of R379. -/
inductive CmdScope where
  | any
  | own
  | steward
deriving DecidableEq, Repr

/-- A row of the command tables: opcode, scope, the targets it takes, what it does. -/
structure CmdRow where
  opcode : Nat
  scope : CmdScope
  fits : Target → Bool
  run : VcpMsg → Target → State → State × Reply

/-- The device as the target. -/
def isDevice : Target → Bool
  | .device => true
  | _ => false
/-- A port as the target. -/
def isPort : Target → Bool
  | .port _ => true
  | _ => false
/-- A partition as the target. -/
def isPartition : Target → Bool
  | .partition _ => true
  | _ => false
/-- A slot as the target. -/
def isSlot : Target → Bool
  | .slot _ => true
  | _ => false
/-- A bank as the target. -/
def isBank : Target → Bool
  | .bank _ => true
  | _ => false
/-- An upstream port as the target. -/
def isUpstream : Target → Bool
  | .upstream _ => true
  | _ => false

/-- A command of the device as a whole. -/
def onDevice (opcode : Nat) (scope : CmdScope) (f : VcpMsg → State → State × Reply) : CmdRow :=
  { opcode, scope, fits := isDevice, run := fun m _ s => f m s }

/-- A command of a port. -/
def onPort (opcode : Nat) (f : VcpMsg → Port → State → State × Reply) : CmdRow :=
  { opcode, scope := .own, fits := isPort, run := fun m t s => match t with
    | .port p => f m p s
    | _ => refuse s stBadArg }

/-- A command of a partition. -/
def onPart (opcode : Nat) (f : VcpMsg → Part → State → State × Reply) : CmdRow :=
  { opcode, scope := .own, fits := isPartition, run := fun m t s => match t with
    | .partition k => f m k s
    | _ => refuse s stBadArg }

/-- A command of a slot. -/
def onSlot (opcode : Nat) (scope : CmdScope) (f : VcpMsg → Slot → State → State × Reply) : CmdRow :=
  { opcode, scope, fits := isSlot, run := fun m t s => match t with
    | .slot k => f m k s
    | _ => refuse s stBadArg }

/-- A command of a bank. -/
def onBank (opcode : Nat) (scope : CmdScope) (f : VcpMsg → Bank → State → State × Reply) : CmdRow :=
  { opcode, scope, fits := isBank, run := fun m t s => match t with
    | .bank b => f m b s
    | _ => refuse s stBadArg }

/-- PPC_GET of a slot or a port; a partition-scoped session sees its own ports only. -/
def runPpcGet (m : VcpMsg) (t : Target) (s : State) : State × Reply :=
  match t with
  | .slot k => opPpcGet m k none s
  | .port p => opPpcGet m (slotOf p) (some p) s
  | _ => refuse s stBadArg

/-- The session and identity commands; HELLO with OPEN or FORCE_OPEN has its own rules (R376). -/
def sessionCmds : List CmdRow :=
  [{ opcode := 0x0001, scope := .steward, fits := isPartition, run := fun m t s => match t with
      | .partition k => opHelloGrant m k s
      | _ => refuse s stBadArg },
   onDevice 0x0002 .any opResync, onDevice 0x0003 .any opEventAck, onDevice 0x0004 .any opClose, onDevice 0x0101 .any opGetInfo,
   onDevice 0x0102 .any opGetStatus, onDevice 0x0103 .any opGetTemps]

/-- The partition and port commands. -/
def portCmds : List CmdRow :=
  [onPart 0x0201 opPartGet, { onPort 0x0202 opPartAssignPort with scope := .steward }, onPart 0x0203 opPartSetLimits, onPart 0x0204 opPartConnect,
   onPart 0x0205 opPartDisconnect, onPort 0x0301 opPortGet, onPort 0x0302 opPortSetMode, onPort 0x0303 opPortReset, onPort 0x0304 opPortQuench,
   onPort 0x0305 opPortRelease, onPort 0x0306 opPortSetBc]

/-- The Lift and Type-C/PD commands. -/
def liftPdCmds : List CmdRow :=
  [onPart 0x0401 opLiftGetPolicy, onPart 0x0402 opLiftSetClasslist, onPort 0x0403 opLiftSetEpBoundary, onPort 0x0404 opLiftGetEpStats,
   onPort 0x0405 opLiftClearPoison, onPort 0x0501 opPdSetOffer, onPort 0x0502 opPdSend, onPort 0x0503 opPdSetAutoresp, onPort 0x0504 opPdHardReset,
   onPort 0x0505 opCcSetRp, onPort 0x0506 opSbuSetRoute, onPort 0x0507 opPdSetTimers]

/-- The power and mode commands. -/
def powerCmds : List CmdRow :=
  [onSlot 0x0601 .own opSlotGet, onSlot 0x0602 .steward opSlotSetLimits, onSlot 0x0603 .steward opSlotEnable,
   onSlot 0x0604 .steward opSlotClearLatch, onPort 0x0605 opVbusSet,
   { opcode := 0x0606, scope := .own, fits := fun t => isSlot t || isPort t, run := runPpcGet },
   onDevice 0x0701 .any opModeGet, onDevice 0x0702 .steward opModeRequest, onPart 0x0703 opLatBudgetSet, onDevice 0x0704 .steward opWakeSourcesSet,
   onDevice 0x0705 .any opAvsGet]

/-- The memory, fault, firmware and diagnostic commands. -/
def deviceCmds : List CmdRow :=
  let diag := fun (t : Target) => isPort t || isUpstream t
  [onBank 0x0801 .any opPbmGetStats, onDevice 0x0802 .steward opPbmSetScrub, onBank 0x0803 .steward opPbmRetire,
   onBank 0x0804 .steward opPbmFlipmask, onDevice 0x0901 .own opFaultRead, onDevice 0x0902 .own opFaultAck,
   onDevice 0x0903 .steward opFaultSetSeverity, onDevice 0x0904 .steward opFaultInject, onDevice 0x0905 .steward opFaultpinControl,
   onDevice 0x0A01 .any opFwGet, onDevice 0x0A02 .steward opFwStageBegin, onDevice 0x0A03 .steward opFwStageData,
   onDevice 0x0A04 .steward opFwStageCommit, onDevice 0x0A05 .steward opFwActivate,
   { opcode := 0x0B01, scope := .steward, fits := diag, run := opDiagLoopback },
   { opcode := 0x0B02, scope := .steward, fits := diag, run := opDiagPhyTest },
   { opcode := 0x0B03, scope := .steward, fits := diag, run := opDiagEye }]

/-- Every command of Tables 11.10–11.14. -/
def cmdTable : List CmdRow := sessionCmds ++ portCmds ++ liftPdCmds ++ powerCmds ++ deviceCmds

/-- The row of an opcode. -/
def cmdRow (opcode : BitVec 16) : Option CmdRow := cmdTable.find? (fun r => r.opcode == opcode.toNat)

/-! ## Whether a command may execute (R10, R370, R373, R379, R342, R344, R350, R396) -/

/-- What a partition-scoped session may name: its partition, ports assigned to it, slots that hold one of those (R379). -/
def State.ownTarget (s : State) (i : Sess) (t : Target) : Bool :=
  match t with
  | .device => true
  | .partition k => mfSession k == i
  | .upstream k => mfSession k == i
  | .port p => mfSession (s.partOf.get p) == i
  | .slot k => (s.partsOfSlot k).any (fun q => mfSession q == i)
  | .bank _ => false

/-- Whether a session's scope covers a command (R379). -/
def State.inScope (s : State) (i : Sess) (r : CmdRow) (t : Target) : Bool :=
  match r.scope with
  | .any => true
  | .own => s.isSteward i || s.ownTarget i t
  | .steward => s.isSteward i

/-- The commands of a boot-failed hold (R344). -/
def bootRomServes (opcode : Nat) : Bool :=
  [0x0001, 0x0002, 0x0003, 0x0004, 0x0101, 0x0102, 0x0901, 0x0902, 0x0A01, 0x0A02, 0x0A03, 0x0A04, 0x0702].contains opcode

/-- Whether the mode admits a command (R241, R396); FW_ACTIVATE judges itself. -/
def State.modeAdmits (s : State) (opcode : Nat) : Bool :=
  if opcode = 0x0804 then s.mode == .noon || s.mode == .evening || s.mode == .diagnostic
  else if opcode / 256 = 0x0B then s.mode == .diagnostic
  else true

/-- The domain whose block a command reaches: the port's HSG, LIFT, the bank's quarter (R350). [DEDUCED: log 33] -/
def neededDomain (opcode : Nat) (t : Target) : Option (Fin 25) :=
  match t with
  | .port p =>
    if 0x0302 ≤ opcode && opcode ≤ 0x0306 then some ⟨9 + (slotOf p).val, by omega⟩
    else if 0x0403 ≤ opcode && opcode ≤ 0x0405 then some 2
    else none
  | .bank b => some (quarterDom (quarterOf b))
  | _ => none

/-- Whether the wake of a domain is forbidden: NOWAKE, Dusk, a state the mode fixes, or in Safe Hold a reaction that holds it (R350). [DEDUCED: log 33] -/
def State.wakeForbidden (s : State) (nowake : Bool) (d : Fin 25) : Bool :=
  let fixed := match s.ruleNow d with
    | .toState _ => true
    | _ => false
  nowake || s.mode == .dusk || fixed ||
    (s.mode == .safeHold && 9 ≤ d.val && s.fault.running.contains (.portDieReset (dieOfSlot (hsgSlot d))))

/-- Why a command is not executed; none where it is. The order: malformed, opcode, Safe Hold, target, scope, mode, domain. [DEDUCED: log 24] -/
def State.objection (s : State) (c : Cmd) : Option Byte :=
  let m := c.msg
  let op := c.opcode.toNat
  match c.bad with
  | some st => some st
  | none =>
    if 1024 < m.payload.length then some stTooBig
    else match cmdRow c.opcode with
      | none => some stUnsupported
      | some r =>
        if 4 ≤ m.flags.toNat || m.status != 0 then some stBadArg
        else if s.mode == .safeHold && !isOob m.session then some stOffline
        else if s.fw.bootFailed && !bootRomServes op then some stOffline
        else match decodeTarget m.target with
          | none => some stBadArg
          | some t =>
            if !r.fits t then some stBadArg
            else if !s.inScope m.session r t then some stDenied
            else if !s.modeAdmits op then some stNotInMode
            else match neededDomain op t with
              | some d => if s.domains.get d != .on && s.wakeForbidden (m.flags.getLsbD 0) d then some stOffline else none
              | none => none

/-! ## Execution (R374, R381, R394) -/

/-- The command's final response. -/
def finalRsp (c : Cmd) (status : Byte) (payload : List Byte) : Rsp :=
  { opcode := c.opcode, status, cseq := c.msg.cseq, target := c.msg.target, more := false, payload }

/-- Send a final response, and keep it where the command is the stored one. -/
def State.finishCmd (s : State) (c : Cmd) (stored : Bool) (r : Rsp) : State :=
  let s := if stored then s.updSession c.msg.session (fun x => { x with stored := x.stored.map (fun t => { t with response := some r }) }) else s
  s.respond c.msg.session r

/-- What a command's execution gave becomes its responses or its wait. -/
def State.takeReply (s : State) (c : Cmd) (stored : Bool) : Reply → State
  | .done status payload => s.finishCmd c stored (finalRsp c status payload)
  | .parts l =>
    let s := forAll l.dropLast (fun s b => s.respond c.msg.session { finalRsp c stOK b with more := true }) s
    s.finishCmd c stored (finalRsp c stOK (l.getLast?.getD []))
  | .wait w => s.updSession c.msg.session (fun x => { x with executing := some (c, w) })
  | .answered => s

/-- Whether a reply says that the command was not executed. -/
def Reply.refused : Reply → Bool
  | .done st _ => st != stOK && st != stDeferred
  | _ => false

/-- The interim response of ACKREQ (R371). -/
def State.interim (s : State) (c : Cmd) : State :=
  if c.msg.flags.getLsbD 1 then s.respond c.msg.session { finalRsp c stOK [] with more := true } else s

/-- A domain that a command needs is woken (R350). [DESIGN CHOICE: log 21; DEDUCED: log 33] -/
def State.wakeFor (s : State) (op : Nat) (t : Target) : State :=
  match neededDomain op t with
  | some d => if s.domains.get d = .on then s else (s.workArrives (· == d)).riseDomain d
  | none => s

/-- Run a command that nothing objects to. One that is refused wakes no domain (R374). -/
def State.runOp (s : State) (c : Cmd) : State × Reply :=
  match cmdRow c.opcode, decodeTarget c.msg.target with
  | some r, some t =>
    let woken := s.wakeFor c.opcode.toNat t
    let first := r.run c.msg t woken
    if first.2.refused then
      let dry := r.run c.msg t s
      if dry.2.refused then dry else (s, first.2)
    else r.run c.msg t (woken.interim c)
  | _, _ => (s, .done stUnsupported [])

/-- Execute a command, or answer why not. -/
def State.execute (s : State) (c : Cmd) (stored : Bool) : State :=
  match s.objection c with
  | some st => s.finishCmd c stored (finalRsp c st [])
  | none =>
    let (s, r) := s.runOp c
    s.takeReply c stored r

/-- The command becomes the session's stored command, and LAST_CSEQ names it (R381). [DEDUCED: log 25] -/
def State.consume (s : State) (c : Cmd) : State :=
  s.updSession c.msg.session (fun x =>
    { x with lastCseq := c.msg.cseq, stored := some { opcode := c.opcode, length := c.msg.payload.length, response := none } })

/-- The operation of a HELLO that opens: 0 OPEN, 1 FORCE_OPEN. [DEDUCED: log 25] -/
def cmdOpens (c : Cmd) : Option Bool :=
  if c.opcode = 0x0001 then (if get8 c.msg.payload 0 = 0 then some false else if get8 c.msg.payload 0 = 1 then some true else none) else none

/-- Why a HELLO that opens is not executed. [DEDUCED: log 25] -/
def State.helloObjection (s : State) (c : Cmd) : Option Byte :=
  let m := c.msg
  let b := m.payload
  match c.bad with
  | some st => some st
  | none =>
    if 1024 < b.length then some stTooBig
    else if 4 ≤ m.flags.toNat || m.status != 0 then some stBadArg
    else if s.mode == .safeHold && !isOob m.session then some stOffline
    else if m.target != deviceTarget || b.length != 6 || byteAt b 1 != 1 || !zeroSlice b 2 2 || get16 b 4 &&& 0xFC07 != 0 then some stBadArg
    else none

/-- HELLO with OPEN on a closed session, or with FORCE_OPEN (R376, R378, R381). [DEDUCED: log 25] -/
def State.hello (s : State) (c : Cmd) : State :=
  let i := c.msg.session
  let next := (s.sessions.get i).isOpen && c.msg.cseq == (s.sessions.get i).lastCseq + 1
  match s.helloObjection c with
  | some st => (if next then s.consume c else s).finishCmd c next (finalRsp c st [])
  | none =>
    let s := s.closeSession i
    let listed := !isOob i && s.fw.grantList.getLsbD i.val
    let mask := BitVec.ofNat 16 (get16 c.msg.payload 4)
    let s := s.updSession i (fun x =>
      { x with isOpen := true, eventMask := mask, grant := x.pendingGrant || listed, pendingGrant := false })
    let s := (s.consume c).interim c
    let who : Byte := if isOob i then 0xFF else BitVec.ofNat 8 i.val
    s.finishCmd c true (finalRsp c stOK ([BitVec.ofNat 8 i.val, BitVec.ofNat 8 (bnat (s.isSteward i)), who, 1] ++ le32 c.msg.cseq.toNat ++
      le32 0 ++ le32 s.fwVersion.toNat ++ le16 1024 ++ le16 mask.toNat))

/-- One command leaves the command store: it executes, repeats a stored response, or is answered DENIED or SEQ_GAP (R376, R381). -/
def State.runCmd (s : State) (c : Cmd) : State :=
  let i := c.msg.session
  let s := s.updSession i (fun x => { x with store := x.store.erase c })
  let x := s.sessions.get i
  match cmdOpens c with
  | some force => if force || !x.isOpen then s.hello c else s.finishCmd c false (finalRsp c stDenied [])
  | none =>
    if !x.isOpen then
      if c.opcode = 0x0101 || c.opcode = 0x0102 then s.execute c false else s.finishCmd c false (finalRsp c stDenied [])
    else if c.opcode = 0x0002 then s.execute c false
    else if c.msg.cseq = x.lastCseq + 1 then (s.consume c).execute c true
    else
      match x.stored with
      | some t =>
        if c.msg.cseq = x.lastCseq && t.opcode = c.opcode && t.length = c.msg.payload.length then
          match t.response with
          | some r => s.respond i r
          | none => s
        else s.finishCmd c false (finalRsp c stSeqGap (le32 (x.lastCseq + 1).toNat))
      | none => s.finishCmd c false (finalRsp c stSeqGap (le32 (x.lastCseq + 1).toNat))

/-! ## Which command runs next (R387, R394) -/

/-- Whether management firmware, or the boot ROM in its place, serves commands. -/
def State.serving (s : State) : Bool := !s.fw.paused && s.mode != .off && s.mode != .midnight && s.mode != .dawn

/-- The commands that overlap with nothing (R394). -/
def cmdFree (c : Cmd) : Bool :=
  let op := c.opcode.toNat
  let o := fun (i : Nat) => get8 c.msg.payload i % 2
  [0x0002, 0x0003, 0x0004, 0x0702, 0x0A05, 0x0101, 0x0102, 0x0103, 0x0701, 0x0705, 0x0A01, 0x0901, 0x0401, 0x0301, 0x0601, 0x0606].contains op ||
    (cmdOpens c).isSome || ((op == 0x0201 || op == 0x0801) && o 0 == 0) || (op == 0x0404 && o 1 == 0)

/-- Whether two objects overlap (R394). -/
def State.overlap (s : State) (a b : Target) : Bool :=
  match a, b with
  | .port p, .slot k => slotOf p == k
  | .slot k, .port p => slotOf p == k
  | .port p, .partition k => s.partOf.get p == k
  | .partition k, .port p => s.partOf.get p == k
  | .port p, .upstream k => s.partOf.get p == k
  | .upstream k, .port p => s.partOf.get p == k
  | .partition k, .upstream j => k == j
  | .upstream j, .partition k => k == j
  | a, b => a == b

/-- The objects that a command names: its target, and the partition to which PART_ASSIGN_PORT moves a port (R47, R394). -/
def cmdObjects (c : Cmd) : List Target :=
  let k := get8 c.msg.payload 0
  (decodeTarget c.msg.target).toList ++ (if h : c.opcode = 0x0202 ∧ k < 16 then [.partition ⟨k, h.2⟩] else [])

/-- Whether two commands of different sessions must execute one after the other. [DEDUCED: log 63] -/
def State.clash (s : State) (c d : Cmd) : Bool :=
  !cmdFree c && !cmdFree d && (cmdObjects c).any (fun a => (cmdObjects d).any (fun b => s.overlap a b))

/-- The command a session's store gives next: the one in CSEQ order, else the oldest. [DEDUCED: log 23] -/
def Session.next (x : Session) : Option Cmd :=
  if x.executing.isSome then none
  else (if x.isOpen then x.store.find? (fun c => c.msg.cseq == x.lastCseq + 1) else none).or x.store.head?

/-- Whether a session's next command may start: nothing that it overlaps with executes, or arrived earlier. -/
def State.mayStart (s : State) (c : Cmd) : Bool :=
  (List.finRange 19).all (fun j =>
    j == c.msg.session ||
      (let x := s.sessions.get j
       (match x.executing with
        | some (d, _) => !s.clash c d
        | none => true) &&
       (match x.next with
        | some d => c.arrival ≤ d.arrival || !s.clash c d
        | none => true)))

/-- The earliest command that may start. [DEDUCED: log 23] -/
def State.ready (s : State) : Option Cmd :=
  (List.finRange 19).foldl (fun best i =>
    match (s.sessions.get i).next with
    | some c => if s.mayStart c && (best.map (fun (d : Cmd) => decide (c.arrival < d.arrival))).getD true then some c else best
    | none => best) none

/-- A repeat of the command in execution waits for a copy of its final response (R381). -/
def Session.takeRepeats (x : Session) : Session :=
  match x.executing, x.stored with
  | some _, some t =>
    let same := fun (c : Cmd) => x.isOpen && c.msg.cseq == x.lastCseq && t.opcode == c.opcode && t.length == c.msg.payload.length && (cmdOpens c).isNone
    if x.store.any same then { x with store := x.store.filter (fun c => !same c), repeats := x.repeats + x.store.countP same } else x
  | _, _ => x

/-- A command arrives at a session's command store. [DEDUCED: log 23] -/
def State.arrive (s : State) (opcode : BitVec 16) (m : VcpMsg) (bad : Option Byte) : State :=
  let c : Cmd := { opcode, msg := m, bad, arrival := s.arrivals }
  { s with arrivals := s.arrivals + 1 }.updSession m.session (fun x => { x with store := x.store ++ [c] })

end Sys2Proof.Machine
end

