-- ==== Sys2Proof/Machine/Transport.lean ====
section
/-! DEFINITION. The VCP transports: the Management Function's endpoints, the OOB register space with its mailboxes, the SMBus target (R386–R393, Tables 11.6–11.9); how commands are taken and run; what ends every command of the block. -/

namespace Sys2Proof.Machine

open Sys2Proof

/-! ## A message from its bytes (Table 11.1) -/

/-- The first bytes of a list, with zeros where it is shorter. -/
def padTo (l : List Byte) (n : Nat) : List Byte := l.take n ++ zeros (n - l.length)

/-- The message that stands in bytes, for a session: its opcode and the rest. -/
def messageOf (i : Sess) (b : List Byte) : BitVec 16 × VcpMsg :=
  (BitVec.ofNat 16 (get16 b 0),
    { session := i, cseq := bits32 b 4, flags := byteAt b 2, status := byteAt b 3, target := BitVec.ofNat 16 (get16 b 8),
      payload := padTo (b.drop 16) (get16 b 10) })

/-- What an MF transfer is to be answered with at once: TOO_BIG, or BAD_ARG for a wrong length or a non-zero CRC (R372, R386). -/
def mfBad (b : List Byte) : Option Byte :=
  if 1040 < b.length then some stTooBig
  else if b.length != 16 + get16 b 10 || get32 b 12 != 0 then some stBadArg
  else none

/-! ## The Management Function (R386–R388) -/

/-- The bytes that a command takes in the command store. -/
def cmdSize (c : Cmd) : Nat := 16 + min 1024 c.msg.payload.length

/-- Room in the command store of a partition's session (R201, R387). -/
def State.mfRoom (s : State) (k : Part) : Nat := 4096 - ((s.sessions.get (mfSession k)).store.map cmdSize).sum

/-- Whether the host reaches the MF's endpoints: presented, configured, its side not suspended. [DEDUCED: log 27, 54] -/
def State.mfOpen (s : State) (k : Part) : Bool :=
  (s.mfs.get k).config != 0 &&
    (match (s.mfs.get k).side with
     | some .superSpeed => (s.ups.get k).link != .u3
     | some .usb2 => (s.ups.get k).usb2 != .suspended
     | none => false)

/-- The bytes of a packet of one of the MF's buffers, on the side where the MF stands. -/
def State.mfPacket (s : State) (k : Part) (b : MfBuffer) : Nat :=
  let ss := (s.mfs.get k).side == some .superSpeed
  match b with
  | .ep0 => if ss then 512 else 64
  | .intIn => 64
  | _ => if ss then 1024 else 512

/-- A transfer of the MF passes through one of its reserved buffers; a packet of which a word is lost is missing from it (R201, R218).
[DESIGN CHOICE: log 27] [DEDUCED: log 27] -/
def State.mfPass (s : State) (k : Part) (b : MfBuffer) (bytes : List Byte) : State × List Byte :=
  passPackets (.mgmtFunction k b) (s.mfPacket k b) (bytes.length + 1) bytes s

/-- A transfer on MF bulk OUT: NRDY or NAK while the store lacks room, STALL while the endpoint is halted (R387). -/
def State.mfBulkOut (s : State) (k : Part) (b : List Byte) : State :=
  if !s.mfOpen k then s
  else if (s.mfs.get k).halted.contains 0x01 then s.emit (.mfStall k 0x01)
  else if s.mfRoom k < min 1040 b.length then s.emit (.notReady k)
  else
    let (s, b) := s.mfPass k .bulkOut b
    let (op, m) := messageOf (mfSession k) b
    s.arrive op m (mfBad b)

/-- VCP_COMMAND on EP0: STALL where the store lacks room, or where the data stage is not 16–1,040 bytes (R387, Table 11.6). -/
def State.mfControlOut (s : State) (k : Part) (b : List Byte) : State :=
  if (s.mfs.get k).side.isNone then s
  else if b.length < 16 || 1040 < b.length || s.mfRoom k < b.length then s.ctlError k
  else
    let (s, b) := s.mfPass k .ep0 b
    let (s, b) := s.mfPass k .bulkOut b
    let (op, m) := messageOf (mfSession k) b
    (s.arrive op m (mfBad b)).emit (.ctlDone k)

/-- VCP_LAST_RESPONSE: the stored final response, truncated to wLength; Request Error where none is stored. [DEDUCED: log 28] -/
def State.mfLastResponse (s : State) (k : Part) (len : Nat) : State :=
  if (s.mfs.get k).side.isNone then s
  else match ((s.sessions.get (mfSession k)).stored.bind (·.response)) with
    | some r =>
      if 16 ≤ len && len ≤ 1040 then
        let (s, b) := s.mfPass k .ep0 ((rspBytes (mfSession k) r).take len)
        s.emits [.ctlData k b, .ctlDone k]
      else s.ctlError k
    | none => s.ctlError k

/-- A response leaves on bulk IN. -/
def State.mfTakeRsp (s : State) (k : Part) : State :=
  let i := mfSession k
  match (s.sessions.get i).out with
  | r :: rest =>
    let (s, b) := (s.updSession i (fun x => { x with out := rest })).mfPass k .bulkIn (rspBytes i r)
    s.emit (.vcp i b)
  | [] => s

/-- An event leaves on interrupt IN, but in function suspend or a firmware pause (R203, R388). -/
def State.mfTakeEvent (s : State) (k : Part) : State :=
  let i := mfSession k
  let x := s.sessions.get i
  if (s.mfs.get k).funcSuspend || s.fw.paused then s
  else match nextToSend x with
    | some e =>
      let (s, b) := (s.updSession i (fun x => markSent x e.eseq)).mfPass k .intIn (evtBytes i e x.lostFlag)
      s.emit (.vcp i b)
    | none => s

/-- The serial state of a UART slot as its notification reports it: DCD in bit 0, of the slot's first interface (R288).
[PRESUMED: log 65] [PRESUMED: log 96] -/
def serialState (u : Fin 6) (dcd : Bool) : List Byte :=
  [0xA1, 0x20, 0, 0] ++ le16 (1 + 2 * u.val) ++ le16 2 ++ le16 (bnat dcd)

/-- A UART slot's notification leaves on interrupt IN where its serial state has changed (R288). -/
def State.mfTakeSerial (s : State) (k : Part) (u : Fin 6) (ep : Byte) : State :=
  let d := s.dcdOf k u
  if d = (s.mfs.get k).dcd.get u || (s.mfs.get k).funcSuspend then s
  else (s.updMf k (fun m => { m with dcd := m.dcd.put u d })).emit (.mfIn k ep (serialState u d))

/-- The host takes what an MF IN endpoint has: a response, an event, a UART slot's characters or its serial state (R288, R388). [DEDUCED: log 102] -/
def State.mfIn (s : State) (k : Part) (ep : Byte) : State :=
  if !s.mfOpen k then s
  else if (s.mfs.get k).halted.contains ep then s.emit (.mfStall k ep)
  else if ep = 0x81 then s.mfTakeRsp k
  else if ep = 0x82 then s.mfTakeEvent k
  else
    let n := ep.toNat % 128
    if h : 3 ≤ n ∧ n ≤ 14 then
      let u : Fin 6 := ⟨(n - 3) / 2, by omega⟩
      let data := ((s.uarts.get k).get u).toHost
      if !isIn ep then s
      else if n % 2 = 0 then s.mfTakeSerial k u ep
      else if data.isEmpty then s
      else ({ s with uarts := s.uarts.upd k (fun t => t.upd u (fun x => { x with toHost := [] })) }).emit (.mfIn k ep data)
    else s

/-! ## The OOB register space (R389–R391, Tables 11.7, 11.8) -/

/-- Whether a bus reaches an address. -/
def oobReach (bus : OobBus) (a : Nat) : Bool :=
  match bus with
  | .spi => a < 0x3000
  | .smbus => a < 0x1000 || (0x3000 ≤ a && a < 0x4000)

/-- Whether a bus serves a mailbox. [DEDUCED: log 30] -/
def oobServes (bus : OobBus) (m : Mbox) : Bool := (bus == .smbus) == (m.val == 2)

/-- OOB_STATUS. -/
def State.oobStatus (s : State) : Nat :=
  let ready := s.mode != .off && s.mode != .dawn && s.mode != .midnight && !s.fw.paused
  let held := (s.mode == .midnight || s.mode == .dawn) && (List.finRange 3).any (fun m =>
    (s.mailboxes.get m).cmdBusy || !(s.sessions.get (sessOfMbox m)).store.isEmpty)
  opModeCode s.mode + 2 ^ 8 * s.cause.toNat + 2 ^ 17 * bnat held + 2 ^ 18 * bnat ready + 2 ^ 19 * bnat (s.mode == .safeHold) +
    2 ^ 20 * bnat s.fw.bootFailed + 2 ^ 21 * s.maxUnacked

/-- MB_STATUS of a mailbox. -/
def State.mbStatus (s : State) (m : Mbox) : Nat :=
  let b := s.mailboxes.get m
  let x := s.sessions.get (sessOfMbox m)
  bnat b.cmdBusy + 2 * bnat b.rspReady + 4 * bnat b.evtReady + 8 * bnat b.crcErr + 16 * bnat x.isOpen + 256 * min 8 x.out.length

/-- Events issued and not yet transmitted. -/
def State.evtPending (s : State) (m : Mbox) : Nat := (s.sessions.get (sessOfMbox m)).ring.countP (fun e => e.again || !e.sent)

/-- A byte of the OOB register space as a bus reads it. Reading changes nothing, so that no command does it. [DESIGN CHOICE: log 7, 29] -/
def State.oobRead (s : State) (bus : OobBus) (a : Nat) : Byte :=
  let word := fun (n : Nat) => byteAt (le32 n) (a % 4)
  if !oobReach bus a then 0
  else if a < 0x0004 then word 0x851600B0
  else if a < 0x0008 then word s.oobStatus
  else if a < 0x000C then word (Config.uptime s.freeCount).toNat
  else if a < 0x0010 then word s.alertEnable.toNat
  else if a < 0x1000 || 0x4000 ≤ a || s.mode == .off then 0
  else
    let m : Mbox := Fin.ofNat 3 (a / 0x1000 - 1)
    let o := a % 0x1000
    let b := s.mailboxes.get m
    if o < 4 then word (s.mbStatus m)
    else if 8 ≤ o && o < 12 then word (s.evtPending m)
    else if 0x100 ≤ o && o < 0x600 then byteAt b.cmdBuf (o - 0x100)
    else if 0x600 ≤ o && o < 0xB00 then byteAt b.rspBuf (o - 0x600)
    else if 0xB00 ≤ o then byteAt b.evtBuf (o - 0xB00)
    else 0

/-- The level of ALERT_N: true is asserted (R391). [PRESUMED: log 31] -/
def State.alert (s : State) : Bool :=
  (List.finRange 3).any (fun m => s.alertEnable.getLsbD m.val && ((s.mailboxes.get m).rspReady || (s.mailboxes.get m).evtReady))

/-- Change one mailbox. -/
def State.updMbox (s : State) (m : Mbox) (f : Mailbox → Mailbox) : State := { s with mailboxes := s.mailboxes.upd m f }

/-- Put one byte into a buffer. -/
def putByte (l : List Byte) (i : Nat) (b : Byte) : List Byte := padTo l i ++ b :: l.drop (i + 1)

/-- One byte written to a register or a command buffer that has no behaviour of its own; to any other address it is ignored. [DESIGN CHOICE: log 29] -/
def State.oobWriteByte (s : State) (bus : OobBus) (a : Nat) (b : Byte) : State :=
  if !oobReach bus a then s
  else if a = 0x000C then { s with alertEnable := b.setWidth 3 }
  else if 0x1000 ≤ a && a < 0x4000 && s.mode != .off then
    let m : Mbox := Fin.ofNat 3 (a / 0x1000 - 1)
    let o := a % 0x1000
    if 0x100 ≤ o && o < 0x600 && !(s.mailboxes.get m).cmdBusy then s.updMbox m (fun x => { x with cmdBuf := putByte x.cmdBuf (o - 0x100) b }) else s
  else s

/-- Bytes written from an address on. -/
def oobWriteBytes : List Byte → OobBus → Nat → State → State
  | [], _, _, s => s
  | b :: rest, bus, a, s => oobWriteBytes rest bus (a + 1) (s.oobWriteByte bus a b)

/-- Whether the OOB targets answer: AON is powered and out of reset (R389). [DEDUCED: log 30] -/
def State.oobAnswers (s : State) : Bool := s.aonUp

/-- A byte in the CRC-8 of SMBus Packet Error Checking, of polynomial 0x07. [PRESUMED: log 95] -/
def pecByte (c b : Byte) : Byte :=
  (List.range 8).foldl (fun (c : Byte) _ => if c.getLsbD 7 then (c <<< 1) ^^^ 0x07 else c <<< 1) (c ^^^ b)

/-- The PEC of a Block Read: over the address, the command code, the address again, the count and the bytes. [PRESUMED: log 95] -/
def readPec (a : BitVec 7) (l : List Byte) : Byte :=
  ([a.setWidth 8 <<< 1, 0x02, (a.setWidth 8 <<< 1) ||| 1, BitVec.ofNat 8 l.length] ++ l).foldl pecByte 0

/-- The bytes that a Block Read at an address gives: in a buffer those of the message held from there on, at most 255; elsewhere 4
(Table 11.9). -/
def State.blockLength (s : State) (a : Nat) : Nat :=
  let b := s.mailboxes.get (Fin.ofNat 3 (a / 0x1000 - 1))
  let o := a % 0x1000
  if a < 0x1000 || 0x4000 ≤ a || o < 0x100 then 4
  else if o < 0x600 then min 255 (b.cmdBuf.length - (o - 0x100))
  else if o < 0xB00 then min 255 (b.rspBuf.length - (o - 0x600))
  else min 255 (b.evtBuf.length - (o - 0xB00))

/-- An SMBus Block Read of which the host clocks `n` data bytes: the pointer advances past them, and a PEC follows (R393).
[DESIGN CHOICE: log 29] [DESIGN CHOICE: log 29] -/
def State.blockRead (s : State) (n : Nat) : State :=
  let a := s.smbus.pointer.toNat
  let l := (List.range (min n (s.blockLength a))).map (fun i => s.oobRead .smbus (a + i))
  { s with smbus := { s.smbus with pointer := s.smbus.pointer + BitVec.ofNat 16 l.length, rx := [] } }.emit (.smbusData l (readPec s.smbus.address l))

/-- REGISTER_WRITE. An SMBus Block Write takes effect at its end; with a wrong PEC it is ignored (R393). [DESIGN CHOICE: log 29] -/
def State.oobWrite (s : State) (w : OobWrite) (l : List Byte) : State :=
  if !s.oobAnswers then s
  else match w with
    | .spi a => oobWriteBytes l .spi a.toNat s
    | .smbus ended pecOk =>
      let all := s.smbus.rx ++ l
      if !ended then { s with smbus := { s.smbus with rx := all } }
      else
        let s := { s with smbus := { s.smbus with rx := [] } }
        if pecOk then
          let a := s.smbus.pointer
          oobWriteBytes all .smbus a.toNat { s with smbus := { s.smbus with pointer := a + BitVec.ofNat 16 all.length } }
        else s
    | .smbusRead n => s.blockRead n.val

/-- A doorbell (R390): ignored in Off and while CMD_BUSY is set; in Midnight it is a wake source. [DEDUCED: log 30] -/
def State.ringDoorbell (s : State) (m : Mbox) : State :=
  if !s.oobAnswers || s.mode = .off || (s.mailboxes.get m).cmdBusy then s
  else (s.updMbox m (fun x => { x with cmdBusy := true })).wake (if m.val = 2 then 5 else 4)

/-- A write to DOORBELL: a bit of the other bus's mailbox is ignored (R390). -/
def State.writeDoorbell (s : State) (bus : OobBus) (mask : BitVec 3) : State :=
  forAll ((List.finRange 3).filter (fun m => mask.getLsbD m.val && oobServes bus m)) (fun s m => s.ringDoorbell m) s

/-- RSP_DONE: the response buffer is released, and the next response enters. -/
def State.rspDone (s : State) (m : Mbox) : State :=
  if s.oobAnswers && s.oobServed && (s.mailboxes.get m).rspReady then (s.updMbox m (fun x => { x with rspReady := false })).fillRsp m else s

/-- EVT_DONE: the event buffer is released, and the next event enters. -/
def State.evtDone (s : State) (m : Mbox) : State :=
  if s.oobAnswers && s.oobServed && (s.mailboxes.get m).evtReady then (s.updMbox m (fun x => { x with evtReady := false })).fillEvt m else s

/-- MB_STATUS.CRC_ERR, written 1 to clear. -/
def State.crcErrClear (s : State) (m : Mbox) : State :=
  if s.oobAnswers && s.oobServed then s.updMbox m (fun x => { x with crcErr := false }) else s

/-- The CRC of the message in a command buffer is right (R372). -/
def crcOk (b : List Byte) : Bool := (crc32 (padTo b 12 ++ padTo (b.drop 16) (min 1264 (get16 b 10)))).toNat == get32 b 12

/-- The message in a mailbox's command buffer is taken; with a wrong CRC it is discarded and CRC_ERR set (R372, R390). [DEDUCED: log 28] -/
def State.takeMailbox (s : State) (m : Mbox) : State :=
  let b := (s.mailboxes.get m).cmdBuf
  let s := s.updMbox m (fun x => { x with cmdBusy := false, crcErr := x.crcErr || !crcOk b })
  if crcOk b then
    let (op, msg) := messageOf (sessOfMbox m) b
    s.arrive op msg none
  else s

/-- The mailbox whose command can be taken: a doorbell has rung, and fewer than 8 responses wait behind the buffer (R391). -/
def State.mailboxReady (s : State) : Option Mbox :=
  (List.finRange 3).find? (fun m => (s.mailboxes.get m).cmdBusy && (s.sessions.get (sessOfMbox m)).out.length < 8)

/-! ## Commands run (R394, R395) -/

/-- Repeats of commands in execution are set to wait. -/
def State.takeRepeats (s : State) : State :=
  if (List.finRange 19).any (fun i => (s.sessions.get i).takeRepeats != s.sessions.get i) then
    { s with sessions := Tab.of (fun i => (s.sessions.get i).takeRepeats) }
  else s

/-- Take and run what can be taken and run; what the detectors report meanwhile is collected after each command. [DESIGN CHOICE: log 22] -/
def pumpLoop : Nat → State → State
  | 0, s => s
  | n + 1, s =>
    if !s.serving then s
    else match s.mailboxReady with
      | some m => pumpLoop n (s.takeMailbox m)
      | none =>
        let s := s.takeRepeats
        match s.ready with
        | some c => pumpLoop n ((s.runCmd c).collect)
        | none => s

/-- The hosts of partitions whose MF has come to wait for them, or has something new to send, are woken (R193, R195). -/
def State.wakeHosts (s before : State) : State :=
  forAll ((List.finRange 16).filter (fun k => s.mfWakeDue k &&
      (!before.mfWakeDue k || (s.sessions.get (mfSession k)).nextEseq != (before.sessions.get (mfSession k)).nextEseq)))
    (fun s k => s.mfWake k) s

/-- What ends a command of the block: detectors' messages are collected, waiting commands run, at most `n` of them, hosts are woken. [DESIGN CHOICE: log 22] -/
def State.endWith (n : Nat) (s before : State) : State := (pumpLoop n s.collect).wakeHosts before

/-- What ends every command of the block. [DESIGN CHOICE: log 22] -/
def State.finish (s before : State) : State := s.endWith 4096 before

/-- Run an effect as a command of the block. [DEDUCED: log 4] -/
def run (f : State → State) (s : State) : Host.Outcome State Fault Refusal :=
  let s := s.begin
  .next ((f s).finish s)

/-! ## A VCP command that reaches its session -/

/-- Whether a session's transport brings a command now: an OOB mailbox but in Off, an MF that is presented and configured, with room. [DEDUCED: log 27] -/
def State.transportOpen (s : State) (m : VcpMsg) : Bool :=
  if isOob m.session then s.oobAnswers && s.mode != .off
  else
    let k : Part := Fin.ofNat 16 m.session.val
    s.mfOpen k && 16 + min 1024 m.payload.length ≤ s.mfRoom k

/-- A command arrives on its session's transport; in Midnight it is a doorbell, a wake source. [DEDUCED: log 27] -/
def State.submit (s : State) (opcode : BitVec 16) (m : VcpMsg) : State :=
  if s.transportOpen m then
    let s := s.arrive opcode m none
    if isOob m.session then s.wake (if m.session.val = 18 then 5 else 4) else s
  else s

/-- A row that is one VCP command. [DEDUCED: log 24, 27] -/
def runVcp (opcode : BitVec 16) (m : VcpMsg) (s : State) : Host.Outcome State Fault Refusal := run (fun s => s.submit opcode m) s

/-! ## MGT_RESTART and commands in execution (R425) -/

/-- Whether a command in execution is run again after a management restart: one in the mode machinery keeps its place there. [DEDUCED: log 23] -/
def waitRedone : Wait → Bool
  | .mode => false
  | .queuedMode => false
  | _ => true

/-- The commands executing at the reset execute once more from their start. [DEDUCED: log 23] -/
def State.redo (s : State) : State :=
  forAll (List.finRange 19) (fun s i =>
    match (s.sessions.get i).executing with
    | some (c, w) =>
      if waitRedone w then
        let s := s.updSession i (fun x => { x with executing := none })
        let (s, r) := s.runOp { c with msg := { c.msg with flags := c.msg.flags &&& 1 } }
        s.takeReply c true r
      else s
    | none => s) s

/-- REACTION_COMPLETE; at the end of MGT_RESTART the commands that it interrupted run again. -/
def State.reactionEnds (s : State) (r : Reaction) (aged : Nat) (intact : Bool) : State :=
  if s.fault.running.contains r && r == .mgtRestart then (s.reactionDone r aged intact).redo else s.reactionDone r aged intact

end Sys2Proof.Machine
end

