-- ==== Sys2Proof/Machine/Schedule.lean ====
section
/-! DEFINITION. The order in which UPk transmits what its host has requested (R200). -/

namespace Sys2Proof.Machine

open Sys2Proof

/-- A request of the host that is being answered: the packets it may still draw, and whether none has gone out. -/
structure UpJob where
  what : UpRequest
  left : Nat
  fresh : Bool
deriving DecidableEq, Repr

/-- The place of a class in the order of R200. -/
def classRank : UpClass → Nat
  | .mf => 2
  | .isochronous => 3
  | .interrupt => 4
  | .control => 5
  | .bulk => 6

/-- The class of a request. -/
def State.jobClass (s : State) (j : UpJob) : UpClass :=
  match j.what with
  | .mf _ => .mf
  | .lifted p a _ =>
    if a.toNat % 128 = 0 then .control
    else if (s.ctx p a).any (·.kind == .isochronous) then .isochronous
    else if (s.ctx p a).any (·.kind == .interrupt) then .interrupt
    else .bulk

/-- A request as it arrives: an ACK transaction packet draws at most 8 packets, an isochronous interval at most 4 (R143, Table 5.8). -/
def State.jobOf (s : State) (r : UpRequest) : UpJob :=
  match r with
  | .mf _ => { what := r, left := 1, fresh := true }
  | .lifted p a n => { what := r, left := if (s.ctx p a).any (·.kind == .isochronous) then 4 else min n.val 8, fresh := true }

/-- One packet of a request goes out, or its answer; the job that is left of it, if any. -/
def State.serveJob (s : State) (k : Part) (j : UpJob) : State × Option UpJob :=
  match j.what with
  | .mf ep => (s.mfIn k ep, none)
  | .lifted p a _ =>
    let before := ((s.ctx p a).map (·.ready.length)).getD 0
    let iso := (s.ctx p a).any (·.kind == .isochronous)
    let t := if j.fresh then s.ackTp p a (min 1 j.left) else sendReady 1 p a s
    let after := ((t.ctx p a).map (·.ready.length)).getD 0
    (t, if 1 < j.left && 0 < after && (after < before || (iso && j.fresh)) then some { j with left := j.left - 1, fresh := false } else none)

/-- The first of the jobs of the highest class, and those before and after it. -/
def State.pickJob (s : State) : List UpJob → Option (List UpJob × UpJob × List UpJob)
  | [] => none
  | j :: rest =>
    match s.pickJob rest with
    | some (l, i, r) => if classRank (s.jobClass i) < classRank (s.jobClass j) then some (j :: l, i, r) else some ([], j, rest)
    | none => some ([], j, [])

/-- Packets go out one by one, each of the highest class that is ready, so that a packet of the MF waits for at most the one on the wire;
`late` holds the requests that arrive meanwhile, each with the number of packets sent before it. [DEDUCED: log 59] -/
def serveUp : Nat → Part → Nat → List UpJob → List (Nat × UpRequest) → State → State
  | 0, _, _, _, _, s => s
  | n + 1, k, i, jobs, late, s =>
    let jobs := jobs ++ (late.filter (fun x => x.1 ≤ i)).map (fun x => s.jobOf x.2)
    let late := late.filter (fun x => i < x.1)
    match s.pickJob jobs with
    | some (l, j, r) =>
      let t := s.serveJob k j
      serveUp n k (i + 1) (l ++ t.2.toList ++ r) late t.1
    | none =>
      match late with
      | [] => s
      | x :: _ => serveUp n k (late.foldl (fun m y => min m y.1) x.1) [] late s

/-- Whether a request reaches UPk. -/
def State.requestAt (s : State) (k : Part) : UpRequest → Bool
  | .mf _ => true
  | .lifted p _ _ => s.partOf.get p == k

/-- A host's ACK transaction packet, and the requests that reach UPk while it is answered (R143, R200). [DEDUCED: log 59] -/
def State.ackRequest (s : State) (p : Port) (a : Byte) (t : AckTp) : State :=
  let k := s.partOf.get p
  let others := t.others.filter (fun x => s.requestAt k x.2)
  serveUp (10 * (others.length + 1)) k 0 [s.jobOf (.lifted p a t.n)] others s

end Sys2Proof.Machine
end

