-- ==== Sys2Proof/Machine/RowsBase.lean ====
section
/-! DEFINITION. What several rows of the opcode table share: where a row acts at all, and the wake sources it is. -/

namespace Sys2Proof.Machine

open Sys2Proof

/-- A row of AON or of a power die: nothing runs in Off (R325, R389). [DEDUCED: log 19] -/
def ifAon (f : State → State) (s : State) : State := if s.mode = .off then s else f s

/-- A row that AON sees while it is powered and out of reset, in Off too (R178, R389). -/
def ifPorst (f : State → State) (s : State) : State := if s.aonUp then f s else s

/-- A row of a switched domain: off in Off and Midnight, in reset while WRST_N is low (Table 10.9, R363). [DEDUCED: log 19] -/
def ifUp (f : State → State) (s : State) : State := if s.mode = .off || s.mode = .midnight || s.wrstLow then s else f s

/-- What a wake source starts: the source first, and the effect once the device is out of Night. [DEDUCED: log 20] -/
def State.afterWake (s : State) (code : Nat) (f : State → State) : State :=
  let s := s.wake code
  if s.mode = .night then s else f s

/-- A host resumes UPk: in Night a Suspended partition's resume wakes the device first (source 0x10), and takes effect once it has
left Night. [DEDUCED: log 20] -/
def State.hostWakes (s : State) (k : Part) (f : State → State) : State :=
  if (s.parts.get k).st = .suspended then s.afterWake 0x10 f else f s

/-- The device itself resumes UPk for a port's wake (source 0x11). [DEDUCED: log 20] -/
def State.deviceResumes (s : State) (k : Part) (f : State → State) : State :=
  if (s.parts.get k).st = .suspended then s.afterWake 0x11 f else f s

/-- A device signals remote wake on a presented port (source 0x11). [DEDUCED: log 20] -/
def State.deviceWakes (s : State) (p : Port) (f : State → State) : State :=
  if presentedSt (s.ports.get p).st then s.afterWake 0x11 f else f s

/-- A slot changes its state by its seat or a trip (source 0x07). [DEDUCED: log 20] -/
def State.slotWakes (s : State) (k : Slot) (f : State → State) : State :=
  if ((f s).slots.get k).st = (s.slots.get k).st then f s else (f s).wake 7

/-- A Type-C attach or detach (sources 0x00, 0x01). [DEDUCED: log 20] -/
def State.portWakes (s : State) (p : Port) (code : Nat) (f : State → State) : State :=
  if (f s).pd.get p = s.pd.get p then f s else (f s).wake code

/-- An upstream attach (source 0x02). [DEDUCED: log 20] -/
def State.attachWakes (s : State) (k : Part) (f : State → State) : State :=
  if ((f s).ups.get k).attached = (s.ups.get k).attached then f s else (f s).wake 2

/-- Whether the host of a partition reaches the virtual hubs of a side: the tree is presented and the side's link runs. [DEDUCED: log 54] -/
def State.hubHeard (s : State) (k : Part) (side : Side) : Bool :=
  (s.parts.get k).tree && (match side with
    | .superSpeed => s.ssActive k && (s.ups.get k).link != .u3
    | .usb2 => (s.ups.get k).usb2 != .notPresented && (s.ups.get k).usb2 != .suspended)

/-- Whether the host of a partition reaches a virtual hub of a side: a leaf hub behind a Powered-off port does not answer (Table 2.4). -/
def State.hubReached (s : State) (k : Part) (side : Side) (h : HubIx) : Bool := s.hubHeard k side && s.topOn k side h

/-- The hub that holds a hub port. -/
def hubOf : HubPort → HubIx
  | .top _ => 0
  | .leaf i => leafOf i

/-- Whether an injection point holds a port-die link down, or the die's reset does (R429, Tables 12.4, 12.7). [DEDUCED: log 42] -/
def State.linkHeldDown (s : State) (d : Fin 2) : Bool :=
  s.fault.injections.any (fun i => i.source.toNat == 0x030 + d.val && i.timed) || s.fault.running.contains (.portDieReset d)

/-- Whether an injection point drops a power-die link's frames, or the die's reset runs. [DEDUCED: log 42] -/
def State.powerLinkHeldDown (s : State) (d : Fin 2) : Bool :=
  s.fault.injections.any (fun i => i.source.toNat == 0x032 + d.val && i.timed) || s.fault.running.contains (.powerDieReset d)

/-- A device's STALL in the data stage of a control write (R127). [DEDUCED: log 60] -/
def State.ctlOutStall (s : State) (p : Port) : State :=
  match (s.lift.get p).bind (·.ctl) with
  | some t => if t.stage = .dataOut && s.busMoves p then s.failCtl p else s
  | none => s

/-- A HELLO message with the operation its row names. [DEDUCED: log 26] -/
def helloMsg (operation : Byte) (m : VcpMsg) : VcpMsg :=
  { m with payload := match m.payload with
    | [] => []
    | _ :: rest => operation :: rest }

end Sys2Proof.Machine
end

