-- ==== Sys2Proof/Machine/RowsDeviceCmds.lean ====
section
/-! DEFINITION. Fault, firmware and diagnostic commands, and the TAP: what each row does. -/

namespace Sys2Proof.Machine

open Sys2Proof

/-- FAULT_READ (R414): returns fault records meeting the filter, sampling STILL_PRESENT. -/
def execFaultRead (m : VcpMsg) (s : State) : Host.Outcome State Fault Refusal :=
  runVcp 0x0901 m s

/-- FAULT_ACK (R414): acknowledges one or a range of fault records. -/
def execFaultAck (m : VcpMsg) (s : State) : Host.Outcome State Fault Refusal :=
  runVcp 0x0902 m s

/-- FAULT_SET_SEVERITY (R417): writes the severity of a source and kind. -/
def execFaultSetSeverity (m : VcpMsg) (s : State) : Host.Outcome State Fault Refusal :=
  runVcp 0x0903 m s

/-- FAULT_INJECT (R429): arms a detector's injection point. -/
def execFaultInject (m : VcpMsg) (s : State) : Host.Outcome State Fault Refusal :=
  runVcp 0x0904 m s

/-- FAULTPIN_CONTROL (R421): writes the FAULT_N threshold, pulse width and hold state. -/
def execFaultpinControl (m : VcpMsg) (s : State) : Host.Outcome State Fault Refusal :=
  runVcp 0x0905 m s

/-- FW_GET (R401): returns the firmware slots, record copies, staging and rollback status. -/
def execFwGet (m : VcpMsg) (s : State) : Host.Outcome State Fault Refusal :=
  runVcp 0x0A01 m s

/-- FW_STAGE_BEGIN (R403): opens staging of an image or record into its area and erases it. -/
def execFwStageBegin (m : VcpMsg) (s : State) : Host.Outcome State Fault Refusal :=
  runVcp 0x0A02 m s

/-- FW_STAGE_DATA (R403): writes staged data at the next offset. -/
def execFwStageData (m : VcpMsg) (s : State) : Host.Outcome State Fault Refusal :=
  runVcp 0x0A03 m s

/-- FW_STAGE_COMMIT (R403): checks the staged container and writes the directory, marking the area VALID or INVALID. -/
def execFwStageCommit (m : VcpMsg) (s : State) : Host.Outcome State Fault Refusal :=
  runVcp 0x0A04 m s

/-- FW_ACTIVATE (R406): starts hitless activation of a staged image through Dusk into Maintenance. -/
def execFwActivate (m : VcpMsg) (s : State) : Host.Outcome State Fault Refusal :=
  runVcp 0x0A05 m s

/-- ACTIVATION_PAUSE_END (R406): the new image takes the handover block, the pause ends, Maintenance is left and the TRIAL response sent. -/
def execActivationPauseEnd (s : State) : Host.Outcome State Fault Refusal :=
  run (ifAon (fun s => s.activationEnd)) s

/-- ACTIVATION_LOAD_FAIL (R406): activation step 4 or 5 fails its check or bound and the boot ROM reloads the previous image. -/
def execActivationLoadFail (s : State) : Host.Outcome State Fault Refusal :=
  run (ifAon (fun s => s.loadFailed)) s

/-- TRIAL_PASS (R407): the 10 s trial passes; the slot becomes ACTIVE, the security floor rises and COMMITTED is sent. -/
def execTrialPass (s : State) : Host.Outcome State Fault Refusal :=
  run (ifAon (fun s => s.trialPass)) s

/-- TRIAL_FAIL (R408): the trial fails and the device rolls back to the previous slot, sending ROLLED_BACK. -/
def execTrialFail (dead : Bool) (s : State) : Host.Outcome State Fault Refusal :=
  run (ifAon (fun s => s.trialFail dead)) s

/-- DIAG_LOOPBACK (R340): runs a PHY loopback test and returns the bits checked and errors. -/
def execDiagLoopback (m : VcpMsg) (s : State) : Host.Outcome State Fault Refusal :=
  runVcp 0x0B01 m s

/-- DIAG_PHY_TEST (R340): starts or ends a USB test pattern on a PHY. -/
def execDiagPhyTest (m : VcpMsg) (s : State) : Host.Outcome State Fault Refusal :=
  runVcp 0x0B02 m s

/-- DIAG_EYE (R340): measures and returns an eye map of a SuperSpeed lane. -/
def execDiagEye (m : VcpMsg) (s : State) : Host.Outcome State Fault Refusal :=
  runVcp 0x0B03 m s

/-- JTAG_BYPASS (R365): the TAP instruction BYPASS. -/
def execJtagBypass (tdi : List Bool) (s : State) : Host.Outcome State Fault Refusal :=
  run (fun s => s.tapBypass tdi) s

/-- JTAG_IDCODE (R447): the TAP instruction IDCODE returns 0x1851_695B. -/
def execJtagIdcode (s : State) : Host.Outcome State Fault Refusal :=
  run (fun s => s.tapIdcode) s

/-- JTAG_SAMPLE_PRELOAD (R365): the TAP instruction SAMPLE/PRELOAD on the boundary-scan chain. -/
def execJtagSamplePreload (balls cells : BitVec 103) (s : State) : Host.Outcome State Fault Refusal :=
  run (fun s => s.tapSample balls cells) s

/-- JTAG_EXTEST (R365): the TAP instruction EXTEST, accepted only with TESTMODE = 1. -/
def execJtagExtest (balls cells : BitVec 103) (s : State) : Host.Outcome State Fault Refusal :=
  run (fun s => s.tapExtest balls cells) s

end Sys2Proof.Machine
end

