-- ==== Sys2Proof/Machine/RowsFaults.lean ====
section
/-! DEFINITION. Die links, alarms, the Fault Collector and injection (chapters 1 and 12): what each row does. -/

namespace Sys2Proof.Machine

open Sys2Proof

/-- PORT_DIE_LINK_RETRAIN (R17): A port-die link leaves the active state and the die's PCEs stop tokens and SOFs and hold lifted data. -/
def execPortDieLinkRetrain (d : Fin 2) (s : State) : Host.Outcome State Fault Refusal :=
  run (ifUp (fun s => s.portLinkRetrain d)) s

/-- PORT_DIE_LINK_RETURN (R17): A retraining port-die link returns to the active state and held data is delivered in order. -/
def execPortDieLinkReturn (d : Fin 2) (s : State) : Host.Outcome State Fault Refusal :=
  run (ifUp (fun s => if s.linkHeldDown d then s else s.portLinkReturn d)) s

/-- PORT_DIE_LINK_FAIL (R17): A port-die link has not returned to active 1 ms after leaving it and is declared failed. -/
def execPortDieLinkFail (d : Fin 2) (s : State) : Host.Outcome State Fault Refusal :=
  run (ifUp (fun s => s.portLinkFail d)) s

/-- POWER_DIE_LINK_TIMEOUT (R18): no valid power-die link frame has arrived for 100 us and a fault is raised. -/
def execPowerDieLinkTimeout (d : Fin 2) (s : State) : Host.Outcome State Fault Refusal :=
  run (ifAon (fun s => s.powerLinkTimeout d)) s

/-- POWER_DIE_CORE_SILENCE (R19): A power die has received no valid frame for 10 ms and opens its VCONN switches while keeping Rp and SPC settings. -/
def execPowerDieCoreSilence (d : Fin 2) (s : State) : Host.Outcome State Fault Refusal :=
  run (ifAon (fun s => s.powerLinkSilence d)) s

/-- ALARM_PAIR_CHANGE (R21): an alarm pair changes level and is decoded as clear or asserted. -/
def execAlarmPairChange (pair : Fin 6) (on : Bool) (s : State) : Host.Outcome State Fault Refusal :=
  run (ifAon (fun s => s.alarmChange pair on)) s

/-- ALARM_LINE_FAULT (R21): an alarm pair has shown equal levels for 200 ns and is acted on as asserted and recorded. -/
def execAlarmLineFault (pair : Fin 6) (level : Bool) (s : State) : Host.Outcome State Fault Refusal :=
  run (ifAon (fun s => s.alarmLineFault pair level)) s

/-- DETECTOR_MESSAGE (R411): A detector reports to the Fault Collector, which writes, grades, escalates or merges a record and starts the reaction its severity calls for. [DEDUCED: log 34] -/
def execDetectorMessage (source : BitVec 12) (kind : Byte) (info : BitVec 32) (injected : Bool) (place : Option (Port × Byte)) (s : State) : Host.Outcome State Fault Refusal :=
  if (faultRow source.toNat kind.toNat).isNone then .refused (.illFormed "DETECTOR_MESSAGE")
  else run (ifAon (fun s => s.detectorMessage source kind info injected place)) s

/-- FAULT_N_PULSE_END (R421): MIN_WIDTH elapses and FAULT_N is released or the next waiting pulse follows. -/
def execFaultNPulseEnd (s : State) : Host.Outcome State Fault Refusal :=
  run (ifAon (fun s => s.pulseEnd)) s

/-- SAFE_HOLD_RESTART_DONE (R426): after a management-source Fatal, the restarted image reaches Safe Hold service and OOB_STATUS.READY returns to 1. -/
def execSafeHoldRestartDone (s : State) : Host.Outcome State Fault Refusal :=
  run (ifAon (fun s => s.safeHoldServed)) s

/-- REACTION_COMPLETE (R423): A containment reaction's objects return to service, permitting an automatic return from Held. -/
def execReactionComplete (r : Reaction) (aged : Nat) (intact : Bool) (s : State) : Host.Outcome State Fault Refusal :=
  run (ifAon (fun s => s.reactionEnds r aged intact)) s

/-- RESET_SHADOW_END (R420): 10 us after a block reset ends, the shadow over its dependent detectors is lifted. -/
def execResetShadowEnd (r : Reaction) (s : State) : Host.Outcome State Fault Refusal :=
  run (ifAon (fun s => s.shadowEnd r)) s

/-- WATCHDOG_KICK (R425): management firmware kicks the management watchdog and restarts its 250 ms count. -/
def execWatchdogKick (s : State) : Host.Outcome State Fault Refusal :=
  run (fun s => s) s

/-- WATCHDOG_EXPIRY (R425): the management watchdog has not been kicked for 250 ms and reports a WATCHDOG fault. -/
def execWatchdogExpiry (s : State) : Host.Outcome State Fault Refusal :=
  run (ifAon (fun s => s.watchdogExpiry)) s

/-- INJECTION_DURATION_END (R429): an injection point whose forcing lasts a time reaches the end of that time and disarms. -/
def execInjectionDurationEnd (source : BitVec 12) (kind : Byte) (s : State) : Host.Outcome State Fault Refusal :=
  run (ifAon (fun s => s.injectionEnds source kind)) s

/-- INJECTION_ARM_TIMEOUT (R429): an armed injection point that has not acted within 60 s disarms without effect. -/
def execInjectionArmTimeout (source : BitVec 12) (kind : Byte) (s : State) : Host.Outcome State Fault Refusal :=
  run (ifAon (fun s => s.injectionLapses source kind)) s

/-- POWER_DIE_LINK_RESUME (R19): valid frames resume on a power-die link after a loss, ending the power die's hold of its last settings and letting held events and writes through. -/
def execPowerDieLinkResume (d : Fin 2) (s : State) : Host.Outcome State Fault Refusal :=
  run (ifAon (fun s => if s.powerLinkHeldDown d then s else s.powerLinkResume d)) s

end Sys2Proof.Machine
end

