-- ==== Sys2Proof/Machine/RowsLift.lean ====
section
/-! DEFINITION. Requests and data of lifted presentations (chapters 4 and 5): what each row does. -/

namespace Sys2Proof.Machine

open Sys2Proof

/-- STD_GET_STATUS (R119): GET_STATUS on a lifted presentation answered locally. -/
def execStdGetStatus (p : Port) (recipient : Fin 3) (index len : BitVec 16) (s : State) : Host.Outcome State Fault Refusal :=
  run (ifUp (fun s => s.setup p { bmRequestType := 0x80 + BitVec.ofNat 8 recipient.val, bRequest := 0, wValue := 0, wIndex := index, wLength := len } [])) s

/-- STD_CLEAR_ENDPOINT_HALT (R122): CLEAR_FEATURE(ENDPOINT_HALT) stops tokens, is forwarded and on success resets the endpoint and clears poison. -/
def execStdClearEndpointHalt (p : Port) (ep : Byte) (s : State) : Host.Outcome State Fault Refusal :=
  run (ifUp (fun s => s.setup p { bmRequestType := 0x02, bRequest := 1, wValue := 0, wIndex := ep.setWidth 16, wLength := 0 } [])) s

/-- STD_SET_ENDPOINT_HALT (R119): SET_FEATURE(ENDPOINT_HALT) forwarded and tracked. -/
def execStdSetEndpointHalt (p : Port) (ep : Byte) (s : State) : Host.Outcome State Fault Refusal :=
  run (ifUp (fun s => s.setup p { bmRequestType := 0x02, bRequest := 3, wValue := 0, wIndex := ep.setWidth 16, wLength := 0 } [])) s

/-- STD_SET_FUNCTION_SUSPEND (R119): SET_FEATURE(FUNCTION_SUSPEND) records a function's suspend and remote-wake options locally. -/
def execStdSetFunctionSuspend (p : Port) (interface : Byte) (suspend wake : Bool) (s : State) : Host.Outcome State Fault Refusal :=
  run (ifUp (fun s => s.setup p { bmRequestType := 0x01, bRequest := 3, wValue := 0, wIndex := BitVec.ofNat 16 (interface.toNat + 256 * bnat suspend + 512 * bnat wake), wLength := 0 } [])) s

/-- STD_U1_U2_ENABLE (R119): SET or CLEAR_FEATURE(U1_ENABLE, U2_ENABLE) changes the virtual link settings locally. -/
def execStdU1U2Enable (p : Port) (u2 on : Bool) (s : State) : Host.Outcome State Fault Refusal :=
  run (ifUp (fun s => s.setup p { bmRequestType := 0, bRequest := if on then 3 else 1, wValue := if u2 then 49 else 48, wIndex := 0, wLength := 0 } [])) s

/-- STD_SET_LTM_ENABLE (R119): SET_FEATURE(LTM_ENABLE) is answered with Request Error. -/
def execStdSetLtmEnable (p : Port) (s : State) : Host.Outcome State Fault Refusal :=
  run (ifUp (fun s => s.setup p { bmRequestType := 0, bRequest := 3, wValue := 50, wIndex := 0, wLength := 0 } [])) s

/-- STD_DEVICE_REMOTE_WAKEUP (R119): SET or CLEAR_FEATURE(DEVICE_REMOTE_WAKEUP) completes without effect. -/
def execStdDeviceRemoteWakeup (p : Port) (on : Bool) (s : State) : Host.Outcome State Fault Refusal :=
  run (ifUp (fun s => s.setup p { bmRequestType := 0, bRequest := if on then 3 else 1, wValue := 1, wIndex := 0, wLength := 0 } [])) s

/-- STD_SET_TEST_MODE (R119): SET_FEATURE(TEST_MODE) is answered with Request Error. -/
def execStdSetTestMode (p : Port) (selector : Byte) (s : State) : Host.Outcome State Fault Refusal :=
  run (ifUp (fun s => s.setup p { bmRequestType := 0, bRequest := 3, wValue := 2, wIndex := selector.setWidth 16 <<< 8, wLength := 0 } [])) s

/-- STD_SET_ADDRESS (R119): SET_ADDRESS records the upstream address locally. -/
def execStdSetAddress (p : Port) (address : BitVec 7) (s : State) : Host.Outcome State Fault Refusal :=
  run (ifUp (fun s => s.setup p { bmRequestType := 0, bRequest := 5, wValue := address.setWidth 16, wIndex := 0, wLength := 0 } [])) s

/-- STD_GET_DESCRIPTOR (R118): GET_DESCRIPTOR answered from the presented set or forwarded verbatim. -/
def execStdGetDescriptor (p : Port) (type index : Byte) (language len : BitVec 16) (s : State) : Host.Outcome State Fault Refusal :=
  run (ifUp (fun s => s.setup p { bmRequestType := 0x80, bRequest := 6, wValue := type.setWidth 16 <<< 8 ||| index.setWidth 16, wIndex := language, wLength := len } [])) s

/-- STD_SET_DESCRIPTOR (R119): SET_DESCRIPTOR forwarded without updating the cache. -/
def execStdSetDescriptor (p : Port) (type index : Byte) (language len : BitVec 16) (s : State) : Host.Outcome State Fault Refusal :=
  run (ifUp (fun s => s.setup p { bmRequestType := 0, bRequest := 7, wValue := type.setWidth 16 <<< 8 ||| index.setWidth 16, wIndex := language, wLength := len } [])) s

/-- STD_GET_CONFIGURATION (R119): GET_CONFIGURATION answered with the tracked value. -/
def execStdGetConfiguration (p : Port) (s : State) : Host.Outcome State Fault Refusal :=
  run (ifUp (fun s => s.setup p { bmRequestType := 0x80, bRequest := 8, wValue := 0, wIndex := 0, wLength := 1 } [])) s

/-- STD_SET_CONFIGURATION (R121): SET_CONFIGURATION stops and discards replaced contexts and is forwarded. -/
def execStdSetConfiguration (p : Port) (value : Byte) (s : State) : Host.Outcome State Fault Refusal :=
  run (ifUp (fun s => s.setup p { bmRequestType := 0, bRequest := 9, wValue := value.setWidth 16, wIndex := 0, wLength := 0 } [])) s

/-- STD_GET_INTERFACE (R119): GET_INTERFACE answered with the tracked alternate setting. -/
def execStdGetInterface (p : Port) (interface : Byte) (s : State) : Host.Outcome State Fault Refusal :=
  run (ifUp (fun s => s.setup p { bmRequestType := 0x81, bRequest := 10, wValue := 0, wIndex := interface.setWidth 16, wLength := 1 } [])) s

/-- STD_SET_INTERFACE (R121): SET_INTERFACE stops and discards the interface's contexts and is forwarded. -/
def execStdSetInterface (p : Port) (interface alt : Byte) (s : State) : Host.Outcome State Fault Refusal :=
  run (ifUp (fun s => s.setup p { bmRequestType := 0x01, bRequest := 11, wValue := alt.setWidth 16, wIndex := interface.setWidth 16, wLength := 0 } [])) s

/-- STD_SYNCH_FRAME (R119): SYNCH_FRAME is forwarded. -/
def execStdSynchFrame (p : Port) (ep : Byte) (s : State) : Host.Outcome State Fault Refusal :=
  run (ifUp (fun s => s.setup p { bmRequestType := 0x82, bRequest := 12, wValue := 0, wIndex := ep.setWidth 16, wLength := 2 } [])) s

/-- STD_SET_SEL (R119): SET_SEL records six bytes for the virtual link. -/
def execStdSetSel (p : Port) (data : List Byte) (s : State) : Host.Outcome State Fault Refusal :=
  run (ifUp (fun s => s.setup p { bmRequestType := 0, bRequest := 48, wValue := 0, wIndex := 0, wLength := 6 } data)) s

/-- STD_SET_ISOCH_DELAY (R119): SET_ISOCH_DELAY records wValue for isochronous timing. -/
def execStdSetIsochDelay (p : Port) (delay : BitVec 16) (s : State) : Host.Outcome State Fault Refusal :=
  run (ifUp (fun s => s.setup p { bmRequestType := 0, bRequest := 49, wValue := delay, wIndex := 0, wLength := 0 } [])) s

/-- STD_OTHER_REQUEST (R119): any other standard request on a lifted presentation is answered with Request Error. -/
def execStdOtherRequest (p : Port) (r : Setup) (s : State) : Host.Outcome State Fault Refusal :=
  run (ifUp (fun s => s.setup p r [])) s

/-- CLASS_VENDOR_REQUEST (R123): A class, vendor or reserved request is forwarded verbatim. -/
def execClassVendorRequest (p : Port) (r : Setup) (s : State) : Host.Outcome State Fault Refusal :=
  run (ifUp (fun s => s.setup p r [])) s

/-- CONTROL_WRITE_DATA_PACKET (R125): A host data-stage packet of a control write is sent downstream in 64-byte packets. -/
def execControlWriteDataPacket (p : Port) (bytes : List Byte) (s : State) : Host.Outcome State Fault Refusal :=
  run (ifUp (fun s => s.ctlOutPacket p bytes)) s

/-- DOWNSTREAM_CONTROL_IN_PACKET (R126): A device data-stage packet of a control read is repacked into 512-byte presented packets. -/
def execDownstreamControlInPacket (p : Port) (r : InAnswer) (s : State) : Host.Outcome State Fault Refusal :=
  run (ifUp (fun s => s.ctlInPacket p r)) s

/-- DOWNSTREAM_STATUS_COMPLETE (R127): the downstream status stage completes and the presented status stage follows. -/
def execDownstreamStatusComplete (p : Port) (r : XferResult) (s : State) : Host.Outcome State Fault Refusal :=
  run (ifUp (fun s => s.ctlStatus p r)) s

/-- MICROFRAME_BOUNDARY (R84): at each micro-frame the PCE issues staggered SOFs and schedules periodic, control and bulk transactions. -/
def execMicroframeBoundary (l : List Periodic) (s : State) : Host.Outcome State Fault Refusal :=
  run (ifUp (fun s => s.microFrame l)) s

/-- HS_BULK_IN_PACKET (R150): A High-Speed bulk IN data packet or handshake arrives and is paired under Table 5.4 and the snoop state. -/
def execHsBulkInPacket (p : Port) (ep : Byte) (r : InAnswer) (s : State) : Host.Outcome State Fault Refusal :=
  run (ifUp (fun s => s.bulkIn p ep r)) s

/-- HOLD_WINDOW_EXPIRY (R151): the first NAK at or after the hold window's end expires it and the held half is released. -/
def execHoldWindowExpiry (p : Port) (ep : Byte) (s : State) : Host.Outcome State Fault Refusal :=
  run (ifUp (fun s => s.holdExpiry p ep)) s

/-- SS_ACK_TP_RECEIVED (R143): A host ACK transaction packet on a lifted bulk IN endpoint is answered with packets or NRDY. -/
def execSsAckTpReceived (p : Port) (ep : Byte) (a : AckTp) (s : State) : Host.Outcome State Fault Refusal :=
  run (ifUp (fun s => s.ackRequest p ep a)) s

/-- SS_BULK_OUT_PACKET (R144): A host bulk OUT data packet is accepted into the buffer or answered NRDY. -/
def execSsBulkOutPacket (p : Port) (ep : Byte) (bytes : List Byte) (s : State) : Host.Outcome State Fault Refusal :=
  run (ifUp (fun s => s.bulkOut p ep bytes)) s

/-- HS_OUT_TRANSACTION_COMPLETE (R144): A downstream OUT transaction completes, freeing room and sending ERDY where awaited. [DEDUCED: log 60] -/
def execHsOutTransactionComplete (p : Port) (ep : Byte) (r : OutAnswer) (s : State) : Host.Outcome State Fault Refusal :=
  run (ifUp (fun s => if ep = 0 then s.ctlOutDone p r else s.bulkOutDone p ep r)) s

/-- HS_OUT_STALL (R176): A device STALL on bulk OUT discards the held data and is presented at the host's next packet. [DEDUCED: log 60] -/
def execHsOutStall (p : Port) (ep : Byte) (s : State) : Host.Outcome State Fault Refusal :=
  run (ifUp (fun s => if ep = 0 then s.ctlOutStall p else s.bulkOutStall p ep)) s

/-- INTEREST_LAPSE (R142): 1 ms after the last ACK transaction packet the host's interest lapses and IN tokens stop. -/
def execInterestLapse (p : Port) (ep : Byte) (s : State) : Host.Outcome State Fault Refusal :=
  run (ifUp (fun s => s.interestLapse p ep)) s

/-- SS_INTERRUPT_OUT_INTERVAL (R158): A host interrupt OUT service interval is delivered downstream whole. -/
def execSsInterruptOutInterval (p : Port) (ep : Byte) (bytes : List Byte) (s : State) : Host.Outcome State Fault Refusal :=
  run (ifUp (fun s => s.interruptOut p ep bytes)) s

/-- ISOCH_TIMESTAMP_RECEIVED (R160): an isochronous timestamp packet updates the phase of UPk's bus intervals. -/
def execIsochTimestampReceived (k : Part) (interval : BitVec 14) (delta : BitVec 13) (s : State) : Host.Outcome State Fault Refusal :=
  run (ifUp (fun s => s.timestamp k interval delta)) s

/-- SS_ISO_OUT_PACKET (R161): host isochronous OUT data is accepted and sent downstream 8 micro-frames later. -/
def execSsIsoOutPacket (p : Port) (ep : Byte) (bytes : List Byte) (bad : Bool) (s : State) : Host.Outcome State Fault Refusal :=
  run (ifUp (fun s => s.isoOut p ep bytes bad)) s

end Sys2Proof.Machine
end

