-- ==== Sys2Proof/Machine/RowsModes.lean ====
section
/-! DEFINITION. Modes, supplies, clocks, wake and AVSBus (chapter 10): what each row does. -/

namespace Sys2Proof.Machine

open Sys2Proof

/-- PORST_RELEASE (R330): PORST_N released: the device leaves Off, samples the straps and runs the Dawn start-up sequence of Table 10.15. -/
def execPorstRelease (testmode : Bool) (board : BoardIn) (s : State) : Host.Outcome State Fault Refusal :=
  run (fun s => s.porstRelease testmode board) s

/-- PORST_ASSERT (R362): PORST_N held low for at least 10 us resets the whole device into Off and puts every ball in its reset condition. [DEDUCED: log 17] -/
def execPorstAssert (s : State) : Host.Outcome State Fault Refusal :=
  run (fun s => s.powerOff) s

/-- VAON_FAILURE (R356): VAON falls below 2.80 V and the device acts as on PORST_N. [DEDUCED: log 17] -/
def execVaonFailure (s : State) : Host.Outcome State Fault Refusal :=
  run (fun s => s.powerOff) s

/-- WRST_ASSERT (R363): WRST_N low for more than 1 us resets every switched domain and enters Dawn, keeping AON state. -/
def execWrstAssert (s : State) : Host.Outcome State Fault Refusal :=
  run (fun s => s.wrstAssert) s

/-- EVENING_HOLD_EXPIRY (R330): all automatic Evening causes have stayed clear for EVENING_HOLD and the device returns to Noon. -/
def execEveningHoldExpiry (s : State) : Host.Outcome State Fault Refusal :=
  run (ifAon (fun s => s.eveningOver)) s

/-- AUTO_NIGHT_START (R334): the Night condition has held for NIGHT_DELAY and the device starts a transition to Night. -/
def execAutoNightStart (s : State) : Host.Outcome State Fault Refusal :=
  run (ifAon (fun s => s.autoNight)) s

/-- DUSK_STEPS_COMPLETE (R331): the Dusk steps for the target complete and PREPARE(target) is sent to the participants. -/
def execDuskStepsComplete (s : State) : Host.Outcome State Fault Refusal :=
  run (ifAon (fun s => s.duskSteps)) s

/-- DUSK_STEP_BOUND_EXPIRY (R331): A Dusk step is not complete within its bound and the transition aborts with DEFER_EXPIRED. -/
def execDuskStepBoundExpiry (s : State) : Host.Outcome State Fault Refusal :=
  run (ifAon (fun s => s.duskBound)) s

/-- PREPARE_ANSWER (R336): A participant answers PREPARE with ACCEPT, REFUSE or DEFER, and the Power Controller sends ENTER or CANCEL when the answers are in. -/
def execPrepareAnswer (d : Fin 25) (defer : Bool) (s : State) : Host.Outcome State Fault Refusal :=
  run (ifAon (fun s => s.prepareAnswer d defer)) s

/-- PREPARE_DEFER_EXPIRY (R336): A participant is still deferring after its maximum and its answer counts as REFUSE with DEFER_EXPIRED. -/
def execPrepareDeferExpiry (d : Fin 25) (s : State) : Host.Outcome State Fault Refusal :=
  run (ifAon (fun s => s.deferExpired d)) s

/-- BUDGET_DOMAIN_ENTRY_START (R336): A domain's conditions hold under its governing budget, no sooner than 1 ms after a refusal, and the Power Controller starts PREPARE for a lower state. -/
def execBudgetDomainEntryStart (d : Fin 25) (s : State) : Host.Outcome State Fault Refusal :=
  run (ifAon (fun s => s.budgetEntry d)) s

/-- DOMAIN_EXIT_START (R199): at a link exit or a first packet for an idle path, the exits of every domain on the partition's path start in parallel. -/
def execDomainExitStart (k : Part) (s : State) : Host.Outcome State Fault Refusal :=
  run (ifAon (fun s => s.exitPath k)) s

/-- DOMAIN_EXIT_COMPLETE (R348): A domain reaches On and the accesses held for it are served. -/
def execDomainExitComplete (d : Fin 25) (s : State) : Host.Outcome State Fault Refusal :=
  run (ifAon (fun s => s.exitDone d)) s

/-- NIGHT_WAKE (R368): A wake source is recognised in Night and the device returns to its origin or Evening. -/
def execNightWake (code : Fin 32) (s : State) : Host.Outcome State Fault Refusal :=
  run (ifAon (fun s => if s.mode = .night then s.wake code.val else s)) s

/-- MIDNIGHT_WAKE (R341): an enabled wake source in Midnight runs start-up steps 1-10 with a digest check and reaches Morning without Dawn. [DESIGN CHOICE: log 18] -/
def execMidnightWake (code : Fin 32) (board : BoardIn) (s : State) : Host.Outcome State Fault Refusal :=
  run (ifAon (fun s => if s.mode = .midnight then ({ s with board }).wake code.val else s)) s

/-- WAKE_N_LOW (R367): WAKE_N held low for 10 us is a wake source in Night and Midnight. -/
def execWakeNLow (s : State) : Host.Outcome State Fault Refusal :=
  run (ifAon (fun s => s.wake 3)) s

/-- WAKE_TIMER_EXPIRY (R367): WAKE_TIMER elapses after entry to Night or Midnight and wakes the device. -/
def execWakeTimerExpiry (s : State) : Host.Outcome State Fault Refusal :=
  run (ifAon (fun s => s.wake 6)) s

/-- MIDNIGHT_DETACH_DISCHARGE_END (R338): 650 ms after a detach in Midnight the wake logic writes EN = 0 and DISCH = 0 in the port's word. -/
def execMidnightDetachDischargeEnd (p : Port) (s : State) : Host.Outcome State Fault Refusal :=
  run (ifAon (fun s => s.midnightDischarged p)) s

/-- DIE_SENSOR_SAMPLE (R355): the die sensors are read every 1 ms and threshold crossings are judged. -/
def execDieSensorSample (t : Tab 16 (BitVec 16)) (s : State) : Host.Outcome State Fault Refusal :=
  run (ifAon (fun s => s.sampleTemps t)) s

/-- THERMAL_EVENING_EXPIRY (R337): A sensor has stayed at or above TJ_EVENING for 1 s and raises the Evening cause THERMAL. -/
def execThermalEveningExpiry (sensor : Fin 16) (s : State) : Host.Outcome State Fault Refusal :=
  run (ifAon (fun s => s.thermalEvening sensor)) s

/-- TJ_CRITICAL_EXPIRY (R355): A sensor has stayed at or above 115 C for 10 ms and raises a Fatal thermal fault. -/
def execTjCriticalExpiry (sensor : Fin 16) (s : State) : Host.Outcome State Fault Refusal :=
  run (ifAon (fun s => s.thermalCritical sensor)) s

/-- SUPPLY_WARNING (R356): A rail has stayed below its warning level for 100 us and raises the Evening cause SUPPLY. -/
def execSupplyWarning (r : Fin 8) (mv : Nat) (s : State) : Host.Outcome State Fault Refusal :=
  run (ifAon (fun s => s.supplyWarning r mv)) s

/-- SUPPLY_FAILURE (R356): A rail has stayed below its failure level for 10 us and raises a Fatal supply fault. -/
def execSupplyFailure (r : Fin 8) (mv : Nat) (s : State) : Host.Outcome State Fault Refusal :=
  run (ifAon (fun s => s.supplyFailure r mv)) s

/-- RC_TO_CRYSTAL_SWITCH (R358): the 32.768 kHz crystal has run stably for 100 ms and the AON timebase changes to it. -/
def execRcToCrystalSwitch (s : State) : Host.Outcome State Fault Refusal :=
  run (fun s => s.toCrystal) s

/-- RC_CALIBRATION (R358): every 1 s while MGT runs the RC oscillator is calibrated against the 25 MHz clock. -/
def execRcCalibration (s : State) : Host.Outcome State Fault Refusal :=
  run (ifAon (fun s => s.calibrate)) s

/-- REFCLK_LOSS (R359): A selected REFCLK has been absent or out of range for 10 us and the PLLs return to the crystal. -/
def execRefclkLoss (s : State) : Host.Outcome State Fault Refusal :=
  run (ifAon (fun s => s.refclkLoss)) s

/-- AVS_REEVALUATE (R352): the VDD_CORE target is re-evaluated at least every 100 ms and a voltage request is sent where needed. -/
def execAvsReevaluate (s : State) : Host.Outcome State Fault Refusal :=
  run (ifAon (fun s => s.avsEvaluate)) s

/-- AVS_REQUEST_COMPLETE (R351): the regulator status reports the target reached and the voltage becomes the confirmed one. -/
def execAvsRequestComplete (voltage current temp status : BitVec 16) (s : State) : Host.Outcome State Fault Refusal :=
  run (ifAon (fun s => if (s.armed 0x005 0x34).isSome then s.forced 0x005 (fun s => s.avsTimeout) else s.avsComplete voltage current temp status)) s

/-- AVS_TIMEOUT (R354): an AVSBus request is not complete 2 ms after its write frame; a fault is recorded and the Evening cause AVS raised. -/
def execAvsTimeout (s : State) : Host.Outcome State Fault Refusal :=
  run (ifAon (fun s => s.avsTimeout)) s

/-- AVS_HOLDOFF_EXPIRY (R354): 100 ms after a timeout the next AVSBus request may be sent. -/
def execAvsHoldoffExpiry (s : State) : Host.Outcome State Fault Refusal :=
  run (ifAon (fun s => s.avsHoldoffOver)) s

/-- SUPPLY_WARNING_CLEAR (R337): every rail rises above its warning level plus 1 % and the Evening cause SUPPLY clears, starting EVENING_HOLD. -/
def execSupplyWarningClear (s : State) : Host.Outcome State Fault Refusal :=
  run (ifAon (fun s => s.supplyRestored)) s

/-- MIDNIGHT_CONTRACT_RELEASE_EXPIRY (R331): A sink that has not contracted at 5 V within 1,000 ms of its new capabilities in Dusk toward Midnight is sent Hard Reset. -/
def execMidnightContractReleaseExpiry (p : Port) (s : State) : Host.Outcome State Fault Refusal :=
  run (ifAon (fun s => s.releaseExpired p)) s

/-- WRST_RELEASE (R364): WRST_N rises after a warm reset and the straps are sampled for the Dawn that follows. -/
def execWrstRelease (board : BoardIn) (s : State) : Host.Outcome State Fault Refusal :=
  run (fun s => s.wrstRelease board) s

end Sys2Proof.Machine
end

