-- ==== Sys2Proof/Machine/RowsOob.lean ====
section
/-! DEFINITION. The out-of-band mailboxes and registers (chapter 11): what each row does. -/

namespace Sys2Proof.Machine

open Sys2Proof

/-- DOORBELL_RING (R390): A write of 1 to DOORBELL bit m submits mailbox m's command and sets CMD_BUSY. -/
def execDoorbellRing (bus : OobBus) (mask : BitVec 3) (s : State) : Host.Outcome State Fault Refusal :=
  run (fun s => s.writeDoorbell bus mask) s

/-- SMBUS_DOORBELL_WRITE (R392): the SMBus Write Byte with command code 0x03 rings mailbox C. -/
def execSmbusDoorbellWrite (pecOk : Bool) (s : State) : Host.Outcome State Fault Refusal :=
  run (fun s => if pecOk then s.ringDoorbell 2 else s) s

/-- SMBUS_SET_POINTER (R392): the SMBus Write Word with command code 0x01 sets the register-space pointer. -/
def execSmbusSetPointer (address : BitVec 16) (pecOk : Bool) (s : State) : Host.Outcome State Fault Refusal :=
  run (fun s => if s.oobAnswers && pecOk then { s with smbus := { s.smbus with pointer := address, rx := [] } } else s) s

/-- SMBUS_ALERT_RESPONSE (R393): the SMBus target answers the Alert Response Address with its own address. [PRESUMED: log 31] -/
def execSmbusAlertResponse (s : State) : Host.Outcome State Fault Refusal :=
  run (fun s => if s.oobAnswers && s.oobServed && s.alert then s.emit (.smbusAddress s.smbus.address) else s) s

/-- RSP_DONE (R391): A write of MB_CONTROL.RSP_DONE releases the response buffer and the next response enters within 10 us. -/
def execRspDone (m : Mbox) (s : State) : Host.Outcome State Fault Refusal :=
  run (fun s => s.rspDone m) s

/-- EVT_DONE (R391): A write of MB_CONTROL.EVT_DONE releases the event buffer and the next event enters. -/
def execEvtDone (m : Mbox) (s : State) : Host.Outcome State Fault Refusal :=
  run (fun s => s.evtDone m) s

/-- CRC_ERR_CLEAR (R372): A write of 1 to MB_STATUS.CRC_ERR clears the flag. -/
def execCrcErrClear (m : Mbox) (s : State) : Host.Outcome State Fault Refusal :=
  run (fun s => s.crcErrClear m) s

/-- REGISTER_WRITE (R389): A write to an OOB register or buffer without behaviour of its own, such as ALERT_ENABLE or a command buffer. -/
def execRegisterWrite (w : OobWrite) (bytes : List Byte) (s : State) : Host.Outcome State Fault Refusal :=
  run (fun s => s.oobWrite w bytes) s

/-- SMBUS_CLOCK_LOW_TIMEOUT (R445): SMB_SCL held low beyond the SMBus 3.0 clock-low timeout resets the SMBus target's transaction. -/
def execSmbusClockLowTimeout (s : State) : Host.Outcome State Fault Refusal :=
  run (fun s => { s with smbus := { s.smbus with rx := [] } }) s

end Sys2Proof.Machine
end

