-- ==== Sys2Proof/Machine/RowsPbm.lean ====
section
/-! DEFINITION. The buffer memory (chapter 7): what each row does. -/

namespace Sys2Proof.Machine

open Sys2Proof

/-- MERGE_AGE_FLUSH (R225): A merge-buffer entry 64 ns old is flushed, with read-modify-write where incomplete. -/
def execMergeAgeFlush (b : Bank) (word : Nat) (s : State) : Host.Outcome State Fault Refusal :=
  run (ifUp (fun s => s.mergeAge b word)) s

/-- SCRUB_WORD (R231): the patrol scrubber reads the next word of a bank and rewrites, skips or records it. -/
def execScrubWord (b : Bank) (queued : Bool) (s : State) : Host.Outcome State Fault Refusal :=
  run (ifUp (fun s => s.scrubWord b queued)) s

/-- BUCKET_LEAK_INTERVAL (R220): at the end of each BUCKET_LEAK interval each bucket loses 1. -/
def execBucketLeakInterval (s : State) : Host.Outcome State Fault Refusal :=
  run (ifUp (fun s => s.bucketLeak)) s

/-- BANK_ROW_EMPTY_MOVE (R236): A row of a closed bank holds no data and its row table entry moves to a free row elsewhere. -/
def execBankRowEmptyMove (b : Bank) (row : Nat) (s : State) : Host.Outcome State Fault Refusal :=
  run (ifUp (fun s => s.emptyRowMove b row)) s

/-- BANK_ROW_TIMEOUT_COPY (R236): A row of a closed bank still holds data after 100 ms and is copied with its data. -/
def execBankRowTimeoutCopy (b : Bank) (row : Nat) (s : State) : Host.Outcome State Fault Refusal :=
  run (ifUp (fun s => s.timeoutRowCopy b row)) s

end Sys2Proof.Machine
end

