-- ==== Sys2Proof/Machine/RowsPd.lean ====
section
/-! DEFINITION. Type-C, PD and the UARTs (chapter 8): what each row does. -/

namespace Sys2Proof.Machine

open Sys2Proof

/-- CC_PATTERN_CHANGE (R254): A downstream CC classification change moves the port between UNATTACHED and ATTACH_WAIT. -/
def execCcPatternChange (p : Port) (cc1 cc2 : CcLine) (s : State) : Host.Outcome State Fault Refusal :=
  run (ifAon (fun s => s.ccChange p cc1 cc2)) s

/-- TCC_DEBOUNCE_EXPIRY (R254): an attach pattern held tCCDebounce enters ATTACHED, DEBUG_ACC or UNSUPPORTED_ACC. -/
def execTccDebounceExpiry (p : Port) (s : State) : Host.Outcome State Fault Refusal :=
  run (ifAon (fun s => s.portWakes p 0 (fun s => s.ccDebounced p))) s

/-- TPD_DEBOUNCE_EXPIRY (R254): rd lost for tPDDebounce detaches the port; PDEk removes VBUS and VCONN and ends the contract. -/
def execTpdDebounceExpiry (p : Port) (s : State) : Host.Outcome State Fault Refusal :=
  run (ifAon (fun s => s.portWakes p 1 (fun s => s.rdLost p))) s

/-- RA_LOST (R254): ra lost on either line returns UNSUPPORTED_ACC to UNATTACHED. -/
def execRaLost (p : Port) (s : State) : Host.Outcome State Fault Refusal :=
  run (ifAon (fun s => s.raLost p)) s

/-- VCONN_OVERCURRENT (R284): A VCONN over-current lasting 1 ms takes the port to ERROR_RECOVERY. -/
def execVconnOvercurrent (p : Port) (s : State) : Host.Outcome State Fault Refusal :=
  run (ifAon (fun s => s.vconnOvercurrent p)) s

/-- ERROR_RECOVERY_EXPIRY (R254): tErrorRecovery has elapsed with VBUS at vSafe0V and Rp is applied again. -/
def execErrorRecoveryExpiry (p : Port) (s : State) : Host.Outcome State Fault Refusal :=
  run (ifAon (fun s => s.recoveryDone p)) s

/-- CABLE_DISCOVERY_START (R266): after PGOOD, Discover Identity on SOP' obtains the cable VDO before the first Source_Capabilities. -/
def execCableDiscoveryStart (p : Port) (s : State) : Host.Outcome State Fault Refusal :=
  run (ifUp (fun s => s.discoverStart p)) s

/-- SOURCE_CAPABILITIES_SEND (R266): source_Capabilities are sent with the cable, Evening and card clamps applied. -/
def execSourceCapabilitiesSend (p : Port) (s : State) : Host.Outcome State Fault Refusal :=
  run (ifUp (fun s => s.capsDue p)) s

/-- TYPEC_SEND_SOURCE_CAP_EXPIRY (R263): tTypeCSendSourceCap elapses without GoodCRC and Source_Capabilities are resent up to nCapsCount. -/
def execTypecSendSourceCapExpiry (p : Port) (s : State) : Host.Outcome State Fault Refusal :=
  run (ifUp (fun s => s.capsTimer p)) s

/-- PD_SOP_DETECTED (R277): an SOP* starts a message at a port receiver and the writer places its item when room exists. -/
def execPdSopDetected (p : Port) (sop : Fin 5) (size : Fin 300) (s : State) : Host.Outcome State Fault Refusal :=
  run (ifUp (fun s => (s.sopDetected (slotOf p) (posInSlot p).castSucc sop.val size.val).sopPrecedence p)) s

/-- PD_MESSAGE_RECEIVED (R267): A complete PD message with good CRC is acknowledged, queued and answered by the auto-responder rules. -/
def execPdMessageReceived (p : Port) (sop : Fin 5) (bytes : List Byte) (s : State) : Host.Outcome State Fault Refusal :=
  run (ifUp (fun s => s.pdReceived p sop bytes)) s

/-- PD_GOODCRC_RECEIVED (R256): goodCRC for a transmitted message completes it, reporting SENT or starting the next step of the sequence. -/
def execPdGoodcrcReceived (p : Port) (s : State) : Host.Outcome State Fault Refusal :=
  run (ifUp (fun s => s.goodCrcFor p)) s

/-- PD_RECEIVE_TIMEOUT (R256): tReceive passes without GoodCRC and the message is retried, or Soft_Reset or Hard Reset follows. -/
def execPdReceiveTimeout (p : Port) (s : State) : Host.Outcome State Fault Refusal :=
  run (ifUp (fun s => s.receiveTimeout p)) s

/-- FWD_DEADLINE_EXPIRY (R268): FWD_DEADLINE passes without host software's PD_SEND and PDEk sends the deadline answer. -/
def execFwdDeadlineExpiry (p : Port) (s : State) : Host.Outcome State Fault Refusal :=
  run (ifUp (fun s => s.fwdDeadline p)) s

/-- WAIT_RETRY_EXPIRY (R262): WAIT_RETRY after a Wait, the request message is retried with a fresh MessageID. -/
def execWaitRetryExpiry (p : Port) (s : State) : Host.Outcome State Fault Refusal :=
  run (ifUp (fun s => s.waitRetryDue p)) s

/-- SINK_TX_EXPIRY (R259): tSinkTx after setting SinkTxNG, PDEk starts its own atomic message sequence. -/
def execSinkTxExpiry (p : Port) (s : State) : Host.Outcome State Fault Refusal :=
  run (ifUp (fun s => s.sinkTxDone p)) s

/-- SENDER_RESPONSE_TIMEOUT (R263): tSenderResponse or tVDMSenderResponse expires without the expected response. -/
def execSenderResponseTimeout (p : Port) (s : State) : Host.Outcome State Fault Refusal :=
  run (ifUp (fun s => s.responseTimeout p)) s

/-- NO_RESPONSE_TIMEOUT (R263): tNoResponse after Hard Resets nHardResetCount times, the partner is treated as not PD-capable. -/
def execNoResponseTimeout (p : Port) (s : State) : Host.Outcome State Fault Refusal :=
  run (ifUp (fun s => s.noResponse p)) s

/-- PPS_TIMEOUT (R263): no Request arrives within tPPSTimeout under a PPS contract and PDEk sends Hard Reset. -/
def execPpsTimeout (p : Port) (s : State) : Host.Outcome State Fault Refusal :=
  run (ifUp (fun s => s.ppsTimeout p)) s

/-- SRC_TRANSITION_EXPIRY (R267): tSrcTransition after the Accept, the chain word carries the new level or PS_RDY is sent for an unchanged contract. -/
def execSrcTransitionExpiry (p : Port) (s : State) : Host.Outcome State Fault Refusal :=
  run (ifUp (fun s => s.srcTransition p)) s

/-- TRANSITION_PGOOD (R318): PGOOD at the new level is reported, PS_RDY is sent and the explicit contract is reported. -/
def execTransitionPgood (p : Port) (s : State) : Host.Outcome State Fault Refusal :=
  run (ifUp (fun s => s.transitionPgood p)) s

/-- TRANSITION_TIMEOUT (R271): A transition's PGOOD does not arrive in bound; Hard Reset is sent and a fault recorded. -/
def execTransitionTimeout (p : Port) (s : State) : Host.Outcome State Fault Refusal :=
  run (ifUp (fun s => s.transitionTimeout p)) s

/-- HARD_RESET_RECEIVED (R273): A Hard Reset received as source ends the contract and starts the Hard Reset sequence. -/
def execHardResetReceived (p : Port) (s : State) : Host.Outcome State Fault Refusal :=
  run (ifUp (fun s => s.hardResetReceived p)) s

/-- PS_HARD_RESET_EXPIRY (R273): tPSHardReset after the Hard Reset, EN = 0 with DISCH = 1 and VCONN off. -/
def execPsHardResetExpiry (p : Port) (s : State) : Host.Outcome State Fault Refusal :=
  run (ifUp (fun s => s.psHardReset p)) s

/-- SRC_RECOVER_EXPIRY (R273): tSrcRecover after vSafe0V, VBUS returns at vSafe5V and VCONN where Ra is seen. -/
def execSrcRecoverExpiry (p : Port) (s : State) : Host.Outcome State Fault Refusal :=
  run (ifUp (fun s => s.srcRecover p)) s

/-- VCONN_SOURCE_TIMEOUT (R285): no PS_RDY within tVCONNSourceTimeout in a VCONN swap; VCONN stays on and Hard Reset is sent. -/
def execVconnSourceTimeout (p : Port) (s : State) : Host.Outcome State Fault Refusal :=
  run (ifUp (fun s => s.vconnTimeout p)) s

/-- VCONN_LINE_LOW (R286): the VCONN line reads below 0.8 V and the device turns VCONN on again. -/
def execVconnLineLow (p : Port) (s : State) : Host.Outcome State Fault Refusal :=
  run (ifUp (fun s => s.vconnLow p)) s

/-- PD_QUEUE_POP (R279): management firmware pops the head word of the PD Receive Queue drain bank. -/
def execPdQueuePop (k : Slot) (s : State) : Host.Outcome State Fault Refusal :=
  run (ifUp (fun s => s.popQueue k)) s

/-- CDC_SET_LINE_CODING (R291): SET_LINE_CODING on a UART slot sets UART_BAUD or is answered with Request Error. -/
def execCdcSetLineCoding (k : Part) (u : Fin 6) (rate : BitVec 32) (format parity bits : Byte) (s : State) : Host.Outcome State Fault Refusal :=
  run (ifUp (fun s => if s.mfOpen k then s.cdcSetLine k u rate.toNat format.toNat parity.toNat bits.toNat else s)) s

/-- CDC_GET_LINE_CODING (R291): GET_LINE_CODING returns the bound port's UART settings. -/
def execCdcGetLineCoding (k : Part) (u : Fin 6) (s : State) : Host.Outcome State Fault Refusal :=
  run (ifUp (fun s => if s.mfOpen k then s.cdcGetLine k u else s)) s

/-- CDC_SET_CONTROL_LINE_STATE (R291): SET_CONTROL_LINE_STATE completes without effect. -/
def execCdcSetControlLineState (k : Part) (_u : Fin 6) (_lines : BitVec 16) (s : State) : Host.Outcome State Fault Refusal :=
  run (ifUp (fun s => if s.mfOpen k then s.ctlOk k else s)) s

/-- CDC_SEND_BREAK (R291): SEND_BREAK completes without effect. -/
def execCdcSendBreak (k : Part) (_u : Fin 6) (_ms : BitVec 16) (s : State) : Host.Outcome State Fault Refusal :=
  run (ifUp (fun s => if s.mfOpen k then s.ctlOk k else s)) s

/-- CDC_BULK_OUT_DATA (R288): the host sends data on a UART slot's CDC bulk OUT endpoint, which goes to the bound port's UART or is discarded on an unbound slot. -/
def execCdcBulkOutData (k : Part) (u : Fin 6) (data : List Byte) (s : State) : Host.Outcome State Fault Refusal :=
  run (ifUp (fun s => if s.mfOpen k then s.cdcOut k u data else s)) s

/-- SBU_UART_RX (R288): A character arrives on the RX line of a port's SBU UART and is buffered for the slot's CDC bulk IN endpoint. -/
def execSbuUartRx (p : Port) (c : Byte) (s : State) : Host.Outcome State Fault Refusal :=
  run (ifUp (fun s => s.uartRx p c)) s

end Sys2Proof.Machine
end

