-- ==== Sys2Proof/Machine/RowsPortCmds.lean ====
section
/-! DEFINITION. Port, Lift and PD commands: what each row does. -/

namespace Sys2Proof.Machine

open Sys2Proof

/-- PORT_GET (R68): returns a port's state, mode, path, Type-C and contract status. -/
def execPortGet (m : VcpMsg) (s : State) : Host.Outcome State Fault Refusal :=
  runVcp 0x0301 m s

/-- PORT_SET_MODE (R66): changes a port's data mode and per-port settings, detaching and re-attaching a presented device. -/
def execPortSetMode (m : VcpMsg) (s : State) : Host.Outcome State Fault Refusal :=
  runVcp 0x0302 m s

/-- PORT_RESET (R95): drains the port, resets its device and handles it as a fresh attach. -/
def execPortReset (m : VcpMsg) (s : State) : Host.Outcome State Fault Refusal :=
  runVcp 0x0303 m s

/-- PORT_QUENCH (R92): stops every packet to and from a port within 1 ms. -/
def execPortQuench (m : VcpMsg) (s : State) : Host.Outcome State Fault Refusal :=
  runVcp 0x0304 m s

/-- PORT_RELEASE (R93): ends a quench and returns the port to the state its bus or mode gives. -/
def execPortRelease (m : VcpMsg) (s : State) : Host.Outcome State Fault Refusal :=
  runVcp 0x0305 m s

/-- PORT_SET_BC (R79): writes a port's BC_MODE, effective at once in IDLE and otherwise at the next disconnect. -/
def execPortSetBc (m : VcpMsg) (s : State) : Host.Outcome State Fault Refusal :=
  runVcp 0x0306 m s

/-- LIFT_GET_POLICY (R103): returns a partition's class allow list. -/
def execLiftGetPolicy (m : VcpMsg) (s : State) : Host.Outcome State Fault Refusal :=
  runVcp 0x0401 m s

/-- LIFT_SET_CLASSLIST (R103): replaces a partition's class allow list. -/
def execLiftSetClasslist (m : VcpMsg) (s : State) : Host.Outcome State Fault Refusal :=
  runVcp 0x0402 m s

/-- LIFT_SET_EP_BOUNDARY (R152): writes the boundary mode and hold window of a lifted bulk IN endpoint. -/
def execLiftSetEpBoundary (m : VcpMsg) (s : State) : Host.Outcome State Fault Refusal :=
  runVcp 0x0403 m s

/-- LIFT_GET_EP_STATS (R175): returns a lifted port's per-endpoint counters, optionally clearing them. -/
def execLiftGetEpStats (m : VcpMsg) (s : State) : Host.Outcome State Fault Refusal :=
  runVcp 0x0404 m s

/-- LIFT_CLEAR_POISON (R172): clears poison on a lifted endpoint without downstream traffic. -/
def execLiftClearPoison (m : VcpMsg) (s : State) : Host.Outcome State Fault Refusal :=
  runVcp 0x0405 m s

/-- PD_SET_OFFER (R264): writes a port's OFFER and PD_ENABLE and sends new Source_Capabilities within 50 ms. -/
def execPdSetOffer (m : VcpMsg) (s : State) : Host.Outcome State Fault Refusal :=
  runVcp 0x0501 m s

/-- PD_SEND (R257): sends a PD message on a port and reports its outcome. -/
def execPdSend (m : VcpMsg) (s : State) : Host.Outcome State Fault Refusal :=
  runVcp 0x0502 m s

/-- PD_SET_AUTORESP (R267): writes a port's auto-responder policy: GRANT, UNMATCHED_ACTION, deadline, REPORT, VCONN_SWAP and canned entries. -/
def execPdSetAutoresp (m : VcpMsg) (s : State) : Host.Outcome State Fault Refusal :=
  runVcp 0x0503 m s

/-- PD_HARD_RESET (R273): sends a Hard Reset on a port and runs the Hard Reset sequence. -/
def execPdHardReset (m : VcpMsg) (s : State) : Host.Outcome State Fault Refusal :=
  runVcp 0x0504 m s

/-- CC_SET_RP (R252): writes a port's Rp level, or enters ERROR_RECOVERY. -/
def execCcSetRp (m : VcpMsg) (s : State) : Host.Outcome State Fault Refusal :=
  runVcp 0x0505 m s

/-- SBU_SET_ROUTE (R289): sets a port's SBU routing, debug-UART option and UART rate, binding a UART slot. -/
def execSbuSetRoute (m : VcpMsg) (s : State) : Host.Outcome State Fault Refusal :=
  runVcp 0x0506 m s

/-- PD_SET_TIMERS (R262): writes a port's WAIT_RETRY interval. -/
def execPdSetTimers (m : VcpMsg) (s : State) : Host.Outcome State Fault Refusal :=
  runVcp 0x0507 m s

end Sys2Proof.Machine
end

