-- ==== Sys2Proof/Machine/RowsPorts.lean ====
section
/-! DEFINITION. Events of the downstream ports and the virtual hubs (chapters 2 and 3): what each row does. -/

namespace Sys2Proof.Machine

open Sys2Proof

/-- CONNECT_RECOGNISED (R70): A pull-up on D+ or D- held for TDCNN is recognised as a connect and the port leaves IDLE. -/
def execConnectRecognised (c : Connect) (s : State) : Host.Outcome State Fault Refusal :=
  run (ifUp (fun s => s.connectSeen c.port c.ss)) s

/-- DISCONNECT_RECOGNISED (R70): A disconnect on D+/D- or the SuperSpeed link starts a drain with reason UNPLUG. -/
def execDisconnectRecognised (p : Port) (s : State) : Host.Outcome State Fault Refusal :=
  run (ifUp (fun s => s.disconnectSeen p)) s

/-- PRESENTATION_POSSIBLE (R69): A PENDING port's presentation becomes possible and it proceeds as from IDLE. -/
def execPresentationPossible (p : Port) (s : State) : Host.Outcome State Fault Refusal :=
  run (ifUp (fun s => s.presentPending p)) s

/-- DEBOUNCE_COMPLETE (R71): A connect has persisted 100 ms and the device starts its own reset of the device. -/
def execDebounceComplete (p : Port) (s : State) : Host.Outcome State Fault Refusal :=
  run (ifUp (fun s => s.debounced p)) s

/-- DEVICE_RESET_SE0_END (R72): the device's own 20 ms SE0 ends and the speed is known. [DEDUCED: log 53] -/
def execDeviceResetSe0End (p : Port) (found : FoundSpeed) (s : State) : Host.Outcome State Fault Refusal :=
  run (ifUp (fun s => if (s.ports.get p).st = .probe ∨ (s.ports.get p).ownReset = true then s.se0End p found else s)) s

/-- RESET_RECOVERY_END (R72): 10 ms after SE0 the first token may be issued and the probe starts. -/
def execResetRecoveryEnd (p : Port) (s : State) : Host.Outcome State Fault Refusal :=
  run (ifUp (fun s => s.recoveryEnd p)) s

/-- PROBE_REQUEST_COMPLETE (R107): A probe or re-fetch request on EP0 completes and the next request is issued or the descriptors evaluated. -/
def execProbeRequestComplete (p : Port) (r : XferResult) (s : State) : Host.Outcome State Fault Refusal :=
  run (ifUp (fun s => s.probeRequest p r)) s

/-- PROBE_REQUEST_TIMEOUT (R108): A probe request not complete 100 ms after its SETUP fails and is retried once. -/
def execProbeRequestTimeout (p : Port) (s : State) : Host.Outcome State Fault Refusal :=
  run (ifUp (fun s => s.requestFails p)) s

/-- PROBE_TIMEOUT (R109): 840 ms after reset recovery without P5 complete, or 150 ms in a re-fetch, the probe fails. -/
def execProbeTimeout (p : Port) (s : State) : Host.Outcome State Fault Refusal :=
  run (ifUp (fun s => s.probeTimeout p)) s

/-- NATIVE_SS_U0_HELD (R96): A downstream SuperSpeed link has been in U0 for 100 ms with no D+/D- connect and the device is presented natively. -/
def execNativeSsU0Held (p : Port) (gen2 : Bool) (s : State) : Host.Outcome State Fault Refusal :=
  run (ifUp (fun s => s.ssU0Held p gen2)) s

/-- HOST_PORT_RESET (R130): setPortFeature(PORT_RESET or BH_PORT_RESET) on a leaf port resets the downstream device, with re-fetch for lifted devices. -/
def execHostPortReset (k : Part) (pos : Pos) (f : HubReset) (s : State) : Host.Outcome State Fault Refusal :=
  run (ifUp (fun s => if s.hubReached k f.side (leafOf pos) then s.hostPortReset k pos f.side (f = .bh) else s)) s

/-- HOST_RESET_SE0_END (R73): the SE0 of a host port reset ends and the port is enabled or re-fetched. [DEDUCED: log 53] -/
def execHostResetSe0End (p : Port) (found : FoundSpeed) (s : State) : Host.Outcome State Fault Refusal :=
  run (ifUp (fun s => if (s.ports.get p).st = .resetting ∧ (s.ports.get p).ownReset = false then s.se0End p found else s)) s

/-- HUB_TOP_PORT_RESET (R42): A reset of top-hub port h returns leaf hub h to default and its positions to reset-pending. -/
def execHubTopPortReset (k : Part) (f : HubReset) (n : Fin 9) (s : State) : Host.Outcome State Fault Refusal :=
  run (ifUp (fun s => if s.hubHeard k f.side then s.topPortReset k f.side n (f = .bh) else s)) s

/-- HUB_CLEAR_PORT_POWER (R42): clearPortFeature(PORT_POWER) powers off a SuperSpeed virtual port, and is accepted without effect on USB 2.0. -/
def execHubClearPortPower (k : Part) (side : Side) (q : HubPort) (s : State) : Host.Outcome State Fault Refusal :=
  run (ifUp (fun s => if s.hubReached k side (hubOf q) then s.clearPortPower k side q else s)) s

/-- HUB_SET_PORT_POWER (R42): setPortFeature(PORT_POWER) brings a SuperSpeed virtual port out of Powered-off. -/
def execHubSetPortPower (k : Part) (side : Side) (q : HubPort) (s : State) : Host.Outcome State Fault Refusal :=
  run (ifUp (fun s => if s.hubReached k side (hubOf q) then s.setPortPower k side q else s)) s

/-- HUB_SET_PORT_INDICATOR (R42): setPortFeature(PORT_INDICATOR) is answered with Request Error. -/
def execHubSetPortIndicator (k : Part) (side : Side) (q : HubPort) (s : State) : Host.Outcome State Fault Refusal :=
  run (ifUp (fun s => if s.hubReached k side (hubOf q) then s.ctlError k else s)) s

/-- HUB_PORT_SUSPEND (R87): host selective suspend of a passthrough or translated port under USB 2.0 hub rules. -/
def execHubPortSuspend (k : Part) (q : HubPort) (s : State) : Host.Outcome State Fault Refusal :=
  run (ifUp (fun s => if s.hubReached k .usb2 (hubOf q) then s.hubSuspend k q else s)) s

/-- HUB_PORT_RESUME (R87): host ClearPortFeature(PORT_SUSPEND) resumes a passthrough or translated port. -/
def execHubPortResume (k : Part) (q : HubPort) (s : State) : Host.Outcome State Fault Refusal :=
  run (ifUp (fun s => if s.hubReached k .usb2 (hubOf q) then s.hubResume k q else s)) s

/-- CLEAR_TT_BUFFER (R81): clears an entry in the addressed port's own TT. -/
def execClearTtBuffer (k : Part) (pos : Pos) (key : BitVec 16) (s : State) : Host.Outcome State Fault Refusal :=
  run (ifUp (fun s => if s.hubReached k .usb2 (leafOf pos) then s.clearTt k pos key else s)) s

/-- RESET_TT (R81): resets the addressed port's own TT only. -/
def execResetTt (k : Part) (pos : Pos) (s : State) : Host.Outcome State Fault Refusal :=
  run (ifUp (fun s => if s.hubReached k .usb2 (leafOf pos) then s.resetTt k pos else s)) s

/-- GET_TT_STATE (R42): answered with Request Error. -/
def execGetTtState (k : Part) (pos : Pos) (s : State) : Host.Outcome State Fault Refusal :=
  run (ifUp (fun s => if s.hubReached k .usb2 (leafOf pos) then s.ctlError k else s)) s

/-- STOP_TT (R42): answered with Request Error. -/
def execStopTt (k : Part) (pos : Pos) (s : State) : Host.Outcome State Fault Refusal :=
  run (ifUp (fun s => if s.hubReached k .usb2 (leafOf pos) then s.ctlError k else s)) s

/-- HUB_STANDARD_REQUEST (R42): any other hub-class request is answered as USB 3.2 or USB 2.0 prescribes. -/
def execHubStandardRequest (k : Part) (side : Side) (h : HubIx) (r : HubRequest) (s : State) : Host.Outcome State Fault Refusal :=
  run (ifUp (fun s => if s.hubReached k side h then s.hubRequest k side h r.setup r.lpmAck else s)) s

/-- LIFT_SUSPEND_ORDER (R134): within 1 ms of a virtual link entering U3 or all functions suspending, the Lift engine orders downstream suspend. -/
def execLiftSuspendOrder (p : Port) (s : State) : Host.Outcome State Fault Refusal :=
  run (ifUp (fun s => s.suspendOrder p)) s

/-- LIFT_RESUME_ORDER (R135): within 50 us of U3 exit or function resume, the Lift engine orders downstream resume. -/
def execLiftResumeOrder (p : Port) (s : State) : Host.Outcome State Fault Refusal :=
  run (ifUp (fun s => s.resumeOrder p)) s

/-- RESUME_K_END (R88): the 20 ms resume K ends with EOP and SOFs restart. -/
def execResumeKEnd (p : Port) (s : State) : Host.Outcome State Fault Refusal :=
  run (ifUp (fun s => s.resumeEnd p)) s

/-- REMOTE_WAKE_K_RECOGNISED (R165): remote-wake K held 50 us on a suspended bus is recognised, PCEj takes it over and the upstream wake starts. -/
def execRemoteWakeKRecognised (p : Port) (delta : BitVec 16) (s : State) : Host.Outcome State Fault Refusal :=
  run (ifUp (fun s => s.deviceWakes p (fun s => s.remoteWakeK p delta.toNat))) s

/-- U3_EXIT_HANDSHAKE_COMPLETE (R165): UPk and the virtual link reach U0 during a lifted wake and Function Wake is sent. -/
def execU3ExitHandshakeComplete (p : Port) (s : State) : Host.Outcome State Fault Refusal :=
  run (ifUp (fun s => s.deviceResumes (s.partOf.get p) (fun s => s.u3ExitDone p))) s

/-- HOST_U3_EXIT_COLLISION (R166): A host-initiated U3 exit during the wake window cancels the device's wake signalling. -/
def execHostU3ExitCollision (p : Port) (delta : BitVec 16) (s : State) : Host.Outcome State Fault Refusal :=
  run (ifUp (fun s => s.wakeCollision p delta.toNat)) s

/-- UNARMED_WAKE_RESUSPEND (R168): 1 ms after EOP of an unarmed wake with the virtual link still in U3, the bus is suspended again. -/
def execUnarmedWakeResuspend (p : Port) (s : State) : Host.Outcome State Fault Refusal :=
  run (ifUp (fun s => s.unarmedResuspend p)) s

/-- L1_IDLE_EXPIRY (R90): A lifted bus idle for L1_IDLE is placed in L1 where the conditions hold. -/
def execL1IdleExpiry (p : Port) (s : State) : Host.Outcome State Fault Refusal :=
  run (ifUp (fun s => s.l1Idle p)) s

/-- L1_EXIT_REQUEST (R91): A request or data for a lifted device in L1 starts the L1 exit within 2 us. -/
def execL1ExitRequest (p : Port) (s : State) : Host.Outcome State Fault Refusal :=
  run (ifUp (fun s => s.l1Exit p)) s

/-- PORT_BABBLE (R98): babble or a port error disables a passthrough port or stops a lifted bus into ERROR. -/
def execPortBabble (p : Port) (s : State) : Host.Outcome State Fault Refusal :=
  run (ifUp (fun s => s.babble p)) s

/-- DRAIN_COMPLETE (R74): all accepted data of a draining port is delivered and the virtual disconnect and PORT_DETACH follow. -/
def execDrainComplete (p : Port) (s : State) : Host.Outcome State Fault Refusal :=
  run (ifUp (fun s => s.drainComplete p)) s

/-- DRAIN_WINDOW_EXPIRY (R74): DRAIN_WINDOW ends and remaining data is discarded and counted. -/
def execDrainWindowExpiry (p : Port) (s : State) : Host.Outcome State Fault Refusal :=
  run (ifUp (fun s => s.drainExpired p)) s

/-- DISCHARGE_INTERVAL_END (R76): 650 ms after EN = 0 with DISCH = 1, the disable sequence completes and deferred requests run. -/
def execDischargeIntervalEnd (p : Port) (s : State) : Host.Outcome State Fault Refusal :=
  run (ifAon (fun s => s.dischargeEnd p)) s

/-- NATIVE_SS_PACKET_RECEIVED (R96): A packet from a natively presented SuperSpeed device, or for it from the host, is stored in its PBM hub packet buffer and forwarded. -/
def execNativeSsPacketReceived (p : Port) (fromDevice : Bool) (bytes : List Byte) (s : State) : Host.Outcome State Fault Refusal :=
  run (ifUp (fun s => s.nativePacket p fromDevice bytes)) s

/-- TT_SPLIT_TRANSACTION (R80): A host start-split or complete-split on the USB 2.0 side is handled by the addressed port's own transaction translator. -/
def execTtSplitTransaction (k : Part) (pos : Pos) (op : SplitOp) (s : State) : Host.Outcome State Fault Refusal :=
  run (ifUp (fun s => s.split k pos op)) s

/-- PASSTHROUGH_TRANSACTION (R86): A host packet on the USB 2.0 side for a passthrough position, including SOF and LPM, is repeated downstream and the device's answer upstream. -/
def execPassthroughTransaction (k : Part) (pos : Pos) (packet answer : List Byte) (lpmAck : Bool) (s : State) : Host.Outcome State Fault Refusal :=
  run (ifUp (fun s => s.repeat_ k pos packet answer lpmAck)) s

/-- VDP_SRC_DETECTED (R78): VDP_SRC seen on D+ of a CDP port before connect makes the device drive VDM_SRC on D-, removed per BC 1.2. -/
def execVdpSrcDetected (p : Port) (present : Bool) (s : State) : Host.Outcome State Fault Refusal :=
  run (ifUp (fun s => s.vdpSrc p present)) s

end Sys2Proof.Machine
end

