-- ==== Sys2Proof/Machine/RowsPowerCmds.lean ====
section
/-! DEFINITION. Slot, mode and memory commands: what each row does. -/

namespace Sys2Proof.Machine

open Sys2Proof

/-- SLOT_GET (R322): returns a slot's state, telemetry, trip counts and settings. -/
def execSlotGet (m : VcpMsg) (s : State) : Host.Outcome State Fault Refusal :=
  runVcp 0x0601 m s

/-- SLOT_SET_LIMITS (R321): writes a slot's protection settings and card profile. -/
def execSlotSetLimits (m : VcpMsg) (s : State) : Host.Outcome State Fault Refusal :=
  runVcp 0x0602 m s

/-- SLOT_ENABLE (R307): enables a slot, or runs the slot disable sequence. -/
def execSlotEnable (m : VcpMsg) (s : State) : Host.Outcome State Fault Refusal :=
  runVcp 0x0603 m s

/-- SLOT_CLEAR_LATCH (R301): clears a LATCHED slot's latch and trip history. -/
def execSlotClearLatch (m : VcpMsg) (s : State) : Host.Outcome State Fault Refusal :=
  runVcp 0x0604 m s

/-- VBUS_SET (R315): writes a port's VBUS setting; OFF is a disable order. -/
def execVbusSet (m : VcpMsg) (s : State) : Host.Outcome State Fault Refusal :=
  runVcp 0x0605 m s

/-- PPC_GET (R324): returns the chain words, received bytes, pair validity and holds of a slot's or port's chain. -/
def execPpcGet (m : VcpMsg) (s : State) : Host.Outcome State Fault Refusal :=
  runVcp 0x0606 m s

/-- MODE_GET (R328): returns the current mode, origin, cause and queued request. -/
def execModeGet (m : VcpMsg) (s : State) : Host.Outcome State Fault Refusal :=
  runVcp 0x0701 m s

/-- MODE_REQUEST (R333): requests an operating-mode change, started at once, queued or pre-empting. [DESIGN CHOICE: log 18] -/
def execModeRequest (m : VcpMsg) (board : BoardIn) (s : State) : Host.Outcome State Fault Refusal :=
  run (fun s => ({ s with board }).submit 0x0702 m) s

/-- LAT_BUDGET_SET (R347): writes a partition's latency budget. -/
def execLatBudgetSet (m : VcpMsg) (s : State) : Host.Outcome State Fault Refusal :=
  runVcp 0x0703 m s

/-- WAKE_SOURCES_SET (R329): writes WAKE_SOURCES and WAKE_TIMER. -/
def execWakeSourcesSet (m : VcpMsg) (s : State) : Host.Outcome State Fault Refusal :=
  runVcp 0x0704 m s

/-- AVS_GET (R354): returns the AVSBus target, confirmed voltage, readings and timeout count. -/
def execAvsGet (m : VcpMsg) (s : State) : Host.Outcome State Fault Refusal :=
  runVcp 0x0705 m s

/-- PBM_GET_STATS (R244): returns a bank's counters and optionally the sticky-word tracker, optionally clearing them. -/
def execPbmGetStats (m : VcpMsg) (s : State) : Host.Outcome State Fault Refusal :=
  runVcp 0x0801 m s

/-- PBM_SET_SCRUB (R243): writes the scrubber and bucket settings. -/
def execPbmSetScrub (m : VcpMsg) (s : State) : Host.Outcome State Fault Refusal :=
  runVcp 0x0802 m s

/-- PBM_RETIRE (R232): retires a row into a spare row, or closes a bank. -/
def execPbmRetire (m : VcpMsg) (s : State) : Host.Outcome State Fault Refusal :=
  runVcp 0x0803 m s

/-- PBM_FLIPMASK (R240): arms a bank's injector to corrupt the next write by a mask. -/
def execPbmFlipmask (m : VcpMsg) (s : State) : Host.Outcome State Fault Refusal :=
  runVcp 0x0804 m s

end Sys2Proof.Machine
end

