-- ==== Sys2Proof/Machine/RowsSession.lean ====
section
/-! DEFINITION. Session, information and partition commands (chapter 11): what each row does. -/

namespace Sys2Proof.Machine

open Sys2Proof

/-- HELLO_OPEN (R376): HELLO with OPEN opens a closed session, or is denied on an open one. [DEDUCED: log 26] -/
def execHelloOpen (m : VcpMsg) (s : State) : Host.Outcome State Fault Refusal :=
  runVcp 0x0001 (helloMsg 0 m) s

/-- HELLO_FORCE_OPEN (R376): HELLO with FORCE_OPEN closes the session as CLOSE would and opens it afresh. [DEDUCED: log 26] -/
def execHelloForceOpen (m : VcpMsg) (s : State) : Host.Outcome State Fault Refusal :=
  runVcp 0x0001 (helloMsg 1 m) s

/-- HELLO_GRANT (R378): A steward grants steward scope to a partition's MF session, at once or pending. [DEDUCED: log 26] -/
def execHelloGrant (m : VcpMsg) (s : State) : Host.Outcome State Fault Refusal :=
  runVcp 0x0001 (helloMsg 2 m) s

/-- HELLO_REVOKE (R378): A steward withdraws steward scope, or a pending grant, from a partition's MF session. [DEDUCED: log 26] -/
def execHelloRevoke (m : VcpMsg) (s : State) : Host.Outcome State Fault Refusal :=
  runVcp 0x0001 (helloMsg 3 m) s

/-- RESYNC (R385): reports the session's sequence state and optionally replays retained events. -/
def execResync (m : VcpMsg) (s : State) : Host.Outcome State Fault Refusal :=
  runVcp 0x0002 m s

/-- EVENT_ACK (R383): removes every event up to the named ESEQ from the session's event ring. -/
def execEventAck (m : VcpMsg) (s : State) : Host.Outcome State Fault Refusal :=
  runVcp 0x0003 m s

/-- CLOSE (R377): closes the session, emptying its ring, freeing its stored response and clearing its grant and staging. -/
def execClose (m : VcpMsg) (s : State) : Host.Outcome State Fault Refusal :=
  runVcp 0x0004 m s

/-- GET_INFO (R374): returns the device's identity, firmware and record information. -/
def execGetInfo (m : VcpMsg) (s : State) : Host.Outcome State Fault Refusal :=
  runVcp 0x0101 m s

/-- GET_STATUS (R374): returns the device's mode, partition, slot and fault summary. -/
def execGetStatus (m : VcpMsg) (s : State) : Host.Outcome State Fault Refusal :=
  runVcp 0x0102 m s

/-- GET_TEMPS (R355): returns the 16 die sensor readings. -/
def execGetTemps (m : VcpMsg) (s : State) : Host.Outcome State Fault Refusal :=
  runVcp 0x0103 m s

/-- UNSUPPORTED_OPCODE (R374): A command with an unknown opcode is answered UNSUPPORTED. -/
def execUnsupportedOpcode (opcode : BitVec 16) (m : VcpMsg) (s : State) : Host.Outcome State Fault Refusal :=
  runVcp opcode m s

/-- PART_GET (R204): returns a partition's state, settings, upstream status and position map, optionally clearing its counters. -/
def execPartGet (m : VcpMsg) (s : State) : Host.Outcome State Fault Refusal :=
  runVcp 0x0201 m s

/-- PART_ASSIGN_PORT (R49): moves a port to a partition and position by quench, drain, detach and attach. -/
def execPartAssignPort (m : VcpMsg) (s : State) : Host.Outcome State Fault Refusal :=
  runVcp 0x0202 m s

/-- PART_SET_LIMITS (R54): writes a partition's settings of Table 2.8. -/
def execPartSetLimits (m : VcpMsg) (s : State) : Host.Outcome State Fault Refusal :=
  runVcp 0x0203 m s

/-- PART_CONNECT (R56): sets CONNECT_ARMED and moves a Disabled or Held partition to Charge-only. -/
def execPartConnect (m : VcpMsg) (s : State) : Host.Outcome State Fault Refusal :=
  runVcp 0x0204 m s

/-- PART_DISCONNECT (R56): withdraws a partition's tree to Charge-only or Disabled and clears CONNECT_ARMED. -/
def execPartDisconnect (m : VcpMsg) (s : State) : Host.Outcome State Fault Refusal :=
  runVcp 0x0205 m s

/-- DEFERRED_DISCONNECT_EXECUTE (R57): 1-10 ms after the DEFERRED response to an MF's own PART_DISCONNECT, the transition is carried out. -/
def execDeferredDisconnectExecute (k : Part) (s : State) : Host.Outcome State Fault Refusal :=
  run (ifAon (fun s => s.deferredDisconnect k)) s

end Sys2Proof.Machine
end

