-- ==== Sys2Proof/Machine/RowsSlots.lean ====
section
/-! DEFINITION. Slots and power chains (chapter 9): what each row does. -/

namespace Sys2Proof.Machine

open Sys2Proof

/-- SEAT_N_LOW (R298): SEAT_N goes low on an EMPTY slot and the seat debounce starts. -/
def execSeatNLow (k : Slot) (s : State) : Host.Outcome State Fault Refusal :=
  run (ifAon (fun s => s.slotWakes k (fun s => s.seatLow k))) s

/-- SEAT_N_HIGH (R298): SEAT_N high for 1 us unseats the slot, turning the gate off within 2 us. -/
def execSeatNHigh (k : Slot) (s : State) : Host.Outcome State Fault Refusal :=
  run (ifAon (fun s => s.slotWakes k (fun s => s.seatHigh k false))) s

/-- SEAT_DEBOUNCE_EXPIRY (R298): SEAT_N has been low for SEAT_DEBOUNCE and the slot enters IDLE. -/
def execSeatDebounceExpiry (k : Slot) (s : State) : Host.Outcome State Fault Refusal :=
  run (ifAon (fun s => s.seatDebounced k)) s

/-- START_CONDITION_HOLDS (R298): ENABLE and the VIN window hold in IDLE and the ramp starts. -/
def execStartConditionHolds (k : Slot) (mv : Nat) (s : State) : Host.Outcome State Fault Refusal :=
  run (ifAon (fun s => s.startRamp k mv)) s

/-- PG_CONDITIONS_HOLD (R298): gate enhanced and VOUT at 90 % of VIN in RAMP start the PG delay. -/
def execPgConditionsHold (k : Slot) (s : State) : Host.Outcome State Fault Refusal :=
  run (ifAon (fun s => s.pgHold k)) s

/-- PG_CONDITIONS_LOST (R298): PG conditions are lost in PG_WAIT and the slot returns to RAMP. -/
def execPgConditionsLost (k : Slot) (s : State) : Host.Outcome State Fault Refusal :=
  run (ifAon (fun s => s.pgConditionsLost k)) s

/-- PG_DELAY_EXPIRY (R298): PG_DELAY elapses with PG conditions holding; the slot is ON and SPCn_PGD released. -/
def execPgDelayExpiry (k : Slot) (s : State) : Host.Outcome State Fault Refusal :=
  run (ifAon (fun s => s.pgDelay k)) s

/-- PG_LOST_TRIP (R298): VOUT or gate below its level for 10 us in ON trips the slot with kind PG_LOST. -/
def execPgLostTrip (k : Slot) (s : State) : Host.Outcome State Fault Refusal :=
  run (ifAon (fun s => s.slotWakes k (fun s => s.pgLost k false))) s

/-- FAST_TRIP (R294): sense voltage at 3 x VCB trips the slot within 300 ns. -/
def execFastTrip (k : Slot) (sense : BitVec 12) (s : State) : Host.Outcome State Fault Refusal :=
  run (ifAon (fun s => s.slotWakes k (fun s => s.fastTrip k sense.toNat false))) s

/-- BREAKER_TIMEOUT (R294): sense at or above VCB for T_FAULT trips the slot with kind BREAKER. -/
def execBreakerTimeout (k : Slot) (sense : BitVec 12) (s : State) : Host.Outcome State Fault Refusal :=
  run (ifAon (fun s => s.slotWakes k (fun s => s.breakerTrip k sense.toNat false false))) s

/-- RAMP_STALL (R299): the ramp-stall check fails, or PG is not reached in 1,000 ms, and the slot trips. -/
def execRampStall (k : Slot) (s : State) : Host.Outcome State Fault Refusal :=
  run (ifAon (fun s => s.slotWakes k (fun s => s.rampStall k false))) s

/-- VIN_WINDOW_EXIT (R298): VIN leaves its window; the gate is turned off and the slot goes to IDLE uncounted. -/
def execVinWindowExit (k : Slot) (mv : Nat) (s : State) : Host.Outcome State Fault Refusal :=
  run (ifAon (fun s => s.slotWakes k (fun s => s.vinExit k mv false))) s

/-- OFF_TIME_EXPIRY (R300): the 100 x T_FAULT off-time ends and the slot retries or goes to IDLE. -/
def execOffTimeExpiry (k : Slot) (mv : Nat) (s : State) : Host.Outcome State Fault Refusal :=
  run (ifAon (fun s => s.offTime k mv)) s

/-- TRIP_WINDOW_AGING (R300): A counted trip leaves the trailing TRIP_WINDOW. -/
def execTripWindowAging (k : Slot) (s : State) : Host.Outcome State Fault Refusal :=
  run (ifAon (fun s => s.tripAging k)) s

/-- SLOT_TELEMETRY_SAMPLE (R296): VIN, VOUT and sense telemetry are sampled every 1 ms. -/
def execSlotTelemetrySample (k : Slot) (vin vout sense : BitVec 12) (s : State) : Host.Outcome State Fault Refusal :=
  run (ifAon (fun s => s.slotSample k vin vout sense)) s

/-- SLOT_DISABLE_TIMEOUT (R307): 650 ms into a slot disable, the SPC turns the gate off and ports without vSafe0V enter hold. -/
def execSlotDisableTimeout (k : Slot) (s : State) : Host.Outcome State Fault Refusal :=
  run (ifAon (fun s => s.slotDisableTimeout k)) s

/-- CHAIN_FRAME (R311): every 100 us (10 ms in Midnight) a chain frame applies the shadow and its returned flags are judged. -/
def execChainFrame (k : Slot) (input : List Byte) (s : State) : Host.Outcome State Fault Refusal :=
  run (ifAon (fun s => s.chainFrame k input)) s

/-- CHAIN_SETTLING_TIMEOUT (R313): 100 ms after SPCn_PGD rose without three clean frames, the chain enters FAULT with NO_RESPONSE. -/
def execChainSettlingTimeout (k : Slot) (s : State) : Host.Outcome State Fault Refusal :=
  run (ifAon (fun s => s.settlingTimeout k)) s

/-- VBUS_RELEASE_STAGGER (R305): at each VBUS_STAGGER interval the next port with EN = 1 is released. -/
def execVbusReleaseStagger (k : Slot) (s : State) : Host.Outcome State Fault Refusal :=
  run (ifAon (fun s => s.releaseNext k)) s

/-- NO_PGOOD_TIMEOUT (R319): no PGOOD within 275 ms of EN = 1 at 5 V puts the port in hold. -/
def execNoPgoodTimeout (p : Port) (s : State) : Host.Outcome State Fault Refusal :=
  run (ifAon (fun s => s.noPgoodTimeout p)) s

/-- PGOOD_LOST_TIMEOUT (R319): PGOOD = 0 for 10 ms outside a transition puts the port in hold. -/
def execPgoodLostTimeout (p : Port) (s : State) : Host.Outcome State Fault Refusal :=
  run (ifAon (fun s => s.pgoodLostTimeout p)) s

end Sys2Proof.Machine
end

