-- ==== Sys2Proof/Machine/RowsUpstream.lean ====
section
/-! DEFINITION. Upstream ports and the Management Function (chapter 6): what each row does. -/

namespace Sys2Proof.Machine

open Sys2Proof

/-- UPSTREAM_ATTACH (R179): rp has been seen on exactly one upstream CC line for 120 ms, orientation is fixed and presentation is re-evaluated. -/
def execUpstreamAttach (k : Part) (orientation : Bool) (rp : Fin 4) (vbus : Bool) (s : State) : Host.Outcome State Fault Refusal :=
  run (ifPorst (fun s => s.attachWakes k (fun s => s.upAttach k orientation rp vbus))) s

/-- UPSTREAM_DETACH (R179): upstream Rp is lost for tPDDebounce; the tree is withdrawn and the partition goes to Charge-only. -/
def execUpstreamDetach (k : Part) (s : State) : Host.Outcome State Fault Refusal :=
  run (ifPorst (fun s => s.upDetach k)) s

/-- UPSTREAM_VBUS_ABSENT (R179): A configured VBUS-present input reports VBUS absent for 10 ms and UPk detaches. -/
def execUpstreamVbusAbsent (k : Part) (late : Bool) (s : State) : Host.Outcome State Fault Refusal :=
  run (ifPorst (fun s => s.upVbusAbsent k late)) s

/-- UPSTREAM_PD_MESSAGE (R182): A PD message received on an upstream port is answered in hardware as Table 6.1 gives. -/
def execUpstreamPdMessage (k : Part) (m : UpPdIn) (s : State) : Host.Outcome State Fault Refusal :=
  run (ifUp (fun s => s.upPdMessage k m.bytes m.cut)) s

/-- UPSTREAM_HARD_RESET (R183): A Hard Reset on an upstream port ends its PD contract and changes neither USB side. -/
def execUpstreamHardReset (k : Part) (s : State) : Host.Outcome State Fault Refusal :=
  run (ifUp (fun s => s.upHardReset k)) s

/-- SS_LINK_U0 (R185): the upstream SuperSpeed link reaches U0 and the SuperSpeed side becomes active. -/
def execSsLinkU0 (k : Part) (rate : SsRate) (s : State) : Host.Outcome State Fault Refusal :=
  run (ifUp (fun s => s.ssU0 k rate)) s

/-- SS_DECIDING_EXPIRY (R185): 300 ms pass after presentation without U0 and the SuperSpeed side becomes inactive. -/
def execSsDecidingExpiry (k : Part) (s : State) : Host.Outcome State Fault Refusal :=
  run (ifUp (fun s => s.ssDecided k)) s

/-- SS_INACTIVE_EXPIRY (R186): an active side's link stays 300 ms in SS.Inactive, Rx.Detect or Polling and the side becomes inactive. -/
def execSsInactiveExpiry (k : Part) (link : UpLink) (s : State) : Host.Outcome State Fault Refusal :=
  run (ifUp (fun s => s.ssInactiveFor k link)) s

/-- SS_LINK_DISABLED (R186): the upstream link enters SS.Disabled and the SuperSpeed side becomes inactive. -/
def execSsLinkDisabled (k : Part) (s : State) : Host.Outcome State Fault Refusal :=
  run (ifUp (fun s => s.ssDisabled k)) s

/-- LGO_U1_U2 (R189): A host LGO_U1 or LGO_U2 is answered LXU or LAU by the readiness conditions. -/
def execLgoU1U2 (k : Part) (u2 unacked : Bool) (s : State) : Host.Outcome State Fault Refusal :=
  run (ifUp (fun s => s.lgo k u2 unacked)) s

/-- DEVICE_U1_U2_ENTRY (R190): the upstream link has been idle for 20 us or 1 ms and the device starts U1 or U2 where enabled and within budget. -/
def execDeviceU1U2Entry (k : Part) (u2 unacked : Bool) (s : State) : Host.Outcome State Fault Refusal :=
  run (ifUp (fun s => s.ownU k u2 unacked)) s

/-- UPSTREAM_U3_ENTRY (R193): UPk enters U3; every virtual link goes to U3 and the partition becomes Suspended when all sides are suspended. -/
def execUpstreamU3Entry (k : Part) (s : State) : Host.Outcome State Fault Refusal :=
  run (ifUp (fun s => s.enterU3 k)) s

/-- UPSTREAM_U3_EXIT (R56): host resume or U3 exit on UPk makes a Suspended partition Connected. -/
def execUpstreamU3Exit (k : Part) (s : State) : Host.Outcome State Fault Refusal :=
  run (ifUp (fun s => s.hostWakes k (fun s => s.leaveU3 k))) s

/-- SS_WARM_RESET (R197): A warm reset on the SuperSpeed side returns the SS twins to default and lifted presentations to reset-pending. -/
def execSsWarmReset (k : Part) (s : State) : Host.Outcome State Fault Refusal :=
  run (ifUp (fun s => s.hostWakes k (fun s => s.ssReset k true))) s

/-- SS_HOT_RESET (R197): A hot reset on the SuperSpeed side is handled as a warm reset. -/
def execSsHotReset (k : Part) (s : State) : Host.Outcome State Fault Refusal :=
  run (ifUp (fun s => s.hostWakes k (fun s => s.ssReset k false))) s

/-- USB2_BUS_RESET (R197): an SE0 bus reset on the USB 2.0 side resets the USB 2.0 twins, empties every TT and runs the chirp. -/
def execUsb2BusReset (k : Part) (highSpeed : Bool) (s : State) : Host.Outcome State Fault Refusal :=
  run (ifUp (fun s => s.hostWakes k (fun s => s.usb2Reset k highSpeed))) s

/-- USB2_LPM_TRANSACTION (R196): the USB 2.0 top hub answers an LPM transaction with ACK or NYET. -/
def execUsb2LpmTransaction (k : Part) (hird : BitVec 4) (s : State) : Host.Outcome State Fault Refusal :=
  run (ifUp (fun s => s.usb2Lpm k hird)) s

/-- USB2_SUSPEND (R195): the USB 2.0 side of UPk enters suspend under USB 2.0 hub rules. -/
def execUsb2Suspend (k : Part) (s : State) : Host.Outcome State Fault Refusal :=
  run (ifUp (fun s => s.usb2Suspend k)) s

/-- USB2_RESUME (R195): the USB 2.0 side resumes from the host or signals remote wake where enabled. -/
def execUsb2Resume (k : Part) (byDevice : Bool) (s : State) : Host.Outcome State Fault Refusal :=
  run (ifUp (fun s => if byDevice then s.deviceResumes k (fun s => s.usb2Resume k true) else s.hostWakes k (fun s => s.usb2Resume k false))) s

/-- MF_STANDARD_REQUEST (R203): A standard request to the Management Function is served in hardware, also during a firmware pause. -/
def execMfStandardRequest (k : Part) (r : Setup) (data : List Byte) (s : State) : Host.Outcome State Fault Refusal :=
  run (ifUp (fun s => s.mfRequest k r data)) s

/-- MF_BULK_OUT_COMMAND (R386): A VCP command message arrives as one transfer on the MF bulk OUT endpoint. -/
def execMfBulkOutCommand (k : Part) (bytes : List Byte) (s : State) : Host.Outcome State Fault Refusal :=
  run (ifUp (fun s => s.mfBulkOut k bytes)) s

/-- VCP_COMMAND (R387): the MF vendor request carries a command on EP0 into the session's command store. -/
def execVcpCommand (k : Part) (bytes : List Byte) (s : State) : Host.Outcome State Fault Refusal :=
  run (ifUp (fun s => s.mfControlOut k bytes)) s

/-- VCP_LAST_RESPONSE (R386): the MF vendor request returns the session's stored final response on EP0. -/
def execVcpLastResponse (k : Part) (len : BitVec 16) (s : State) : Host.Outcome State Fault Refusal :=
  run (ifUp (fun s => s.mfLastResponse k len.toNat)) s

/-- MF_OTHER_VENDOR_REQUEST (R386): any other vendor request on the MF is answered with Request Error. -/
def execMfOtherVendorRequest (k : Part) (_r : Setup) (s : State) : Host.Outcome State Fault Refusal :=
  run (ifUp (fun s => if (s.mfs.get k).side.isSome then s.ctlError k else s)) s

/-- MF_IN_TRANSFER (R388): the host takes a response on MF bulk IN or an event on MF interrupt IN, and the next queued message is transmitted. -/
def execMfInTransfer (k : Part) (ep : Byte) (s : State) : Host.Outcome State Fault Refusal :=
  run (ifUp (fun s => s.mfIn k ep)) s

/-- VIRTUAL_LINK_INACTIVITY_TIMEOUT (R192): A virtual link, or a native SuperSpeed downstream link, idle for the host's PORT_U1_TIMEOUT or PORT_U2_TIMEOUT enters U1 or U2. -/
def execVirtualLinkInactivityTimeout (k : Part) (q : HubPort) (u2 : Bool) (s : State) : Host.Outcome State Fault Refusal :=
  run (ifUp (fun s => s.linkTimeout k q u2)) s

end Sys2Proof.Machine
end

