-- ==== Sys2Proof/Machine/Dispatch.lean ====
section
/-! DEFINITION. What each command does: one arm per row of the opcode table. -/

namespace Sys2Proof.Machine

open Sys2Proof

/-- The effect of a command on everything but the queue. [DESIGN CHOICE: log 1, 73; DEDUCED: log 4] -/
def exec (i : Instr) (s : State) : Host.Outcome State Fault Refusal :=
  match i with
  | .porstRelease testmode board => Sys2Proof.Machine.execPorstRelease testmode board s
  | .porstAssert => Sys2Proof.Machine.execPorstAssert s
  | .vaonFailure => Sys2Proof.Machine.execVaonFailure s
  | .wrstAssert => Sys2Proof.Machine.execWrstAssert s
  | .eveningHoldExpiry => Sys2Proof.Machine.execEveningHoldExpiry s
  | .autoNightStart => Sys2Proof.Machine.execAutoNightStart s
  | .duskStepsComplete => Sys2Proof.Machine.execDuskStepsComplete s
  | .duskStepBoundExpiry => Sys2Proof.Machine.execDuskStepBoundExpiry s
  | .prepareAnswer d defer => Sys2Proof.Machine.execPrepareAnswer d defer s
  | .prepareDeferExpiry d => Sys2Proof.Machine.execPrepareDeferExpiry d s
  | .budgetDomainEntryStart d => Sys2Proof.Machine.execBudgetDomainEntryStart d s
  | .domainExitStart k => Sys2Proof.Machine.execDomainExitStart k s
  | .domainExitComplete d => Sys2Proof.Machine.execDomainExitComplete d s
  | .nightWake code => Sys2Proof.Machine.execNightWake code s
  | .midnightWake code board => Sys2Proof.Machine.execMidnightWake code board s
  | .wakeNLow => Sys2Proof.Machine.execWakeNLow s
  | .wakeTimerExpiry => Sys2Proof.Machine.execWakeTimerExpiry s
  | .midnightDetachDischargeEnd p => Sys2Proof.Machine.execMidnightDetachDischargeEnd p s
  | .dieSensorSample t => Sys2Proof.Machine.execDieSensorSample t s
  | .thermalEveningExpiry sensor => Sys2Proof.Machine.execThermalEveningExpiry sensor s
  | .tjCriticalExpiry sensor => Sys2Proof.Machine.execTjCriticalExpiry sensor s
  | .supplyWarning r mv => Sys2Proof.Machine.execSupplyWarning r mv s
  | .supplyFailure r mv => Sys2Proof.Machine.execSupplyFailure r mv s
  | .rcToCrystalSwitch => Sys2Proof.Machine.execRcToCrystalSwitch s
  | .rcCalibration => Sys2Proof.Machine.execRcCalibration s
  | .refclkLoss => Sys2Proof.Machine.execRefclkLoss s
  | .avsReevaluate => Sys2Proof.Machine.execAvsReevaluate s
  | .avsRequestComplete voltage current temp status => Sys2Proof.Machine.execAvsRequestComplete voltage current temp status s
  | .avsTimeout => Sys2Proof.Machine.execAvsTimeout s
  | .avsHoldoffExpiry => Sys2Proof.Machine.execAvsHoldoffExpiry s
  | .portDieLinkRetrain d => Sys2Proof.Machine.execPortDieLinkRetrain d s
  | .portDieLinkReturn d => Sys2Proof.Machine.execPortDieLinkReturn d s
  | .portDieLinkFail d => Sys2Proof.Machine.execPortDieLinkFail d s
  | .powerDieLinkTimeout d => Sys2Proof.Machine.execPowerDieLinkTimeout d s
  | .powerDieCoreSilence d => Sys2Proof.Machine.execPowerDieCoreSilence d s
  | .alarmPairChange pair on => Sys2Proof.Machine.execAlarmPairChange pair on s
  | .alarmLineFault pair level => Sys2Proof.Machine.execAlarmLineFault pair level s
  | .detectorMessage source kind info injected place => Sys2Proof.Machine.execDetectorMessage source kind info injected place s
  | .faultNPulseEnd => Sys2Proof.Machine.execFaultNPulseEnd s
  | .safeHoldRestartDone => Sys2Proof.Machine.execSafeHoldRestartDone s
  | .reactionComplete r aged intact => Sys2Proof.Machine.execReactionComplete r aged intact s
  | .resetShadowEnd r => Sys2Proof.Machine.execResetShadowEnd r s
  | .watchdogKick => Sys2Proof.Machine.execWatchdogKick s
  | .watchdogExpiry => Sys2Proof.Machine.execWatchdogExpiry s
  | .injectionDurationEnd source kind => Sys2Proof.Machine.execInjectionDurationEnd source kind s
  | .injectionArmTimeout source kind => Sys2Proof.Machine.execInjectionArmTimeout source kind s
  | .upstreamAttach k orientation rp vbus => Sys2Proof.Machine.execUpstreamAttach k orientation rp vbus s
  | .upstreamDetach k => Sys2Proof.Machine.execUpstreamDetach k s
  | .upstreamVbusAbsent k late => Sys2Proof.Machine.execUpstreamVbusAbsent k late s
  | .upstreamPdMessage k m => Sys2Proof.Machine.execUpstreamPdMessage k m s
  | .upstreamHardReset k => Sys2Proof.Machine.execUpstreamHardReset k s
  | .ssLinkU0 k rate => Sys2Proof.Machine.execSsLinkU0 k rate s
  | .ssDecidingExpiry k => Sys2Proof.Machine.execSsDecidingExpiry k s
  | .ssInactiveExpiry k link => Sys2Proof.Machine.execSsInactiveExpiry k link s
  | .ssLinkDisabled k => Sys2Proof.Machine.execSsLinkDisabled k s
  | .lgoU1U2 k u2 unacked => Sys2Proof.Machine.execLgoU1U2 k u2 unacked s
  | .deviceU1U2Entry k u2 unacked => Sys2Proof.Machine.execDeviceU1U2Entry k u2 unacked s
  | .upstreamU3Entry k => Sys2Proof.Machine.execUpstreamU3Entry k s
  | .upstreamU3Exit k => Sys2Proof.Machine.execUpstreamU3Exit k s
  | .ssWarmReset k => Sys2Proof.Machine.execSsWarmReset k s
  | .ssHotReset k => Sys2Proof.Machine.execSsHotReset k s
  | .usb2BusReset k highSpeed => Sys2Proof.Machine.execUsb2BusReset k highSpeed s
  | .usb2LpmTransaction k hird => Sys2Proof.Machine.execUsb2LpmTransaction k hird s
  | .usb2Suspend k => Sys2Proof.Machine.execUsb2Suspend k s
  | .usb2Resume k byDevice => Sys2Proof.Machine.execUsb2Resume k byDevice s
  | .mfStandardRequest k r data => Sys2Proof.Machine.execMfStandardRequest k r data s
  | .mfBulkOutCommand k bytes => Sys2Proof.Machine.execMfBulkOutCommand k bytes s
  | .vcpCommand k bytes => Sys2Proof.Machine.execVcpCommand k bytes s
  | .vcpLastResponse k len => Sys2Proof.Machine.execVcpLastResponse k len s
  | .mfOtherVendorRequest k r => Sys2Proof.Machine.execMfOtherVendorRequest k r s
  | .doorbellRing bus mask => Sys2Proof.Machine.execDoorbellRing bus mask s
  | .smbusDoorbellWrite pecOk => Sys2Proof.Machine.execSmbusDoorbellWrite pecOk s
  | .smbusSetPointer address pecOk => Sys2Proof.Machine.execSmbusSetPointer address pecOk s
  | .smbusAlertResponse => Sys2Proof.Machine.execSmbusAlertResponse s
  | .rspDone m => Sys2Proof.Machine.execRspDone m s
  | .evtDone m => Sys2Proof.Machine.execEvtDone m s
  | .crcErrClear m => Sys2Proof.Machine.execCrcErrClear m s
  | .registerWrite w bytes => Sys2Proof.Machine.execRegisterWrite w bytes s
  | .helloOpen m => Sys2Proof.Machine.execHelloOpen m s
  | .helloForceOpen m => Sys2Proof.Machine.execHelloForceOpen m s
  | .helloGrant m => Sys2Proof.Machine.execHelloGrant m s
  | .helloRevoke m => Sys2Proof.Machine.execHelloRevoke m s
  | .resync m => Sys2Proof.Machine.execResync m s
  | .eventAck m => Sys2Proof.Machine.execEventAck m s
  | .close m => Sys2Proof.Machine.execClose m s
  | .getInfo m => Sys2Proof.Machine.execGetInfo m s
  | .getStatus m => Sys2Proof.Machine.execGetStatus m s
  | .getTemps m => Sys2Proof.Machine.execGetTemps m s
  | .unsupportedOpcode opcode m => Sys2Proof.Machine.execUnsupportedOpcode opcode m s
  | .partGet m => Sys2Proof.Machine.execPartGet m s
  | .partAssignPort m => Sys2Proof.Machine.execPartAssignPort m s
  | .partSetLimits m => Sys2Proof.Machine.execPartSetLimits m s
  | .partConnect m => Sys2Proof.Machine.execPartConnect m s
  | .partDisconnect m => Sys2Proof.Machine.execPartDisconnect m s
  | .deferredDisconnectExecute k => Sys2Proof.Machine.execDeferredDisconnectExecute k s
  | .portGet m => Sys2Proof.Machine.execPortGet m s
  | .portSetMode m => Sys2Proof.Machine.execPortSetMode m s
  | .portReset m => Sys2Proof.Machine.execPortReset m s
  | .portQuench m => Sys2Proof.Machine.execPortQuench m s
  | .portRelease m => Sys2Proof.Machine.execPortRelease m s
  | .portSetBc m => Sys2Proof.Machine.execPortSetBc m s
  | .liftGetPolicy m => Sys2Proof.Machine.execLiftGetPolicy m s
  | .liftSetClasslist m => Sys2Proof.Machine.execLiftSetClasslist m s
  | .liftSetEpBoundary m => Sys2Proof.Machine.execLiftSetEpBoundary m s
  | .liftGetEpStats m => Sys2Proof.Machine.execLiftGetEpStats m s
  | .liftClearPoison m => Sys2Proof.Machine.execLiftClearPoison m s
  | .pdSetOffer m => Sys2Proof.Machine.execPdSetOffer m s
  | .pdSend m => Sys2Proof.Machine.execPdSend m s
  | .pdSetAutoresp m => Sys2Proof.Machine.execPdSetAutoresp m s
  | .pdHardReset m => Sys2Proof.Machine.execPdHardReset m s
  | .ccSetRp m => Sys2Proof.Machine.execCcSetRp m s
  | .sbuSetRoute m => Sys2Proof.Machine.execSbuSetRoute m s
  | .pdSetTimers m => Sys2Proof.Machine.execPdSetTimers m s
  | .slotGet m => Sys2Proof.Machine.execSlotGet m s
  | .slotSetLimits m => Sys2Proof.Machine.execSlotSetLimits m s
  | .slotEnable m => Sys2Proof.Machine.execSlotEnable m s
  | .slotClearLatch m => Sys2Proof.Machine.execSlotClearLatch m s
  | .vbusSet m => Sys2Proof.Machine.execVbusSet m s
  | .ppcGet m => Sys2Proof.Machine.execPpcGet m s
  | .modeGet m => Sys2Proof.Machine.execModeGet m s
  | .modeRequest m board => Sys2Proof.Machine.execModeRequest m board s
  | .latBudgetSet m => Sys2Proof.Machine.execLatBudgetSet m s
  | .wakeSourcesSet m => Sys2Proof.Machine.execWakeSourcesSet m s
  | .avsGet m => Sys2Proof.Machine.execAvsGet m s
  | .pbmGetStats m => Sys2Proof.Machine.execPbmGetStats m s
  | .pbmSetScrub m => Sys2Proof.Machine.execPbmSetScrub m s
  | .pbmRetire m => Sys2Proof.Machine.execPbmRetire m s
  | .pbmFlipmask m => Sys2Proof.Machine.execPbmFlipmask m s
  | .faultRead m => Sys2Proof.Machine.execFaultRead m s
  | .faultAck m => Sys2Proof.Machine.execFaultAck m s
  | .faultSetSeverity m => Sys2Proof.Machine.execFaultSetSeverity m s
  | .faultInject m => Sys2Proof.Machine.execFaultInject m s
  | .faultpinControl m => Sys2Proof.Machine.execFaultpinControl m s
  | .fwGet m => Sys2Proof.Machine.execFwGet m s
  | .fwStageBegin m => Sys2Proof.Machine.execFwStageBegin m s
  | .fwStageData m => Sys2Proof.Machine.execFwStageData m s
  | .fwStageCommit m => Sys2Proof.Machine.execFwStageCommit m s
  | .fwActivate m => Sys2Proof.Machine.execFwActivate m s
  | .activationPauseEnd => Sys2Proof.Machine.execActivationPauseEnd s
  | .activationLoadFail => Sys2Proof.Machine.execActivationLoadFail s
  | .trialPass => Sys2Proof.Machine.execTrialPass s
  | .trialFail dead => Sys2Proof.Machine.execTrialFail dead s
  | .diagLoopback m => Sys2Proof.Machine.execDiagLoopback m s
  | .diagPhyTest m => Sys2Proof.Machine.execDiagPhyTest m s
  | .diagEye m => Sys2Proof.Machine.execDiagEye m s
  | .jtagBypass tdi => Sys2Proof.Machine.execJtagBypass tdi s
  | .jtagIdcode => Sys2Proof.Machine.execJtagIdcode s
  | .jtagSamplePreload balls cells => Sys2Proof.Machine.execJtagSamplePreload balls cells s
  | .jtagExtest balls cells => Sys2Proof.Machine.execJtagExtest balls cells s
  | .connectRecognised c => Sys2Proof.Machine.execConnectRecognised c s
  | .disconnectRecognised p => Sys2Proof.Machine.execDisconnectRecognised p s
  | .presentationPossible p => Sys2Proof.Machine.execPresentationPossible p s
  | .debounceComplete p => Sys2Proof.Machine.execDebounceComplete p s
  | .deviceResetSe0End p found => Sys2Proof.Machine.execDeviceResetSe0End p found s
  | .resetRecoveryEnd p => Sys2Proof.Machine.execResetRecoveryEnd p s
  | .probeRequestComplete p r => Sys2Proof.Machine.execProbeRequestComplete p r s
  | .probeRequestTimeout p => Sys2Proof.Machine.execProbeRequestTimeout p s
  | .probeTimeout p => Sys2Proof.Machine.execProbeTimeout p s
  | .nativeSsU0Held p gen2 => Sys2Proof.Machine.execNativeSsU0Held p gen2 s
  | .hostPortReset k pos f => Sys2Proof.Machine.execHostPortReset k pos f s
  | .hostResetSe0End p found => Sys2Proof.Machine.execHostResetSe0End p found s
  | .hubTopPortReset k f n => Sys2Proof.Machine.execHubTopPortReset k f n s
  | .hubClearPortPower k side q => Sys2Proof.Machine.execHubClearPortPower k side q s
  | .hubSetPortPower k side q => Sys2Proof.Machine.execHubSetPortPower k side q s
  | .hubSetPortIndicator k side q => Sys2Proof.Machine.execHubSetPortIndicator k side q s
  | .hubPortSuspend k q => Sys2Proof.Machine.execHubPortSuspend k q s
  | .hubPortResume k q => Sys2Proof.Machine.execHubPortResume k q s
  | .clearTtBuffer k pos key => Sys2Proof.Machine.execClearTtBuffer k pos key s
  | .resetTt k pos => Sys2Proof.Machine.execResetTt k pos s
  | .getTtState k pos => Sys2Proof.Machine.execGetTtState k pos s
  | .stopTt k pos => Sys2Proof.Machine.execStopTt k pos s
  | .hubStandardRequest k side h r => Sys2Proof.Machine.execHubStandardRequest k side h r s
  | .liftSuspendOrder p => Sys2Proof.Machine.execLiftSuspendOrder p s
  | .liftResumeOrder p => Sys2Proof.Machine.execLiftResumeOrder p s
  | .resumeKEnd p => Sys2Proof.Machine.execResumeKEnd p s
  | .remoteWakeKRecognised p delta => Sys2Proof.Machine.execRemoteWakeKRecognised p delta s
  | .u3ExitHandshakeComplete p => Sys2Proof.Machine.execU3ExitHandshakeComplete p s
  | .hostU3ExitCollision p delta => Sys2Proof.Machine.execHostU3ExitCollision p delta s
  | .unarmedWakeResuspend p => Sys2Proof.Machine.execUnarmedWakeResuspend p s
  | .l1IdleExpiry p => Sys2Proof.Machine.execL1IdleExpiry p s
  | .l1ExitRequest p => Sys2Proof.Machine.execL1ExitRequest p s
  | .portBabble p => Sys2Proof.Machine.execPortBabble p s
  | .drainComplete p => Sys2Proof.Machine.execDrainComplete p s
  | .drainWindowExpiry p => Sys2Proof.Machine.execDrainWindowExpiry p s
  | .dischargeIntervalEnd p => Sys2Proof.Machine.execDischargeIntervalEnd p s
  | .stdGetStatus p recipient index len => Sys2Proof.Machine.execStdGetStatus p recipient index len s
  | .stdClearEndpointHalt p ep => Sys2Proof.Machine.execStdClearEndpointHalt p ep s
  | .stdSetEndpointHalt p ep => Sys2Proof.Machine.execStdSetEndpointHalt p ep s
  | .stdSetFunctionSuspend p interface suspend wake => Sys2Proof.Machine.execStdSetFunctionSuspend p interface suspend wake s
  | .stdU1U2Enable p u2 on => Sys2Proof.Machine.execStdU1U2Enable p u2 on s
  | .stdSetLtmEnable p => Sys2Proof.Machine.execStdSetLtmEnable p s
  | .stdDeviceRemoteWakeup p on => Sys2Proof.Machine.execStdDeviceRemoteWakeup p on s
  | .stdSetTestMode p selector => Sys2Proof.Machine.execStdSetTestMode p selector s
  | .stdSetAddress p address => Sys2Proof.Machine.execStdSetAddress p address s
  | .stdGetDescriptor p type index language len => Sys2Proof.Machine.execStdGetDescriptor p type index language len s
  | .stdSetDescriptor p type index language len => Sys2Proof.Machine.execStdSetDescriptor p type index language len s
  | .stdGetConfiguration p => Sys2Proof.Machine.execStdGetConfiguration p s
  | .stdSetConfiguration p value => Sys2Proof.Machine.execStdSetConfiguration p value s
  | .stdGetInterface p interface => Sys2Proof.Machine.execStdGetInterface p interface s
  | .stdSetInterface p interface alt => Sys2Proof.Machine.execStdSetInterface p interface alt s
  | .stdSynchFrame p ep => Sys2Proof.Machine.execStdSynchFrame p ep s
  | .stdSetSel p data => Sys2Proof.Machine.execStdSetSel p data s
  | .stdSetIsochDelay p delay => Sys2Proof.Machine.execStdSetIsochDelay p delay s
  | .stdOtherRequest p r => Sys2Proof.Machine.execStdOtherRequest p r s
  | .classVendorRequest p r => Sys2Proof.Machine.execClassVendorRequest p r s
  | .controlWriteDataPacket p bytes => Sys2Proof.Machine.execControlWriteDataPacket p bytes s
  | .downstreamControlInPacket p r => Sys2Proof.Machine.execDownstreamControlInPacket p r s
  | .downstreamStatusComplete p r => Sys2Proof.Machine.execDownstreamStatusComplete p r s
  | .microframeBoundary l => Sys2Proof.Machine.execMicroframeBoundary l s
  | .hsBulkInPacket p ep r => Sys2Proof.Machine.execHsBulkInPacket p ep r s
  | .holdWindowExpiry p ep => Sys2Proof.Machine.execHoldWindowExpiry p ep s
  | .ssAckTpReceived p ep a => Sys2Proof.Machine.execSsAckTpReceived p ep a s
  | .ssBulkOutPacket p ep bytes => Sys2Proof.Machine.execSsBulkOutPacket p ep bytes s
  | .hsOutTransactionComplete p ep r => Sys2Proof.Machine.execHsOutTransactionComplete p ep r s
  | .hsOutStall p ep => Sys2Proof.Machine.execHsOutStall p ep s
  | .interestLapse p ep => Sys2Proof.Machine.execInterestLapse p ep s
  | .ssInterruptOutInterval p ep bytes => Sys2Proof.Machine.execSsInterruptOutInterval p ep bytes s
  | .isochTimestampReceived k interval delta => Sys2Proof.Machine.execIsochTimestampReceived k interval delta s
  | .ssIsoOutPacket p ep bytes bad => Sys2Proof.Machine.execSsIsoOutPacket p ep bytes bad s
  | .mergeAgeFlush b word => Sys2Proof.Machine.execMergeAgeFlush b word s
  | .scrubWord b queued => Sys2Proof.Machine.execScrubWord b queued s
  | .bucketLeakInterval => Sys2Proof.Machine.execBucketLeakInterval s
  | .bankRowEmptyMove b row => Sys2Proof.Machine.execBankRowEmptyMove b row s
  | .bankRowTimeoutCopy b row => Sys2Proof.Machine.execBankRowTimeoutCopy b row s
  | .ccPatternChange p cc1 cc2 => Sys2Proof.Machine.execCcPatternChange p cc1 cc2 s
  | .tccDebounceExpiry p => Sys2Proof.Machine.execTccDebounceExpiry p s
  | .tpdDebounceExpiry p => Sys2Proof.Machine.execTpdDebounceExpiry p s
  | .raLost p => Sys2Proof.Machine.execRaLost p s
  | .vconnOvercurrent p => Sys2Proof.Machine.execVconnOvercurrent p s
  | .errorRecoveryExpiry p => Sys2Proof.Machine.execErrorRecoveryExpiry p s
  | .cableDiscoveryStart p => Sys2Proof.Machine.execCableDiscoveryStart p s
  | .sourceCapabilitiesSend p => Sys2Proof.Machine.execSourceCapabilitiesSend p s
  | .typecSendSourceCapExpiry p => Sys2Proof.Machine.execTypecSendSourceCapExpiry p s
  | .pdSopDetected p sop size => Sys2Proof.Machine.execPdSopDetected p sop size s
  | .pdMessageReceived p sop bytes => Sys2Proof.Machine.execPdMessageReceived p sop bytes s
  | .pdGoodcrcReceived p => Sys2Proof.Machine.execPdGoodcrcReceived p s
  | .pdReceiveTimeout p => Sys2Proof.Machine.execPdReceiveTimeout p s
  | .fwdDeadlineExpiry p => Sys2Proof.Machine.execFwdDeadlineExpiry p s
  | .waitRetryExpiry p => Sys2Proof.Machine.execWaitRetryExpiry p s
  | .sinkTxExpiry p => Sys2Proof.Machine.execSinkTxExpiry p s
  | .senderResponseTimeout p => Sys2Proof.Machine.execSenderResponseTimeout p s
  | .noResponseTimeout p => Sys2Proof.Machine.execNoResponseTimeout p s
  | .ppsTimeout p => Sys2Proof.Machine.execPpsTimeout p s
  | .srcTransitionExpiry p => Sys2Proof.Machine.execSrcTransitionExpiry p s
  | .transitionPgood p => Sys2Proof.Machine.execTransitionPgood p s
  | .transitionTimeout p => Sys2Proof.Machine.execTransitionTimeout p s
  | .hardResetReceived p => Sys2Proof.Machine.execHardResetReceived p s
  | .psHardResetExpiry p => Sys2Proof.Machine.execPsHardResetExpiry p s
  | .srcRecoverExpiry p => Sys2Proof.Machine.execSrcRecoverExpiry p s
  | .vconnSourceTimeout p => Sys2Proof.Machine.execVconnSourceTimeout p s
  | .vconnLineLow p => Sys2Proof.Machine.execVconnLineLow p s
  | .pdQueuePop k => Sys2Proof.Machine.execPdQueuePop k s
  | .cdcSetLineCoding k u rate format parity bits => Sys2Proof.Machine.execCdcSetLineCoding k u rate format parity bits s
  | .cdcGetLineCoding k u => Sys2Proof.Machine.execCdcGetLineCoding k u s
  | .cdcSetControlLineState k u lines => Sys2Proof.Machine.execCdcSetControlLineState k u lines s
  | .cdcSendBreak k u ms => Sys2Proof.Machine.execCdcSendBreak k u ms s
  | .seatNLow k => Sys2Proof.Machine.execSeatNLow k s
  | .seatNHigh k => Sys2Proof.Machine.execSeatNHigh k s
  | .seatDebounceExpiry k => Sys2Proof.Machine.execSeatDebounceExpiry k s
  | .startConditionHolds k mv => Sys2Proof.Machine.execStartConditionHolds k mv s
  | .pgConditionsHold k => Sys2Proof.Machine.execPgConditionsHold k s
  | .pgConditionsLost k => Sys2Proof.Machine.execPgConditionsLost k s
  | .pgDelayExpiry k => Sys2Proof.Machine.execPgDelayExpiry k s
  | .pgLostTrip k => Sys2Proof.Machine.execPgLostTrip k s
  | .fastTrip k sense => Sys2Proof.Machine.execFastTrip k sense s
  | .breakerTimeout k sense => Sys2Proof.Machine.execBreakerTimeout k sense s
  | .rampStall k => Sys2Proof.Machine.execRampStall k s
  | .vinWindowExit k mv => Sys2Proof.Machine.execVinWindowExit k mv s
  | .offTimeExpiry k mv => Sys2Proof.Machine.execOffTimeExpiry k mv s
  | .tripWindowAging k => Sys2Proof.Machine.execTripWindowAging k s
  | .slotTelemetrySample k vin vout sense => Sys2Proof.Machine.execSlotTelemetrySample k vin vout sense s
  | .slotDisableTimeout k => Sys2Proof.Machine.execSlotDisableTimeout k s
  | .chainFrame k input => Sys2Proof.Machine.execChainFrame k input s
  | .chainSettlingTimeout k => Sys2Proof.Machine.execChainSettlingTimeout k s
  | .vbusReleaseStagger k => Sys2Proof.Machine.execVbusReleaseStagger k s
  | .noPgoodTimeout p => Sys2Proof.Machine.execNoPgoodTimeout p s
  | .pgoodLostTimeout p => Sys2Proof.Machine.execPgoodLostTimeout p s
  | .powerDieLinkResume d => Sys2Proof.Machine.execPowerDieLinkResume d s
  | .supplyWarningClear => Sys2Proof.Machine.execSupplyWarningClear s
  | .mfInTransfer k ep => Sys2Proof.Machine.execMfInTransfer k ep s
  | .cdcBulkOutData k u data => Sys2Proof.Machine.execCdcBulkOutData k u data s
  | .sbuUartRx p c => Sys2Proof.Machine.execSbuUartRx p c s
  | .smbusClockLowTimeout => Sys2Proof.Machine.execSmbusClockLowTimeout s
  | .midnightContractReleaseExpiry p => Sys2Proof.Machine.execMidnightContractReleaseExpiry p s
  | .virtualLinkInactivityTimeout k q u2 => Sys2Proof.Machine.execVirtualLinkInactivityTimeout k q u2 s
  | .nativeSsPacketReceived p fromDevice bytes => Sys2Proof.Machine.execNativeSsPacketReceived p fromDevice bytes s
  | .ttSplitTransaction k pos op => Sys2Proof.Machine.execTtSplitTransaction k pos op s
  | .passthroughTransaction k pos packet answer lpmAck => Sys2Proof.Machine.execPassthroughTransaction k pos packet answer lpmAck s
  | .wrstRelease board => Sys2Proof.Machine.execWrstRelease board s
  | .vdpSrcDetected p present => Sys2Proof.Machine.execVdpSrcDetected p present s

end Sys2Proof.Machine
end

