-- ==== Sys2Proof/Safety.lean ====
section
/-! DEFINITION. What a safe run is, and the words that claims about a command of the block use: what waits, what a taken VCP command has already changed, how it is answered. -/

namespace Sys2Proof.Machine

open Sys2Proof

/-- The next state of an outcome, where it has one. -/
def stateAfter (o : Host.Outcome State Fault Refusal) : Option State :=
  match o with
  | .next t => some t
  | .fault _ => none
  | .refused _ => none

/-- A step that neither faults nor refuses. -/
def SafeStep (s : State) : Prop := ∃ t, step s = .next t

/-- Nothing waits: every detector's report is collected, every command store is empty, no doorbell has rung. -/
def State.calm (s : State) : Prop :=
  s.fault.inbox = [] ∧ (∀ i, (s.sessions.get i).store = []) ∧ ∀ m, (s.mailboxes.get m).cmdBusy = false

/-- The switched domains are powered and out of reset (Table 10.9, R363). -/
def State.switchedUp (s : State) : Prop := s.mode ≠ .off ∧ s.mode ≠ .midnight ∧ s.wrstLow = false

/-- No mode in which a wake source does anything (Table 10.11, R341). -/
def State.daytime (s : State) : Prop := s.mode ≠ .night ∧ s.mode ≠ .midnight ∧ s.mode ≠ .dusk

/-- Nothing waits and no command executes. -/
def State.free (s : State) : Prop := s.calm ∧ ∀ i, (s.sessions.get i).executing = none

/-- What every session needs to have a command of an opcode taken: its transport brings it, firmware serves, nothing else waits or
executes, no transition runs, and the message has no flag and no status. -/
def State.hears (s : State) (m : VcpMsg) : Prop :=
  s.free ∧ s.serving = true ∧ s.mode ≠ .dusk ∧ s.mode ≠ .night ∧ s.transportOpen m = true ∧
    m.flags = 0 ∧ m.status = 0 ∧ m.payload.length ≤ 1024 ∧ (s.mode = .safeHold → isOob m.session = true)

/-- An open session is sent the next command in CSEQ order, and nothing in the block's condition forbids its opcode (R342, R344, R396). -/
def State.takes (s : State) (opcode : BitVec 16) (m : VcpMsg) : Prop :=
  s.hears m ∧ (s.sessions.get m.session).isOpen = true ∧ m.cseq = (s.sessions.get m.session).lastCseq + 1 ∧
    (s.fw.bootFailed = true → bootRomServes opcode.toNat = true) ∧ s.modeAdmits opcode.toNat = true

/-- A taken command reaches its target: the session's scope covers it and the domain whose block it needs is On (R350, R379). -/
def State.reaches (s : State) (opcode : BitVec 16) (m : VcpMsg) (t : Target) : Prop :=
  s.takes opcode m ∧ decodeTarget m.target = some t ∧ (s.isSteward m.session || s.ownTarget m.session t) = true ∧
    ∀ d, neededDomain opcode.toNat t = some d → s.domains.get d = .on

/-- The command as its session's store holds it. -/
def State.cmdAt (s : State) (opcode : BitVec 16) (m : VcpMsg) : Cmd := { opcode, msg := m, bad := none, arrival := s.arrivals }

/-- What hearing a command changes before anything of it is looked at: the wires are clear, the arrival is counted. -/
def State.heard (s : State) : State := { s.begin with arrivals := s.arrivals + 1 }

/-- What taking a command changes before its own effect: the wires are clear, the arrival is counted, LAST_CSEQ names it, and it is the
session's stored command (R381). -/
def State.taken (s : State) (opcode : BitVec 16) (m : VcpMsg) : State :=
  { s.begin with
    arrivals := s.arrivals + 1
    sessions := s.sessions.upd m.session (fun x =>
      { x with lastCseq := m.cseq, stored := some { opcode, length := m.payload.length, response := none } }) }

/-- The final response of the command `m` that state `s` took, given in state `u`, and what follows a command (R374, R381). -/
def State.answers (u s : State) (opcode : BitVec 16) (m : VcpMsg) (status : Byte) (payload : List Byte) : State :=
  (u.finishCmd (s.cmdAt opcode m) true (finalRsp (s.cmdAt opcode m) status payload)).endWith 4095 s.begin

/-- A lifted presentation stands: presented, neither draining nor quenched, no reset under way or pending, EP0 neither poisoned nor
halted, no control transfer under way (R101, R119, R132, R170, R172). -/
def State.stands (s : State) (p : Port) (x : LiftPort) : Prop :=
  s.lift.get p = some x ∧ x.presented = true ∧ x.reset = none ∧ x.pendingReset = false ∧ x.ctl = none ∧ x.ep0Poisoned = false ∧
    (s.ports.get p).st ≠ .draining ∧ (s.ports.get p).st ≠ .quenched ∧ x.ep0Halted = false

/-- What a SETUP on a presentation that stands finds: the path to it in U0 (R192), the host known to have answered its wakes (R165). -/
def State.called (s : State) (p : Port) : State := (s.begin.useLink p).updLift p (fun x => { x with woken := [] })

/-- The rows of a switched domain (Table 10.9): its block is off in Off and Midnight and in reset while WRST_N is low. [DEDUCED: log 19] -/
def switchedRow : Instr → Bool
  | .portDieLinkRetrain _ => true
  | .portDieLinkReturn _ => true
  | .portDieLinkFail _ => true
  | .upstreamPdMessage _ _ => true
  | .upstreamHardReset _ => true
  | .ssLinkU0 _ _ => true
  | .ssDecidingExpiry _ => true
  | .ssInactiveExpiry _ _ => true
  | .ssLinkDisabled _ => true
  | .lgoU1U2 _ _ _ => true
  | .deviceU1U2Entry _ _ _ => true
  | .upstreamU3Entry _ => true
  | .upstreamU3Exit _ => true
  | .ssWarmReset _ => true
  | .ssHotReset _ => true
  | .usb2BusReset _ _ => true
  | .usb2LpmTransaction _ _ => true
  | .usb2Suspend _ => true
  | .usb2Resume _ _ => true
  | .mfStandardRequest _ _ _ => true
  | .mfBulkOutCommand _ _ => true
  | .vcpCommand _ _ => true
  | .vcpLastResponse _ _ => true
  | .mfOtherVendorRequest _ _ => true
  | .connectRecognised _ => true
  | .disconnectRecognised _ => true
  | .presentationPossible _ => true
  | .debounceComplete _ => true
  | .deviceResetSe0End _ _ => true
  | .resetRecoveryEnd _ => true
  | .probeRequestComplete _ _ => true
  | .probeRequestTimeout _ => true
  | .probeTimeout _ => true
  | .nativeSsU0Held _ _ => true
  | .hostPortReset _ _ _ => true
  | .hostResetSe0End _ _ => true
  | .hubTopPortReset _ _ _ => true
  | .hubClearPortPower _ _ _ => true
  | .hubSetPortPower _ _ _ => true
  | .hubSetPortIndicator _ _ _ => true
  | .hubPortSuspend _ _ => true
  | .hubPortResume _ _ => true
  | .clearTtBuffer _ _ _ => true
  | .resetTt _ _ => true
  | .getTtState _ _ => true
  | .stopTt _ _ => true
  | .hubStandardRequest _ _ _ _ => true
  | .liftSuspendOrder _ => true
  | .liftResumeOrder _ => true
  | .resumeKEnd _ => true
  | .remoteWakeKRecognised _ _ => true
  | .u3ExitHandshakeComplete _ => true
  | .hostU3ExitCollision _ _ => true
  | .unarmedWakeResuspend _ => true
  | .l1IdleExpiry _ => true
  | .l1ExitRequest _ => true
  | .portBabble _ => true
  | .drainComplete _ => true
  | .drainWindowExpiry _ => true
  | .stdGetStatus _ _ _ _ => true
  | .stdClearEndpointHalt _ _ => true
  | .stdSetEndpointHalt _ _ => true
  | .stdSetFunctionSuspend _ _ _ _ => true
  | .stdU1U2Enable _ _ _ => true
  | .stdSetLtmEnable _ => true
  | .stdDeviceRemoteWakeup _ _ => true
  | .stdSetTestMode _ _ => true
  | .stdSetAddress _ _ => true
  | .stdGetDescriptor _ _ _ _ _ => true
  | .stdSetDescriptor _ _ _ _ _ => true
  | .stdGetConfiguration _ => true
  | .stdSetConfiguration _ _ => true
  | .stdGetInterface _ _ => true
  | .stdSetInterface _ _ _ => true
  | .stdSynchFrame _ _ => true
  | .stdSetSel _ _ => true
  | .stdSetIsochDelay _ _ => true
  | .stdOtherRequest _ _ => true
  | .classVendorRequest _ _ => true
  | .controlWriteDataPacket _ _ => true
  | .downstreamControlInPacket _ _ => true
  | .downstreamStatusComplete _ _ => true
  | .microframeBoundary _ => true
  | .hsBulkInPacket _ _ _ => true
  | .holdWindowExpiry _ _ => true
  | .ssAckTpReceived _ _ _ => true
  | .ssBulkOutPacket _ _ _ => true
  | .hsOutTransactionComplete _ _ _ => true
  | .hsOutStall _ _ => true
  | .interestLapse _ _ => true
  | .ssInterruptOutInterval _ _ _ => true
  | .isochTimestampReceived _ _ _ => true
  | .ssIsoOutPacket _ _ _ _ => true
  | .mergeAgeFlush _ _ => true
  | .scrubWord _ _ => true
  | .bucketLeakInterval => true
  | .bankRowEmptyMove _ _ => true
  | .bankRowTimeoutCopy _ _ => true
  | .cableDiscoveryStart _ => true
  | .sourceCapabilitiesSend _ => true
  | .typecSendSourceCapExpiry _ => true
  | .pdSopDetected _ _ _ => true
  | .pdMessageReceived _ _ _ => true
  | .pdGoodcrcReceived _ => true
  | .pdReceiveTimeout _ => true
  | .fwdDeadlineExpiry _ => true
  | .waitRetryExpiry _ => true
  | .sinkTxExpiry _ => true
  | .senderResponseTimeout _ => true
  | .noResponseTimeout _ => true
  | .ppsTimeout _ => true
  | .srcTransitionExpiry _ => true
  | .transitionPgood _ => true
  | .transitionTimeout _ => true
  | .hardResetReceived _ => true
  | .psHardResetExpiry _ => true
  | .srcRecoverExpiry _ => true
  | .vconnSourceTimeout _ => true
  | .vconnLineLow _ => true
  | .pdQueuePop _ => true
  | .cdcSetLineCoding _ _ _ _ _ _ => true
  | .cdcGetLineCoding _ _ => true
  | .cdcSetControlLineState _ _ _ => true
  | .cdcSendBreak _ _ _ => true
  | .mfInTransfer _ _ => true
  | .cdcBulkOutData _ _ _ => true
  | .sbuUartRx _ _ => true
  | .virtualLinkInactivityTimeout _ _ _ => true
  | .nativeSsPacketReceived _ _ _ => true
  | .ttSplitTransaction _ _ _ => true
  | .passthroughTransaction _ _ _ _ _ => true
  | .vdpSrcDetected _ _ => true
  | _ => false

end Sys2Proof.Machine
end

