-- ==== Sys2Proof/Certificates/Slice0/Obligations.lean ====
section
/-! DEFINITION. The statements for the provers. Each clause of a statement about a row gives the whole next state as an equation, so that it is a result, a completion and a frame in one. -/

open Sys2Proof Sys2Proof.Machine

/-- Power-on reset, its release and WRST_N. PORST_ASSERT and VAON_FAILURE put every field to its value at reset but the boot flash, the fuses and the model's own queue and free counter (log 17). PORST_RELEASE from Off samples TESTMODE: with TESTMODE = 1 the device stays in Off, with 0 it boots with the straps the board shows (log 18). WRST_ASSERT holds the device in Dawn and WRST_RELEASE boots it. Each clause gives the whole next state as an equation, so whatever it does not name is unchanged (the outside wires are cleared first, and what firmware has ready runs at the end, log 22). -/
def Obligations.PowerOnReset : Prop :=
  -- porstAssert
  (∀ (s : State), exec .porstAssert s = .next { State.reset with
     pending := s.pending, freeCount := s.freeCount
     fw := { areas := s.fw.areas, dirs := s.fw.dirs, keys := s.fw.keys, securityFloor := s.fw.securityFloor } }) ∧
  -- vaonFailure
  (∀ (s : State), exec .vaonFailure s = .next { State.reset with
     pending := s.pending, freeCount := s.freeCount
     fw := { areas := s.fw.areas, dirs := s.fw.dirs, keys := s.fw.keys, securityFloor := s.fw.securityFloor } }) ∧
  -- porstRelease
  (∀ (s : State) (b : BoardIn), s.mode = .off → s.aonUp = false → exec (.porstRelease true b) s = .next (State.finish { s.begin with aonUp := true, testmode := true, board := b, ups := Tab.of (fun k => { s.ups.get k with rd := true }) } s.begin)) ∧
  -- porstRelease
  (∀ (s : State) (b : BoardIn), s.mode = .off → s.aonUp = false → exec (.porstRelease false b) s =
       .next ((({ s.begin with aonUp := true, testmode := false, board := b, ups := Tab.of (fun k => { s.ups.get k with rd := true }) } : State).dawn.strapAndBoot).finish s.begin)) ∧
  -- wrstAssert
  (∀ (s : State), s.mode ≠ .off → s.mode ≠ .dawn → exec .wrstAssert s = .next (State.finish { s.begin.dawn with wrstLow := true } s.begin)) ∧
  -- wrstRelease
  (∀ (s : State) (b : BoardIn), s.mode = .dawn → s.wrstLow = true → exec (.wrstRelease b) s = .next ((({ s.begin with wrstLow := false, board := b } : State).strapAndBoot).finish s.begin))

/-- Automatic changes of the operating mode. EVENING_HOLD_EXPIRY with no cause left moves Evening to Noon where the core supply already suffices; AUTO_NIGHT_START takes Noon, Evening or Morning into Dusk toward Night where no partition is Connected and none wants its tree; NIGHT_WAKE, WAKE_TIMER_EXPIRY, MIDNIGHT_WAKE and WAKE_N_LOW leave Night and Midnight where their wake source is enabled. Each clause gives the whole next state as an equation, so whatever it does not name is unchanged (the outside wires are cleared first, and what firmware has ready runs at the end, log 22). -/
def Obligations.ModeMoves : Prop :=
  -- eveningHoldExpiry
  (∀ (s : State), s.mode = .evening → s.busy = false → s.eveHolds = false → s.coreNeed .noon ≤ s.avs.confirmed → exec .eveningHoldExpiry s = .next ((({ s.begin with arrival := none } : State).enterMode .noon causeClear 0 none).finish s.begin)) ∧
  -- autoNightStart
  (∀ (s : State), s.mode = .noon ∨ s.mode = .evening ∨ s.mode = .morning → s.modeCfg.autoNight = true → s.busy = false → s.queue = none → s.fw.paused = false → (∀ k, (s.parts.get k).st ≠ .connected ∧ s.wantsTree k = false) → exec .autoNightStart s = .next (((s.begin.startNight { goal := .night } true causeAutoNight 0).runQueue).finish s.begin)) ∧
  -- nightWake
  (∀ (s : State) (code : Fin 32), s.mode = .night → s.wakesNight code.val = true → s.arrival = none → exec (.nightWake code) s = .next (((s.begin.goBack s.back causeWake code.val).runQueue).finish s.begin)) ∧
  -- midnightWake
  (∀ (s : State) (code : Fin 32) (b : BoardIn), s.mode = .midnight → s.wakesMidnight code.val = true → exec (.midnightWake code b) s = .next ((({ s.begin with board := b } : State).boot true).finish s.begin)) ∧
  -- wakeNLow
  (∀ (s : State), s.mode = .midnight → s.wakesMidnight 3 = true → exec .wakeNLow s = .next ((s.begin.boot true).finish s.begin)) ∧
  -- wakeTimerExpiry
  (∀ (s : State), s.mode = .night → s.modeCfg.wakeSources.getLsbD 6 = true → s.modeCfg.wakeTimer ≠ 0 → s.arrival = none → exec .wakeTimerExpiry s = .next (((s.begin.goBack s.back causeWake 6).runQueue).finish s.begin))

/-- Dusk: its steps and its PREPARE. DUSK_STEPS_COMPLETE begins the next step, or sends PREPARE where none is left; DUSK_STEP_BOUND_EXPIRY abandons the transition; PREPARE_ANSWER refuses with the participant's reason and its domain, defers, or accepts and, as the last answer, commits; PREPARE_DEFER_EXPIRY abandons it for the deferring participant. Each clause gives the whole next state as an equation, so whatever it does not name is unchanged (the outside wires are cleared first, and what firmware has ready runs at the end, log 22). -/
def Obligations.DuskRows : Prop :=
  -- duskStepsComplete
  (∀ (s : State) (t : Trans) (u : State), s.mode ≠ .off → s.trans = some t → t.stage = .steps → s.begin.duskStep t.req.goal t.begun = some u → exec .duskStepsComplete s = .next (u.finish s.begin)) ∧
  -- duskStepsComplete
  (∀ (s : State) (t : Trans), s.mode ≠ .off → s.trans = some t → t.stage = .steps → t.req.goal ≠ .off → s.begin.duskStep t.req.goal t.begun = none → exec .duskStepsComplete s = .next ((s.begin.sendPrepare.runQueue).finish s.begin)) ∧
  -- duskStepBoundExpiry
  (∀ (s : State) (t : Trans), s.mode ≠ .off → s.trans = some t → t.stage = .steps → exec .duskStepBoundExpiry s = .next (((s.begin.abortDusk 0x07 0xFF).runQueue).finish s.begin)) ∧
  -- prepareAnswer
  (∀ (s : State) (t : Trans) (d : Fin 25) (defer : Bool) (r : Nat), s.mode ≠ .off → s.trans = some t → t.stage = .prepare → (d, PrepAnswer.awaited) ∈ t.answers → s.refusal t.req.goal d = some r → exec (.prepareAnswer d defer) s = .next (((s.begin.abortDusk r (domCode d)).runQueue).finish s.begin)) ∧
  -- prepareAnswer
  (∀ (s : State) (t : Trans) (d : Fin 25) (defer : Bool), s.mode ≠ .off → s.trans = some t → t.stage = .prepare → (d, PrepAnswer.awaited) ∈ t.answers → s.refusal t.req.goal d = none → (defer || s.mustDefer (t.req.goal == .off || t.req.goal == .midnight) d) = true → exec (.prepareAnswer d defer) s = .next ((s.begin.setAnswer d .deferring).finish s.begin)) ∧
  -- prepareAnswer
  (∀ (s : State) (t : Trans) (d : Fin 25), s.mode ≠ .off → s.trans = some t → t.stage = .prepare → (d, PrepAnswer.awaited) ∈ t.answers → (∀ x ∈ t.answers, x.1 = d ∨ x.2 = .accepted) → s.refusal t.req.goal d = none → s.mustDefer (t.req.goal == .off || t.req.goal == .midnight) d = false → exec (.prepareAnswer d false) s = .next (((s.begin.setAnswer d .accepted).commitDusk.runQueue).finish s.begin)) ∧
  -- prepareDeferExpiry
  (∀ (s : State) (t : Trans) (d : Fin 25), s.mode ≠ .off → s.trans = some t → t.stage = .prepare → (d, PrepAnswer.deferring) ∈ t.answers → exec (.prepareDeferExpiry d) s = .next (((s.begin.abortDusk 0x07 (domCode d)).runQueue).finish s.begin))

/-- Power domains and the ports in Midnight. BUDGET_DOMAIN_ENTRY_START begins an entry into the state the latency budget admits; DOMAIN_EXIT_START lets the domains of a partition's work begin their exit and DOMAIN_EXIT_COMPLETE turns one On; MIDNIGHT_DETACH_DISCHARGE_END and MIDNIGHT_CONTRACT_RELEASE_EXPIRY finish a discharge and release a contract by Hard Reset (log 52). Each clause gives the whole next state as an equation, so whatever it does not name is unchanged (the outside wires are cleared first, and what firmware has ready runs at the end, log 22). -/
def Obligations.DomainRows : Prop :=
  -- budgetDomainEntryStart
  (∀ (s : State) (d : Fin 25) (st : DomState), s.mode ≠ .off → s.ruleNow d = .auto → s.entries = [] → d ∉ s.exiting → s.trans = none → s.autoTarget d = some st → domDepth (s.domains.get d) < domDepth st → exec (.budgetDomainEntryStart d) s = .next (State.finish { s.begin with entries := [{ dom := d, goal := st }] } s.begin)) ∧
  -- domainExitStart
  (∀ (s : State) (k : Part), s.mode = .noon ∨ s.mode = .evening ∨ s.mode = .morning ∨ s.mode = .diagnostic → exec (.domainExitStart k) s = .next (State.finish
       (let u := (s.begin.leaveU k).workArrives (fun d => s.governs k d)
        { u with exiting := u.exiting ++ (List.finRange 25).filter (fun d => u.governs k d && u.domains.get d != .on && !u.exiting.contains d) }) s.begin)) ∧
  -- domainExitComplete
  (∀ (s : State) (d : Fin 25), s.mode ≠ .off → d ∈ s.exiting → exec (.domainExitComplete d) s = .next ((s.begin.riseDomain d).finish s.begin)) ∧
  -- midnightDetachDischargeEnd
  (∀ (s : State) (p : Port), s.mode = .midnight → (s.vbus.get p).discharging = true → exec (.midnightDetachDischargeEnd p) s = .next (((s.begin.dischargeOver p).writeWord p).finish s.begin)) ∧
  -- midnightContractReleaseExpiry
  (∀ (s : State) (p : Port) (t : Trans), s.mode ≠ .off → s.trans = some t → t.req.goal = .midnight → t.begun = 1 → hasExplicit (s.pd.get p) = true → s.contractReleased p = false → (s.pd.get p).hr = none → exec (.midnightContractReleaseExpiry p) s = .next ((s.begin.sendHardReset p).finish s.begin))

/-- Die sensors and monitored rails. DIE_SENSOR_SAMPLE takes the 16 readings in order and clears the thermal cause where it may; THERMAL_EVENING_EXPIRY and TJ_CRITICAL_EXPIRY report their faults with the reading; SUPPLY_WARNING, SUPPLY_FAILURE and SUPPLY_WARNING_CLEAR note the rail, report, and raise or clear the supply cause of Evening. The rows' thresholds are trusted as log 48 says. Each clause gives the whole next state as an equation, so whatever it does not name is unchanged (the outside wires are cleared first, and what firmware has ready runs at the end, log 22). -/
def Obligations.SensorsAndSupplies : Prop :=
  -- dieSensorSample
  (∀ (s : State) (t : Tab 16 (BitVec 16)), s.mgtUp = true → exec (.dieSensorSample t) s =
       .next (((forAll (List.finRange 16) (fun s i => s.sampleSensor i (t.get i)) s.begin).causesCleared true false).finish s.begin)) ∧
  -- thermalEveningExpiry
  (∀ (s : State) (i : Fin 16), s.mgtUp = true → 16 * (s.modeCfg.tjEvening : Int) ≤ (s.sensors.get i).reading.toInt → exec (.thermalEveningExpiry i) s = .next (((({ s.begin with eve := { s.eve with thermal := true } } : State).detect (0x010 + i.val) 0x30
       (s.sensors.get i).reading.toNat).causeArisen 1).finish s.begin)) ∧
  -- tjCriticalExpiry
  (∀ (s : State) (i : Fin 16), s.mgtUp = true → (s.sensors.get i).crit = true → exec (.tjCriticalExpiry i) s = .next ((s.begin.detect (0x010 + i.val) 0x31 (s.sensors.get i).reading.toNat).finish s.begin)) ∧
  -- supplyWarning
  (∀ (s : State) (r : Fin 8) (mv : Nat), s.mode ≠ .off → exec (.supplyWarning r mv) s = .next (((({ s.begin with
         rails := s.rails.upd r (fun x => { x with mv, low := true }), eve := { s.eve with supply := true } } : State).detect (0x020 + r.val) 0x32 mv).causeArisen
         2).finish s.begin)) ∧
  -- supplyFailure
  (∀ (s : State) (r : Fin 8) (mv : Nat), s.mode ≠ .off → exec (.supplyFailure r mv) s = .next ((({ s.begin with
         rails := s.rails.upd r (fun x => { x with mv, low := true, failed := true }) } : State).detect (0x020 + r.val) 0x33 mv).finish s.begin)) ∧
  -- supplyWarningClear
  (∀ (s : State), s.mode ≠ .off → exec .supplyWarningClear s = .next ((({ s.begin with
         rails := Tab.of (fun r => { s.rails.get r with low := false, failed := false }) } : State).causesCleared false true).finish s.begin))

/-- Clocks and the AVSBus master. RC_TO_CRYSTAL_SWITCH, RC_CALIBRATION and REFCLK_LOSS change the clocks; AVS_REEVALUATE asks for the core supply's target in steps of at most 25 mV, up or down; AVS_REQUEST_COMPLETE takes the confirmation, AVS_TIMEOUT the lack of one (with a waiting arrival it enters Evening, log 46), and AVS_HOLDOFF_EXPIRY ends the hold-off. Each clause gives the whole next state as an equation, so whatever it does not name is unchanged (the outside wires are cleared first, and what firmware has ready runs at the end, log 22). -/
def Obligations.ClocksAndCoreSupply : Prop :=
  -- rcToCrystalSwitch
  (∀ (s : State), s.aonUp = true → exec .rcToCrystalSwitch s = .next (State.finish { s.begin with clocks := { s.clocks with axin := true } } s.begin)) ∧
  -- rcCalibration
  (∀ (s : State), s.mgtUp = true → exec .rcCalibration s = .next (State.finish { s.begin with clocks := { s.clocks with calibrated := true } } s.begin)) ∧
  -- refclkLoss
  (∀ (s : State), s.mode ≠ .off → s.clocks.refUsed = true → exec .refclkLoss s = .next ((({ s.begin with clocks := { s.clocks with refLost := true, refUsed := false } } : State).detect 0x006 0x35 0).finish s.begin)) ∧
  -- avsReevaluate
  (∀ (s : State), s.mgtUp = true → s.fw.paused = false → s.avs.outstanding = none → s.avs.holdoff = false → s.avs.confirmed < s.coreNeed s.mode → exec .avsReevaluate s = .next (State.finish { s.begin with
       avs := { s.avs with target := min (s.coreNeed s.mode) (s.avs.confirmed + 25), outstanding := some (min (s.coreNeed s.mode) (s.avs.confirmed + 25)) }
       wire := [.avsWrite (min (s.coreNeed s.mode) (s.avs.confirmed + 25))] } s.begin)) ∧
  -- avsReevaluate
  (∀ (s : State), s.mgtUp = true → s.fw.paused = false → s.avs.outstanding = none → s.avs.holdoff = false → s.coreNeed s.mode < s.avs.confirmed → exec .avsReevaluate s = .next (State.finish { s.begin with
       avs := { s.avs with target := max (s.coreNeed s.mode) (s.avs.confirmed - 25), outstanding := some (max (s.coreNeed s.mode) (s.avs.confirmed - 25)) }
       wire := [.avsWrite (max (s.coreNeed s.mode) (s.avs.confirmed - 25))] } s.begin)) ∧
  -- avsRequestComplete
  (∀ (s : State) (v : Nat) (voltage current temp status : BitVec 16), s.mode ≠ .off → s.avs.outstanding = some v → s.armed 0x005 0x34 = none → exec (.avsRequestComplete voltage current temp status) s = .next ((({ s.begin with
         avs := { s.avs with confirmed := v, outstanding := none, voltage, current, temp, status }, eve := { s.eve with avs := false } } :
         State).repace.resumeArrival).finish s.begin)) ∧
  -- avsTimeout
  (∀ (s : State) (v : Nat), s.mode ≠ .off → s.avs.outstanding = some v → s.arrival = none → exec .avsTimeout s = .next (((({ s.begin with
         avs := { s.avs with outstanding := none, holdoff := true, timeouts := satAdd 32 s.avs.timeouts 1 }
         eve := { s.eve with avs := true } } : State).detect 0x005 0x34 v).causeArisen 3).finish s.begin)) ∧
  -- avsTimeout
  (∀ (s : State) (v : Nat) (a : Arrival), s.mode ≠ .off → s.avs.outstanding = some v → s.arrival = some a → exec .avsTimeout s = .next (((({ (({ s.begin with
         avs := { s.avs with outstanding := none, holdoff := true, timeouts := satAdd 32 s.avs.timeouts 1 }
         eve := { s.eve with avs := true } } : State).detect 0x005 0x34 v) with arrival := none } : State).enterMode .evening a.cause a.detail.toNat a.req).okReq
           a.req |>.runQueue).finish s.begin)) ∧
  -- avsHoldoffExpiry
  (∀ (s : State), s.mode ≠ .off → exec .avsHoldoffExpiry s = .next ((({ s.begin with avs := { s.avs with holdoff := false } } : State).resumeArrival).finish s.begin))

/-- Port-die and power-die links. PORT_DIE_LINK_RETRAIN, RETURN and FAIL, and POWER_DIE_LINK_TIMEOUT, POWER_DIE_CORE_SILENCE and POWER_DIE_LINK_RESUME change a die's link as chapter 1 gives: a failed port-die link is recorded and poisons the die's open endpoints, a silent core switches VCONN off, a link that resumes issues the events it held (log 42). Each clause gives the whole next state as an equation, so whatever it does not name is unchanged (the outside wires are cleared first, and what firmware has ready runs at the end, log 22). -/
def Obligations.DieLinks : Prop :=
  -- portDieLinkRetrain
  (∀ (s : State) (d : Fin 2), s.switchedUp → s.portLinks.get d = .active → exec (.portDieLinkRetrain d) s = .next (State.finish { s.begin with portLinks := s.portLinks.put d .retraining } s.begin)) ∧
  -- portDieLinkReturn
  (∀ (s : State) (d : Fin 2), s.switchedUp → s.portLinks.get d ≠ .active → s.linkHeldDown d = false → exec (.portDieLinkReturn d) s = .next ((forAll ((s.liftedPorts).filter (fun p => dieOf p == d)) (fun s p => s.linkBack p) { s.begin with portLinks := s.portLinks.put d .active }).finish s.begin)) ∧
  -- portDieLinkFail
  (∀ (s : State) (d : Fin 2), s.switchedUp → s.portLinks.get d = .retraining → exec (.portDieLinkFail d) s = .next (((({ s.begin with portLinks := s.portLinks.put d .failed } : State).detect (0x030 + d.val) 0x10 1000).poisonDie
         d).finish s.begin)) ∧
  -- powerDieLinkTimeout
  (∀ (s : State) (d : Fin 2), s.mode ≠ .off → (s.powerLinks.get d).up = true → exec (.powerDieLinkTimeout d) s = .next ((({ s.begin with
         powerLinks := s.powerLinks.upd d (fun x => { x with up := false }) } : State).detect (0x032 + d.val) 0x10 0).finish s.begin)) ∧
  -- powerDieCoreSilence
  (∀ (s : State) (d : Fin 2), s.mode ≠ .off → (s.powerLinks.get d).up = false → exec (.powerDieCoreSilence d) s = .next ((forAll (portsOfDie d) (fun s p => s.updPd p (fun x => { x with vconnOn := false }))
         { s.begin with powerLinks := s.powerLinks.upd d (fun x => { x with silent := true }) }).finish s.begin)) ∧
  -- powerDieLinkResume
  (∀ (s : State) (d : Fin 2), s.mode ≠ .off → (s.powerLinks.get d).up = false → (s.powerLinks.get d).silent = false → s.powerLinkHeldDown d = false → exec (.powerDieLinkResume d) s = .next ((forAll (portsOfDie d) (fun s p => (s.setRp p).setVconn p (ssCapable p &&
           (s.pd.get p).tc == .attached && (s.pd.get p).vconnSource && raSeen (s.pd.get p) && (s.pd.get p).hr == none && !(s.pd.get p).vconnReturn))
         (forAll (slotsOfDie d) (fun s k => (s.updSlot k (fun y => { y with spc := y.cfg })).slotLearned k)
           (forAll (s.powerLinks.get d).held (fun s e => s.issue e) { s.begin with powerLinks := s.powerLinks.put d {} }))).finish s.begin))

/-- Alarm pairs. ALARM_PAIR_CHANGE asserts a pair, with its record and its cause of Evening, or clears it; ALARM_LINE_FAULT takes a line fault as asserted, with its own record whose INFO is the level of the two lines. Each clause gives the whole next state as an equation, so whatever it does not name is unchanged (the outside wires are cleared first, and what firmware has ready runs at the end, log 22). -/
def Obligations.AlarmPairs : Prop :=
  -- alarmPairChange
  (∀ (s : State) (i : Fin 6), s.mode ≠ .off → (s.alarms.get i).asserted = false → exec (.alarmPairChange i true) s = .next (((({ s.begin with
         alarms := s.alarms.put i { asserted := true, lineFault := false } } : State).detect (0x034 + i.val) 0x12 0).alarmCause i).finish s.begin)) ∧
  -- alarmPairChange
  (∀ (s : State) (i : Fin 6), s.mode ≠ .off → exec (.alarmPairChange i false) s = .next ((({ s.begin with
         alarms := s.alarms.put i { asserted := false, lineFault := false } } : State).causesCleared (i.val % 3 == 1) (i.val % 3 == 2)).finish s.begin)) ∧
  -- alarmLineFault
  (∀ (s : State) (i : Fin 6) (level : Bool), s.mode ≠ .off → (s.alarms.get i).asserted = false → (s.alarms.get i).lineFault = false → exec (.alarmLineFault i level) s = .next (((({ s.begin with
         alarms := s.alarms.put i { asserted := true, lineFault := true } } : State).detect (0x034 + i.val) 0x11 (if level then 3 else 0)).alarmCause
         i).finish s.begin))

/-- The Fault Collector, FAULT_N and the watchdog. DETECTOR_MESSAGE hands a message of a known source and kind to the Fault Collector and refuses an unknown pair (log 34); FAULT_N_PULSE_END ends a pulse and starts the next one after the gap (log 41); SAFE_HOLD_RESTART_DONE, REACTION_COMPLETE and RESET_SHADOW_END end a reaction and its shadow; WATCHDOG_KICK changes nothing (log 4), WATCHDOG_EXPIRY reports a Fatal management fault. Each clause gives the whole next state as an equation, so whatever it does not name is unchanged (the outside wires are cleared first, and what firmware has ready runs at the end, log 22). -/
def Obligations.FaultCollectorRows : Prop :=
  -- detectorMessage
  (∀ (s : State) (source : BitVec 12) (kind : Byte) (info : BitVec 32) (place : Option (Port × Byte)), s.mode ≠ .off → (faultRow source.toNat kind.toNat).isSome = true → source.toNat < 0x130 ∧ source.toNat ≠ 0x007 ∨ 0x160 ≤ source.toNat ∧ source.toNat < 0x800 → exec (.detectorMessage source kind info false place) s = .next ((s.begin.report { source, kind, info, injected := false }).finish s.begin)) ∧
  -- detectorMessage
  (∀ (s : State) (source : BitVec 12) (kind : Byte) (info : BitVec 32) (injected : Bool) (place : Option (Port × Byte)), faultRow source.toNat kind.toNat = none → exec (.detectorMessage source kind info injected place) s = .refused (.illFormed "DETECTOR_MESSAGE")) ∧
  -- faultNPulseEnd
  (∀ (s : State), s.mode ≠ .off → s.fault.pulsing = true → exec .faultNPulseEnd s = .next (State.finish { s.begin with fault := { s.fault with pulsing := false, gap := true } } s.begin)) ∧
  -- faultNPulseEnd
  (∀ (s : State), s.mode ≠ .off → s.fault.pulsing = false → s.fault.gap = true → 0 < s.fault.waiting → s.fault.pinHold = false → exec .faultNPulseEnd s = .next (State.finish { s.begin with
       fault := { s.fault with gap := false, pulsing := true, waiting := s.fault.waiting - 1 } } s.begin)) ∧
  -- safeHoldRestartDone
  (∀ (s : State), s.mode ≠ .off → s.fault.safeHoldRestart = true → s.inActivationPause = false → exec .safeHoldRestartDone s = .next ((({ s.begin with
         fault := { s.fault with safeHoldRestart := false, shadows := s.fault.shadows.map (fun y => if y.reaction = .mgtRestart then { y with ending := true } else y) } } :
         State).pauseEnd).finish s.begin)) ∧
  -- reactionComplete
  (∀ (s : State) (r : Reaction) (aged : Nat) (intact : Bool), s.mode ≠ .off → r ∈ s.fault.running → r ≠ .mgtRestart → exec (.reactionComplete r aged intact) s = .next ((s.begin.reactionDone r aged intact).finish s.begin)) ∧
  -- resetShadowEnd
  (∀ (s : State) (r : Reaction), s.mode ≠ .off → exec (.resetShadowEnd r) s = .next (State.finish { s.begin with
       fault := { s.fault with shadows := s.fault.shadows.filter (fun y => !(y.ending && y.reaction == r)) } } s.begin)) ∧
  -- watchdogKick
  (∀ (s : State), exec .watchdogKick s = .next (s.begin.finish s.begin)) ∧
  -- watchdogExpiry
  (∀ (s : State), s.fault.watchdogOn = true → s.mgtUp = true → s.fault.mgtRestarting = false → s.fault.safeHoldRestart = false → exec .watchdogExpiry s = .next ((s.begin.report { source := 0x001, kind := 0x21, info := 250, injected := (s.armed 0x001 0x21).isSome }).finish s.begin))

/-- The end of an injection point. INJECTION_DURATION_END of a timed point ends its forcing and disarms it, with the critical temperature judged at the end for a sensor point; INJECTION_ARM_TIMEOUT disarms a point that still waits (log 40). Each clause gives the whole next state as an equation, so whatever it does not name is unchanged (the outside wires are cleared first, and what firmware has ready runs at the end, log 22). -/
def Obligations.InjectionEnds : Prop :=
  -- injectionDurationEnd
  (∀ (s : State) (i : Injection), s.mode ≠ .off → s.fault.injections.find? (fun x => x.source == i.source && x.kind == i.kind && x.timed) = some i → 0x020 ≤ i.source.toNat → exec (.injectionDurationEnd i.source i.kind) s = .next (((({ s.begin with
         fault := { s.fault with injections := s.fault.injections.filter (· != i) } } : State)).endForce i.source.toNat).finish s.begin)) ∧
  -- injectionDurationEnd
  (∀ (s : State) (i : Injection), s.mode ≠ .off → s.fault.injections.find? (fun x => x.source == i.source && x.kind == i.kind && x.timed) = some i → 0x010 ≤ i.source.toNat ∧ i.source.toNat < 0x020 → exec (.injectionDurationEnd i.source i.kind) s =
       .next (((s.begin.forced i.source.toNat (fun s => s.thermalCritical (Fin.ofNat 16 i.source.toNat))).spend i).finish s.begin)) ∧
  -- injectionArmTimeout
  (∀ (s : State) (source : BitVec 12) (kind : Byte), s.mode ≠ .off → exec (.injectionArmTimeout source kind) s = .next (State.finish { s.begin with
       fault := { s.fault with injections := s.fault.injections.filter (fun i => i.timed || i.source != source || i.kind != kind) } } s.begin))

/-- Attach, detach and PD of an upstream port. UPSTREAM_ATTACH notes Rp, orientation and VBUS; UPSTREAM_DETACH and UPSTREAM_VBUS_ABSENT clear them and withdraw the tree to Charge-only, but VBUS may be absent within a Hard Reset; UPSTREAM_HARD_RESET ends the contract; UPSTREAM_PD_MESSAGE is acknowledged by GoodCRC and answered once (log 56). Each clause gives the whole next state as an equation, so whatever it does not name is unchanged (the outside wires are cleared first, and what firmware has ready runs at the end, log 22). -/
def Obligations.UpstreamAttach : Prop :=
  -- upstreamAttach
  (∀ (s : State) (k : Part) (orientation : Bool) (rp : Fin 4) (vbus : Bool), s.aonUp = true → s.daytime → (s.ups.get k).rd = true → (s.ups.get k).attached = false → rp ≠ 0 → (s.ups.get k).vbusInput = false ∨ vbus = true → (s.parts.get k).armed = false → exec (.upstreamAttach k orientation rp vbus) s = .next ((s.begin.updUp k (fun u =>
       { u with attached := true, orientation, hostRp := rp, vbusPresent := true, hardReset := false })).finish s.begin)) ∧
  -- upstreamDetach
  (∀ (s : State) (k : Part), s.aonUp = true → (s.ups.get k).attached = true → exec (.upstreamDetach k) s = .next ((
       let u := s.begin.updUp k (fun u => { u with
         attached := false, orientation := false, swapped := false, hostRp := 0, vbusPresent := false, contract := false, hardReset := false, pdTx := 0, pdRx := none })
       if (s.parts.get k).st = .connected ∨ (s.parts.get k).st = .suspended then u.withdraw k .withdrawn false .chargeOnly else u).finish s.begin)) ∧
  -- upstreamVbusAbsent
  (∀ (s : State) (k : Part), s.aonUp = true → (s.ups.get k).vbusInput = true → (s.ups.get k).attached = true → (s.ups.get k).hardReset = true → exec (.upstreamVbusAbsent k false) s = .next ((s.begin.updUp k (fun u => { u with vbusPresent := false })).finish s.begin)) ∧
  -- upstreamVbusAbsent
  (∀ (s : State) (k : Part) (late : Bool), s.aonUp = true → (s.ups.get k).vbusInput = true → (s.ups.get k).attached = true → (s.ups.get k).hardReset = false ∨ late = true → exec (.upstreamVbusAbsent k late) s = .next ((s.begin.upDetach k).finish s.begin)) ∧
  -- upstreamHardReset: the contract ends, and its item is queued
  (∀ (s : State) (k : Part), s.switchedUp → (s.ups.get k).attached = true → exec (.upstreamHardReset k) s =
       .next (((s.begin.updUp k (fun u => { u with contract := false, hardReset := true, pdTx := 0, pdRx := none })).resetItem k 32 5 false).finish s.begin)) ∧
  -- upstreamPdMessage: answered, and queued as of receiver 32
  (∀ (s : State) (k : Part) (b : List Byte) (t : Nat) (objs : List Nat), s.switchedUp → (s.ups.get k).attached = true → refusesSop (s.queues.get k) 32 = false → isControl b 13 = false → (s.ups.get k).pdRx ≠ some (pdId b) → s.sinkAnswer b = some (t, objs) → exec (.upstreamPdMessage k ⟨b, false⟩) s = .next ((((((s.begin.emit (.upPd k (sinkHeader 1 0 (pdId b)))).sopDetected k 32 0 b.length).messageWhole
       k 32 b true false false).updUp k (fun u => { u with
         pdRx := some (pdId b), pdTx := u.pdTx + 1, hardReset := false, contract := u.contract || isControl b 6 })).emit
       (.upPd k (sinkMsg t objs (s.ups.get k).pdTx))).finish s.begin)) ∧
  -- upstreamPdMessage: a Hard Reset before the answer is sent, which then is not sent
  (∀ (s : State) (k : Part) (b : List Byte), s.switchedUp → (s.ups.get k).attached = true → refusesSop (s.queues.get k) 32 = false → isControl b 1 = false → isControl b 13 = false → (s.ups.get k).pdRx ≠ some (pdId b) → exec (.upstreamPdMessage k ⟨b, true⟩) s = .next (((((s.begin.emit (.upPd k (sinkHeader 1 0 (pdId b)))).sopDetected k 32 0 b.length).messageWhole
       k 32 b false false false).updUp k (fun u => { u with
         pdRx := some (pdId b), hardReset := false, contract := u.contract || isControl b 6 })).finish s.begin))

/-- The SuperSpeed link of an upstream port. SS_LINK_U0 trains the side to Active with its rate, returns it from U1, U2, Recovery or Hot Reset to U0 or ends a suspend, and does nothing where no side is presented; SS_DECIDING_EXPIRY, SS_INACTIVE_EXPIRY and SS_LINK_DISABLED make a side Inactive, or change only its link or nothing where it is not one they act on; the counters of Table 6.6 count as they do (log 57). Each clause gives the whole next state as an equation, so whatever it does not name is unchanged (the outside wires are cleared first, and what firmware has ready runs at the end, log 22). -/
def Obligations.UpstreamSuperSpeedLink : Prop :=
  -- ssLinkU0: from U1, U2 or Recovery, Hot Reset or U0: no training
  (∀ (s : State) (k : Part) (rate : SsRate), s.switchedUp → (s.ups.get k).ssSide ≠ .notPresented → beforeU0 (s.ups.get k).link = false → (s.ups.get k).link ≠ .u3 → rate ≠ .none → exec (.ssLinkU0 k rate) s = .next ((
       let u := s.begin.updUp k (fun u => { u with
         link := .u0, ownExit := false
         counters := if u.link = .u1 ∨ u.link = .u2 then { u.counters with linkRecoveries := satAdd 32 u.counters.linkRecoveries 1 } else u.counters })
       if (s.ups.get k).ssSide = .active then u else u.setSide k .active).finish s.begin)) ∧
  -- ssLinkU0: at the end of a training
  (∀ (s : State) (k : Part) (rate : SsRate), s.switchedUp → (s.ups.get k).ssSide ≠ .notPresented → beforeU0 (s.ups.get k).link = true → rate ≠ .none → s.capped = false ∨ twoLanes rate = false → exec (.ssLinkU0 k rate) s = .next ((
       let u := s.begin.updUp k (fun u => { u with
         link := .u0, ownExit := false, rate := rate, paced := false
         counters := if s.capped = false ∧ rate ≠ .gen2x2 then { u.counters with rateDowngrades := satAdd 16 u.counters.rateDowngrades 1 } else u.counters })
       if (s.ups.get k).ssSide = .active then u else u.setSide k .active).finish s.begin)) ∧
  -- ssLinkU0: from U3, an exit from suspend
  (∀ (s : State) (k : Part) (rate : SsRate), s.switchedUp → (s.ups.get k).ssSide ≠ .notPresented → (s.ups.get k).link = .u3 → rate ≠ .none → exec (.ssLinkU0 k rate) s = .next ((
       let u := s.begin.updUp k (fun u => { u with
         link := .u0, ownExit := false, counters := { u.counters with linkRecoveries := satAdd 32 u.counters.linkRecoveries 1 } })
       (if (s.ups.get k).ownExit then u else u.noteExit k true).wakePart k).finish s.begin)) ∧
  -- ssLinkU0: without a presented side, without a rate, and two lanes trained in Evening: nothing
  (∀ (s : State) (k : Part) (rate : SsRate), s.switchedUp → (s.ups.get k).ssSide = .notPresented ∨ rate = .none ∨ (s.capped = true ∧ beforeU0 (s.ups.get k).link = true ∧ twoLanes rate = true) → exec (.ssLinkU0 k rate) s = .next (s.begin.finish s.begin)) ∧
  -- ssDecidingExpiry
  (∀ (s : State) (k : Part), s.switchedUp → (s.ups.get k).ssSide = .deciding → exec (.ssDecidingExpiry k) s = .next ((s.begin.setSide k .inactive).finish s.begin)) ∧
  -- ssDecidingExpiry, ssInactiveExpiry, ssLinkDisabled: a side that is not deciding, not active, not presented
  (∀ (s : State) (k : Part) (link : UpLink), s.switchedUp → ((s.ups.get k).ssSide ≠ .deciding → exec (.ssDecidingExpiry k) s = .next (s.begin.finish s.begin)) ∧
       ((s.ups.get k).ssSide ≠ .active → exec (.ssInactiveExpiry k link) s = .next (s.begin.finish s.begin)) ∧
       ((s.ups.get k).ssSide = .notPresented → exec (.ssLinkDisabled k) s = .next (s.begin.finish s.begin))) ∧
  -- ssInactiveExpiry
  (∀ (s : State) (k : Part) (link : UpLink), s.switchedUp → (s.ups.get k).ssSide = .active → link = .ssInactive ∨ link = .rxDetect ∨ link = .polling → exec (.ssInactiveExpiry k link) s = .next (((s.begin.updUp k (fun u => { u with
       link, rate := .none, counters := { u.counters with ssInactiveChanges := satAdd 16 u.counters.ssInactiveChanges 1 } })).setSide k
         .inactive).finish s.begin)) ∧
  -- ssLinkDisabled
  (∀ (s : State) (k : Part), s.switchedUp → (s.ups.get k).ssSide = .active → exec (.ssLinkDisabled k) s = .next (((s.begin.updUp k (fun u => { u with
       link := .ssDisabled, rate := .none, counters := { u.counters with ssInactiveChanges := satAdd 16 u.counters.ssInactiveChanges 1 } })).setSide k
         .inactive).finish s.begin)) ∧
  -- ssLinkDisabled: a side that is not active loses its link alone
  (∀ (s : State) (k : Part), s.switchedUp → (s.ups.get k).ssSide = .deciding ∨ (s.ups.get k).ssSide = .inactive → exec (.ssLinkDisabled k) s = .next ((s.begin.updUp k (fun u => { u with link := .ssDisabled })).finish s.begin))

/-- U1 and U2 of an upstream SuperSpeed link. LGO_U1U2 is accepted where the side has nothing to send, which lowers the link, and answered LXU where it has; DEVICE_U1U2_ENTRY asks for U1 or U2 where the host enabled it, the latency budget allows it and every virtual link is low, and does nothing otherwise; on a link that is not in U0 both do nothing. Each clause gives the whole next state as an equation, so whatever it does not name is unchanged (the outside wires are cleared first, and what firmware has ready runs at the end, log 22). -/
def Obligations.UpstreamLinkPower : Prop :=
  -- lgoU1U2, deviceU1U2Entry: a link that is not in U0
  (∀ (s : State) (k : Part) (u2 unacked : Bool), s.switchedUp → (s.ups.get k).link ≠ .u0 → exec (.lgoU1U2 k u2 unacked) s = .next (s.begin.finish s.begin) ∧ exec (.deviceU1U2Entry k u2 unacked) s = .next (s.begin.finish s.begin)) ∧
  -- lgoU1U2
  (∀ (s : State) (k : Part) (unacked : Bool), s.switchedUp → (s.ups.get k).link = .u0 → s.notIdle k unacked = false → exec (.lgoU1U2 k false unacked) s = .next (((s.begin.updUp k (fun u => { u with
       link := .u1, counters := { u.counters with u1Entries := satAdd 32 u.counters.u1Entries 1 } })).emit (.up k .lau)).finish s.begin)) ∧
  -- lgoU1U2
  (∀ (s : State) (k : Part) (unacked : Bool), s.switchedUp → (s.ups.get k).link = .u0 → s.notIdle k unacked = false → exec (.lgoU1U2 k true unacked) s = .next (((s.begin.updUp k (fun u => { u with
       link := .u2, counters := { u.counters with u2Entries := satAdd 32 u.counters.u2Entries 1 } })).emit (.up k .lau)).finish s.begin)) ∧
  -- lgoU1U2
  (∀ (s : State) (k : Part) (u2 unacked : Bool), s.switchedUp → (s.ups.get k).link = .u0 → s.notIdle k unacked = true → exec (.lgoU1U2 k u2 unacked) s = .next (((s.begin.updUp k (fun u => { u with
       counters := { u.counters with lxuSent := satAdd 32 u.counters.lxuSent 1 } })).emit (.up k .lxu)).finish s.begin)) ∧
  -- deviceU1U2Entry
  (∀ (s : State) (k : Part) (unacked : Bool), s.switchedUp → (s.ups.get k).link = .u0 → ((s.ssTree.get k).hubs.get 0).u1Enable = true → s.linksLow k = true → s.notIdle k unacked = false → 2 ≤ (s.parts.get k).latBudget → exec (.deviceU1U2Entry k false unacked) s = .next (((s.begin.updUp k (fun u => { u with
       link := .u1, counters := { u.counters with u1Entries := satAdd 32 u.counters.u1Entries 1 } })).emit (.up k .lgoU1)).finish s.begin)) ∧
  -- deviceU1U2Entry
  (∀ (s : State) (k : Part) (unacked : Bool), s.switchedUp → (s.ups.get k).link = .u0 → ((s.ssTree.get k).hubs.get 0).u2Enable = true → s.linksLow k = true → s.notIdle k unacked = false → 64 ≤ (s.parts.get k).latBudget → exec (.deviceU1U2Entry k true unacked) s = .next (((s.begin.updUp k (fun u => { u with
       link := .u2, counters := { u.counters with u2Entries := satAdd 32 u.counters.u2Entries 1 } })).emit (.up k .lgoU2)).finish s.begin)) ∧
  -- deviceU1U2Entry: not enabled by the host, above the budget, a virtual link too high, or something to send: nothing
  (∀ (s : State) (k : Part) (u2 unacked : Bool), s.switchedUp → (if u2 then ((s.ssTree.get k).hubs.get 0).u2Enable else ((s.ssTree.get k).hubs.get 0).u1Enable) = false ∨ s.linksLow k = false ∨ s.notIdle k unacked = true ∨
       (s.parts.get k).latBudget < (if u2 then 64 else 2) → exec (.deviceU1U2Entry k u2 unacked) s = .next (s.begin.finish s.begin))

/-- Suspend, resume and reset at an upstream port. UPSTREAM_U3_ENTRY and EXIT, SS_WARM_RESET, SS_HOT_RESET, USB2_BUS_RESET, USB2_LPM_TRANSACTION, USB2_SUSPEND and USB2_RESUME change the link and the tree of their side; VIRTUAL_LINK_INACTIVITY_TIMEOUT lowers a virtual link by its own timeout; ISOCH_TIMESTAMP_RECEIVED records the phase of the bus intervals, and skips a micro-frame where it names the interval before the expected one. In Night a host's signal wakes first (log 20). Each clause gives the whole next state as an equation, so whatever it does not name is unchanged (the outside wires are cleared first, and what firmware has ready runs at the end, log 22). -/
def Obligations.UpstreamSuspendAndReset : Prop :=
  -- upstreamU3Entry
  (∀ (s : State) (k : Part), s.switchedUp → (s.ups.get k).ssSide = .active → (s.ups.get k).link = .u0 ∨ (s.ups.get k).link = .u1 ∨ (s.ups.get k).link = .u2 → exec (.upstreamU3Entry k) s = .next ((((((s.begin.updUp k (fun u => { u with link := .u3, ownExit := false })).noteExit k false).emit (.up k .lau)).updTree k .superSpeed (fun t =>
       { t with top := Tab.of (fun n => toU3 (t.top.get n)), leaf := Tab.of (fun i => toU3 (t.leaf.get i)) })).checkSuspended k).finish s.begin)) ∧
  -- upstreamU3Exit
  (∀ (s : State) (k : Part), s.switchedUp → s.daytime → (s.ups.get k).link = .u3 → exec (.upstreamU3Exit k) s = .next ((
       let u := s.begin.updUp k (fun u => { u with
         link := .u0, ownExit := false, counters := { u.counters with linkRecoveries := satAdd 32 u.counters.linkRecoveries 1 } })
       (if (s.ups.get k).ownExit then u else u.noteExit k true).wakePart k).finish s.begin)) ∧
  -- ssWarmReset
  (∀ (s : State) (k : Part), s.switchedUp → s.daytime → (s.ups.get k).ssSide ≠ .notPresented → (s.mfs.get k).side = some .superSpeed → exec (.ssWarmReset k) s = .next (((((((s.begin.updUp k (fun u => { u with link := .polling, ownExit := false })).updTree k .superSpeed defaultTree).restartMf
       k).resetPositions k .superSpeed (fun _ => true)).wakePart k)).finish s.begin)) ∧
  -- ssHotReset
  (∀ (s : State) (k : Part), s.switchedUp → s.daytime → (s.ups.get k).ssSide ≠ .notPresented → (s.mfs.get k).side = some .superSpeed → exec (.ssHotReset k) s = .next (((((((s.begin.updUp k (fun u => if beforeU0 u.link then u else
         { u with link := .hotReset, ownExit := false, counters := { u.counters with linkRecoveries := satAdd 32 u.counters.linkRecoveries 1 } })).updTree k .superSpeed
       defaultTree).restartMf k).resetPositions k .superSpeed (fun _ => true)).wakePart k)).finish s.begin)) ∧
  -- usb2BusReset
  (∀ (s : State) (k : Part) (high : Bool), s.switchedUp → s.daytime → (s.ups.get k).usb2 ≠ .notPresented → exec (.usb2BusReset k high) s = .next ((
       let a := (s.begin.updUp k (fun u => { u with
           usb2 := if high then .active else .fullSpeed, fullSpeed := !high, hird := 0
           counters := if high then u.counters else { u.counters with fsUpstream := satAdd 16 u.counters.fsUpstream 1 } })).updTree k .usb2 defaultTree
       let b := (if (a.mfs.get k).side = some .usb2 then a.restartMf k else a).resetPositions k .usb2 (fun _ => true)
       let c := if (b.mfs.get k).side = b.mfSide k then b else b.placeMf k (b.mfSide k)
       (if high then c else forAll ((c.portsOf k).filter (fun p => (c.ports.get p).shown && sideOf (c.ports.get p).path == .usb2))
         (fun s p => s.drainThen p .sideChange (fun x => { x with needU2 := true, noDebounce := true })) c).wakePart k).finish s.begin)) ∧
  -- usb2LpmTransaction
  (∀ (s : State) (k : Part) (hird : BitVec 4), s.switchedUp → (s.ups.get k).usb2 = .active ∨ (s.ups.get k).usb2 = .fullSpeed → s.usb2Quiet k = true → exec (.usb2LpmTransaction k hird) s = .next (((s.begin.updUp k (fun u => { u with usb2 := .l1, hird })).emit (.up k .lpmAck)).finish s.begin)) ∧
  -- usb2LpmTransaction
  (∀ (s : State) (k : Part) (hird : BitVec 4), s.switchedUp → (s.ups.get k).usb2 = .active ∨ (s.ups.get k).usb2 = .fullSpeed → s.usb2Quiet k = false → exec (.usb2LpmTransaction k hird) s = .next ((s.begin.emit (.up k .lpmNyet)).finish s.begin)) ∧
  -- usb2Suspend
  (∀ (s : State) (k : Part), s.switchedUp → (s.ups.get k).usb2 = .active ∨ (s.ups.get k).usb2 = .fullSpeed ∨ (s.ups.get k).usb2 = .l1 → exec (.usb2Suspend k) s = .next (((s.begin.updUp k (fun u => { u with usb2 := .suspended })).checkSuspended k).finish s.begin)) ∧
  -- usb2Resume, from the host
  (∀ (s : State) (k : Part), s.switchedUp → s.daytime → (s.ups.get k).usb2 = .suspended ∨ (s.ups.get k).usb2 = .l1 → exec (.usb2Resume k false) s = .next ((((if (s.ups.get k).usb2 = .suspended then s.begin.repeatResume k else s.begin).updUp k
       (fun u => { u with usb2 := if u.fullSpeed then .fullSpeed else .active })).wakePart k).finish s.begin)) ∧
  -- usb2Resume, the device's remote wake
  (∀ (s : State) (k : Part), s.switchedUp → s.daytime → (s.ups.get k).usb2 = .suspended ∨ (s.ups.get k).usb2 = .l1 → exec (.usb2Resume k true) s = .next ((if ((s.u2Tree.get k).hubs.get 0).remoteWake = true then
       (((if (s.ups.get k).usb2 = .suspended then (s.begin.emit (.up k .usb2Resume)).repeatResume k else s.begin.emit (.up k .usb2Resume)).updUp k
         (fun u => { u with usb2 := if u.fullSpeed then .fullSpeed else .active })).wakePart k) else s.begin).finish s.begin)) ∧
  -- virtualLinkInactivityTimeout
  (∀ (s : State) (k : Part) (q : HubPort) (u2 : Bool), s.switchedUp → (s.hubPort k .superSpeed q).link = .u0 → (if u2 then (s.hubPort k .superSpeed q).u2Timeout else (s.hubPort k .superSpeed q).u1Timeout) ≠ 0 → (if u2 then (s.hubPort k .superSpeed q).u2Timeout else (s.hubPort k .superSpeed q).u1Timeout) ≠ 0xFF → s.nativeAt k q = none → exec (.virtualLinkInactivityTimeout k q u2) s =
       .next ((s.begin.updHubPort k .superSpeed q (fun v => { v with link := if u2 then .u2 else .u1 })).finish s.begin)) ∧
  -- isochTimestampReceived: the pair is kept; one that names the interval before the expected one skips a micro-frame
  (∀ (s : State) (k : Part) (interval : BitVec 14) (delta : BitVec 13), s.switchedUp → (s.ups.get k).link = .u0 → exec (.isochTimestampReceived k interval delta) s =
       .next ((s.begin.updUp k (fun u => { u with
         isoPhase := some (interval.toNat, delta.toNat, s.microframe.toNat)
         isoSkip := u.isoSkip || decide (s.busInterval k s.microframe.toNat = some ((interval.toNat + 1) % 16384)) })).finish s.begin))

/-- The Management Function's endpoints. MF_STANDARD_REQUEST sets configuration and address; MF_BULK_OUT_COMMAND and VCP_COMMAND put a VCP message into the command store where there is room, else NRDY or STALL; VCP_LAST_RESPONSE returns the stored response, and is a Request Error without one (log 28); other vendor requests are Request Errors; MF_IN_TRANSFER takes the next response and the next event. Each clause gives the whole next state as an equation, so whatever it does not name is unchanged (the outside wires are cleared first, and what firmware has ready runs at the end, log 22). -/
def Obligations.ManagementFunctionRows : Prop :=
  -- mfStandardRequest
  (∀ (s : State) (k : Part) (side : Side) (r : Setup) (data : List Byte), s.switchedUp → (s.mfs.get k).side = some side → r.bmRequestType = 0 ∧ r.bRequest = 9 → r.wValue.toNat ≤ 1 → exec (.mfStandardRequest k r data) s =
       .next (((s.begin.updMf k (fun m => { m with config := r.wValue.toNat, halted := [] })).emit (.ctlDone k)).finish s.begin)) ∧
  -- mfStandardRequest
  (∀ (s : State) (k : Part) (side : Side) (r : Setup) (data : List Byte), s.switchedUp → (s.mfs.get k).side = some side → r.bmRequestType = 0 ∧ r.bRequest = 5 → exec (.mfStandardRequest k r data) s =
       .next (((s.begin.updMf k (fun m => { m with address := BitVec.ofNat 7 r.wValue.toNat })).emit (.ctlDone k)).finish s.begin)) ∧
  -- mfBulkOutCommand
  (∀ (s : State) (k : Part) (b : List Byte), s.switchedUp → s.mfOpen k = true → 0x01 ∉ (s.mfs.get k).halted → min 1040 b.length ≤ s.mfRoom k → exec (.mfBulkOutCommand k b) s =
       .next (let q := s.begin.mfPass k .bulkOut b
         (q.1.arrive (messageOf (mfSession k) q.2).1 (messageOf (mfSession k) q.2).2 (mfBad q.2)).finish s.begin)) ∧
  -- mfBulkOutCommand
  (∀ (s : State) (k : Part) (b : List Byte), s.switchedUp → s.mfOpen k = true → 0x01 ∉ (s.mfs.get k).halted → s.mfRoom k < min 1040 b.length → exec (.mfBulkOutCommand k b) s = .next ((s.begin.emit (.notReady k)).finish s.begin)) ∧
  -- vcpCommand
  (∀ (s : State) (k : Part) (b : List Byte), s.switchedUp → (s.mfs.get k).side ≠ none → 16 ≤ b.length ∧ b.length ≤ 1040 → b.length ≤ s.mfRoom k → exec (.vcpCommand k b) s =
       .next (let w := s.begin.mfPass k .ep0 b
         let q := w.1.mfPass k .bulkOut w.2
         ((q.1.arrive (messageOf (mfSession k) q.2).1 (messageOf (mfSession k) q.2).2 (mfBad q.2)).emit (.ctlDone k)).finish s.begin)) ∧
  -- vcpCommand
  (∀ (s : State) (k : Part) (b : List Byte), s.switchedUp → (s.mfs.get k).side ≠ none → b.length < 16 ∨ 1040 < b.length ∨ s.mfRoom k < b.length → exec (.vcpCommand k b) s = .next ((s.begin.emit (.ctlStall k)).finish s.begin)) ∧
  -- vcpLastResponse
  (∀ (s : State) (k : Part) (len : BitVec 16) (t : StoredCmd) (r : Rsp), s.switchedUp → (s.mfs.get k).side ≠ none → (s.sessions.get (mfSession k)).stored = some t → t.response = some r → 16 ≤ len.toNat ∧ len.toNat ≤ 1040 → exec (.vcpLastResponse k len) s =
       .next (let q := s.begin.mfPass k .ep0 ((rspBytes (mfSession k) r).take len.toNat)
         (q.1.emits [.ctlData k q.2, .ctlDone k]).finish s.begin)) ∧
  -- vcpLastResponse
  (∀ (s : State) (k : Part) (len : BitVec 16), s.switchedUp → (s.mfs.get k).side ≠ none → (s.sessions.get (mfSession k)).stored = none → exec (.vcpLastResponse k len) s = .next ((s.begin.emit (.ctlStall k)).finish s.begin)) ∧
  -- mfOtherVendorRequest
  (∀ (s : State) (k : Part) (r : Setup), s.switchedUp → (s.mfs.get k).side ≠ none → exec (.mfOtherVendorRequest k r) s = .next ((s.begin.emit (.ctlStall k)).finish s.begin)) ∧
  -- mfInTransfer
  (∀ (s : State) (k : Part) (r : Rsp) (rest : List Rsp), s.switchedUp → s.mfOpen k = true → 0x81 ∉ (s.mfs.get k).halted → (s.sessions.get (mfSession k)).out = r :: rest → exec (.mfInTransfer k 0x81) s =
       .next (let q := (s.begin.updSession (mfSession k) (fun x => { x with out := rest })).mfPass k .bulkIn (rspBytes (mfSession k) r)
         (q.1.emit (.vcp (mfSession k) q.2)).finish s.begin)) ∧
  -- mfInTransfer
  (∀ (s : State) (k : Part) (e : EventRec), s.switchedUp → s.mfOpen k = true → 0x82 ∉ (s.mfs.get k).halted → (s.mfs.get k).funcSuspend = false → s.fw.paused = false → nextToSend (s.sessions.get (mfSession k)) = some e → exec (.mfInTransfer k 0x82) s = .next (let q := (s.begin.updSession (mfSession k) (fun x => markSent x e.eseq)).mfPass k .intIn (evtBytes (mfSession k) e (s.sessions.get (mfSession k)).lostFlag)
         (q.1.emit (.vcp (mfSession k) q.2)).finish s.begin))

/-- The CDC functions of the Management Function. CDC_SET_LINE_CODING takes 1,200 to 3,000,000 baud, 8 data bits, no parity, 1 stop bit and refuses all else; CDC_GET_LINE_CODING, CDC_SET_CONTROL_LINE_STATE and CDC_SEND_BREAK complete; CDC_BULK_OUT_DATA goes out on the bound port's SBU pins and nowhere without one; SBU_UART_RX enters the 2 KiB buffer to the host. Each clause gives the whole next state as an equation, so whatever it does not name is unchanged (the outside wires are cleared first, and what firmware has ready runs at the end, log 22). -/
def Obligations.CdcRows : Prop :=
  -- cdcSetLineCoding
  (∀ (s : State) (k : Part) (u : Fin 6) (rate : BitVec 32) (p : Port), s.switchedUp → s.mfOpen k = true → 1200 ≤ rate.toNat ∧ rate.toNat ≤ 3000000 → ((s.uarts.get k).get u).port = some p → exec (.cdcSetLineCoding k u rate 0 0 8) s = .next ((((s.begin.updUart k u (fun x => { x with baud := rate.toNat })).updPd p (fun x =>
       { x with cfg := { x.cfg with uartBaud := rate.toNat } })).emit (.ctlDone k)).finish s.begin)) ∧
  -- cdcSetLineCoding
  (∀ (s : State) (k : Part) (u : Fin 6) (rate : BitVec 32) (format parity bits : Byte), s.switchedUp → s.mfOpen k = true → rate.toNat < 1200 ∨ 3000000 < rate.toNat ∨ format ≠ 0 ∨ parity ≠ 0 ∨ bits ≠ 8 → exec (.cdcSetLineCoding k u rate format parity bits) s = .next ((s.begin.emit (.ctlStall k)).finish s.begin)) ∧
  -- cdcGetLineCoding
  (∀ (s : State) (k : Part) (u : Fin 6), s.switchedUp → s.mfOpen k = true → exec (.cdcGetLineCoding k u) s = .next ((s.begin.emit (.ctlData k (le32 (if ((s.uarts.get k).get u).port.isSome then ((s.uarts.get k).get u).baud
       else 115200) ++ [0, 0, 8]))).finish s.begin)) ∧
  -- cdcSetControlLineState
  (∀ (s : State) (k : Part) (u : Fin 6) (lines : BitVec 16), s.switchedUp → s.mfOpen k = true → exec (.cdcSetControlLineState k u lines) s = .next ((s.begin.emit (.ctlDone k)).finish s.begin)) ∧
  -- cdcSendBreak
  (∀ (s : State) (k : Part) (u : Fin 6) (ms : BitVec 16), s.switchedUp → s.mfOpen k = true → exec (.cdcSendBreak k u ms) s = .next ((s.begin.emit (.ctlDone k)).finish s.begin)) ∧
  -- cdcBulkOutData
  (∀ (s : State) (k : Part) (u : Fin 6) (data : List Byte) (p : Port), s.switchedUp → s.mfOpen k = true → ((s.uarts.get k).get u).port = some p → (s.pd.get p).sbuOn = true → exec (.cdcBulkOutData k u data) s = .next ((s.begin.emit (.uartTx p (txOnSbu2 (s.pd.get p)) data)).finish s.begin)) ∧
  -- cdcBulkOutData
  (∀ (s : State) (k : Part) (u : Fin 6) (data : List Byte), s.switchedUp → ((s.uarts.get k).get u).port = none → exec (.cdcBulkOutData k u data) s = .next (s.begin.finish s.begin)) ∧
  -- sbuUartRx
  (∀ (s : State) (p : Port) (c : Byte) (u : Fin 6), s.switchedUp → (s.pd.get p).uartSlot = some u → (s.pd.get p).sbuOn = true → exec (.sbuUartRx p c) s = .next ((s.begin.updUart (s.partOf.get p) u (fun x =>
       if x.toHost.length < 2048 then { x with toHost := x.toHost ++ [c] } else x)).finish s.begin))

/-- VCP session commands. HELLO opens, forces open, grants and revokes; EVENT_ACK, GET_INFO, GET_STATUS, GET_TEMPS, RESYNC (with and without REPLAY, log 68) and CLOSE answer and change the session as Table 11.10 gives; an unsupported opcode is answered UNSUPPORTED. GET_INFO without an image and the uptime are free values (log 9, log 7). Each clause holds for a session whose command is next and which the mode, the scope and the target let through, and gives the whole next state as an equation: whatever it does not name is unchanged. -/
def Obligations.SessionCommands : Prop :=
  -- helloOpen
  (∀ (s : State) (m : VcpMsg) (o lo hi : Byte), s.hears (helloMsg 0 m) → (s.sessions.get m.session).isOpen = false → m.payload = [o, 1, 0, 0, lo, hi] → get16 m.payload 4 &&& 0xFC07 = 0 → m.target = 0xFFFF → s.fw.staging = none → exec (.helloOpen m) s = .next (
       (let u := (s.heard.updFw (fun x => x.orphan (· == m.session))).updSession m.session (fun x => { x.closed with
           isOpen := true, eventMask := BitVec.ofNat 16 (get16 m.payload 4)
           grant := x.pendingGrant || (!isOob m.session && s.fw.grantList.getLsbD m.session.val), pendingGrant := false
           lastCseq := m.cseq, stored := some { opcode := 0x0001, length := 6, response := none } })
        u.answers s 0x0001 (helloMsg 0 m) stOK ([BitVec.ofNat 8 m.session.val, BitVec.ofNat 8 (bnat (u.isSteward m.session)),
          if isOob m.session then 0xFF else BitVec.ofNat 8 m.session.val, 1] ++ le32 m.cseq.toNat ++ le32 0 ++ le32 u.fwVersion.toNat ++ le16 1024 ++
          le16 (BitVec.ofNat 16 (get16 m.payload 4)).toNat)))) ∧
  -- helloForceOpen
  (∀ (s : State) (m : VcpMsg) (o lo hi : Byte), s.hears (helloMsg 1 m) → m.payload = [o, 1, 0, 0, lo, hi] → get16 m.payload 4 &&& 0xFC07 = 0 → m.target = 0xFFFF → s.fw.staging = none → exec (.helloForceOpen m) s = .next (
       (let u := (s.heard.updFw (fun x => x.orphan (· == m.session))).updSession m.session (fun x => { x.closed with
           isOpen := true, eventMask := BitVec.ofNat 16 (get16 m.payload 4)
           grant := x.pendingGrant || (!isOob m.session && s.fw.grantList.getLsbD m.session.val), pendingGrant := false
           lastCseq := m.cseq, stored := some { opcode := 0x0001, length := 6, response := none } })
        u.answers s 0x0001 (helloMsg 1 m) stOK ([BitVec.ofNat 8 m.session.val, BitVec.ofNat 8 (bnat (u.isSteward m.session)),
          if isOob m.session then 0xFF else BitVec.ofNat 8 m.session.val, 1] ++ le32 m.cseq.toNat ++ le32 0 ++ le32 u.fwVersion.toNat ++ le16 1024 ++
          le16 (BitVec.ofNat 16 (get16 m.payload 4)).toNat)))) ∧
  -- helloGrant
  (∀ (s : State) (m : VcpMsg) (k : Part) (o lo hi : Byte), s.takes 0x0001 (helloMsg 2 m) → m.payload = [o, 1, 0, 0, lo, hi] → get16 m.payload 4 &&& 0xFC07 = 0 → decodeTarget m.target = some (.partition k) → s.isSteward m.session = true → s.fw.bootFailed = false → exec (.helloGrant m) s = .next (((s.taken 0x0001 (helloMsg 2 m)).updSession (mfSession k) (fun x =>
       { x with grant := x.isOpen, pendingGrant := !x.isOpen })).answers s 0x0001 (helloMsg 2 m) stOK [])) ∧
  -- helloRevoke
  (∀ (s : State) (m : VcpMsg) (k : Part) (o lo hi : Byte), s.takes 0x0001 (helloMsg 3 m) → m.payload = [o, 1, 0, 0, lo, hi] → get16 m.payload 4 &&& 0xFC07 = 0 → decodeTarget m.target = some (.partition k) → s.isSteward m.session = true → s.fw.bootFailed = false → exec (.helloRevoke m) s = .next (((s.taken 0x0001 (helloMsg 3 m)).updSession (mfSession k) (fun x =>
       { x with grant := false, pendingGrant := false })).answers s 0x0001 (helloMsg 3 m) stOK [])) ∧
  -- eventAck
  (∀ (s : State) (m : VcpMsg), s.takes 0x0003 m → m.target = 0xFFFF → m.payload.length = 4 → ((s.sessions.get m.session).nextEseq - 1 - bits32 m.payload 0).toNat < 2 ^ 31 → exec (.eventAck m) s = .next (((s.taken 0x0003 m).updSession m.session (fun x =>
       let rest := x.ring.dropWhile (fun r => (bits32 m.payload 0 - r.eseq).toNat < 2 ^ 31)
       { x with ring := rest, lastAcked := if rest.length = x.ring.length then x.lastAcked else bits32 m.payload 0 })).answers s 0x0003 m stOK [])) ∧
  -- getInfo
  (∀ (s : State) (m : VcpMsg), s.takes 0x0101 m → m.target = 0xFFFF → m.payload = [] → s.fw.running = none → s.fw.recordLoaded = none → exec (.getInfo m) s = .next ((s.taken 0x0101 m).answers s 0x0101 m stOK (le64 Config.uniqueId.toNat ++ le16 s.vendorId.toNat ++ le16 0x8516 ++
       [0xB0, Config.noSlot, BitVec.ofNat 8 (2 * bnat s.clocks.refSelect + 4 * bnat s.clocks.axin), 0] ++ le32 Config.noVersion.toNat ++
       le32 Config.bootRomVersion.toNat ++ ((List.range 4).map Config.noRecord ++ le32 s.fw.securityFloor ++
         (List.range 48).map (fun i => Config.noRecord (4 + i)))))) ∧
  -- getStatus
  (∀ (s : State) (m : VcpMsg), s.takes 0x0102 m → m.target = 0xFFFF → m.payload = [] → exec (.getStatus m) s = .next ((s.taken 0x0102 m).tick.answers s 0x0102 m stOK ([BitVec.ofNat 8 (opModeCode s.mode),
         (s.queue.map (fun r => BitVec.ofNat 8 (goalCode r.goal))).getD 0xFF] ++
         le16 (mask16 (fun k => (s.parts.get k).st == .connected)).toNat ++ le16 (mask16 (fun k => (s.parts.get k).st == .held)).toNat ++
         le16 (mask16 (fun k => (s.slots.get k).st == .on)).toNat ++ le16 (mask16 (fun k => (s.slots.get k).st == .latched)).toNat ++
         le16 (s.fault.records.countP (fun r => !r.acked)) ++ [BitVec.ofNat 8 s.maxUnacked, BitVec.ofNat 8 (eveBits s.eve), 0, 0] ++
         le32 (Config.uptime s.freeCount).toNat))) ∧
  -- getTemps
  (∀ (s : State) (m : VcpMsg), s.takes 0x0103 m → m.target = 0xFFFF → m.payload = [] → exec (.getTemps m) s = .next ((s.taken 0x0103 m).answers s 0x0103 m stOK
       ([16, 0] ++ (List.finRange 16).flatMap (fun i => le16 (s.sensors.get i).reading.toNat)))) ∧
  -- resync
  (∀ (s : State) (m : VcpMsg) (e0 e1 e2 e3 : Byte), s.takes 0x0002 m → m.target = 0xFFFF → m.payload = [0, 0, 0, 0, e0, e1, e2, e3] → exec (.resync m) s = .next (
       (let x := s.sessions.get m.session
        s.heard.finishCmd (s.cmdAt 0x0002 m) false (finalRsp (s.cmdAt 0x0002 m) stOK (le32 x.lastCseq.toNat ++
          le32 ((x.ring.head?.map (·.eseq)).getD x.nextEseq).toNat ++ le32 (x.nextEseq - 1).toNat ++ le32 x.lastAcked.toNat ++ le32 x.lostCount.toNat))).endWith 4095 s.begin)) ∧
  -- resync
  (∀ (s : State) (m : VcpMsg) (e0 e1 e2 e3 : Byte), s.takes 0x0002 m → m.target = 0xFFFF → m.payload = [1, 0, 0, 0, e0, e1, e2, e3] → exec (.resync m) s = .next (
       (let x := s.sessions.get m.session
        let oldest := (x.ring.head?.map (·.eseq)).getD x.nextEseq
        let off := (bits32 m.payload 4 - oldest).toNat
        let first := if 2 ^ 31 ≤ off then 0 else off
        (s.heard.updSession m.session (fun x => { x with
            ring := x.ring.mapIdx (fun i e => if first ≤ i && e.sent then { e with again := true } else e) })).finishCmd (s.cmdAt 0x0002 m) false
          (finalRsp (s.cmdAt 0x0002 m) stOK (le32 x.lastCseq.toNat ++ le32 oldest.toNat ++ le32 (x.nextEseq - 1).toNat ++ le32 x.lastAcked.toNat ++
            le32 x.lostCount.toNat))).endWith 4095 s.begin)) ∧
  -- close
  (∀ (s : State) (m : VcpMsg), s.takes 0x0004 m → m.target = 0xFFFF → m.payload = [] → exec (.close m) s = .next ((((s.taken 0x0004 m).respond m.session { opcode := 0x0004, status := stOK, cseq := m.cseq, target := m.target, more := false, payload := [] }).closeSession m.session).endWith 4095 s.begin)) ∧
  -- unsupportedOpcode
  (∀ (s : State) (m : VcpMsg) (op : BitVec 16), s.takes op m → cmdRow op = none → exec (.unsupportedOpcode op m) s = .next ((s.taken op m).answers s op m stUnsupported []))

/-- OOB mailboxes. A doorbell of the mailbox's own transport, by SPI or SMBus, sets CMD_BUSY; RSP_DONE and EVT_DONE release a buffer, which takes the next response or event where one waits; CRC_ERR is cleared by writing 1. Each clause gives the whole next state as an equation, so whatever it does not name is unchanged (the outside wires are cleared first, and what firmware has ready runs at the end, log 22). -/
def Obligations.MailboxRows : Prop :=
  -- doorbellRing
  (∀ (s : State) (bus : OobBus) (m : Mbox), s.aonUp = true → s.daytime → s.mode ≠ .off → oobServes bus m = true → (s.mailboxes.get m).cmdBusy = false → exec (.doorbellRing bus (1#3 <<< m.val)) s = .next ((s.begin.updMbox m (fun x => { x with cmdBusy := true })).finish s.begin)) ∧
  -- smbusDoorbellWrite
  (∀ (s : State), s.aonUp = true → s.daytime → s.mode ≠ .off → (s.mailboxes.get 2).cmdBusy = false → exec (.smbusDoorbellWrite true) s = .next ((s.begin.updMbox 2 (fun x => { x with cmdBusy := true })).finish s.begin)) ∧
  -- rspDone
  (∀ (s : State) (m : Mbox) (r : Rsp) (rest : List Rsp), s.aonUp = true → s.mode ≠ .off → (s.mailboxes.get m).rspReady = true → (s.sessions.get (sessOfMbox m)).out = r :: rest → exec (.rspDone m) s = .next (State.finish { s.begin.updSession (sessOfMbox m) (fun x => { x with out := rest }) with
       mailboxes := s.mailboxes.upd m (fun b => { b with rspReady := true, rspBuf := rspBytes (sessOfMbox m) r }) } s.begin)) ∧
  -- rspDone
  (∀ (s : State) (m : Mbox), s.aonUp = true → s.mode ≠ .off → (s.mailboxes.get m).rspReady = true → (s.sessions.get (sessOfMbox m)).out = [] → exec (.rspDone m) s = .next ((s.begin.updMbox m (fun x => { x with rspReady := false })).finish s.begin)) ∧
  -- evtDone
  (∀ (s : State) (m : Mbox) (e : EventRec), s.aonUp = true → s.mode ≠ .off → s.fw.paused = false → (s.mailboxes.get m).evtReady = true → nextToSend (s.sessions.get (sessOfMbox m)) = some e → exec (.evtDone m) s = .next (State.finish { s.begin.updSession (sessOfMbox m) (fun x => markSent x e.eseq) with
       mailboxes := s.mailboxes.upd m (fun b => { b with evtReady := true, evtBuf := evtBytes (sessOfMbox m) e (s.sessions.get (sessOfMbox m)).lostFlag }) }
       s.begin)) ∧
  -- evtDone
  (∀ (s : State) (m : Mbox), s.aonUp = true → s.mode ≠ .off → (s.mailboxes.get m).evtReady = true → nextToSend (s.sessions.get (sessOfMbox m)) = none → exec (.evtDone m) s = .next ((s.begin.updMbox m (fun x => { x with evtReady := false })).finish s.begin)) ∧
  -- crcErrClear
  (∀ (s : State) (m : Mbox), s.aonUp = true → s.mode ≠ .off → exec (.crcErrClear m) s = .next ((s.begin.updMbox m (fun x => { x with crcErr := false })).finish s.begin))

/-- The OOB register space and the SMBus target. REGISTER_WRITE writes ALERT_ENABLE and the command buffers over SPI, and gathers the bytes of an SMBus Block Write until its STOP with a right PEC; SMBUS_SET_POINTER, SMBUS_ALERT_RESPONSE (log 31) and SMBUS_CLOCK_LOW_TIMEOUT act as Table 11.9 and R393 give. Each clause gives the whole next state as an equation, so whatever it does not name is unchanged (the outside wires are cleared first, and what firmware has ready runs at the end, log 22). -/
def Obligations.RegisterSpaceRows : Prop :=
  -- registerWrite
  (∀ (s : State) (b : Byte), s.aonUp = true → exec (.registerWrite (.spi 0x000C) [b]) s = .next (State.finish { s.begin with alertEnable := b.setWidth 3 } s.begin)) ∧
  -- registerWrite
  (∀ (s : State) (m : Mbox) (o : Nat) (b : Byte), s.aonUp = true → s.mode ≠ .off → m ≠ 2 → o < 0x500 → (s.mailboxes.get m).cmdBusy = false → exec (.registerWrite (.spi (BitVec.ofNat 16 (0x1000 * (m.val + 1) + 0x100 + o))) [b]) s =
       .next ((s.begin.updMbox m (fun x => { x with cmdBuf := putByte x.cmdBuf o b })).finish s.begin)) ∧
  -- registerWrite
  (∀ (s : State) (l : List Byte), s.aonUp = true → exec (.registerWrite (.smbus false true) l) s = .next (State.finish { s.begin with smbus := { s.smbus with rx := s.smbus.rx ++ l } } s.begin)) ∧
  -- registerWrite
  (∀ (s : State) (l : List Byte), s.aonUp = true → exec (.registerWrite (.smbus true false) l) s = .next (State.finish { s.begin with smbus := { s.smbus with rx := [] } } s.begin)) ∧
  -- smbusSetPointer
  (∀ (s : State) (a : BitVec 16), s.aonUp = true → exec (.smbusSetPointer a true) s = .next (State.finish { s.begin with smbus := { s.smbus with pointer := a, rx := [] } } s.begin)) ∧
  -- smbusSetPointer
  (∀ (s : State) (a : BitVec 16), exec (.smbusSetPointer a false) s = .next (s.begin.finish s.begin)) ∧
  -- smbusAlertResponse
  (∀ (s : State), s.aonUp = true → s.mode ≠ .off → s.alert = true → exec .smbusAlertResponse s = .next ((s.begin.emit (.smbusAddress s.smbus.address)).finish s.begin)) ∧
  -- smbusClockLowTimeout
  (∀ (s : State), exec .smbusClockLowTimeout s = .next (State.finish { s.begin with smbus := { s.smbus with rx := [] } } s.begin))

/-- Partition commands. PART_GET, PART_ASSIGN_PORT (at once and through a drain, Table 2.5), PART_SET_LIMITS, PART_CONNECT from Disabled and Charge-only, PART_DISCONNECT and its deferred form, and the execution of the deferred one, with the payload of each answer. Each clause holds for a session whose command is next and which the mode, the scope and the target let through, and gives the whole next state as an equation: whatever it does not name is unchanged. -/
def Obligations.PartitionCommands : Prop :=
  -- partGet
  (∀ (s : State) (m : VcpMsg) (k : Part) (o : Byte), s.reaches 0x0201 m (.partition k) → m.payload = [o] → o = 0 ∨ o = 1 → exec (.partGet m) s = .next ((if o = 1 then (s.taken 0x0201 m).updUp k (fun u => { u with counters := {} }) else
       s.taken 0x0201 m).answers s 0x0201 m stOK (s.partStatus k))) ∧
  -- partAssignPort
  (∀ (s : State) (m : VcpMsg) (p : Port) (k : Part) (i : Pos), s.reaches 0x0202 m (.port p) → s.isSteward m.session = true → m.payload = [BitVec.ofNat 8 k.val, BitVec.ofNat 8 i.val] → s.partOf.get p = k → s.posOf.get p = i → exec (.partAssignPort m) s = .next ((s.taken 0x0202 m).answers s 0x0202 m stOK
       [BitVec.ofNat 8 k.val, BitVec.ofNat 8 i.val, BitVec.ofNat 8 (1 + i.val / 14), BitVec.ofNat 8 (1 + i.val % 14)])) ∧
  -- partAssignPort, of a presented port: it drains first (Table 2.5)
  (∀ (s : State) (m : VcpMsg) (p : Port) (k : Part) (i : Pos), s.reaches 0x0202 m (.port p) → s.isSteward m.session = true → m.payload = [BitVec.ofNat 8 k.val, BitVec.ofNat 8 i.val] → s.portAtPos k i = none → s.partOf.get p ≠ k ∨ s.posOf.get p ≠ i → (s.portsOf k).length < (s.parts.get k).cfg.maxPorts → dataModeAttaches (s.ports.get p).dataMode = false ∨ s.partOf.get p = k ∨ s.slotsAllow k = true → (s.ports.get p).presented = true → (s.ports.get p).st ≠ .draining → (s.ports.get p).st ≠ .disabling → (s.ports.get p).reacting = false → s.resetOnWire p = false → exec (.partAssignPort m) s = .next (((((s.taken 0x0202 m).updPort p (fun x => { x with pendMove := some (k, i) })).beginDrain p .moved).updSession
       m.session (fun x => { x with executing := some (s.cmdAt 0x0202 m, .assign p k i) })).endWith 4095 s.begin)) ∧
  -- partSetLimits
  (∀ (s : State) (m : VcpMsg) (k : Part), s.reaches 0x0203 m (.partition k) → s.isSteward m.session = true → s.partArgsOk k m.payload = true → exec (.partSetLimits m) s = .next (((s.taken 0x0203 m).updPart k (fun x => { x with cfg := applyLimits m.payload x.cfg })).answers s 0x0203 m
       stOK (partLimits (applyLimits m.payload (s.parts.get k).cfg)))) ∧
  -- partConnect, from Disabled
  (∀ (s : State) (m : VcpMsg) (k : Part), s.reaches 0x0204 m (.partition k) → m.payload = [] → (s.parts.get k).st = .disabled → exec (.partConnect m) s = .next (((((s.taken 0x0204 m).updPart k (fun x => { x with armed := true, st := .chargeOnly })).refreshPart
       k).evalPresent k).answers s 0x0204 m stOK [])) ∧
  -- partConnect, from Charge-only
  (∀ (s : State) (m : VcpMsg) (k : Part), s.reaches 0x0204 m (.partition k) → m.payload = [] → (s.parts.get k).st = .chargeOnly → exec (.partConnect m) s = .next ((((s.taken 0x0204 m).updPart k (fun x => { x with armed := true })).evalPresent k).answers s 0x0204 m stOK [])) ∧
  -- partDisconnect, a partition's own: deferred (R57)
  (∀ (s : State) (m : VcpMsg) (k : Part) (o : Byte), s.reaches 0x0205 m (.partition k) → m.payload = [o] → o = 0 ∨ o = 1 → m.session = mfSession k → exec (.partDisconnect m) s = .next (((s.taken 0x0205 m).updPart k (fun x => { x with deferredDisconnect := some (o == 1) })).answers s 0x0205 m
       stDeferred [])) ∧
  -- partDisconnect, to Charge-only
  (∀ (s : State) (m : VcpMsg) (k : Part), s.reaches 0x0205 m (.partition k) → m.payload = [0] → m.session ≠ mfSession k → (s.parts.get k).st = .chargeOnly → (s.parts.get k).safeMarked = false → (s.parts.get k).withdraw = none → exec (.partDisconnect m) s = .next (((s.taken 0x0205 m).updPart k (fun x => { x with armed := false, deferredDisconnect := none })).answers s
       0x0205 m stOK [])) ∧
  -- deferredDisconnectExecute
  (∀ (s : State) (k : Part) (dis : Bool), s.mode ≠ .off → (s.parts.get k).deferredDisconnect = some dis → (s.parts.get k).safeMarked = false → (s.parts.get k).st ≠ .disabled → (s.parts.get k).st ≠ .chargeOnly → s.deferredWaits k = false → exec (.deferredDisconnectExecute k) s = .next (((s.begin.updPart k (fun x => { x with armed := false, deferredDisconnect := none })).withdraw k
       .withdrawn false (if dis then .disabled else .chargeOnly)).finish s.begin))

/-- Port commands. PORT_GET, PORT_SET_MODE, PORT_RESET (through a drain), PORT_QUENCH, PORT_RELEASE, PORT_SET_BC and VBUS_SET, each with its answer and its effect on the port (log 62). Each clause holds for a session whose command is next and which the mode, the scope and the target let through, and gives the whole next state as an equation: whatever it does not name is unchanged. -/
def Obligations.PortCommands : Prop :=
  -- portGet
  (∀ (s : State) (m : VcpMsg) (p : Port), s.reaches 0x0301 m (.port p) → m.payload = [] → exec (.portGet m) s = .next ((s.taken 0x0301 m).answers s 0x0301 m stOK (s.portStatus p))) ∧
  -- portSetMode, the settings alone
  (∀ (s : State) (m : VcpMsg) (p : Port), s.reaches 0x0302 m (.port p) → setModeArgsOk m.payload = true → bit (get8 m.payload 0) 0 = false → exec (.portSetMode m) s = .next (((s.taken 0x0302 m).updPort p (applyPortMode m.payload)).answers s 0x0302 m stOK [])) ∧
  -- portSetMode, a mode for a presented port: it drains first
  (∀ (s : State) (m : VcpMsg) (p : Port) (d : DataMode), s.reaches 0x0302 m (.port p) → setModeArgsOk m.payload = true → bit (get8 m.payload 0) 0 = true → modeOfCode (get8 m.payload 1) = some d → d ≠ (s.ports.get p).dataMode → dataModeAttaches d = false ∨ dataModeAttaches (s.ports.get p).dataMode = true ∨ s.slotsAllow (s.partOf.get p) = true → (s.ports.get p).presented = true → (s.ports.get p).st ≠ .probe → (s.ports.get p).disabling = false → (s.ports.get p).st ≠ .draining → exec (.portSetMode m) s = .next (((((s.taken 0x0302 m).updPort p (applyPortMode m.payload)).updPort p (fun x => { x with pendMode := some d, pendDisable := d == .off || ((d == .charge || (s.ports.get p).dataMode == .charge) && !hasExplicit (s.pd.get p)) })).beginDrain p .mode |>.updSession
       m.session (fun x => { x with executing := some (s.cmdAt 0x0302 m, .setMode p) })).endWith 4095 s.begin)) ∧
  -- portReset, of a presented port: it drains first
  (∀ (s : State) (m : VcpMsg) (p : Port), s.reaches 0x0303 m (.port p) → m.payload = [] → (s.ports.get p).connected = true → dataModeAttaches (s.ports.get p).dataMode = true → (s.ports.get p).presented = true → (s.ports.get p).disabling = false → (s.ports.get p).st ≠ .draining → exec (.portReset m) s = .next ((((s.taken 0x0303 m).updPort p (fun x => { x with pendReset := true })).beginDrain p .reset |>.updSession
       m.session (fun x => { x with executing := some (s.cmdAt 0x0303 m, .portReset p) })).endWith 4095 s.begin)) ∧
  -- portQuench, of a lifted port
  (∀ (s : State) (m : VcpMsg) (p : Port), s.reaches 0x0304 m (.port p) → m.payload = [] → (s.ports.get p).path = .lifted → (s.ports.get p).st = .enabled ∨ (s.ports.get p).st = .suspended ∨ (s.ports.get p).st = .l1 → exec (.portQuench m) s = .next (((s.taken 0x0304 m).updPort p (fun x => { x with st := .quenched, quenchedFrom := some (s.ports.get p).st, resumeK := false })).answers s 0x0304 m stOK [])) ∧
  -- portQuench, of a port on the USB 2.0 side
  (∀ (s : State) (m : VcpMsg) (p : Port), s.reaches 0x0304 m (.port p) → m.payload = [] → sideOf (s.ports.get p).path = .usb2 → (s.ports.get p).st = .waitReset ∨ (s.ports.get p).st = .enabled ∨ (s.ports.get p).st = .suspended → exec (.portQuench m) s = .next ((((s.taken 0x0304 m).updPort p (fun x => { x with st := .quenched, quenchedFrom := some (s.ports.get p).st, resumeK := false })).updLeaf (s.partOf.get p) .usb2 (s.posOf.get p)
       (fun v => { v with enabled := false, cEnable := true })).answers s 0x0304 m stOK [])) ∧
  -- portRelease, of a port that is not lifted
  (∀ (s : State) (m : VcpMsg) (p : Port), s.reaches 0x0305 m (.port p) → m.payload = [] → (s.ports.get p).st = .quenched → (s.ports.get p).presented = true → (s.ports.get p).path ≠ .lifted → exec (.portRelease m) s = .next (((s.taken 0x0305 m).updPort p (fun x => { x with st := .waitReset, quenchedFrom := none })).answers s 0x0305 m
       stOK [])) ∧
  -- portSetBc
  (∀ (s : State) (m : VcpMsg) (p : Port) (o : Byte), s.reaches 0x0306 m (.port p) → m.payload = [o] → o = 0 ∨ o = 1 → exec (.portSetBc m) s = .next (((s.taken 0x0306 m).updPort p (fun x =>
       if x.st = .idle then { x with bcMode := if o = 1 then .cdp else .sdp, bcNext := none }
       else { x with bcNext := some (if o = 1 then .cdp else .sdp) })).answers s 0x0306 m stOK [])) ∧
  -- vbusSet, ON
  (∀ (s : State) (m : VcpMsg) (p : Port), s.reaches 0x0605 m (.port p) → m.payload = [1] → (s.ports.get p).disabling = false → exec (.vbusSet m) s = .next ((((((s.taken 0x0605 m).updVbus p (fun v => { v with setting := true })).endHold p).updPd p
       (fun d => { d with stopped := d.stopped && !((s.vbus.get p).hold == some .noDischarge) })).refreshWord p).answers s 0x0605 m stOK [])) ∧
  -- vbusSet, ON during the disable sequence: deferred (R77)
  (∀ (s : State) (m : VcpMsg) (p : Port), s.reaches 0x0605 m (.port p) → m.payload = [1] → (s.ports.get p).disabling = true → exec (.vbusSet m) s = .next (((s.taken 0x0605 m).updPort p (fun x => { x with deferred := x.deferred ++ [.vbusOn] })).answers s 0x0605 m
       stDeferred [])) ∧
  -- vbusSet, OFF
  (∀ (s : State) (m : VcpMsg) (p : Port), s.reaches 0x0605 m (.port p) → m.payload = [0] → (s.ports.get p).st ≠ .disabling → exec (.vbusSet m) s = .next ((((s.taken 0x0605 m).updVbus p (fun v => { v with setting := false })).drainThen p .vbusOff
       (fun x => { x with pendDisable := true })).answers s 0x0605 m stOK []))

/-- Lift commands. LIFT_GET_POLICY, LIFT_SET_CLASSLIST, LIFT_SET_EP_BOUNDARY, LIFT_GET_EP_STATS and LIFT_CLEAR_POISON, each with its answer and its effect on the port's endpoints. Each clause holds for a session whose command is next and which the mode, the scope and the target let through, and gives the whole next state as an equation: whatever it does not name is unchanged. -/
def Obligations.LiftCommands : Prop :=
  -- liftGetPolicy
  (∀ (s : State) (m : VcpMsg) (k : Part), s.reaches 0x0401 m (.partition k) → m.payload = [] → exec (.liftGetPolicy m) s = .next ((s.taken 0x0401 m).answers s 0x0401 m stOK
       ([BitVec.ofNat 8 (s.parts.get k).classes.length, 0, 0, 0] ++ (s.parts.get k).classes.flatMap classBytes))) ∧
  -- liftSetClasslist
  (∀ (s : State) (m : VcpMsg) (k : Part) (n : Nat), s.reaches 0x0402 m (.partition k) → get8 m.payload 0 = n → 1 ≤ n ∧ n ≤ 32 → m.payload.length = 4 + 4 * n → zeroSlice m.payload 1 3 = true → (∀ i, i < n → get8 m.payload (4 * i + 7) < 4) → exec (.liftSetClasslist m) s = .next (((s.taken 0x0402 m).updPart k (fun x =>
       { x with classes := (List.range n).map (fun i => classAt m.payload (4 * i + 4)) })).answers s 0x0402 m stOK [])) ∧
  -- liftSetEpBoundary
  (∀ (s : State) (m : VcpMsg) (p : Port) (x : LiftPort) (a c : Byte) (b : Boundary), s.reaches 0x0403 m (.port p) → s.presentation p = some x → m.payload = [a, 1, c, 0, 0, 0] → x.asRead.isBulkIn a = true → boundaryOfCode c.toNat = some b → (b = .snoopBot → x.asRead.botSomewhere a = true) → exec (.liftSetEpBoundary m) s = .next (((s.taken 0x0403 m).setBoundary p a (some b) none).answers s 0x0403 m stOK [])) ∧
  -- liftSetEpBoundary, the hold window
  (∀ (s : State) (m : VcpMsg) (p : Port) (x : LiftPort) (a lo hi : Byte), s.reaches 0x0403 m (.port p) → s.presentation p = some x → m.payload = [a, 2, 0, 0, lo, hi] → x.asRead.isBulkIn a = true → get16 m.payload 4 ≤ 1000 → exec (.liftSetEpBoundary m) s = .next (((s.taken 0x0403 m).setBoundary p a none (some (get16 m.payload 4))).answers s 0x0403 m stOK [])) ∧
  -- liftGetEpStats, of one endpoint
  (∀ (s : State) (m : VcpMsg) (p : Port) (x : LiftPort) (a : Byte), s.reaches 0x0404 m (.port p) → s.presentation p = some x → m.payload = [a, 0] → a ≠ 0xFF → a = 0 ∨ x.asRead.addresses.contains a = true → exec (.liftGetEpStats m) s = .next ((s.taken 0x0404 m).answers s 0x0404 m stOK ([1, 0, 0, 0] ++ epStats x a))) ∧
  -- liftGetEpStats, nothing presented
  (∀ (s : State) (m : VcpMsg) (p : Port) (a : Byte), s.reaches 0x0404 m (.port p) → s.presentation p = none → m.payload = [a, 0] → exec (.liftGetEpStats m) s = .next ((s.taken 0x0404 m).answers s 0x0404 m stOK [0, 0, 0, 0])) ∧
  -- liftClearPoison
  (∀ (s : State) (m : VcpMsg) (p : Port) (x : LiftPort) (a : Byte), s.reaches 0x0405 m (.port p) → s.presentation p = some x → m.payload = [a] → a ≠ 0 → x.asRead.addresses.contains a = true → exec (.liftClearPoison m) s = .next (((s.taken 0x0405 m).updCtx p a (fun c =>
       if c.poisoned then { c with poisoned := false, halted := true, localClear := true, stall := false } else c)).answers s 0x0405 m stOK []))

/-- PD, CC and SBU commands. PD_SET_OFFER, PD_SEND, PD_SET_AUTORESP, PD_HARD_RESET, CC_SET_RP, SBU_SET_ROUTE and PD_SET_TIMERS, each with its answer and its effect on the port's Type-C and PD side. Each clause holds for a session whose command is next and which the mode, the scope and the target let through, and gives the whole next state as an equation: whatever it does not name is unchanged. -/
def Obligations.PdCommands : Prop :=
  -- pdSetOffer
  (∀ (s : State) (m : VcpMsg) (p : Port) (n : Nat), s.reaches 0x0501 m (.port p) → get8 m.payload 1 = n → 1 ≤ n ∧ n ≤ 7 → m.payload.length = 4 + 4 * n → get8 m.payload 0 < 2 → get16 m.payload 2 = 0 → s.offerOk p (pdosAt m.payload 4 n) = true → exec (.pdSetOffer m) s = .next (
       (let t := (s.taken 0x0501 m).updPd p (fun x => { x with cfg := { x.cfg with offer := some (pdosAt m.payload 4 n), pdEnable := bit (get8 m.payload 0) 0 } })
        if bit (get8 m.payload 0) 0 = false then t.pdDisable p
        else if t.pdRuns p = true ∧ (t.pd.get p).capsStopped = false ∧ (t.pd.get p).notPd = false ∧ (t.pd.get p).hr = none ∧
          ((t.pd.get p).trans.isSome = true ∨ t.vbusGood p = true) then t.sendCaps p false else t).answers s 0x0501 m stOK [])) ∧
  -- pdSend, with no partner
  (∀ (s : State) (m : VcpMsg) (p : Port) (sop f h0 h1 lo hi : Byte) (d : List Byte), s.reaches 0x0502 m (.port p) → m.payload = [sop, f, h0, h1, lo, hi] ++ d → sop.toNat < 5 → f.toNat < 2 → get16 m.payload 4 = d.length → d.length ≤ 260 → (s.pd.get p).tc ≠ .attached → exec (.pdSend m) s = .next ((s.taken 0x0502 m).answers s 0x0502 m stOK [4, 0, 0, 0])) ∧
  -- pdSend, a sequence of its own
  (∀ (s : State) (m : VcpMsg) (p : Port) (sop h0 h1 lo hi : Byte) (d : List Byte), s.reaches 0x0502 m (.port p) → m.payload = [sop, 0, h0, h1, lo, hi] ++ d → sop.toNat < 5 → get16 m.payload 4 = d.length → d.length ≤ 260 → (s.pd.get p).tc = .attached → (s.pd.get p).cfg.pdEnable = true → (s.pd.get p).stopped = false → (s.pd.get p).fwd = none → exec (.pdSend m) s = .next ((((s.taken 0x0502 m).pdStart p { sop := Fin.ofNat 5 sop.toNat, bytes := [h0, h1] ++ d, purpose := .pdSend m.session, tries := 0 }).updSession m.session (fun x => { x with executing := some (s.cmdAt 0x0502 m, .pdSend p) })).endWith 4095 s.begin)) ∧
  -- pdSetAutoresp
  (∀ (s : State) (m : VcpMsg) (p : Port) (c : PdSettings), s.reaches 0x0503 m (.port p) → setAutoresp p m.payload (s.pd.get p).cfg = some c → exec (.pdSetAutoresp m) s = .next (((s.taken 0x0503 m).updPd p (fun x => { x with cfg := c })).answers s 0x0503 m stOK [])) ∧
  -- pdHardReset
  (∀ (s : State) (m : VcpMsg) (p : Port), s.reaches 0x0504 m (.port p) → m.payload = [] → (s.pd.get p).tc = .attached → (s.pd.get p).cfg.pdEnable = true → exec (.pdHardReset m) s = .next (((((s.taken 0x0504 m).updPd p (fun x => { x with hardResets := x.hardResets + 1 })).hardResetBegin p).emit (.hardReset p)).answers s 0x0504 m stOK [0, 0, 0, 0])) ∧
  -- ccSetRp
  (∀ (s : State) (m : VcpMsg) (p : Port) (c : Byte) (r : RpLevel), s.reaches 0x0505 m (.port p) → m.payload = [c, 0] → rpOfCode c.toNat = some r → rpMa r ≤ s.cardMa p → exec (.ccSetRp m) s = .next (((((s.taken 0x0505 m).updPd p (fun x => { x with cfg := { x.cfg with rpLevel := r } })).setRp p).refreshWord p).answers s 0x0505 m stOK [])) ∧
  -- ccSetRp, with an error recovery
  (∀ (s : State) (m : VcpMsg) (p : Port) (c : Byte) (r : RpLevel), s.reaches 0x0505 m (.port p) → m.payload = [c, 1] → rpOfCode c.toNat = some r → rpMa r ≤ s.cardMa p → (s.pd.get p).tc ≠ .open → exec (.ccSetRp m) s = .next ((((s.taken 0x0505 m).setRpLevel p r).enterRecovery p).answers s 0x0505 m stOK [])) ∧
  -- sbuSetRoute, ENTER_MODE routing with a free UART slot
  (∀ (s : State) (m : VcpMsg) (p : Port) (mode lo hi : Byte) (u : Fin 6), s.reaches 0x0506 m (.port p) → m.payload = [1, 1, 0, mode, lo, hi, 0, 0, 0, 0, 0, 0] → ssCapable p = true → (s.pd.get p).uartSlot = none → (List.finRange 6).find? (fun u => ((s.uarts.get (s.partOf.get p)).get u).port == none) = some u → exec (.sbuSetRoute m) s = .next (((((s.taken 0x0506 m).updPd p (fun x => { x with cfg := { x.cfg with sbuOnEnter := true, sbuSvid := BitVec.ofNat 16 (get16 m.payload 4), sbuMode := mode } })).bindUart p).syncBaud p).answers s 0x0506 m stOK [BitVec.ofNat 8 u.val])) ∧
  -- pdSetTimers
  (∀ (s : State) (m : VcpMsg) (p : Port) (lo hi : Byte), s.reaches 0x0507 m (.port p) → m.payload = [lo, hi] → 10 ≤ get16 m.payload 0 ∧ get16 m.payload 0 ≤ 500 → get16 m.payload 0 % 10 = 0 → exec (.pdSetTimers m) s = .next (((s.taken 0x0507 m).updPd p (fun x => { x with cfg := { x.cfg with waitRetry := get16 m.payload 0 } })).answers s 0x0507 m stOK []))

/-- Slot and chain commands. SLOT_GET, SLOT_SET_LIMITS, SLOT_ENABLE on and off, SLOT_CLEAR_LATCH and PPC_GET, each with its answer and its effect on the slot. Each clause holds for a session whose command is next and which the mode, the scope and the target let through, and gives the whole next state as an equation: whatever it does not name is unchanged. -/
def Obligations.SlotCommands : Prop :=
  -- slotGet
  (∀ (s : State) (m : VcpMsg) (k : Slot), s.reaches 0x0601 m (.slot k) → m.payload = [] → exec (.slotGet m) s = .next ((s.taken 0x0601 m).tick.answers s 0x0601 m stOK (s.slotStatus k))) ∧
  -- slotSetLimits
  (∀ (s : State) (m : VcpMsg) (k : Slot), s.reaches 0x0602 m (.slot k) → s.isSteward m.session = true → limitsOk m.payload = true → (limitsOf m.payload (s.slots.get k).cfg).vinUv + 10 ≤ (limitsOf m.payload (s.slots.get k).cfg).vinOv → s.profileKeeps k (s.slots.get k).cfg (limitsOf m.payload (s.slots.get k).cfg) = true → exec (.slotSetLimits m) s = .next (((s.taken 0x0602 m).updSlot k (fun x => { x with cfg := limitsOf m.payload x.cfg, spc := if (s.powerLinks.get (dieOfSlot k)).up then limitsOf m.payload x.cfg else x.spc })).answers s 0x0602 m stOK [])) ∧
  -- slotEnable, ENABLE = 1
  (∀ (s : State) (m : VcpMsg) (k : Slot), s.reaches 0x0603 m (.slot k) → s.isSteward m.session = true → m.payload = [1] → exec (.slotEnable m) s = .next (((s.taken 0x0603 m).updSlot k (fun x => { x with enable := true })).answers s 0x0603 m stOK [])) ∧
  -- slotEnable, ENABLE = 0 on a slot that is not ON
  (∀ (s : State) (m : VcpMsg) (k : Slot), s.reaches 0x0603 m (.slot k) → s.isSteward m.session = true → m.payload = [0] → (s.slots.get k).st ≠ .on → (s.slots.get k).disabling = false → exec (.slotEnable m) s = .next (((s.taken 0x0603 m).updSlot k (fun x => { x with enable := false, st := if x.st = .ramp ∨ x.st = .pgWait then .idle else x.st })).answers s 0x0603 m stOK [])) ∧
  -- slotClearLatch
  (∀ (s : State) (m : VcpMsg) (k : Slot), s.reaches 0x0604 m (.slot k) → s.isSteward m.session = true → m.payload = [] → (s.slots.get k).st = .latched → exec (.slotClearLatch m) s = .next (((s.taken 0x0604 m).updSlot k (fun x => { x with st := if (s.slots.get k).seatLow then .seating else .empty, tripsInWindow := 0 })).answers s 0x0604 m stOK [])) ∧
  -- ppcGet, of a port
  (∀ (s : State) (m : VcpMsg) (p : Port), s.reaches 0x0606 m (.port p) → m.payload = [] → exec (.ppcGet m) s = .next ((s.taken 0x0606 m).answers s 0x0606 m stOK ([BitVec.ofNat 8 (slotOf p).val, BitVec.ofNat 8 (chainCode (s.chains.get (slotOf p)).st), 1, 0] ++ s.ppcEntry p))) ∧
  -- ppcGet, of a slot, by a steward: all 32 ports
  (∀ (s : State) (m : VcpMsg) (k : Slot), s.reaches 0x0606 m (.slot k) → s.isSteward m.session = true → m.payload = [] → exec (.ppcGet m) s = .next ((s.taken 0x0606 m).answers s 0x0606 m stOK ([BitVec.ofNat 8 k.val, BitVec.ofNat 8 (chainCode (s.chains.get k).st), 32, 0] ++ (portsOfSlot k).flatMap s.ppcEntry)))

/-- Mode and power commands. MODE_GET, MODE_REQUEST, LAT_BUDGET_SET (log 47), WAKE_SOURCES_SET and AVS_GET, each with its answer. Each clause holds for a session whose command is next and which the mode, the scope and the target let through, and gives the whole next state as an equation: whatever it does not name is unchanged. -/
def Obligations.ModeCommands : Prop :=
  -- modeGet
  (∀ (s : State) (m : VcpMsg), s.reaches 0x0701 m .device → m.payload = [] → exec (.modeGet m) s = .next ((s.taken 0x0701 m).answers s 0x0701 m stOK ([BitVec.ofNat 8 (opModeCode s.mode), BitVec.ofNat 8 (opModeCode s.origin), s.cause, (s.queue.map (fun r => BitVec.ofNat 8 (goalCode r.goal))).getD 0xFF] ++ le16 s.detail.toNat ++ [BitVec.ofNat 8 (eveBits s.eve), 0]))) ∧
  -- modeRequest
  (∀ (s : State) (m : VcpMsg) (b : BoardIn) (c : Byte) (g : Goal), s.reaches 0x0702 m .device → s.isSteward m.session = true → m.payload = [c] → goalOf c.toNat = some g → s.fw.bootFailed = false → exec (.modeRequest m b) s = .next (((({ s with board := b } : State).taken 0x0702 m).meetRequest m 0x0702 g).endWith 4095 ({ s with board := b } : State).begin)) ∧
  -- latBudgetSet
  (∀ (s : State) (m : VcpMsg) (k : Part) (lo hi : Byte), s.reaches 0x0703 m (.partition k) → m.payload = [lo, hi] → exec (.latBudgetSet m) s = .next (((s.taken 0x0703 m).updPart k (fun x => { x with latBudget := get16 m.payload 0 })).answers s 0x0703 m stOK [])) ∧
  -- wakeSourcesSet
  (∀ (s : State) (m : VcpMsg) (lo hi t0 t1 t2 t3 : Byte), s.reaches 0x0704 m .device → s.isSteward m.session = true → m.payload = [3, 0, lo, hi, t0, t1, t2, t3] → get32 m.payload 4 ≤ 86400 → exec (.wakeSourcesSet m) s = .next (({ s.taken 0x0704 m with modeCfg := { s.modeCfg with wakeSources := BitVec.ofNat 16 (get16 m.payload 2), wakeTimer := get32 m.payload 4 } } : State).answers s 0x0704 m stOK [])) ∧
  -- avsGet
  (∀ (s : State) (m : VcpMsg), s.reaches 0x0705 m .device → m.payload = [] → exec (.avsGet m) s = .next ((s.taken 0x0705 m).answers s 0x0705 m stOK (le16 s.avs.target ++ le16 s.avs.confirmed ++ le16 s.avs.voltage.toNat ++ le16 s.avs.current.toNat ++ le16 s.avs.temp.toNat ++ le16 s.avs.status.toNat ++ le32 s.avs.timeouts)))

/-- Commands on the packet buffer. PBM_GET_STATS by any session and, with CLEAR, by a steward; PBM_SET_SCRUB; PBM_RETIRE of a bank and of a row, to the next free spare row; PBM_FLIPMASK for one word. Each clause holds for a session whose command is next and which the mode, the scope and the target let through, and gives the whole next state as an equation: whatever it does not name is unchanged. -/
def Obligations.BufferCommands : Prop :=
  -- pbmGetStats, by any session
  (∀ (s : State) (m : VcpMsg) (b : Bank) (o : Byte), s.takes 0x0801 m → decodeTarget m.target = some (.bank b) → s.domains.get (quarterDom (quarterOf b)) = .on → m.payload = [o] → o = 0 ∨ o = 2 → exec (.pbmGetStats m) s = .next ((s.taken 0x0801 m).answers s 0x0801 m stOK (s.bankStats b (o == 2)))) ∧
  -- pbmGetStats, with CLEAR, by a steward
  (∀ (s : State) (m : VcpMsg) (b : Bank) (o : Byte), s.reaches 0x0801 m (.bank b) → s.isSteward m.session = true → m.payload = [o] → o = 1 ∨ o = 3 → exec (.pbmGetStats m) s = .next (((s.taken 0x0801 m).clearStats b).answers s 0x0801 m stOK (s.bankStats b (o == 3)))) ∧
  -- pbmSetScrub
  (∀ (s : State) (m : VcpMsg), s.reaches 0x0802 m .device → s.isSteward m.session = true → scrubArgsOk m.payload = true → exec (.pbmSetScrub m) s = .next (({ s.taken 0x0802 m with pbm := applyScrub m.payload s.pbm } : State).answers s 0x0802 m stOK [])) ∧
  -- pbmRetire, a bank closes
  (∀ (s : State) (m : VcpMsg) (b : Bank), s.reaches 0x0803 m (.bank b) → s.isSteward m.session = true → m.payload = [1, 0, 0, 0] → exec (.pbmRetire m) s = .next (((s.taken 0x0803 m).updBank b (fun x => { x with closed := true })).answers s 0x0803 m stOK [0xFF, BitVec.ofNat 8 (s.banks.get b).sparesUsed])) ∧
  -- pbmRetire, a row retires to a spare
  (∀ (s : State) (m : VcpMsg) (b : Bank) (lo hi : Byte) (spare : Nat), s.reaches 0x0803 m (.bank b) → s.isSteward m.session = true → m.payload = [0, 0, lo, hi] → get16 m.payload 2 < 768 → (s.banks.get b).freeSpare = some spare → ∃ t, (s.taken 0x0803 m).retire b (get16 m.payload 2) = some (t, spare) ∧ exec (.pbmRetire m) s = .next (t.answers s 0x0803 m stOK [BitVec.ofNat 8 spare, BitVec.ofNat 8 (t.banks.get b).sparesUsed])) ∧
  -- pbmFlipmask, for one word
  (∀ (s : State) (m : VcpMsg) (b : Bank) (a0 a1 a2 a3 : Byte) (l : List Byte), s.reaches 0x0804 m (.bank b) → s.isSteward m.session = true → m.payload = [1, 0, 0, 0, a0, a1, a2, a3] ++ l → l.length = 18 → get8 m.payload 25 < 2 → get32 m.payload 4 / 65536 = b.val → get32 m.payload 4 / 64 % 1024 < 768 → flipBits m.payload ≠ 0 → exec (.pbmFlipmask m) s = .next (((s.taken 0x0804 m).updBank b (fun x => { x with flip := some { mask := flipBits m.payload, word := some (get32 m.payload 4 % 65536) } })).answers s 0x0804 m stOK []))

/-- Fault commands. FAULT_READ by a steward and, of its own partition's records, by another session; FAULT_ACK; FAULT_SET_SEVERITY of one source and kind; FAULT_INJECT of a point that waits and of one that acts at once (log 40); FAULTPIN_CONTROL. Each clause holds for a session whose command is next and which the mode, the scope and the target let through, and gives the whole next state as an equation: whatever it does not name is unchanged. -/
def Obligations.FaultCommands : Prop :=
  -- faultRead, by a steward
  (∀ (s : State) (m : VcpMsg) (sev opts n0 n1 i0 i1 i2 i3 : Byte), s.reaches 0x0901 m .device → s.isSteward m.session = true → m.payload = [sev, opts, n0, n1, i0, i1, i2, i3] → sev.toNat ≤ 4 → opts.toNat < 2 → exec (.faultRead m) s = .next (
       (let l := (s.fault.records.filter (fun r => get32 m.payload 4 ≤ r.index.toNat && sev.toNat ≤ severityCode r.severity && (opts.toNat == 0 || !r.acked))).take (if get16 m.payload 2 = 0 then 42 else min (get16 m.payload 2) 42)
        (s.taken 0x0901 m).answers s 0x0901 m stOK ([BitVec.ofNat 8 l.length, 24, 0, 0] ++ le32 ((l.getLast?.map (fun r => r.index.toNat + 1)).getD (get32 m.payload 4)) ++ l.flatMap s.recordBytes)))) ∧
  -- faultRead, by a partition's session: the records of its own partition (R414)
  (∀ (s : State) (m : VcpMsg) (sev opts n0 n1 i0 i1 i2 i3 : Byte), s.reaches 0x0901 m .device → s.isSteward m.session = false → m.payload = [sev, opts, n0, n1, i0, i1, i2, i3] → sev.toNat ≤ 4 → opts.toNat < 2 → exec (.faultRead m) s = .next (
       (let l := (s.fault.records.filter (fun r => get32 m.payload 4 ≤ r.index.toNat && sev.toNat ≤ severityCode r.severity && (opts.toNat == 0 || !r.acked) && r.partitions.getLsbD m.session.val)).take (if get16 m.payload 2 = 0 then 42 else min (get16 m.payload 2) 42)
        (s.taken 0x0901 m).answers s 0x0901 m stOK ([BitVec.ofNat 8 l.length, 24, 0, 0] ++ le32 ((l.getLast?.map (fun r => r.index.toNat + 1)).getD (get32 m.payload 4)) ++ l.flatMap s.recordBytes)))) ∧
  -- faultAck
  (∀ (s : State) (m : VcpMsg) (i0 i1 i2 i3 u : Byte), s.reaches 0x0902 m .device → m.payload = [i0, i1, i2, i3, u] → u.toNat < 2 → exec (.faultAck m) s = .next (
       (let hit := fun (r : FaultRec) => !r.acked && (r.index.toNat == get32 m.payload 0 || (u.toNat == 1 && r.index.toNat ≤ get32 m.payload 0)) && (s.taken 0x0902 m).mayAck m.session r
        (((s.taken 0x0902 m).updFault (fun x => { x with records := x.records.map (fun r => if hit r then { r with acked := true } else r) })).overflow).answers s 0x0902 m stOK (le32 (s.fault.records.countP hit))))) ∧
  -- faultSetSeverity, of one source and kind
  (∀ (s : State) (m : VcpMsg) (s0 s1 k v : Byte) (r : FaultRow) (x : Severity), s.reaches 0x0903 m .device → s.isSteward m.session = true → m.payload = [s0, s1, k, v] → get16 m.payload 0 < 4096 → k.toNat ≠ 0xFF → faultRow (get16 m.payload 0) k.toNat = some r → r.locked = false → severityOfCode v.toNat = some x → exec (.faultSetSeverity m) s = .next (((s.taken 0x0903 m).putSeverity (BitVec.ofNat 12 (get16 m.payload 0)) (BitVec.ofNat 8 r.kind) x).answers s 0x0903 m stOK [])) ∧
  -- faultInject, a point that waits for its event
  (∀ (s : State) (m : VcpMsg) (s0 s1 k v0 v1 v2 v3 : Byte), s.reaches 0x0904 m .device → s.isSteward m.session = true → m.payload = [s0, s1, k, 0, v0, v1, v2, v3] → get16 m.payload 0 < 4096 → (faultRow (get16 m.payload 0) k.toNat).isSome = true → injectionParamOk (get16 m.payload 0) k.toNat (get32 m.payload 4) = true → s.armed (get16 m.payload 0) k.toNat = none → s.injectionMode (get16 m.payload 0) k.toNat = true → (s.taken 0x0904 m).actNow (get16 m.payload 0) k.toNat (get32 m.payload 4) = none → injectionTimed (get16 m.payload 0) = false → exec (.faultInject m) s = .next (((s.taken 0x0904 m).updFault (fun x => { x with injections := x.injections ++ [{ source := BitVec.ofNat 12 (get16 m.payload 0), kind := BitVec.ofNat 8 k.toNat, parameter := BitVec.ofNat 32 (get32 m.payload 4), timed := false }] })).answers s 0x0904 m stOK [])) ∧
  -- faultInject, a point that acts as soon as it is armed
  (∀ (s : State) (m : VcpMsg) (s0 s1 k v0 v1 v2 v3 : Byte) (t : State), s.reaches 0x0904 m .device → s.isSteward m.session = true → m.payload = [s0, s1, k, 0, v0, v1, v2, v3] → get16 m.payload 0 < 4096 → (faultRow (get16 m.payload 0) k.toNat).isSome = true → injectionParamOk (get16 m.payload 0) k.toNat (get32 m.payload 4) = true → s.armed (get16 m.payload 0) k.toNat = none → s.injectionMode (get16 m.payload 0) k.toNat = true → (s.taken 0x0904 m).actNow (get16 m.payload 0) k.toNat (get32 m.payload 4) = some t → exec (.faultInject m) s = .next (t.answers s 0x0904 m stOK [])) ∧
  -- faultpinControl
  (∀ (s : State) (m : VcpMsg), s.reaches 0x0905 m .device → s.isSteward m.session = true → faultPinOk m.payload = true → exec (.faultpinControl m) s = .next (
       (let t := (s.taken 0x0905 m).updFault (fun x => let y := applyFaultPin m.payload x; { y with gap := y.gap || (x.pinHold && !y.pinHold && !y.pulsing) })
        t.answers s 0x0905 m stOK ([BitVec.ofNat 8 (bnat t.fault.pinHold), BitVec.ofNat 8 (severityCode t.fault.threshold)] ++ le16 t.fault.minWidth))))

/-- Firmware commands, activation and trial. FW_GET, FW_STAGE_BEGIN, FW_STAGE_DATA, FW_STAGE_COMMIT, FW_ACTIVATE from Noon or Evening, the end of the activation pause and a failed load, a trial that passes (the floor rises, keys are revoked) and one that fails (from Noon or Evening through Dusk, else the pause alone, the model's reading of log 49). Each clause holds for a session whose command is next and which the mode, the scope and the target let through, and gives the whole next state as an equation: whatever it does not name is unchanged. -/
def Obligations.FirmwareCommands : Prop :=
  -- fwGet
  (∀ (s : State) (m : VcpMsg), s.reaches 0x0A01 m .device → m.payload = [] → exec (.fwGet m) s = .next ((s.taken 0x0A01 m).answers s 0x0A01 m stOK s.fwStatus)) ∧
  -- fwStageBegin
  (∀ (s : State) (m : VcpMsg) (k t0 t1 t2 t3 : Byte), s.reaches 0x0A02 m .device → s.isSteward m.session = true → m.payload = [k, 0, 0, 0, t0, t1, t2, t3] → k = 1 ∨ k = 2 → s.stagingMode = true → 1 ≤ get32 m.payload 4 ∧ get32 m.payload 4 ≤ (if k = 1 then 8388608 else 262144) → s.fw.staging = none → s.fw.trial = none → s.fw.activation = none → exec (.fwStageBegin m) s = .next (((s.taken 0x0A02 m).updFw (fun x => { x with areas := x.areas.put (s.fw.stagingArea (k == 1)) { st := .staging, bytes := [] }, staging := some { session := m.session, area := s.fw.stagingArea (k == 1), isImage := k == 1, total := get32 m.payload 4, bytes := [] } })).answers s 0x0A02 m stOK [BitVec.ofNat 8 (s.fw.stagingArea (k == 1)).val])) ∧
  -- fwStageData
  (∀ (s : State) (m : VcpMsg) (g : Staging) (o0 o1 o2 o3 : Byte) (d : List Byte), s.reaches 0x0A03 m .device → s.isSteward m.session = true → s.stagingMode = true → s.fw.staging = some g → g.session = m.session → m.payload = [o0, o1, o2, o3, 0, 0, 0, 0] ++ d → 1 ≤ d.length ∧ d.length ≤ 1016 → get32 m.payload 0 = g.bytes.length → g.bytes.length + d.length ≤ g.total → exec (.fwStageData m) s = .next (((s.taken 0x0A03 m).updFw (fun x => { x with areas := x.areas.put g.area { st := .staging, bytes := g.bytes ++ d }, staging := some { g with bytes := g.bytes ++ d } })).answers s 0x0A03 m stOK (le32 (g.bytes ++ d).length))) ∧
  -- fwStageCommit
  (∀ (s : State) (m : VcpMsg) (g : Staging), s.reaches 0x0A04 m .device → s.isSteward m.session = true → s.stagingMode = true → s.fw.staging = some g → g.session = m.session → m.payload = [] → exec (.fwStageCommit m) s = .next (
       (let r := s.commitResult g
        let answer : List Byte := [BitVec.ofNat 8 r, 0, 0, 0] ++ le32 (versionOf (slice g.bytes 0 512)) ++ le32 (secverOf (slice g.bytes 0 512))
        let t := (s.taken 0x0A04 m).updFw (fun x => { x with staging := none })
        if r = 0 then (t.updFw (fun x => (x.writeDir (commitDirectory g x.bootFailed)).mark g.area .valid)).answers s 0x0A04 m stOK answer
        else (t.updFw (fun x => x.mark g.area .invalid)).answers s 0x0A04 m stBadArg answer))) ∧
  -- fwActivate, from Noon or Evening
  (∀ (s : State) (m : VcpMsg) (i : Fin 2), s.reaches 0x0A05 m .device → s.isSteward m.session = true → m.payload = [BitVec.ofNat 8 i.val] → s.mode = .noon ∨ s.mode = .evening → s.trans = none → s.arrival = none → s.fw.staging = none → s.fw.trial = none → s.fw.activation = none → (s.fw.areas.get (slotArea i)).st = .valid → s.fw.running ≠ some i → exec (.fwActivate m) s = .next ((((((s.taken 0x0A05 m).beginWait m 0x0A05 .mode).updFw (fun x => { x with activation := some { target := i, previous := s.fw.running.getD (other2 i), session := some m.session, cseq := m.cseq, step := .dusk, rollback := false } })).startDusk { goal := .maintenance i, session := some m.session, cseq := m.cseq } false false causeActivate 0).endWith 4095 s.begin))) ∧
  -- activationPauseEnd
  (∀ (s : State) (a : Activation), s.mode ≠ .off → s.fw.activation = some a → a.step = .pause → a.rollback = false → s.fault.mgtRestarting = false → s.loadOk a = true → exec .activationPauseEnd s = .next ((((((s.begin.updFw (fun x => { (x.writeDir (fun d => { d with trial := some a.target })).mark (slotArea a.target) .trial with running := some a.target, trial := some { slot := a.target, previous := a.previous, session := a.session, cseq := a.cseq, target := deviceTarget }, activation := none })).pauseEnd.leaveMaintenance 0).sendResult a.session a.cseq 0 true).runQueue).finish s.begin))) ∧
  -- activationLoadFail
  (∀ (s : State) (a : Activation), s.mode ≠ .off → s.fw.activation = some a → a.step = .pause → a.rollback = false → exec .activationLoadFail s = .next ((s.begin.rolledBack a a.target a.previous).finish s.begin)) ∧
  -- trialPass
  (∀ (s : State) (t : Trial), s.mode ≠ .off → s.fw.trial = some t → s.fw.paused = false → exec .trialPass s = .next (((s.begin.updFw (fun x => { ((x.writeDir (fun d => { d with active := t.slot, trial := none })).mark (slotArea t.slot) .valid).revoke (slice (s.fw.area (slotArea t.slot)) 0 512) with securityFloor := max x.securityFloor (secverOf (slice (s.fw.area (slotArea t.slot)) 0 512)), trial := none })).sendResult t.session t.cseq 2 false).finish s.begin)) ∧
  -- trialFail, from Noon or Evening, the image still running
  (∀ (s : State) (t : Trial), s.mode = .noon ∨ s.mode = .evening → s.trans = none → s.arrival = none → s.fw.trial = some t → exec (.trialFail false) s = .next (((s.begin.updFw (fun x => { x with trial := none, activation := some { target := t.previous, previous := t.slot, session := t.session, cseq := t.cseq, step := .dusk, rollback := true } })).startDusk { goal := .maintenance t.previous } false true causeActivate 0).finish s.begin)) ∧
  -- trialFail, in another mode: the pause alone
  (∀ (s : State) (t : Trial) (dead : Bool), s.mode ≠ .off ∧ s.mode ≠ .noon ∧ s.mode ≠ .evening → s.fw.trial = some t → exec (.trialFail dead) s = .next ((s.begin.updFw (fun x => { x with trial := none, paused := true, activation := some { target := t.previous, previous := t.slot, session := t.session, cseq := t.cseq, step := .pause, rollback := true } })).finish s.begin))

/-- Diagnostic commands. DIAG_LOOPBACK, DIAG_PHY_TEST (a pattern starts and ends) and DIAG_EYE in Diagnostic; what the PHYs measure is free (log 10, log 75). Each clause holds for a session whose command is next and which the mode, the scope and the target let through, and gives the whole next state as an equation: whatever it does not name is unchanged. -/
def Obligations.DiagnosticCommands : Prop :=
  -- diagLoopback
  (∀ (s : State) (m : VcpMsg) (t : Target) (k l0 l1 : Byte), s.reaches 0x0B01 m t → s.isSteward m.session = true → (isPort t || isUpstream t) = true → m.payload = [k, 0, l0, l1] → k.toNat < 4 → (2 ≤ k.toNat → diagSs t = true) → exec (.diagLoopback m) s = .next ((s.taken 0x0B01 m).tick.answers s 0x0B01 m stOK ((List.range 16).map (fun i => Config.loopback s.freeCount i)))) ∧
  -- diagPhyTest, a pattern starts
  (∀ (s : State) (m : VcpMsg) (t : Target) (side pat : Byte), s.reaches 0x0B02 m t → s.isSteward m.session = true → (isPort t || isUpstream t) = true → m.payload = [side, pat] → (side = 0 ∧ pat.toNat ≤ 5) ∨ (side = 1 ∧ pat.toNat ≤ 16 ∧ diagSs t = true) → pat ≠ 0 → exec (.diagPhyTest m) s = .next ((({ s.taken 0x0B02 m with diag := s.diag.filter (fun x => !(x.target == m.target && x.side.toNat == side.toNat)) ++ [{ target := m.target, side, pattern := pat }] } : State).testOn t pat).answers s 0x0B02 m stOK [])) ∧
  -- diagPhyTest, pattern 0 ends it
  (∀ (s : State) (m : VcpMsg) (t : Target) (side : Byte), s.reaches 0x0B02 m t → s.isSteward m.session = true → (isPort t || isUpstream t) = true → m.payload = [side, 0] → side = 0 ∨ (side = 1 ∧ diagSs t = true) → exec (.diagPhyTest m) s = .next ((({ s.taken 0x0B02 m with diag := s.diag.filter (fun x => !(x.target == m.target && x.side.toNat == side.toNat)) } : State).testOn t 0).answers s 0x0B02 m stOK [])) ∧
  -- diagEye
  (∀ (s : State) (m : VcpMsg) (t : Target) (lane x y : Byte), s.reaches 0x0B03 m t → s.isSteward m.session = true → (isPort t || isUpstream t) = true → m.payload = [lane, 0, x, y] → lane.toNat < diagLanes t → exec (.diagEye m) s = .next ((s.taken 0x0B03 m).tick.answers s 0x0B03 m stOK ([32, 31, 0, 0] ++ (List.range 992).map (fun i => Config.eyePoint s.freeCount i))))

/-- The JTAG test access port. BYPASS delays TDI by one bit, IDCODE shifts out 0x1851_695B, SAMPLE/PRELOAD samples the balls and loads the cells, EXTEST drives the cells where TESTMODE is set and does nothing where it is not (log 75). Each clause gives the whole next state as an equation, so whatever it does not name is unchanged (the outside wires are cleared first, and what firmware has ready runs at the end, log 22). -/
def Obligations.TestAccessPort : Prop :=
  -- jtagBypass
  (∀ (s : State) (tdi : List Bool), exec (.jtagBypass tdi) s = .next (((({ s.begin with tap := .bypass } : State).emit (.tdo ((false :: tdi).take tdi.length)))).finish s.begin)) ∧
  -- jtagIdcode
  (∀ (s : State), exec .jtagIdcode s = .next ((({ s.begin with tap := .idcode } : State).emit (.tdo ((List.range 32).map (fun i => (0x1851695B : BitVec 32).getLsbD i)))).finish s.begin)) ∧
  -- jtagSamplePreload
  (∀ (s : State) (balls cells : BitVec 103), exec (.jtagSamplePreload balls cells) s = .next ((({ s.begin with tap := .samplePreload, scan := cells } : State).emit (.tdo ((List.range 103).map (fun i => balls.getLsbD i)))).finish s.begin)) ∧
  -- jtagExtest
  (∀ (s : State) (balls cells : BitVec 103), exec (.jtagExtest balls cells) s = .next ((if s.testmode then ({ s.begin with tap := .extest, scan := cells } : State).emits [.driven (drivenCells s.scan), .tdo (tdoBits balls), .driven (drivenCells cells)] else s.begin).finish s.begin))

/-- Attach, probe and detach of a downstream port. CONNECT_RECOGNISED, DEBOUNCE_COMPLETE, PRESENTATION_POSSIBLE, the reset of the probe and its recovery, the requests of the probe with one repeat and then the fallback, NATIVE_SS_U0_HELD, VDP_SRC_DETECTED, DISCONNECT_RECOGNISED, the end of a drain and of its window, and the end of the discharge interval (log 61). Each clause gives the whole next state as an equation, so whatever it does not name is unchanged (the outside wires are cleared first, and what firmware has ready runs at the end, log 22). -/
def Obligations.PortAttach : Prop :=
  -- connectRecognised, AUTO or LIFT: the debounce starts
  (∀ (s : State) (p : Port), s.switchedUp → (s.ports.get p).st = .idle → (s.ports.get p).dataMode = .auto ∨ (s.ports.get p).dataMode = .lift → (s.ports.get p).line = false → (s.ports.get p).vdmSrc = false → (s.ports.get p).ssLink ≠ .u0 ∧ (s.ports.get p).ssLink ≠ .training → (s.ports.get p).noDebounce = false → (s.ports.get p).carry = none → s.possible p = true → exec (.connectRecognised ⟨p, false⟩) s = .next ((s.begin.updPort p (fun x => { x with line := true, st := .debounce })).finish s.begin)) ∧
  -- disconnectRecognised, a shown device: the drain with reason UNPLUG starts
  (∀ (s : State) (p : Port), s.switchedUp → (s.ports.get p).line = true → (s.ports.get p).st ∈ [.waitReset, .enabled, .suspended, .l1] → exec (.disconnectRecognised p) s = .next (((s.begin.updPort p (fun x => { x with line := false, ssLink := .off, ssHeld := false, bcMode := x.bcNext.getD x.bcMode, bcNext := none, needSs := false, needU2 := false, noDebounce := false, carry := none, pendError := false })).beginDrain p .unplug).finish s.begin)) ∧
  -- presentationPossible, a device that waited for its side: the reset of the probe starts at once
  (∀ (s : State) (p : Port), s.switchedUp → (s.ports.get p).st = .pending → s.possible p = true → (s.ports.get p).ssLink ≠ .u0 → (s.ports.get p).dataMode ≠ .pass → (s.ports.get p).carry = none → (s.ports.get p).noDebounce = true → exec (.presentationPossible p) s = .next (((({ s.begin with lift := s.lift.put p (some {}) } : State).updPort p (fun x => { x with st := .probe, noDebounce := false, needSs := false, needU2 := false })).emit (.bus p .se0)).finish s.begin)) ∧
  -- debounceComplete
  (∀ (s : State) (p : Port), s.switchedUp → (s.ports.get p).st = .debounce → exec (.debounceComplete p) s = .next (((({ s.begin with lift := s.lift.put p (some {}) } : State).updPort p (fun x => { x with st := .probe, noDebounce := false, needSs := false, needU2 := false, carry := none })).emit (.bus p .se0)).finish s.begin)) ∧
  -- deviceResetSe0End, a High-Speed device: the probe goes on
  (∀ (s : State) (p : Port), s.switchedUp → (s.ports.get p).st = .probe → exec (.deviceResetSe0End p .high) s = .next ((s.begin.updLift p (fun x => { x with sof := true })).finish s.begin)) ∧
  -- deviceResetSe0End, a Full- or Low-Speed device: it is not lifted
  (∀ (s : State) (p : Port) (found : FoundSpeed), s.switchedUp → (s.ports.get p).st = .probe → found ≠ .high → exec (.deviceResetSe0End p found) s = .next (((s.begin.endLift p).updPort p (fun x => { x with qualified := false, ssFallback := false, resumeK := false, path := (pathOf found).1, speed := (pathOf found).2 })).finish s.begin)) ∧
  -- resetRecoveryEnd: the first request of the probe
  (∀ (s : State) (p : Port) (l : LiftPort), s.switchedUp → (s.ports.get p).st = .probe → s.lift.get p = some l → l.probe = none → s.dieUp p = true → exec (.resetRecoveryEnd p) s = .next ((({ s.begin with lift := s.lift.put p (some { l with probe := some {} }) } : State).emit (.dsSetup p 0 { bmRequestType := 0x80, bRequest := 6, wValue := 0x0100, wIndex := 0, wLength := 64 })).finish s.begin)) ∧
  -- probeRequestComplete: the address is set, the device descriptor is read again
  (∀ (s : State) (p : Port) (b : Probe) (bytes : List Byte), s.switchedUp → s.probing p = some b → b.step = .p2 → b.waitLink = false → exec (.probeRequestComplete p (.data bytes)) s = .next (((s.begin.updProbe p (fun x => { x with got := b.got, step := .p3, asked := 18, retried := false })).issueProbe p).finish s.begin)) ∧
  -- probeRequestTimeout, the first time: the request is issued once more
  (∀ (s : State) (p : Port) (b : Probe), s.switchedUp → s.probing p = some b → b.retried = false → exec (.probeRequestTimeout p) s = .next (((s.begin.updProbe p (fun b => { b with retried := true })).issueProbe p).finish s.begin)) ∧
  -- probeRequestTimeout, the second time, in AUTO: the device falls back with reason 2
  (∀ (s : State) (p : Port) (b : Probe), s.switchedUp → s.probing p = some b → b.retried = true → b.refetch = false → (s.ports.get p).dataMode ≠ .lift ∨ b.second = true → exec (.probeRequestTimeout p) s = .next (((s.begin.noteDevice p b.got true).fallBack p 2 b.detail).finish s.begin)) ∧
  -- probeTimeout
  (∀ (s : State) (p : Port) (b : Probe), s.switchedUp → s.probing p = some b → exec (.probeTimeout p) s = .next ((s.begin.probeStopped p (.failed b.detail)).finish s.begin)) ∧
  -- nativeSsU0Held: the device is presented natively
  (∀ (s : State) (p : Port) (gen2 : Bool), s.switchedUp → ssCapable p = true → (s.ports.get p).st = .idle → dataModeAttaches (s.ports.get p).dataMode = true → (s.ports.get p).line = false → s.possible p = true → s.ssActive (s.partOf.get p) = true → exec (.nativeSsU0Held p gen2) s = .next (((s.begin.updPort p (fun x => { x with ssLink := .u0, ssGen2 := gen2, ssHeld := true })).showNative p).finish s.begin)) ∧
  -- vdpSrcDetected, before a connect in CDP: VDM_SRC is driven
  (∀ (s : State) (p : Port), s.switchedUp → (s.ports.get p).st = .idle → dataModeAttaches (s.ports.get p).dataMode = true → (s.ports.get p).line = false → (s.ports.get p).bcMode = .cdp → (s.ports.get p).vdmSrc = false → exec (.vdpSrcDetected p true) s = .next (((s.begin.updPort p (fun x => { x with vdmSrc := true })).emit (.bus p .vdmSrcOn)).finish s.begin)) ∧
  -- vdpSrcDetected, VDP_SRC gone: VDM_SRC is removed
  (∀ (s : State) (p : Port), s.switchedUp → (s.ports.get p).vdmSrc = true → exec (.vdpSrcDetected p false) s = .next (((s.begin.updPort p (fun x => { x with vdmSrc := false })).emit (.bus p .vdmSrcOff)).finish s.begin)) ∧
  -- drainComplete
  (∀ (s : State) (p : Port), s.switchedUp → (s.ports.get p).st = .draining → s.deliverable p = false → exec (.drainComplete p) s = .next ((((s.begin.endPresentation p).afterDrain p (s.ports.get p).known).checkWithdraw (s.partOf.get p)).finish s.begin)) ∧
  -- drainWindowExpiry
  (∀ (s : State) (p : Port), s.switchedUp → (s.ports.get p).st = .draining → exec (.drainWindowExpiry p) s = .next ((((s.begin.endPresentation p).afterDrain p (s.ports.get p).known).checkWithdraw (s.partOf.get p)).finish s.begin)) ∧
  -- dischargeIntervalEnd: the discharge is over, then the disable sequence is
  (∀ (s : State) (p : Port), s.mode ≠ .off → (s.vbus.get p).discharging = true → exec (.dischargeIntervalEnd p) s = .next (((s.begin.dischargeOver p).disableComplete p).finish s.begin))

/-- Port resets by a host. HOST_PORT_RESET resets a passthrough, translated, lifted or native position, HOST_RESET_SE0_END enables the port at the speed found, HUB_TOP_PORT_RESET resets the Management Function or a leaf hub with its positions. Each clause gives the whole next state as an equation, so whatever it does not name is unchanged (the outside wires are cleared first, and what firmware has ready runs at the end, log 22). -/
def Obligations.HostPortResets : Prop :=
  -- hostPortReset, a position that is not lifted on the USB 2.0 side
  (∀ (s : State) (k : Part) (i : Pos) (p : Port), s.switchedUp → s.hubReached k .usb2 (leafOf i) = true → s.portAtPos k i = some p → (s.ports.get p).shown = true → sideOf (s.ports.get p).path = .usb2 → (s.ports.get p).st ∈ [.waitReset, .enabled, .suspended, .l1] → exec (.hostPortReset k i .usb2) s = .next ((((s.begin.updLeaf k .usb2 i (fun v => { v with enabled := false, speedKnown := false, bhReset := false })).updPort p (fun x => { x with st := .resetting, tt := [], resumeK := false })).emit (.bus p .se0)).finish s.begin)) ∧
  -- hostPortReset, a lifted position: the presentation returns to Default, SE0 starts
  (∀ (s : State) (k : Part) (i : Pos) (r : HubReset) (p : Port), s.switchedUp → r ≠ .usb2 → s.hubReached k .superSpeed (leafOf i) = true → s.portAtPos k i = some p → (s.ports.get p).shown = true → (s.ports.get p).path = .lifted → (s.ports.get p).st ≠ .draining ∧ (s.ports.get p).st ≠ .quenched → exec (.hostPortReset k i r) s = .next (((s.begin.updLeaf k .superSpeed i (fun v => { v with bhReset := r == .bh })).startLiftReset p true).finish s.begin)) ∧
  -- hostPortReset, a native position: a hot reset of its link, a warm reset for BH_PORT_RESET
  (∀ (s : State) (k : Part) (i : Pos) (r : HubReset) (p : Port), s.switchedUp → r ≠ .usb2 → s.hubReached k .superSpeed (leafOf i) = true → s.portAtPos k i = some p → (s.ports.get p).shown = true → (s.ports.get p).path = .native → (s.ports.get p).st = .enabled → exec (.hostPortReset k i r) s = .next ((((s.begin.updLeaf k .superSpeed i (fun v => { v with enabled := false, speedKnown := false, bhReset := r == .bh })).updPort p (fun x => { x with st := .resetting, tt := [], resumeK := false })).emit (.bus p (if r = .bh then .warmReset else .hotReset))).finish s.begin)) ∧
  -- hostResetSe0End: the port is enabled at the speed found
  (∀ (s : State) (p : Port) (found : FoundSpeed), s.switchedUp → (s.ports.get p).st = .resetting → (s.ports.get p).ownReset = false → s.lift.get p = none → (s.ports.get p).path ≠ .extHub ∧ (s.ports.get p).path ≠ .native → (s.ports.get p).quenchedFrom = none → exec (.hostResetSe0End p found) s = .next (((s.begin.updLeaf (s.partOf.get p) .usb2 (s.posOf.get p) (fun v => { v with enabled := true, suspended := false, cReset := true, cBhReset := v.cBhReset || v.bhReset, bhReset := false, speedKnown := true })).updPort p (fun x => { x with st := .enabled, path := (pathOf found).1, speed := (pathOf found).2 })).finish s.begin)) ∧
  -- hubTopPortReset, the port of the Management Function
  (∀ (s : State) (k : Part) (r : HubReset), s.switchedUp → s.hubHeard k r.side = true → ((s.treeOf k r.side).top.get 8).connected = true ∧ ((s.treeOf k r.side).top.get 8).powered = true → exec (.hubTopPortReset k r 8) s = .next (((s.begin.updTop k r.side 8 (fun v => { v with enabled := true, suspended := false, cReset := true, cBhReset := v.cBhReset || decide (r = .bh), speedKnown := true, link := .u0 })).updMf k (fun m => { side := m.side })).finish s.begin)) ∧
  -- hubTopPortReset, a leaf hub's port: that hub and its positions are as under a reset above them
  (∀ (s : State) (k : Part) (r : HubReset) (n : Fin 9) (h : HubIx), s.switchedUp → s.hubHeard k r.side = true → ((s.treeOf k r.side).top.get n).connected = true ∧ ((s.treeOf k r.side).top.get n).powered = true → n.val < 8 → h.val = n.val + 1 → exec (.hubTopPortReset k r n) s = .next ((((s.begin.updTop k r.side n (fun v => { v with enabled := true, suspended := false, cReset := true, cBhReset := v.cBhReset || decide (r = .bh), speedKnown := true, link := .u0 })).updTree k r.side (fun t => { t with hubs := t.hubs.put h {}, leaf := Tab.of (fun i => if leafOf i = h then freshPort (((s.treeOf k r.side).leaf.get i).connected) else t.leaf.get i) })).resetPositions k r.side (fun i => leafOf i == h)).finish s.begin))

/-- Requests to the virtual hubs, translators and packets. Port power of both sides, indicator, suspend and resume, CLEAR_TT_BUFFER, RESET_TT, GET_TT_STATE and STOP_TT, standard requests, start-splits within and beyond the translator's room, a complete-split before its transaction has ended, passthrough transactions and native packets that the packet buffer returns whole (log 54). Each clause gives the whole next state as an equation, so whatever it does not name is unchanged (the outside wires are cleared first, and what firmware has ready runs at the end, log 22). -/
def Obligations.HubRequests : Prop :=
  -- hubClearPortPower and hubSetPortPower, USB 2.0: accepted without effect
  (∀ (s : State) (k : Part) (q : HubPort), s.switchedUp → s.hubReached k .usb2 (hubOf q) = true → exec (.hubClearPortPower k .usb2 q) s = .next ((s.begin.emit (.ctlDone k)).finish s.begin) ∧ exec (.hubSetPortPower k .usb2 q) s = .next ((s.begin.emit (.ctlDone k)).finish s.begin)) ∧
  -- hubClearPortPower, SuperSpeed: the virtual port is Powered-off
  (∀ (s : State) (k : Part) (i : Pos), s.switchedUp → s.hubReached k .superSpeed (hubOf (.leaf i)) = true → s.nativeAt k (.leaf i) = none → exec (.hubClearPortPower k .superSpeed (.leaf i)) s = .next (((s.begin.updLeaf k .superSpeed i (fun v => { v with powered := false, enabled := false, link := .disabled })).emit (.ctlDone k)).finish s.begin)) ∧
  -- hubSetPortPower, SuperSpeed: the virtual port leaves Powered-off
  (∀ (s : State) (k : Part) (i : Pos), s.switchedUp → s.hubReached k .superSpeed (hubOf (.leaf i)) = true → ((s.ssTree.get k).leaf.get i).powered = false → s.nativeAt k (.leaf i) = none → exec (.hubSetPortPower k .superSpeed (.leaf i)) s = .next (((s.begin.updLeaf k .superSpeed i (fun v => { v with powered := true, cConnect := v.connected, enabled := v.connected, link := if v.connected then .u0 else .disabled })).emit (.ctlDone k)).finish s.begin)) ∧
  -- hubSetPortIndicator: Request Error
  (∀ (s : State) (k : Part) (side : Side) (q : HubPort), s.switchedUp → s.hubReached k side (hubOf q) = true → exec (.hubSetPortIndicator k side q) s = .next ((s.begin.emit (.ctlStall k)).finish s.begin)) ∧
  -- hubPortSuspend, a passthrough or translated position
  (∀ (s : State) (k : Part) (i : Pos) (p : Port), s.switchedUp → s.hubReached k .usb2 (hubOf (.leaf i)) = true → ((s.u2Tree.get k).leaf.get i).enabled = true → s.portAtPos k i = some p → (s.ports.get p).st = .enabled → (s.ports.get p).path ≠ .lifted → exec (.hubPortSuspend k (.leaf i)) s = .next (((((s.begin.emit (.ctlDone k)).updLeaf k .usb2 i (fun v => { v with suspended := true })).updPort p (fun x => { x with st := .suspended })).emit (.bus p .sofStop)).finish s.begin)) ∧
  -- hubPortResume
  (∀ (s : State) (k : Part) (i : Pos) (p : Port), s.switchedUp → s.hubReached k .usb2 (hubOf (.leaf i)) = true → s.portAtPos k i = some p → (s.ports.get p).st = .suspended → (s.ports.get p).path ≠ .lifted → (s.ports.get p).resumeK = false → exec (.hubPortResume k (.leaf i)) s = .next ((((s.begin.emit (.ctlDone k)).updPort p (fun x => { x with resumeK := true })).emit (.bus p .resumeK)).finish s.begin)) ∧
  -- clearTtBuffer
  (∀ (s : State) (k : Part) (i : Pos) (key : BitVec 16) (p : Port), s.switchedUp → s.hubReached k .usb2 (leafOf i) = true → s.portAtPos k i = some p → exec (.clearTtBuffer k i key) s = .next (((s.begin.emit (.ctlDone k)).updPort p (fun x => { x with tt := x.tt.filter (·.key != key) })).finish s.begin)) ∧
  -- resetTt
  (∀ (s : State) (k : Part) (i : Pos) (p : Port), s.switchedUp → s.hubReached k .usb2 (leafOf i) = true → s.portAtPos k i = some p → exec (.resetTt k i) s = .next (((s.begin.emit (.ctlDone k)).updPort p (fun x => { x with tt := [] })).finish s.begin)) ∧
  -- getTtState and stopTt: Request Error
  (∀ (s : State) (k : Part) (i : Pos), s.switchedUp → s.hubReached k .usb2 (leafOf i) = true → exec (.getTtState k i) s = .next ((s.begin.emit (.ctlStall k)).finish s.begin) ∧ exec (.stopTt k i) s = .next ((s.begin.emit (.ctlStall k)).finish s.begin)) ∧
  -- hubStandardRequest, SET_ADDRESS
  (∀ (s : State) (k : Part) (side : Side) (h : HubIx) (r : Setup) (a : Bool), s.switchedUp → s.hubReached k side h = true → r.bmRequestType = 0x00 ∧ r.bRequest = 5 → exec (.hubStandardRequest k side h ⟨r, a⟩) s = .next (((s.begin.updTree k side (fun t => { t with hubs := t.hubs.upd h (fun u => { u with address := BitVec.ofNat 7 r.wValue.toNat }) })).emit (.ctlDone k)).finish s.begin)) ∧
  -- hubStandardRequest, what no rule gives an answer: Request Error
  (∀ (s : State) (k : Part) (side : Side) (h : HubIx) (r : Setup) (a : Bool), s.switchedUp → s.hubReached k side h = true → r.bmRequestType.toNat / 32 % 4 = 2 ∨ r.bmRequestType.toNat / 32 % 4 = 3 → exec (.hubStandardRequest k side h ⟨r, a⟩) s = .next ((s.begin.emit (.ctlStall k)).finish s.begin)) ∧
  -- ttSplitTransaction, a start-split that the translator has room for
  (∀ (s : State) (k : Part) (i : Pos) (p : Port) (key : BitVec 16) (periodic : Bool) (bytes : List Byte), s.switchedUp → s.portAtPos k i = some p → (s.ports.get p).path = .translated → (s.ports.get p).st = .enabled → ttRoom (s.ports.get p).tt periodic bytes.length = true → exec (.ttSplitTransaction k i (.start key periodic bytes)) s = .next (let t := s.begin.updPort p (fun x => { x with tt := x.tt ++ [{ key, periodic, bytes, check := ttChecks bytes }] })
         (if periodic then t else t.ttIssue p { key, periodic, bytes, check := ttChecks bytes }).finish s.begin)) ∧
  -- ttSplitTransaction, a start-split beyond the translator's room
  (∀ (s : State) (k : Part) (i : Pos) (p : Port) (key : BitVec 16) (periodic : Bool) (bytes : List Byte), s.switchedUp → s.portAtPos k i = some p → (s.ports.get p).path = .translated → (s.ports.get p).st = .enabled → ttRoom (s.ports.get p).tt periodic bytes.length = false → exec (.ttSplitTransaction k i (.start key periodic bytes)) s = .next ((if periodic then s.begin else s.begin.emit (.notReady k)).finish s.begin)) ∧
  -- ttSplitTransaction, a complete-split before the transaction has ended: NYET
  (∀ (s : State) (k : Part) (i : Pos) (p : Port) (key : BitVec 16), s.switchedUp → s.portAtPos k i = some p → (s.ports.get p).path = .translated → (s.ports.get p).st = .enabled → (∀ e ∈ (s.ports.get p).tt, e.lost = false) → exec (.ttSplitTransaction k i (.complete key none)) s = .next ((s.begin.emit (.forwardUp k [0x96])).finish s.begin)) ∧
  -- passthroughTransaction
  (∀ (s : State) (k : Part) (i : Pos) (p : Port) (packet answer : List Byte) (lpmAck : Bool), s.switchedUp → s.portAtPos k i = some p → (s.ports.get p).shown = true → (s.ports.get p).path = .passthrough ∨ (s.ports.get p).path = .extHub → (s.ports.get p).st = .enabled → s.dieUp p = true → answer ≠ [] → exec (.passthroughTransaction k i packet answer lpmAck) s = .next (let t := (s.begin.emit (.forwardDown p packet)).emit (.forwardUp k answer)
         (if lpmAck = true ∧ (s.ports.get p).path = .passthrough then t.updPort p (fun x => { x with st := .l1 }) else t).finish s.begin)) ∧
  -- nativeSsPacketReceived, a packet that the packet buffer returns whole
  (∀ (s : State) (p : Port) (d : Bool) (bytes l : List Byte), s.switchedUp → (s.ports.get p).path = .native → (s.ports.get p).st = .enabled → s.linkOf p = .u0 → ((s.begin.useLink p).passBuffer (.native p d) bytes).2 = some l → exec (.nativeSsPacketReceived p d bytes) s = .next ((((s.begin.useLink p).passBuffer (.native p d) bytes).1.emit (if d then .forwardUp (s.partOf.get p) l else .forwardDown p l)).finish s.begin))

/-- Suspend, resume and remote wake of downstream ports. LIFT_SUSPEND_ORDER and LIFT_RESUME_ORDER, the end of resume K, REMOTE_WAKE_K_RECOGNISED, U3_EXIT_HANDSHAKE_COMPLETE, HOST_U3_EXIT_COLLISION, UNARMED_WAKE_RESUSPEND, L1_IDLE_EXPIRY, L1_EXIT_REQUEST and PORT_BABBLE, with the counters they move. Each clause gives the whole next state as an equation, so whatever it does not name is unchanged (the outside wires are cleared first, and what firmware has ready runs at the end, log 22). -/
def Obligations.SuspendAndResume : Prop :=
  -- liftSuspendOrder, wake armed: SET_FEATURE(DEVICE_REMOTE_WAKEUP), then the bus is suspended
  (∀ (s : State) (p : Port) (x : LiftPort), s.switchedUp → s.lift.get p = some x → x.presented = true ∧ x.busSuspended = false → s.linkOf p = .u3 ∨ x.allSuspended = true ∧ s.wasU3 p = false → (s.ports.get p).st = .enabled → x.conf.isSome = true ∧ bit x.attrs 5 = true ∧ x.functions.any (·.wake) = true → s.dieUp p = true → exec (.liftSuspendOrder p) s = .next (((((s.begin.emit (.dsSetup p 1 { bmRequestType := 0, bRequest := 3, wValue := 1, wIndex := 0, wLength := 0 })).updLift p (fun x => { x with dsWake := true, busSuspended := true, sof := false })).updPort p (fun y => { y with st := .suspended })).emit (.bus p .sofStop)).finish s.begin)) ∧
  -- liftSuspendOrder, wake not armed, or no configuration: the bus is suspended
  (∀ (s : State) (p : Port) (x : LiftPort), s.switchedUp → s.lift.get p = some x → x.presented = true ∧ x.busSuspended = false → s.linkOf p = .u3 ∨ x.allSuspended = true ∧ s.wasU3 p = false → (s.ports.get p).st = .enabled → x.conf.isNone = true ∨ x.functions.any (·.wake) = false ∧ x.dsWake = false → s.dieUp p = true → exec (.liftSuspendOrder p) s = .next ((((s.begin.updLift p (fun x => { x with busSuspended := true, sof := false })).updPort p (fun y => { y with st := .suspended })).emit (.bus p .sofStop)).finish s.begin)) ∧
  -- liftResumeOrder
  (∀ (s : State) (p : Port) (x : LiftPort), s.switchedUp → s.lift.get p = some x → x.busSuspended = true → s.linkOf p ≠ .u3 → s.wasU3 p = true ∨ x.allSuspended = false → (s.ports.get p).resumeK = false → exec (.liftResumeOrder p) s = .next (((s.begin.updPort p (fun y => { y with resumeK := true })).emit (.bus p .resumeK)).finish s.begin)) ∧
  -- resumeKEnd, a lifted bus: EOP, SOFs start, and the 10 ms of recovery run before the first token
  (∀ (s : State) (p : Port) (x : LiftPort), s.switchedUp → s.lift.get p = some x → (s.ports.get p).resumeK = true → (s.ports.get p).st = .suspended → exec (.resumeKEnd p) s = .next (((((s.begin.updPort p (fun y => { y with resumeK := false, st := .enabled })).emit (.bus p .lsEop)).updLift p (fun x => { x with busSuspended := false, hostExit := false, sof := true, recover := 81 })).emit (.bus p .sofStart)).finish s.begin)) ∧
  -- resumeKEnd, a passthrough or translated bus: the port reports the end of its suspend
  (∀ (s : State) (p : Port), s.switchedUp → s.lift.get p = none → (s.ports.get p).resumeK = true → (s.ports.get p).st = .suspended → exec (.resumeKEnd p) s = .next ((((s.begin.updPort p (fun y => { y with resumeK := false, st := .enabled })).emit (.bus p .lsEop)).updLeaf (s.partOf.get p) .usb2 (s.posOf.get p) (fun v => { v with suspended := false, cSuspend := v.cSuspend || v.suspended })).finish s.begin)) ∧
  -- remoteWakeKRecognised, wake armed and the virtual link in U3: K is taken over, UPk's U3 exit starts
  (∀ (s : State) (p : Port) (delta : BitVec 16) (x : LiftPort), s.switchedUp → s.daytime → s.lift.get p = some x → x.presented = true ∧ x.busSuspended = true ∧ x.dsWake = true ∧ x.hostExit = false → (s.ports.get p).st ≠ .draining → (s.ports.get p).resumeK = false → s.linkOf p = .u3 → (s.ups.get (s.partOf.get p)).link = .u3 → exec (.remoteWakeKRecognised p delta) s = .next ((((((((s.begin.count p 0 (fun c => { c with wakes := up1 c.wakes })).updPort p (fun y => { y with resumeK := true })).emit (.bus p .resumeK)).updLift p (fun y => { y with wake := some y.wakers })).setLink p .recovery).updUp (s.partOf.get p) (fun u => { u with ownExit := true })).emit (.up (s.partOf.get p) .u3Exit)).finish s.begin)) ∧
  -- remoteWakeKRecognised, a host's exit from U3 began before t0: K is taken over, LIFT_WAKE_COLLISION with ORDER 1 is issued
  (∀ (s : State) (p : Port) (delta : BitVec 16) (x : LiftPort), s.switchedUp → s.daytime → s.lift.get p = some x → x.presented = true ∧ x.busSuspended = true ∧ x.dsWake = true ∧ x.hostExit = true → (s.ports.get p).st ≠ .draining → (s.ports.get p).resumeK = false → s.linkOf p = .u3 → exec (.remoteWakeKRecognised p delta) s = .next ((((((s.begin.count p 0 (fun c => { c with wakes := up1 c.wakes })).updPort p (fun y => { y with resumeK := true })).emit (.bus p .resumeK)).count p 0 (fun k => { k with wakeCollisions := up1 k.wakeCollisions })).portEvent p 0x8403 ([1, 0] ++ le16 delta.toNat ++ le32 (wakeMap x.wakers))).finish s.begin)) ∧
  -- remoteWakeKRecognised, a wake that is not armed: K is taken over and the wake is counted, nothing more
  (∀ (s : State) (p : Port) (delta : BitVec 16) (x : LiftPort), s.switchedUp → s.daytime → s.lift.get p = some x → x.presented = true ∧ x.busSuspended = true ∧ x.dsWake = false → (s.ports.get p).st ≠ .draining → (s.ports.get p).resumeK = false → exec (.remoteWakeKRecognised p delta) s = .next ((((s.begin.count p 0 (fun c => { c with wakes := up1 c.wakes })).updPort p (fun y => { y with resumeK := true })).emit (.bus p .resumeK)).finish s.begin)) ∧
  -- u3ExitHandshakeComplete: the virtual link is in U0, Function Wake goes out for each function that waits for it
  (∀ (s : State) (p : Port) (x : LiftPort) (l : List Nat), s.switchedUp → s.daytime → s.lift.get p = some x → x.wake = some l → (s.ports.get p).st ≠ .quenched → exec (.u3ExitHandshakeComplete p) s = .next ((((((s.begin.setLink p .u0).updUp (s.partOf.get p) (fun u => if u.link = .u3 then { u with link := .u0, ownExit := false, counters := { u.counters with linkRecoveries := satAdd 32 u.counters.linkRecoveries 1 } } else u)).updPart (s.partOf.get p) (fun y => if y.st = .suspended then { y with st := .connected } else y)).updLift p (fun y => { y with wake := none, woken := x.wakers, notify := 20000 })).emits (x.wakers.map (fun i => .functionWake p i))).finish s.begin)) ∧
  -- hostU3ExitCollision: the wake is cancelled, counted, and reported with LIFT_WAKE_COLLISION
  (∀ (s : State) (p : Port) (delta : BitVec 16) (x : LiftPort) (l : List Nat), s.switchedUp → s.lift.get p = some x → x.wake = some l → exec (.hostU3ExitCollision p delta) s = .next (((((s.begin.updLift p (fun y => { y with wake := none })).setLink p .u0).count p 0 (fun k => { k with wakeCollisions := up1 k.wakeCollisions })).portEvent p 0x8403 ([0, 0] ++ le16 delta.toNat ++ le32 (wakeMap l))).finish s.begin)) ∧
  -- unarmedWakeResuspend: the bus is suspended again
  (∀ (s : State) (p : Port) (x : LiftPort), s.switchedUp → s.lift.get p = some x → x.presented = true ∧ x.busSuspended = false ∧ x.dsWake = false → x.functions.any (·.wake) = false → s.linkOf p = .u3 → (s.ports.get p).st = .enabled → s.dieUp p = true → exec (.unarmedWakeResuspend p) s = .next ((((s.begin.updLift p (fun x => { x with busSuspended := true, sof := false })).updPort p (fun y => { y with st := .suspended })).emit (.bus p .sofStop)).finish s.begin)) ∧
  -- l1IdleExpiry, R90's conditions hold
  (∀ (s : State) (p : Port) (x : LiftPort), s.switchedUp → s.lift.get p = some x → s.busMoves p = true → (s.ports.get p).l1Enable = true → bit x.lpmAttrs 1 = true → x.ctl = none → x.ctxs.all (fun c => c.kind == .bulk) = true → beslUs.getD x.besl.val 0 + 50 ≤ (s.parts.get (s.partOf.get p)).latBudget → exec (.l1IdleExpiry p) s = .next ((((s.begin.updPort p (fun y => { y with st := .l1 })).updLift p (fun x => { x with sof := false })).emit (.bus p (.lpmL1 x.besl))).finish s.begin)) ∧
  -- l1IdleExpiry, R90's conditions do not all hold: nothing changes
  (∀ (s : State) (p : Port) (x : LiftPort), s.switchedUp → s.lift.get p = some x → (s.ports.get p).l1Enable = false ∨ bit x.lpmAttrs 1 = false ∨ x.ctl.isSome = true ∨ x.ctxs.any (fun c => c.kind != .bulk) = true → exec (.l1IdleExpiry p) s = .next (s.begin.finish s.begin)) ∧
  -- l1ExitRequest
  (∀ (s : State) (p : Port), s.switchedUp → (s.ports.get p).st = .l1 → exec (.l1ExitRequest p) s = .next (((((s.begin.updPort p (fun y => { y with st := .enabled })).updLift p (fun x => { x with sof := true })).emit (.bus p .l1Exit)).busWakes p).finish s.begin)) ∧
  -- portBabble, a passthrough or translated port is disabled
  (∀ (s : State) (p : Port), s.switchedUp → (s.ports.get p).st = .enabled → (s.ports.get p).path = .passthrough ∨ (s.ports.get p).path = .translated → exec (.portBabble p) s = .next ((((s.begin.detect (0x800 + p.val) 0x61 (portStCode .enabled)).updLeaf (s.partOf.get p) .usb2 (s.posOf.get p) (fun v => { v with enabled := false, cEnable := true })).updPort p (fun x => { x with st := .waitReset, tt := [] })).finish s.begin)) ∧
  -- portBabble, a lifted bus drains into ERROR
  (∀ (s : State) (p : Port), s.switchedUp → (s.ports.get p).st = .enabled → (s.ports.get p).path = .lifted → (s.ports.get p).ownReset = false → exec (.portBabble p) s = .next ((((s.begin.detect (0x800 + p.val) 0x61 (portStCode .enabled)).updPort p (fun x => { x with pendError := true })).beginDrain p .portError).finish s.begin))

/-- Standard, class and vendor requests to a lifted position. Every request of Table 4.9: answered locally from the presented set and the tracked state, forwarded to the device, accepted without effect, or refused with STALL. Each clause gives the whole next state as an equation, so whatever it does not name is unchanged (the outside wires are cleared first, and what firmware has ready runs at the end, log 22). -/
def Obligations.StandardRequests : Prop :=
  -- stdGetStatus, the device
  (∀ (s : State) (p : Port) (x : LiftPort) (index len : BitVec 16), s.switchedUp → s.stands p x → exec (.stdGetStatus p 0 index len) s = .next (((s.called p).localData p { bmRequestType := 0x80, bRequest := 0, wValue := 0, wIndex := index, wLength := len } (le16 (bnat (bit x.attrs 6) + 4 * bnat x.u1Enable + 8 * bnat x.u2Enable))).finish s.begin)) ∧
  -- stdGetStatus, an interface
  (∀ (s : State) (p : Port) (x : LiftPort) (index len : BitVec 16), s.switchedUp → s.stands p x → exec (.stdGetStatus p 1 index len) s = .next ((if x.hasIface (index.toNat % 256) then (s.called p).localData p { bmRequestType := 0x81, bRequest := 0, wValue := 0, wIndex := index, wLength := len } (le16 (bnat (bit x.attrs 5) + 2 * bnat (x.funcOf (index.toNat % 256)).wake)) else (s.called p).emit (.ssStall p 0)).finish s.begin)) ∧
  -- stdGetStatus, an endpoint with a context
  (∀ (s : State) (p : Port) (x : LiftPort) (index len : BitVec 16) (c : EpCtx), s.switchedUp → s.stands p x → index.toNat % 128 ≠ 0 → x.ctxs.find? (·.addr == BitVec.ofNat 8 index.toNat) = some c → exec (.stdGetStatus p 2 index len) s = .next (((s.called p).localData p { bmRequestType := 0x82, bRequest := 0, wValue := 0, wIndex := index, wLength := len } (le16 (bnat (c.halted || c.poisoned)))).finish s.begin)) ∧
  -- stdClearEndpointHalt, tracked: forwarded
  (∀ (s : State) (p : Port) (x : LiftPort) (ep : Byte), s.switchedUp → s.stands p x → (x.ctxs.find? (·.addr == ep)).any (·.localClear) = false → exec (.stdClearEndpointHalt p ep) s = .next (((s.called p).forwardCtl p { bmRequestType := 0x02, bRequest := 1, wValue := 0, wIndex := ep.setWidth 16, wLength := 0 }).finish s.begin)) ∧
  -- stdClearEndpointHalt, made local by LIFT_CLEAR_POISON
  (∀ (s : State) (p : Port) (x : LiftPort) (ep : Byte), s.switchedUp → s.stands p x → (x.ctxs.find? (·.addr == ep)).any (·.localClear) = true → exec (.stdClearEndpointHalt p ep) s = .next ((((s.called p).haltClearedLocally p ep).emit (.ssStatus p)).finish s.begin)) ∧
  -- stdSetEndpointHalt, stdSetDescriptor, stdSetConfiguration, stdSetInterface, stdSynchFrame: forwarded
  (∀ (s : State) (p : Port) (x : LiftPort) (a b : Byte) (len lang : BitVec 16), s.switchedUp → s.stands p x → exec (.stdSetEndpointHalt p a) s = .next (((s.called p).forwardCtl p { bmRequestType := 0x02, bRequest := 3, wValue := 0, wIndex := a.setWidth 16, wLength := 0 }).finish s.begin) ∧ exec (.stdSetDescriptor p a b lang len) s = .next (((s.called p).forwardCtl p { bmRequestType := 0, bRequest := 7, wValue := a.setWidth 16 <<< 8 ||| b.setWidth 16, wIndex := lang, wLength := len }).finish s.begin) ∧ exec (.stdSetConfiguration p a) s = .next (((s.called p).forwardCtl p { bmRequestType := 0, bRequest := 9, wValue := a.setWidth 16, wIndex := 0, wLength := 0 }).finish s.begin) ∧ exec (.stdSetInterface p a b) s = .next (((s.called p).forwardCtl p { bmRequestType := 0x01, bRequest := 11, wValue := b.setWidth 16, wIndex := a.setWidth 16, wLength := 0 }).finish s.begin) ∧ exec (.stdSynchFrame p a) s = .next (((s.called p).forwardCtl p { bmRequestType := 0x82, bRequest := 12, wValue := 0, wIndex := a.setWidth 16, wLength := 2 }).finish s.begin)) ∧
  -- stdSetFunctionSuspend, the first interface of a function
  (∀ (s : State) (p : Port) (x : LiftPort) (i : Byte) (susp wake : Bool), s.switchedUp → s.stands p x → x.functions.any (·.first == i.toNat) = true → exec (.stdSetFunctionSuspend p i susp wake) s = .next (((((s.called p).updLift p (fun x => { x with functions := x.functions.map (fun f => if f.first = i.toNat then { f with suspended := susp, wake := wake } else f), woken := x.woken.filter (· != i.toNat) })).updLeaf (s.partOf.get p) .superSpeed (s.posOf.get p) (fun v => { v with wasU3 := false })).emit (.ssStatus p)).finish s.begin)) ∧
  -- stdU1U2Enable
  (∀ (s : State) (p : Port) (x : LiftPort) (u2 on : Bool), s.switchedUp → s.stands p x → exec (.stdU1U2Enable p u2 on) s = .next ((((s.called p).updLift p (fun x => if u2 then { x with u2Enable := on } else { x with u1Enable := on })).emit (.ssStatus p)).finish s.begin)) ∧
  -- stdSetLtmEnable and stdSetTestMode: Request Error
  (∀ (s : State) (p : Port) (x : LiftPort) (a : Byte), s.switchedUp → s.stands p x → exec (.stdSetLtmEnable p) s = .next (((s.called p).emit (.ssStall p 0)).finish s.begin) ∧ exec (.stdSetTestMode p a) s = .next (((s.called p).emit (.ssStall p 0)).finish s.begin)) ∧
  -- stdDeviceRemoteWakeup: completes without effect
  (∀ (s : State) (p : Port) (x : LiftPort) (on : Bool), s.switchedUp → s.stands p x → exec (.stdDeviceRemoteWakeup p on) s = .next (((s.called p).emit (.ssStatus p)).finish s.begin)) ∧
  -- stdSetAddress
  (∀ (s : State) (p : Port) (x : LiftPort) (a : BitVec 7), s.switchedUp → s.stands p x → exec (.stdSetAddress p a) s = .next ((((s.called p).updLift p (fun x => { x with address := a })).emit (.ssStatus p)).finish s.begin)) ∧
  -- stdGetDescriptor, the device descriptor, a configuration and the BOS as presented
  (∀ (s : State) (p : Port) (x : LiftPort) (lang len : BitVec 16) (i : Byte) (c : List Byte), s.switchedUp → s.stands p x → x.asRead.present.configs[i.toNat]? = some c → exec (.stdGetDescriptor p 1 0 lang len) s = .next (((s.called p).localData p { bmRequestType := 0x80, bRequest := 6, wValue := 0x0100, wIndex := lang, wLength := len } x.asRead.present.device).finish s.begin) ∧ exec (.stdGetDescriptor p 2 i lang len) s = .next (((s.called p).localData p { bmRequestType := 0x80, bRequest := 6, wValue := 0x0200 ||| i.setWidth 16, wIndex := lang, wLength := len } c).finish s.begin) ∧ exec (.stdGetDescriptor p 15 0 lang len) s = .next (((s.called p).localData p { bmRequestType := 0x80, bRequest := 6, wValue := 0x0F00, wIndex := lang, wLength := len } x.asRead.present.bos).finish s.begin)) ∧
  -- stdGetDescriptor, strings: forwarded
  (∀ (s : State) (p : Port) (x : LiftPort) (lang len : BitVec 16) (i : Byte), s.switchedUp → s.stands p x → exec (.stdGetDescriptor p 3 i lang len) s = .next (((s.called p).forwardCtl p { bmRequestType := 0x80, bRequest := 6, wValue := 0x0300 ||| i.setWidth 16, wIndex := lang, wLength := len }).finish s.begin)) ∧
  -- stdGetConfiguration and stdGetInterface: the tracked values
  (∀ (s : State) (p : Port) (x : LiftPort) (i : Byte), s.switchedUp → s.stands p x → x.hasIface i.toNat = true → exec (.stdGetConfiguration p) s = .next (((s.called p).localData p { bmRequestType := 0x80, bRequest := 8, wValue := 0, wIndex := 0, wLength := 1 } [BitVec.ofNat 8 x.config]).finish s.begin) ∧ exec (.stdGetInterface p i) s = .next (((s.called p).localData p { bmRequestType := 0x81, bRequest := 10, wValue := 0, wIndex := i.setWidth 16, wLength := 1 } [BitVec.ofNat 8 (x.altOf i.toNat)]).finish s.begin)) ∧
  -- stdSetSel and stdSetIsochDelay
  (∀ (s : State) (p : Port) (x : LiftPort) (l : List Byte) (v : BitVec 16), s.switchedUp → s.stands p x → l.length = 6 → exec (.stdSetSel p l) s = .next ((((s.called p).updLift p (fun x => { x with sel := l })).emit (.ssStatus p)).finish s.begin) ∧ exec (.stdSetIsochDelay p v) s = .next ((((s.called p).updLift p (fun x => { x with isochDelay := v })).emit (.ssStatus p)).finish s.begin)) ∧
  -- stdOtherRequest: Request Error
  (∀ (s : State) (p : Port) (x : LiftPort) (r : Setup), s.switchedUp → s.stands p x → r.type = 0 → 13 ≤ r.bRequest.toNat ∧ r.bRequest.toNat ≠ 48 ∧ r.bRequest.toNat ≠ 49 → exec (.stdOtherRequest p r) s = .next (((s.called p).emit (.ssStall p 0)).finish s.begin)) ∧
  -- classVendorRequest: forwarded verbatim
  (∀ (s : State) (p : Port) (x : LiftPort) (r : Setup), s.switchedUp → s.stands p x → r.type ≠ 0 → exec (.classVendorRequest p r) s = .next (((s.called p).forwardCtl p r).finish s.begin))

/-- Forwarded control transfers. Data packets of a control write (held, NRDY beyond the room), IN packets of a control read (NAK, a bus error, STALL), and the downstream status stage, which takes the request's effect, waits for the release of PORT_QUENCH, or restores the tracked state. Each clause gives the whole next state as an equation, so whatever it does not name is unchanged (the outside wires are cleared first, and what firmware has ready runs at the end, log 22). -/
def Obligations.ControlTransfers : Prop :=
  -- controlWriteDataPacket, beyond what a control write may hold: NRDY
  (∀ (s : State) (p : Port) (x : LiftPort) (t : CtlXfer) (bytes : List Byte), s.switchedUp → s.lift.get p = some x → x.ctl = some t → t.req.isRead = false ∧ t.req.wLength ≠ 0 ∧ t.ended = false → 1024 < t.moved - t.sent + bytes.length → exec (.controlWriteDataPacket p bytes) s = .next (((s.begin.updLift p (fun x => { x with nrdy0 := true })).emit (.ssNrdy p 0)).finish s.begin)) ∧
  -- controlWriteDataPacket, a 512-byte packet behind data still on its way
  (∀ (s : State) (p : Port) (x : LiftPort) (t : CtlXfer) (bytes : List Byte), s.switchedUp → s.lift.get p = some x → x.ctl = some t → t.req.isRead = false ∧ t.ended = false ∧ t.stage = .dataOut → s.hostMoves p = true → bytes.length = 512 → t.sent < t.moved ∧ t.moved - t.sent ≤ 512 → t.moved + 512 < t.req.wLength.toNat → exec (.controlWriteDataPacket p bytes) s = .next ((((((s.begin.ringWrite (.control p) bytes).count p 0 (fun k => { k with bytesUp := upBytes k.bytesUp 512, ssPackets := up1 k.ssPackets })).updCtl p (fun t' => { t' with moved := t'.moved + 512, ended := false })).emit (.ssAck p 0 1)).sendCtlOut p).finish s.begin)) ∧
  -- downstreamControlInPacket, NAK: counted; the IN token is issued again in the next micro-frame
  (∀ (s : State) (p : Port) (x : LiftPort) (t : CtlXfer), s.switchedUp → s.lift.get p = some x → x.ctl = some t → t.stage = .dataIn → t.wire = true ∧ s.busMoves p = true → exec (.downstreamControlInPacket p .nak) s = .next (((s.begin.count p 0 (fun k => { k with hsNaks := up1 k.hsNaks })).updCtl p (fun t => { t with errors := 0, wire := false, begun := true })).finish s.begin)) ∧
  -- downstreamControlInPacket, a bus error that is not the third in a row: the token is issued again
  (∀ (s : State) (p : Port) (x : LiftPort) (t : CtlXfer), s.switchedUp → s.lift.get p = some x → x.ctl = some t → t.stage = .dataIn → t.errors < 2 ∧ t.wire = true ∧ s.busMoves p = true → exec (.downstreamControlInPacket p .busError) s = .next (((s.begin.updCtl p (fun t => { t with errors := t.errors + 1, wire := false })).kickCtl p).finish s.begin)) ∧
  -- downstreamControlInPacket, STALL or a packet beyond what was asked: the transfer fails
  (∀ (s : State) (p : Port) (x : LiftPort) (t : CtlXfer), s.switchedUp → s.lift.get p = some x → x.ctl = some t → t.stage = .dataIn → t.wire = true ∧ s.busMoves p = true → exec (.downstreamControlInPacket p .stall) s = .next (((s.begin.dropCtl p).emit (.ssStall p 0)).finish s.begin)) ∧
  -- downstreamStatusComplete, success: the request takes its effect and the presented status stage follows
  (∀ (s : State) (p : Port) (x : LiftPort) (t : CtlXfer) (bytes : List Byte), s.switchedUp → s.lift.get p = some x → x.ctl = some t → t.stage = .status → t.wire = true ∧ s.busMoves p = true ∧ s.hostMoves p = true → exec (.downstreamStatusComplete p (.data bytes)) s = .next (((((s.begin.ringClear (.control p)).updLift p (fun x => { x with ctl := none })).ctlEffect p t.req).emit (.ssStatus p)).finish s.begin)) ∧
  -- downstreamStatusComplete under PORT_QUENCH: the packet on the wire completes, the presented status stage waits for the release
  (∀ (s : State) (p : Port) (x : LiftPort) (t : CtlXfer) (bytes : List Byte), s.switchedUp → s.lift.get p = some x → x.ctl = some t → t.stage = .status → t.wire = true ∧ s.wireEnds p = true → exec (.downstreamStatusComplete p (.data bytes)) s = .next ((s.begin.updCtl p (fun t => { t with stage := .done, wire := false })).finish s.begin)) ∧
  -- downstreamStatusComplete, STALL or the third bus error in a row: the presented EP0 stalls and the tracked state is as before
  (∀ (s : State) (p : Port) (x : LiftPort) (t : CtlXfer) (r : XferResult), s.switchedUp → s.lift.get p = some x → x.ctl = some t → t.stage = .status → t.wire = true ∧ s.busMoves p = true → r = .stall ∨ (r = .busError ∧ t.errors = 2) → exec (.downstreamStatusComplete p r) s = .next (((((s.begin.ringClear (.control p)).updLift p (fun x => { x with ctl := none })).updLift p (fun x => { x with ctxs := x.ctxs ++ x.stopped, stopped := [] })).emit (.ssStall p 0)).finish s.begin))

/-- Lifted data: bulk, interrupt and isochronous. MICROFRAME_BOUNDARY, HS_BULK_IN_PACKET, HOLD_WINDOW_EXPIRY, SS_ACK_TP_RECEIVED, SS_BULK_OUT_PACKET, HS_OUT_TRANSACTION_COMPLETE, HS_OUT_STALL, INTEREST_LAPSE, SS_INTERRUPT_OUT_INTERVAL and SS_ISO_OUT_PACKET: what is held, counted, acknowledged, delayed or discarded (log 59, log 58); and of the requests a host has in hand, one of the highest class of R200 is served next. Each clause gives the whole next state as an equation, so whatever it does not name is unchanged (the outside wires are cleared first, and what firmware has ready runs at the end, log 22). -/
def Obligations.BulkAndPeriodicData : Prop :=
  -- microframeBoundary: the counter of R82 advances; where nothing is lifted nothing else happens within a frame
  (∀ (s : State) (l : List Periodic), s.switchedUp → s.liftedPorts = [] → (s.microframe + 1).toNat % 8 ≠ 0 → exec (.microframeBoundary l) s = .next (({ s.begin with microframe := s.microframe + 1, ups := Tab.of (fun k => { s.ups.get k with isoSkip := false }) } : State).finish s.begin)) ∧
  -- microframeBoundary: a new frame opens the pacing afresh; every lifted bus takes its micro-frame
  (∀ (s : State) (l : List Periodic), s.switchedUp → (s.microframe + 1).toNat % 8 = 0 → exec (.microframeBoundary l) s = .next ((let u := forAll s.liftedPorts (fun s p => s.busFrame p l) { s.begin with microframe := s.microframe + 1, parts := Tab.of (fun k => { s.parts.get k with frameBytes := 0, frameUp := 0 }) }; { u with ups := Tab.of (fun k => { u.ups.get k with isoSkip := false }) }).finish s.begin)) ∧
  -- hsBulkInPacket, data: counted, the toggle advances, the packet enters its context, the next token goes out where there is room
  (∀ (s : State) (p : Port) (a : Byte) (x : LiftPort) (c : EpCtx) (bytes : List Byte), s.switchedUp → s.lift.get p = some x → x.ctxs.find? (·.addr == a) = some c → isIn a = true ∧ c.kind = .bulk → s.inTokens p c = true → exec (.hsBulkInPacket p a (.data bytes)) s = .next ((let u := ((s.begin.count p a (fun k => { k with bytesDown := upBytes k.bytesDown bytes.length, hsPackets := up1 k.hsPackets })).updCtx p a (fun c => { c with toggle := !c.toggle })).takeIn p a bytes; if (u.ctx p a).any (u.inTokens p) then u.emit (.dsIn p a) else u).finish s.begin)) ∧
  -- hsBulkInPacket, NAK within the hold window: counted
  (∀ (s : State) (p : Port) (a : Byte) (x : LiftPort) (c : EpCtx), s.switchedUp → s.lift.get p = some x → x.ctxs.find? (·.addr == a) = some c → isIn a = true ∧ c.kind = .bulk → s.inTokens p c = true → c.window ≠ 0 → exec (.hsBulkInPacket p a .nak) s = .next ((s.begin.count p a (fun k => { k with hsNaks := up1 k.hsNaks })).finish s.begin)) ∧
  -- holdWindowExpiry, a held half outside a known data phase: the NAK is counted and the half is released as a short packet
  (∀ (s : State) (p : Port) (a : Byte) (x : LiftPort) (c : EpCtx), s.switchedUp → s.lift.get p = some x → s.ctx p a = some c → isIn a = true ∧ c.kind = .bulk ∧ c.pair = .half ∧ c.mode = .hold → s.inTokens p c = true → exec (.holdWindowExpiry p a) s = .next ((((s.begin.count p a (fun k => { k with hsNaks := up1 k.hsNaks })).count p a (fun k => { k with holdReleases := up1 k.holdReleases })).pairApply p a .expiry).finish s.begin)) ∧
  -- ssAckTpReceived, nothing ready: NRDY, and the endpoint has the host's interest
  (∀ (s : State) (p : Port) (a : Byte) (n : Fin 32) (x : LiftPort) (c : EpCtx), s.switchedUp → s.lift.get p = some x → s.ctx p a = some c → x.presented = true ∧ isIn a = true → s.hostMoves p = true → c.kind ≠ .isochronous ∧ c.ready = [] ∧ c.poisoned = false ∧ c.halted = false ∧ c.stall = false → exec (.ssAckTpReceived p a ⟨n, []⟩) s = .next (((((s.begin.useLink p).updCtx p a (fun c => { c with interest := true })).updCtx p a (fun c => { c with nrdy := true })).emit (.ssNrdy p a)).finish s.begin)) ∧
  -- ssAckTpReceived, a halted endpoint: STALL
  (∀ (s : State) (p : Port) (a : Byte) (n : Fin 32) (x : LiftPort) (c : EpCtx), s.switchedUp → s.lift.get p = some x → s.ctx p a = some c → x.presented = true ∧ isIn a = true → s.hostMoves p = true → c.kind ≠ .isochronous ∧ c.ready = [] → c.poisoned = true ∨ c.halted = true ∨ c.stall = true → exec (.ssAckTpReceived p a ⟨n, []⟩) s = .next (((((s.begin.useLink p).updCtx p a (fun c => { c with interest := true })).updCtx p a (fun c => { c with stall := false, halted := true, nrdy := false })).emit (.ssStall p a)).finish s.begin)) ∧
  -- ssBulkOutPacket, no room: NRDY
  (∀ (s : State) (p : Port) (a : Byte) (bytes : List Byte) (x : LiftPort) (c : EpCtx), s.switchedUp → s.lift.get p = some x → s.ctx p a = some c → x.presented = true ∧ isIn a = false ∧ c.kind = .bulk → s.hostMoves p = true → c.poisoned = false ∧ c.halted = false ∧ c.stall = false → s.epRoom p a < 1024 → exec (.ssBulkOutPacket p a bytes) s = .next ((((s.begin.useLink p).updCtx p a (fun c => { c with nrdy := true })).emit (.ssNrdy p a)).finish s.begin)) ∧
  -- ssBulkOutPacket, room: stored, counted, acknowledged; behind other data it waits its turn
  (∀ (s : State) (p : Port) (a : Byte) (bytes : List Byte) (x : LiftPort) (c : EpCtx), s.switchedUp → s.lift.get p = some x → s.ctx p a = some c → x.presented = true ∧ isIn a = false ∧ c.kind = .bulk → s.hostMoves p = true → c.poisoned = false ∧ c.halted = false ∧ c.stall = false → 1024 ≤ s.epRoom p a → c.fresh = false ∧ c.out ≠ [] → exec (.ssBulkOutPacket p a bytes) s = .next ((let u := ((((s.begin.useLink p).ringWrite (epOwner p a) bytes).useFrame p bytes.length false).count p a (fun k => { k with bytesUp := upBytes k.bytesUp bytes.length, ssPackets := up1 k.ssPackets })); let left := u.slotsFree p a; (u.updCtx p a (fun d => { d with out := d.out ++ outPackets bytes.length, seq := d.seq + 1, fresh := bytes.length < 1024, nrdy := left == 0 })).emit (.ssAck p a left)).finish s.begin)) ∧
  -- hsOutTransactionComplete, NAK: counted, a PING comes next, at the endpoint's next turn
  (∀ (s : State) (p : Port) (a : Byte) (c : EpCtx) (e : Nat × Bool) (l : List (Nat × Bool)), s.switchedUp → a ≠ 0 ∧ isIn a = false → s.ctx p a = some c → c.out = e :: l → c.kind = .bulk ∧ c.poisoned = false → exec (.hsOutTransactionComplete p a .nak) s = .next (((s.begin.count p a (fun k => { k with hsNaks := up1 k.hsNaks })).updCtx p a (fun c => { c with pingNext := true, again := true })).finish s.begin)) ∧
  -- hsOutTransactionComplete, the data is taken: room is free, the next packet goes out
  (∀ (s : State) (p : Port) (a : Byte) (c : EpCtx) (e : Nat × Bool) (l : List (Nat × Bool)), s.switchedUp → a ≠ 0 ∧ isIn a = false → s.ctx p a = some c → c.out = e :: l → c.kind = .bulk ∧ c.poisoned = false ∧ c.pingNext = false → e.1 ≠ 0 → exec (.hsOutTransactionComplete p a .ack) s = .next ((((((s.begin.ringDrop (epOwner p a) e.1).count p a (fun k => { k with bytesDown := upBytes k.bytesDown e.1, hsPackets := up1 k.hsPackets })).updCtx p a (fun c => { c with out := l, toggle := !c.toggle, pingNext := false, again := false, offset := if e.2 then 0 else c.offset + e.1 })).erdy p a).sendOut p a).finish s.begin)) ∧
  -- hsOutStall: what is held is discarded and counted, the STALL waits for the host's next packet
  (∀ (s : State) (p : Port) (a : Byte) (c : EpCtx), s.switchedUp → a ≠ 0 ∧ isIn a = false → s.ctx p a = some c → c.poisoned = false → exec (.hsOutStall p a) s = .next ((((s.begin.discardCtx p a).updCtx p a (fun c => { c with stall := true })).erdy p a).finish s.begin)) ∧
  -- interestLapse
  (∀ (s : State) (p : Port) (a : Byte), s.switchedUp → exec (.interestLapse p a) s = .next ((s.begin.updCtx p a (fun c => { c with interest := false })).finish s.begin)) ∧
  -- ssInterruptOutInterval, room: stored whole, counted, acknowledged
  (∀ (s : State) (p : Port) (a : Byte) (bytes : List Byte) (x : LiftPort) (c : EpCtx), s.switchedUp → s.lift.get p = some x → s.ctx p a = some c → x.presented = true ∧ isIn a = false ∧ c.kind = .interrupt → s.hostMoves p = true → c.poisoned = false ∧ c.halted = false ∧ c.stall = false → bytes.length ≤ s.epRoom p a → exec (.ssInterruptOutInterval p a bytes) s = .next ((let u := ((((s.begin.useLink p).ringWrite (epOwner p a) bytes).useFrame p bytes.length false).count p a (fun k => { k with bytesUp := upBytes k.bytesUp bytes.length, ssPackets := satAdd 32 k.ssPackets (max 1 ((bytes.length + 1023) / 1024)) })).updCtx p a (fun d => { d with out := d.out ++ (intervalLens d.intervalMax bytes.length).map (fun m => (m, true)), seq := d.seq + BitVec.ofNat 5 (max 1 ((bytes.length + 1023) / 1024)) }); u.emit (.ssAck p a (min 8 (u.epRoom p a / 1024)))).finish s.begin)) ∧
  -- ssIsoOutPacket, the first of a micro-frame: stored, to go out 8 micro-frames later
  (∀ (s : State) (p : Port) (a : Byte) (bytes : List Byte) (c : EpCtx), s.switchedUp → s.ctx p a = some c → isIn a = false ∧ c.kind = .isochronous ∧ c.poisoned = false ∧ c.halted = false ∧ c.stall = false → s.hostMoves p = true → c.lastB ≠ some s.microframe.toNat → bytes.length ≤ s.epRoom p a → exec (.ssIsoOutPacket p a bytes false) s = .next (((((((s.begin.useLink p).noteOpportunity p a).ringWrite (epOwner p a) bytes).useFrame p bytes.length false).count p a (fun k => { k with bytesUp := upBytes k.bytesUp bytes.length, ssPackets := satAdd 32 k.ssPackets (max 1 ((bytes.length + 1023) / 1024)) })).isoEnter p a (some bytes.length)).finish s.begin)) ∧
  -- ssIsoOutPacket, a second in one micro-frame: a slip, counted
  (∀ (s : State) (p : Port) (a : Byte) (bytes : List Byte) (bad : Bool) (c : EpCtx), s.switchedUp → s.ctx p a = some c → isIn a = false ∧ c.kind = .isochronous ∧ c.poisoned = false ∧ c.halted = false ∧ c.stall = false → s.hostMoves p = true → c.lastB = some s.microframe.toNat → exec (.ssIsoOutPacket p a bytes bad) s = .next (((s.begin.useLink p).count p a (fun k => { k with isoSlips := up1 k.isoSlips })).finish s.begin)) ∧
  -- the order of R200: of the requests a host has in hand, one of the highest class is served next, and the others keep their order
  (∀ (s : State) (jobs l r : List UpJob) (j : UpJob), s.pickJob jobs = some (l, j, r) → jobs = l ++ j :: r ∧ ∀ i ∈ jobs, classRank (s.jobClass j) ≤ classRank (s.jobClass i))

/-- The bank controllers. MERGE_AGE_FLUSH writes a complete entry whole and an incomplete one by read-modify-write, SCRUB_WORD goes over a clean word and rewrites a correctable one, BUCKET_LEAK_INTERVAL lowers every running bucket by one and never below 0, BANK_ROW_EMPTY_MOVE and BANK_ROW_TIMEOUT_COPY move a row out of a closed bank. Each clause gives the whole next state as an equation, so whatever it does not name is unchanged (the outside wires are cleared first, and what firmware has ready runs at the end, log 22). -/
def Obligations.BankControllerRows : Prop :=
  -- mergeAgeFlush, an incomplete entry: read-modify-write, counted; a lost word becomes poison
  (∀ (s : State) (b : Bank) (word : Nat) (e : MergeEntry) (u : State) (r : WordRead), s.switchedUp → (s.banks.get b).merge.find? (·.word == word) = some e → e.mask ≠ 0xFFFF → (s.begin.updBank b (fun x => { x with merge := x.merge.filter (·.word != e.word), mergeRmw := satAdd 32 x.mergeRmw 1 })).readWord b (e.word / 64) (e.word % 64) = (u, r) → r.cls.lost = false → exec (.mergeAgeFlush b word) s = .next ((u.storeWord b (e.word / 64) (e.word % 64) (pbmEncode (mergeBytes r.data e.bytes e.mask))).finish s.begin)) ∧
  -- mergeAgeFlush, a complete entry: written whole
  (∀ (s : State) (b : Bank) (word : Nat) (e : MergeEntry), s.switchedUp → (s.banks.get b).merge.find? (·.word == word) = some e → e.mask = 0xFFFF → exec (.mergeAgeFlush b word) s = .next (((s.begin.updBank b (fun x => { x with merge := x.merge.filter (·.word != e.word) })).storeWord b (e.word / 64) (e.word % 64) (pbmEncode e.bytes)).finish s.begin)) ∧
  -- scrubWord, a clean word: the scrubber goes on
  (∀ (s : State) (b : Bank) (queued : Bool) (u : State) (r : WordRead), s.switchedUp → s.scrubRuns b = true → s.begin.readWord b ((s.banks.get b).scrubAt / 64) ((s.banks.get b).scrubAt % 64) = (u, r) → r.cls = .clean → exec (.scrubWord b queued) s = .next ((u.scrubAdvance b).finish s.begin)) ∧
  -- scrubWord, a correctable word with nothing pending: rewritten and counted
  (∀ (s : State) (b : Bank) (u : State) (r : WordRead) (i : Nat), s.switchedUp → s.scrubRuns b = true → s.begin.readWord b ((s.banks.get b).scrubAt / 64) ((s.banks.get b).scrubAt % 64) = (u, r) → r.cls = .correctable i → (s.banks.get b).merge.any (·.word == (s.banks.get b).scrubAt) = false → exec (.scrubWord b false) s = .next ((((u.updBank b (fun x => { x with scrubRewrites := satAdd 32 x.scrubRewrites 1 })).storeWord b ((s.banks.get b).scrubAt / 64) ((s.banks.get b).scrubAt % 64) (pbmEncode r.data)).scrubAdvance b).finish s.begin)) ∧
  -- bucketLeakInterval: each bucket of a bank that runs loses 1, never below 0
  (∀ (s : State), s.switchedUp → (∀ b, s.domains.get (quarterDom (quarterOf b)) ≠ .retention ∧ s.domains.get (quarterDom (quarterOf b)) ≠ .off) → exec .bucketLeakInterval s = .next (({ s.begin with banks := Tab.of (fun b => { s.banks.get b with bucket := (s.banks.get b).bucket - 1 }), ttBucket := Tab.of (fun k => s.ttBucket.get k - 1) } : State).finish s.begin)) ∧
  -- bankRowEmptyMove: a row of a closed bank that holds nothing moves without data
  (∀ (s : State) (b : Bank) (row : Nat) (r : Ring), s.switchedUp → s.rings.find? (fun r => r.rows.contains (b, row)) = some r → (s.banks.get b).closed = true → r.rowBusy (r.rows.idxOf (b, row)) = false → exec (.bankRowEmptyMove b row) s = .next ((s.begin.moveRow b row false).finish s.begin)) ∧
  -- bankRowTimeoutCopy: a row that still holds data moves with it
  (∀ (s : State) (b : Bank) (row : Nat) (r : Ring), s.switchedUp → s.rings.find? (fun r => r.rows.contains (b, row)) = some r → (s.banks.get b).closed = true → r.rowBusy (r.rows.idxOf (b, row)) = true → exec (.bankRowTimeoutCopy b row) s = .next ((s.begin.moveRow b row true).finish s.begin))

/-- Transitions of the Type-C source state machine. CC_PATTERN_CHANGE, TCC_DEBOUNCE_EXPIRY, TPD_DEBOUNCE_EXPIRY, RA_LOST, VCONN_OVERCURRENT and ERROR_RECOVERY_EXPIRY move a port between the states of Table 8.2. Each clause gives the whole next state as an equation, so whatever it does not name is unchanged (the outside wires are cleared first, and what firmware has ready runs at the end, log 22). -/
def Obligations.TypeCTransitions : Prop :=
  -- ccPatternChange: UNATTACHED to ATTACH_WAIT on an attach pattern
  (∀ (s : State) (p : Port) (c1 c2 : CcLine), s.mode ≠ .off → (s.pd.get p).tc = .unattached ∧ (s.pd.get p).settling = false → attachPattern { s.pd.get p with cc1 := c1, cc2 := c2 } = true → exec (.ccPatternChange p c1 c2) s = .next ((s.begin.updPd p (fun x => { x with cc1 := c1, cc2 := c2, tc := .attachWait, debounced := false })).finish s.begin)) ∧
  -- ccPatternChange: ATTACH_WAIT to UNATTACHED when the pattern is lost
  (∀ (s : State) (p : Port), s.mode ≠ .off → (s.pd.get p).tc = .attachWait → (s.pd.get p).cc1 ≠ .open ∨ (s.pd.get p).cc2 ≠ .open → exec (.ccPatternChange p .open .open) s = .next ((s.begin.updPd p (fun x => { x with cc1 := .open, cc2 := .open, tc := .unattached, debounced := false })).finish s.begin)) ∧
  -- tccDebounceExpiry, Rd on one line alone: ATTACHED
  (∀ (s : State) (p : Port), s.daytime → s.mode ≠ .off → (s.pd.get p).tc = .attachWait → ((s.pd.get p).cc1 = .rd) ≠ ((s.pd.get p).cc2 = .rd) → s.fw.paused = false → exec (.tccDebounceExpiry p) s = .next ((s.begin.enterAttached p).finish s.begin)) ∧
  -- tccDebounceExpiry, Ra on both lines: UNSUPPORTED_ACC
  (∀ (s : State) (p : Port), s.daytime → s.mode ≠ .off → (s.pd.get p).tc = .attachWait ∧ (s.pd.get p).cc1 = .ra ∧ (s.pd.get p).cc2 = .ra → exec (.tccDebounceExpiry p) s = .next ((s.begin.updPd p (fun x => { x with tc := .unsupportedAcc, debounced := false })).finish s.begin)) ∧
  -- tpdDebounceExpiry, Rd gone: the port detaches
  (∀ (s : State) (p : Port), s.daytime → s.mode ≠ .off → (s.pd.get p).tc = .attached → (if (s.pd.get p).orientation then (s.pd.get p).cc2 else (s.pd.get p).cc1) ≠ .rd → exec (.tpdDebounceExpiry p) s = .next ((s.begin.detachTypeC p).finish s.begin)) ∧
  -- raLost
  (∀ (s : State) (p : Port), s.mode ≠ .off → (s.pd.get p).tc = .unsupportedAcc → (s.pd.get p).cc1 = .open ∧ (s.pd.get p).cc2 ≠ .rd → exec (.raLost p) s = .next ((s.begin.updPd p (fun x => { x with tc := .unattached })).finish s.begin)) ∧
  -- vconnOvercurrent: recorded, the port is in ERROR_RECOVERY
  (∀ (s : State) (p : Port), s.mode ≠ .off → (s.pd.get p).tc = .attached ∧ (s.pd.get p).vconnOn = true → exec (.vconnOvercurrent p) s = .next (((s.begin.detect (0x400 + p.val) 0x42 0).enterRecovery p).finish s.begin)) ∧
  -- errorRecoveryExpiry: Rp is applied again once VBUS is at vSafe0V
  (∀ (s : State) (p : Port), s.mode ≠ .off → (s.pd.get p).tc = .errorRecovery → s.atVSafe0V p = true → exec (.errorRecoveryExpiry p) s = .next ((((s.begin.updPd p (fun x => { x with tc := .unattached, settling := false })).setRp p).ccEvaluate p).finish s.begin))

/-- PD message sequences. Cable discovery, Source_Capabilities and their repetition, the receiver of a port (free, overrun, a repeated MessageID), GoodCRC and the retries with the Hard Reset after them, the deadline answer, the retry after Wait, SinkTx, and the timers that end in Hard Reset or in a partner that is not PD-capable (log 64). Each clause gives the whole next state as an equation, so whatever it does not name is unchanged (the outside wires are cleared first, and what firmware has ready runs at the end, log 22). -/
def Obligations.PdSequences : Prop :=
  -- cableDiscoveryStart: Discover Identity to SOP' goes out
  (∀ (s : State) (p : Port), s.switchedUp → s.pdRuns p = true → ssCapable p = true ∧ (s.pd.get p).vconnOn = true ∧ (s.pd.get p).cableDone = false ∧ (s.pd.get p).discoverTries < 3 → (s.pd.get p).tx = none ∧ (s.pd.get p).expect = none ∧ (s.pd.get p).hr = none ∧ s.vbusGood p = true → exec (.cableDiscoveryStart p) s = .next (((s.begin.updPd p (fun x => { x with discoverTries := x.discoverTries + 1 })).pdStart p { sop := 1, bytes := dataMsg 15 [0xFF00A001#32], purpose := .discover, tries := 0 }).finish s.begin)) ∧
  -- sourceCapabilitiesSend
  (∀ (s : State) (p : Port), s.switchedUp → s.pdRuns p = true → (s.pd.get p).capsStopped = false ∧ (s.pd.get p).notPd = false ∧ (s.pd.get p).hr = none → s.vbusGood p = true → exec (.sourceCapabilitiesSend p) s = .next ((s.begin.pdStart p { sop := 0, bytes := dataMsg 1 (s.capsOf p false), purpose := .caps, tries := 0 }).finish s.begin)) ∧
  -- typecSendSourceCapExpiry: Source_Capabilities once more
  (∀ (s : State) (p : Port), s.switchedUp → s.pdRuns p = true → 0 < (s.pd.get p).capsCount ∧ (s.pd.get p).capsStopped = false ∧ hasExplicit (s.pd.get p) = false → (s.pd.get p).tx = none ∧ (s.pd.get p).expect = none ∧ s.vbusGood p = true → exec (.typecSendSourceCapExpiry p) s = .next ((s.begin.pdStart p { sop := 0, bytes := dataMsg 1 (s.capsOf p false), purpose := .caps, tries := 0 }).finish s.begin)) ∧
  -- pdSopDetected, a receiver that is free: the message starts
  (∀ (s : State) (p : Port) (sop : Fin 5) (size : Fin 300), s.switchedUp → refusesSop (s.queues.get (slotOf p)) (posInSlot p).castSucc = false → exec (.pdSopDetected p sop size) s = .next (((s.begin.tick.updQueue (slotOf p) (fun q => { q with rx := q.rx.put (posInSlot p).castSucc (some { sop := sop.val, size := size.val, time := Config.pdTime s.freeCount, bytes := [], whole := false, overrun := (s.queues.get (slotOf p)).overrun.get (posInSlot p).castSucc, hwAnswered := false, forwarded := false, raise := false, withheld := false }), overrun := q.overrun.put (posInSlot p).castSucc false, placed := q.placed && q.order.head? != some (.message (posInSlot p).castSucc), order := q.order.erase (.message (posInSlot p).castSucc) ++ [.message (posInSlot p).castSucc] })).sopPrecedence p).finish s.begin)) ∧
  -- pdSopDetected, a receiver that still holds a whole message: the SOP* is refused, the overrun noted
  (∀ (s : State) (p : Port) (sop : Fin 5) (size : Fin 300), s.switchedUp → refusesSop (s.queues.get (slotOf p)) (posInSlot p).castSucc = true → exec (.pdSopDetected p sop size) s = .next ((({ s.begin with queues := s.queues.upd (slotOf p) (fun q => { q with overrun := q.overrun.put (posInSlot p).castSucc true }) } : State).sopPrecedence p).finish s.begin)) ∧
  -- pdMessageReceived, a repeat: GoodCRC goes out, the message makes no item
  (∀ (s : State) (p : Port) (sop : Fin 5) (b : List Byte) (m : RxMsg), s.switchedUp → (s.queues.get (slotOf p)).rx.get (posInSlot p).castSucc = some m → m.whole = false ∧ m.withheld = false → (s.pd.get p).cfg.pdEnable = true ∧ (s.pd.get p).tc = .attached → s.mode ≠ .dawn → (s.pd.get p).rxId.get sop = some (pdId b) → isControl b 13 = false → exec (.pdMessageReceived p sop b) s = .next ((let u := ((s.begin.updPd p (fun x => { x with arriving := false })).emit (.goodCrc p sop (pdId b))).messageDropped (slotOf p) (posInSlot p).castSucc; if s.pdRuns p then u.pdIdle p else u).finish s.begin)) ∧
  -- pdGoodcrcReceived, for an answer: the next pending sequence starts
  (∀ (s : State) (p : Port) (o : PdOut), s.switchedUp → (s.pd.get p).tx = some o → o.purpose = .answer → exec (.pdGoodcrcReceived p) s = .next (((s.begin.updPd p (fun x => { x with txId := x.txId.upd o.sop (· + 1), tx := none })).pdIdle p).finish s.begin)) ∧
  -- pdGoodcrcReceived, for Source_Capabilities: a Request is awaited
  (∀ (s : State) (p : Port) (o : PdOut), s.switchedUp → (s.pd.get p).tx = some o → o.purpose = .caps → exec (.pdGoodcrcReceived p) s = .next ((s.begin.updPd p (fun x => { x with txId := x.txId.upd o.sop (· + 1), tx := none, expect := some .request, partner := true, capsCount := 0 })).finish s.begin)) ∧
  -- pdReceiveTimeout, fewer than two retries: the message goes out again
  (∀ (s : State) (p : Port) (o : PdOut), s.switchedUp → (s.pd.get p).tx = some o → o.tries < 2 ∧ (s.pd.get p).cfg.pdEnable = true → exec (.pdReceiveTimeout p) s = .next (((s.begin.updPd p (fun x => { x with tx := some { o with tries := o.tries + 1 }, caps := if o.purpose.offers then objectsOf o.bytes else x.caps })).emit (.pd p o.sop (withId o.bytes ((s.pd.get p).txId.get o.sop)))).finish s.begin)) ∧
  -- pdReceiveTimeout, retries exhausted on a Soft_Reset: Hard Reset
  (∀ (s : State) (p : Port) (o : PdOut), s.switchedUp → (s.pd.get p).tx = some o → 2 ≤ o.tries → o.purpose = .softReset → exec (.pdReceiveTimeout p) s = .next (((s.begin.updPd p (fun x => { x with tx := none })).sendHardReset p).finish s.begin)) ∧
  -- fwdDeadlineExpiry: the deadline answer
  (∀ (s : State) (p : Port) (f : Forwarded), s.switchedUp → (s.pd.get p).fwd = some f → (s.pd.get p).tx = none ∧ (s.pd.get p).arriving = false ∧ (s.pd.get p).cfg.pdEnable = true → exec (.fwdDeadlineExpiry p) s = .next (((s.begin.updPd p (fun x => { x with fwd := none, tx := some { sop := f.sop, bytes := deadlineAnswer f.bytes, purpose := .answer, tries := 0 } })).emit (.pd p f.sop (withId (deadlineAnswer f.bytes) ((s.pd.get p).txId.get f.sop)))).finish s.begin)) ∧
  -- waitRetryExpiry: the request again
  (∀ (s : State) (p : Port) (w : WaitRetry), s.switchedUp → (s.pd.get p).retry = some w → w.waiting = true → exec (.waitRetryExpiry p) s = .next (((s.begin.updPd p (fun x => { x with retry := some { w with waiting := false, retries := w.retries + 1 } })).pdStart p { w.out with purpose := .retry, tries := 0 }).finish s.begin)) ∧
  -- sinkTxExpiry: the pending sequence starts
  (∀ (s : State) (p : Port) (o : PdOut) (l : List PdOut), s.switchedUp → (s.pd.get p).pending = o :: l → (s.pd.get p).sinkTxNg = true ∧ (s.pd.get p).engaged = false → exec (.sinkTxExpiry p) s = .next (((s.begin.updPd p (fun x => { x with pending := l })).pdTransmit p o).finish s.begin)) ∧
  -- senderResponseTimeout, a Request or an Accept of Soft_Reset awaited: Hard Reset
  (∀ (s : State) (p : Port), s.switchedUp → (s.pd.get p).expect = some .request ∨ (s.pd.get p).expect = some .acceptOfReset → exec (.senderResponseTimeout p) s = .next (((s.begin.updPd p (fun x => { x with expect := none })).sendHardReset p).finish s.begin)) ∧
  -- noResponseTimeout, after two Hard Resets: the partner is not PD-capable
  (∀ (s : State) (p : Port), s.switchedUp → s.pdRuns p = true → 2 ≤ (s.pd.get p).hardResets ∧ hasExplicit (s.pd.get p) = false → exec (.noResponseTimeout p) s = .next (((s.begin.updPd p (fun x => { x with notPd := true, expect := none, tx := x.tx.filter PdOut.isSend, pending := x.pending.filter PdOut.isSend })).pdIdle p).finish s.begin)) ∧
  -- noResponseTimeout, after one: Hard Reset again
  (∀ (s : State) (p : Port), s.switchedUp → s.pdRuns p = true → (s.pd.get p).hardResets = 1 ∧ hasExplicit (s.pd.get p) = false → exec (.noResponseTimeout p) s = .next ((s.begin.sendHardReset p).finish s.begin)) ∧
  -- ppsTimeout: Hard Reset
  (∀ (s : State) (p : Port) (c : Contract), s.switchedUp → (s.pd.get p).contract = .explicit c → c.pps = true → s.pdRuns p = true → exec (.ppsTimeout p) s = .next ((s.begin.sendHardReset p).finish s.begin))

/-- Contract transitions, Hard Reset and the PD Receive Queue. The steps of Table 8.8 and of Table 8.9 by their expiries, VCONN after a Hard Reset, and a pop of the PD Receive Queue of a clean and of an uncorrectable word. Each clause gives the whole next state as an equation, so whatever it does not name is unchanged (the outside wires are cleared first, and what firmware has ready runs at the end, log 22). -/
def Obligations.ContractTransitionsAndHardReset : Prop :=
  -- srcTransitionExpiry, a new level: the chain word carries it and PGOOD is awaited
  (∀ (s : State) (p : Port) (t : Transition), s.switchedUp → (s.pd.get p).trans = some t → t.step = .srcTransition ∧ t.noChange = false → exec (.srcTransitionExpiry p) s = .next ((((s.begin.updPd p (fun x => { x with trans := some { t with step := .pgood } })).updVbus p (fun v => { v with awaitPgood := true })).refreshWord p).finish s.begin)) ∧
  -- srcTransitionExpiry, nothing changes: PS_RDY at once
  (∀ (s : State) (p : Port) (t : Transition), s.switchedUp → (s.pd.get p).trans = some t → t.step = .srcTransition ∧ t.noChange = true → exec (.srcTransitionExpiry p) s = .next ((s.begin.sendPsRdy p).finish s.begin)) ∧
  -- transitionPgood: PS_RDY
  (∀ (s : State) (p : Port) (t : Transition), s.switchedUp → (s.pd.get p).trans = some t → t.step = .pgood ∧ (s.vbus.get p).awaitPgood = false → (s.pd.get p).arriving = false → exec (.transitionPgood p) s = .next (((s.begin.updPd p (fun x => { x with trans := x.trans.map (fun t => { t with step := .psRdy }) })).pdTransmit p { sop := 0, bytes := controlMsg 6, purpose := .psRdy, tries := 0 }).finish s.begin)) ∧
  -- transitionTimeout: recorded, Hard Reset
  (∀ (s : State) (p : Port) (t : Transition), s.switchedUp → (s.pd.get p).trans = some t → t.step = .pgood ∧ (s.vbus.get p).awaitPgood = true → exec (.transitionTimeout p) s = .next (((s.begin.detect (0x400 + p.val) 0x41 (vsetOf t.goal.mv)).sendHardReset p).finish s.begin)) ∧
  -- hardResetReceived: the contract ends, the item is queued
  (∀ (s : State) (p : Port), s.switchedUp → s.mode ≠ .dawn → (s.pd.get p).tc = .attached ∧ (s.pd.get p).cfg.pdEnable = true → exec (.hardResetReceived p) s = .next (((s.begin.hardResetBegin p).resetItem (slotOf p) (posInSlot p).castSucc 5 (s.pd.get p).cfg.reportAll).finish s.begin)) ∧
  -- psHardResetExpiry: EN = 0 with DISCH = 1, VCONN off
  (∀ (s : State) (p : Port), s.switchedUp → (s.pd.get p).hr = some .reset → (s.powerLinks.get (dieOf p)).up = true → exec (.psHardResetExpiry p) s = .next ((((s.begin.updPd p (fun x => { x with hr := some .discharge, vconnOn := false })).startDischarge p).writeWord p).finish s.begin)) ∧
  -- srcRecoverExpiry: VBUS returns at vSafe5V, VCONN where Ra is seen
  (∀ (s : State) (p : Port), s.switchedUp → (s.pd.get p).hr = some .recover → exec (.srcRecoverExpiry p) s = .next ((((s.begin.updPd p (fun x => { x with hr := some .returning, vconnReturn := ssCapable p && raSeen x, capsCount := 0, capsStopped := false })).updVbus p (fun v => { v with awaitPgood := true })).refreshWord p).finish s.begin)) ∧
  -- vconnSourceTimeout: Hard Reset, VCONN stays on
  (∀ (s : State) (p : Port), s.switchedUp → (s.pd.get p).expect = some .partnerPsRdy → exec (.vconnSourceTimeout p) s = .next ((s.begin.sendHardReset p).finish s.begin)) ∧
  -- vconnLineLow: VCONN on again after a Hard Reset
  (∀ (s : State) (p : Port), s.switchedUp → (s.powerLinks.get (dieOf p)).up = true → (s.pd.get p).vconnReturn = true ∧ (s.pd.get p).tc = .attached → exec (.vconnLineLow p) s = .next ((s.begin.updPd p (fun x => { x with vconnOn := true, vconnReturn := false })).finish s.begin)) ∧
  -- pdQueuePop, a clean word
  (∀ (s : State) (k : Slot) (w : BitVec 77) (l : List (BitVec 77)), s.switchedUp → s.fw.paused = false → (s.queues.get k).drain = w :: l → s.fault.injections.find? (fun i => i.source.toNat == 0x150 + k.val) = none → queueClass (queueSyndrome w) = .clean → exec (.pdQueuePop k) s = .next ((({ s.begin with queues := s.queues.upd k (fun q => { q with drain := l, drainAt := q.drainAt + 1 }) } : State).takeWord k (w.setWidth 69)).finish s.begin)) ∧
  -- pdQueuePop, an uncorrectable word: recorded, the queue is flushed
  (∀ (s : State) (k : Slot) (w : BitVec 77) (l : List (BitVec 77)), s.switchedUp → s.fw.paused = false → (s.queues.get k).drain = w :: l → s.fault.injections.find? (fun i => i.source.toNat == 0x150 + k.val) = none → queueClass (queueSyndrome w) = .multiple → exec (.pdQueuePop k) s = .next (((({ s.begin with queues := s.queues.upd k (fun q => { q with drain := l, drainAt := q.drainAt + 1 }) } : State).report { source := BitVec.ofNat 12 (0x150 + k.val), kind := 0x01, info := BitVec.ofNat 32 (s.queues.get k).drainAt, injected := false }).flushPd k).finish s.begin))

/-- States of a slot. Seating, start, PG, cool-down, ageing, telemetry and the disable sequence move a slot between the states of Table 9.4; unseating with the gate on switches it off, with SLOT_TRIP UNSEATED that does not count. Each clause gives the whole next state as an equation, so whatever it does not name is unchanged (the outside wires are cleared first, and what firmware has ready runs at the end, log 22). -/
def Obligations.SlotStates : Prop :=
  -- seatNLow: EMPTY to SEATING
  (∀ (s : State) (k : Slot), s.mode ≠ .off → s.daytime → (s.slots.get k).st = .empty → exec (.seatNLow k) s = .next ((s.begin.updSlot k (fun x => { x with seatLow := true, st := .seating })).finish s.begin)) ∧
  -- seatNHigh, the gate off and no latch: EMPTY
  (∀ (s : State) (k : Slot), s.mode ≠ .off → s.daytime → (s.slots.get k).st = .seating ∨ (s.slots.get k).st = .idle ∨ (s.slots.get k).st = .cooldown → exec (.seatNHigh k) s = .next ((s.begin.updSlot k (fun x => { x with seatLow := false, st := .empty })).finish s.begin)) ∧
  -- seatNHigh, the gate on: SLOT_TRIP UNSEATED, not counted
  (∀ (s : State) (k : Slot), s.mode ≠ .off → s.daytime → (s.slots.get k).st = .ramp ∨ (s.slots.get k).st = .pgWait ∨ (s.slots.get k).st = .on → exec (.seatNHigh k) s = .next ((((s.begin.updSlot k (fun x => { x with seatLow := false, lastTripKind := 0x12 })).gateOff k .empty).slotTripEvent k 0x12 false false).finish s.begin)) ∧
  -- seatDebounceExpiry: SEATING to IDLE
  (∀ (s : State) (k : Slot), s.mode ≠ .off → (s.slots.get k).st = .seating ∧ (s.slots.get k).seatLow = true → exec (.seatDebounceExpiry k) s = .next ((s.begin.updSlot k (fun x => { x with st := .idle })).finish s.begin)) ∧
  -- startConditionHolds: IDLE to RAMP
  (∀ (s : State) (k : Slot) (mv : Nat), s.mode ≠ .off → (s.slots.get k).st = .idle ∧ (s.slots.get k).enable = true → 100 * (s.slots.get k).spc.vinUv ≤ mv ∧ mv < 100 * (s.slots.get k).spc.vinOv → exec (.startConditionHolds k mv) s = .next ((s.begin.updSlot k (fun x => { x with vinLow := false, vinHigh := false, st := .ramp, peakSense := 0 })).finish s.begin)) ∧
  -- pgConditionsHold: RAMP to PG_WAIT
  (∀ (s : State) (k : Slot), s.mode ≠ .off → (s.slots.get k).st = .ramp → exec (.pgConditionsHold k) s = .next ((s.begin.updSlot k (fun x => { x with st := .pgWait })).finish s.begin)) ∧
  -- pgConditionsLost: PG_WAIT to RAMP
  (∀ (s : State) (k : Slot), s.mode ≠ .off → (s.slots.get k).st = .pgWait → exec (.pgConditionsLost k) s = .next ((s.begin.updSlot k (fun x => { x with st := .ramp })).finish s.begin)) ∧
  -- pgDelayExpiry: PG_WAIT to ON, and the chain settles
  (∀ (s : State) (k : Slot), s.mode ≠ .off → (s.slots.get k).st = .pgWait → (s.powerLinks.get (dieOfSlot k)).up = true → exec (.pgDelayExpiry k) s = .next (({ s.begin.updSlot k (fun x => { x with st := .on }) with chains := s.chains.put k { st := .settling, faultKind := 1, frames := 0, cleanRun := 0, badRun := 0 } } : State).finish s.begin)) ∧
  -- offTimeExpiry: COOLDOWN to RAMP where the start condition holds, else to IDLE
  (∀ (s : State) (k : Slot) (mv : Nat), s.mode ≠ .off → (s.slots.get k).st = .cooldown → exec (.offTimeExpiry k mv) s = .next ((s.begin.updSlot k (fun x => if x.enable && vinInWindow x.spc mv then { x with vinLow := mv < 100 * x.spc.vinUv, vinHigh := 100 * x.spc.vinOv ≤ mv, st := .ramp, peakSense := 0 } else { x with vinLow := mv < 100 * x.spc.vinUv, vinHigh := 100 * x.spc.vinOv ≤ mv, st := .idle })).finish s.begin)) ∧
  -- tripWindowAging
  (∀ (s : State) (k : Slot), s.mode ≠ .off → exec (.tripWindowAging k) s = .next ((s.begin.updSlot k (fun x => { x with tripsInWindow := x.tripsInWindow - 1 })).finish s.begin)) ∧
  -- slotTelemetrySample
  (∀ (s : State) (k : Slot) (vin vout sense : BitVec 12), s.mode ≠ .off → (s.powerLinks.get (dieOfSlot k)).up = true → exec (.slotTelemetrySample k vin vout sense) s = .next ((s.begin.updSlot k (fun x => { x with vin, vout, sense, peakSense := BitVec.ofNat 16 (max x.peakSense.toNat (min 65535 sense.toNat)) })).finish s.begin)) ∧
  -- slotDisableTimeout: ports not yet at vSafe0V enter hold, the gate goes off
  (∀ (s : State) (k : Slot), s.mode ≠ .off → (s.slots.get k).disabling = true → exec (.slotDisableTimeout k) s = .next (((forAll (portsOfSlot k) (fun s p => if s.atVSafe0V p then s else s.holdPort p .noDischarge) s.begin).slotDisableEnd k).finish s.begin))

/-- Trips of a slot. PG_LOST_TRIP, FAST_TRIP, BREAKER_TIMEOUT and RAMP_STALL are counted trips of their kinds, VIN_WINDOW_EXIT switches the gate off without counting; a counted trip below the budget cools down, one at the budget or without RETRY latches with SLOT_LATCHED and its record; a gate that goes off from ON ends the ports' contracts, at once where the power-die link is up and at its return where it is not (log 66). -/
def Obligations.SlotTrips : Prop :=
  -- pgLostTrip, fastTrip, breakerTimeout in ON: each is a counted trip of its kind
  (∀ (s : State) (k : Slot) (sense : BitVec 12), s.mode ≠ .off → s.daytime → (s.slots.get k).st = .on → exec (.pgLostTrip k) s = .next ((s.begin.trip k 0x04 false false).finish s.begin) ∧ exec (.fastTrip k sense) s = .next (((s.begin.notePeak k sense.toNat).trip k 0x01 false false).finish s.begin) ∧ exec (.breakerTimeout k sense) s = .next (((s.begin.notePeak k sense.toNat).trip k 0x02 false false).finish s.begin)) ∧
  -- rampStall: a counted trip of kind 0x03
  (∀ (s : State) (k : Slot), s.mode ≠ .off → s.daytime → (s.slots.get k).st = .ramp → exec (.rampStall k) s = .next ((s.begin.trip k 0x03 false false).finish s.begin)) ∧
  -- vinWindowExit, the gate on: off to IDLE, SLOT_TRIP not counted
  (∀ (s : State) (k : Slot) (mv : Nat), s.mode ≠ .off → s.daytime → (s.slots.get k).st = .ramp ∨ (s.slots.get k).st = .pgWait ∨ (s.slots.get k).st = .on → exec (.vinWindowExit k mv) s = .next ((((s.begin.updSlot k (fun x => { x with vinLow := mv < 100 * x.spc.vinUv, vinHigh := 100 * x.spc.vinOv ≤ mv, lastTripKind := if 100 * (s.slots.get k).spc.vinOv ≤ mv then 0x11 else 0x10 })).gateOff k .idle).slotTripEvent k (if 100 * (s.slots.get k).spc.vinOv ≤ mv then 0x11 else 0x10) false false).finish s.begin)) ∧
  -- a counted trip below the budget: COOLDOWN
  (∀ (s : State) (k : Slot) (kind : Byte), (s.slots.get k).spc.retry = true → (s.slots.get k).tripsInWindow + 1 < (s.slots.get k).spc.tripBudget → (s.slots.get k).tripsInWindow < 63 → s.trip k kind false false = ((s.updSlot k (fun x => { x with tripsInWindow := (s.slots.get k).tripsInWindow + 1, tripsTotal := satAdd 16 x.tripsTotal 1, lastTripKind := kind })).gateOff k .cooldown).slotTripEvent k kind true false) ∧
  -- a counted trip at the budget, or without RETRY: LATCHED, with SLOT_LATCHED and its record
  (∀ (s : State) (k : Slot) (kind : Byte), (s.slots.get k).spc.retry = false ∨ (s.slots.get k).spc.tripBudget ≤ (s.slots.get k).tripsInWindow + 1 → (s.slots.get k).tripsInWindow < 63 → s.trip k kind false false = (((((s.updSlot k (fun x => { x with tripsInWindow := (s.slots.get k).tripsInWindow + 1, tripsTotal := satAdd 16 x.tripsTotal 1, lastTripKind := kind })).gateOff k .latched).slotTripEvent k kind true false).spcEvent k 0x8602 ([BitVec.ofNat 8 ((s.slots.get k).tripsInWindow + 1), 0] ++ le16 (s.slots.get k).spc.tripWindow)).report { source := BitVec.ofNat 12 (0x160 + k.val), kind := 0x51, info := BitVec.ofNat 32 ((s.slots.get k).tripsInWindow + 1), injected := false })) ∧
  -- the gate goes off: from RAMP or PG_WAIT the state alone changes; from ON the contracts end, once the core die hears of it
  (∀ (s : State) (k : Slot) (d : SlotSt), ((s.slots.get k).st ≠ .on → s.gateOff k d = s.updSlot k (fun x => { x with st := d })) ∧ ((s.slots.get k).st = .on → (s.powerLinks.get (dieOfSlot k)).up = true → s.gateOff k d = (s.updSlot k (fun x => { x with st := d })).leaveOn k) ∧ ((s.slots.get k).st = .on → (s.powerLinks.get (dieOfSlot k)).up = false → s.gateOff k d = s.updSlot k (fun x => { x with st := d, unseen := true })))

/-- Port power chains and hold. CHAIN_FRAME carries the words out, judges what comes back, brings a settled chain UP and a bad one to FAULT; CHAIN_SETTLING_TIMEOUT is FAULT with NO_RESPONSE; VBUS_RELEASE_STAGGER releases the next port in ascending order; NO_PGOOD_TIMEOUT and PGOOD_LOST_TIMEOUT put a port in hold. Each clause gives the whole next state as an equation, so whatever it does not name is unchanged (the outside wires are cleared first, and what firmware has ready runs at the end, log 22). -/
def Obligations.PortPowerChains : Prop :=
  -- chainFrame, a chain that is DOWN: the words go out, nothing comes back
  (∀ (s : State) (k : Slot) (input : List Byte), s.mode ≠ .off → (s.chains.get k).st = .down → exec (.chainFrame k input) s = .next (((forAll ((portsOfSlot k).map (fun p => (p, s.frameOf p))) (fun s pw => s.updVbus pw.1 (applyWord pw.2)) s.begin).emit (.chainOut k (s.chainOut k))).finish s.begin)) ∧
  -- chainFrame, the third clean frame after 50 of settling: the chain is UP
  (∀ (s : State) (k : Slot) (input : List Byte), s.mode ≠ .off → (s.chains.get k).st = .settling ∧ 50 ≤ (s.chains.get k).frames ∧ (s.chains.get k).cleanRun = 2 → (portsOfSlot k).all (fun p => byteClean (inputByte input p)) = true → exec (.chainFrame k input) s = .next (((forAll ((portsOfSlot k).map (fun p => (p, s.frameOf p))) (fun s pw => s.updVbus pw.1 (applyWord pw.2)) (s.begin.chainUp k)).emit (.chainOut k (s.chainOut k))).finish s.begin)) ∧
  -- chainFrame, the third frame in which eight ports or more are not clean: FAULT, kind 1
  (∀ (s : State) (k : Slot) (input : List Byte), s.mode ≠ .off → (s.chains.get k).st = .up ∧ (s.chains.get k).badRun = 2 → 8 ≤ (portsOfSlot k).countP (fun p => !byteClean (inputByte input p)) → exec (.chainFrame k input) s = .next (((forAll ((portsOfSlot k).map (fun p => (p, s.frameOf p))) (fun s pw => s.updVbus pw.1 (applyWord pw.2)) (s.begin.chainFault k 1)).emit (.chainOut k (s.chainOut k))).finish s.begin)) ∧
  -- chainSettlingTimeout: FAULT, kind NO_RESPONSE
  (∀ (s : State) (k : Slot), s.mode ≠ .off → (s.chains.get k).st = .settling → exec (.chainSettlingTimeout k) s = .next ((s.begin.chainFault k 2).finish s.begin)) ∧
  -- vbusReleaseStagger: the next port in ascending order that is not yet released
  (∀ (s : State) (k : Slot) (p : Port), s.mode ≠ .off → (s.begin.releaseIdle k).mayRelease k = true → (portsOfSlot k).find? (fun p => !((s.begin.releaseIdle k).vbus.get p).released) = some p → exec (.vbusReleaseStagger k) s = .next ((((s.begin.releaseIdle k).updVbus p (fun v => { v with released := true, awaitPgood := true })).updPd p (fun x => { x with capsCount := 0, capsStopped := false })).finish s.begin)) ∧
  -- noPgoodTimeout: hold, cause NO_PGOOD
  (∀ (s : State) (p : Port), s.mode ≠ .off → s.chainJudges p = true → (s.vbus.get p).awaitPgood = true ∧ (s.pd.get p).trans = none → exec (.noPgoodTimeout p) s = .next ((s.begin.holdPort p .noPgood).finish s.begin)) ∧
  -- pgoodLostTimeout: hold, cause PGOOD_LOST
  (∀ (s : State) (p : Port), s.mode ≠ .off → s.chainJudges p = true → (s.vbus.get p).awaitPgood = false ∧ (s.vbus.get p).pgood.value = false ∧ (s.pd.get p).trans = none → exec (.pgoodLostTimeout p) s = .next ((s.begin.holdPort p .pgoodLost).finish s.begin))

/-- A step runs the command at the front of the queue. For every command c and state s with c at the front of its queue, step of s is exec of c on s with the queue's rest; on an empty queue the block idles, which is the model's choice (log 2). -/
def Obligations.StepRunsFrontCommand : Prop :=
  -- a waiting command
  (∀ (s : State) (c : Instr) (q : List Instr), s.pending = c :: q → step s = exec c { s with pending := q }) ∧
  -- an empty queue
  (∀ (s : State), s.pending = [] → step s = .next s)

/-- No command touches the queue. For every command and every state, where exec answers a next state its queue of waiting commands is the one before. -/
def Obligations.QueueKept : Prop :=
  ∀ (c : Instr) (s t : State), exec c s = .next t → t.pending = s.pending

/-- EXTEST only under TESTMODE, TESTMODE only while PORST_N is high. If the TAP holds EXTEST only under TESTMODE, and TESTMODE is not set while PORST_N is low, then both hold after every step. -/
def Obligations.BoundaryScanKept : Prop :=
  ∀ (s t : State), (s.tap = .extest → s.testmode = true) → (s.aonUp = false → s.testmode = false) → step s = .next t → (t.tap = .extest → t.testmode = true) ∧ (t.aonUp = false → t.testmode = false)

/-- Every step keeps the packet buffer's memory in canonical form. If the list of written words has strictly rising addresses and no entry that equals the fill pattern (log 12), then it has this form after every step. -/
def Obligations.MemoryOrderKept : Prop :=
  ∀ (s t : State), cellsWf s.cells = true → step s = .next t → cellsWf t.cells = true

/-- The invariants hold at reset. The memory of State.reset is canonical; its TAP does not hold EXTEST without TESTMODE and TESTMODE is not set while PORST_N is low. -/
def Obligations.InvariantsAtReset : Prop :=
  -- the memory lists nothing and is canonical
  (cellsWf State.reset.cells = true) ∧
  -- no EXTEST without TESTMODE, no TESTMODE while PORST_N is low
  ((State.reset.tap = .extest → State.reset.testmode = true) ∧ (State.reset.aonUp = false → State.reset.testmode = false))

/-- The security floor only rises and a revoked key stays revoked. For every command, where exec answers a next state, its security floor is at least the one before and every key that was revoked is revoked. -/
def Obligations.FusesOnlyBurn : Prop :=
  ∀ (c : Instr) (s t : State), exec c s = .next t → s.fw.securityFloor ≤ t.fw.securityFloor ∧ ∀ i, (s.fw.keys.get i).revoked = true → (t.fw.keys.get i).revoked = true

/-- A stored word reads back, and no other word changes. In a filled bank with no fault injected, a code word stored at a row and word reads back as it was stored, and every word at another physical address reads as before. -/
def Obligations.WordReadAfterWrite : Prop :=
  ∀ (s : State) (b : Bank) (row word : Nat) (cw : BitVec 137), cellsWf s.cells = true → (s.banks.get b).filled = true → s.addrPoint b = none → (s.banks.get b).flip = none → s.bankPoint b 1 = none → s.bankPoint b 2 = none → (s.storeWord b row word cw).cell b row word = cw ∧
    ∀ (c : Bank) (r w : Nat), cellKey c ((s.banks.get c).physRow r) w ≠ cellKey b ((s.banks.get b).physRow row) word →
      (s.storeWord b row word cw).cell c r w = s.cell c r w

/-- A correction changes the data returned, not the stored word. A read of any word leaves the stored words as they were, and where the checker finds a correctable error the data returned is the corrected one. -/
def Obligations.CorrectionLeavesStoredWord : Prop :=
  (∀ (s : State) (b : Bank) (row word : Nat), (s.readWord b row word).1.cells = s.cells) ∧
  (∀ (s : State) (b : Bank) (row word i : Nat), s.addrPoint b = none → s.bankPoint b 0 = none → classify (pbmSyndrome (s.cell b row word)) = .correctable i → (s.readWord b row word).2.data = corrected (s.cell b row word) (.correctable i))

/-- The code corrects every single error and detects every double error. For every 128 data bits: the encoded word is clean and returns its data; with any one bit flipped it is classified correctable at that position and returns its data; with any two bits flipped it is classified as a double error. -/
def Obligations.CodeCorrects : Prop :=
  -- a word as encoded is clean
  (∀ (d : BitVec 128), classify (pbmSyndrome (pbmEncode d)) = .clean ∧ corrected (pbmEncode d) .clean = d) ∧
  -- any one wrong bit is corrected
  (∀ (d : BitVec 128) (i : Nat), i < 137 → classify (pbmSyndrome (pbmEncode d ^^^ (1#137 <<< i))) = .correctable i ∧ corrected (pbmEncode d ^^^ (1#137 <<< i)) (.correctable i) = d) ∧
  -- any two wrong bits are found
  (∀ (d : BitVec 128) (i j : Nat), i < j → j < 137 → classify (pbmSyndrome (pbmEncode d ^^^ (1#137 <<< i) ^^^ (1#137 <<< j))) = .double)

/-- The one refusal. Every command on every state answers a next state, or it is the refusal of a DETECTOR_MESSAGE; such a message is refused exactly where no row of Tables 12.2 and 12.3 has its source and kind, the model's reading of log 34. -/
def Obligations.OnlyUnpairedReportsRefused : Prop :=
  (∀ (c : Instr) (s : State), (∃ t, exec c s = .next t) ∨ exec c s = .refused (.illFormed "DETECTOR_MESSAGE")) ∧
  (∀ (s : State) (source : BitVec 12) (kind : Byte) (info : BitVec 32) (injected : Bool) (place : Option (Port × Byte)), faultRow source.toNat kind.toNat = none → exec (.detectorMessage source kind info injected place) s = .refused (.illFormed "DETECTOR_MESSAGE")) ∧
  (∀ (s : State) (source : BitVec 12) (kind : Byte) (info : BitVec 32) (injected : Bool) (place : Option (Port × Byte)), (faultRow source.toNat kind.toNat).isSome = true → ∃ t, exec (.detectorMessage source kind info injected place) s = .next t)

/-- Rows of switched domains do nothing while the domain is down. Each of the 132 rows of blocks in switched domains, in Off, in Midnight and while WRST_N is low, does nothing of its own, and nothing at all but clear the wires where no firmware work waits (log 19). -/
def Obligations.SwitchedRowsSleep : Prop :=
  (∀ (c : Instr) (s : State), switchedRow c = true → ¬ s.switchedUp → exec c s = .next (s.begin.finish s.begin)) ∧
  (∀ (c : Instr) (s : State), switchedRow c = true → ¬ s.switchedUp → s.calm → exec c s = .next s.begin)

/-- The diagnostic commands outside Diagnostic. DIAG_LOOPBACK, DIAG_PHY_TEST and DIAG_EYE of a steward in any mode but Diagnostic, with a session that is heard, are answered NOT_IN_MODE and change nothing else. -/
def Obligations.DiagnosticModeOnly : Prop :=
  -- diagLoopback
  (∀ (s : State) (m : VcpMsg) (t : Target) (r : CmdRow), s.hears m → (s.sessions.get m.session).isOpen = true → m.cseq = (s.sessions.get m.session).lastCseq + 1 → s.fw.bootFailed = false → s.isSteward m.session = true → cmdRow 0x0B01 = some r → decodeTarget m.target = some t → r.fits t = true → s.mode ≠ .diagnostic → exec (.diagLoopback m) s = .next ((s.taken 0x0B01 m).answers s 0x0B01 m stNotInMode [])) ∧
  -- diagPhyTest
  (∀ (s : State) (m : VcpMsg) (t : Target) (r : CmdRow), s.hears m → (s.sessions.get m.session).isOpen = true → m.cseq = (s.sessions.get m.session).lastCseq + 1 → s.fw.bootFailed = false → s.isSteward m.session = true → cmdRow 0x0B02 = some r → decodeTarget m.target = some t → r.fits t = true → s.mode ≠ .diagnostic → exec (.diagPhyTest m) s = .next ((s.taken 0x0B02 m).answers s 0x0B02 m stNotInMode [])) ∧
  -- diagEye
  (∀ (s : State) (m : VcpMsg) (t : Target) (r : CmdRow), s.hears m → (s.sessions.get m.session).isOpen = true → m.cseq = (s.sessions.get m.session).lastCseq + 1 → s.fw.bootFailed = false → s.isSteward m.session = true → cmdRow 0x0B03 = some r → decodeTarget m.target = some t → r.fits t = true → s.mode ≠ .diagnostic → exec (.diagEye m) s = .next ((s.taken 0x0B03 m).answers s 0x0B03 m stNotInMode []))

/-- PART_CONNECT on the own partition that is already Connected. A partition-scoped session's PART_CONNECT on its own partition, which is Connected, is answered OK and has no other effect. -/
def Obligations.PartConnectOwnConnected : Prop :=
  ∀ (s : State) (m : VcpMsg) (k : Part), s.reaches 0x0204 m (.partition k) → m.payload = [] → m.session = mfSession k → s.isSteward m.session = false → (s.parts.get k).st = .connected → exec (.partConnect m) s = .next ((s.taken 0x0204 m).answers s 0x0204 m stOK [])

/-- PBM_FLIPMASK: scope, modes, replacement. PBM_FLIPMASK is DENIED without steward scope, NOT_IN_MODE in modes other than Noon, Evening and Diagnostic that hear commands, and in these three it arms the bank, replacing an earlier arming. -/
def Obligations.FlipmaskRights : Prop :=
  -- a session without steward scope
  (∀ (s : State) (m : VcpMsg) (b : Bank), s.hears m → (s.sessions.get m.session).isOpen = true → m.cseq = (s.sessions.get m.session).lastCseq + 1 → s.fw.bootFailed = false → decodeTarget m.target = some (.bank b) → s.isSteward m.session = false → exec (.pbmFlipmask m) s = .next ((s.taken 0x0804 m).answers s 0x0804 m stDenied [])) ∧
  -- a steward in a mode other than Noon, Evening and Diagnostic
  (∀ (s : State) (m : VcpMsg) (b : Bank), s.hears m → (s.sessions.get m.session).isOpen = true → m.cseq = (s.sessions.get m.session).lastCseq + 1 → s.fw.bootFailed = false → decodeTarget m.target = some (.bank b) → s.isSteward m.session = true → s.mode ≠ .noon → s.mode ≠ .evening → s.mode ≠ .diagnostic → exec (.pbmFlipmask m) s = .next ((s.taken 0x0804 m).answers s 0x0804 m stNotInMode [])) ∧
  -- a steward in one of the three, for any word: the earlier arming is replaced
  (∀ (s : State) (m : VcpMsg) (b : Bank) (l : List Byte), s.reaches 0x0804 m (.bank b) → s.isSteward m.session = true → s.mode = .noon ∨ s.mode = .evening ∨ s.mode = .diagnostic → m.payload = [0, 0, 0, 0, 0, 0, 0, 0] ++ l → l.length = 18 → get8 m.payload 25 < 2 → flipBits m.payload ≠ 0 → exec (.pbmFlipmask m) s = .next (((s.taken 0x0804 m).updBank b (fun x => { x with flip := some { mask := flipBits m.payload, word := none } })).answers s 0x0804 m stOK []))

/-- What EVENT_ACK removes from the ring. EVENT_ACK removes every event up to and including the ESEQ it names; one older than the oldest retained event is answered OK with no effect; one newer than the newest issued is answered BAD_ARG. -/
def Obligations.EventAckRule : Prop :=
  -- every event up to and including the one named leaves the ring
  (∀ (s : State) (m : VcpMsg) (gone kept : List EventRec), s.takes 0x0003 m → m.target = 0xFFFF → m.payload.length = 4 → ((s.sessions.get m.session).nextEseq - 1 - bits32 m.payload 0).toNat < 2 ^ 31 → (s.sessions.get m.session).ring = gone ++ kept → gone ≠ [] → (∀ e ∈ gone, (bits32 m.payload 0 - e.eseq).toNat < 2 ^ 31) → (∀ e ∈ kept.head?, 2 ^ 31 ≤ (bits32 m.payload 0 - e.eseq).toNat) → exec (.eventAck m) s = .next (((s.taken 0x0003 m).updSession m.session (fun x => { x with ring := kept, lastAcked := bits32 m.payload 0 })).answers s 0x0003 m stOK [])) ∧
  -- one older than the oldest retained event
  (∀ (s : State) (m : VcpMsg), s.takes 0x0003 m → m.target = 0xFFFF → m.payload.length = 4 → ((s.sessions.get m.session).nextEseq - 1 - bits32 m.payload 0).toNat < 2 ^ 31 → (∀ e ∈ (s.sessions.get m.session).ring.head?, 2 ^ 31 ≤ (bits32 m.payload 0 - e.eseq).toNat) → exec (.eventAck m) s = .next ((s.taken 0x0003 m).answers s 0x0003 m stOK [])) ∧
  -- one newer than the newest issued event
  (∀ (s : State) (m : VcpMsg), s.takes 0x0003 m → m.target = 0xFFFF → m.payload.length = 4 → 2 ^ 31 ≤ ((s.sessions.get m.session).nextEseq - 1 - bits32 m.payload 0).toNat → exec (.eventAck m) s = .next ((s.taken 0x0003 m).answers s 0x0003 m stBadArg []))

/-- The state at reset. State.reset is Off with PORST_N low, every domain off, no command waiting; every session closed with an empty ring; no fault record; every slot EMPTY, every chain DOWN, every Type-C side OPEN; no image running, none staged, no trial. -/
def Obligations.ResetState : Prop :=
  -- Off, PORST_N low, every domain unpowered, nothing queued
  (State.reset.mode = .off ∧ State.reset.aonUp = false ∧ State.reset.pending = [] ∧ ∀ d, State.reset.domains.get d = .off) ∧
  -- every session closed, every ring empty
  (∀ i, (State.reset.sessions.get i).isOpen = false ∧ (State.reset.sessions.get i).ring = [] ∧ (State.reset.sessions.get i).lostCount = 0) ∧
  -- the Fault Collector holds no record and starts at INDEX 0
  (State.reset.fault.records = [] ∧ State.reset.fault.nextIndex = 0 ∧ State.reset.fault.dropped = 0) ∧
  -- every slot EMPTY, every chain DOWN, every Type-C side OPEN
  ((∀ k, (State.reset.slots.get k).st = .empty) ∧ (∀ k, (State.reset.chains.get k).st = .down) ∧ ∀ p, (State.reset.pd.get p).tc = .open) ∧
  -- no image runs, nothing is staged, no trial
  (State.reset.fw.running = none ∧ State.reset.fw.staging = none ∧ State.reset.fw.trial = none)
end

