-- ==== Sys2Proof/Laws/Tab.lean ====
section
/-! SUPPORT. Reading a table of like things after one entry was put or changed. -/

set_option Elab.async false

namespace Sys2Proof

@[simp] theorem Tab.get_put_same {n : Nat} {α : Type} (t : Tab n α) (i : Fin n) (a : α) : (t.put i a).get i = a := by
  simp [Tab.get, Tab.put]

theorem Tab.get_put_other {n : Nat} {α : Type} (t : Tab n α) (i j : Fin n) (a : α) (h : i ≠ j) : (t.put i a).get j = t.get j := by
  simp only [Tab.get, Tab.put, Fin.getElem_fin]
  exact Vector.getElem_set_ne _ _ (fun e => h (Fin.ext e))

theorem Tab.get_put {n : Nat} {α : Type} (t : Tab n α) (i j : Fin n) (a : α) : (t.put i a).get j = if i = j then a else t.get j := by
  split
  · subst_vars; exact Tab.get_put_same ..
  · exact Tab.get_put_other _ _ _ _ ‹_›

@[simp] theorem Tab.get_upd_same {n : Nat} {α : Type} (t : Tab n α) (i : Fin n) (f : α → α) : (t.upd i f).get i = f (t.get i) := by
  simp [Tab.upd]

theorem Tab.get_upd_other {n : Nat} {α : Type} (t : Tab n α) (i j : Fin n) (f : α → α) (h : i ≠ j) : (t.upd i f).get j = t.get j :=
  Tab.get_put_other _ _ _ _ h

theorem Tab.get_upd {n : Nat} {α : Type} (t : Tab n α) (i j : Fin n) (f : α → α) : (t.upd i f).get j = if i = j then f (t.get i) else t.get j := by
  simp [Tab.upd, Tab.get_put]

@[simp] theorem Tab.get_const {n : Nat} {α : Type} (a : α) (i : Fin n) : (Tab.const n a).get i = a := by
  simp [Tab.get, Tab.const]

@[simp] theorem Tab.get_of {n : Nat} {α : Type} (f : Fin n → α) (i : Fin n) : (Tab.of f).get i = f i := by
  simp [Tab.get, Tab.of]

/-- Two tables with the same entries are the same table. -/
theorem Tab.ext {n : Nat} {α : Type} {t u : Tab n α} (h : ∀ i, t.get i = u.get i) : t = u := by
  apply Vector.ext
  intro i hi
  exact h ⟨i, hi⟩

@[simp] theorem Tab.put_put_same {n : Nat} {α : Type} (t : Tab n α) (i : Fin n) (a b : α) : (t.put i a).put i b = t.put i b := by
  apply Tab.ext
  intro j
  simp only [Tab.get_put]
  split <;> rfl

@[simp] theorem Tab.put_get_same {n : Nat} {α : Type} (t : Tab n α) (i : Fin n) : t.put i (t.get i) = t := by
  apply Tab.ext
  intro j
  rw [Tab.get_put]
  split
  · subst_vars; rfl
  · rfl

/-- Two changes of one entry are one change. -/
@[simp] theorem Tab.upd_upd_same {n : Nat} {α : Type} (t : Tab n α) (i : Fin n) (f g : α → α) : (t.upd i f).upd i g = t.upd i (fun x => g (f x)) := by
  simp [Tab.upd]

/-- A change that changes nothing. -/
theorem Tab.upd_same {n : Nat} {α : Type} (t : Tab n α) (i : Fin n) (f : α → α) (h : f (t.get i) = t.get i) : t.upd i f = t := by
  simp [Tab.upd, h]

end Sys2Proof
end

