-- ==== Sys2Proof/Laws/State.lean ====
section
/-! SUPPORT. What each update of State leaves in each field: one lemma per field per update. -/

set_option Elab.async false

namespace Sys2Proof.Machine

open Sys2Proof

/-! ## begin -/

@[simp] theorem State.begin_wire (s : State) : s.begin.wire = [] := rfl
@[simp] theorem State.begin_pending (s : State) : s.begin.pending = s.pending := rfl
@[simp] theorem State.begin_freeCount (s : State) : s.begin.freeCount = s.freeCount := rfl
@[simp] theorem State.begin_mode (s : State) : s.begin.mode = s.mode := rfl
@[simp] theorem State.begin_sessions (s : State) : s.begin.sessions = s.sessions := rfl
@[simp] theorem State.begin_mailboxes (s : State) : s.begin.mailboxes = s.mailboxes := rfl
@[simp] theorem State.begin_smbus (s : State) : s.begin.smbus = s.smbus := rfl
@[simp] theorem State.begin_alertEnable (s : State) : s.begin.alertEnable = s.alertEnable := rfl
@[simp] theorem State.begin_heldEvents (s : State) : s.begin.heldEvents = s.heldEvents := rfl
@[simp] theorem State.begin_arrivals (s : State) : s.begin.arrivals = s.arrivals := rfl
@[simp] theorem State.begin_fw (s : State) : s.begin.fw = s.fw := rfl
@[simp] theorem State.begin_fault (s : State) : s.begin.fault = s.fault := rfl
@[simp] theorem State.begin_partOf (s : State) : s.begin.partOf = s.partOf := rfl
@[simp] theorem State.begin_posOf (s : State) : s.begin.posOf = s.posOf := rfl
@[simp] theorem State.begin_domains (s : State) : s.begin.domains = s.domains := rfl
@[simp] theorem State.begin_ports (s : State) : s.begin.ports = s.ports := rfl
@[simp] theorem State.begin_parts (s : State) : s.begin.parts = s.parts := rfl
@[simp] theorem State.begin_ssTree (s : State) : s.begin.ssTree = s.ssTree := rfl
@[simp] theorem State.begin_u2Tree (s : State) : s.begin.u2Tree = s.u2Tree := rfl
@[simp] theorem State.begin_mfs (s : State) : s.begin.mfs = s.mfs := rfl
@[simp] theorem State.begin_ups (s : State) : s.begin.ups = s.ups := rfl
@[simp] theorem State.begin_lift (s : State) : s.begin.lift = s.lift := rfl
@[simp] theorem State.begin_microframe (s : State) : s.begin.microframe = s.microframe := rfl
@[simp] theorem State.begin_modeCfg (s : State) : s.begin.modeCfg = s.modeCfg := rfl
@[simp] theorem State.begin_origin (s : State) : s.begin.origin = s.origin := rfl
@[simp] theorem State.begin_cause (s : State) : s.begin.cause = s.cause := rfl
@[simp] theorem State.begin_detail (s : State) : s.begin.detail = s.detail := rfl
@[simp] theorem State.begin_aonUp (s : State) : s.begin.aonUp = s.aonUp := rfl
@[simp] theorem State.begin_testmode (s : State) : s.begin.testmode = s.testmode := rfl
@[simp] theorem State.begin_board (s : State) : s.begin.board = s.board := rfl
@[simp] theorem State.begin_wrstLow (s : State) : s.begin.wrstLow = s.wrstLow := rfl
@[simp] theorem State.begin_trans (s : State) : s.begin.trans = s.trans := rfl
@[simp] theorem State.begin_arrival (s : State) : s.begin.arrival = s.arrival := rfl
@[simp] theorem State.begin_queue (s : State) : s.begin.queue = s.queue := rfl
@[simp] theorem State.begin_back (s : State) : s.begin.back = s.back := rfl
@[simp] theorem State.begin_eve (s : State) : s.begin.eve = s.eve := rfl
@[simp] theorem State.begin_entries (s : State) : s.begin.entries = s.entries := rfl
@[simp] theorem State.begin_aborts (s : State) : s.begin.aborts = s.aborts := rfl
@[simp] theorem State.begin_exiting (s : State) : s.begin.exiting = s.exiting := rfl
@[simp] theorem State.begin_sensors (s : State) : s.begin.sensors = s.sensors := rfl
@[simp] theorem State.begin_rails (s : State) : s.begin.rails = s.rails := rfl
@[simp] theorem State.begin_avs (s : State) : s.begin.avs = s.avs := rfl
@[simp] theorem State.begin_clocks (s : State) : s.begin.clocks = s.clocks := rfl
@[simp] theorem State.begin_alarms (s : State) : s.begin.alarms = s.alarms := rfl
@[simp] theorem State.begin_portLinks (s : State) : s.begin.portLinks = s.portLinks := rfl
@[simp] theorem State.begin_tap (s : State) : s.begin.tap = s.tap := rfl
@[simp] theorem State.begin_scan (s : State) : s.begin.scan = s.scan := rfl
@[simp] theorem State.begin_diag (s : State) : s.begin.diag = s.diag := rfl
@[simp] theorem State.begin_vendorId (s : State) : s.begin.vendorId = s.vendorId := rfl
@[simp] theorem State.begin_pd (s : State) : s.begin.pd = s.pd := rfl
@[simp] theorem State.begin_queues (s : State) : s.begin.queues = s.queues := rfl
@[simp] theorem State.begin_uarts (s : State) : s.begin.uarts = s.uarts := rfl
@[simp] theorem State.begin_banks (s : State) : s.begin.banks = s.banks := rfl
@[simp] theorem State.begin_cells (s : State) : s.begin.cells = s.cells := rfl
@[simp] theorem State.begin_rings (s : State) : s.begin.rings = s.rings := rfl
@[simp] theorem State.begin_sticky (s : State) : s.begin.sticky = s.sticky := rfl
@[simp] theorem State.begin_pbm (s : State) : s.begin.pbm = s.pbm := rfl
@[simp] theorem State.begin_ttBucket (s : State) : s.begin.ttBucket = s.ttBucket := rfl
@[simp] theorem State.begin_powerLinks (s : State) : s.begin.powerLinks = s.powerLinks := rfl
@[simp] theorem State.begin_slots (s : State) : s.begin.slots = s.slots := rfl
@[simp] theorem State.begin_chains (s : State) : s.begin.chains = s.chains := rfl
@[simp] theorem State.begin_vbus (s : State) : s.begin.vbus = s.vbus := rfl

/-! ## emit -/

@[simp] theorem State.emit_wire (s : State) (e : Emission) : (s.emit e).wire = s.wire ++ [e] := rfl
@[simp] theorem State.emit_pending (s : State) (e : Emission) : (s.emit e).pending = s.pending := rfl
@[simp] theorem State.emit_freeCount (s : State) (e : Emission) : (s.emit e).freeCount = s.freeCount := rfl
@[simp] theorem State.emit_mode (s : State) (e : Emission) : (s.emit e).mode = s.mode := rfl
@[simp] theorem State.emit_sessions (s : State) (e : Emission) : (s.emit e).sessions = s.sessions := rfl
@[simp] theorem State.emit_mailboxes (s : State) (e : Emission) : (s.emit e).mailboxes = s.mailboxes := rfl
@[simp] theorem State.emit_smbus (s : State) (e : Emission) : (s.emit e).smbus = s.smbus := rfl
@[simp] theorem State.emit_alertEnable (s : State) (e : Emission) : (s.emit e).alertEnable = s.alertEnable := rfl
@[simp] theorem State.emit_heldEvents (s : State) (e : Emission) : (s.emit e).heldEvents = s.heldEvents := rfl
@[simp] theorem State.emit_arrivals (s : State) (e : Emission) : (s.emit e).arrivals = s.arrivals := rfl
@[simp] theorem State.emit_fw (s : State) (e : Emission) : (s.emit e).fw = s.fw := rfl
@[simp] theorem State.emit_fault (s : State) (e : Emission) : (s.emit e).fault = s.fault := rfl
@[simp] theorem State.emit_partOf (s : State) (e : Emission) : (s.emit e).partOf = s.partOf := rfl
@[simp] theorem State.emit_posOf (s : State) (e : Emission) : (s.emit e).posOf = s.posOf := rfl
@[simp] theorem State.emit_domains (s : State) (e : Emission) : (s.emit e).domains = s.domains := rfl
@[simp] theorem State.emit_ports (s : State) (e : Emission) : (s.emit e).ports = s.ports := rfl
@[simp] theorem State.emit_parts (s : State) (e : Emission) : (s.emit e).parts = s.parts := rfl
@[simp] theorem State.emit_ssTree (s : State) (e : Emission) : (s.emit e).ssTree = s.ssTree := rfl
@[simp] theorem State.emit_u2Tree (s : State) (e : Emission) : (s.emit e).u2Tree = s.u2Tree := rfl
@[simp] theorem State.emit_mfs (s : State) (e : Emission) : (s.emit e).mfs = s.mfs := rfl
@[simp] theorem State.emit_ups (s : State) (e : Emission) : (s.emit e).ups = s.ups := rfl
@[simp] theorem State.emit_lift (s : State) (e : Emission) : (s.emit e).lift = s.lift := rfl
@[simp] theorem State.emit_microframe (s : State) (e : Emission) : (s.emit e).microframe = s.microframe := rfl
@[simp] theorem State.emit_modeCfg (s : State) (e : Emission) : (s.emit e).modeCfg = s.modeCfg := rfl
@[simp] theorem State.emit_origin (s : State) (e : Emission) : (s.emit e).origin = s.origin := rfl
@[simp] theorem State.emit_cause (s : State) (e : Emission) : (s.emit e).cause = s.cause := rfl
@[simp] theorem State.emit_detail (s : State) (e : Emission) : (s.emit e).detail = s.detail := rfl
@[simp] theorem State.emit_aonUp (s : State) (e : Emission) : (s.emit e).aonUp = s.aonUp := rfl
@[simp] theorem State.emit_testmode (s : State) (e : Emission) : (s.emit e).testmode = s.testmode := rfl
@[simp] theorem State.emit_board (s : State) (e : Emission) : (s.emit e).board = s.board := rfl
@[simp] theorem State.emit_wrstLow (s : State) (e : Emission) : (s.emit e).wrstLow = s.wrstLow := rfl
@[simp] theorem State.emit_trans (s : State) (e : Emission) : (s.emit e).trans = s.trans := rfl
@[simp] theorem State.emit_arrival (s : State) (e : Emission) : (s.emit e).arrival = s.arrival := rfl
@[simp] theorem State.emit_queue (s : State) (e : Emission) : (s.emit e).queue = s.queue := rfl
@[simp] theorem State.emit_back (s : State) (e : Emission) : (s.emit e).back = s.back := rfl
@[simp] theorem State.emit_eve (s : State) (e : Emission) : (s.emit e).eve = s.eve := rfl
@[simp] theorem State.emit_entries (s : State) (e : Emission) : (s.emit e).entries = s.entries := rfl
@[simp] theorem State.emit_aborts (s : State) (e : Emission) : (s.emit e).aborts = s.aborts := rfl
@[simp] theorem State.emit_exiting (s : State) (e : Emission) : (s.emit e).exiting = s.exiting := rfl
@[simp] theorem State.emit_sensors (s : State) (e : Emission) : (s.emit e).sensors = s.sensors := rfl
@[simp] theorem State.emit_rails (s : State) (e : Emission) : (s.emit e).rails = s.rails := rfl
@[simp] theorem State.emit_avs (s : State) (e : Emission) : (s.emit e).avs = s.avs := rfl
@[simp] theorem State.emit_clocks (s : State) (e : Emission) : (s.emit e).clocks = s.clocks := rfl
@[simp] theorem State.emit_alarms (s : State) (e : Emission) : (s.emit e).alarms = s.alarms := rfl
@[simp] theorem State.emit_portLinks (s : State) (e : Emission) : (s.emit e).portLinks = s.portLinks := rfl
@[simp] theorem State.emit_tap (s : State) (e : Emission) : (s.emit e).tap = s.tap := rfl
@[simp] theorem State.emit_scan (s : State) (e : Emission) : (s.emit e).scan = s.scan := rfl
@[simp] theorem State.emit_diag (s : State) (e : Emission) : (s.emit e).diag = s.diag := rfl
@[simp] theorem State.emit_vendorId (s : State) (e : Emission) : (s.emit e).vendorId = s.vendorId := rfl
@[simp] theorem State.emit_pd (s : State) (e : Emission) : (s.emit e).pd = s.pd := rfl
@[simp] theorem State.emit_queues (s : State) (e : Emission) : (s.emit e).queues = s.queues := rfl
@[simp] theorem State.emit_uarts (s : State) (e : Emission) : (s.emit e).uarts = s.uarts := rfl
@[simp] theorem State.emit_banks (s : State) (e : Emission) : (s.emit e).banks = s.banks := rfl
@[simp] theorem State.emit_cells (s : State) (e : Emission) : (s.emit e).cells = s.cells := rfl
@[simp] theorem State.emit_rings (s : State) (e : Emission) : (s.emit e).rings = s.rings := rfl
@[simp] theorem State.emit_sticky (s : State) (e : Emission) : (s.emit e).sticky = s.sticky := rfl
@[simp] theorem State.emit_pbm (s : State) (e : Emission) : (s.emit e).pbm = s.pbm := rfl
@[simp] theorem State.emit_ttBucket (s : State) (e : Emission) : (s.emit e).ttBucket = s.ttBucket := rfl
@[simp] theorem State.emit_powerLinks (s : State) (e : Emission) : (s.emit e).powerLinks = s.powerLinks := rfl
@[simp] theorem State.emit_slots (s : State) (e : Emission) : (s.emit e).slots = s.slots := rfl
@[simp] theorem State.emit_chains (s : State) (e : Emission) : (s.emit e).chains = s.chains := rfl
@[simp] theorem State.emit_vbus (s : State) (e : Emission) : (s.emit e).vbus = s.vbus := rfl

/-! ## emits -/

@[simp] theorem State.emits_wire (s : State) (es : List Emission) : (s.emits es).wire = s.wire ++ es := rfl
@[simp] theorem State.emits_pending (s : State) (es : List Emission) : (s.emits es).pending = s.pending := rfl
@[simp] theorem State.emits_freeCount (s : State) (es : List Emission) : (s.emits es).freeCount = s.freeCount := rfl
@[simp] theorem State.emits_mode (s : State) (es : List Emission) : (s.emits es).mode = s.mode := rfl
@[simp] theorem State.emits_sessions (s : State) (es : List Emission) : (s.emits es).sessions = s.sessions := rfl
@[simp] theorem State.emits_mailboxes (s : State) (es : List Emission) : (s.emits es).mailboxes = s.mailboxes := rfl
@[simp] theorem State.emits_smbus (s : State) (es : List Emission) : (s.emits es).smbus = s.smbus := rfl
@[simp] theorem State.emits_alertEnable (s : State) (es : List Emission) : (s.emits es).alertEnable = s.alertEnable := rfl
@[simp] theorem State.emits_heldEvents (s : State) (es : List Emission) : (s.emits es).heldEvents = s.heldEvents := rfl
@[simp] theorem State.emits_arrivals (s : State) (es : List Emission) : (s.emits es).arrivals = s.arrivals := rfl
@[simp] theorem State.emits_fw (s : State) (es : List Emission) : (s.emits es).fw = s.fw := rfl
@[simp] theorem State.emits_fault (s : State) (es : List Emission) : (s.emits es).fault = s.fault := rfl
@[simp] theorem State.emits_partOf (s : State) (es : List Emission) : (s.emits es).partOf = s.partOf := rfl
@[simp] theorem State.emits_posOf (s : State) (es : List Emission) : (s.emits es).posOf = s.posOf := rfl
@[simp] theorem State.emits_domains (s : State) (es : List Emission) : (s.emits es).domains = s.domains := rfl
@[simp] theorem State.emits_ports (s : State) (es : List Emission) : (s.emits es).ports = s.ports := rfl
@[simp] theorem State.emits_parts (s : State) (es : List Emission) : (s.emits es).parts = s.parts := rfl
@[simp] theorem State.emits_ssTree (s : State) (es : List Emission) : (s.emits es).ssTree = s.ssTree := rfl
@[simp] theorem State.emits_u2Tree (s : State) (es : List Emission) : (s.emits es).u2Tree = s.u2Tree := rfl
@[simp] theorem State.emits_mfs (s : State) (es : List Emission) : (s.emits es).mfs = s.mfs := rfl
@[simp] theorem State.emits_ups (s : State) (es : List Emission) : (s.emits es).ups = s.ups := rfl
@[simp] theorem State.emits_lift (s : State) (es : List Emission) : (s.emits es).lift = s.lift := rfl
@[simp] theorem State.emits_microframe (s : State) (es : List Emission) : (s.emits es).microframe = s.microframe := rfl
@[simp] theorem State.emits_modeCfg (s : State) (es : List Emission) : (s.emits es).modeCfg = s.modeCfg := rfl
@[simp] theorem State.emits_origin (s : State) (es : List Emission) : (s.emits es).origin = s.origin := rfl
@[simp] theorem State.emits_cause (s : State) (es : List Emission) : (s.emits es).cause = s.cause := rfl
@[simp] theorem State.emits_detail (s : State) (es : List Emission) : (s.emits es).detail = s.detail := rfl
@[simp] theorem State.emits_aonUp (s : State) (es : List Emission) : (s.emits es).aonUp = s.aonUp := rfl
@[simp] theorem State.emits_testmode (s : State) (es : List Emission) : (s.emits es).testmode = s.testmode := rfl
@[simp] theorem State.emits_board (s : State) (es : List Emission) : (s.emits es).board = s.board := rfl
@[simp] theorem State.emits_wrstLow (s : State) (es : List Emission) : (s.emits es).wrstLow = s.wrstLow := rfl
@[simp] theorem State.emits_trans (s : State) (es : List Emission) : (s.emits es).trans = s.trans := rfl
@[simp] theorem State.emits_arrival (s : State) (es : List Emission) : (s.emits es).arrival = s.arrival := rfl
@[simp] theorem State.emits_queue (s : State) (es : List Emission) : (s.emits es).queue = s.queue := rfl
@[simp] theorem State.emits_back (s : State) (es : List Emission) : (s.emits es).back = s.back := rfl
@[simp] theorem State.emits_eve (s : State) (es : List Emission) : (s.emits es).eve = s.eve := rfl
@[simp] theorem State.emits_entries (s : State) (es : List Emission) : (s.emits es).entries = s.entries := rfl
@[simp] theorem State.emits_aborts (s : State) (es : List Emission) : (s.emits es).aborts = s.aborts := rfl
@[simp] theorem State.emits_exiting (s : State) (es : List Emission) : (s.emits es).exiting = s.exiting := rfl
@[simp] theorem State.emits_sensors (s : State) (es : List Emission) : (s.emits es).sensors = s.sensors := rfl
@[simp] theorem State.emits_rails (s : State) (es : List Emission) : (s.emits es).rails = s.rails := rfl
@[simp] theorem State.emits_avs (s : State) (es : List Emission) : (s.emits es).avs = s.avs := rfl
@[simp] theorem State.emits_clocks (s : State) (es : List Emission) : (s.emits es).clocks = s.clocks := rfl
@[simp] theorem State.emits_alarms (s : State) (es : List Emission) : (s.emits es).alarms = s.alarms := rfl
@[simp] theorem State.emits_portLinks (s : State) (es : List Emission) : (s.emits es).portLinks = s.portLinks := rfl
@[simp] theorem State.emits_tap (s : State) (es : List Emission) : (s.emits es).tap = s.tap := rfl
@[simp] theorem State.emits_scan (s : State) (es : List Emission) : (s.emits es).scan = s.scan := rfl
@[simp] theorem State.emits_diag (s : State) (es : List Emission) : (s.emits es).diag = s.diag := rfl
@[simp] theorem State.emits_vendorId (s : State) (es : List Emission) : (s.emits es).vendorId = s.vendorId := rfl
@[simp] theorem State.emits_pd (s : State) (es : List Emission) : (s.emits es).pd = s.pd := rfl
@[simp] theorem State.emits_queues (s : State) (es : List Emission) : (s.emits es).queues = s.queues := rfl
@[simp] theorem State.emits_uarts (s : State) (es : List Emission) : (s.emits es).uarts = s.uarts := rfl
@[simp] theorem State.emits_banks (s : State) (es : List Emission) : (s.emits es).banks = s.banks := rfl
@[simp] theorem State.emits_cells (s : State) (es : List Emission) : (s.emits es).cells = s.cells := rfl
@[simp] theorem State.emits_rings (s : State) (es : List Emission) : (s.emits es).rings = s.rings := rfl
@[simp] theorem State.emits_sticky (s : State) (es : List Emission) : (s.emits es).sticky = s.sticky := rfl
@[simp] theorem State.emits_pbm (s : State) (es : List Emission) : (s.emits es).pbm = s.pbm := rfl
@[simp] theorem State.emits_ttBucket (s : State) (es : List Emission) : (s.emits es).ttBucket = s.ttBucket := rfl
@[simp] theorem State.emits_powerLinks (s : State) (es : List Emission) : (s.emits es).powerLinks = s.powerLinks := rfl
@[simp] theorem State.emits_slots (s : State) (es : List Emission) : (s.emits es).slots = s.slots := rfl
@[simp] theorem State.emits_chains (s : State) (es : List Emission) : (s.emits es).chains = s.chains := rfl
@[simp] theorem State.emits_vbus (s : State) (es : List Emission) : (s.emits es).vbus = s.vbus := rfl

/-! ## tick -/

@[simp] theorem State.tick_freeCount (s : State) : s.tick.freeCount = s.freeCount + 1 := rfl
@[simp] theorem State.tick_pending (s : State) : s.tick.pending = s.pending := rfl
@[simp] theorem State.tick_wire (s : State) : s.tick.wire = s.wire := rfl
@[simp] theorem State.tick_mode (s : State) : s.tick.mode = s.mode := rfl
@[simp] theorem State.tick_sessions (s : State) : s.tick.sessions = s.sessions := rfl
@[simp] theorem State.tick_mailboxes (s : State) : s.tick.mailboxes = s.mailboxes := rfl
@[simp] theorem State.tick_smbus (s : State) : s.tick.smbus = s.smbus := rfl
@[simp] theorem State.tick_alertEnable (s : State) : s.tick.alertEnable = s.alertEnable := rfl
@[simp] theorem State.tick_heldEvents (s : State) : s.tick.heldEvents = s.heldEvents := rfl
@[simp] theorem State.tick_arrivals (s : State) : s.tick.arrivals = s.arrivals := rfl
@[simp] theorem State.tick_fw (s : State) : s.tick.fw = s.fw := rfl
@[simp] theorem State.tick_fault (s : State) : s.tick.fault = s.fault := rfl
@[simp] theorem State.tick_partOf (s : State) : s.tick.partOf = s.partOf := rfl
@[simp] theorem State.tick_posOf (s : State) : s.tick.posOf = s.posOf := rfl
@[simp] theorem State.tick_domains (s : State) : s.tick.domains = s.domains := rfl
@[simp] theorem State.tick_ports (s : State) : s.tick.ports = s.ports := rfl
@[simp] theorem State.tick_parts (s : State) : s.tick.parts = s.parts := rfl
@[simp] theorem State.tick_ssTree (s : State) : s.tick.ssTree = s.ssTree := rfl
@[simp] theorem State.tick_u2Tree (s : State) : s.tick.u2Tree = s.u2Tree := rfl
@[simp] theorem State.tick_mfs (s : State) : s.tick.mfs = s.mfs := rfl
@[simp] theorem State.tick_ups (s : State) : s.tick.ups = s.ups := rfl
@[simp] theorem State.tick_lift (s : State) : s.tick.lift = s.lift := rfl
@[simp] theorem State.tick_microframe (s : State) : s.tick.microframe = s.microframe := rfl
@[simp] theorem State.tick_modeCfg (s : State) : s.tick.modeCfg = s.modeCfg := rfl
@[simp] theorem State.tick_origin (s : State) : s.tick.origin = s.origin := rfl
@[simp] theorem State.tick_cause (s : State) : s.tick.cause = s.cause := rfl
@[simp] theorem State.tick_detail (s : State) : s.tick.detail = s.detail := rfl
@[simp] theorem State.tick_aonUp (s : State) : s.tick.aonUp = s.aonUp := rfl
@[simp] theorem State.tick_testmode (s : State) : s.tick.testmode = s.testmode := rfl
@[simp] theorem State.tick_board (s : State) : s.tick.board = s.board := rfl
@[simp] theorem State.tick_wrstLow (s : State) : s.tick.wrstLow = s.wrstLow := rfl
@[simp] theorem State.tick_trans (s : State) : s.tick.trans = s.trans := rfl
@[simp] theorem State.tick_arrival (s : State) : s.tick.arrival = s.arrival := rfl
@[simp] theorem State.tick_queue (s : State) : s.tick.queue = s.queue := rfl
@[simp] theorem State.tick_back (s : State) : s.tick.back = s.back := rfl
@[simp] theorem State.tick_eve (s : State) : s.tick.eve = s.eve := rfl
@[simp] theorem State.tick_entries (s : State) : s.tick.entries = s.entries := rfl
@[simp] theorem State.tick_aborts (s : State) : s.tick.aborts = s.aborts := rfl
@[simp] theorem State.tick_exiting (s : State) : s.tick.exiting = s.exiting := rfl
@[simp] theorem State.tick_sensors (s : State) : s.tick.sensors = s.sensors := rfl
@[simp] theorem State.tick_rails (s : State) : s.tick.rails = s.rails := rfl
@[simp] theorem State.tick_avs (s : State) : s.tick.avs = s.avs := rfl
@[simp] theorem State.tick_clocks (s : State) : s.tick.clocks = s.clocks := rfl
@[simp] theorem State.tick_alarms (s : State) : s.tick.alarms = s.alarms := rfl
@[simp] theorem State.tick_portLinks (s : State) : s.tick.portLinks = s.portLinks := rfl
@[simp] theorem State.tick_tap (s : State) : s.tick.tap = s.tap := rfl
@[simp] theorem State.tick_scan (s : State) : s.tick.scan = s.scan := rfl
@[simp] theorem State.tick_diag (s : State) : s.tick.diag = s.diag := rfl
@[simp] theorem State.tick_vendorId (s : State) : s.tick.vendorId = s.vendorId := rfl
@[simp] theorem State.tick_pd (s : State) : s.tick.pd = s.pd := rfl
@[simp] theorem State.tick_queues (s : State) : s.tick.queues = s.queues := rfl
@[simp] theorem State.tick_uarts (s : State) : s.tick.uarts = s.uarts := rfl
@[simp] theorem State.tick_banks (s : State) : s.tick.banks = s.banks := rfl
@[simp] theorem State.tick_cells (s : State) : s.tick.cells = s.cells := rfl
@[simp] theorem State.tick_rings (s : State) : s.tick.rings = s.rings := rfl
@[simp] theorem State.tick_sticky (s : State) : s.tick.sticky = s.sticky := rfl
@[simp] theorem State.tick_pbm (s : State) : s.tick.pbm = s.pbm := rfl
@[simp] theorem State.tick_ttBucket (s : State) : s.tick.ttBucket = s.ttBucket := rfl
@[simp] theorem State.tick_powerLinks (s : State) : s.tick.powerLinks = s.powerLinks := rfl
@[simp] theorem State.tick_slots (s : State) : s.tick.slots = s.slots := rfl
@[simp] theorem State.tick_chains (s : State) : s.tick.chains = s.chains := rfl
@[simp] theorem State.tick_vbus (s : State) : s.tick.vbus = s.vbus := rfl

/-! ## report -/

@[simp] theorem State.report_fault (s : State) (d : Detection) : (s.report d).fault.inbox = s.fault.inbox ++ [d] := rfl
@[simp] theorem State.report_pending (s : State) (d : Detection) : (s.report d).pending = s.pending := rfl
@[simp] theorem State.report_wire (s : State) (d : Detection) : (s.report d).wire = s.wire := rfl
@[simp] theorem State.report_freeCount (s : State) (d : Detection) : (s.report d).freeCount = s.freeCount := rfl
@[simp] theorem State.report_mode (s : State) (d : Detection) : (s.report d).mode = s.mode := rfl
@[simp] theorem State.report_sessions (s : State) (d : Detection) : (s.report d).sessions = s.sessions := rfl
@[simp] theorem State.report_mailboxes (s : State) (d : Detection) : (s.report d).mailboxes = s.mailboxes := rfl
@[simp] theorem State.report_smbus (s : State) (d : Detection) : (s.report d).smbus = s.smbus := rfl
@[simp] theorem State.report_alertEnable (s : State) (d : Detection) : (s.report d).alertEnable = s.alertEnable := rfl
@[simp] theorem State.report_heldEvents (s : State) (d : Detection) : (s.report d).heldEvents = s.heldEvents := rfl
@[simp] theorem State.report_arrivals (s : State) (d : Detection) : (s.report d).arrivals = s.arrivals := rfl
@[simp] theorem State.report_fw (s : State) (d : Detection) : (s.report d).fw = s.fw := rfl
@[simp] theorem State.report_partOf (s : State) (d : Detection) : (s.report d).partOf = s.partOf := rfl
@[simp] theorem State.report_posOf (s : State) (d : Detection) : (s.report d).posOf = s.posOf := rfl
@[simp] theorem State.report_domains (s : State) (d : Detection) : (s.report d).domains = s.domains := rfl
@[simp] theorem State.report_ports (s : State) (d : Detection) : (s.report d).ports = s.ports := rfl
@[simp] theorem State.report_parts (s : State) (d : Detection) : (s.report d).parts = s.parts := rfl
@[simp] theorem State.report_ssTree (s : State) (d : Detection) : (s.report d).ssTree = s.ssTree := rfl
@[simp] theorem State.report_u2Tree (s : State) (d : Detection) : (s.report d).u2Tree = s.u2Tree := rfl
@[simp] theorem State.report_mfs (s : State) (d : Detection) : (s.report d).mfs = s.mfs := rfl
@[simp] theorem State.report_ups (s : State) (d : Detection) : (s.report d).ups = s.ups := rfl
@[simp] theorem State.report_lift (s : State) (d : Detection) : (s.report d).lift = s.lift := rfl
@[simp] theorem State.report_microframe (s : State) (d : Detection) : (s.report d).microframe = s.microframe := rfl
@[simp] theorem State.report_modeCfg (s : State) (d : Detection) : (s.report d).modeCfg = s.modeCfg := rfl
@[simp] theorem State.report_origin (s : State) (d : Detection) : (s.report d).origin = s.origin := rfl
@[simp] theorem State.report_cause (s : State) (d : Detection) : (s.report d).cause = s.cause := rfl
@[simp] theorem State.report_detail (s : State) (d : Detection) : (s.report d).detail = s.detail := rfl
@[simp] theorem State.report_aonUp (s : State) (d : Detection) : (s.report d).aonUp = s.aonUp := rfl
@[simp] theorem State.report_testmode (s : State) (d : Detection) : (s.report d).testmode = s.testmode := rfl
@[simp] theorem State.report_board (s : State) (d : Detection) : (s.report d).board = s.board := rfl
@[simp] theorem State.report_wrstLow (s : State) (d : Detection) : (s.report d).wrstLow = s.wrstLow := rfl
@[simp] theorem State.report_trans (s : State) (d : Detection) : (s.report d).trans = s.trans := rfl
@[simp] theorem State.report_arrival (s : State) (d : Detection) : (s.report d).arrival = s.arrival := rfl
@[simp] theorem State.report_queue (s : State) (d : Detection) : (s.report d).queue = s.queue := rfl
@[simp] theorem State.report_back (s : State) (d : Detection) : (s.report d).back = s.back := rfl
@[simp] theorem State.report_eve (s : State) (d : Detection) : (s.report d).eve = s.eve := rfl
@[simp] theorem State.report_entries (s : State) (d : Detection) : (s.report d).entries = s.entries := rfl
@[simp] theorem State.report_aborts (s : State) (d : Detection) : (s.report d).aborts = s.aborts := rfl
@[simp] theorem State.report_exiting (s : State) (d : Detection) : (s.report d).exiting = s.exiting := rfl
@[simp] theorem State.report_sensors (s : State) (d : Detection) : (s.report d).sensors = s.sensors := rfl
@[simp] theorem State.report_rails (s : State) (d : Detection) : (s.report d).rails = s.rails := rfl
@[simp] theorem State.report_avs (s : State) (d : Detection) : (s.report d).avs = s.avs := rfl
@[simp] theorem State.report_clocks (s : State) (d : Detection) : (s.report d).clocks = s.clocks := rfl
@[simp] theorem State.report_alarms (s : State) (d : Detection) : (s.report d).alarms = s.alarms := rfl
@[simp] theorem State.report_portLinks (s : State) (d : Detection) : (s.report d).portLinks = s.portLinks := rfl
@[simp] theorem State.report_tap (s : State) (d : Detection) : (s.report d).tap = s.tap := rfl
@[simp] theorem State.report_scan (s : State) (d : Detection) : (s.report d).scan = s.scan := rfl
@[simp] theorem State.report_diag (s : State) (d : Detection) : (s.report d).diag = s.diag := rfl
@[simp] theorem State.report_vendorId (s : State) (d : Detection) : (s.report d).vendorId = s.vendorId := rfl
@[simp] theorem State.report_pd (s : State) (d : Detection) : (s.report d).pd = s.pd := rfl
@[simp] theorem State.report_queues (s : State) (d : Detection) : (s.report d).queues = s.queues := rfl
@[simp] theorem State.report_uarts (s : State) (d : Detection) : (s.report d).uarts = s.uarts := rfl
@[simp] theorem State.report_banks (s : State) (d : Detection) : (s.report d).banks = s.banks := rfl
@[simp] theorem State.report_cells (s : State) (d : Detection) : (s.report d).cells = s.cells := rfl
@[simp] theorem State.report_rings (s : State) (d : Detection) : (s.report d).rings = s.rings := rfl
@[simp] theorem State.report_sticky (s : State) (d : Detection) : (s.report d).sticky = s.sticky := rfl
@[simp] theorem State.report_pbm (s : State) (d : Detection) : (s.report d).pbm = s.pbm := rfl
@[simp] theorem State.report_ttBucket (s : State) (d : Detection) : (s.report d).ttBucket = s.ttBucket := rfl
@[simp] theorem State.report_powerLinks (s : State) (d : Detection) : (s.report d).powerLinks = s.powerLinks := rfl
@[simp] theorem State.report_slots (s : State) (d : Detection) : (s.report d).slots = s.slots := rfl
@[simp] theorem State.report_chains (s : State) (d : Detection) : (s.report d).chains = s.chains := rfl
@[simp] theorem State.report_vbus (s : State) (d : Detection) : (s.report d).vbus = s.vbus := rfl

/-! ## detect -/

@[simp] theorem State.detect_pending (s : State) (source kind info : Nat) : (s.detect source kind info).pending = s.pending := rfl
@[simp] theorem State.detect_wire (s : State) (source kind info : Nat) : (s.detect source kind info).wire = s.wire := rfl
@[simp] theorem State.detect_freeCount (s : State) (source kind info : Nat) : (s.detect source kind info).freeCount = s.freeCount := rfl
@[simp] theorem State.detect_mode (s : State) (source kind info : Nat) : (s.detect source kind info).mode = s.mode := rfl
@[simp] theorem State.detect_sessions (s : State) (source kind info : Nat) : (s.detect source kind info).sessions = s.sessions := rfl
@[simp] theorem State.detect_mailboxes (s : State) (source kind info : Nat) : (s.detect source kind info).mailboxes = s.mailboxes := rfl
@[simp] theorem State.detect_smbus (s : State) (source kind info : Nat) : (s.detect source kind info).smbus = s.smbus := rfl
@[simp] theorem State.detect_alertEnable (s : State) (source kind info : Nat) : (s.detect source kind info).alertEnable = s.alertEnable := rfl
@[simp] theorem State.detect_heldEvents (s : State) (source kind info : Nat) : (s.detect source kind info).heldEvents = s.heldEvents := rfl
@[simp] theorem State.detect_arrivals (s : State) (source kind info : Nat) : (s.detect source kind info).arrivals = s.arrivals := rfl
@[simp] theorem State.detect_fw (s : State) (source kind info : Nat) : (s.detect source kind info).fw = s.fw := rfl
@[simp] theorem State.detect_partOf (s : State) (source kind info : Nat) : (s.detect source kind info).partOf = s.partOf := rfl
@[simp] theorem State.detect_posOf (s : State) (source kind info : Nat) : (s.detect source kind info).posOf = s.posOf := rfl
@[simp] theorem State.detect_domains (s : State) (source kind info : Nat) : (s.detect source kind info).domains = s.domains := rfl
@[simp] theorem State.detect_ports (s : State) (source kind info : Nat) : (s.detect source kind info).ports = s.ports := rfl
@[simp] theorem State.detect_parts (s : State) (source kind info : Nat) : (s.detect source kind info).parts = s.parts := rfl
@[simp] theorem State.detect_ssTree (s : State) (source kind info : Nat) : (s.detect source kind info).ssTree = s.ssTree := rfl
@[simp] theorem State.detect_u2Tree (s : State) (source kind info : Nat) : (s.detect source kind info).u2Tree = s.u2Tree := rfl
@[simp] theorem State.detect_mfs (s : State) (source kind info : Nat) : (s.detect source kind info).mfs = s.mfs := rfl
@[simp] theorem State.detect_ups (s : State) (source kind info : Nat) : (s.detect source kind info).ups = s.ups := rfl
@[simp] theorem State.detect_lift (s : State) (source kind info : Nat) : (s.detect source kind info).lift = s.lift := rfl
@[simp] theorem State.detect_microframe (s : State) (source kind info : Nat) : (s.detect source kind info).microframe = s.microframe := rfl
@[simp] theorem State.detect_modeCfg (s : State) (source kind info : Nat) : (s.detect source kind info).modeCfg = s.modeCfg := rfl
@[simp] theorem State.detect_origin (s : State) (source kind info : Nat) : (s.detect source kind info).origin = s.origin := rfl
@[simp] theorem State.detect_cause (s : State) (source kind info : Nat) : (s.detect source kind info).cause = s.cause := rfl
@[simp] theorem State.detect_detail (s : State) (source kind info : Nat) : (s.detect source kind info).detail = s.detail := rfl
@[simp] theorem State.detect_aonUp (s : State) (source kind info : Nat) : (s.detect source kind info).aonUp = s.aonUp := rfl
@[simp] theorem State.detect_testmode (s : State) (source kind info : Nat) : (s.detect source kind info).testmode = s.testmode := rfl
@[simp] theorem State.detect_board (s : State) (source kind info : Nat) : (s.detect source kind info).board = s.board := rfl
@[simp] theorem State.detect_wrstLow (s : State) (source kind info : Nat) : (s.detect source kind info).wrstLow = s.wrstLow := rfl
@[simp] theorem State.detect_trans (s : State) (source kind info : Nat) : (s.detect source kind info).trans = s.trans := rfl
@[simp] theorem State.detect_arrival (s : State) (source kind info : Nat) : (s.detect source kind info).arrival = s.arrival := rfl
@[simp] theorem State.detect_queue (s : State) (source kind info : Nat) : (s.detect source kind info).queue = s.queue := rfl
@[simp] theorem State.detect_back (s : State) (source kind info : Nat) : (s.detect source kind info).back = s.back := rfl
@[simp] theorem State.detect_eve (s : State) (source kind info : Nat) : (s.detect source kind info).eve = s.eve := rfl
@[simp] theorem State.detect_entries (s : State) (source kind info : Nat) : (s.detect source kind info).entries = s.entries := rfl
@[simp] theorem State.detect_aborts (s : State) (source kind info : Nat) : (s.detect source kind info).aborts = s.aborts := rfl
@[simp] theorem State.detect_exiting (s : State) (source kind info : Nat) : (s.detect source kind info).exiting = s.exiting := rfl
@[simp] theorem State.detect_sensors (s : State) (source kind info : Nat) : (s.detect source kind info).sensors = s.sensors := rfl
@[simp] theorem State.detect_rails (s : State) (source kind info : Nat) : (s.detect source kind info).rails = s.rails := rfl
@[simp] theorem State.detect_avs (s : State) (source kind info : Nat) : (s.detect source kind info).avs = s.avs := rfl
@[simp] theorem State.detect_clocks (s : State) (source kind info : Nat) : (s.detect source kind info).clocks = s.clocks := rfl
@[simp] theorem State.detect_alarms (s : State) (source kind info : Nat) : (s.detect source kind info).alarms = s.alarms := rfl
@[simp] theorem State.detect_portLinks (s : State) (source kind info : Nat) : (s.detect source kind info).portLinks = s.portLinks := rfl
@[simp] theorem State.detect_tap (s : State) (source kind info : Nat) : (s.detect source kind info).tap = s.tap := rfl
@[simp] theorem State.detect_scan (s : State) (source kind info : Nat) : (s.detect source kind info).scan = s.scan := rfl
@[simp] theorem State.detect_diag (s : State) (source kind info : Nat) : (s.detect source kind info).diag = s.diag := rfl
@[simp] theorem State.detect_vendorId (s : State) (source kind info : Nat) : (s.detect source kind info).vendorId = s.vendorId := rfl
@[simp] theorem State.detect_pd (s : State) (source kind info : Nat) : (s.detect source kind info).pd = s.pd := rfl
@[simp] theorem State.detect_queues (s : State) (source kind info : Nat) : (s.detect source kind info).queues = s.queues := rfl
@[simp] theorem State.detect_uarts (s : State) (source kind info : Nat) : (s.detect source kind info).uarts = s.uarts := rfl
@[simp] theorem State.detect_banks (s : State) (source kind info : Nat) : (s.detect source kind info).banks = s.banks := rfl
@[simp] theorem State.detect_cells (s : State) (source kind info : Nat) : (s.detect source kind info).cells = s.cells := rfl
@[simp] theorem State.detect_rings (s : State) (source kind info : Nat) : (s.detect source kind info).rings = s.rings := rfl
@[simp] theorem State.detect_sticky (s : State) (source kind info : Nat) : (s.detect source kind info).sticky = s.sticky := rfl
@[simp] theorem State.detect_pbm (s : State) (source kind info : Nat) : (s.detect source kind info).pbm = s.pbm := rfl
@[simp] theorem State.detect_ttBucket (s : State) (source kind info : Nat) : (s.detect source kind info).ttBucket = s.ttBucket := rfl
@[simp] theorem State.detect_powerLinks (s : State) (source kind info : Nat) : (s.detect source kind info).powerLinks = s.powerLinks := rfl
@[simp] theorem State.detect_slots (s : State) (source kind info : Nat) : (s.detect source kind info).slots = s.slots := rfl
@[simp] theorem State.detect_chains (s : State) (source kind info : Nat) : (s.detect source kind info).chains = s.chains := rfl
@[simp] theorem State.detect_vbus (s : State) (source kind info : Nat) : (s.detect source kind info).vbus = s.vbus := rfl

/-! ## updSession -/

@[simp] theorem State.updSession_sessions (s : State) (i : Sess) (f : Session → Session) : (s.updSession i f).sessions = s.sessions.upd i f := rfl
@[simp] theorem State.updSession_pending (s : State) (i : Sess) (f : Session → Session) : (s.updSession i f).pending = s.pending := rfl
@[simp] theorem State.updSession_wire (s : State) (i : Sess) (f : Session → Session) : (s.updSession i f).wire = s.wire := rfl
@[simp] theorem State.updSession_freeCount (s : State) (i : Sess) (f : Session → Session) : (s.updSession i f).freeCount = s.freeCount := rfl
@[simp] theorem State.updSession_mode (s : State) (i : Sess) (f : Session → Session) : (s.updSession i f).mode = s.mode := rfl
@[simp] theorem State.updSession_mailboxes (s : State) (i : Sess) (f : Session → Session) : (s.updSession i f).mailboxes = s.mailboxes := rfl
@[simp] theorem State.updSession_smbus (s : State) (i : Sess) (f : Session → Session) : (s.updSession i f).smbus = s.smbus := rfl
@[simp] theorem State.updSession_alertEnable (s : State) (i : Sess) (f : Session → Session) : (s.updSession i f).alertEnable = s.alertEnable := rfl
@[simp] theorem State.updSession_heldEvents (s : State) (i : Sess) (f : Session → Session) : (s.updSession i f).heldEvents = s.heldEvents := rfl
@[simp] theorem State.updSession_arrivals (s : State) (i : Sess) (f : Session → Session) : (s.updSession i f).arrivals = s.arrivals := rfl
@[simp] theorem State.updSession_fw (s : State) (i : Sess) (f : Session → Session) : (s.updSession i f).fw = s.fw := rfl
@[simp] theorem State.updSession_fault (s : State) (i : Sess) (f : Session → Session) : (s.updSession i f).fault = s.fault := rfl
@[simp] theorem State.updSession_partOf (s : State) (i : Sess) (f : Session → Session) : (s.updSession i f).partOf = s.partOf := rfl
@[simp] theorem State.updSession_posOf (s : State) (i : Sess) (f : Session → Session) : (s.updSession i f).posOf = s.posOf := rfl
@[simp] theorem State.updSession_domains (s : State) (i : Sess) (f : Session → Session) : (s.updSession i f).domains = s.domains := rfl
@[simp] theorem State.updSession_ports (s : State) (i : Sess) (f : Session → Session) : (s.updSession i f).ports = s.ports := rfl
@[simp] theorem State.updSession_parts (s : State) (i : Sess) (f : Session → Session) : (s.updSession i f).parts = s.parts := rfl
@[simp] theorem State.updSession_ssTree (s : State) (i : Sess) (f : Session → Session) : (s.updSession i f).ssTree = s.ssTree := rfl
@[simp] theorem State.updSession_u2Tree (s : State) (i : Sess) (f : Session → Session) : (s.updSession i f).u2Tree = s.u2Tree := rfl
@[simp] theorem State.updSession_mfs (s : State) (i : Sess) (f : Session → Session) : (s.updSession i f).mfs = s.mfs := rfl
@[simp] theorem State.updSession_ups (s : State) (i : Sess) (f : Session → Session) : (s.updSession i f).ups = s.ups := rfl
@[simp] theorem State.updSession_lift (s : State) (i : Sess) (f : Session → Session) : (s.updSession i f).lift = s.lift := rfl
@[simp] theorem State.updSession_microframe (s : State) (i : Sess) (f : Session → Session) : (s.updSession i f).microframe = s.microframe := rfl
@[simp] theorem State.updSession_modeCfg (s : State) (i : Sess) (f : Session → Session) : (s.updSession i f).modeCfg = s.modeCfg := rfl
@[simp] theorem State.updSession_origin (s : State) (i : Sess) (f : Session → Session) : (s.updSession i f).origin = s.origin := rfl
@[simp] theorem State.updSession_cause (s : State) (i : Sess) (f : Session → Session) : (s.updSession i f).cause = s.cause := rfl
@[simp] theorem State.updSession_detail (s : State) (i : Sess) (f : Session → Session) : (s.updSession i f).detail = s.detail := rfl
@[simp] theorem State.updSession_aonUp (s : State) (i : Sess) (f : Session → Session) : (s.updSession i f).aonUp = s.aonUp := rfl
@[simp] theorem State.updSession_testmode (s : State) (i : Sess) (f : Session → Session) : (s.updSession i f).testmode = s.testmode := rfl
@[simp] theorem State.updSession_board (s : State) (i : Sess) (f : Session → Session) : (s.updSession i f).board = s.board := rfl
@[simp] theorem State.updSession_wrstLow (s : State) (i : Sess) (f : Session → Session) : (s.updSession i f).wrstLow = s.wrstLow := rfl
@[simp] theorem State.updSession_trans (s : State) (i : Sess) (f : Session → Session) : (s.updSession i f).trans = s.trans := rfl
@[simp] theorem State.updSession_arrival (s : State) (i : Sess) (f : Session → Session) : (s.updSession i f).arrival = s.arrival := rfl
@[simp] theorem State.updSession_queue (s : State) (i : Sess) (f : Session → Session) : (s.updSession i f).queue = s.queue := rfl
@[simp] theorem State.updSession_back (s : State) (i : Sess) (f : Session → Session) : (s.updSession i f).back = s.back := rfl
@[simp] theorem State.updSession_eve (s : State) (i : Sess) (f : Session → Session) : (s.updSession i f).eve = s.eve := rfl
@[simp] theorem State.updSession_entries (s : State) (i : Sess) (f : Session → Session) : (s.updSession i f).entries = s.entries := rfl
@[simp] theorem State.updSession_aborts (s : State) (i : Sess) (f : Session → Session) : (s.updSession i f).aborts = s.aborts := rfl
@[simp] theorem State.updSession_exiting (s : State) (i : Sess) (f : Session → Session) : (s.updSession i f).exiting = s.exiting := rfl
@[simp] theorem State.updSession_sensors (s : State) (i : Sess) (f : Session → Session) : (s.updSession i f).sensors = s.sensors := rfl
@[simp] theorem State.updSession_rails (s : State) (i : Sess) (f : Session → Session) : (s.updSession i f).rails = s.rails := rfl
@[simp] theorem State.updSession_avs (s : State) (i : Sess) (f : Session → Session) : (s.updSession i f).avs = s.avs := rfl
@[simp] theorem State.updSession_clocks (s : State) (i : Sess) (f : Session → Session) : (s.updSession i f).clocks = s.clocks := rfl
@[simp] theorem State.updSession_alarms (s : State) (i : Sess) (f : Session → Session) : (s.updSession i f).alarms = s.alarms := rfl
@[simp] theorem State.updSession_portLinks (s : State) (i : Sess) (f : Session → Session) : (s.updSession i f).portLinks = s.portLinks := rfl
@[simp] theorem State.updSession_tap (s : State) (i : Sess) (f : Session → Session) : (s.updSession i f).tap = s.tap := rfl
@[simp] theorem State.updSession_scan (s : State) (i : Sess) (f : Session → Session) : (s.updSession i f).scan = s.scan := rfl
@[simp] theorem State.updSession_diag (s : State) (i : Sess) (f : Session → Session) : (s.updSession i f).diag = s.diag := rfl
@[simp] theorem State.updSession_vendorId (s : State) (i : Sess) (f : Session → Session) : (s.updSession i f).vendorId = s.vendorId := rfl
@[simp] theorem State.updSession_pd (s : State) (i : Sess) (f : Session → Session) : (s.updSession i f).pd = s.pd := rfl
@[simp] theorem State.updSession_queues (s : State) (i : Sess) (f : Session → Session) : (s.updSession i f).queues = s.queues := rfl
@[simp] theorem State.updSession_uarts (s : State) (i : Sess) (f : Session → Session) : (s.updSession i f).uarts = s.uarts := rfl
@[simp] theorem State.updSession_banks (s : State) (i : Sess) (f : Session → Session) : (s.updSession i f).banks = s.banks := rfl
@[simp] theorem State.updSession_cells (s : State) (i : Sess) (f : Session → Session) : (s.updSession i f).cells = s.cells := rfl
@[simp] theorem State.updSession_rings (s : State) (i : Sess) (f : Session → Session) : (s.updSession i f).rings = s.rings := rfl
@[simp] theorem State.updSession_sticky (s : State) (i : Sess) (f : Session → Session) : (s.updSession i f).sticky = s.sticky := rfl
@[simp] theorem State.updSession_pbm (s : State) (i : Sess) (f : Session → Session) : (s.updSession i f).pbm = s.pbm := rfl
@[simp] theorem State.updSession_ttBucket (s : State) (i : Sess) (f : Session → Session) : (s.updSession i f).ttBucket = s.ttBucket := rfl
@[simp] theorem State.updSession_powerLinks (s : State) (i : Sess) (f : Session → Session) : (s.updSession i f).powerLinks = s.powerLinks := rfl
@[simp] theorem State.updSession_slots (s : State) (i : Sess) (f : Session → Session) : (s.updSession i f).slots = s.slots := rfl
@[simp] theorem State.updSession_chains (s : State) (i : Sess) (f : Session → Session) : (s.updSession i f).chains = s.chains := rfl
@[simp] theorem State.updSession_vbus (s : State) (i : Sess) (f : Session → Session) : (s.updSession i f).vbus = s.vbus := rfl

/-! ## updMbox -/

@[simp] theorem State.updMbox_mailboxes (s : State) (m : Mbox) (f : Mailbox → Mailbox) : (s.updMbox m f).mailboxes = s.mailboxes.upd m f := rfl
@[simp] theorem State.updMbox_pending (s : State) (m : Mbox) (f : Mailbox → Mailbox) : (s.updMbox m f).pending = s.pending := rfl
@[simp] theorem State.updMbox_wire (s : State) (m : Mbox) (f : Mailbox → Mailbox) : (s.updMbox m f).wire = s.wire := rfl
@[simp] theorem State.updMbox_freeCount (s : State) (m : Mbox) (f : Mailbox → Mailbox) : (s.updMbox m f).freeCount = s.freeCount := rfl
@[simp] theorem State.updMbox_mode (s : State) (m : Mbox) (f : Mailbox → Mailbox) : (s.updMbox m f).mode = s.mode := rfl
@[simp] theorem State.updMbox_sessions (s : State) (m : Mbox) (f : Mailbox → Mailbox) : (s.updMbox m f).sessions = s.sessions := rfl
@[simp] theorem State.updMbox_smbus (s : State) (m : Mbox) (f : Mailbox → Mailbox) : (s.updMbox m f).smbus = s.smbus := rfl
@[simp] theorem State.updMbox_alertEnable (s : State) (m : Mbox) (f : Mailbox → Mailbox) : (s.updMbox m f).alertEnable = s.alertEnable := rfl
@[simp] theorem State.updMbox_heldEvents (s : State) (m : Mbox) (f : Mailbox → Mailbox) : (s.updMbox m f).heldEvents = s.heldEvents := rfl
@[simp] theorem State.updMbox_arrivals (s : State) (m : Mbox) (f : Mailbox → Mailbox) : (s.updMbox m f).arrivals = s.arrivals := rfl
@[simp] theorem State.updMbox_fw (s : State) (m : Mbox) (f : Mailbox → Mailbox) : (s.updMbox m f).fw = s.fw := rfl
@[simp] theorem State.updMbox_fault (s : State) (m : Mbox) (f : Mailbox → Mailbox) : (s.updMbox m f).fault = s.fault := rfl
@[simp] theorem State.updMbox_partOf (s : State) (m : Mbox) (f : Mailbox → Mailbox) : (s.updMbox m f).partOf = s.partOf := rfl
@[simp] theorem State.updMbox_posOf (s : State) (m : Mbox) (f : Mailbox → Mailbox) : (s.updMbox m f).posOf = s.posOf := rfl
@[simp] theorem State.updMbox_domains (s : State) (m : Mbox) (f : Mailbox → Mailbox) : (s.updMbox m f).domains = s.domains := rfl
@[simp] theorem State.updMbox_ports (s : State) (m : Mbox) (f : Mailbox → Mailbox) : (s.updMbox m f).ports = s.ports := rfl
@[simp] theorem State.updMbox_parts (s : State) (m : Mbox) (f : Mailbox → Mailbox) : (s.updMbox m f).parts = s.parts := rfl
@[simp] theorem State.updMbox_ssTree (s : State) (m : Mbox) (f : Mailbox → Mailbox) : (s.updMbox m f).ssTree = s.ssTree := rfl
@[simp] theorem State.updMbox_u2Tree (s : State) (m : Mbox) (f : Mailbox → Mailbox) : (s.updMbox m f).u2Tree = s.u2Tree := rfl
@[simp] theorem State.updMbox_mfs (s : State) (m : Mbox) (f : Mailbox → Mailbox) : (s.updMbox m f).mfs = s.mfs := rfl
@[simp] theorem State.updMbox_ups (s : State) (m : Mbox) (f : Mailbox → Mailbox) : (s.updMbox m f).ups = s.ups := rfl
@[simp] theorem State.updMbox_lift (s : State) (m : Mbox) (f : Mailbox → Mailbox) : (s.updMbox m f).lift = s.lift := rfl
@[simp] theorem State.updMbox_microframe (s : State) (m : Mbox) (f : Mailbox → Mailbox) : (s.updMbox m f).microframe = s.microframe := rfl
@[simp] theorem State.updMbox_modeCfg (s : State) (m : Mbox) (f : Mailbox → Mailbox) : (s.updMbox m f).modeCfg = s.modeCfg := rfl
@[simp] theorem State.updMbox_origin (s : State) (m : Mbox) (f : Mailbox → Mailbox) : (s.updMbox m f).origin = s.origin := rfl
@[simp] theorem State.updMbox_cause (s : State) (m : Mbox) (f : Mailbox → Mailbox) : (s.updMbox m f).cause = s.cause := rfl
@[simp] theorem State.updMbox_detail (s : State) (m : Mbox) (f : Mailbox → Mailbox) : (s.updMbox m f).detail = s.detail := rfl
@[simp] theorem State.updMbox_aonUp (s : State) (m : Mbox) (f : Mailbox → Mailbox) : (s.updMbox m f).aonUp = s.aonUp := rfl
@[simp] theorem State.updMbox_testmode (s : State) (m : Mbox) (f : Mailbox → Mailbox) : (s.updMbox m f).testmode = s.testmode := rfl
@[simp] theorem State.updMbox_board (s : State) (m : Mbox) (f : Mailbox → Mailbox) : (s.updMbox m f).board = s.board := rfl
@[simp] theorem State.updMbox_wrstLow (s : State) (m : Mbox) (f : Mailbox → Mailbox) : (s.updMbox m f).wrstLow = s.wrstLow := rfl
@[simp] theorem State.updMbox_trans (s : State) (m : Mbox) (f : Mailbox → Mailbox) : (s.updMbox m f).trans = s.trans := rfl
@[simp] theorem State.updMbox_arrival (s : State) (m : Mbox) (f : Mailbox → Mailbox) : (s.updMbox m f).arrival = s.arrival := rfl
@[simp] theorem State.updMbox_queue (s : State) (m : Mbox) (f : Mailbox → Mailbox) : (s.updMbox m f).queue = s.queue := rfl
@[simp] theorem State.updMbox_back (s : State) (m : Mbox) (f : Mailbox → Mailbox) : (s.updMbox m f).back = s.back := rfl
@[simp] theorem State.updMbox_eve (s : State) (m : Mbox) (f : Mailbox → Mailbox) : (s.updMbox m f).eve = s.eve := rfl
@[simp] theorem State.updMbox_entries (s : State) (m : Mbox) (f : Mailbox → Mailbox) : (s.updMbox m f).entries = s.entries := rfl
@[simp] theorem State.updMbox_aborts (s : State) (m : Mbox) (f : Mailbox → Mailbox) : (s.updMbox m f).aborts = s.aborts := rfl
@[simp] theorem State.updMbox_exiting (s : State) (m : Mbox) (f : Mailbox → Mailbox) : (s.updMbox m f).exiting = s.exiting := rfl
@[simp] theorem State.updMbox_sensors (s : State) (m : Mbox) (f : Mailbox → Mailbox) : (s.updMbox m f).sensors = s.sensors := rfl
@[simp] theorem State.updMbox_rails (s : State) (m : Mbox) (f : Mailbox → Mailbox) : (s.updMbox m f).rails = s.rails := rfl
@[simp] theorem State.updMbox_avs (s : State) (m : Mbox) (f : Mailbox → Mailbox) : (s.updMbox m f).avs = s.avs := rfl
@[simp] theorem State.updMbox_clocks (s : State) (m : Mbox) (f : Mailbox → Mailbox) : (s.updMbox m f).clocks = s.clocks := rfl
@[simp] theorem State.updMbox_alarms (s : State) (m : Mbox) (f : Mailbox → Mailbox) : (s.updMbox m f).alarms = s.alarms := rfl
@[simp] theorem State.updMbox_portLinks (s : State) (m : Mbox) (f : Mailbox → Mailbox) : (s.updMbox m f).portLinks = s.portLinks := rfl
@[simp] theorem State.updMbox_tap (s : State) (m : Mbox) (f : Mailbox → Mailbox) : (s.updMbox m f).tap = s.tap := rfl
@[simp] theorem State.updMbox_scan (s : State) (m : Mbox) (f : Mailbox → Mailbox) : (s.updMbox m f).scan = s.scan := rfl
@[simp] theorem State.updMbox_diag (s : State) (m : Mbox) (f : Mailbox → Mailbox) : (s.updMbox m f).diag = s.diag := rfl
@[simp] theorem State.updMbox_vendorId (s : State) (m : Mbox) (f : Mailbox → Mailbox) : (s.updMbox m f).vendorId = s.vendorId := rfl
@[simp] theorem State.updMbox_pd (s : State) (m : Mbox) (f : Mailbox → Mailbox) : (s.updMbox m f).pd = s.pd := rfl
@[simp] theorem State.updMbox_queues (s : State) (m : Mbox) (f : Mailbox → Mailbox) : (s.updMbox m f).queues = s.queues := rfl
@[simp] theorem State.updMbox_uarts (s : State) (m : Mbox) (f : Mailbox → Mailbox) : (s.updMbox m f).uarts = s.uarts := rfl
@[simp] theorem State.updMbox_banks (s : State) (m : Mbox) (f : Mailbox → Mailbox) : (s.updMbox m f).banks = s.banks := rfl
@[simp] theorem State.updMbox_cells (s : State) (m : Mbox) (f : Mailbox → Mailbox) : (s.updMbox m f).cells = s.cells := rfl
@[simp] theorem State.updMbox_rings (s : State) (m : Mbox) (f : Mailbox → Mailbox) : (s.updMbox m f).rings = s.rings := rfl
@[simp] theorem State.updMbox_sticky (s : State) (m : Mbox) (f : Mailbox → Mailbox) : (s.updMbox m f).sticky = s.sticky := rfl
@[simp] theorem State.updMbox_pbm (s : State) (m : Mbox) (f : Mailbox → Mailbox) : (s.updMbox m f).pbm = s.pbm := rfl
@[simp] theorem State.updMbox_ttBucket (s : State) (m : Mbox) (f : Mailbox → Mailbox) : (s.updMbox m f).ttBucket = s.ttBucket := rfl
@[simp] theorem State.updMbox_powerLinks (s : State) (m : Mbox) (f : Mailbox → Mailbox) : (s.updMbox m f).powerLinks = s.powerLinks := rfl
@[simp] theorem State.updMbox_slots (s : State) (m : Mbox) (f : Mailbox → Mailbox) : (s.updMbox m f).slots = s.slots := rfl
@[simp] theorem State.updMbox_chains (s : State) (m : Mbox) (f : Mailbox → Mailbox) : (s.updMbox m f).chains = s.chains := rfl
@[simp] theorem State.updMbox_vbus (s : State) (m : Mbox) (f : Mailbox → Mailbox) : (s.updMbox m f).vbus = s.vbus := rfl

/-! ## updFw -/

@[simp] theorem State.updFw_fw (s : State) (f : FirmwareState → FirmwareState) : (s.updFw f).fw = f s.fw := rfl
@[simp] theorem State.updFw_pending (s : State) (f : FirmwareState → FirmwareState) : (s.updFw f).pending = s.pending := rfl
@[simp] theorem State.updFw_wire (s : State) (f : FirmwareState → FirmwareState) : (s.updFw f).wire = s.wire := rfl
@[simp] theorem State.updFw_freeCount (s : State) (f : FirmwareState → FirmwareState) : (s.updFw f).freeCount = s.freeCount := rfl
@[simp] theorem State.updFw_mode (s : State) (f : FirmwareState → FirmwareState) : (s.updFw f).mode = s.mode := rfl
@[simp] theorem State.updFw_sessions (s : State) (f : FirmwareState → FirmwareState) : (s.updFw f).sessions = s.sessions := rfl
@[simp] theorem State.updFw_mailboxes (s : State) (f : FirmwareState → FirmwareState) : (s.updFw f).mailboxes = s.mailboxes := rfl
@[simp] theorem State.updFw_smbus (s : State) (f : FirmwareState → FirmwareState) : (s.updFw f).smbus = s.smbus := rfl
@[simp] theorem State.updFw_alertEnable (s : State) (f : FirmwareState → FirmwareState) : (s.updFw f).alertEnable = s.alertEnable := rfl
@[simp] theorem State.updFw_heldEvents (s : State) (f : FirmwareState → FirmwareState) : (s.updFw f).heldEvents = s.heldEvents := rfl
@[simp] theorem State.updFw_arrivals (s : State) (f : FirmwareState → FirmwareState) : (s.updFw f).arrivals = s.arrivals := rfl
@[simp] theorem State.updFw_fault (s : State) (f : FirmwareState → FirmwareState) : (s.updFw f).fault = s.fault := rfl
@[simp] theorem State.updFw_partOf (s : State) (f : FirmwareState → FirmwareState) : (s.updFw f).partOf = s.partOf := rfl
@[simp] theorem State.updFw_posOf (s : State) (f : FirmwareState → FirmwareState) : (s.updFw f).posOf = s.posOf := rfl
@[simp] theorem State.updFw_domains (s : State) (f : FirmwareState → FirmwareState) : (s.updFw f).domains = s.domains := rfl
@[simp] theorem State.updFw_ports (s : State) (f : FirmwareState → FirmwareState) : (s.updFw f).ports = s.ports := rfl
@[simp] theorem State.updFw_parts (s : State) (f : FirmwareState → FirmwareState) : (s.updFw f).parts = s.parts := rfl
@[simp] theorem State.updFw_ssTree (s : State) (f : FirmwareState → FirmwareState) : (s.updFw f).ssTree = s.ssTree := rfl
@[simp] theorem State.updFw_u2Tree (s : State) (f : FirmwareState → FirmwareState) : (s.updFw f).u2Tree = s.u2Tree := rfl
@[simp] theorem State.updFw_mfs (s : State) (f : FirmwareState → FirmwareState) : (s.updFw f).mfs = s.mfs := rfl
@[simp] theorem State.updFw_ups (s : State) (f : FirmwareState → FirmwareState) : (s.updFw f).ups = s.ups := rfl
@[simp] theorem State.updFw_lift (s : State) (f : FirmwareState → FirmwareState) : (s.updFw f).lift = s.lift := rfl
@[simp] theorem State.updFw_microframe (s : State) (f : FirmwareState → FirmwareState) : (s.updFw f).microframe = s.microframe := rfl
@[simp] theorem State.updFw_modeCfg (s : State) (f : FirmwareState → FirmwareState) : (s.updFw f).modeCfg = s.modeCfg := rfl
@[simp] theorem State.updFw_origin (s : State) (f : FirmwareState → FirmwareState) : (s.updFw f).origin = s.origin := rfl
@[simp] theorem State.updFw_cause (s : State) (f : FirmwareState → FirmwareState) : (s.updFw f).cause = s.cause := rfl
@[simp] theorem State.updFw_detail (s : State) (f : FirmwareState → FirmwareState) : (s.updFw f).detail = s.detail := rfl
@[simp] theorem State.updFw_aonUp (s : State) (f : FirmwareState → FirmwareState) : (s.updFw f).aonUp = s.aonUp := rfl
@[simp] theorem State.updFw_testmode (s : State) (f : FirmwareState → FirmwareState) : (s.updFw f).testmode = s.testmode := rfl
@[simp] theorem State.updFw_board (s : State) (f : FirmwareState → FirmwareState) : (s.updFw f).board = s.board := rfl
@[simp] theorem State.updFw_wrstLow (s : State) (f : FirmwareState → FirmwareState) : (s.updFw f).wrstLow = s.wrstLow := rfl
@[simp] theorem State.updFw_trans (s : State) (f : FirmwareState → FirmwareState) : (s.updFw f).trans = s.trans := rfl
@[simp] theorem State.updFw_arrival (s : State) (f : FirmwareState → FirmwareState) : (s.updFw f).arrival = s.arrival := rfl
@[simp] theorem State.updFw_queue (s : State) (f : FirmwareState → FirmwareState) : (s.updFw f).queue = s.queue := rfl
@[simp] theorem State.updFw_back (s : State) (f : FirmwareState → FirmwareState) : (s.updFw f).back = s.back := rfl
@[simp] theorem State.updFw_eve (s : State) (f : FirmwareState → FirmwareState) : (s.updFw f).eve = s.eve := rfl
@[simp] theorem State.updFw_entries (s : State) (f : FirmwareState → FirmwareState) : (s.updFw f).entries = s.entries := rfl
@[simp] theorem State.updFw_aborts (s : State) (f : FirmwareState → FirmwareState) : (s.updFw f).aborts = s.aborts := rfl
@[simp] theorem State.updFw_exiting (s : State) (f : FirmwareState → FirmwareState) : (s.updFw f).exiting = s.exiting := rfl
@[simp] theorem State.updFw_sensors (s : State) (f : FirmwareState → FirmwareState) : (s.updFw f).sensors = s.sensors := rfl
@[simp] theorem State.updFw_rails (s : State) (f : FirmwareState → FirmwareState) : (s.updFw f).rails = s.rails := rfl
@[simp] theorem State.updFw_avs (s : State) (f : FirmwareState → FirmwareState) : (s.updFw f).avs = s.avs := rfl
@[simp] theorem State.updFw_clocks (s : State) (f : FirmwareState → FirmwareState) : (s.updFw f).clocks = s.clocks := rfl
@[simp] theorem State.updFw_alarms (s : State) (f : FirmwareState → FirmwareState) : (s.updFw f).alarms = s.alarms := rfl
@[simp] theorem State.updFw_portLinks (s : State) (f : FirmwareState → FirmwareState) : (s.updFw f).portLinks = s.portLinks := rfl
@[simp] theorem State.updFw_tap (s : State) (f : FirmwareState → FirmwareState) : (s.updFw f).tap = s.tap := rfl
@[simp] theorem State.updFw_scan (s : State) (f : FirmwareState → FirmwareState) : (s.updFw f).scan = s.scan := rfl
@[simp] theorem State.updFw_diag (s : State) (f : FirmwareState → FirmwareState) : (s.updFw f).diag = s.diag := rfl
@[simp] theorem State.updFw_vendorId (s : State) (f : FirmwareState → FirmwareState) : (s.updFw f).vendorId = s.vendorId := rfl
@[simp] theorem State.updFw_pd (s : State) (f : FirmwareState → FirmwareState) : (s.updFw f).pd = s.pd := rfl
@[simp] theorem State.updFw_queues (s : State) (f : FirmwareState → FirmwareState) : (s.updFw f).queues = s.queues := rfl
@[simp] theorem State.updFw_uarts (s : State) (f : FirmwareState → FirmwareState) : (s.updFw f).uarts = s.uarts := rfl
@[simp] theorem State.updFw_banks (s : State) (f : FirmwareState → FirmwareState) : (s.updFw f).banks = s.banks := rfl
@[simp] theorem State.updFw_cells (s : State) (f : FirmwareState → FirmwareState) : (s.updFw f).cells = s.cells := rfl
@[simp] theorem State.updFw_rings (s : State) (f : FirmwareState → FirmwareState) : (s.updFw f).rings = s.rings := rfl
@[simp] theorem State.updFw_sticky (s : State) (f : FirmwareState → FirmwareState) : (s.updFw f).sticky = s.sticky := rfl
@[simp] theorem State.updFw_pbm (s : State) (f : FirmwareState → FirmwareState) : (s.updFw f).pbm = s.pbm := rfl
@[simp] theorem State.updFw_ttBucket (s : State) (f : FirmwareState → FirmwareState) : (s.updFw f).ttBucket = s.ttBucket := rfl
@[simp] theorem State.updFw_powerLinks (s : State) (f : FirmwareState → FirmwareState) : (s.updFw f).powerLinks = s.powerLinks := rfl
@[simp] theorem State.updFw_slots (s : State) (f : FirmwareState → FirmwareState) : (s.updFw f).slots = s.slots := rfl
@[simp] theorem State.updFw_chains (s : State) (f : FirmwareState → FirmwareState) : (s.updFw f).chains = s.chains := rfl
@[simp] theorem State.updFw_vbus (s : State) (f : FirmwareState → FirmwareState) : (s.updFw f).vbus = s.vbus := rfl

/-! ## updFault -/

@[simp] theorem State.updFault_fault (s : State) (f : FaultState → FaultState) : (s.updFault f).fault = f s.fault := rfl
@[simp] theorem State.updFault_pending (s : State) (f : FaultState → FaultState) : (s.updFault f).pending = s.pending := rfl
@[simp] theorem State.updFault_wire (s : State) (f : FaultState → FaultState) : (s.updFault f).wire = s.wire := rfl
@[simp] theorem State.updFault_freeCount (s : State) (f : FaultState → FaultState) : (s.updFault f).freeCount = s.freeCount := rfl
@[simp] theorem State.updFault_mode (s : State) (f : FaultState → FaultState) : (s.updFault f).mode = s.mode := rfl
@[simp] theorem State.updFault_sessions (s : State) (f : FaultState → FaultState) : (s.updFault f).sessions = s.sessions := rfl
@[simp] theorem State.updFault_mailboxes (s : State) (f : FaultState → FaultState) : (s.updFault f).mailboxes = s.mailboxes := rfl
@[simp] theorem State.updFault_smbus (s : State) (f : FaultState → FaultState) : (s.updFault f).smbus = s.smbus := rfl
@[simp] theorem State.updFault_alertEnable (s : State) (f : FaultState → FaultState) : (s.updFault f).alertEnable = s.alertEnable := rfl
@[simp] theorem State.updFault_heldEvents (s : State) (f : FaultState → FaultState) : (s.updFault f).heldEvents = s.heldEvents := rfl
@[simp] theorem State.updFault_arrivals (s : State) (f : FaultState → FaultState) : (s.updFault f).arrivals = s.arrivals := rfl
@[simp] theorem State.updFault_fw (s : State) (f : FaultState → FaultState) : (s.updFault f).fw = s.fw := rfl
@[simp] theorem State.updFault_partOf (s : State) (f : FaultState → FaultState) : (s.updFault f).partOf = s.partOf := rfl
@[simp] theorem State.updFault_posOf (s : State) (f : FaultState → FaultState) : (s.updFault f).posOf = s.posOf := rfl
@[simp] theorem State.updFault_domains (s : State) (f : FaultState → FaultState) : (s.updFault f).domains = s.domains := rfl
@[simp] theorem State.updFault_ports (s : State) (f : FaultState → FaultState) : (s.updFault f).ports = s.ports := rfl
@[simp] theorem State.updFault_parts (s : State) (f : FaultState → FaultState) : (s.updFault f).parts = s.parts := rfl
@[simp] theorem State.updFault_ssTree (s : State) (f : FaultState → FaultState) : (s.updFault f).ssTree = s.ssTree := rfl
@[simp] theorem State.updFault_u2Tree (s : State) (f : FaultState → FaultState) : (s.updFault f).u2Tree = s.u2Tree := rfl
@[simp] theorem State.updFault_mfs (s : State) (f : FaultState → FaultState) : (s.updFault f).mfs = s.mfs := rfl
@[simp] theorem State.updFault_ups (s : State) (f : FaultState → FaultState) : (s.updFault f).ups = s.ups := rfl
@[simp] theorem State.updFault_lift (s : State) (f : FaultState → FaultState) : (s.updFault f).lift = s.lift := rfl
@[simp] theorem State.updFault_microframe (s : State) (f : FaultState → FaultState) : (s.updFault f).microframe = s.microframe := rfl
@[simp] theorem State.updFault_modeCfg (s : State) (f : FaultState → FaultState) : (s.updFault f).modeCfg = s.modeCfg := rfl
@[simp] theorem State.updFault_origin (s : State) (f : FaultState → FaultState) : (s.updFault f).origin = s.origin := rfl
@[simp] theorem State.updFault_cause (s : State) (f : FaultState → FaultState) : (s.updFault f).cause = s.cause := rfl
@[simp] theorem State.updFault_detail (s : State) (f : FaultState → FaultState) : (s.updFault f).detail = s.detail := rfl
@[simp] theorem State.updFault_aonUp (s : State) (f : FaultState → FaultState) : (s.updFault f).aonUp = s.aonUp := rfl
@[simp] theorem State.updFault_testmode (s : State) (f : FaultState → FaultState) : (s.updFault f).testmode = s.testmode := rfl
@[simp] theorem State.updFault_board (s : State) (f : FaultState → FaultState) : (s.updFault f).board = s.board := rfl
@[simp] theorem State.updFault_wrstLow (s : State) (f : FaultState → FaultState) : (s.updFault f).wrstLow = s.wrstLow := rfl
@[simp] theorem State.updFault_trans (s : State) (f : FaultState → FaultState) : (s.updFault f).trans = s.trans := rfl
@[simp] theorem State.updFault_arrival (s : State) (f : FaultState → FaultState) : (s.updFault f).arrival = s.arrival := rfl
@[simp] theorem State.updFault_queue (s : State) (f : FaultState → FaultState) : (s.updFault f).queue = s.queue := rfl
@[simp] theorem State.updFault_back (s : State) (f : FaultState → FaultState) : (s.updFault f).back = s.back := rfl
@[simp] theorem State.updFault_eve (s : State) (f : FaultState → FaultState) : (s.updFault f).eve = s.eve := rfl
@[simp] theorem State.updFault_entries (s : State) (f : FaultState → FaultState) : (s.updFault f).entries = s.entries := rfl
@[simp] theorem State.updFault_aborts (s : State) (f : FaultState → FaultState) : (s.updFault f).aborts = s.aborts := rfl
@[simp] theorem State.updFault_exiting (s : State) (f : FaultState → FaultState) : (s.updFault f).exiting = s.exiting := rfl
@[simp] theorem State.updFault_sensors (s : State) (f : FaultState → FaultState) : (s.updFault f).sensors = s.sensors := rfl
@[simp] theorem State.updFault_rails (s : State) (f : FaultState → FaultState) : (s.updFault f).rails = s.rails := rfl
@[simp] theorem State.updFault_avs (s : State) (f : FaultState → FaultState) : (s.updFault f).avs = s.avs := rfl
@[simp] theorem State.updFault_clocks (s : State) (f : FaultState → FaultState) : (s.updFault f).clocks = s.clocks := rfl
@[simp] theorem State.updFault_alarms (s : State) (f : FaultState → FaultState) : (s.updFault f).alarms = s.alarms := rfl
@[simp] theorem State.updFault_portLinks (s : State) (f : FaultState → FaultState) : (s.updFault f).portLinks = s.portLinks := rfl
@[simp] theorem State.updFault_tap (s : State) (f : FaultState → FaultState) : (s.updFault f).tap = s.tap := rfl
@[simp] theorem State.updFault_scan (s : State) (f : FaultState → FaultState) : (s.updFault f).scan = s.scan := rfl
@[simp] theorem State.updFault_diag (s : State) (f : FaultState → FaultState) : (s.updFault f).diag = s.diag := rfl
@[simp] theorem State.updFault_vendorId (s : State) (f : FaultState → FaultState) : (s.updFault f).vendorId = s.vendorId := rfl
@[simp] theorem State.updFault_pd (s : State) (f : FaultState → FaultState) : (s.updFault f).pd = s.pd := rfl
@[simp] theorem State.updFault_queues (s : State) (f : FaultState → FaultState) : (s.updFault f).queues = s.queues := rfl
@[simp] theorem State.updFault_uarts (s : State) (f : FaultState → FaultState) : (s.updFault f).uarts = s.uarts := rfl
@[simp] theorem State.updFault_banks (s : State) (f : FaultState → FaultState) : (s.updFault f).banks = s.banks := rfl
@[simp] theorem State.updFault_cells (s : State) (f : FaultState → FaultState) : (s.updFault f).cells = s.cells := rfl
@[simp] theorem State.updFault_rings (s : State) (f : FaultState → FaultState) : (s.updFault f).rings = s.rings := rfl
@[simp] theorem State.updFault_sticky (s : State) (f : FaultState → FaultState) : (s.updFault f).sticky = s.sticky := rfl
@[simp] theorem State.updFault_pbm (s : State) (f : FaultState → FaultState) : (s.updFault f).pbm = s.pbm := rfl
@[simp] theorem State.updFault_ttBucket (s : State) (f : FaultState → FaultState) : (s.updFault f).ttBucket = s.ttBucket := rfl
@[simp] theorem State.updFault_powerLinks (s : State) (f : FaultState → FaultState) : (s.updFault f).powerLinks = s.powerLinks := rfl
@[simp] theorem State.updFault_slots (s : State) (f : FaultState → FaultState) : (s.updFault f).slots = s.slots := rfl
@[simp] theorem State.updFault_chains (s : State) (f : FaultState → FaultState) : (s.updFault f).chains = s.chains := rfl
@[simp] theorem State.updFault_vbus (s : State) (f : FaultState → FaultState) : (s.updFault f).vbus = s.vbus := rfl

/-! ## updPort -/

@[simp] theorem State.updPort_ports (s : State) (p : Port) (f : PortState → PortState) : (s.updPort p f).ports = s.ports.upd p f := rfl
@[simp] theorem State.updPort_pending (s : State) (p : Port) (f : PortState → PortState) : (s.updPort p f).pending = s.pending := rfl
@[simp] theorem State.updPort_wire (s : State) (p : Port) (f : PortState → PortState) : (s.updPort p f).wire = s.wire := rfl
@[simp] theorem State.updPort_freeCount (s : State) (p : Port) (f : PortState → PortState) : (s.updPort p f).freeCount = s.freeCount := rfl
@[simp] theorem State.updPort_mode (s : State) (p : Port) (f : PortState → PortState) : (s.updPort p f).mode = s.mode := rfl
@[simp] theorem State.updPort_sessions (s : State) (p : Port) (f : PortState → PortState) : (s.updPort p f).sessions = s.sessions := rfl
@[simp] theorem State.updPort_mailboxes (s : State) (p : Port) (f : PortState → PortState) : (s.updPort p f).mailboxes = s.mailboxes := rfl
@[simp] theorem State.updPort_smbus (s : State) (p : Port) (f : PortState → PortState) : (s.updPort p f).smbus = s.smbus := rfl
@[simp] theorem State.updPort_alertEnable (s : State) (p : Port) (f : PortState → PortState) : (s.updPort p f).alertEnable = s.alertEnable := rfl
@[simp] theorem State.updPort_heldEvents (s : State) (p : Port) (f : PortState → PortState) : (s.updPort p f).heldEvents = s.heldEvents := rfl
@[simp] theorem State.updPort_arrivals (s : State) (p : Port) (f : PortState → PortState) : (s.updPort p f).arrivals = s.arrivals := rfl
@[simp] theorem State.updPort_fw (s : State) (p : Port) (f : PortState → PortState) : (s.updPort p f).fw = s.fw := rfl
@[simp] theorem State.updPort_fault (s : State) (p : Port) (f : PortState → PortState) : (s.updPort p f).fault = s.fault := rfl
@[simp] theorem State.updPort_partOf (s : State) (p : Port) (f : PortState → PortState) : (s.updPort p f).partOf = s.partOf := rfl
@[simp] theorem State.updPort_posOf (s : State) (p : Port) (f : PortState → PortState) : (s.updPort p f).posOf = s.posOf := rfl
@[simp] theorem State.updPort_domains (s : State) (p : Port) (f : PortState → PortState) : (s.updPort p f).domains = s.domains := rfl
@[simp] theorem State.updPort_parts (s : State) (p : Port) (f : PortState → PortState) : (s.updPort p f).parts = s.parts := rfl
@[simp] theorem State.updPort_ssTree (s : State) (p : Port) (f : PortState → PortState) : (s.updPort p f).ssTree = s.ssTree := rfl
@[simp] theorem State.updPort_u2Tree (s : State) (p : Port) (f : PortState → PortState) : (s.updPort p f).u2Tree = s.u2Tree := rfl
@[simp] theorem State.updPort_mfs (s : State) (p : Port) (f : PortState → PortState) : (s.updPort p f).mfs = s.mfs := rfl
@[simp] theorem State.updPort_ups (s : State) (p : Port) (f : PortState → PortState) : (s.updPort p f).ups = s.ups := rfl
@[simp] theorem State.updPort_lift (s : State) (p : Port) (f : PortState → PortState) : (s.updPort p f).lift = s.lift := rfl
@[simp] theorem State.updPort_microframe (s : State) (p : Port) (f : PortState → PortState) : (s.updPort p f).microframe = s.microframe := rfl
@[simp] theorem State.updPort_modeCfg (s : State) (p : Port) (f : PortState → PortState) : (s.updPort p f).modeCfg = s.modeCfg := rfl
@[simp] theorem State.updPort_origin (s : State) (p : Port) (f : PortState → PortState) : (s.updPort p f).origin = s.origin := rfl
@[simp] theorem State.updPort_cause (s : State) (p : Port) (f : PortState → PortState) : (s.updPort p f).cause = s.cause := rfl
@[simp] theorem State.updPort_detail (s : State) (p : Port) (f : PortState → PortState) : (s.updPort p f).detail = s.detail := rfl
@[simp] theorem State.updPort_aonUp (s : State) (p : Port) (f : PortState → PortState) : (s.updPort p f).aonUp = s.aonUp := rfl
@[simp] theorem State.updPort_testmode (s : State) (p : Port) (f : PortState → PortState) : (s.updPort p f).testmode = s.testmode := rfl
@[simp] theorem State.updPort_board (s : State) (p : Port) (f : PortState → PortState) : (s.updPort p f).board = s.board := rfl
@[simp] theorem State.updPort_wrstLow (s : State) (p : Port) (f : PortState → PortState) : (s.updPort p f).wrstLow = s.wrstLow := rfl
@[simp] theorem State.updPort_trans (s : State) (p : Port) (f : PortState → PortState) : (s.updPort p f).trans = s.trans := rfl
@[simp] theorem State.updPort_arrival (s : State) (p : Port) (f : PortState → PortState) : (s.updPort p f).arrival = s.arrival := rfl
@[simp] theorem State.updPort_queue (s : State) (p : Port) (f : PortState → PortState) : (s.updPort p f).queue = s.queue := rfl
@[simp] theorem State.updPort_back (s : State) (p : Port) (f : PortState → PortState) : (s.updPort p f).back = s.back := rfl
@[simp] theorem State.updPort_eve (s : State) (p : Port) (f : PortState → PortState) : (s.updPort p f).eve = s.eve := rfl
@[simp] theorem State.updPort_entries (s : State) (p : Port) (f : PortState → PortState) : (s.updPort p f).entries = s.entries := rfl
@[simp] theorem State.updPort_aborts (s : State) (p : Port) (f : PortState → PortState) : (s.updPort p f).aborts = s.aborts := rfl
@[simp] theorem State.updPort_exiting (s : State) (p : Port) (f : PortState → PortState) : (s.updPort p f).exiting = s.exiting := rfl
@[simp] theorem State.updPort_sensors (s : State) (p : Port) (f : PortState → PortState) : (s.updPort p f).sensors = s.sensors := rfl
@[simp] theorem State.updPort_rails (s : State) (p : Port) (f : PortState → PortState) : (s.updPort p f).rails = s.rails := rfl
@[simp] theorem State.updPort_avs (s : State) (p : Port) (f : PortState → PortState) : (s.updPort p f).avs = s.avs := rfl
@[simp] theorem State.updPort_clocks (s : State) (p : Port) (f : PortState → PortState) : (s.updPort p f).clocks = s.clocks := rfl
@[simp] theorem State.updPort_alarms (s : State) (p : Port) (f : PortState → PortState) : (s.updPort p f).alarms = s.alarms := rfl
@[simp] theorem State.updPort_portLinks (s : State) (p : Port) (f : PortState → PortState) : (s.updPort p f).portLinks = s.portLinks := rfl
@[simp] theorem State.updPort_tap (s : State) (p : Port) (f : PortState → PortState) : (s.updPort p f).tap = s.tap := rfl
@[simp] theorem State.updPort_scan (s : State) (p : Port) (f : PortState → PortState) : (s.updPort p f).scan = s.scan := rfl
@[simp] theorem State.updPort_diag (s : State) (p : Port) (f : PortState → PortState) : (s.updPort p f).diag = s.diag := rfl
@[simp] theorem State.updPort_vendorId (s : State) (p : Port) (f : PortState → PortState) : (s.updPort p f).vendorId = s.vendorId := rfl
@[simp] theorem State.updPort_pd (s : State) (p : Port) (f : PortState → PortState) : (s.updPort p f).pd = s.pd := rfl
@[simp] theorem State.updPort_queues (s : State) (p : Port) (f : PortState → PortState) : (s.updPort p f).queues = s.queues := rfl
@[simp] theorem State.updPort_uarts (s : State) (p : Port) (f : PortState → PortState) : (s.updPort p f).uarts = s.uarts := rfl
@[simp] theorem State.updPort_banks (s : State) (p : Port) (f : PortState → PortState) : (s.updPort p f).banks = s.banks := rfl
@[simp] theorem State.updPort_cells (s : State) (p : Port) (f : PortState → PortState) : (s.updPort p f).cells = s.cells := rfl
@[simp] theorem State.updPort_rings (s : State) (p : Port) (f : PortState → PortState) : (s.updPort p f).rings = s.rings := rfl
@[simp] theorem State.updPort_sticky (s : State) (p : Port) (f : PortState → PortState) : (s.updPort p f).sticky = s.sticky := rfl
@[simp] theorem State.updPort_pbm (s : State) (p : Port) (f : PortState → PortState) : (s.updPort p f).pbm = s.pbm := rfl
@[simp] theorem State.updPort_ttBucket (s : State) (p : Port) (f : PortState → PortState) : (s.updPort p f).ttBucket = s.ttBucket := rfl
@[simp] theorem State.updPort_powerLinks (s : State) (p : Port) (f : PortState → PortState) : (s.updPort p f).powerLinks = s.powerLinks := rfl
@[simp] theorem State.updPort_slots (s : State) (p : Port) (f : PortState → PortState) : (s.updPort p f).slots = s.slots := rfl
@[simp] theorem State.updPort_chains (s : State) (p : Port) (f : PortState → PortState) : (s.updPort p f).chains = s.chains := rfl
@[simp] theorem State.updPort_vbus (s : State) (p : Port) (f : PortState → PortState) : (s.updPort p f).vbus = s.vbus := rfl

/-! ## updPart -/

@[simp] theorem State.updPart_parts (s : State) (k : Part) (f : PartState → PartState) : (s.updPart k f).parts = s.parts.upd k f := rfl
@[simp] theorem State.updPart_pending (s : State) (k : Part) (f : PartState → PartState) : (s.updPart k f).pending = s.pending := rfl
@[simp] theorem State.updPart_wire (s : State) (k : Part) (f : PartState → PartState) : (s.updPart k f).wire = s.wire := rfl
@[simp] theorem State.updPart_freeCount (s : State) (k : Part) (f : PartState → PartState) : (s.updPart k f).freeCount = s.freeCount := rfl
@[simp] theorem State.updPart_mode (s : State) (k : Part) (f : PartState → PartState) : (s.updPart k f).mode = s.mode := rfl
@[simp] theorem State.updPart_sessions (s : State) (k : Part) (f : PartState → PartState) : (s.updPart k f).sessions = s.sessions := rfl
@[simp] theorem State.updPart_mailboxes (s : State) (k : Part) (f : PartState → PartState) : (s.updPart k f).mailboxes = s.mailboxes := rfl
@[simp] theorem State.updPart_smbus (s : State) (k : Part) (f : PartState → PartState) : (s.updPart k f).smbus = s.smbus := rfl
@[simp] theorem State.updPart_alertEnable (s : State) (k : Part) (f : PartState → PartState) : (s.updPart k f).alertEnable = s.alertEnable := rfl
@[simp] theorem State.updPart_heldEvents (s : State) (k : Part) (f : PartState → PartState) : (s.updPart k f).heldEvents = s.heldEvents := rfl
@[simp] theorem State.updPart_arrivals (s : State) (k : Part) (f : PartState → PartState) : (s.updPart k f).arrivals = s.arrivals := rfl
@[simp] theorem State.updPart_fw (s : State) (k : Part) (f : PartState → PartState) : (s.updPart k f).fw = s.fw := rfl
@[simp] theorem State.updPart_fault (s : State) (k : Part) (f : PartState → PartState) : (s.updPart k f).fault = s.fault := rfl
@[simp] theorem State.updPart_partOf (s : State) (k : Part) (f : PartState → PartState) : (s.updPart k f).partOf = s.partOf := rfl
@[simp] theorem State.updPart_posOf (s : State) (k : Part) (f : PartState → PartState) : (s.updPart k f).posOf = s.posOf := rfl
@[simp] theorem State.updPart_domains (s : State) (k : Part) (f : PartState → PartState) : (s.updPart k f).domains = s.domains := rfl
@[simp] theorem State.updPart_ports (s : State) (k : Part) (f : PartState → PartState) : (s.updPart k f).ports = s.ports := rfl
@[simp] theorem State.updPart_ssTree (s : State) (k : Part) (f : PartState → PartState) : (s.updPart k f).ssTree = s.ssTree := rfl
@[simp] theorem State.updPart_u2Tree (s : State) (k : Part) (f : PartState → PartState) : (s.updPart k f).u2Tree = s.u2Tree := rfl
@[simp] theorem State.updPart_mfs (s : State) (k : Part) (f : PartState → PartState) : (s.updPart k f).mfs = s.mfs := rfl
@[simp] theorem State.updPart_ups (s : State) (k : Part) (f : PartState → PartState) : (s.updPart k f).ups = s.ups := rfl
@[simp] theorem State.updPart_lift (s : State) (k : Part) (f : PartState → PartState) : (s.updPart k f).lift = s.lift := rfl
@[simp] theorem State.updPart_microframe (s : State) (k : Part) (f : PartState → PartState) : (s.updPart k f).microframe = s.microframe := rfl
@[simp] theorem State.updPart_modeCfg (s : State) (k : Part) (f : PartState → PartState) : (s.updPart k f).modeCfg = s.modeCfg := rfl
@[simp] theorem State.updPart_origin (s : State) (k : Part) (f : PartState → PartState) : (s.updPart k f).origin = s.origin := rfl
@[simp] theorem State.updPart_cause (s : State) (k : Part) (f : PartState → PartState) : (s.updPart k f).cause = s.cause := rfl
@[simp] theorem State.updPart_detail (s : State) (k : Part) (f : PartState → PartState) : (s.updPart k f).detail = s.detail := rfl
@[simp] theorem State.updPart_aonUp (s : State) (k : Part) (f : PartState → PartState) : (s.updPart k f).aonUp = s.aonUp := rfl
@[simp] theorem State.updPart_testmode (s : State) (k : Part) (f : PartState → PartState) : (s.updPart k f).testmode = s.testmode := rfl
@[simp] theorem State.updPart_board (s : State) (k : Part) (f : PartState → PartState) : (s.updPart k f).board = s.board := rfl
@[simp] theorem State.updPart_wrstLow (s : State) (k : Part) (f : PartState → PartState) : (s.updPart k f).wrstLow = s.wrstLow := rfl
@[simp] theorem State.updPart_trans (s : State) (k : Part) (f : PartState → PartState) : (s.updPart k f).trans = s.trans := rfl
@[simp] theorem State.updPart_arrival (s : State) (k : Part) (f : PartState → PartState) : (s.updPart k f).arrival = s.arrival := rfl
@[simp] theorem State.updPart_queue (s : State) (k : Part) (f : PartState → PartState) : (s.updPart k f).queue = s.queue := rfl
@[simp] theorem State.updPart_back (s : State) (k : Part) (f : PartState → PartState) : (s.updPart k f).back = s.back := rfl
@[simp] theorem State.updPart_eve (s : State) (k : Part) (f : PartState → PartState) : (s.updPart k f).eve = s.eve := rfl
@[simp] theorem State.updPart_entries (s : State) (k : Part) (f : PartState → PartState) : (s.updPart k f).entries = s.entries := rfl
@[simp] theorem State.updPart_aborts (s : State) (k : Part) (f : PartState → PartState) : (s.updPart k f).aborts = s.aborts := rfl
@[simp] theorem State.updPart_exiting (s : State) (k : Part) (f : PartState → PartState) : (s.updPart k f).exiting = s.exiting := rfl
@[simp] theorem State.updPart_sensors (s : State) (k : Part) (f : PartState → PartState) : (s.updPart k f).sensors = s.sensors := rfl
@[simp] theorem State.updPart_rails (s : State) (k : Part) (f : PartState → PartState) : (s.updPart k f).rails = s.rails := rfl
@[simp] theorem State.updPart_avs (s : State) (k : Part) (f : PartState → PartState) : (s.updPart k f).avs = s.avs := rfl
@[simp] theorem State.updPart_clocks (s : State) (k : Part) (f : PartState → PartState) : (s.updPart k f).clocks = s.clocks := rfl
@[simp] theorem State.updPart_alarms (s : State) (k : Part) (f : PartState → PartState) : (s.updPart k f).alarms = s.alarms := rfl
@[simp] theorem State.updPart_portLinks (s : State) (k : Part) (f : PartState → PartState) : (s.updPart k f).portLinks = s.portLinks := rfl
@[simp] theorem State.updPart_tap (s : State) (k : Part) (f : PartState → PartState) : (s.updPart k f).tap = s.tap := rfl
@[simp] theorem State.updPart_scan (s : State) (k : Part) (f : PartState → PartState) : (s.updPart k f).scan = s.scan := rfl
@[simp] theorem State.updPart_diag (s : State) (k : Part) (f : PartState → PartState) : (s.updPart k f).diag = s.diag := rfl
@[simp] theorem State.updPart_vendorId (s : State) (k : Part) (f : PartState → PartState) : (s.updPart k f).vendorId = s.vendorId := rfl
@[simp] theorem State.updPart_pd (s : State) (k : Part) (f : PartState → PartState) : (s.updPart k f).pd = s.pd := rfl
@[simp] theorem State.updPart_queues (s : State) (k : Part) (f : PartState → PartState) : (s.updPart k f).queues = s.queues := rfl
@[simp] theorem State.updPart_uarts (s : State) (k : Part) (f : PartState → PartState) : (s.updPart k f).uarts = s.uarts := rfl
@[simp] theorem State.updPart_banks (s : State) (k : Part) (f : PartState → PartState) : (s.updPart k f).banks = s.banks := rfl
@[simp] theorem State.updPart_cells (s : State) (k : Part) (f : PartState → PartState) : (s.updPart k f).cells = s.cells := rfl
@[simp] theorem State.updPart_rings (s : State) (k : Part) (f : PartState → PartState) : (s.updPart k f).rings = s.rings := rfl
@[simp] theorem State.updPart_sticky (s : State) (k : Part) (f : PartState → PartState) : (s.updPart k f).sticky = s.sticky := rfl
@[simp] theorem State.updPart_pbm (s : State) (k : Part) (f : PartState → PartState) : (s.updPart k f).pbm = s.pbm := rfl
@[simp] theorem State.updPart_ttBucket (s : State) (k : Part) (f : PartState → PartState) : (s.updPart k f).ttBucket = s.ttBucket := rfl
@[simp] theorem State.updPart_powerLinks (s : State) (k : Part) (f : PartState → PartState) : (s.updPart k f).powerLinks = s.powerLinks := rfl
@[simp] theorem State.updPart_slots (s : State) (k : Part) (f : PartState → PartState) : (s.updPart k f).slots = s.slots := rfl
@[simp] theorem State.updPart_chains (s : State) (k : Part) (f : PartState → PartState) : (s.updPart k f).chains = s.chains := rfl
@[simp] theorem State.updPart_vbus (s : State) (k : Part) (f : PartState → PartState) : (s.updPart k f).vbus = s.vbus := rfl

/-! ## updUp -/

@[simp] theorem State.updUp_ups (s : State) (k : Part) (f : UpState → UpState) : (s.updUp k f).ups = s.ups.upd k f := rfl
@[simp] theorem State.updUp_pending (s : State) (k : Part) (f : UpState → UpState) : (s.updUp k f).pending = s.pending := rfl
@[simp] theorem State.updUp_wire (s : State) (k : Part) (f : UpState → UpState) : (s.updUp k f).wire = s.wire := rfl
@[simp] theorem State.updUp_freeCount (s : State) (k : Part) (f : UpState → UpState) : (s.updUp k f).freeCount = s.freeCount := rfl
@[simp] theorem State.updUp_mode (s : State) (k : Part) (f : UpState → UpState) : (s.updUp k f).mode = s.mode := rfl
@[simp] theorem State.updUp_sessions (s : State) (k : Part) (f : UpState → UpState) : (s.updUp k f).sessions = s.sessions := rfl
@[simp] theorem State.updUp_mailboxes (s : State) (k : Part) (f : UpState → UpState) : (s.updUp k f).mailboxes = s.mailboxes := rfl
@[simp] theorem State.updUp_smbus (s : State) (k : Part) (f : UpState → UpState) : (s.updUp k f).smbus = s.smbus := rfl
@[simp] theorem State.updUp_alertEnable (s : State) (k : Part) (f : UpState → UpState) : (s.updUp k f).alertEnable = s.alertEnable := rfl
@[simp] theorem State.updUp_heldEvents (s : State) (k : Part) (f : UpState → UpState) : (s.updUp k f).heldEvents = s.heldEvents := rfl
@[simp] theorem State.updUp_arrivals (s : State) (k : Part) (f : UpState → UpState) : (s.updUp k f).arrivals = s.arrivals := rfl
@[simp] theorem State.updUp_fw (s : State) (k : Part) (f : UpState → UpState) : (s.updUp k f).fw = s.fw := rfl
@[simp] theorem State.updUp_fault (s : State) (k : Part) (f : UpState → UpState) : (s.updUp k f).fault = s.fault := rfl
@[simp] theorem State.updUp_partOf (s : State) (k : Part) (f : UpState → UpState) : (s.updUp k f).partOf = s.partOf := rfl
@[simp] theorem State.updUp_posOf (s : State) (k : Part) (f : UpState → UpState) : (s.updUp k f).posOf = s.posOf := rfl
@[simp] theorem State.updUp_domains (s : State) (k : Part) (f : UpState → UpState) : (s.updUp k f).domains = s.domains := rfl
@[simp] theorem State.updUp_ports (s : State) (k : Part) (f : UpState → UpState) : (s.updUp k f).ports = s.ports := rfl
@[simp] theorem State.updUp_parts (s : State) (k : Part) (f : UpState → UpState) : (s.updUp k f).parts = s.parts := rfl
@[simp] theorem State.updUp_ssTree (s : State) (k : Part) (f : UpState → UpState) : (s.updUp k f).ssTree = s.ssTree := rfl
@[simp] theorem State.updUp_u2Tree (s : State) (k : Part) (f : UpState → UpState) : (s.updUp k f).u2Tree = s.u2Tree := rfl
@[simp] theorem State.updUp_mfs (s : State) (k : Part) (f : UpState → UpState) : (s.updUp k f).mfs = s.mfs := rfl
@[simp] theorem State.updUp_lift (s : State) (k : Part) (f : UpState → UpState) : (s.updUp k f).lift = s.lift := rfl
@[simp] theorem State.updUp_microframe (s : State) (k : Part) (f : UpState → UpState) : (s.updUp k f).microframe = s.microframe := rfl
@[simp] theorem State.updUp_modeCfg (s : State) (k : Part) (f : UpState → UpState) : (s.updUp k f).modeCfg = s.modeCfg := rfl
@[simp] theorem State.updUp_origin (s : State) (k : Part) (f : UpState → UpState) : (s.updUp k f).origin = s.origin := rfl
@[simp] theorem State.updUp_cause (s : State) (k : Part) (f : UpState → UpState) : (s.updUp k f).cause = s.cause := rfl
@[simp] theorem State.updUp_detail (s : State) (k : Part) (f : UpState → UpState) : (s.updUp k f).detail = s.detail := rfl
@[simp] theorem State.updUp_aonUp (s : State) (k : Part) (f : UpState → UpState) : (s.updUp k f).aonUp = s.aonUp := rfl
@[simp] theorem State.updUp_testmode (s : State) (k : Part) (f : UpState → UpState) : (s.updUp k f).testmode = s.testmode := rfl
@[simp] theorem State.updUp_board (s : State) (k : Part) (f : UpState → UpState) : (s.updUp k f).board = s.board := rfl
@[simp] theorem State.updUp_wrstLow (s : State) (k : Part) (f : UpState → UpState) : (s.updUp k f).wrstLow = s.wrstLow := rfl
@[simp] theorem State.updUp_trans (s : State) (k : Part) (f : UpState → UpState) : (s.updUp k f).trans = s.trans := rfl
@[simp] theorem State.updUp_arrival (s : State) (k : Part) (f : UpState → UpState) : (s.updUp k f).arrival = s.arrival := rfl
@[simp] theorem State.updUp_queue (s : State) (k : Part) (f : UpState → UpState) : (s.updUp k f).queue = s.queue := rfl
@[simp] theorem State.updUp_back (s : State) (k : Part) (f : UpState → UpState) : (s.updUp k f).back = s.back := rfl
@[simp] theorem State.updUp_eve (s : State) (k : Part) (f : UpState → UpState) : (s.updUp k f).eve = s.eve := rfl
@[simp] theorem State.updUp_entries (s : State) (k : Part) (f : UpState → UpState) : (s.updUp k f).entries = s.entries := rfl
@[simp] theorem State.updUp_aborts (s : State) (k : Part) (f : UpState → UpState) : (s.updUp k f).aborts = s.aborts := rfl
@[simp] theorem State.updUp_exiting (s : State) (k : Part) (f : UpState → UpState) : (s.updUp k f).exiting = s.exiting := rfl
@[simp] theorem State.updUp_sensors (s : State) (k : Part) (f : UpState → UpState) : (s.updUp k f).sensors = s.sensors := rfl
@[simp] theorem State.updUp_rails (s : State) (k : Part) (f : UpState → UpState) : (s.updUp k f).rails = s.rails := rfl
@[simp] theorem State.updUp_avs (s : State) (k : Part) (f : UpState → UpState) : (s.updUp k f).avs = s.avs := rfl
@[simp] theorem State.updUp_clocks (s : State) (k : Part) (f : UpState → UpState) : (s.updUp k f).clocks = s.clocks := rfl
@[simp] theorem State.updUp_alarms (s : State) (k : Part) (f : UpState → UpState) : (s.updUp k f).alarms = s.alarms := rfl
@[simp] theorem State.updUp_portLinks (s : State) (k : Part) (f : UpState → UpState) : (s.updUp k f).portLinks = s.portLinks := rfl
@[simp] theorem State.updUp_tap (s : State) (k : Part) (f : UpState → UpState) : (s.updUp k f).tap = s.tap := rfl
@[simp] theorem State.updUp_scan (s : State) (k : Part) (f : UpState → UpState) : (s.updUp k f).scan = s.scan := rfl
@[simp] theorem State.updUp_diag (s : State) (k : Part) (f : UpState → UpState) : (s.updUp k f).diag = s.diag := rfl
@[simp] theorem State.updUp_vendorId (s : State) (k : Part) (f : UpState → UpState) : (s.updUp k f).vendorId = s.vendorId := rfl
@[simp] theorem State.updUp_pd (s : State) (k : Part) (f : UpState → UpState) : (s.updUp k f).pd = s.pd := rfl
@[simp] theorem State.updUp_queues (s : State) (k : Part) (f : UpState → UpState) : (s.updUp k f).queues = s.queues := rfl
@[simp] theorem State.updUp_uarts (s : State) (k : Part) (f : UpState → UpState) : (s.updUp k f).uarts = s.uarts := rfl
@[simp] theorem State.updUp_banks (s : State) (k : Part) (f : UpState → UpState) : (s.updUp k f).banks = s.banks := rfl
@[simp] theorem State.updUp_cells (s : State) (k : Part) (f : UpState → UpState) : (s.updUp k f).cells = s.cells := rfl
@[simp] theorem State.updUp_rings (s : State) (k : Part) (f : UpState → UpState) : (s.updUp k f).rings = s.rings := rfl
@[simp] theorem State.updUp_sticky (s : State) (k : Part) (f : UpState → UpState) : (s.updUp k f).sticky = s.sticky := rfl
@[simp] theorem State.updUp_pbm (s : State) (k : Part) (f : UpState → UpState) : (s.updUp k f).pbm = s.pbm := rfl
@[simp] theorem State.updUp_ttBucket (s : State) (k : Part) (f : UpState → UpState) : (s.updUp k f).ttBucket = s.ttBucket := rfl
@[simp] theorem State.updUp_powerLinks (s : State) (k : Part) (f : UpState → UpState) : (s.updUp k f).powerLinks = s.powerLinks := rfl
@[simp] theorem State.updUp_slots (s : State) (k : Part) (f : UpState → UpState) : (s.updUp k f).slots = s.slots := rfl
@[simp] theorem State.updUp_chains (s : State) (k : Part) (f : UpState → UpState) : (s.updUp k f).chains = s.chains := rfl
@[simp] theorem State.updUp_vbus (s : State) (k : Part) (f : UpState → UpState) : (s.updUp k f).vbus = s.vbus := rfl

/-! ## updMf -/

@[simp] theorem State.updMf_mfs (s : State) (k : Part) (f : MfState → MfState) : (s.updMf k f).mfs = s.mfs.upd k f := rfl
@[simp] theorem State.updMf_pending (s : State) (k : Part) (f : MfState → MfState) : (s.updMf k f).pending = s.pending := rfl
@[simp] theorem State.updMf_wire (s : State) (k : Part) (f : MfState → MfState) : (s.updMf k f).wire = s.wire := rfl
@[simp] theorem State.updMf_freeCount (s : State) (k : Part) (f : MfState → MfState) : (s.updMf k f).freeCount = s.freeCount := rfl
@[simp] theorem State.updMf_mode (s : State) (k : Part) (f : MfState → MfState) : (s.updMf k f).mode = s.mode := rfl
@[simp] theorem State.updMf_sessions (s : State) (k : Part) (f : MfState → MfState) : (s.updMf k f).sessions = s.sessions := rfl
@[simp] theorem State.updMf_mailboxes (s : State) (k : Part) (f : MfState → MfState) : (s.updMf k f).mailboxes = s.mailboxes := rfl
@[simp] theorem State.updMf_smbus (s : State) (k : Part) (f : MfState → MfState) : (s.updMf k f).smbus = s.smbus := rfl
@[simp] theorem State.updMf_alertEnable (s : State) (k : Part) (f : MfState → MfState) : (s.updMf k f).alertEnable = s.alertEnable := rfl
@[simp] theorem State.updMf_heldEvents (s : State) (k : Part) (f : MfState → MfState) : (s.updMf k f).heldEvents = s.heldEvents := rfl
@[simp] theorem State.updMf_arrivals (s : State) (k : Part) (f : MfState → MfState) : (s.updMf k f).arrivals = s.arrivals := rfl
@[simp] theorem State.updMf_fw (s : State) (k : Part) (f : MfState → MfState) : (s.updMf k f).fw = s.fw := rfl
@[simp] theorem State.updMf_fault (s : State) (k : Part) (f : MfState → MfState) : (s.updMf k f).fault = s.fault := rfl
@[simp] theorem State.updMf_partOf (s : State) (k : Part) (f : MfState → MfState) : (s.updMf k f).partOf = s.partOf := rfl
@[simp] theorem State.updMf_posOf (s : State) (k : Part) (f : MfState → MfState) : (s.updMf k f).posOf = s.posOf := rfl
@[simp] theorem State.updMf_domains (s : State) (k : Part) (f : MfState → MfState) : (s.updMf k f).domains = s.domains := rfl
@[simp] theorem State.updMf_ports (s : State) (k : Part) (f : MfState → MfState) : (s.updMf k f).ports = s.ports := rfl
@[simp] theorem State.updMf_parts (s : State) (k : Part) (f : MfState → MfState) : (s.updMf k f).parts = s.parts := rfl
@[simp] theorem State.updMf_ssTree (s : State) (k : Part) (f : MfState → MfState) : (s.updMf k f).ssTree = s.ssTree := rfl
@[simp] theorem State.updMf_u2Tree (s : State) (k : Part) (f : MfState → MfState) : (s.updMf k f).u2Tree = s.u2Tree := rfl
@[simp] theorem State.updMf_ups (s : State) (k : Part) (f : MfState → MfState) : (s.updMf k f).ups = s.ups := rfl
@[simp] theorem State.updMf_lift (s : State) (k : Part) (f : MfState → MfState) : (s.updMf k f).lift = s.lift := rfl
@[simp] theorem State.updMf_microframe (s : State) (k : Part) (f : MfState → MfState) : (s.updMf k f).microframe = s.microframe := rfl
@[simp] theorem State.updMf_modeCfg (s : State) (k : Part) (f : MfState → MfState) : (s.updMf k f).modeCfg = s.modeCfg := rfl
@[simp] theorem State.updMf_origin (s : State) (k : Part) (f : MfState → MfState) : (s.updMf k f).origin = s.origin := rfl
@[simp] theorem State.updMf_cause (s : State) (k : Part) (f : MfState → MfState) : (s.updMf k f).cause = s.cause := rfl
@[simp] theorem State.updMf_detail (s : State) (k : Part) (f : MfState → MfState) : (s.updMf k f).detail = s.detail := rfl
@[simp] theorem State.updMf_aonUp (s : State) (k : Part) (f : MfState → MfState) : (s.updMf k f).aonUp = s.aonUp := rfl
@[simp] theorem State.updMf_testmode (s : State) (k : Part) (f : MfState → MfState) : (s.updMf k f).testmode = s.testmode := rfl
@[simp] theorem State.updMf_board (s : State) (k : Part) (f : MfState → MfState) : (s.updMf k f).board = s.board := rfl
@[simp] theorem State.updMf_wrstLow (s : State) (k : Part) (f : MfState → MfState) : (s.updMf k f).wrstLow = s.wrstLow := rfl
@[simp] theorem State.updMf_trans (s : State) (k : Part) (f : MfState → MfState) : (s.updMf k f).trans = s.trans := rfl
@[simp] theorem State.updMf_arrival (s : State) (k : Part) (f : MfState → MfState) : (s.updMf k f).arrival = s.arrival := rfl
@[simp] theorem State.updMf_queue (s : State) (k : Part) (f : MfState → MfState) : (s.updMf k f).queue = s.queue := rfl
@[simp] theorem State.updMf_back (s : State) (k : Part) (f : MfState → MfState) : (s.updMf k f).back = s.back := rfl
@[simp] theorem State.updMf_eve (s : State) (k : Part) (f : MfState → MfState) : (s.updMf k f).eve = s.eve := rfl
@[simp] theorem State.updMf_entries (s : State) (k : Part) (f : MfState → MfState) : (s.updMf k f).entries = s.entries := rfl
@[simp] theorem State.updMf_aborts (s : State) (k : Part) (f : MfState → MfState) : (s.updMf k f).aborts = s.aborts := rfl
@[simp] theorem State.updMf_exiting (s : State) (k : Part) (f : MfState → MfState) : (s.updMf k f).exiting = s.exiting := rfl
@[simp] theorem State.updMf_sensors (s : State) (k : Part) (f : MfState → MfState) : (s.updMf k f).sensors = s.sensors := rfl
@[simp] theorem State.updMf_rails (s : State) (k : Part) (f : MfState → MfState) : (s.updMf k f).rails = s.rails := rfl
@[simp] theorem State.updMf_avs (s : State) (k : Part) (f : MfState → MfState) : (s.updMf k f).avs = s.avs := rfl
@[simp] theorem State.updMf_clocks (s : State) (k : Part) (f : MfState → MfState) : (s.updMf k f).clocks = s.clocks := rfl
@[simp] theorem State.updMf_alarms (s : State) (k : Part) (f : MfState → MfState) : (s.updMf k f).alarms = s.alarms := rfl
@[simp] theorem State.updMf_portLinks (s : State) (k : Part) (f : MfState → MfState) : (s.updMf k f).portLinks = s.portLinks := rfl
@[simp] theorem State.updMf_tap (s : State) (k : Part) (f : MfState → MfState) : (s.updMf k f).tap = s.tap := rfl
@[simp] theorem State.updMf_scan (s : State) (k : Part) (f : MfState → MfState) : (s.updMf k f).scan = s.scan := rfl
@[simp] theorem State.updMf_diag (s : State) (k : Part) (f : MfState → MfState) : (s.updMf k f).diag = s.diag := rfl
@[simp] theorem State.updMf_vendorId (s : State) (k : Part) (f : MfState → MfState) : (s.updMf k f).vendorId = s.vendorId := rfl
@[simp] theorem State.updMf_pd (s : State) (k : Part) (f : MfState → MfState) : (s.updMf k f).pd = s.pd := rfl
@[simp] theorem State.updMf_queues (s : State) (k : Part) (f : MfState → MfState) : (s.updMf k f).queues = s.queues := rfl
@[simp] theorem State.updMf_uarts (s : State) (k : Part) (f : MfState → MfState) : (s.updMf k f).uarts = s.uarts := rfl
@[simp] theorem State.updMf_banks (s : State) (k : Part) (f : MfState → MfState) : (s.updMf k f).banks = s.banks := rfl
@[simp] theorem State.updMf_cells (s : State) (k : Part) (f : MfState → MfState) : (s.updMf k f).cells = s.cells := rfl
@[simp] theorem State.updMf_rings (s : State) (k : Part) (f : MfState → MfState) : (s.updMf k f).rings = s.rings := rfl
@[simp] theorem State.updMf_sticky (s : State) (k : Part) (f : MfState → MfState) : (s.updMf k f).sticky = s.sticky := rfl
@[simp] theorem State.updMf_pbm (s : State) (k : Part) (f : MfState → MfState) : (s.updMf k f).pbm = s.pbm := rfl
@[simp] theorem State.updMf_ttBucket (s : State) (k : Part) (f : MfState → MfState) : (s.updMf k f).ttBucket = s.ttBucket := rfl
@[simp] theorem State.updMf_powerLinks (s : State) (k : Part) (f : MfState → MfState) : (s.updMf k f).powerLinks = s.powerLinks := rfl
@[simp] theorem State.updMf_slots (s : State) (k : Part) (f : MfState → MfState) : (s.updMf k f).slots = s.slots := rfl
@[simp] theorem State.updMf_chains (s : State) (k : Part) (f : MfState → MfState) : (s.updMf k f).chains = s.chains := rfl
@[simp] theorem State.updMf_vbus (s : State) (k : Part) (f : MfState → MfState) : (s.updMf k f).vbus = s.vbus := rfl

/-! ## updLift -/

@[simp] theorem State.updLift_lift (s : State) (p : Port) (f : LiftPort → LiftPort) : (s.updLift p f).lift = s.lift.upd p (fun o => o.map f) := rfl
@[simp] theorem State.updLift_pending (s : State) (p : Port) (f : LiftPort → LiftPort) : (s.updLift p f).pending = s.pending := rfl
@[simp] theorem State.updLift_wire (s : State) (p : Port) (f : LiftPort → LiftPort) : (s.updLift p f).wire = s.wire := rfl
@[simp] theorem State.updLift_freeCount (s : State) (p : Port) (f : LiftPort → LiftPort) : (s.updLift p f).freeCount = s.freeCount := rfl
@[simp] theorem State.updLift_mode (s : State) (p : Port) (f : LiftPort → LiftPort) : (s.updLift p f).mode = s.mode := rfl
@[simp] theorem State.updLift_sessions (s : State) (p : Port) (f : LiftPort → LiftPort) : (s.updLift p f).sessions = s.sessions := rfl
@[simp] theorem State.updLift_mailboxes (s : State) (p : Port) (f : LiftPort → LiftPort) : (s.updLift p f).mailboxes = s.mailboxes := rfl
@[simp] theorem State.updLift_smbus (s : State) (p : Port) (f : LiftPort → LiftPort) : (s.updLift p f).smbus = s.smbus := rfl
@[simp] theorem State.updLift_alertEnable (s : State) (p : Port) (f : LiftPort → LiftPort) : (s.updLift p f).alertEnable = s.alertEnable := rfl
@[simp] theorem State.updLift_heldEvents (s : State) (p : Port) (f : LiftPort → LiftPort) : (s.updLift p f).heldEvents = s.heldEvents := rfl
@[simp] theorem State.updLift_arrivals (s : State) (p : Port) (f : LiftPort → LiftPort) : (s.updLift p f).arrivals = s.arrivals := rfl
@[simp] theorem State.updLift_fw (s : State) (p : Port) (f : LiftPort → LiftPort) : (s.updLift p f).fw = s.fw := rfl
@[simp] theorem State.updLift_fault (s : State) (p : Port) (f : LiftPort → LiftPort) : (s.updLift p f).fault = s.fault := rfl
@[simp] theorem State.updLift_partOf (s : State) (p : Port) (f : LiftPort → LiftPort) : (s.updLift p f).partOf = s.partOf := rfl
@[simp] theorem State.updLift_posOf (s : State) (p : Port) (f : LiftPort → LiftPort) : (s.updLift p f).posOf = s.posOf := rfl
@[simp] theorem State.updLift_domains (s : State) (p : Port) (f : LiftPort → LiftPort) : (s.updLift p f).domains = s.domains := rfl
@[simp] theorem State.updLift_ports (s : State) (p : Port) (f : LiftPort → LiftPort) : (s.updLift p f).ports = s.ports := rfl
@[simp] theorem State.updLift_parts (s : State) (p : Port) (f : LiftPort → LiftPort) : (s.updLift p f).parts = s.parts := rfl
@[simp] theorem State.updLift_ssTree (s : State) (p : Port) (f : LiftPort → LiftPort) : (s.updLift p f).ssTree = s.ssTree := rfl
@[simp] theorem State.updLift_u2Tree (s : State) (p : Port) (f : LiftPort → LiftPort) : (s.updLift p f).u2Tree = s.u2Tree := rfl
@[simp] theorem State.updLift_mfs (s : State) (p : Port) (f : LiftPort → LiftPort) : (s.updLift p f).mfs = s.mfs := rfl
@[simp] theorem State.updLift_ups (s : State) (p : Port) (f : LiftPort → LiftPort) : (s.updLift p f).ups = s.ups := rfl
@[simp] theorem State.updLift_microframe (s : State) (p : Port) (f : LiftPort → LiftPort) : (s.updLift p f).microframe = s.microframe := rfl
@[simp] theorem State.updLift_modeCfg (s : State) (p : Port) (f : LiftPort → LiftPort) : (s.updLift p f).modeCfg = s.modeCfg := rfl
@[simp] theorem State.updLift_origin (s : State) (p : Port) (f : LiftPort → LiftPort) : (s.updLift p f).origin = s.origin := rfl
@[simp] theorem State.updLift_cause (s : State) (p : Port) (f : LiftPort → LiftPort) : (s.updLift p f).cause = s.cause := rfl
@[simp] theorem State.updLift_detail (s : State) (p : Port) (f : LiftPort → LiftPort) : (s.updLift p f).detail = s.detail := rfl
@[simp] theorem State.updLift_aonUp (s : State) (p : Port) (f : LiftPort → LiftPort) : (s.updLift p f).aonUp = s.aonUp := rfl
@[simp] theorem State.updLift_testmode (s : State) (p : Port) (f : LiftPort → LiftPort) : (s.updLift p f).testmode = s.testmode := rfl
@[simp] theorem State.updLift_board (s : State) (p : Port) (f : LiftPort → LiftPort) : (s.updLift p f).board = s.board := rfl
@[simp] theorem State.updLift_wrstLow (s : State) (p : Port) (f : LiftPort → LiftPort) : (s.updLift p f).wrstLow = s.wrstLow := rfl
@[simp] theorem State.updLift_trans (s : State) (p : Port) (f : LiftPort → LiftPort) : (s.updLift p f).trans = s.trans := rfl
@[simp] theorem State.updLift_arrival (s : State) (p : Port) (f : LiftPort → LiftPort) : (s.updLift p f).arrival = s.arrival := rfl
@[simp] theorem State.updLift_queue (s : State) (p : Port) (f : LiftPort → LiftPort) : (s.updLift p f).queue = s.queue := rfl
@[simp] theorem State.updLift_back (s : State) (p : Port) (f : LiftPort → LiftPort) : (s.updLift p f).back = s.back := rfl
@[simp] theorem State.updLift_eve (s : State) (p : Port) (f : LiftPort → LiftPort) : (s.updLift p f).eve = s.eve := rfl
@[simp] theorem State.updLift_entries (s : State) (p : Port) (f : LiftPort → LiftPort) : (s.updLift p f).entries = s.entries := rfl
@[simp] theorem State.updLift_aborts (s : State) (p : Port) (f : LiftPort → LiftPort) : (s.updLift p f).aborts = s.aborts := rfl
@[simp] theorem State.updLift_exiting (s : State) (p : Port) (f : LiftPort → LiftPort) : (s.updLift p f).exiting = s.exiting := rfl
@[simp] theorem State.updLift_sensors (s : State) (p : Port) (f : LiftPort → LiftPort) : (s.updLift p f).sensors = s.sensors := rfl
@[simp] theorem State.updLift_rails (s : State) (p : Port) (f : LiftPort → LiftPort) : (s.updLift p f).rails = s.rails := rfl
@[simp] theorem State.updLift_avs (s : State) (p : Port) (f : LiftPort → LiftPort) : (s.updLift p f).avs = s.avs := rfl
@[simp] theorem State.updLift_clocks (s : State) (p : Port) (f : LiftPort → LiftPort) : (s.updLift p f).clocks = s.clocks := rfl
@[simp] theorem State.updLift_alarms (s : State) (p : Port) (f : LiftPort → LiftPort) : (s.updLift p f).alarms = s.alarms := rfl
@[simp] theorem State.updLift_portLinks (s : State) (p : Port) (f : LiftPort → LiftPort) : (s.updLift p f).portLinks = s.portLinks := rfl
@[simp] theorem State.updLift_tap (s : State) (p : Port) (f : LiftPort → LiftPort) : (s.updLift p f).tap = s.tap := rfl
@[simp] theorem State.updLift_scan (s : State) (p : Port) (f : LiftPort → LiftPort) : (s.updLift p f).scan = s.scan := rfl
@[simp] theorem State.updLift_diag (s : State) (p : Port) (f : LiftPort → LiftPort) : (s.updLift p f).diag = s.diag := rfl
@[simp] theorem State.updLift_vendorId (s : State) (p : Port) (f : LiftPort → LiftPort) : (s.updLift p f).vendorId = s.vendorId := rfl
@[simp] theorem State.updLift_pd (s : State) (p : Port) (f : LiftPort → LiftPort) : (s.updLift p f).pd = s.pd := rfl
@[simp] theorem State.updLift_queues (s : State) (p : Port) (f : LiftPort → LiftPort) : (s.updLift p f).queues = s.queues := rfl
@[simp] theorem State.updLift_uarts (s : State) (p : Port) (f : LiftPort → LiftPort) : (s.updLift p f).uarts = s.uarts := rfl
@[simp] theorem State.updLift_banks (s : State) (p : Port) (f : LiftPort → LiftPort) : (s.updLift p f).banks = s.banks := rfl
@[simp] theorem State.updLift_cells (s : State) (p : Port) (f : LiftPort → LiftPort) : (s.updLift p f).cells = s.cells := rfl
@[simp] theorem State.updLift_rings (s : State) (p : Port) (f : LiftPort → LiftPort) : (s.updLift p f).rings = s.rings := rfl
@[simp] theorem State.updLift_sticky (s : State) (p : Port) (f : LiftPort → LiftPort) : (s.updLift p f).sticky = s.sticky := rfl
@[simp] theorem State.updLift_pbm (s : State) (p : Port) (f : LiftPort → LiftPort) : (s.updLift p f).pbm = s.pbm := rfl
@[simp] theorem State.updLift_ttBucket (s : State) (p : Port) (f : LiftPort → LiftPort) : (s.updLift p f).ttBucket = s.ttBucket := rfl
@[simp] theorem State.updLift_powerLinks (s : State) (p : Port) (f : LiftPort → LiftPort) : (s.updLift p f).powerLinks = s.powerLinks := rfl
@[simp] theorem State.updLift_slots (s : State) (p : Port) (f : LiftPort → LiftPort) : (s.updLift p f).slots = s.slots := rfl
@[simp] theorem State.updLift_chains (s : State) (p : Port) (f : LiftPort → LiftPort) : (s.updLift p f).chains = s.chains := rfl
@[simp] theorem State.updLift_vbus (s : State) (p : Port) (f : LiftPort → LiftPort) : (s.updLift p f).vbus = s.vbus := rfl

/-! ## updCtl -/

@[simp] theorem State.updCtl_pending (s : State) (p : Port) (f : CtlXfer → CtlXfer) : (s.updCtl p f).pending = s.pending := rfl
@[simp] theorem State.updCtl_wire (s : State) (p : Port) (f : CtlXfer → CtlXfer) : (s.updCtl p f).wire = s.wire := rfl
@[simp] theorem State.updCtl_freeCount (s : State) (p : Port) (f : CtlXfer → CtlXfer) : (s.updCtl p f).freeCount = s.freeCount := rfl
@[simp] theorem State.updCtl_mode (s : State) (p : Port) (f : CtlXfer → CtlXfer) : (s.updCtl p f).mode = s.mode := rfl
@[simp] theorem State.updCtl_sessions (s : State) (p : Port) (f : CtlXfer → CtlXfer) : (s.updCtl p f).sessions = s.sessions := rfl
@[simp] theorem State.updCtl_mailboxes (s : State) (p : Port) (f : CtlXfer → CtlXfer) : (s.updCtl p f).mailboxes = s.mailboxes := rfl
@[simp] theorem State.updCtl_smbus (s : State) (p : Port) (f : CtlXfer → CtlXfer) : (s.updCtl p f).smbus = s.smbus := rfl
@[simp] theorem State.updCtl_alertEnable (s : State) (p : Port) (f : CtlXfer → CtlXfer) : (s.updCtl p f).alertEnable = s.alertEnable := rfl
@[simp] theorem State.updCtl_heldEvents (s : State) (p : Port) (f : CtlXfer → CtlXfer) : (s.updCtl p f).heldEvents = s.heldEvents := rfl
@[simp] theorem State.updCtl_arrivals (s : State) (p : Port) (f : CtlXfer → CtlXfer) : (s.updCtl p f).arrivals = s.arrivals := rfl
@[simp] theorem State.updCtl_fw (s : State) (p : Port) (f : CtlXfer → CtlXfer) : (s.updCtl p f).fw = s.fw := rfl
@[simp] theorem State.updCtl_fault (s : State) (p : Port) (f : CtlXfer → CtlXfer) : (s.updCtl p f).fault = s.fault := rfl
@[simp] theorem State.updCtl_partOf (s : State) (p : Port) (f : CtlXfer → CtlXfer) : (s.updCtl p f).partOf = s.partOf := rfl
@[simp] theorem State.updCtl_posOf (s : State) (p : Port) (f : CtlXfer → CtlXfer) : (s.updCtl p f).posOf = s.posOf := rfl
@[simp] theorem State.updCtl_domains (s : State) (p : Port) (f : CtlXfer → CtlXfer) : (s.updCtl p f).domains = s.domains := rfl
@[simp] theorem State.updCtl_ports (s : State) (p : Port) (f : CtlXfer → CtlXfer) : (s.updCtl p f).ports = s.ports := rfl
@[simp] theorem State.updCtl_parts (s : State) (p : Port) (f : CtlXfer → CtlXfer) : (s.updCtl p f).parts = s.parts := rfl
@[simp] theorem State.updCtl_ssTree (s : State) (p : Port) (f : CtlXfer → CtlXfer) : (s.updCtl p f).ssTree = s.ssTree := rfl
@[simp] theorem State.updCtl_u2Tree (s : State) (p : Port) (f : CtlXfer → CtlXfer) : (s.updCtl p f).u2Tree = s.u2Tree := rfl
@[simp] theorem State.updCtl_mfs (s : State) (p : Port) (f : CtlXfer → CtlXfer) : (s.updCtl p f).mfs = s.mfs := rfl
@[simp] theorem State.updCtl_ups (s : State) (p : Port) (f : CtlXfer → CtlXfer) : (s.updCtl p f).ups = s.ups := rfl
@[simp] theorem State.updCtl_microframe (s : State) (p : Port) (f : CtlXfer → CtlXfer) : (s.updCtl p f).microframe = s.microframe := rfl
@[simp] theorem State.updCtl_modeCfg (s : State) (p : Port) (f : CtlXfer → CtlXfer) : (s.updCtl p f).modeCfg = s.modeCfg := rfl
@[simp] theorem State.updCtl_origin (s : State) (p : Port) (f : CtlXfer → CtlXfer) : (s.updCtl p f).origin = s.origin := rfl
@[simp] theorem State.updCtl_cause (s : State) (p : Port) (f : CtlXfer → CtlXfer) : (s.updCtl p f).cause = s.cause := rfl
@[simp] theorem State.updCtl_detail (s : State) (p : Port) (f : CtlXfer → CtlXfer) : (s.updCtl p f).detail = s.detail := rfl
@[simp] theorem State.updCtl_aonUp (s : State) (p : Port) (f : CtlXfer → CtlXfer) : (s.updCtl p f).aonUp = s.aonUp := rfl
@[simp] theorem State.updCtl_testmode (s : State) (p : Port) (f : CtlXfer → CtlXfer) : (s.updCtl p f).testmode = s.testmode := rfl
@[simp] theorem State.updCtl_board (s : State) (p : Port) (f : CtlXfer → CtlXfer) : (s.updCtl p f).board = s.board := rfl
@[simp] theorem State.updCtl_wrstLow (s : State) (p : Port) (f : CtlXfer → CtlXfer) : (s.updCtl p f).wrstLow = s.wrstLow := rfl
@[simp] theorem State.updCtl_trans (s : State) (p : Port) (f : CtlXfer → CtlXfer) : (s.updCtl p f).trans = s.trans := rfl
@[simp] theorem State.updCtl_arrival (s : State) (p : Port) (f : CtlXfer → CtlXfer) : (s.updCtl p f).arrival = s.arrival := rfl
@[simp] theorem State.updCtl_queue (s : State) (p : Port) (f : CtlXfer → CtlXfer) : (s.updCtl p f).queue = s.queue := rfl
@[simp] theorem State.updCtl_back (s : State) (p : Port) (f : CtlXfer → CtlXfer) : (s.updCtl p f).back = s.back := rfl
@[simp] theorem State.updCtl_eve (s : State) (p : Port) (f : CtlXfer → CtlXfer) : (s.updCtl p f).eve = s.eve := rfl
@[simp] theorem State.updCtl_entries (s : State) (p : Port) (f : CtlXfer → CtlXfer) : (s.updCtl p f).entries = s.entries := rfl
@[simp] theorem State.updCtl_aborts (s : State) (p : Port) (f : CtlXfer → CtlXfer) : (s.updCtl p f).aborts = s.aborts := rfl
@[simp] theorem State.updCtl_exiting (s : State) (p : Port) (f : CtlXfer → CtlXfer) : (s.updCtl p f).exiting = s.exiting := rfl
@[simp] theorem State.updCtl_sensors (s : State) (p : Port) (f : CtlXfer → CtlXfer) : (s.updCtl p f).sensors = s.sensors := rfl
@[simp] theorem State.updCtl_rails (s : State) (p : Port) (f : CtlXfer → CtlXfer) : (s.updCtl p f).rails = s.rails := rfl
@[simp] theorem State.updCtl_avs (s : State) (p : Port) (f : CtlXfer → CtlXfer) : (s.updCtl p f).avs = s.avs := rfl
@[simp] theorem State.updCtl_clocks (s : State) (p : Port) (f : CtlXfer → CtlXfer) : (s.updCtl p f).clocks = s.clocks := rfl
@[simp] theorem State.updCtl_alarms (s : State) (p : Port) (f : CtlXfer → CtlXfer) : (s.updCtl p f).alarms = s.alarms := rfl
@[simp] theorem State.updCtl_portLinks (s : State) (p : Port) (f : CtlXfer → CtlXfer) : (s.updCtl p f).portLinks = s.portLinks := rfl
@[simp] theorem State.updCtl_tap (s : State) (p : Port) (f : CtlXfer → CtlXfer) : (s.updCtl p f).tap = s.tap := rfl
@[simp] theorem State.updCtl_scan (s : State) (p : Port) (f : CtlXfer → CtlXfer) : (s.updCtl p f).scan = s.scan := rfl
@[simp] theorem State.updCtl_diag (s : State) (p : Port) (f : CtlXfer → CtlXfer) : (s.updCtl p f).diag = s.diag := rfl
@[simp] theorem State.updCtl_vendorId (s : State) (p : Port) (f : CtlXfer → CtlXfer) : (s.updCtl p f).vendorId = s.vendorId := rfl
@[simp] theorem State.updCtl_pd (s : State) (p : Port) (f : CtlXfer → CtlXfer) : (s.updCtl p f).pd = s.pd := rfl
@[simp] theorem State.updCtl_queues (s : State) (p : Port) (f : CtlXfer → CtlXfer) : (s.updCtl p f).queues = s.queues := rfl
@[simp] theorem State.updCtl_uarts (s : State) (p : Port) (f : CtlXfer → CtlXfer) : (s.updCtl p f).uarts = s.uarts := rfl
@[simp] theorem State.updCtl_banks (s : State) (p : Port) (f : CtlXfer → CtlXfer) : (s.updCtl p f).banks = s.banks := rfl
@[simp] theorem State.updCtl_cells (s : State) (p : Port) (f : CtlXfer → CtlXfer) : (s.updCtl p f).cells = s.cells := rfl
@[simp] theorem State.updCtl_rings (s : State) (p : Port) (f : CtlXfer → CtlXfer) : (s.updCtl p f).rings = s.rings := rfl
@[simp] theorem State.updCtl_sticky (s : State) (p : Port) (f : CtlXfer → CtlXfer) : (s.updCtl p f).sticky = s.sticky := rfl
@[simp] theorem State.updCtl_pbm (s : State) (p : Port) (f : CtlXfer → CtlXfer) : (s.updCtl p f).pbm = s.pbm := rfl
@[simp] theorem State.updCtl_ttBucket (s : State) (p : Port) (f : CtlXfer → CtlXfer) : (s.updCtl p f).ttBucket = s.ttBucket := rfl
@[simp] theorem State.updCtl_powerLinks (s : State) (p : Port) (f : CtlXfer → CtlXfer) : (s.updCtl p f).powerLinks = s.powerLinks := rfl
@[simp] theorem State.updCtl_slots (s : State) (p : Port) (f : CtlXfer → CtlXfer) : (s.updCtl p f).slots = s.slots := rfl
@[simp] theorem State.updCtl_chains (s : State) (p : Port) (f : CtlXfer → CtlXfer) : (s.updCtl p f).chains = s.chains := rfl
@[simp] theorem State.updCtl_vbus (s : State) (p : Port) (f : CtlXfer → CtlXfer) : (s.updCtl p f).vbus = s.vbus := rfl

/-! ## updCtx -/

@[simp] theorem State.updCtx_pending (s : State) (p : Port) (a : Byte) (f : EpCtx → EpCtx) : (s.updCtx p a f).pending = s.pending := rfl
@[simp] theorem State.updCtx_wire (s : State) (p : Port) (a : Byte) (f : EpCtx → EpCtx) : (s.updCtx p a f).wire = s.wire := rfl
@[simp] theorem State.updCtx_freeCount (s : State) (p : Port) (a : Byte) (f : EpCtx → EpCtx) : (s.updCtx p a f).freeCount = s.freeCount := rfl
@[simp] theorem State.updCtx_mode (s : State) (p : Port) (a : Byte) (f : EpCtx → EpCtx) : (s.updCtx p a f).mode = s.mode := rfl
@[simp] theorem State.updCtx_sessions (s : State) (p : Port) (a : Byte) (f : EpCtx → EpCtx) : (s.updCtx p a f).sessions = s.sessions := rfl
@[simp] theorem State.updCtx_mailboxes (s : State) (p : Port) (a : Byte) (f : EpCtx → EpCtx) : (s.updCtx p a f).mailboxes = s.mailboxes := rfl
@[simp] theorem State.updCtx_smbus (s : State) (p : Port) (a : Byte) (f : EpCtx → EpCtx) : (s.updCtx p a f).smbus = s.smbus := rfl
@[simp] theorem State.updCtx_alertEnable (s : State) (p : Port) (a : Byte) (f : EpCtx → EpCtx) : (s.updCtx p a f).alertEnable = s.alertEnable := rfl
@[simp] theorem State.updCtx_heldEvents (s : State) (p : Port) (a : Byte) (f : EpCtx → EpCtx) : (s.updCtx p a f).heldEvents = s.heldEvents := rfl
@[simp] theorem State.updCtx_arrivals (s : State) (p : Port) (a : Byte) (f : EpCtx → EpCtx) : (s.updCtx p a f).arrivals = s.arrivals := rfl
@[simp] theorem State.updCtx_fw (s : State) (p : Port) (a : Byte) (f : EpCtx → EpCtx) : (s.updCtx p a f).fw = s.fw := rfl
@[simp] theorem State.updCtx_fault (s : State) (p : Port) (a : Byte) (f : EpCtx → EpCtx) : (s.updCtx p a f).fault = s.fault := rfl
@[simp] theorem State.updCtx_partOf (s : State) (p : Port) (a : Byte) (f : EpCtx → EpCtx) : (s.updCtx p a f).partOf = s.partOf := rfl
@[simp] theorem State.updCtx_posOf (s : State) (p : Port) (a : Byte) (f : EpCtx → EpCtx) : (s.updCtx p a f).posOf = s.posOf := rfl
@[simp] theorem State.updCtx_domains (s : State) (p : Port) (a : Byte) (f : EpCtx → EpCtx) : (s.updCtx p a f).domains = s.domains := rfl
@[simp] theorem State.updCtx_ports (s : State) (p : Port) (a : Byte) (f : EpCtx → EpCtx) : (s.updCtx p a f).ports = s.ports := rfl
@[simp] theorem State.updCtx_parts (s : State) (p : Port) (a : Byte) (f : EpCtx → EpCtx) : (s.updCtx p a f).parts = s.parts := rfl
@[simp] theorem State.updCtx_ssTree (s : State) (p : Port) (a : Byte) (f : EpCtx → EpCtx) : (s.updCtx p a f).ssTree = s.ssTree := rfl
@[simp] theorem State.updCtx_u2Tree (s : State) (p : Port) (a : Byte) (f : EpCtx → EpCtx) : (s.updCtx p a f).u2Tree = s.u2Tree := rfl
@[simp] theorem State.updCtx_mfs (s : State) (p : Port) (a : Byte) (f : EpCtx → EpCtx) : (s.updCtx p a f).mfs = s.mfs := rfl
@[simp] theorem State.updCtx_ups (s : State) (p : Port) (a : Byte) (f : EpCtx → EpCtx) : (s.updCtx p a f).ups = s.ups := rfl
@[simp] theorem State.updCtx_microframe (s : State) (p : Port) (a : Byte) (f : EpCtx → EpCtx) : (s.updCtx p a f).microframe = s.microframe := rfl
@[simp] theorem State.updCtx_modeCfg (s : State) (p : Port) (a : Byte) (f : EpCtx → EpCtx) : (s.updCtx p a f).modeCfg = s.modeCfg := rfl
@[simp] theorem State.updCtx_origin (s : State) (p : Port) (a : Byte) (f : EpCtx → EpCtx) : (s.updCtx p a f).origin = s.origin := rfl
@[simp] theorem State.updCtx_cause (s : State) (p : Port) (a : Byte) (f : EpCtx → EpCtx) : (s.updCtx p a f).cause = s.cause := rfl
@[simp] theorem State.updCtx_detail (s : State) (p : Port) (a : Byte) (f : EpCtx → EpCtx) : (s.updCtx p a f).detail = s.detail := rfl
@[simp] theorem State.updCtx_aonUp (s : State) (p : Port) (a : Byte) (f : EpCtx → EpCtx) : (s.updCtx p a f).aonUp = s.aonUp := rfl
@[simp] theorem State.updCtx_testmode (s : State) (p : Port) (a : Byte) (f : EpCtx → EpCtx) : (s.updCtx p a f).testmode = s.testmode := rfl
@[simp] theorem State.updCtx_board (s : State) (p : Port) (a : Byte) (f : EpCtx → EpCtx) : (s.updCtx p a f).board = s.board := rfl
@[simp] theorem State.updCtx_wrstLow (s : State) (p : Port) (a : Byte) (f : EpCtx → EpCtx) : (s.updCtx p a f).wrstLow = s.wrstLow := rfl
@[simp] theorem State.updCtx_trans (s : State) (p : Port) (a : Byte) (f : EpCtx → EpCtx) : (s.updCtx p a f).trans = s.trans := rfl
@[simp] theorem State.updCtx_arrival (s : State) (p : Port) (a : Byte) (f : EpCtx → EpCtx) : (s.updCtx p a f).arrival = s.arrival := rfl
@[simp] theorem State.updCtx_queue (s : State) (p : Port) (a : Byte) (f : EpCtx → EpCtx) : (s.updCtx p a f).queue = s.queue := rfl
@[simp] theorem State.updCtx_back (s : State) (p : Port) (a : Byte) (f : EpCtx → EpCtx) : (s.updCtx p a f).back = s.back := rfl
@[simp] theorem State.updCtx_eve (s : State) (p : Port) (a : Byte) (f : EpCtx → EpCtx) : (s.updCtx p a f).eve = s.eve := rfl
@[simp] theorem State.updCtx_entries (s : State) (p : Port) (a : Byte) (f : EpCtx → EpCtx) : (s.updCtx p a f).entries = s.entries := rfl
@[simp] theorem State.updCtx_aborts (s : State) (p : Port) (a : Byte) (f : EpCtx → EpCtx) : (s.updCtx p a f).aborts = s.aborts := rfl
@[simp] theorem State.updCtx_exiting (s : State) (p : Port) (a : Byte) (f : EpCtx → EpCtx) : (s.updCtx p a f).exiting = s.exiting := rfl
@[simp] theorem State.updCtx_sensors (s : State) (p : Port) (a : Byte) (f : EpCtx → EpCtx) : (s.updCtx p a f).sensors = s.sensors := rfl
@[simp] theorem State.updCtx_rails (s : State) (p : Port) (a : Byte) (f : EpCtx → EpCtx) : (s.updCtx p a f).rails = s.rails := rfl
@[simp] theorem State.updCtx_avs (s : State) (p : Port) (a : Byte) (f : EpCtx → EpCtx) : (s.updCtx p a f).avs = s.avs := rfl
@[simp] theorem State.updCtx_clocks (s : State) (p : Port) (a : Byte) (f : EpCtx → EpCtx) : (s.updCtx p a f).clocks = s.clocks := rfl
@[simp] theorem State.updCtx_alarms (s : State) (p : Port) (a : Byte) (f : EpCtx → EpCtx) : (s.updCtx p a f).alarms = s.alarms := rfl
@[simp] theorem State.updCtx_portLinks (s : State) (p : Port) (a : Byte) (f : EpCtx → EpCtx) : (s.updCtx p a f).portLinks = s.portLinks := rfl
@[simp] theorem State.updCtx_tap (s : State) (p : Port) (a : Byte) (f : EpCtx → EpCtx) : (s.updCtx p a f).tap = s.tap := rfl
@[simp] theorem State.updCtx_scan (s : State) (p : Port) (a : Byte) (f : EpCtx → EpCtx) : (s.updCtx p a f).scan = s.scan := rfl
@[simp] theorem State.updCtx_diag (s : State) (p : Port) (a : Byte) (f : EpCtx → EpCtx) : (s.updCtx p a f).diag = s.diag := rfl
@[simp] theorem State.updCtx_vendorId (s : State) (p : Port) (a : Byte) (f : EpCtx → EpCtx) : (s.updCtx p a f).vendorId = s.vendorId := rfl
@[simp] theorem State.updCtx_pd (s : State) (p : Port) (a : Byte) (f : EpCtx → EpCtx) : (s.updCtx p a f).pd = s.pd := rfl
@[simp] theorem State.updCtx_queues (s : State) (p : Port) (a : Byte) (f : EpCtx → EpCtx) : (s.updCtx p a f).queues = s.queues := rfl
@[simp] theorem State.updCtx_uarts (s : State) (p : Port) (a : Byte) (f : EpCtx → EpCtx) : (s.updCtx p a f).uarts = s.uarts := rfl
@[simp] theorem State.updCtx_banks (s : State) (p : Port) (a : Byte) (f : EpCtx → EpCtx) : (s.updCtx p a f).banks = s.banks := rfl
@[simp] theorem State.updCtx_cells (s : State) (p : Port) (a : Byte) (f : EpCtx → EpCtx) : (s.updCtx p a f).cells = s.cells := rfl
@[simp] theorem State.updCtx_rings (s : State) (p : Port) (a : Byte) (f : EpCtx → EpCtx) : (s.updCtx p a f).rings = s.rings := rfl
@[simp] theorem State.updCtx_sticky (s : State) (p : Port) (a : Byte) (f : EpCtx → EpCtx) : (s.updCtx p a f).sticky = s.sticky := rfl
@[simp] theorem State.updCtx_pbm (s : State) (p : Port) (a : Byte) (f : EpCtx → EpCtx) : (s.updCtx p a f).pbm = s.pbm := rfl
@[simp] theorem State.updCtx_ttBucket (s : State) (p : Port) (a : Byte) (f : EpCtx → EpCtx) : (s.updCtx p a f).ttBucket = s.ttBucket := rfl
@[simp] theorem State.updCtx_powerLinks (s : State) (p : Port) (a : Byte) (f : EpCtx → EpCtx) : (s.updCtx p a f).powerLinks = s.powerLinks := rfl
@[simp] theorem State.updCtx_slots (s : State) (p : Port) (a : Byte) (f : EpCtx → EpCtx) : (s.updCtx p a f).slots = s.slots := rfl
@[simp] theorem State.updCtx_chains (s : State) (p : Port) (a : Byte) (f : EpCtx → EpCtx) : (s.updCtx p a f).chains = s.chains := rfl
@[simp] theorem State.updCtx_vbus (s : State) (p : Port) (a : Byte) (f : EpCtx → EpCtx) : (s.updCtx p a f).vbus = s.vbus := rfl

/-! ## updProbe -/

@[simp] theorem State.updProbe_pending (s : State) (p : Port) (f : Probe → Probe) : (s.updProbe p f).pending = s.pending := rfl
@[simp] theorem State.updProbe_wire (s : State) (p : Port) (f : Probe → Probe) : (s.updProbe p f).wire = s.wire := rfl
@[simp] theorem State.updProbe_freeCount (s : State) (p : Port) (f : Probe → Probe) : (s.updProbe p f).freeCount = s.freeCount := rfl
@[simp] theorem State.updProbe_mode (s : State) (p : Port) (f : Probe → Probe) : (s.updProbe p f).mode = s.mode := rfl
@[simp] theorem State.updProbe_sessions (s : State) (p : Port) (f : Probe → Probe) : (s.updProbe p f).sessions = s.sessions := rfl
@[simp] theorem State.updProbe_mailboxes (s : State) (p : Port) (f : Probe → Probe) : (s.updProbe p f).mailboxes = s.mailboxes := rfl
@[simp] theorem State.updProbe_smbus (s : State) (p : Port) (f : Probe → Probe) : (s.updProbe p f).smbus = s.smbus := rfl
@[simp] theorem State.updProbe_alertEnable (s : State) (p : Port) (f : Probe → Probe) : (s.updProbe p f).alertEnable = s.alertEnable := rfl
@[simp] theorem State.updProbe_heldEvents (s : State) (p : Port) (f : Probe → Probe) : (s.updProbe p f).heldEvents = s.heldEvents := rfl
@[simp] theorem State.updProbe_arrivals (s : State) (p : Port) (f : Probe → Probe) : (s.updProbe p f).arrivals = s.arrivals := rfl
@[simp] theorem State.updProbe_fw (s : State) (p : Port) (f : Probe → Probe) : (s.updProbe p f).fw = s.fw := rfl
@[simp] theorem State.updProbe_fault (s : State) (p : Port) (f : Probe → Probe) : (s.updProbe p f).fault = s.fault := rfl
@[simp] theorem State.updProbe_partOf (s : State) (p : Port) (f : Probe → Probe) : (s.updProbe p f).partOf = s.partOf := rfl
@[simp] theorem State.updProbe_posOf (s : State) (p : Port) (f : Probe → Probe) : (s.updProbe p f).posOf = s.posOf := rfl
@[simp] theorem State.updProbe_domains (s : State) (p : Port) (f : Probe → Probe) : (s.updProbe p f).domains = s.domains := rfl
@[simp] theorem State.updProbe_ports (s : State) (p : Port) (f : Probe → Probe) : (s.updProbe p f).ports = s.ports := rfl
@[simp] theorem State.updProbe_parts (s : State) (p : Port) (f : Probe → Probe) : (s.updProbe p f).parts = s.parts := rfl
@[simp] theorem State.updProbe_ssTree (s : State) (p : Port) (f : Probe → Probe) : (s.updProbe p f).ssTree = s.ssTree := rfl
@[simp] theorem State.updProbe_u2Tree (s : State) (p : Port) (f : Probe → Probe) : (s.updProbe p f).u2Tree = s.u2Tree := rfl
@[simp] theorem State.updProbe_mfs (s : State) (p : Port) (f : Probe → Probe) : (s.updProbe p f).mfs = s.mfs := rfl
@[simp] theorem State.updProbe_ups (s : State) (p : Port) (f : Probe → Probe) : (s.updProbe p f).ups = s.ups := rfl
@[simp] theorem State.updProbe_microframe (s : State) (p : Port) (f : Probe → Probe) : (s.updProbe p f).microframe = s.microframe := rfl
@[simp] theorem State.updProbe_modeCfg (s : State) (p : Port) (f : Probe → Probe) : (s.updProbe p f).modeCfg = s.modeCfg := rfl
@[simp] theorem State.updProbe_origin (s : State) (p : Port) (f : Probe → Probe) : (s.updProbe p f).origin = s.origin := rfl
@[simp] theorem State.updProbe_cause (s : State) (p : Port) (f : Probe → Probe) : (s.updProbe p f).cause = s.cause := rfl
@[simp] theorem State.updProbe_detail (s : State) (p : Port) (f : Probe → Probe) : (s.updProbe p f).detail = s.detail := rfl
@[simp] theorem State.updProbe_aonUp (s : State) (p : Port) (f : Probe → Probe) : (s.updProbe p f).aonUp = s.aonUp := rfl
@[simp] theorem State.updProbe_testmode (s : State) (p : Port) (f : Probe → Probe) : (s.updProbe p f).testmode = s.testmode := rfl
@[simp] theorem State.updProbe_board (s : State) (p : Port) (f : Probe → Probe) : (s.updProbe p f).board = s.board := rfl
@[simp] theorem State.updProbe_wrstLow (s : State) (p : Port) (f : Probe → Probe) : (s.updProbe p f).wrstLow = s.wrstLow := rfl
@[simp] theorem State.updProbe_trans (s : State) (p : Port) (f : Probe → Probe) : (s.updProbe p f).trans = s.trans := rfl
@[simp] theorem State.updProbe_arrival (s : State) (p : Port) (f : Probe → Probe) : (s.updProbe p f).arrival = s.arrival := rfl
@[simp] theorem State.updProbe_queue (s : State) (p : Port) (f : Probe → Probe) : (s.updProbe p f).queue = s.queue := rfl
@[simp] theorem State.updProbe_back (s : State) (p : Port) (f : Probe → Probe) : (s.updProbe p f).back = s.back := rfl
@[simp] theorem State.updProbe_eve (s : State) (p : Port) (f : Probe → Probe) : (s.updProbe p f).eve = s.eve := rfl
@[simp] theorem State.updProbe_entries (s : State) (p : Port) (f : Probe → Probe) : (s.updProbe p f).entries = s.entries := rfl
@[simp] theorem State.updProbe_aborts (s : State) (p : Port) (f : Probe → Probe) : (s.updProbe p f).aborts = s.aborts := rfl
@[simp] theorem State.updProbe_exiting (s : State) (p : Port) (f : Probe → Probe) : (s.updProbe p f).exiting = s.exiting := rfl
@[simp] theorem State.updProbe_sensors (s : State) (p : Port) (f : Probe → Probe) : (s.updProbe p f).sensors = s.sensors := rfl
@[simp] theorem State.updProbe_rails (s : State) (p : Port) (f : Probe → Probe) : (s.updProbe p f).rails = s.rails := rfl
@[simp] theorem State.updProbe_avs (s : State) (p : Port) (f : Probe → Probe) : (s.updProbe p f).avs = s.avs := rfl
@[simp] theorem State.updProbe_clocks (s : State) (p : Port) (f : Probe → Probe) : (s.updProbe p f).clocks = s.clocks := rfl
@[simp] theorem State.updProbe_alarms (s : State) (p : Port) (f : Probe → Probe) : (s.updProbe p f).alarms = s.alarms := rfl
@[simp] theorem State.updProbe_portLinks (s : State) (p : Port) (f : Probe → Probe) : (s.updProbe p f).portLinks = s.portLinks := rfl
@[simp] theorem State.updProbe_tap (s : State) (p : Port) (f : Probe → Probe) : (s.updProbe p f).tap = s.tap := rfl
@[simp] theorem State.updProbe_scan (s : State) (p : Port) (f : Probe → Probe) : (s.updProbe p f).scan = s.scan := rfl
@[simp] theorem State.updProbe_diag (s : State) (p : Port) (f : Probe → Probe) : (s.updProbe p f).diag = s.diag := rfl
@[simp] theorem State.updProbe_vendorId (s : State) (p : Port) (f : Probe → Probe) : (s.updProbe p f).vendorId = s.vendorId := rfl
@[simp] theorem State.updProbe_pd (s : State) (p : Port) (f : Probe → Probe) : (s.updProbe p f).pd = s.pd := rfl
@[simp] theorem State.updProbe_queues (s : State) (p : Port) (f : Probe → Probe) : (s.updProbe p f).queues = s.queues := rfl
@[simp] theorem State.updProbe_uarts (s : State) (p : Port) (f : Probe → Probe) : (s.updProbe p f).uarts = s.uarts := rfl
@[simp] theorem State.updProbe_banks (s : State) (p : Port) (f : Probe → Probe) : (s.updProbe p f).banks = s.banks := rfl
@[simp] theorem State.updProbe_cells (s : State) (p : Port) (f : Probe → Probe) : (s.updProbe p f).cells = s.cells := rfl
@[simp] theorem State.updProbe_rings (s : State) (p : Port) (f : Probe → Probe) : (s.updProbe p f).rings = s.rings := rfl
@[simp] theorem State.updProbe_sticky (s : State) (p : Port) (f : Probe → Probe) : (s.updProbe p f).sticky = s.sticky := rfl
@[simp] theorem State.updProbe_pbm (s : State) (p : Port) (f : Probe → Probe) : (s.updProbe p f).pbm = s.pbm := rfl
@[simp] theorem State.updProbe_ttBucket (s : State) (p : Port) (f : Probe → Probe) : (s.updProbe p f).ttBucket = s.ttBucket := rfl
@[simp] theorem State.updProbe_powerLinks (s : State) (p : Port) (f : Probe → Probe) : (s.updProbe p f).powerLinks = s.powerLinks := rfl
@[simp] theorem State.updProbe_slots (s : State) (p : Port) (f : Probe → Probe) : (s.updProbe p f).slots = s.slots := rfl
@[simp] theorem State.updProbe_chains (s : State) (p : Port) (f : Probe → Probe) : (s.updProbe p f).chains = s.chains := rfl
@[simp] theorem State.updProbe_vbus (s : State) (p : Port) (f : Probe → Probe) : (s.updProbe p f).vbus = s.vbus := rfl

/-! ## updTree -/

@[simp] theorem State.updTree_pending (s : State) (k : Part) (side : Side) (f : HubTree → HubTree) : (s.updTree k side f).pending = s.pending := by cases side <;> rfl
@[simp] theorem State.updTree_wire (s : State) (k : Part) (side : Side) (f : HubTree → HubTree) : (s.updTree k side f).wire = s.wire := by cases side <;> rfl
@[simp] theorem State.updTree_freeCount (s : State) (k : Part) (side : Side) (f : HubTree → HubTree) : (s.updTree k side f).freeCount = s.freeCount := by cases side <;> rfl
@[simp] theorem State.updTree_mode (s : State) (k : Part) (side : Side) (f : HubTree → HubTree) : (s.updTree k side f).mode = s.mode := by cases side <;> rfl
@[simp] theorem State.updTree_sessions (s : State) (k : Part) (side : Side) (f : HubTree → HubTree) : (s.updTree k side f).sessions = s.sessions := by cases side <;> rfl
@[simp] theorem State.updTree_mailboxes (s : State) (k : Part) (side : Side) (f : HubTree → HubTree) : (s.updTree k side f).mailboxes = s.mailboxes := by cases side <;> rfl
@[simp] theorem State.updTree_smbus (s : State) (k : Part) (side : Side) (f : HubTree → HubTree) : (s.updTree k side f).smbus = s.smbus := by cases side <;> rfl
@[simp] theorem State.updTree_alertEnable (s : State) (k : Part) (side : Side) (f : HubTree → HubTree) : (s.updTree k side f).alertEnable = s.alertEnable := by cases side <;> rfl
@[simp] theorem State.updTree_heldEvents (s : State) (k : Part) (side : Side) (f : HubTree → HubTree) : (s.updTree k side f).heldEvents = s.heldEvents := by cases side <;> rfl
@[simp] theorem State.updTree_arrivals (s : State) (k : Part) (side : Side) (f : HubTree → HubTree) : (s.updTree k side f).arrivals = s.arrivals := by cases side <;> rfl
@[simp] theorem State.updTree_fw (s : State) (k : Part) (side : Side) (f : HubTree → HubTree) : (s.updTree k side f).fw = s.fw := by cases side <;> rfl
@[simp] theorem State.updTree_fault (s : State) (k : Part) (side : Side) (f : HubTree → HubTree) : (s.updTree k side f).fault = s.fault := by cases side <;> rfl
@[simp] theorem State.updTree_partOf (s : State) (k : Part) (side : Side) (f : HubTree → HubTree) : (s.updTree k side f).partOf = s.partOf := by cases side <;> rfl
@[simp] theorem State.updTree_posOf (s : State) (k : Part) (side : Side) (f : HubTree → HubTree) : (s.updTree k side f).posOf = s.posOf := by cases side <;> rfl
@[simp] theorem State.updTree_domains (s : State) (k : Part) (side : Side) (f : HubTree → HubTree) : (s.updTree k side f).domains = s.domains := by cases side <;> rfl
@[simp] theorem State.updTree_ports (s : State) (k : Part) (side : Side) (f : HubTree → HubTree) : (s.updTree k side f).ports = s.ports := by cases side <;> rfl
@[simp] theorem State.updTree_parts (s : State) (k : Part) (side : Side) (f : HubTree → HubTree) : (s.updTree k side f).parts = s.parts := by cases side <;> rfl
@[simp] theorem State.updTree_mfs (s : State) (k : Part) (side : Side) (f : HubTree → HubTree) : (s.updTree k side f).mfs = s.mfs := by cases side <;> rfl
@[simp] theorem State.updTree_ups (s : State) (k : Part) (side : Side) (f : HubTree → HubTree) : (s.updTree k side f).ups = s.ups := by cases side <;> rfl
@[simp] theorem State.updTree_lift (s : State) (k : Part) (side : Side) (f : HubTree → HubTree) : (s.updTree k side f).lift = s.lift := by cases side <;> rfl
@[simp] theorem State.updTree_microframe (s : State) (k : Part) (side : Side) (f : HubTree → HubTree) : (s.updTree k side f).microframe = s.microframe := by cases side <;> rfl
@[simp] theorem State.updTree_modeCfg (s : State) (k : Part) (side : Side) (f : HubTree → HubTree) : (s.updTree k side f).modeCfg = s.modeCfg := by cases side <;> rfl
@[simp] theorem State.updTree_origin (s : State) (k : Part) (side : Side) (f : HubTree → HubTree) : (s.updTree k side f).origin = s.origin := by cases side <;> rfl
@[simp] theorem State.updTree_cause (s : State) (k : Part) (side : Side) (f : HubTree → HubTree) : (s.updTree k side f).cause = s.cause := by cases side <;> rfl
@[simp] theorem State.updTree_detail (s : State) (k : Part) (side : Side) (f : HubTree → HubTree) : (s.updTree k side f).detail = s.detail := by cases side <;> rfl
@[simp] theorem State.updTree_aonUp (s : State) (k : Part) (side : Side) (f : HubTree → HubTree) : (s.updTree k side f).aonUp = s.aonUp := by cases side <;> rfl
@[simp] theorem State.updTree_testmode (s : State) (k : Part) (side : Side) (f : HubTree → HubTree) : (s.updTree k side f).testmode = s.testmode := by cases side <;> rfl
@[simp] theorem State.updTree_board (s : State) (k : Part) (side : Side) (f : HubTree → HubTree) : (s.updTree k side f).board = s.board := by cases side <;> rfl
@[simp] theorem State.updTree_wrstLow (s : State) (k : Part) (side : Side) (f : HubTree → HubTree) : (s.updTree k side f).wrstLow = s.wrstLow := by cases side <;> rfl
@[simp] theorem State.updTree_trans (s : State) (k : Part) (side : Side) (f : HubTree → HubTree) : (s.updTree k side f).trans = s.trans := by cases side <;> rfl
@[simp] theorem State.updTree_arrival (s : State) (k : Part) (side : Side) (f : HubTree → HubTree) : (s.updTree k side f).arrival = s.arrival := by cases side <;> rfl
@[simp] theorem State.updTree_queue (s : State) (k : Part) (side : Side) (f : HubTree → HubTree) : (s.updTree k side f).queue = s.queue := by cases side <;> rfl
@[simp] theorem State.updTree_back (s : State) (k : Part) (side : Side) (f : HubTree → HubTree) : (s.updTree k side f).back = s.back := by cases side <;> rfl
@[simp] theorem State.updTree_eve (s : State) (k : Part) (side : Side) (f : HubTree → HubTree) : (s.updTree k side f).eve = s.eve := by cases side <;> rfl
@[simp] theorem State.updTree_entries (s : State) (k : Part) (side : Side) (f : HubTree → HubTree) : (s.updTree k side f).entries = s.entries := by cases side <;> rfl
@[simp] theorem State.updTree_aborts (s : State) (k : Part) (side : Side) (f : HubTree → HubTree) : (s.updTree k side f).aborts = s.aborts := by cases side <;> rfl
@[simp] theorem State.updTree_exiting (s : State) (k : Part) (side : Side) (f : HubTree → HubTree) : (s.updTree k side f).exiting = s.exiting := by cases side <;> rfl
@[simp] theorem State.updTree_sensors (s : State) (k : Part) (side : Side) (f : HubTree → HubTree) : (s.updTree k side f).sensors = s.sensors := by cases side <;> rfl
@[simp] theorem State.updTree_rails (s : State) (k : Part) (side : Side) (f : HubTree → HubTree) : (s.updTree k side f).rails = s.rails := by cases side <;> rfl
@[simp] theorem State.updTree_avs (s : State) (k : Part) (side : Side) (f : HubTree → HubTree) : (s.updTree k side f).avs = s.avs := by cases side <;> rfl
@[simp] theorem State.updTree_clocks (s : State) (k : Part) (side : Side) (f : HubTree → HubTree) : (s.updTree k side f).clocks = s.clocks := by cases side <;> rfl
@[simp] theorem State.updTree_alarms (s : State) (k : Part) (side : Side) (f : HubTree → HubTree) : (s.updTree k side f).alarms = s.alarms := by cases side <;> rfl
@[simp] theorem State.updTree_portLinks (s : State) (k : Part) (side : Side) (f : HubTree → HubTree) : (s.updTree k side f).portLinks = s.portLinks := by cases side <;> rfl
@[simp] theorem State.updTree_tap (s : State) (k : Part) (side : Side) (f : HubTree → HubTree) : (s.updTree k side f).tap = s.tap := by cases side <;> rfl
@[simp] theorem State.updTree_scan (s : State) (k : Part) (side : Side) (f : HubTree → HubTree) : (s.updTree k side f).scan = s.scan := by cases side <;> rfl
@[simp] theorem State.updTree_diag (s : State) (k : Part) (side : Side) (f : HubTree → HubTree) : (s.updTree k side f).diag = s.diag := by cases side <;> rfl
@[simp] theorem State.updTree_vendorId (s : State) (k : Part) (side : Side) (f : HubTree → HubTree) : (s.updTree k side f).vendorId = s.vendorId := by cases side <;> rfl
@[simp] theorem State.updTree_pd (s : State) (k : Part) (side : Side) (f : HubTree → HubTree) : (s.updTree k side f).pd = s.pd := by cases side <;> rfl
@[simp] theorem State.updTree_queues (s : State) (k : Part) (side : Side) (f : HubTree → HubTree) : (s.updTree k side f).queues = s.queues := by cases side <;> rfl
@[simp] theorem State.updTree_uarts (s : State) (k : Part) (side : Side) (f : HubTree → HubTree) : (s.updTree k side f).uarts = s.uarts := by cases side <;> rfl
@[simp] theorem State.updTree_banks (s : State) (k : Part) (side : Side) (f : HubTree → HubTree) : (s.updTree k side f).banks = s.banks := by cases side <;> rfl
@[simp] theorem State.updTree_cells (s : State) (k : Part) (side : Side) (f : HubTree → HubTree) : (s.updTree k side f).cells = s.cells := by cases side <;> rfl
@[simp] theorem State.updTree_rings (s : State) (k : Part) (side : Side) (f : HubTree → HubTree) : (s.updTree k side f).rings = s.rings := by cases side <;> rfl
@[simp] theorem State.updTree_sticky (s : State) (k : Part) (side : Side) (f : HubTree → HubTree) : (s.updTree k side f).sticky = s.sticky := by cases side <;> rfl
@[simp] theorem State.updTree_pbm (s : State) (k : Part) (side : Side) (f : HubTree → HubTree) : (s.updTree k side f).pbm = s.pbm := by cases side <;> rfl
@[simp] theorem State.updTree_ttBucket (s : State) (k : Part) (side : Side) (f : HubTree → HubTree) : (s.updTree k side f).ttBucket = s.ttBucket := by cases side <;> rfl
@[simp] theorem State.updTree_powerLinks (s : State) (k : Part) (side : Side) (f : HubTree → HubTree) : (s.updTree k side f).powerLinks = s.powerLinks := by cases side <;> rfl
@[simp] theorem State.updTree_slots (s : State) (k : Part) (side : Side) (f : HubTree → HubTree) : (s.updTree k side f).slots = s.slots := by cases side <;> rfl
@[simp] theorem State.updTree_chains (s : State) (k : Part) (side : Side) (f : HubTree → HubTree) : (s.updTree k side f).chains = s.chains := by cases side <;> rfl
@[simp] theorem State.updTree_vbus (s : State) (k : Part) (side : Side) (f : HubTree → HubTree) : (s.updTree k side f).vbus = s.vbus := by cases side <;> rfl

/-! ## updPd -/

@[simp] theorem State.updPd_pd (s : State) (p : Port) (f : PdPort → PdPort) : (s.updPd p f).pd = s.pd.upd p f := rfl
@[simp] theorem State.updPd_pending (s : State) (p : Port) (f : PdPort → PdPort) : (s.updPd p f).pending = s.pending := rfl
@[simp] theorem State.updPd_wire (s : State) (p : Port) (f : PdPort → PdPort) : (s.updPd p f).wire = s.wire := rfl
@[simp] theorem State.updPd_freeCount (s : State) (p : Port) (f : PdPort → PdPort) : (s.updPd p f).freeCount = s.freeCount := rfl
@[simp] theorem State.updPd_mode (s : State) (p : Port) (f : PdPort → PdPort) : (s.updPd p f).mode = s.mode := rfl
@[simp] theorem State.updPd_sessions (s : State) (p : Port) (f : PdPort → PdPort) : (s.updPd p f).sessions = s.sessions := rfl
@[simp] theorem State.updPd_mailboxes (s : State) (p : Port) (f : PdPort → PdPort) : (s.updPd p f).mailboxes = s.mailboxes := rfl
@[simp] theorem State.updPd_smbus (s : State) (p : Port) (f : PdPort → PdPort) : (s.updPd p f).smbus = s.smbus := rfl
@[simp] theorem State.updPd_alertEnable (s : State) (p : Port) (f : PdPort → PdPort) : (s.updPd p f).alertEnable = s.alertEnable := rfl
@[simp] theorem State.updPd_heldEvents (s : State) (p : Port) (f : PdPort → PdPort) : (s.updPd p f).heldEvents = s.heldEvents := rfl
@[simp] theorem State.updPd_arrivals (s : State) (p : Port) (f : PdPort → PdPort) : (s.updPd p f).arrivals = s.arrivals := rfl
@[simp] theorem State.updPd_fw (s : State) (p : Port) (f : PdPort → PdPort) : (s.updPd p f).fw = s.fw := rfl
@[simp] theorem State.updPd_fault (s : State) (p : Port) (f : PdPort → PdPort) : (s.updPd p f).fault = s.fault := rfl
@[simp] theorem State.updPd_partOf (s : State) (p : Port) (f : PdPort → PdPort) : (s.updPd p f).partOf = s.partOf := rfl
@[simp] theorem State.updPd_posOf (s : State) (p : Port) (f : PdPort → PdPort) : (s.updPd p f).posOf = s.posOf := rfl
@[simp] theorem State.updPd_domains (s : State) (p : Port) (f : PdPort → PdPort) : (s.updPd p f).domains = s.domains := rfl
@[simp] theorem State.updPd_ports (s : State) (p : Port) (f : PdPort → PdPort) : (s.updPd p f).ports = s.ports := rfl
@[simp] theorem State.updPd_parts (s : State) (p : Port) (f : PdPort → PdPort) : (s.updPd p f).parts = s.parts := rfl
@[simp] theorem State.updPd_ssTree (s : State) (p : Port) (f : PdPort → PdPort) : (s.updPd p f).ssTree = s.ssTree := rfl
@[simp] theorem State.updPd_u2Tree (s : State) (p : Port) (f : PdPort → PdPort) : (s.updPd p f).u2Tree = s.u2Tree := rfl
@[simp] theorem State.updPd_mfs (s : State) (p : Port) (f : PdPort → PdPort) : (s.updPd p f).mfs = s.mfs := rfl
@[simp] theorem State.updPd_ups (s : State) (p : Port) (f : PdPort → PdPort) : (s.updPd p f).ups = s.ups := rfl
@[simp] theorem State.updPd_lift (s : State) (p : Port) (f : PdPort → PdPort) : (s.updPd p f).lift = s.lift := rfl
@[simp] theorem State.updPd_microframe (s : State) (p : Port) (f : PdPort → PdPort) : (s.updPd p f).microframe = s.microframe := rfl
@[simp] theorem State.updPd_modeCfg (s : State) (p : Port) (f : PdPort → PdPort) : (s.updPd p f).modeCfg = s.modeCfg := rfl
@[simp] theorem State.updPd_origin (s : State) (p : Port) (f : PdPort → PdPort) : (s.updPd p f).origin = s.origin := rfl
@[simp] theorem State.updPd_cause (s : State) (p : Port) (f : PdPort → PdPort) : (s.updPd p f).cause = s.cause := rfl
@[simp] theorem State.updPd_detail (s : State) (p : Port) (f : PdPort → PdPort) : (s.updPd p f).detail = s.detail := rfl
@[simp] theorem State.updPd_aonUp (s : State) (p : Port) (f : PdPort → PdPort) : (s.updPd p f).aonUp = s.aonUp := rfl
@[simp] theorem State.updPd_testmode (s : State) (p : Port) (f : PdPort → PdPort) : (s.updPd p f).testmode = s.testmode := rfl
@[simp] theorem State.updPd_board (s : State) (p : Port) (f : PdPort → PdPort) : (s.updPd p f).board = s.board := rfl
@[simp] theorem State.updPd_wrstLow (s : State) (p : Port) (f : PdPort → PdPort) : (s.updPd p f).wrstLow = s.wrstLow := rfl
@[simp] theorem State.updPd_trans (s : State) (p : Port) (f : PdPort → PdPort) : (s.updPd p f).trans = s.trans := rfl
@[simp] theorem State.updPd_arrival (s : State) (p : Port) (f : PdPort → PdPort) : (s.updPd p f).arrival = s.arrival := rfl
@[simp] theorem State.updPd_queue (s : State) (p : Port) (f : PdPort → PdPort) : (s.updPd p f).queue = s.queue := rfl
@[simp] theorem State.updPd_back (s : State) (p : Port) (f : PdPort → PdPort) : (s.updPd p f).back = s.back := rfl
@[simp] theorem State.updPd_eve (s : State) (p : Port) (f : PdPort → PdPort) : (s.updPd p f).eve = s.eve := rfl
@[simp] theorem State.updPd_entries (s : State) (p : Port) (f : PdPort → PdPort) : (s.updPd p f).entries = s.entries := rfl
@[simp] theorem State.updPd_aborts (s : State) (p : Port) (f : PdPort → PdPort) : (s.updPd p f).aborts = s.aborts := rfl
@[simp] theorem State.updPd_exiting (s : State) (p : Port) (f : PdPort → PdPort) : (s.updPd p f).exiting = s.exiting := rfl
@[simp] theorem State.updPd_sensors (s : State) (p : Port) (f : PdPort → PdPort) : (s.updPd p f).sensors = s.sensors := rfl
@[simp] theorem State.updPd_rails (s : State) (p : Port) (f : PdPort → PdPort) : (s.updPd p f).rails = s.rails := rfl
@[simp] theorem State.updPd_avs (s : State) (p : Port) (f : PdPort → PdPort) : (s.updPd p f).avs = s.avs := rfl
@[simp] theorem State.updPd_clocks (s : State) (p : Port) (f : PdPort → PdPort) : (s.updPd p f).clocks = s.clocks := rfl
@[simp] theorem State.updPd_alarms (s : State) (p : Port) (f : PdPort → PdPort) : (s.updPd p f).alarms = s.alarms := rfl
@[simp] theorem State.updPd_portLinks (s : State) (p : Port) (f : PdPort → PdPort) : (s.updPd p f).portLinks = s.portLinks := rfl
@[simp] theorem State.updPd_tap (s : State) (p : Port) (f : PdPort → PdPort) : (s.updPd p f).tap = s.tap := rfl
@[simp] theorem State.updPd_scan (s : State) (p : Port) (f : PdPort → PdPort) : (s.updPd p f).scan = s.scan := rfl
@[simp] theorem State.updPd_diag (s : State) (p : Port) (f : PdPort → PdPort) : (s.updPd p f).diag = s.diag := rfl
@[simp] theorem State.updPd_vendorId (s : State) (p : Port) (f : PdPort → PdPort) : (s.updPd p f).vendorId = s.vendorId := rfl
@[simp] theorem State.updPd_queues (s : State) (p : Port) (f : PdPort → PdPort) : (s.updPd p f).queues = s.queues := rfl
@[simp] theorem State.updPd_uarts (s : State) (p : Port) (f : PdPort → PdPort) : (s.updPd p f).uarts = s.uarts := rfl
@[simp] theorem State.updPd_banks (s : State) (p : Port) (f : PdPort → PdPort) : (s.updPd p f).banks = s.banks := rfl
@[simp] theorem State.updPd_cells (s : State) (p : Port) (f : PdPort → PdPort) : (s.updPd p f).cells = s.cells := rfl
@[simp] theorem State.updPd_rings (s : State) (p : Port) (f : PdPort → PdPort) : (s.updPd p f).rings = s.rings := rfl
@[simp] theorem State.updPd_sticky (s : State) (p : Port) (f : PdPort → PdPort) : (s.updPd p f).sticky = s.sticky := rfl
@[simp] theorem State.updPd_pbm (s : State) (p : Port) (f : PdPort → PdPort) : (s.updPd p f).pbm = s.pbm := rfl
@[simp] theorem State.updPd_ttBucket (s : State) (p : Port) (f : PdPort → PdPort) : (s.updPd p f).ttBucket = s.ttBucket := rfl
@[simp] theorem State.updPd_powerLinks (s : State) (p : Port) (f : PdPort → PdPort) : (s.updPd p f).powerLinks = s.powerLinks := rfl
@[simp] theorem State.updPd_slots (s : State) (p : Port) (f : PdPort → PdPort) : (s.updPd p f).slots = s.slots := rfl
@[simp] theorem State.updPd_chains (s : State) (p : Port) (f : PdPort → PdPort) : (s.updPd p f).chains = s.chains := rfl
@[simp] theorem State.updPd_vbus (s : State) (p : Port) (f : PdPort → PdPort) : (s.updPd p f).vbus = s.vbus := rfl

/-! ## updQueue -/

@[simp] theorem State.updQueue_pending (s : State) (k : Slot) (f : PdQueue → PdQueue) : (s.updQueue k f).pending = s.pending := rfl
@[simp] theorem State.updQueue_wire (s : State) (k : Slot) (f : PdQueue → PdQueue) : (s.updQueue k f).wire = s.wire := rfl
@[simp] theorem State.updQueue_freeCount (s : State) (k : Slot) (f : PdQueue → PdQueue) : (s.updQueue k f).freeCount = s.freeCount := rfl
@[simp] theorem State.updQueue_mode (s : State) (k : Slot) (f : PdQueue → PdQueue) : (s.updQueue k f).mode = s.mode := rfl
@[simp] theorem State.updQueue_sessions (s : State) (k : Slot) (f : PdQueue → PdQueue) : (s.updQueue k f).sessions = s.sessions := rfl
@[simp] theorem State.updQueue_mailboxes (s : State) (k : Slot) (f : PdQueue → PdQueue) : (s.updQueue k f).mailboxes = s.mailboxes := rfl
@[simp] theorem State.updQueue_smbus (s : State) (k : Slot) (f : PdQueue → PdQueue) : (s.updQueue k f).smbus = s.smbus := rfl
@[simp] theorem State.updQueue_alertEnable (s : State) (k : Slot) (f : PdQueue → PdQueue) : (s.updQueue k f).alertEnable = s.alertEnable := rfl
@[simp] theorem State.updQueue_heldEvents (s : State) (k : Slot) (f : PdQueue → PdQueue) : (s.updQueue k f).heldEvents = s.heldEvents := rfl
@[simp] theorem State.updQueue_arrivals (s : State) (k : Slot) (f : PdQueue → PdQueue) : (s.updQueue k f).arrivals = s.arrivals := rfl
@[simp] theorem State.updQueue_fw (s : State) (k : Slot) (f : PdQueue → PdQueue) : (s.updQueue k f).fw = s.fw := rfl
@[simp] theorem State.updQueue_fault (s : State) (k : Slot) (f : PdQueue → PdQueue) : (s.updQueue k f).fault = s.fault := rfl
@[simp] theorem State.updQueue_partOf (s : State) (k : Slot) (f : PdQueue → PdQueue) : (s.updQueue k f).partOf = s.partOf := rfl
@[simp] theorem State.updQueue_posOf (s : State) (k : Slot) (f : PdQueue → PdQueue) : (s.updQueue k f).posOf = s.posOf := rfl
@[simp] theorem State.updQueue_domains (s : State) (k : Slot) (f : PdQueue → PdQueue) : (s.updQueue k f).domains = s.domains := rfl
@[simp] theorem State.updQueue_ports (s : State) (k : Slot) (f : PdQueue → PdQueue) : (s.updQueue k f).ports = s.ports := rfl
@[simp] theorem State.updQueue_parts (s : State) (k : Slot) (f : PdQueue → PdQueue) : (s.updQueue k f).parts = s.parts := rfl
@[simp] theorem State.updQueue_ssTree (s : State) (k : Slot) (f : PdQueue → PdQueue) : (s.updQueue k f).ssTree = s.ssTree := rfl
@[simp] theorem State.updQueue_u2Tree (s : State) (k : Slot) (f : PdQueue → PdQueue) : (s.updQueue k f).u2Tree = s.u2Tree := rfl
@[simp] theorem State.updQueue_mfs (s : State) (k : Slot) (f : PdQueue → PdQueue) : (s.updQueue k f).mfs = s.mfs := rfl
@[simp] theorem State.updQueue_ups (s : State) (k : Slot) (f : PdQueue → PdQueue) : (s.updQueue k f).ups = s.ups := rfl
@[simp] theorem State.updQueue_lift (s : State) (k : Slot) (f : PdQueue → PdQueue) : (s.updQueue k f).lift = s.lift := rfl
@[simp] theorem State.updQueue_microframe (s : State) (k : Slot) (f : PdQueue → PdQueue) : (s.updQueue k f).microframe = s.microframe := rfl
@[simp] theorem State.updQueue_modeCfg (s : State) (k : Slot) (f : PdQueue → PdQueue) : (s.updQueue k f).modeCfg = s.modeCfg := rfl
@[simp] theorem State.updQueue_origin (s : State) (k : Slot) (f : PdQueue → PdQueue) : (s.updQueue k f).origin = s.origin := rfl
@[simp] theorem State.updQueue_cause (s : State) (k : Slot) (f : PdQueue → PdQueue) : (s.updQueue k f).cause = s.cause := rfl
@[simp] theorem State.updQueue_detail (s : State) (k : Slot) (f : PdQueue → PdQueue) : (s.updQueue k f).detail = s.detail := rfl
@[simp] theorem State.updQueue_aonUp (s : State) (k : Slot) (f : PdQueue → PdQueue) : (s.updQueue k f).aonUp = s.aonUp := rfl
@[simp] theorem State.updQueue_testmode (s : State) (k : Slot) (f : PdQueue → PdQueue) : (s.updQueue k f).testmode = s.testmode := rfl
@[simp] theorem State.updQueue_board (s : State) (k : Slot) (f : PdQueue → PdQueue) : (s.updQueue k f).board = s.board := rfl
@[simp] theorem State.updQueue_wrstLow (s : State) (k : Slot) (f : PdQueue → PdQueue) : (s.updQueue k f).wrstLow = s.wrstLow := rfl
@[simp] theorem State.updQueue_trans (s : State) (k : Slot) (f : PdQueue → PdQueue) : (s.updQueue k f).trans = s.trans := rfl
@[simp] theorem State.updQueue_arrival (s : State) (k : Slot) (f : PdQueue → PdQueue) : (s.updQueue k f).arrival = s.arrival := rfl
@[simp] theorem State.updQueue_queue (s : State) (k : Slot) (f : PdQueue → PdQueue) : (s.updQueue k f).queue = s.queue := rfl
@[simp] theorem State.updQueue_back (s : State) (k : Slot) (f : PdQueue → PdQueue) : (s.updQueue k f).back = s.back := rfl
@[simp] theorem State.updQueue_eve (s : State) (k : Slot) (f : PdQueue → PdQueue) : (s.updQueue k f).eve = s.eve := rfl
@[simp] theorem State.updQueue_entries (s : State) (k : Slot) (f : PdQueue → PdQueue) : (s.updQueue k f).entries = s.entries := rfl
@[simp] theorem State.updQueue_aborts (s : State) (k : Slot) (f : PdQueue → PdQueue) : (s.updQueue k f).aborts = s.aborts := rfl
@[simp] theorem State.updQueue_exiting (s : State) (k : Slot) (f : PdQueue → PdQueue) : (s.updQueue k f).exiting = s.exiting := rfl
@[simp] theorem State.updQueue_sensors (s : State) (k : Slot) (f : PdQueue → PdQueue) : (s.updQueue k f).sensors = s.sensors := rfl
@[simp] theorem State.updQueue_rails (s : State) (k : Slot) (f : PdQueue → PdQueue) : (s.updQueue k f).rails = s.rails := rfl
@[simp] theorem State.updQueue_avs (s : State) (k : Slot) (f : PdQueue → PdQueue) : (s.updQueue k f).avs = s.avs := rfl
@[simp] theorem State.updQueue_clocks (s : State) (k : Slot) (f : PdQueue → PdQueue) : (s.updQueue k f).clocks = s.clocks := rfl
@[simp] theorem State.updQueue_alarms (s : State) (k : Slot) (f : PdQueue → PdQueue) : (s.updQueue k f).alarms = s.alarms := rfl
@[simp] theorem State.updQueue_portLinks (s : State) (k : Slot) (f : PdQueue → PdQueue) : (s.updQueue k f).portLinks = s.portLinks := rfl
@[simp] theorem State.updQueue_tap (s : State) (k : Slot) (f : PdQueue → PdQueue) : (s.updQueue k f).tap = s.tap := rfl
@[simp] theorem State.updQueue_scan (s : State) (k : Slot) (f : PdQueue → PdQueue) : (s.updQueue k f).scan = s.scan := rfl
@[simp] theorem State.updQueue_diag (s : State) (k : Slot) (f : PdQueue → PdQueue) : (s.updQueue k f).diag = s.diag := rfl
@[simp] theorem State.updQueue_vendorId (s : State) (k : Slot) (f : PdQueue → PdQueue) : (s.updQueue k f).vendorId = s.vendorId := rfl
@[simp] theorem State.updQueue_pd (s : State) (k : Slot) (f : PdQueue → PdQueue) : (s.updQueue k f).pd = s.pd := rfl
@[simp] theorem State.updQueue_uarts (s : State) (k : Slot) (f : PdQueue → PdQueue) : (s.updQueue k f).uarts = s.uarts := rfl
@[simp] theorem State.updQueue_banks (s : State) (k : Slot) (f : PdQueue → PdQueue) : (s.updQueue k f).banks = s.banks := rfl
@[simp] theorem State.updQueue_cells (s : State) (k : Slot) (f : PdQueue → PdQueue) : (s.updQueue k f).cells = s.cells := rfl
@[simp] theorem State.updQueue_rings (s : State) (k : Slot) (f : PdQueue → PdQueue) : (s.updQueue k f).rings = s.rings := rfl
@[simp] theorem State.updQueue_sticky (s : State) (k : Slot) (f : PdQueue → PdQueue) : (s.updQueue k f).sticky = s.sticky := rfl
@[simp] theorem State.updQueue_pbm (s : State) (k : Slot) (f : PdQueue → PdQueue) : (s.updQueue k f).pbm = s.pbm := rfl
@[simp] theorem State.updQueue_ttBucket (s : State) (k : Slot) (f : PdQueue → PdQueue) : (s.updQueue k f).ttBucket = s.ttBucket := rfl
@[simp] theorem State.updQueue_powerLinks (s : State) (k : Slot) (f : PdQueue → PdQueue) : (s.updQueue k f).powerLinks = s.powerLinks := rfl
@[simp] theorem State.updQueue_slots (s : State) (k : Slot) (f : PdQueue → PdQueue) : (s.updQueue k f).slots = s.slots := rfl
@[simp] theorem State.updQueue_chains (s : State) (k : Slot) (f : PdQueue → PdQueue) : (s.updQueue k f).chains = s.chains := rfl
@[simp] theorem State.updQueue_vbus (s : State) (k : Slot) (f : PdQueue → PdQueue) : (s.updQueue k f).vbus = s.vbus := rfl

/-! ## updUart -/

@[simp] theorem State.updUart_uarts (s : State) (k : Part) (u : Fin 6) (f : UartSlot → UartSlot) : (s.updUart k u f).uarts = s.uarts.upd k (fun t => t.upd u f) := rfl
@[simp] theorem State.updUart_pending (s : State) (k : Part) (u : Fin 6) (f : UartSlot → UartSlot) : (s.updUart k u f).pending = s.pending := rfl
@[simp] theorem State.updUart_wire (s : State) (k : Part) (u : Fin 6) (f : UartSlot → UartSlot) : (s.updUart k u f).wire = s.wire := rfl
@[simp] theorem State.updUart_freeCount (s : State) (k : Part) (u : Fin 6) (f : UartSlot → UartSlot) : (s.updUart k u f).freeCount = s.freeCount := rfl
@[simp] theorem State.updUart_mode (s : State) (k : Part) (u : Fin 6) (f : UartSlot → UartSlot) : (s.updUart k u f).mode = s.mode := rfl
@[simp] theorem State.updUart_sessions (s : State) (k : Part) (u : Fin 6) (f : UartSlot → UartSlot) : (s.updUart k u f).sessions = s.sessions := rfl
@[simp] theorem State.updUart_mailboxes (s : State) (k : Part) (u : Fin 6) (f : UartSlot → UartSlot) : (s.updUart k u f).mailboxes = s.mailboxes := rfl
@[simp] theorem State.updUart_smbus (s : State) (k : Part) (u : Fin 6) (f : UartSlot → UartSlot) : (s.updUart k u f).smbus = s.smbus := rfl
@[simp] theorem State.updUart_alertEnable (s : State) (k : Part) (u : Fin 6) (f : UartSlot → UartSlot) : (s.updUart k u f).alertEnable = s.alertEnable := rfl
@[simp] theorem State.updUart_heldEvents (s : State) (k : Part) (u : Fin 6) (f : UartSlot → UartSlot) : (s.updUart k u f).heldEvents = s.heldEvents := rfl
@[simp] theorem State.updUart_arrivals (s : State) (k : Part) (u : Fin 6) (f : UartSlot → UartSlot) : (s.updUart k u f).arrivals = s.arrivals := rfl
@[simp] theorem State.updUart_fw (s : State) (k : Part) (u : Fin 6) (f : UartSlot → UartSlot) : (s.updUart k u f).fw = s.fw := rfl
@[simp] theorem State.updUart_fault (s : State) (k : Part) (u : Fin 6) (f : UartSlot → UartSlot) : (s.updUart k u f).fault = s.fault := rfl
@[simp] theorem State.updUart_partOf (s : State) (k : Part) (u : Fin 6) (f : UartSlot → UartSlot) : (s.updUart k u f).partOf = s.partOf := rfl
@[simp] theorem State.updUart_posOf (s : State) (k : Part) (u : Fin 6) (f : UartSlot → UartSlot) : (s.updUart k u f).posOf = s.posOf := rfl
@[simp] theorem State.updUart_domains (s : State) (k : Part) (u : Fin 6) (f : UartSlot → UartSlot) : (s.updUart k u f).domains = s.domains := rfl
@[simp] theorem State.updUart_ports (s : State) (k : Part) (u : Fin 6) (f : UartSlot → UartSlot) : (s.updUart k u f).ports = s.ports := rfl
@[simp] theorem State.updUart_parts (s : State) (k : Part) (u : Fin 6) (f : UartSlot → UartSlot) : (s.updUart k u f).parts = s.parts := rfl
@[simp] theorem State.updUart_ssTree (s : State) (k : Part) (u : Fin 6) (f : UartSlot → UartSlot) : (s.updUart k u f).ssTree = s.ssTree := rfl
@[simp] theorem State.updUart_u2Tree (s : State) (k : Part) (u : Fin 6) (f : UartSlot → UartSlot) : (s.updUart k u f).u2Tree = s.u2Tree := rfl
@[simp] theorem State.updUart_mfs (s : State) (k : Part) (u : Fin 6) (f : UartSlot → UartSlot) : (s.updUart k u f).mfs = s.mfs := rfl
@[simp] theorem State.updUart_ups (s : State) (k : Part) (u : Fin 6) (f : UartSlot → UartSlot) : (s.updUart k u f).ups = s.ups := rfl
@[simp] theorem State.updUart_lift (s : State) (k : Part) (u : Fin 6) (f : UartSlot → UartSlot) : (s.updUart k u f).lift = s.lift := rfl
@[simp] theorem State.updUart_microframe (s : State) (k : Part) (u : Fin 6) (f : UartSlot → UartSlot) : (s.updUart k u f).microframe = s.microframe := rfl
@[simp] theorem State.updUart_modeCfg (s : State) (k : Part) (u : Fin 6) (f : UartSlot → UartSlot) : (s.updUart k u f).modeCfg = s.modeCfg := rfl
@[simp] theorem State.updUart_origin (s : State) (k : Part) (u : Fin 6) (f : UartSlot → UartSlot) : (s.updUart k u f).origin = s.origin := rfl
@[simp] theorem State.updUart_cause (s : State) (k : Part) (u : Fin 6) (f : UartSlot → UartSlot) : (s.updUart k u f).cause = s.cause := rfl
@[simp] theorem State.updUart_detail (s : State) (k : Part) (u : Fin 6) (f : UartSlot → UartSlot) : (s.updUart k u f).detail = s.detail := rfl
@[simp] theorem State.updUart_aonUp (s : State) (k : Part) (u : Fin 6) (f : UartSlot → UartSlot) : (s.updUart k u f).aonUp = s.aonUp := rfl
@[simp] theorem State.updUart_testmode (s : State) (k : Part) (u : Fin 6) (f : UartSlot → UartSlot) : (s.updUart k u f).testmode = s.testmode := rfl
@[simp] theorem State.updUart_board (s : State) (k : Part) (u : Fin 6) (f : UartSlot → UartSlot) : (s.updUart k u f).board = s.board := rfl
@[simp] theorem State.updUart_wrstLow (s : State) (k : Part) (u : Fin 6) (f : UartSlot → UartSlot) : (s.updUart k u f).wrstLow = s.wrstLow := rfl
@[simp] theorem State.updUart_trans (s : State) (k : Part) (u : Fin 6) (f : UartSlot → UartSlot) : (s.updUart k u f).trans = s.trans := rfl
@[simp] theorem State.updUart_arrival (s : State) (k : Part) (u : Fin 6) (f : UartSlot → UartSlot) : (s.updUart k u f).arrival = s.arrival := rfl
@[simp] theorem State.updUart_queue (s : State) (k : Part) (u : Fin 6) (f : UartSlot → UartSlot) : (s.updUart k u f).queue = s.queue := rfl
@[simp] theorem State.updUart_back (s : State) (k : Part) (u : Fin 6) (f : UartSlot → UartSlot) : (s.updUart k u f).back = s.back := rfl
@[simp] theorem State.updUart_eve (s : State) (k : Part) (u : Fin 6) (f : UartSlot → UartSlot) : (s.updUart k u f).eve = s.eve := rfl
@[simp] theorem State.updUart_entries (s : State) (k : Part) (u : Fin 6) (f : UartSlot → UartSlot) : (s.updUart k u f).entries = s.entries := rfl
@[simp] theorem State.updUart_aborts (s : State) (k : Part) (u : Fin 6) (f : UartSlot → UartSlot) : (s.updUart k u f).aborts = s.aborts := rfl
@[simp] theorem State.updUart_exiting (s : State) (k : Part) (u : Fin 6) (f : UartSlot → UartSlot) : (s.updUart k u f).exiting = s.exiting := rfl
@[simp] theorem State.updUart_sensors (s : State) (k : Part) (u : Fin 6) (f : UartSlot → UartSlot) : (s.updUart k u f).sensors = s.sensors := rfl
@[simp] theorem State.updUart_rails (s : State) (k : Part) (u : Fin 6) (f : UartSlot → UartSlot) : (s.updUart k u f).rails = s.rails := rfl
@[simp] theorem State.updUart_avs (s : State) (k : Part) (u : Fin 6) (f : UartSlot → UartSlot) : (s.updUart k u f).avs = s.avs := rfl
@[simp] theorem State.updUart_clocks (s : State) (k : Part) (u : Fin 6) (f : UartSlot → UartSlot) : (s.updUart k u f).clocks = s.clocks := rfl
@[simp] theorem State.updUart_alarms (s : State) (k : Part) (u : Fin 6) (f : UartSlot → UartSlot) : (s.updUart k u f).alarms = s.alarms := rfl
@[simp] theorem State.updUart_portLinks (s : State) (k : Part) (u : Fin 6) (f : UartSlot → UartSlot) : (s.updUart k u f).portLinks = s.portLinks := rfl
@[simp] theorem State.updUart_tap (s : State) (k : Part) (u : Fin 6) (f : UartSlot → UartSlot) : (s.updUart k u f).tap = s.tap := rfl
@[simp] theorem State.updUart_scan (s : State) (k : Part) (u : Fin 6) (f : UartSlot → UartSlot) : (s.updUart k u f).scan = s.scan := rfl
@[simp] theorem State.updUart_diag (s : State) (k : Part) (u : Fin 6) (f : UartSlot → UartSlot) : (s.updUart k u f).diag = s.diag := rfl
@[simp] theorem State.updUart_vendorId (s : State) (k : Part) (u : Fin 6) (f : UartSlot → UartSlot) : (s.updUart k u f).vendorId = s.vendorId := rfl
@[simp] theorem State.updUart_pd (s : State) (k : Part) (u : Fin 6) (f : UartSlot → UartSlot) : (s.updUart k u f).pd = s.pd := rfl
@[simp] theorem State.updUart_queues (s : State) (k : Part) (u : Fin 6) (f : UartSlot → UartSlot) : (s.updUart k u f).queues = s.queues := rfl
@[simp] theorem State.updUart_banks (s : State) (k : Part) (u : Fin 6) (f : UartSlot → UartSlot) : (s.updUart k u f).banks = s.banks := rfl
@[simp] theorem State.updUart_cells (s : State) (k : Part) (u : Fin 6) (f : UartSlot → UartSlot) : (s.updUart k u f).cells = s.cells := rfl
@[simp] theorem State.updUart_rings (s : State) (k : Part) (u : Fin 6) (f : UartSlot → UartSlot) : (s.updUart k u f).rings = s.rings := rfl
@[simp] theorem State.updUart_sticky (s : State) (k : Part) (u : Fin 6) (f : UartSlot → UartSlot) : (s.updUart k u f).sticky = s.sticky := rfl
@[simp] theorem State.updUart_pbm (s : State) (k : Part) (u : Fin 6) (f : UartSlot → UartSlot) : (s.updUart k u f).pbm = s.pbm := rfl
@[simp] theorem State.updUart_ttBucket (s : State) (k : Part) (u : Fin 6) (f : UartSlot → UartSlot) : (s.updUart k u f).ttBucket = s.ttBucket := rfl
@[simp] theorem State.updUart_powerLinks (s : State) (k : Part) (u : Fin 6) (f : UartSlot → UartSlot) : (s.updUart k u f).powerLinks = s.powerLinks := rfl
@[simp] theorem State.updUart_slots (s : State) (k : Part) (u : Fin 6) (f : UartSlot → UartSlot) : (s.updUart k u f).slots = s.slots := rfl
@[simp] theorem State.updUart_chains (s : State) (k : Part) (u : Fin 6) (f : UartSlot → UartSlot) : (s.updUart k u f).chains = s.chains := rfl
@[simp] theorem State.updUart_vbus (s : State) (k : Part) (u : Fin 6) (f : UartSlot → UartSlot) : (s.updUart k u f).vbus = s.vbus := rfl

/-! ## updBank -/

@[simp] theorem State.updBank_banks (s : State) (b : Bank) (f : BankState → BankState) : (s.updBank b f).banks = s.banks.upd b f := rfl
@[simp] theorem State.updBank_pending (s : State) (b : Bank) (f : BankState → BankState) : (s.updBank b f).pending = s.pending := rfl
@[simp] theorem State.updBank_wire (s : State) (b : Bank) (f : BankState → BankState) : (s.updBank b f).wire = s.wire := rfl
@[simp] theorem State.updBank_freeCount (s : State) (b : Bank) (f : BankState → BankState) : (s.updBank b f).freeCount = s.freeCount := rfl
@[simp] theorem State.updBank_mode (s : State) (b : Bank) (f : BankState → BankState) : (s.updBank b f).mode = s.mode := rfl
@[simp] theorem State.updBank_sessions (s : State) (b : Bank) (f : BankState → BankState) : (s.updBank b f).sessions = s.sessions := rfl
@[simp] theorem State.updBank_mailboxes (s : State) (b : Bank) (f : BankState → BankState) : (s.updBank b f).mailboxes = s.mailboxes := rfl
@[simp] theorem State.updBank_smbus (s : State) (b : Bank) (f : BankState → BankState) : (s.updBank b f).smbus = s.smbus := rfl
@[simp] theorem State.updBank_alertEnable (s : State) (b : Bank) (f : BankState → BankState) : (s.updBank b f).alertEnable = s.alertEnable := rfl
@[simp] theorem State.updBank_heldEvents (s : State) (b : Bank) (f : BankState → BankState) : (s.updBank b f).heldEvents = s.heldEvents := rfl
@[simp] theorem State.updBank_arrivals (s : State) (b : Bank) (f : BankState → BankState) : (s.updBank b f).arrivals = s.arrivals := rfl
@[simp] theorem State.updBank_fw (s : State) (b : Bank) (f : BankState → BankState) : (s.updBank b f).fw = s.fw := rfl
@[simp] theorem State.updBank_fault (s : State) (b : Bank) (f : BankState → BankState) : (s.updBank b f).fault = s.fault := rfl
@[simp] theorem State.updBank_partOf (s : State) (b : Bank) (f : BankState → BankState) : (s.updBank b f).partOf = s.partOf := rfl
@[simp] theorem State.updBank_posOf (s : State) (b : Bank) (f : BankState → BankState) : (s.updBank b f).posOf = s.posOf := rfl
@[simp] theorem State.updBank_domains (s : State) (b : Bank) (f : BankState → BankState) : (s.updBank b f).domains = s.domains := rfl
@[simp] theorem State.updBank_ports (s : State) (b : Bank) (f : BankState → BankState) : (s.updBank b f).ports = s.ports := rfl
@[simp] theorem State.updBank_parts (s : State) (b : Bank) (f : BankState → BankState) : (s.updBank b f).parts = s.parts := rfl
@[simp] theorem State.updBank_ssTree (s : State) (b : Bank) (f : BankState → BankState) : (s.updBank b f).ssTree = s.ssTree := rfl
@[simp] theorem State.updBank_u2Tree (s : State) (b : Bank) (f : BankState → BankState) : (s.updBank b f).u2Tree = s.u2Tree := rfl
@[simp] theorem State.updBank_mfs (s : State) (b : Bank) (f : BankState → BankState) : (s.updBank b f).mfs = s.mfs := rfl
@[simp] theorem State.updBank_ups (s : State) (b : Bank) (f : BankState → BankState) : (s.updBank b f).ups = s.ups := rfl
@[simp] theorem State.updBank_lift (s : State) (b : Bank) (f : BankState → BankState) : (s.updBank b f).lift = s.lift := rfl
@[simp] theorem State.updBank_microframe (s : State) (b : Bank) (f : BankState → BankState) : (s.updBank b f).microframe = s.microframe := rfl
@[simp] theorem State.updBank_modeCfg (s : State) (b : Bank) (f : BankState → BankState) : (s.updBank b f).modeCfg = s.modeCfg := rfl
@[simp] theorem State.updBank_origin (s : State) (b : Bank) (f : BankState → BankState) : (s.updBank b f).origin = s.origin := rfl
@[simp] theorem State.updBank_cause (s : State) (b : Bank) (f : BankState → BankState) : (s.updBank b f).cause = s.cause := rfl
@[simp] theorem State.updBank_detail (s : State) (b : Bank) (f : BankState → BankState) : (s.updBank b f).detail = s.detail := rfl
@[simp] theorem State.updBank_aonUp (s : State) (b : Bank) (f : BankState → BankState) : (s.updBank b f).aonUp = s.aonUp := rfl
@[simp] theorem State.updBank_testmode (s : State) (b : Bank) (f : BankState → BankState) : (s.updBank b f).testmode = s.testmode := rfl
@[simp] theorem State.updBank_board (s : State) (b : Bank) (f : BankState → BankState) : (s.updBank b f).board = s.board := rfl
@[simp] theorem State.updBank_wrstLow (s : State) (b : Bank) (f : BankState → BankState) : (s.updBank b f).wrstLow = s.wrstLow := rfl
@[simp] theorem State.updBank_trans (s : State) (b : Bank) (f : BankState → BankState) : (s.updBank b f).trans = s.trans := rfl
@[simp] theorem State.updBank_arrival (s : State) (b : Bank) (f : BankState → BankState) : (s.updBank b f).arrival = s.arrival := rfl
@[simp] theorem State.updBank_queue (s : State) (b : Bank) (f : BankState → BankState) : (s.updBank b f).queue = s.queue := rfl
@[simp] theorem State.updBank_back (s : State) (b : Bank) (f : BankState → BankState) : (s.updBank b f).back = s.back := rfl
@[simp] theorem State.updBank_eve (s : State) (b : Bank) (f : BankState → BankState) : (s.updBank b f).eve = s.eve := rfl
@[simp] theorem State.updBank_entries (s : State) (b : Bank) (f : BankState → BankState) : (s.updBank b f).entries = s.entries := rfl
@[simp] theorem State.updBank_aborts (s : State) (b : Bank) (f : BankState → BankState) : (s.updBank b f).aborts = s.aborts := rfl
@[simp] theorem State.updBank_exiting (s : State) (b : Bank) (f : BankState → BankState) : (s.updBank b f).exiting = s.exiting := rfl
@[simp] theorem State.updBank_sensors (s : State) (b : Bank) (f : BankState → BankState) : (s.updBank b f).sensors = s.sensors := rfl
@[simp] theorem State.updBank_rails (s : State) (b : Bank) (f : BankState → BankState) : (s.updBank b f).rails = s.rails := rfl
@[simp] theorem State.updBank_avs (s : State) (b : Bank) (f : BankState → BankState) : (s.updBank b f).avs = s.avs := rfl
@[simp] theorem State.updBank_clocks (s : State) (b : Bank) (f : BankState → BankState) : (s.updBank b f).clocks = s.clocks := rfl
@[simp] theorem State.updBank_alarms (s : State) (b : Bank) (f : BankState → BankState) : (s.updBank b f).alarms = s.alarms := rfl
@[simp] theorem State.updBank_portLinks (s : State) (b : Bank) (f : BankState → BankState) : (s.updBank b f).portLinks = s.portLinks := rfl
@[simp] theorem State.updBank_tap (s : State) (b : Bank) (f : BankState → BankState) : (s.updBank b f).tap = s.tap := rfl
@[simp] theorem State.updBank_scan (s : State) (b : Bank) (f : BankState → BankState) : (s.updBank b f).scan = s.scan := rfl
@[simp] theorem State.updBank_diag (s : State) (b : Bank) (f : BankState → BankState) : (s.updBank b f).diag = s.diag := rfl
@[simp] theorem State.updBank_vendorId (s : State) (b : Bank) (f : BankState → BankState) : (s.updBank b f).vendorId = s.vendorId := rfl
@[simp] theorem State.updBank_pd (s : State) (b : Bank) (f : BankState → BankState) : (s.updBank b f).pd = s.pd := rfl
@[simp] theorem State.updBank_queues (s : State) (b : Bank) (f : BankState → BankState) : (s.updBank b f).queues = s.queues := rfl
@[simp] theorem State.updBank_uarts (s : State) (b : Bank) (f : BankState → BankState) : (s.updBank b f).uarts = s.uarts := rfl
@[simp] theorem State.updBank_cells (s : State) (b : Bank) (f : BankState → BankState) : (s.updBank b f).cells = s.cells := rfl
@[simp] theorem State.updBank_rings (s : State) (b : Bank) (f : BankState → BankState) : (s.updBank b f).rings = s.rings := rfl
@[simp] theorem State.updBank_sticky (s : State) (b : Bank) (f : BankState → BankState) : (s.updBank b f).sticky = s.sticky := rfl
@[simp] theorem State.updBank_pbm (s : State) (b : Bank) (f : BankState → BankState) : (s.updBank b f).pbm = s.pbm := rfl
@[simp] theorem State.updBank_ttBucket (s : State) (b : Bank) (f : BankState → BankState) : (s.updBank b f).ttBucket = s.ttBucket := rfl
@[simp] theorem State.updBank_powerLinks (s : State) (b : Bank) (f : BankState → BankState) : (s.updBank b f).powerLinks = s.powerLinks := rfl
@[simp] theorem State.updBank_slots (s : State) (b : Bank) (f : BankState → BankState) : (s.updBank b f).slots = s.slots := rfl
@[simp] theorem State.updBank_chains (s : State) (b : Bank) (f : BankState → BankState) : (s.updBank b f).chains = s.chains := rfl
@[simp] theorem State.updBank_vbus (s : State) (b : Bank) (f : BankState → BankState) : (s.updBank b f).vbus = s.vbus := rfl

/-! ## updRing -/

@[simp] theorem State.updRing_rings (s : State) (o : RowOwner) (f : Ring → Ring) : (s.updRing o f).rings = s.rings.map (fun r => if r.owner = o then f r else r) := rfl
@[simp] theorem State.updRing_pending (s : State) (o : RowOwner) (f : Ring → Ring) : (s.updRing o f).pending = s.pending := rfl
@[simp] theorem State.updRing_wire (s : State) (o : RowOwner) (f : Ring → Ring) : (s.updRing o f).wire = s.wire := rfl
@[simp] theorem State.updRing_freeCount (s : State) (o : RowOwner) (f : Ring → Ring) : (s.updRing o f).freeCount = s.freeCount := rfl
@[simp] theorem State.updRing_mode (s : State) (o : RowOwner) (f : Ring → Ring) : (s.updRing o f).mode = s.mode := rfl
@[simp] theorem State.updRing_sessions (s : State) (o : RowOwner) (f : Ring → Ring) : (s.updRing o f).sessions = s.sessions := rfl
@[simp] theorem State.updRing_mailboxes (s : State) (o : RowOwner) (f : Ring → Ring) : (s.updRing o f).mailboxes = s.mailboxes := rfl
@[simp] theorem State.updRing_smbus (s : State) (o : RowOwner) (f : Ring → Ring) : (s.updRing o f).smbus = s.smbus := rfl
@[simp] theorem State.updRing_alertEnable (s : State) (o : RowOwner) (f : Ring → Ring) : (s.updRing o f).alertEnable = s.alertEnable := rfl
@[simp] theorem State.updRing_heldEvents (s : State) (o : RowOwner) (f : Ring → Ring) : (s.updRing o f).heldEvents = s.heldEvents := rfl
@[simp] theorem State.updRing_arrivals (s : State) (o : RowOwner) (f : Ring → Ring) : (s.updRing o f).arrivals = s.arrivals := rfl
@[simp] theorem State.updRing_fw (s : State) (o : RowOwner) (f : Ring → Ring) : (s.updRing o f).fw = s.fw := rfl
@[simp] theorem State.updRing_fault (s : State) (o : RowOwner) (f : Ring → Ring) : (s.updRing o f).fault = s.fault := rfl
@[simp] theorem State.updRing_partOf (s : State) (o : RowOwner) (f : Ring → Ring) : (s.updRing o f).partOf = s.partOf := rfl
@[simp] theorem State.updRing_posOf (s : State) (o : RowOwner) (f : Ring → Ring) : (s.updRing o f).posOf = s.posOf := rfl
@[simp] theorem State.updRing_domains (s : State) (o : RowOwner) (f : Ring → Ring) : (s.updRing o f).domains = s.domains := rfl
@[simp] theorem State.updRing_ports (s : State) (o : RowOwner) (f : Ring → Ring) : (s.updRing o f).ports = s.ports := rfl
@[simp] theorem State.updRing_parts (s : State) (o : RowOwner) (f : Ring → Ring) : (s.updRing o f).parts = s.parts := rfl
@[simp] theorem State.updRing_ssTree (s : State) (o : RowOwner) (f : Ring → Ring) : (s.updRing o f).ssTree = s.ssTree := rfl
@[simp] theorem State.updRing_u2Tree (s : State) (o : RowOwner) (f : Ring → Ring) : (s.updRing o f).u2Tree = s.u2Tree := rfl
@[simp] theorem State.updRing_mfs (s : State) (o : RowOwner) (f : Ring → Ring) : (s.updRing o f).mfs = s.mfs := rfl
@[simp] theorem State.updRing_ups (s : State) (o : RowOwner) (f : Ring → Ring) : (s.updRing o f).ups = s.ups := rfl
@[simp] theorem State.updRing_lift (s : State) (o : RowOwner) (f : Ring → Ring) : (s.updRing o f).lift = s.lift := rfl
@[simp] theorem State.updRing_microframe (s : State) (o : RowOwner) (f : Ring → Ring) : (s.updRing o f).microframe = s.microframe := rfl
@[simp] theorem State.updRing_modeCfg (s : State) (o : RowOwner) (f : Ring → Ring) : (s.updRing o f).modeCfg = s.modeCfg := rfl
@[simp] theorem State.updRing_origin (s : State) (o : RowOwner) (f : Ring → Ring) : (s.updRing o f).origin = s.origin := rfl
@[simp] theorem State.updRing_cause (s : State) (o : RowOwner) (f : Ring → Ring) : (s.updRing o f).cause = s.cause := rfl
@[simp] theorem State.updRing_detail (s : State) (o : RowOwner) (f : Ring → Ring) : (s.updRing o f).detail = s.detail := rfl
@[simp] theorem State.updRing_aonUp (s : State) (o : RowOwner) (f : Ring → Ring) : (s.updRing o f).aonUp = s.aonUp := rfl
@[simp] theorem State.updRing_testmode (s : State) (o : RowOwner) (f : Ring → Ring) : (s.updRing o f).testmode = s.testmode := rfl
@[simp] theorem State.updRing_board (s : State) (o : RowOwner) (f : Ring → Ring) : (s.updRing o f).board = s.board := rfl
@[simp] theorem State.updRing_wrstLow (s : State) (o : RowOwner) (f : Ring → Ring) : (s.updRing o f).wrstLow = s.wrstLow := rfl
@[simp] theorem State.updRing_trans (s : State) (o : RowOwner) (f : Ring → Ring) : (s.updRing o f).trans = s.trans := rfl
@[simp] theorem State.updRing_arrival (s : State) (o : RowOwner) (f : Ring → Ring) : (s.updRing o f).arrival = s.arrival := rfl
@[simp] theorem State.updRing_queue (s : State) (o : RowOwner) (f : Ring → Ring) : (s.updRing o f).queue = s.queue := rfl
@[simp] theorem State.updRing_back (s : State) (o : RowOwner) (f : Ring → Ring) : (s.updRing o f).back = s.back := rfl
@[simp] theorem State.updRing_eve (s : State) (o : RowOwner) (f : Ring → Ring) : (s.updRing o f).eve = s.eve := rfl
@[simp] theorem State.updRing_entries (s : State) (o : RowOwner) (f : Ring → Ring) : (s.updRing o f).entries = s.entries := rfl
@[simp] theorem State.updRing_aborts (s : State) (o : RowOwner) (f : Ring → Ring) : (s.updRing o f).aborts = s.aborts := rfl
@[simp] theorem State.updRing_exiting (s : State) (o : RowOwner) (f : Ring → Ring) : (s.updRing o f).exiting = s.exiting := rfl
@[simp] theorem State.updRing_sensors (s : State) (o : RowOwner) (f : Ring → Ring) : (s.updRing o f).sensors = s.sensors := rfl
@[simp] theorem State.updRing_rails (s : State) (o : RowOwner) (f : Ring → Ring) : (s.updRing o f).rails = s.rails := rfl
@[simp] theorem State.updRing_avs (s : State) (o : RowOwner) (f : Ring → Ring) : (s.updRing o f).avs = s.avs := rfl
@[simp] theorem State.updRing_clocks (s : State) (o : RowOwner) (f : Ring → Ring) : (s.updRing o f).clocks = s.clocks := rfl
@[simp] theorem State.updRing_alarms (s : State) (o : RowOwner) (f : Ring → Ring) : (s.updRing o f).alarms = s.alarms := rfl
@[simp] theorem State.updRing_portLinks (s : State) (o : RowOwner) (f : Ring → Ring) : (s.updRing o f).portLinks = s.portLinks := rfl
@[simp] theorem State.updRing_tap (s : State) (o : RowOwner) (f : Ring → Ring) : (s.updRing o f).tap = s.tap := rfl
@[simp] theorem State.updRing_scan (s : State) (o : RowOwner) (f : Ring → Ring) : (s.updRing o f).scan = s.scan := rfl
@[simp] theorem State.updRing_diag (s : State) (o : RowOwner) (f : Ring → Ring) : (s.updRing o f).diag = s.diag := rfl
@[simp] theorem State.updRing_vendorId (s : State) (o : RowOwner) (f : Ring → Ring) : (s.updRing o f).vendorId = s.vendorId := rfl
@[simp] theorem State.updRing_pd (s : State) (o : RowOwner) (f : Ring → Ring) : (s.updRing o f).pd = s.pd := rfl
@[simp] theorem State.updRing_queues (s : State) (o : RowOwner) (f : Ring → Ring) : (s.updRing o f).queues = s.queues := rfl
@[simp] theorem State.updRing_uarts (s : State) (o : RowOwner) (f : Ring → Ring) : (s.updRing o f).uarts = s.uarts := rfl
@[simp] theorem State.updRing_banks (s : State) (o : RowOwner) (f : Ring → Ring) : (s.updRing o f).banks = s.banks := rfl
@[simp] theorem State.updRing_cells (s : State) (o : RowOwner) (f : Ring → Ring) : (s.updRing o f).cells = s.cells := rfl
@[simp] theorem State.updRing_sticky (s : State) (o : RowOwner) (f : Ring → Ring) : (s.updRing o f).sticky = s.sticky := rfl
@[simp] theorem State.updRing_pbm (s : State) (o : RowOwner) (f : Ring → Ring) : (s.updRing o f).pbm = s.pbm := rfl
@[simp] theorem State.updRing_ttBucket (s : State) (o : RowOwner) (f : Ring → Ring) : (s.updRing o f).ttBucket = s.ttBucket := rfl
@[simp] theorem State.updRing_powerLinks (s : State) (o : RowOwner) (f : Ring → Ring) : (s.updRing o f).powerLinks = s.powerLinks := rfl
@[simp] theorem State.updRing_slots (s : State) (o : RowOwner) (f : Ring → Ring) : (s.updRing o f).slots = s.slots := rfl
@[simp] theorem State.updRing_chains (s : State) (o : RowOwner) (f : Ring → Ring) : (s.updRing o f).chains = s.chains := rfl
@[simp] theorem State.updRing_vbus (s : State) (o : RowOwner) (f : Ring → Ring) : (s.updRing o f).vbus = s.vbus := rfl

/-! ## updSlot -/

@[simp] theorem State.updSlot_slots (s : State) (k : Slot) (f : SlotState → SlotState) : (s.updSlot k f).slots = s.slots.upd k f := rfl
@[simp] theorem State.updSlot_pending (s : State) (k : Slot) (f : SlotState → SlotState) : (s.updSlot k f).pending = s.pending := rfl
@[simp] theorem State.updSlot_wire (s : State) (k : Slot) (f : SlotState → SlotState) : (s.updSlot k f).wire = s.wire := rfl
@[simp] theorem State.updSlot_freeCount (s : State) (k : Slot) (f : SlotState → SlotState) : (s.updSlot k f).freeCount = s.freeCount := rfl
@[simp] theorem State.updSlot_mode (s : State) (k : Slot) (f : SlotState → SlotState) : (s.updSlot k f).mode = s.mode := rfl
@[simp] theorem State.updSlot_sessions (s : State) (k : Slot) (f : SlotState → SlotState) : (s.updSlot k f).sessions = s.sessions := rfl
@[simp] theorem State.updSlot_mailboxes (s : State) (k : Slot) (f : SlotState → SlotState) : (s.updSlot k f).mailboxes = s.mailboxes := rfl
@[simp] theorem State.updSlot_smbus (s : State) (k : Slot) (f : SlotState → SlotState) : (s.updSlot k f).smbus = s.smbus := rfl
@[simp] theorem State.updSlot_alertEnable (s : State) (k : Slot) (f : SlotState → SlotState) : (s.updSlot k f).alertEnable = s.alertEnable := rfl
@[simp] theorem State.updSlot_heldEvents (s : State) (k : Slot) (f : SlotState → SlotState) : (s.updSlot k f).heldEvents = s.heldEvents := rfl
@[simp] theorem State.updSlot_arrivals (s : State) (k : Slot) (f : SlotState → SlotState) : (s.updSlot k f).arrivals = s.arrivals := rfl
@[simp] theorem State.updSlot_fw (s : State) (k : Slot) (f : SlotState → SlotState) : (s.updSlot k f).fw = s.fw := rfl
@[simp] theorem State.updSlot_fault (s : State) (k : Slot) (f : SlotState → SlotState) : (s.updSlot k f).fault = s.fault := rfl
@[simp] theorem State.updSlot_partOf (s : State) (k : Slot) (f : SlotState → SlotState) : (s.updSlot k f).partOf = s.partOf := rfl
@[simp] theorem State.updSlot_posOf (s : State) (k : Slot) (f : SlotState → SlotState) : (s.updSlot k f).posOf = s.posOf := rfl
@[simp] theorem State.updSlot_domains (s : State) (k : Slot) (f : SlotState → SlotState) : (s.updSlot k f).domains = s.domains := rfl
@[simp] theorem State.updSlot_ports (s : State) (k : Slot) (f : SlotState → SlotState) : (s.updSlot k f).ports = s.ports := rfl
@[simp] theorem State.updSlot_parts (s : State) (k : Slot) (f : SlotState → SlotState) : (s.updSlot k f).parts = s.parts := rfl
@[simp] theorem State.updSlot_ssTree (s : State) (k : Slot) (f : SlotState → SlotState) : (s.updSlot k f).ssTree = s.ssTree := rfl
@[simp] theorem State.updSlot_u2Tree (s : State) (k : Slot) (f : SlotState → SlotState) : (s.updSlot k f).u2Tree = s.u2Tree := rfl
@[simp] theorem State.updSlot_mfs (s : State) (k : Slot) (f : SlotState → SlotState) : (s.updSlot k f).mfs = s.mfs := rfl
@[simp] theorem State.updSlot_ups (s : State) (k : Slot) (f : SlotState → SlotState) : (s.updSlot k f).ups = s.ups := rfl
@[simp] theorem State.updSlot_lift (s : State) (k : Slot) (f : SlotState → SlotState) : (s.updSlot k f).lift = s.lift := rfl
@[simp] theorem State.updSlot_microframe (s : State) (k : Slot) (f : SlotState → SlotState) : (s.updSlot k f).microframe = s.microframe := rfl
@[simp] theorem State.updSlot_modeCfg (s : State) (k : Slot) (f : SlotState → SlotState) : (s.updSlot k f).modeCfg = s.modeCfg := rfl
@[simp] theorem State.updSlot_origin (s : State) (k : Slot) (f : SlotState → SlotState) : (s.updSlot k f).origin = s.origin := rfl
@[simp] theorem State.updSlot_cause (s : State) (k : Slot) (f : SlotState → SlotState) : (s.updSlot k f).cause = s.cause := rfl
@[simp] theorem State.updSlot_detail (s : State) (k : Slot) (f : SlotState → SlotState) : (s.updSlot k f).detail = s.detail := rfl
@[simp] theorem State.updSlot_aonUp (s : State) (k : Slot) (f : SlotState → SlotState) : (s.updSlot k f).aonUp = s.aonUp := rfl
@[simp] theorem State.updSlot_testmode (s : State) (k : Slot) (f : SlotState → SlotState) : (s.updSlot k f).testmode = s.testmode := rfl
@[simp] theorem State.updSlot_board (s : State) (k : Slot) (f : SlotState → SlotState) : (s.updSlot k f).board = s.board := rfl
@[simp] theorem State.updSlot_wrstLow (s : State) (k : Slot) (f : SlotState → SlotState) : (s.updSlot k f).wrstLow = s.wrstLow := rfl
@[simp] theorem State.updSlot_trans (s : State) (k : Slot) (f : SlotState → SlotState) : (s.updSlot k f).trans = s.trans := rfl
@[simp] theorem State.updSlot_arrival (s : State) (k : Slot) (f : SlotState → SlotState) : (s.updSlot k f).arrival = s.arrival := rfl
@[simp] theorem State.updSlot_queue (s : State) (k : Slot) (f : SlotState → SlotState) : (s.updSlot k f).queue = s.queue := rfl
@[simp] theorem State.updSlot_back (s : State) (k : Slot) (f : SlotState → SlotState) : (s.updSlot k f).back = s.back := rfl
@[simp] theorem State.updSlot_eve (s : State) (k : Slot) (f : SlotState → SlotState) : (s.updSlot k f).eve = s.eve := rfl
@[simp] theorem State.updSlot_entries (s : State) (k : Slot) (f : SlotState → SlotState) : (s.updSlot k f).entries = s.entries := rfl
@[simp] theorem State.updSlot_aborts (s : State) (k : Slot) (f : SlotState → SlotState) : (s.updSlot k f).aborts = s.aborts := rfl
@[simp] theorem State.updSlot_exiting (s : State) (k : Slot) (f : SlotState → SlotState) : (s.updSlot k f).exiting = s.exiting := rfl
@[simp] theorem State.updSlot_sensors (s : State) (k : Slot) (f : SlotState → SlotState) : (s.updSlot k f).sensors = s.sensors := rfl
@[simp] theorem State.updSlot_rails (s : State) (k : Slot) (f : SlotState → SlotState) : (s.updSlot k f).rails = s.rails := rfl
@[simp] theorem State.updSlot_avs (s : State) (k : Slot) (f : SlotState → SlotState) : (s.updSlot k f).avs = s.avs := rfl
@[simp] theorem State.updSlot_clocks (s : State) (k : Slot) (f : SlotState → SlotState) : (s.updSlot k f).clocks = s.clocks := rfl
@[simp] theorem State.updSlot_alarms (s : State) (k : Slot) (f : SlotState → SlotState) : (s.updSlot k f).alarms = s.alarms := rfl
@[simp] theorem State.updSlot_portLinks (s : State) (k : Slot) (f : SlotState → SlotState) : (s.updSlot k f).portLinks = s.portLinks := rfl
@[simp] theorem State.updSlot_tap (s : State) (k : Slot) (f : SlotState → SlotState) : (s.updSlot k f).tap = s.tap := rfl
@[simp] theorem State.updSlot_scan (s : State) (k : Slot) (f : SlotState → SlotState) : (s.updSlot k f).scan = s.scan := rfl
@[simp] theorem State.updSlot_diag (s : State) (k : Slot) (f : SlotState → SlotState) : (s.updSlot k f).diag = s.diag := rfl
@[simp] theorem State.updSlot_vendorId (s : State) (k : Slot) (f : SlotState → SlotState) : (s.updSlot k f).vendorId = s.vendorId := rfl
@[simp] theorem State.updSlot_pd (s : State) (k : Slot) (f : SlotState → SlotState) : (s.updSlot k f).pd = s.pd := rfl
@[simp] theorem State.updSlot_queues (s : State) (k : Slot) (f : SlotState → SlotState) : (s.updSlot k f).queues = s.queues := rfl
@[simp] theorem State.updSlot_uarts (s : State) (k : Slot) (f : SlotState → SlotState) : (s.updSlot k f).uarts = s.uarts := rfl
@[simp] theorem State.updSlot_banks (s : State) (k : Slot) (f : SlotState → SlotState) : (s.updSlot k f).banks = s.banks := rfl
@[simp] theorem State.updSlot_cells (s : State) (k : Slot) (f : SlotState → SlotState) : (s.updSlot k f).cells = s.cells := rfl
@[simp] theorem State.updSlot_rings (s : State) (k : Slot) (f : SlotState → SlotState) : (s.updSlot k f).rings = s.rings := rfl
@[simp] theorem State.updSlot_sticky (s : State) (k : Slot) (f : SlotState → SlotState) : (s.updSlot k f).sticky = s.sticky := rfl
@[simp] theorem State.updSlot_pbm (s : State) (k : Slot) (f : SlotState → SlotState) : (s.updSlot k f).pbm = s.pbm := rfl
@[simp] theorem State.updSlot_ttBucket (s : State) (k : Slot) (f : SlotState → SlotState) : (s.updSlot k f).ttBucket = s.ttBucket := rfl
@[simp] theorem State.updSlot_powerLinks (s : State) (k : Slot) (f : SlotState → SlotState) : (s.updSlot k f).powerLinks = s.powerLinks := rfl
@[simp] theorem State.updSlot_chains (s : State) (k : Slot) (f : SlotState → SlotState) : (s.updSlot k f).chains = s.chains := rfl
@[simp] theorem State.updSlot_vbus (s : State) (k : Slot) (f : SlotState → SlotState) : (s.updSlot k f).vbus = s.vbus := rfl

/-! ## updChain -/

@[simp] theorem State.updChain_chains (s : State) (k : Slot) (f : ChainState → ChainState) : (s.updChain k f).chains = s.chains.upd k f := rfl
@[simp] theorem State.updChain_pending (s : State) (k : Slot) (f : ChainState → ChainState) : (s.updChain k f).pending = s.pending := rfl
@[simp] theorem State.updChain_wire (s : State) (k : Slot) (f : ChainState → ChainState) : (s.updChain k f).wire = s.wire := rfl
@[simp] theorem State.updChain_freeCount (s : State) (k : Slot) (f : ChainState → ChainState) : (s.updChain k f).freeCount = s.freeCount := rfl
@[simp] theorem State.updChain_mode (s : State) (k : Slot) (f : ChainState → ChainState) : (s.updChain k f).mode = s.mode := rfl
@[simp] theorem State.updChain_sessions (s : State) (k : Slot) (f : ChainState → ChainState) : (s.updChain k f).sessions = s.sessions := rfl
@[simp] theorem State.updChain_mailboxes (s : State) (k : Slot) (f : ChainState → ChainState) : (s.updChain k f).mailboxes = s.mailboxes := rfl
@[simp] theorem State.updChain_smbus (s : State) (k : Slot) (f : ChainState → ChainState) : (s.updChain k f).smbus = s.smbus := rfl
@[simp] theorem State.updChain_alertEnable (s : State) (k : Slot) (f : ChainState → ChainState) : (s.updChain k f).alertEnable = s.alertEnable := rfl
@[simp] theorem State.updChain_heldEvents (s : State) (k : Slot) (f : ChainState → ChainState) : (s.updChain k f).heldEvents = s.heldEvents := rfl
@[simp] theorem State.updChain_arrivals (s : State) (k : Slot) (f : ChainState → ChainState) : (s.updChain k f).arrivals = s.arrivals := rfl
@[simp] theorem State.updChain_fw (s : State) (k : Slot) (f : ChainState → ChainState) : (s.updChain k f).fw = s.fw := rfl
@[simp] theorem State.updChain_fault (s : State) (k : Slot) (f : ChainState → ChainState) : (s.updChain k f).fault = s.fault := rfl
@[simp] theorem State.updChain_partOf (s : State) (k : Slot) (f : ChainState → ChainState) : (s.updChain k f).partOf = s.partOf := rfl
@[simp] theorem State.updChain_posOf (s : State) (k : Slot) (f : ChainState → ChainState) : (s.updChain k f).posOf = s.posOf := rfl
@[simp] theorem State.updChain_domains (s : State) (k : Slot) (f : ChainState → ChainState) : (s.updChain k f).domains = s.domains := rfl
@[simp] theorem State.updChain_ports (s : State) (k : Slot) (f : ChainState → ChainState) : (s.updChain k f).ports = s.ports := rfl
@[simp] theorem State.updChain_parts (s : State) (k : Slot) (f : ChainState → ChainState) : (s.updChain k f).parts = s.parts := rfl
@[simp] theorem State.updChain_ssTree (s : State) (k : Slot) (f : ChainState → ChainState) : (s.updChain k f).ssTree = s.ssTree := rfl
@[simp] theorem State.updChain_u2Tree (s : State) (k : Slot) (f : ChainState → ChainState) : (s.updChain k f).u2Tree = s.u2Tree := rfl
@[simp] theorem State.updChain_mfs (s : State) (k : Slot) (f : ChainState → ChainState) : (s.updChain k f).mfs = s.mfs := rfl
@[simp] theorem State.updChain_ups (s : State) (k : Slot) (f : ChainState → ChainState) : (s.updChain k f).ups = s.ups := rfl
@[simp] theorem State.updChain_lift (s : State) (k : Slot) (f : ChainState → ChainState) : (s.updChain k f).lift = s.lift := rfl
@[simp] theorem State.updChain_microframe (s : State) (k : Slot) (f : ChainState → ChainState) : (s.updChain k f).microframe = s.microframe := rfl
@[simp] theorem State.updChain_modeCfg (s : State) (k : Slot) (f : ChainState → ChainState) : (s.updChain k f).modeCfg = s.modeCfg := rfl
@[simp] theorem State.updChain_origin (s : State) (k : Slot) (f : ChainState → ChainState) : (s.updChain k f).origin = s.origin := rfl
@[simp] theorem State.updChain_cause (s : State) (k : Slot) (f : ChainState → ChainState) : (s.updChain k f).cause = s.cause := rfl
@[simp] theorem State.updChain_detail (s : State) (k : Slot) (f : ChainState → ChainState) : (s.updChain k f).detail = s.detail := rfl
@[simp] theorem State.updChain_aonUp (s : State) (k : Slot) (f : ChainState → ChainState) : (s.updChain k f).aonUp = s.aonUp := rfl
@[simp] theorem State.updChain_testmode (s : State) (k : Slot) (f : ChainState → ChainState) : (s.updChain k f).testmode = s.testmode := rfl
@[simp] theorem State.updChain_board (s : State) (k : Slot) (f : ChainState → ChainState) : (s.updChain k f).board = s.board := rfl
@[simp] theorem State.updChain_wrstLow (s : State) (k : Slot) (f : ChainState → ChainState) : (s.updChain k f).wrstLow = s.wrstLow := rfl
@[simp] theorem State.updChain_trans (s : State) (k : Slot) (f : ChainState → ChainState) : (s.updChain k f).trans = s.trans := rfl
@[simp] theorem State.updChain_arrival (s : State) (k : Slot) (f : ChainState → ChainState) : (s.updChain k f).arrival = s.arrival := rfl
@[simp] theorem State.updChain_queue (s : State) (k : Slot) (f : ChainState → ChainState) : (s.updChain k f).queue = s.queue := rfl
@[simp] theorem State.updChain_back (s : State) (k : Slot) (f : ChainState → ChainState) : (s.updChain k f).back = s.back := rfl
@[simp] theorem State.updChain_eve (s : State) (k : Slot) (f : ChainState → ChainState) : (s.updChain k f).eve = s.eve := rfl
@[simp] theorem State.updChain_entries (s : State) (k : Slot) (f : ChainState → ChainState) : (s.updChain k f).entries = s.entries := rfl
@[simp] theorem State.updChain_aborts (s : State) (k : Slot) (f : ChainState → ChainState) : (s.updChain k f).aborts = s.aborts := rfl
@[simp] theorem State.updChain_exiting (s : State) (k : Slot) (f : ChainState → ChainState) : (s.updChain k f).exiting = s.exiting := rfl
@[simp] theorem State.updChain_sensors (s : State) (k : Slot) (f : ChainState → ChainState) : (s.updChain k f).sensors = s.sensors := rfl
@[simp] theorem State.updChain_rails (s : State) (k : Slot) (f : ChainState → ChainState) : (s.updChain k f).rails = s.rails := rfl
@[simp] theorem State.updChain_avs (s : State) (k : Slot) (f : ChainState → ChainState) : (s.updChain k f).avs = s.avs := rfl
@[simp] theorem State.updChain_clocks (s : State) (k : Slot) (f : ChainState → ChainState) : (s.updChain k f).clocks = s.clocks := rfl
@[simp] theorem State.updChain_alarms (s : State) (k : Slot) (f : ChainState → ChainState) : (s.updChain k f).alarms = s.alarms := rfl
@[simp] theorem State.updChain_portLinks (s : State) (k : Slot) (f : ChainState → ChainState) : (s.updChain k f).portLinks = s.portLinks := rfl
@[simp] theorem State.updChain_tap (s : State) (k : Slot) (f : ChainState → ChainState) : (s.updChain k f).tap = s.tap := rfl
@[simp] theorem State.updChain_scan (s : State) (k : Slot) (f : ChainState → ChainState) : (s.updChain k f).scan = s.scan := rfl
@[simp] theorem State.updChain_diag (s : State) (k : Slot) (f : ChainState → ChainState) : (s.updChain k f).diag = s.diag := rfl
@[simp] theorem State.updChain_vendorId (s : State) (k : Slot) (f : ChainState → ChainState) : (s.updChain k f).vendorId = s.vendorId := rfl
@[simp] theorem State.updChain_pd (s : State) (k : Slot) (f : ChainState → ChainState) : (s.updChain k f).pd = s.pd := rfl
@[simp] theorem State.updChain_queues (s : State) (k : Slot) (f : ChainState → ChainState) : (s.updChain k f).queues = s.queues := rfl
@[simp] theorem State.updChain_uarts (s : State) (k : Slot) (f : ChainState → ChainState) : (s.updChain k f).uarts = s.uarts := rfl
@[simp] theorem State.updChain_banks (s : State) (k : Slot) (f : ChainState → ChainState) : (s.updChain k f).banks = s.banks := rfl
@[simp] theorem State.updChain_cells (s : State) (k : Slot) (f : ChainState → ChainState) : (s.updChain k f).cells = s.cells := rfl
@[simp] theorem State.updChain_rings (s : State) (k : Slot) (f : ChainState → ChainState) : (s.updChain k f).rings = s.rings := rfl
@[simp] theorem State.updChain_sticky (s : State) (k : Slot) (f : ChainState → ChainState) : (s.updChain k f).sticky = s.sticky := rfl
@[simp] theorem State.updChain_pbm (s : State) (k : Slot) (f : ChainState → ChainState) : (s.updChain k f).pbm = s.pbm := rfl
@[simp] theorem State.updChain_ttBucket (s : State) (k : Slot) (f : ChainState → ChainState) : (s.updChain k f).ttBucket = s.ttBucket := rfl
@[simp] theorem State.updChain_powerLinks (s : State) (k : Slot) (f : ChainState → ChainState) : (s.updChain k f).powerLinks = s.powerLinks := rfl
@[simp] theorem State.updChain_slots (s : State) (k : Slot) (f : ChainState → ChainState) : (s.updChain k f).slots = s.slots := rfl
@[simp] theorem State.updChain_vbus (s : State) (k : Slot) (f : ChainState → ChainState) : (s.updChain k f).vbus = s.vbus := rfl

/-! ## heard -/

@[simp] theorem State.heard_pending (s : State) : s.heard.pending = s.pending := rfl
@[simp] theorem State.heard_freeCount (s : State) : s.heard.freeCount = s.freeCount := rfl
@[simp] theorem State.heard_mode (s : State) : s.heard.mode = s.mode := rfl
@[simp] theorem State.heard_sessions (s : State) : s.heard.sessions = s.sessions := rfl
@[simp] theorem State.heard_mailboxes (s : State) : s.heard.mailboxes = s.mailboxes := rfl
@[simp] theorem State.heard_smbus (s : State) : s.heard.smbus = s.smbus := rfl
@[simp] theorem State.heard_alertEnable (s : State) : s.heard.alertEnable = s.alertEnable := rfl
@[simp] theorem State.heard_heldEvents (s : State) : s.heard.heldEvents = s.heldEvents := rfl
@[simp] theorem State.heard_fw (s : State) : s.heard.fw = s.fw := rfl
@[simp] theorem State.heard_fault (s : State) : s.heard.fault = s.fault := rfl
@[simp] theorem State.heard_partOf (s : State) : s.heard.partOf = s.partOf := rfl
@[simp] theorem State.heard_posOf (s : State) : s.heard.posOf = s.posOf := rfl
@[simp] theorem State.heard_domains (s : State) : s.heard.domains = s.domains := rfl
@[simp] theorem State.heard_ports (s : State) : s.heard.ports = s.ports := rfl
@[simp] theorem State.heard_parts (s : State) : s.heard.parts = s.parts := rfl
@[simp] theorem State.heard_ssTree (s : State) : s.heard.ssTree = s.ssTree := rfl
@[simp] theorem State.heard_u2Tree (s : State) : s.heard.u2Tree = s.u2Tree := rfl
@[simp] theorem State.heard_mfs (s : State) : s.heard.mfs = s.mfs := rfl
@[simp] theorem State.heard_ups (s : State) : s.heard.ups = s.ups := rfl
@[simp] theorem State.heard_lift (s : State) : s.heard.lift = s.lift := rfl
@[simp] theorem State.heard_microframe (s : State) : s.heard.microframe = s.microframe := rfl
@[simp] theorem State.heard_modeCfg (s : State) : s.heard.modeCfg = s.modeCfg := rfl
@[simp] theorem State.heard_origin (s : State) : s.heard.origin = s.origin := rfl
@[simp] theorem State.heard_cause (s : State) : s.heard.cause = s.cause := rfl
@[simp] theorem State.heard_detail (s : State) : s.heard.detail = s.detail := rfl
@[simp] theorem State.heard_aonUp (s : State) : s.heard.aonUp = s.aonUp := rfl
@[simp] theorem State.heard_testmode (s : State) : s.heard.testmode = s.testmode := rfl
@[simp] theorem State.heard_board (s : State) : s.heard.board = s.board := rfl
@[simp] theorem State.heard_wrstLow (s : State) : s.heard.wrstLow = s.wrstLow := rfl
@[simp] theorem State.heard_trans (s : State) : s.heard.trans = s.trans := rfl
@[simp] theorem State.heard_arrival (s : State) : s.heard.arrival = s.arrival := rfl
@[simp] theorem State.heard_queue (s : State) : s.heard.queue = s.queue := rfl
@[simp] theorem State.heard_back (s : State) : s.heard.back = s.back := rfl
@[simp] theorem State.heard_eve (s : State) : s.heard.eve = s.eve := rfl
@[simp] theorem State.heard_entries (s : State) : s.heard.entries = s.entries := rfl
@[simp] theorem State.heard_aborts (s : State) : s.heard.aborts = s.aborts := rfl
@[simp] theorem State.heard_exiting (s : State) : s.heard.exiting = s.exiting := rfl
@[simp] theorem State.heard_sensors (s : State) : s.heard.sensors = s.sensors := rfl
@[simp] theorem State.heard_rails (s : State) : s.heard.rails = s.rails := rfl
@[simp] theorem State.heard_avs (s : State) : s.heard.avs = s.avs := rfl
@[simp] theorem State.heard_clocks (s : State) : s.heard.clocks = s.clocks := rfl
@[simp] theorem State.heard_alarms (s : State) : s.heard.alarms = s.alarms := rfl
@[simp] theorem State.heard_portLinks (s : State) : s.heard.portLinks = s.portLinks := rfl
@[simp] theorem State.heard_tap (s : State) : s.heard.tap = s.tap := rfl
@[simp] theorem State.heard_scan (s : State) : s.heard.scan = s.scan := rfl
@[simp] theorem State.heard_diag (s : State) : s.heard.diag = s.diag := rfl
@[simp] theorem State.heard_vendorId (s : State) : s.heard.vendorId = s.vendorId := rfl
@[simp] theorem State.heard_pd (s : State) : s.heard.pd = s.pd := rfl
@[simp] theorem State.heard_queues (s : State) : s.heard.queues = s.queues := rfl
@[simp] theorem State.heard_uarts (s : State) : s.heard.uarts = s.uarts := rfl
@[simp] theorem State.heard_banks (s : State) : s.heard.banks = s.banks := rfl
@[simp] theorem State.heard_cells (s : State) : s.heard.cells = s.cells := rfl
@[simp] theorem State.heard_rings (s : State) : s.heard.rings = s.rings := rfl
@[simp] theorem State.heard_sticky (s : State) : s.heard.sticky = s.sticky := rfl
@[simp] theorem State.heard_pbm (s : State) : s.heard.pbm = s.pbm := rfl
@[simp] theorem State.heard_ttBucket (s : State) : s.heard.ttBucket = s.ttBucket := rfl
@[simp] theorem State.heard_powerLinks (s : State) : s.heard.powerLinks = s.powerLinks := rfl
@[simp] theorem State.heard_slots (s : State) : s.heard.slots = s.slots := rfl
@[simp] theorem State.heard_chains (s : State) : s.heard.chains = s.chains := rfl
@[simp] theorem State.heard_vbus (s : State) : s.heard.vbus = s.vbus := rfl

/-! ## taken -/

@[simp] theorem State.taken_sessions (s : State) (opcode : BitVec 16) (m : VcpMsg) : (s.taken opcode m).sessions = s.sessions.upd m.session (fun x =>
    { x with lastCseq := m.cseq, stored := some { opcode, length := m.payload.length, response := none } }) := rfl
@[simp] theorem State.taken_pending (s : State) (opcode : BitVec 16) (m : VcpMsg) : (s.taken opcode m).pending = s.pending := rfl
@[simp] theorem State.taken_freeCount (s : State) (opcode : BitVec 16) (m : VcpMsg) : (s.taken opcode m).freeCount = s.freeCount := rfl
@[simp] theorem State.taken_mode (s : State) (opcode : BitVec 16) (m : VcpMsg) : (s.taken opcode m).mode = s.mode := rfl
@[simp] theorem State.taken_mailboxes (s : State) (opcode : BitVec 16) (m : VcpMsg) : (s.taken opcode m).mailboxes = s.mailboxes := rfl
@[simp] theorem State.taken_smbus (s : State) (opcode : BitVec 16) (m : VcpMsg) : (s.taken opcode m).smbus = s.smbus := rfl
@[simp] theorem State.taken_alertEnable (s : State) (opcode : BitVec 16) (m : VcpMsg) : (s.taken opcode m).alertEnable = s.alertEnable := rfl
@[simp] theorem State.taken_heldEvents (s : State) (opcode : BitVec 16) (m : VcpMsg) : (s.taken opcode m).heldEvents = s.heldEvents := rfl
@[simp] theorem State.taken_fw (s : State) (opcode : BitVec 16) (m : VcpMsg) : (s.taken opcode m).fw = s.fw := rfl
@[simp] theorem State.taken_fault (s : State) (opcode : BitVec 16) (m : VcpMsg) : (s.taken opcode m).fault = s.fault := rfl
@[simp] theorem State.taken_partOf (s : State) (opcode : BitVec 16) (m : VcpMsg) : (s.taken opcode m).partOf = s.partOf := rfl
@[simp] theorem State.taken_posOf (s : State) (opcode : BitVec 16) (m : VcpMsg) : (s.taken opcode m).posOf = s.posOf := rfl
@[simp] theorem State.taken_domains (s : State) (opcode : BitVec 16) (m : VcpMsg) : (s.taken opcode m).domains = s.domains := rfl
@[simp] theorem State.taken_ports (s : State) (opcode : BitVec 16) (m : VcpMsg) : (s.taken opcode m).ports = s.ports := rfl
@[simp] theorem State.taken_parts (s : State) (opcode : BitVec 16) (m : VcpMsg) : (s.taken opcode m).parts = s.parts := rfl
@[simp] theorem State.taken_ssTree (s : State) (opcode : BitVec 16) (m : VcpMsg) : (s.taken opcode m).ssTree = s.ssTree := rfl
@[simp] theorem State.taken_u2Tree (s : State) (opcode : BitVec 16) (m : VcpMsg) : (s.taken opcode m).u2Tree = s.u2Tree := rfl
@[simp] theorem State.taken_mfs (s : State) (opcode : BitVec 16) (m : VcpMsg) : (s.taken opcode m).mfs = s.mfs := rfl
@[simp] theorem State.taken_ups (s : State) (opcode : BitVec 16) (m : VcpMsg) : (s.taken opcode m).ups = s.ups := rfl
@[simp] theorem State.taken_lift (s : State) (opcode : BitVec 16) (m : VcpMsg) : (s.taken opcode m).lift = s.lift := rfl
@[simp] theorem State.taken_microframe (s : State) (opcode : BitVec 16) (m : VcpMsg) : (s.taken opcode m).microframe = s.microframe := rfl
@[simp] theorem State.taken_modeCfg (s : State) (opcode : BitVec 16) (m : VcpMsg) : (s.taken opcode m).modeCfg = s.modeCfg := rfl
@[simp] theorem State.taken_origin (s : State) (opcode : BitVec 16) (m : VcpMsg) : (s.taken opcode m).origin = s.origin := rfl
@[simp] theorem State.taken_cause (s : State) (opcode : BitVec 16) (m : VcpMsg) : (s.taken opcode m).cause = s.cause := rfl
@[simp] theorem State.taken_detail (s : State) (opcode : BitVec 16) (m : VcpMsg) : (s.taken opcode m).detail = s.detail := rfl
@[simp] theorem State.taken_aonUp (s : State) (opcode : BitVec 16) (m : VcpMsg) : (s.taken opcode m).aonUp = s.aonUp := rfl
@[simp] theorem State.taken_testmode (s : State) (opcode : BitVec 16) (m : VcpMsg) : (s.taken opcode m).testmode = s.testmode := rfl
@[simp] theorem State.taken_board (s : State) (opcode : BitVec 16) (m : VcpMsg) : (s.taken opcode m).board = s.board := rfl
@[simp] theorem State.taken_wrstLow (s : State) (opcode : BitVec 16) (m : VcpMsg) : (s.taken opcode m).wrstLow = s.wrstLow := rfl
@[simp] theorem State.taken_trans (s : State) (opcode : BitVec 16) (m : VcpMsg) : (s.taken opcode m).trans = s.trans := rfl
@[simp] theorem State.taken_arrival (s : State) (opcode : BitVec 16) (m : VcpMsg) : (s.taken opcode m).arrival = s.arrival := rfl
@[simp] theorem State.taken_queue (s : State) (opcode : BitVec 16) (m : VcpMsg) : (s.taken opcode m).queue = s.queue := rfl
@[simp] theorem State.taken_back (s : State) (opcode : BitVec 16) (m : VcpMsg) : (s.taken opcode m).back = s.back := rfl
@[simp] theorem State.taken_eve (s : State) (opcode : BitVec 16) (m : VcpMsg) : (s.taken opcode m).eve = s.eve := rfl
@[simp] theorem State.taken_entries (s : State) (opcode : BitVec 16) (m : VcpMsg) : (s.taken opcode m).entries = s.entries := rfl
@[simp] theorem State.taken_aborts (s : State) (opcode : BitVec 16) (m : VcpMsg) : (s.taken opcode m).aborts = s.aborts := rfl
@[simp] theorem State.taken_exiting (s : State) (opcode : BitVec 16) (m : VcpMsg) : (s.taken opcode m).exiting = s.exiting := rfl
@[simp] theorem State.taken_sensors (s : State) (opcode : BitVec 16) (m : VcpMsg) : (s.taken opcode m).sensors = s.sensors := rfl
@[simp] theorem State.taken_rails (s : State) (opcode : BitVec 16) (m : VcpMsg) : (s.taken opcode m).rails = s.rails := rfl
@[simp] theorem State.taken_avs (s : State) (opcode : BitVec 16) (m : VcpMsg) : (s.taken opcode m).avs = s.avs := rfl
@[simp] theorem State.taken_clocks (s : State) (opcode : BitVec 16) (m : VcpMsg) : (s.taken opcode m).clocks = s.clocks := rfl
@[simp] theorem State.taken_alarms (s : State) (opcode : BitVec 16) (m : VcpMsg) : (s.taken opcode m).alarms = s.alarms := rfl
@[simp] theorem State.taken_portLinks (s : State) (opcode : BitVec 16) (m : VcpMsg) : (s.taken opcode m).portLinks = s.portLinks := rfl
@[simp] theorem State.taken_tap (s : State) (opcode : BitVec 16) (m : VcpMsg) : (s.taken opcode m).tap = s.tap := rfl
@[simp] theorem State.taken_scan (s : State) (opcode : BitVec 16) (m : VcpMsg) : (s.taken opcode m).scan = s.scan := rfl
@[simp] theorem State.taken_diag (s : State) (opcode : BitVec 16) (m : VcpMsg) : (s.taken opcode m).diag = s.diag := rfl
@[simp] theorem State.taken_vendorId (s : State) (opcode : BitVec 16) (m : VcpMsg) : (s.taken opcode m).vendorId = s.vendorId := rfl
@[simp] theorem State.taken_pd (s : State) (opcode : BitVec 16) (m : VcpMsg) : (s.taken opcode m).pd = s.pd := rfl
@[simp] theorem State.taken_queues (s : State) (opcode : BitVec 16) (m : VcpMsg) : (s.taken opcode m).queues = s.queues := rfl
@[simp] theorem State.taken_uarts (s : State) (opcode : BitVec 16) (m : VcpMsg) : (s.taken opcode m).uarts = s.uarts := rfl
@[simp] theorem State.taken_banks (s : State) (opcode : BitVec 16) (m : VcpMsg) : (s.taken opcode m).banks = s.banks := rfl
@[simp] theorem State.taken_cells (s : State) (opcode : BitVec 16) (m : VcpMsg) : (s.taken opcode m).cells = s.cells := rfl
@[simp] theorem State.taken_rings (s : State) (opcode : BitVec 16) (m : VcpMsg) : (s.taken opcode m).rings = s.rings := rfl
@[simp] theorem State.taken_sticky (s : State) (opcode : BitVec 16) (m : VcpMsg) : (s.taken opcode m).sticky = s.sticky := rfl
@[simp] theorem State.taken_pbm (s : State) (opcode : BitVec 16) (m : VcpMsg) : (s.taken opcode m).pbm = s.pbm := rfl
@[simp] theorem State.taken_ttBucket (s : State) (opcode : BitVec 16) (m : VcpMsg) : (s.taken opcode m).ttBucket = s.ttBucket := rfl
@[simp] theorem State.taken_powerLinks (s : State) (opcode : BitVec 16) (m : VcpMsg) : (s.taken opcode m).powerLinks = s.powerLinks := rfl
@[simp] theorem State.taken_slots (s : State) (opcode : BitVec 16) (m : VcpMsg) : (s.taken opcode m).slots = s.slots := rfl
@[simp] theorem State.taken_chains (s : State) (opcode : BitVec 16) (m : VcpMsg) : (s.taken opcode m).chains = s.chains := rfl
@[simp] theorem State.taken_vbus (s : State) (opcode : BitVec 16) (m : VcpMsg) : (s.taken opcode m).vbus = s.vbus := rfl

/-! ## updVbus -/

@[simp] theorem State.updVbus_vbus (s : State) (p : Port) (f : VbusState → VbusState) : (s.updVbus p f).vbus = s.vbus.upd p f := rfl
@[simp] theorem State.updVbus_pending (s : State) (p : Port) (f : VbusState → VbusState) : (s.updVbus p f).pending = s.pending := rfl
@[simp] theorem State.updVbus_wire (s : State) (p : Port) (f : VbusState → VbusState) : (s.updVbus p f).wire = s.wire := rfl
@[simp] theorem State.updVbus_freeCount (s : State) (p : Port) (f : VbusState → VbusState) : (s.updVbus p f).freeCount = s.freeCount := rfl
@[simp] theorem State.updVbus_mode (s : State) (p : Port) (f : VbusState → VbusState) : (s.updVbus p f).mode = s.mode := rfl
@[simp] theorem State.updVbus_sessions (s : State) (p : Port) (f : VbusState → VbusState) : (s.updVbus p f).sessions = s.sessions := rfl
@[simp] theorem State.updVbus_mailboxes (s : State) (p : Port) (f : VbusState → VbusState) : (s.updVbus p f).mailboxes = s.mailboxes := rfl
@[simp] theorem State.updVbus_smbus (s : State) (p : Port) (f : VbusState → VbusState) : (s.updVbus p f).smbus = s.smbus := rfl
@[simp] theorem State.updVbus_alertEnable (s : State) (p : Port) (f : VbusState → VbusState) : (s.updVbus p f).alertEnable = s.alertEnable := rfl
@[simp] theorem State.updVbus_heldEvents (s : State) (p : Port) (f : VbusState → VbusState) : (s.updVbus p f).heldEvents = s.heldEvents := rfl
@[simp] theorem State.updVbus_arrivals (s : State) (p : Port) (f : VbusState → VbusState) : (s.updVbus p f).arrivals = s.arrivals := rfl
@[simp] theorem State.updVbus_fw (s : State) (p : Port) (f : VbusState → VbusState) : (s.updVbus p f).fw = s.fw := rfl
@[simp] theorem State.updVbus_fault (s : State) (p : Port) (f : VbusState → VbusState) : (s.updVbus p f).fault = s.fault := rfl
@[simp] theorem State.updVbus_partOf (s : State) (p : Port) (f : VbusState → VbusState) : (s.updVbus p f).partOf = s.partOf := rfl
@[simp] theorem State.updVbus_posOf (s : State) (p : Port) (f : VbusState → VbusState) : (s.updVbus p f).posOf = s.posOf := rfl
@[simp] theorem State.updVbus_domains (s : State) (p : Port) (f : VbusState → VbusState) : (s.updVbus p f).domains = s.domains := rfl
@[simp] theorem State.updVbus_ports (s : State) (p : Port) (f : VbusState → VbusState) : (s.updVbus p f).ports = s.ports := rfl
@[simp] theorem State.updVbus_parts (s : State) (p : Port) (f : VbusState → VbusState) : (s.updVbus p f).parts = s.parts := rfl
@[simp] theorem State.updVbus_ssTree (s : State) (p : Port) (f : VbusState → VbusState) : (s.updVbus p f).ssTree = s.ssTree := rfl
@[simp] theorem State.updVbus_u2Tree (s : State) (p : Port) (f : VbusState → VbusState) : (s.updVbus p f).u2Tree = s.u2Tree := rfl
@[simp] theorem State.updVbus_mfs (s : State) (p : Port) (f : VbusState → VbusState) : (s.updVbus p f).mfs = s.mfs := rfl
@[simp] theorem State.updVbus_ups (s : State) (p : Port) (f : VbusState → VbusState) : (s.updVbus p f).ups = s.ups := rfl
@[simp] theorem State.updVbus_lift (s : State) (p : Port) (f : VbusState → VbusState) : (s.updVbus p f).lift = s.lift := rfl
@[simp] theorem State.updVbus_microframe (s : State) (p : Port) (f : VbusState → VbusState) : (s.updVbus p f).microframe = s.microframe := rfl
@[simp] theorem State.updVbus_modeCfg (s : State) (p : Port) (f : VbusState → VbusState) : (s.updVbus p f).modeCfg = s.modeCfg := rfl
@[simp] theorem State.updVbus_origin (s : State) (p : Port) (f : VbusState → VbusState) : (s.updVbus p f).origin = s.origin := rfl
@[simp] theorem State.updVbus_cause (s : State) (p : Port) (f : VbusState → VbusState) : (s.updVbus p f).cause = s.cause := rfl
@[simp] theorem State.updVbus_detail (s : State) (p : Port) (f : VbusState → VbusState) : (s.updVbus p f).detail = s.detail := rfl
@[simp] theorem State.updVbus_aonUp (s : State) (p : Port) (f : VbusState → VbusState) : (s.updVbus p f).aonUp = s.aonUp := rfl
@[simp] theorem State.updVbus_testmode (s : State) (p : Port) (f : VbusState → VbusState) : (s.updVbus p f).testmode = s.testmode := rfl
@[simp] theorem State.updVbus_board (s : State) (p : Port) (f : VbusState → VbusState) : (s.updVbus p f).board = s.board := rfl
@[simp] theorem State.updVbus_wrstLow (s : State) (p : Port) (f : VbusState → VbusState) : (s.updVbus p f).wrstLow = s.wrstLow := rfl
@[simp] theorem State.updVbus_trans (s : State) (p : Port) (f : VbusState → VbusState) : (s.updVbus p f).trans = s.trans := rfl
@[simp] theorem State.updVbus_arrival (s : State) (p : Port) (f : VbusState → VbusState) : (s.updVbus p f).arrival = s.arrival := rfl
@[simp] theorem State.updVbus_queue (s : State) (p : Port) (f : VbusState → VbusState) : (s.updVbus p f).queue = s.queue := rfl
@[simp] theorem State.updVbus_back (s : State) (p : Port) (f : VbusState → VbusState) : (s.updVbus p f).back = s.back := rfl
@[simp] theorem State.updVbus_eve (s : State) (p : Port) (f : VbusState → VbusState) : (s.updVbus p f).eve = s.eve := rfl
@[simp] theorem State.updVbus_entries (s : State) (p : Port) (f : VbusState → VbusState) : (s.updVbus p f).entries = s.entries := rfl
@[simp] theorem State.updVbus_aborts (s : State) (p : Port) (f : VbusState → VbusState) : (s.updVbus p f).aborts = s.aborts := rfl
@[simp] theorem State.updVbus_exiting (s : State) (p : Port) (f : VbusState → VbusState) : (s.updVbus p f).exiting = s.exiting := rfl
@[simp] theorem State.updVbus_sensors (s : State) (p : Port) (f : VbusState → VbusState) : (s.updVbus p f).sensors = s.sensors := rfl
@[simp] theorem State.updVbus_rails (s : State) (p : Port) (f : VbusState → VbusState) : (s.updVbus p f).rails = s.rails := rfl
@[simp] theorem State.updVbus_avs (s : State) (p : Port) (f : VbusState → VbusState) : (s.updVbus p f).avs = s.avs := rfl
@[simp] theorem State.updVbus_clocks (s : State) (p : Port) (f : VbusState → VbusState) : (s.updVbus p f).clocks = s.clocks := rfl
@[simp] theorem State.updVbus_alarms (s : State) (p : Port) (f : VbusState → VbusState) : (s.updVbus p f).alarms = s.alarms := rfl
@[simp] theorem State.updVbus_portLinks (s : State) (p : Port) (f : VbusState → VbusState) : (s.updVbus p f).portLinks = s.portLinks := rfl
@[simp] theorem State.updVbus_tap (s : State) (p : Port) (f : VbusState → VbusState) : (s.updVbus p f).tap = s.tap := rfl
@[simp] theorem State.updVbus_scan (s : State) (p : Port) (f : VbusState → VbusState) : (s.updVbus p f).scan = s.scan := rfl
@[simp] theorem State.updVbus_diag (s : State) (p : Port) (f : VbusState → VbusState) : (s.updVbus p f).diag = s.diag := rfl
@[simp] theorem State.updVbus_vendorId (s : State) (p : Port) (f : VbusState → VbusState) : (s.updVbus p f).vendorId = s.vendorId := rfl
@[simp] theorem State.updVbus_pd (s : State) (p : Port) (f : VbusState → VbusState) : (s.updVbus p f).pd = s.pd := rfl
@[simp] theorem State.updVbus_queues (s : State) (p : Port) (f : VbusState → VbusState) : (s.updVbus p f).queues = s.queues := rfl
@[simp] theorem State.updVbus_uarts (s : State) (p : Port) (f : VbusState → VbusState) : (s.updVbus p f).uarts = s.uarts := rfl
@[simp] theorem State.updVbus_banks (s : State) (p : Port) (f : VbusState → VbusState) : (s.updVbus p f).banks = s.banks := rfl
@[simp] theorem State.updVbus_cells (s : State) (p : Port) (f : VbusState → VbusState) : (s.updVbus p f).cells = s.cells := rfl
@[simp] theorem State.updVbus_rings (s : State) (p : Port) (f : VbusState → VbusState) : (s.updVbus p f).rings = s.rings := rfl
@[simp] theorem State.updVbus_sticky (s : State) (p : Port) (f : VbusState → VbusState) : (s.updVbus p f).sticky = s.sticky := rfl
@[simp] theorem State.updVbus_pbm (s : State) (p : Port) (f : VbusState → VbusState) : (s.updVbus p f).pbm = s.pbm := rfl
@[simp] theorem State.updVbus_ttBucket (s : State) (p : Port) (f : VbusState → VbusState) : (s.updVbus p f).ttBucket = s.ttBucket := rfl
@[simp] theorem State.updVbus_powerLinks (s : State) (p : Port) (f : VbusState → VbusState) : (s.updVbus p f).powerLinks = s.powerLinks := rfl
@[simp] theorem State.updVbus_slots (s : State) (p : Port) (f : VbusState → VbusState) : (s.updVbus p f).slots = s.slots := rfl
@[simp] theorem State.updVbus_chains (s : State) (p : Port) (f : VbusState → VbusState) : (s.updVbus p f).chains = s.chains := rfl

end Sys2Proof.Machine
end

