-- ==== Sys2Proof/Laws/Cells.lean ====
section
/-! SUPPORT. Frame lemmas: what does not change the list of code words. -/

set_option Elab.async false

namespace Sys2Proof.Machine

open Sys2Proof

@[simp] theorem cells_ite (c : Prop) [Decidable c] (a b : State) : (if c then a else b).cells = if c then a.cells else b.cells := by split <;> rfl
@[simp] theorem cells_ite1 {α : Type} (c : Prop) [Decidable c] (a b : State × α) : (if c then a else b).1.cells = if c then a.1.cells else b.1.cells := by split <;> rfl
@[simp] theorem forAll_cells {α : Type} (l : List α) (f : State → α → State) (s : State) (h : ∀ s a, (f s a).cells = s.cells) : (forAll l f s).cells = s.cells := by
  unfold forAll
  induction l generalizing s with
  | nil => rfl
  | cons a l ih => rw [List.foldl_cons, ih, h]


@[simp] theorem State.fillRsp_cells (s : State) (m : Mbox) : (State.fillRsp s m).cells = s.cells := by
  unfold State.fillRsp
  first
  | (simp; done)
  | (simp; (repeat' split) <;> (simp; done); done)
  | ((repeat' split) <;> (simp; done); done)
  | (simp only []; (repeat' split) <;> (simp; done); done)

@[simp] theorem State.fillEvt_cells (s : State) (m : Mbox) : (State.fillEvt s m).cells = s.cells := by
  unfold State.fillEvt
  first
  | (simp; done)
  | (simp; (repeat' split) <;> (simp; done); done)
  | ((repeat' split) <;> (simp; done); done)
  | (simp only []; (repeat' split) <;> (simp; done); done)

@[simp] theorem State.fillMailbox_cells (s : State) (m : Mbox) : (State.fillMailbox s m).cells = s.cells := by
  unfold State.fillMailbox
  first
  | (simp; done)
  | (simp; (repeat' split) <;> (simp; done); done)
  | ((repeat' split) <;> (simp; done); done)
  | (simp only []; (repeat' split) <;> (simp; done); done)

@[simp] theorem State.respond_cells (s : State) (i : Sess) (r : Rsp) : (State.respond s i r).cells = s.cells := by
  unfold State.respond
  first
  | (simp; done)
  | (simp; (repeat' split) <;> (simp; done); done)
  | ((repeat' split) <;> (simp; done); done)
  | (simp only []; (repeat' split) <;> (simp; done); done)

@[simp] theorem State.deliver_cells (s : State) (e : EventOut) (i : Sess) : (State.deliver s e i).cells = s.cells := by
  unfold State.deliver
  first
  | (simp; done)
  | (simp; (repeat' split) <;> (simp; done); done)
  | ((repeat' split) <;> (simp; done); done)
  | (simp only []; (repeat' split) <;> (simp; done); done)

@[simp] theorem State.issue_cells (s : State) (e : EventOut) : (State.issue s e).cells = s.cells := by
  unfold State.issue
  first
  | (simp; done)
  | (simp; (repeat' split) <;> (simp; done); done)
  | ((repeat' split) <;> (simp; done); done)
  | (simp only []; (repeat' split) <;> (simp; done); done)

@[simp] theorem State.issueHeld_cells (s : State) : (State.issueHeld s).cells = s.cells := by
  unfold State.issueHeld
  first
  | (simp; done)
  | (simp; (repeat' split) <;> (simp; done); done)
  | ((repeat' split) <;> (simp; done); done)
  | (simp only []; (repeat' split) <;> (simp; done); done)

@[simp] theorem State.portEvent_cells (s : State) (p : Port) (code : Nat) (payload : List Byte) : (State.portEvent s p code payload).cells = s.cells := by
  unfold State.portEvent
  first
  | (simp; done)
  | (simp; (repeat' split) <;> (simp; done); done)
  | ((repeat' split) <;> (simp; done); done)
  | (simp only []; (repeat' split) <;> (simp; done); done)

@[simp] theorem State.slotEvent_cells (s : State) (k : Slot) (code : Nat) (payload : List Byte) : (State.slotEvent s k code payload).cells = s.cells := by
  unfold State.slotEvent
  first
  | (simp; done)
  | (simp; (repeat' split) <;> (simp; done); done)
  | ((repeat' split) <;> (simp; done); done)
  | (simp only []; (repeat' split) <;> (simp; done); done)

@[simp] theorem State.bankEvent_cells (s : State) (b : Bank) (code : Nat) (payload : List Byte) : (State.bankEvent s b code payload).cells = s.cells := by
  unfold State.bankEvent
  first
  | (simp; done)
  | (simp; (repeat' split) <;> (simp; done); done)
  | ((repeat' split) <;> (simp; done); done)
  | (simp only []; (repeat' split) <;> (simp; done); done)

@[simp] theorem State.complete_cells (s : State) (i : Sess) (status : Byte) (payload : List Byte) : (State.complete s i status payload).cells = s.cells := by
  unfold State.complete
  first
  | (simp; done)
  | (simp; (repeat' split) <;> (simp; done); done)
  | ((repeat' split) <;> (simp; done); done)
  | (simp only []; (repeat' split) <;> (simp; done); done)

@[simp] theorem State.answer_cells (s : State) (w : Wait) (status : Byte) (payload : List Byte) : (State.answer s w status payload).cells = s.cells := by
  unfold State.answer
  first
  | (simp; done)
  | (simp; (repeat' split) <;> (simp; done); done)
  | ((repeat' split) <;> (simp; done); done)
  | (simp only []; (repeat' split) <;> (simp; done); done)

@[simp] theorem refuse_cells (s : State) (status : Byte) : (refuse s status).1.cells = s.cells := by
  unfold refuse
  first
  | (simp; done)
  | (simp; (repeat' split) <;> (simp; done); done)
  | ((repeat' split) <;> (simp; done); done)
  | (simp only []; (repeat' split) <;> (simp; done); done)

@[simp] theorem ok_cells (s : State) : (ok s).1.cells = s.cells := by
  unfold ok
  first
  | (simp; done)
  | (simp; (repeat' split) <;> (simp; done); done)
  | ((repeat' split) <;> (simp; done); done)
  | (simp only []; (repeat' split) <;> (simp; done); done)


@[simp] theorem State.spend_cells (s : State) (i : Injection) : (State.spend s i).cells = s.cells := by
  unfold State.spend
  first
  | (simp; done)
  | (simp; (repeat' split) <;> (simp; done); done)
  | ((repeat' split) <;> (simp; done); done)
  | (simp only []; (repeat' split) <;> (simp; done); done)

@[simp] theorem State.addrCheck_cells (s : State) (b : Bank) : (State.addrCheck s b).1.cells = s.cells := by
  unfold State.addrCheck
  first
  | (simp; done)
  | (simp; (repeat' split) <;> (simp; done); done)
  | ((repeat' split) <;> (simp; done); done)
  | (simp only []; (repeat' split) <;> (simp; done); done)

@[simp] theorem State.trackSticky_cells (s : State) (b : Bank) (row word : Nat) (syn : BitVec 9) (position : Nat) (inj : Bool) : (State.trackSticky s b row word syn position inj).cells = s.cells := by
  unfold State.trackSticky
  first
  | (simp; done)
  | (simp; (repeat' split) <;> (simp; done); done)
  | ((repeat' split) <;> (simp; done); done)
  | (simp only []; (repeat' split) <;> (simp; done); done)

@[simp] theorem State.raiseBucket_cells (s : State) (b : Bank) (inj : Bool) : (State.raiseBucket s b inj).cells = s.cells := by
  unfold State.raiseBucket
  first
  | (simp; done)
  | (simp; (repeat' split) <;> (simp; done); done)
  | ((repeat' split) <;> (simp; done); done)
  | (simp only []; (repeat' split) <;> (simp; done); done)

@[simp] theorem State.countClass_cells (s : State) (b : Bank) (row word : Nat) (syn : BitVec 9) (inj : Bool) (c : EccClass) :
    (s.countClass b row word syn inj c).cells = s.cells := by
  unfold State.countClass; split <;> simp

end Sys2Proof.Machine
end

