-- ==== Sys2Proof/Laws/Code.lean ====
section
/-! SUPPORT. The PBM code (R215): the syndrome is linear, a set bit adds its column, a code word as encoded has syndrome 0, and a sum of
two columns has even weight. -/

set_option Elab.async false

namespace Sys2Proof.Machine

open Sys2Proof

theorem xor_swap (a b c d : Nat) : (a ^^^ b) ^^^ (c ^^^ d) = (a ^^^ c) ^^^ (b ^^^ d) := by
  rw [Nat.xor_assoc, Nat.xor_assoc, ← Nat.xor_assoc b c d, ← Nat.xor_assoc c b d, Nat.xor_comm b c]

theorem xorColumns_xor (cs : List Nat) (i a b : Nat) : xorColumns cs i (a ^^^ b) = xorColumns cs i a ^^^ xorColumns cs i b := by
  induction cs generalizing i with
  | nil => simp [xorColumns]
  | cons c cs ih =>
    unfold xorColumns
    rw [ih, Nat.testBit_xor, xor_swap]
    cases a.testBit i <;> cases b.testBit i <;> simp

/-- The syndrome of a sum of two words is the sum of their syndromes. -/
theorem pbmSyndrome_xor (a b : BitVec 137) : pbmSyndrome (a ^^^ b) = pbmSyndrome a ^^^ pbmSyndrome b := by
  unfold pbmSyndrome
  rw [BitVec.toNat_xor, xorColumns_xor, BitVec.ofNat_xor]

theorem xorColumns_past (cs : List Nat) (i n : Nat) (h : ∀ j, i ≤ j → n.testBit j = false) : xorColumns cs i n = 0 := by
  induction cs generalizing i with
  | nil => rfl
  | cons c cs ih =>
    unfold xorColumns
    rw [h i (Nat.le_refl _), ih (i + 1) (fun j hj => h j (by omega))]
    simp

/-- A word of one set bit adds the column of its position. -/
theorem xorColumns_one (cs : List Nat) (i k n : Nat) (hn : ∀ j, n.testBit j = decide (j = k)) (hk : i ≤ k) :
    xorColumns cs i n = cs.getD (k - i) 0 := by
  induction cs generalizing i with
  | nil => simp [xorColumns]
  | cons c cs ih =>
    unfold xorColumns
    rw [hn]
    by_cases h : i = k
    · subst h
      rw [xorColumns_past cs _ _ (fun j hj => by rw [hn]; simp; omega)]
      simp
    · have e : k - i = (k - (i + 1)) + 1 := by omega
      rw [ih (i + 1) (by omega), e]
      simp [h]

theorem oneHot_testBit (i : Nat) (hi : i < 137) (j : Nat) : (1#137 <<< i).toNat.testBit j = decide (j = i) := by
  rw [BitVec.testBit_toNat, BitVec.getLsbD_shiftLeft, BitVec.getLsbD_one]
  by_cases h : j = i
  · subst h; simp [hi]
  · by_cases h2 : j < i
    · simp [h, h2]
    · have : j - i ≠ 0 := by omega
      simp [h, this]

/-- The syndrome of one wrong bit is the column of its position. -/
theorem pbmSyndrome_one (i : Nat) (hi : i < 137) : pbmSyndrome (1#137 <<< i) = BitVec.ofNat 9 (pbmColumns.getD i 0) := by
  unfold pbmSyndrome
  rw [xorColumns_one _ 0 i _ (oneHot_testBit i hi) (Nat.zero_le _), Nat.sub_zero]

theorem xorColumns_append (l r : List Nat) (i n : Nat) : xorColumns (l ++ r) i n = xorColumns l i n ^^^ xorColumns r (i + l.length) n := by
  induction l generalizing i with
  | nil => simp [xorColumns]
  | cons c l ih =>
    rw [List.cons_append, xorColumns, ih, xorColumns, Nat.xor_assoc, List.length_cons, Nat.add_right_comm i 1, Nat.add_assoc i]

theorem xorColumns_agree (cs : List Nat) (i a b : Nat) (h : ∀ j, j < i + cs.length → a.testBit j = b.testBit j) :
    xorColumns cs i a = xorColumns cs i b := by
  induction cs generalizing i with
  | nil => rfl
  | cons c cs ih =>
    unfold xorColumns
    rw [h i (by simp), ih (i + 1) (fun j hj => h j (by rw [List.length_cons]; omega))]

/-- Nine columns of one bit each, from position `p` on, read the nine bits above it. -/
theorem xorColumns_checks (p n c : Nat) (hc : c < 512) (h : ∀ j, j < 9 → n.testBit (p + j) = c.testBit j) :
    xorColumns ((List.range 9).map (2 ^ ·)) p n = c := by
  have e := h
  show xorColumns [1, 2, 4, 8, 16, 32, 64, 128, 256] p n = c
  simp only [xorColumns, Nat.add_assoc]
  rw [show n.testBit p = c.testBit 0 from h 0 (by omega), h 1 (by omega), h 2 (by omega), h 3 (by omega), h 4 (by omega), h 5 (by omega),
    h 6 (by omega), h 7 (by omega), h 8 (by omega)]
  clear e h
  revert c
  decide +kernel

theorem pbmColumns_split : pbmColumns = pbmColumns.take 128 ++ (List.range 9).map (2 ^ ·) := by decide +kernel

theorem pbmColumns_small : ∀ c ∈ pbmColumns, c < 512 := by decide +kernel

theorem xorColumns_small (cs : List Nat) (h : ∀ c ∈ cs, c < 512) (i n : Nat) : xorColumns cs i n < 512 := by
  induction cs generalizing i with
  | nil => exact Nat.succ_pos _
  | cons c cs ih =>
    unfold xorColumns
    refine Nat.xor_lt_two_pow (n := 9) ?_ (ih (fun d hd => h d (List.mem_cons_of_mem _ hd)) _)
    split
    · exact h c (List.mem_cons_self ..)
    · decide

/-- A word as encoded has syndrome 0. -/
theorem pbmSyndrome_encode (d : BitVec 128) : pbmSyndrome (pbmEncode d) = 0 := by
  have hs : xorColumns (pbmColumns.take 128) 0 d.toNat < 512 :=
    xorColumns_small _ (fun c hc => pbmColumns_small c (List.mem_of_mem_take hc)) _ _
  unfold pbmSyndrome
  rw [pbmColumns_split, xorColumns_append]
  have hl : (pbmColumns.take 128).length = 128 := by decide +kernel
  rw [hl]
  have h1 : xorColumns (pbmColumns.take 128) 0 (pbmEncode d).toNat = xorColumns (pbmColumns.take 128) 0 d.toNat := by
    apply xorColumns_agree
    intro j hj
    rw [hl] at hj
    unfold pbmEncode
    rw [BitVec.testBit_toNat, BitVec.testBit_toNat, BitVec.getLsbD_append]
    rw [if_pos (by omega)]
  have h2 : xorColumns ((List.range 9).map (2 ^ ·)) (0 + 128) (pbmEncode d).toNat = xorColumns (pbmColumns.take 128) 0 d.toNat := by
    apply xorColumns_checks _ _ _ hs
    intro j hj
    unfold pbmEncode
    rw [BitVec.testBit_toNat, BitVec.getLsbD_append, if_neg (by omega)]
    rw [BitVec.getLsbD_ofNat]
    simp [show 0 + 128 + j - 128 = j by omega, hj]
  rw [h1, h2, Nat.xor_self]
  rfl

/-- The parity of the weight of a sum is the sum of the parities. -/
theorem weight_xor (a b : Nat) : weight 9 (a ^^^ b) % 2 = (weight 9 a + weight 9 b) % 2 := by
  have hb : ∀ x y : Bool, bnat (x ^^ y) % 2 = (bnat x + bnat y) % 2 := by decide
  have e : ∀ n, weight 9 n = 0 + bnat (n.testBit 0) + bnat (n.testBit 1) + bnat (n.testBit 2) + bnat (n.testBit 3) + bnat (n.testBit 4) +
      bnat (n.testBit 5) + bnat (n.testBit 6) + bnat (n.testBit 7) + bnat (n.testBit 8) := fun n => rfl
  rw [e, e, e]
  simp only [Nat.testBit_xor]
  have := fun i => hb (a.testBit i) (b.testBit i)
  have h0 := this 0; have h1 := this 1; have h2 := this 2; have h3 := this 3; have h4 := this 4
  have h5 := this 5; have h6 := this 6; have h7 := this 7; have h8 := this 8
  omega

/-- Every column has odd weight. -/
theorem pbmColumns_odd : ∀ c ∈ pbmColumns, weight 9 c % 2 = 1 := by decide +kernel

theorem pbmColumns_nodup : pbmColumns.Nodup := by decide +kernel

end Sys2Proof.Machine
end

