-- ==== Sys2Proof/Laws/HandsBase.lean ====
section
/-! SUPPORT. Frame lemmas: the registers of the test access port and the one-way fuses, gathered in one bundle with the queue: what no function of the model touches unless it says so. -/

set_option Elab.async false

namespace Sys2Proof.Machine

open Sys2Proof

def FirmwareState.fuses (x : FirmwareState) : Nat × Tab 4 FusedKey := (x.securityFloor, x.keys)

@[simp] theorem FirmwareState.fuses_mk (b0 b1 b2 b3 b4 b5 b6 b7 b8 b9 b10 b11 b12 b13 b14 b15) : (FirmwareState.mk b0 b1 b2 b3 b4 b5 b6 b7 b8 b9 b10 b11 b12 b13 b14 b15).fuses = (b3, b2) := rfl

@[simp] theorem FirmwareState.fuses_fold (x : FirmwareState) : (x.securityFloor, x.keys) = x.fuses := rfl

@[simp] theorem FirmwareState.fuses_ite (c : Prop) [Decidable c] (a b : FirmwareState) : (if c then a else b).fuses = if c then a.fuses else b.fuses := by split <;> rfl

@[simp] theorem FirmwareState.fuses_atDawn (x : FirmwareState) : x.atDawn.fuses = x.fuses := rfl

@[simp] theorem FirmwareState.fuses_orphan (x : FirmwareState) (p) : (x.orphan p).fuses = x.fuses := by
  unfold FirmwareState.orphan; (repeat' split) <;> rfl

@[simp] theorem FirmwareState.fuses_mark (x : FirmwareState) (a b) : (x.mark a b).fuses = x.fuses := by
  unfold FirmwareState.mark; (repeat' split) <;> rfl

@[simp] theorem FirmwareState.fuses_writeDir (x : FirmwareState) (f) : (x.writeDir f).fuses = x.fuses := by
  unfold FirmwareState.writeDir; (repeat' split) <;> rfl

@[simp] theorem FirmwareState.fuses_act (x : FirmwareState) : (x.securityFloor, x.keys) = x.fuses := rfl

def State.hands (s : State) : List Instr × TapInstr × BitVec 103 × Bool × Bool × Nat × Tab 4 FusedKey := (s.pending, s.tap, s.scan, s.testmode, s.aonUp, s.fw.fuses)

@[simp] theorem State.hands_fold (s : State) : (s.pending, s.tap, s.scan, s.testmode, s.aonUp, s.fw.fuses) = s.hands := rfl

@[simp] theorem State.hands_mk (a0 a1 a2 a3 a4 a5 a6 a7 a8 a9 a10 a11 a12 a13 a14 a15 a16 a17 a18 a19 a20 a21 a22 a23 a24 a25 a26 a27 a28 a29 a30 a31 a32 a33 a34 a35 a36 a37 a38 a39 a40 a41 a42 a43 a44 a45 a46 a47 a48 a49 a50 a51 a52 a53 a54 a55 a56 a57 a58 a59 a60 a61) : (State.mk a0 a1 a2 a3 a4 a5 a6 a7 a8 a9 a10 a11 a12 a13 a14 a15 a16 a17 a18 a19 a20 a21 a22 a23 a24 a25 a26 a27 a28 a29 a30 a31 a32 a33 a34 a35 a36 a37 a38 a39 a40 a41 a42 a43 a44 a45 a46 a47 a48 a49 a50 a51 a52 a53 a54 a55 a56 a57 a58 a59 a60 a61).hands = (a0, a45, a46, a28, a27, a10.fuses) := rfl

@[simp] theorem hands_ite (c : Prop) [Decidable c] (a b : State) : (if c then a else b).hands = if c then a.hands else b.hands := by split <;> rfl

@[simp] theorem hands_ite1 {α : Type} (c : Prop) [Decidable c] (a b : State × α) : (if c then a else b).1.hands = if c then a.1.hands else b.1.hands := by split <;> rfl

@[simp] theorem forAll_hands {α : Type} (l : List α) (f : State → α → State) (s : State) (h : ∀ s a, (f s a).hands = s.hands) : (forAll l f s).hands = s.hands := by
  unfold forAll
  induction l generalizing s with
  | nil => rfl
  | cons a l ih => rw [List.foldl_cons, ih, h]

theorem keep_ite (c : Prop) [Decidable c] (a b s : State) (ha : a.hands = s.hands) (hb : b.hands = s.hands) : (if c then a else b).hands = s.hands := by
  split <;> assumption

theorem keep_opt (c : Prop) [Decidable c] (a b : Option State) (s : State) (ha : ∀ t, a = some t → t.hands = s.hands) (hb : ∀ t, b = some t → t.hands = s.hands) : ∀ t, (if c then a else b) = some t → t.hands = s.hands := by
  split <;> assumption

theorem keep_some (a s : State) (h : a.hands = s.hands) : ∀ t, some a = some t → t.hands = s.hands := by
  intro t ht; cases ht; exact h

theorem keep_none (s : State) : ∀ t, (none : Option State) = some t → t.hands = s.hands := by
  intro t ht; cases ht

end Sys2Proof.Machine
end

