-- ==== Sys2Proof/Laws/HandsPorts.lean ====
section
/-! SUPPORT. Frame lemmas: power, PD, the PBM and the slots leave the bundle alone. -/

set_option Elab.async false

namespace Sys2Proof.Machine

open Sys2Proof

@[simp] theorem State.begin_hands (s : State) : (State.begin s).hands = s.hands := by
  unfold State.begin
  simp

@[simp] theorem State.emit_hands (s : State) (e : Emission) : (State.emit s e).hands = s.hands := by
  unfold State.emit
  simp

@[simp] theorem State.emits_hands (s : State) (es : List Emission) : (State.emits s es).hands = s.hands := by
  unfold State.emits
  simp

@[simp] theorem State.tick_hands (s : State) : (State.tick s).hands = s.hands := by
  unfold State.tick
  simp

@[simp] theorem State.report_hands (s : State) (d : Detection) : (State.report s d).hands = s.hands := by
  unfold State.report
  simp

@[simp] theorem State.detect_hands (s : State) (source kind info : Nat) : (State.detect s source kind info).hands = s.hands := by
  unfold State.detect
  simp

@[simp] theorem State.updSession_hands (s : State) (i : Sess) (f : Session → Session) : (State.updSession s i f).hands = s.hands := by
  unfold State.updSession
  simp

@[simp] theorem State.fillRsp_hands (s : State) (m : Mbox) : (State.fillRsp s m).hands = s.hands := by
  unfold State.fillRsp
  simp
  (repeat' split) <;> simp

@[simp] theorem State.fillEvt_hands (s : State) (m : Mbox) : (State.fillEvt s m).hands = s.hands := by
  unfold State.fillEvt
  simp
  (repeat' split) <;> simp

@[simp] theorem State.fillMailbox_hands (s : State) (m : Mbox) : (State.fillMailbox s m).hands = s.hands := by
  unfold State.fillMailbox
  simp

@[simp] theorem State.respond_hands (s : State) (i : Sess) (r : Rsp) : (State.respond s i r).hands = s.hands := by
  unfold State.respond
  (repeat' split) <;> simp

@[simp] theorem State.deliver_hands (s : State) (e : EventOut) (i : Sess) : (State.deliver s e i).hands = s.hands := by
  unfold State.deliver
  (repeat' split) <;> simp

@[simp] theorem State.issue_hands (s : State) (e : EventOut) : (State.issue s e).hands = s.hands := by
  unfold State.issue
  simp

@[simp] theorem State.issueHeld_hands (s : State) : (State.issueHeld s).hands = s.hands := by
  unfold State.issueHeld
  simp

@[simp] theorem State.portEvent_hands (s : State) (p : Port) (code : Nat) (payload : List Byte) : (State.portEvent s p code payload).hands = s.hands := by
  unfold State.portEvent
  simp

@[simp] theorem State.slotEvent_hands (s : State) (k : Slot) (code : Nat) (payload : List Byte) : (State.slotEvent s k code payload).hands = s.hands := by
  unfold State.slotEvent
  simp

@[simp] theorem State.bankEvent_hands (s : State) (b : Bank) (code : Nat) (payload : List Byte) : (State.bankEvent s b code payload).hands = s.hands := by
  unfold State.bankEvent
  simp

@[simp] theorem State.complete_hands (s : State) (i : Sess) (status : Byte) (payload : List Byte) : (State.complete s i status payload).hands = s.hands := by
  unfold State.complete
  simp
  (repeat' split) <;> simp

@[simp] theorem State.answer_hands (s : State) (w : Wait) (status : Byte) (payload : List Byte) : (State.answer s w status payload).hands = s.hands := by
  unfold State.answer
  simp

@[simp] theorem refuse_hands (s : State) (status : Byte) : (refuse s status).1.hands = s.hands := by
  unfold refuse
  simp

@[simp] theorem ok_hands (s : State) : (ok s).1.hands = s.hands := by
  unfold ok
  simp

@[simp] theorem State.updVbus_hands (s : State) (p : Port) (f : VbusState → VbusState) : (State.updVbus s p f).hands = s.hands := by
  unfold State.updVbus
  simp

@[simp] theorem State.updPd_hands (s : State) (p : Port) (f : PdPort → PdPort) : (State.updPd s p f).hands = s.hands := by
  unfold State.updPd
  simp

@[simp] theorem State.writeWord_hands (s : State) (p : Port) : (State.writeWord s p).hands = s.hands := by
  unfold State.writeWord
  simp

@[simp] theorem State.refreshWord_hands (s : State) (p : Port) : (State.refreshWord s p).hands = s.hands := by
  unfold State.refreshWord
  simp

@[simp] theorem State.startDischarge_hands (s : State) (p : Port) : (State.startDischarge s p).hands = s.hands := by
  unfold State.startDischarge
  simp

@[simp] theorem State.contractEvent_hands (s : State) (p : Port) : (State.contractEvent s p).hands = s.hands := by
  unfold State.contractEvent
  simp

@[simp] theorem State.setRp_hands (s : State) (p : Port) : (State.setRp s p).hands = s.hands := by
  unfold State.setRp
  simp

@[simp] theorem State.sendOutcome_hands (s : State) (p : Port) (code : Byte) : (State.sendOutcome s p code).hands = s.hands := by
  unfold State.sendOutcome
  simp

@[simp] theorem State.endSequences_hands (s : State) (p : Port) (code : Byte) : (State.endSequences s p code).hands = s.hands := by
  unfold State.endSequences
  first
  | (simp; done)
  | (simp; (repeat' split) <;> (simp; done); done)
  | ((repeat' split) <;> (simp; done); done)
  | (simp only []; (repeat' split) <;> (simp; done); done)

@[simp] theorem State.protocolReset_hands (s : State) (p : Port) (code : Byte) : (State.protocolReset s p code).hands = s.hands := by
  unfold State.protocolReset
  first
  | (simp; done)
  | (simp; (repeat' split) <;> (simp; done); done)
  | ((repeat' split) <;> (simp; done); done)
  | (simp only []; (repeat' split) <;> (simp; done); done)

@[simp] theorem State.endContract_hands (s : State) (p : Port) (code : Byte) : (State.endContract s p code).hands = s.hands := by
  unfold State.endContract
  first
  | (simp; done)
  | (simp; (repeat' split) <;> (simp; done); done)
  | ((repeat' split) <;> (simp; done); done)
  | (simp only []; (repeat' split) <;> (simp; done); done)

@[simp] theorem State.isolateSbu_hands (s : State) (p : Port) : (State.isolateSbu s p).hands = s.hands := by
  unfold State.isolateSbu
  simp

@[simp] theorem State.freeUart_hands (s : State) (p : Port) : (State.freeUart s p).hands = s.hands := by
  unfold State.freeUart
  simp

@[simp] theorem State.bindUart_hands (s : State) (p : Port) : (State.bindUart s p).hands = s.hands := by
  unfold State.bindUart
  simp
  (repeat' split) <;> simp

@[simp] theorem State.setVconn_hands (s : State) (p : Port) (on : Bool) : (State.setVconn s p on).hands = s.hands := by
  unfold State.setVconn
  first
  | (simp; done)
  | (simp; (repeat' split) <;> (simp; done); done)
  | ((repeat' split) <;> (simp; done); done)
  | (simp only []; (repeat' split) <;> (simp; done); done)

@[simp] theorem State.pdTransmit_hands (s : State) (p : Port) (o : PdOut) : (State.pdTransmit s p o).hands = s.hands := by
  unfold State.pdTransmit
  simp

@[simp] theorem State.pdAbandon_hands (s : State) (p : Port) (o : PdOut) : (State.pdAbandon s p o).hands = s.hands := by
  unfold State.pdAbandon
  first
  | (simp; done)
  | (simp; (repeat' split) <;> (simp; done); done)
  | ((repeat' split) <;> (simp; done); done)
  | (simp only []; (repeat' split) <;> (simp; done); done)

@[simp] theorem State.pdSay_hands (s : State) (p : Port) (o : PdOut) : (State.pdSay s p o).hands = s.hands := by
  unfold State.pdSay
  first
  | (simp; done)
  | (simp; (repeat' split) <;> (simp; done); done)
  | ((repeat' split) <;> (simp; done); done)
  | (simp only []; (repeat' split) <;> (simp; done); done)

@[simp] theorem State.pdStart_hands (s : State) (p : Port) (o : PdOut) : (State.pdStart s p o).hands = s.hands := by
  unfold State.pdStart
  simp

@[simp] theorem State.pdIdle_hands (s : State) (p : Port) : (State.pdIdle s p).hands = s.hands := by
  unfold State.pdIdle
  simp
  (repeat' split) <;> simp

@[simp] theorem State.sendCaps_hands (s : State) (p : Port) (only5 : Bool) : (State.sendCaps s p only5).hands = s.hands := by
  unfold State.sendCaps
  simp

@[simp] theorem State.sendSoftReset_hands (s : State) (p : Port) : (State.sendSoftReset s p).hands = s.hands := by
  unfold State.sendSoftReset
  simp

@[simp] theorem State.pdReply_hands (s : State) (p : Port) (bytes : List Byte) (purpose : PdPurpose) (sop : Fin 5) : (State.pdReply s p bytes purpose sop).hands = s.hands := by
  unfold State.pdReply
  simp

@[simp] theorem State.hardResetBegin_hands (s : State) (p : Port) : (State.hardResetBegin s p).hands = s.hands := by
  unfold State.hardResetBegin
  simp

@[simp] theorem State.sendHardReset_hands (s : State) (p : Port) : (State.sendHardReset s p).hands = s.hands := by
  unfold State.sendHardReset
  simp

@[simp] theorem State.hardResetOff_hands (s : State) (p : Port) : (State.hardResetOff s p).hands = s.hands := by
  unfold State.hardResetOff
  simp

@[simp] theorem State.hardResetSafe_hands (s : State) (p : Port) : (State.hardResetSafe s p).hands = s.hands := by
  unfold State.hardResetSafe
  simp

@[simp] theorem State.hardResetReturn_hands (s : State) (p : Port) : (State.hardResetReturn s p).hands = s.hands := by
  unfold State.hardResetReturn
  simp

@[simp] theorem State.acceptRequest_hands (s : State) (p : Port) (c : Contract) (noChange : Bool) : (State.acceptRequest s p c noChange).hands = s.hands := by
  unfold State.acceptRequest
  simp

@[simp] theorem State.sendPsRdy_hands (s : State) (p : Port) : (State.sendPsRdy s p).hands = s.hands := by
  unfold State.sendPsRdy
  simp

@[simp] theorem State.contractInForce_hands (s : State) (p : Port) : (State.contractInForce s p).hands = s.hands := by
  unfold State.contractInForce
  (repeat' split) <;> simp

@[simp] theorem State.forward_hands (s : State) (p : Port) (sop : Fin 5) (b : List Byte) (c : Option Contract) : (State.forward s p sop b c).1.hands = s.hands := by
  unfold State.forward
  simp

@[simp] theorem State.onRequest_hands (s : State) (p : Port) (b : List Byte) : (State.onRequest s p b).1.hands = s.hands := by
  unfold State.onRequest
  simp
  (repeat' split) <;> simp

@[simp] theorem State.onVconnSwap_hands (s : State) (p : Port) : (State.onVconnSwap s p).1.hands = s.hands := by
  unfold State.onVconnSwap
  simp

@[simp] theorem State.autoRespond_hands (s : State) (p : Port) (sop : Fin 5) (b : List Byte) : (State.autoRespond s p sop b).1.hands = s.hands := by
  unfold State.autoRespond
  simp
  (repeat' split) <;> simp

@[simp] theorem State.updQueue_hands (s : State) (k : Slot) (f : PdQueue → PdQueue) : (State.updQueue s k f).hands = s.hands := by
  unfold State.updQueue
  simp

@[simp] theorem State.sopDetected_hands (s : State) (k : Slot) (j : Fin 33) (sop : Nat) (size : Nat) : (State.sopDetected s k j sop size).hands = s.hands := by
  unfold State.sopDetected
  simp

@[simp] theorem State.messageWhole_hands (s : State) (k : Slot) (j : Fin 33) (bytes : List Byte) (hw fwd raise : Bool) : (State.messageWhole s k j bytes hw fwd raise).hands = s.hands := by
  unfold State.messageWhole
  simp

@[simp] theorem State.messageDropped_hands (s : State) (k : Slot) (j : Fin 33) : (State.messageDropped s k j).hands = s.hands := by
  unfold State.messageDropped
  simp

@[simp] theorem State.resetItem_hands (s : State) (k : Slot) (j : Fin 33) (sop : Nat) (raise : Bool) : (State.resetItem s k j sop raise).hands = s.hands := by
  unfold State.resetItem
  (repeat' split) <;> simp

@[simp] theorem State.flushPd_hands (s : State) (k : Slot) : (State.flushPd s k).hands = s.hands := by
  unfold State.flushPd
  simp

@[simp] theorem State.pdMessageEvent_hands (s : State) (k : Slot) (note : ItemNote) (words : List (BitVec 69)) : (State.pdMessageEvent s k note words).hands = s.hands := by
  unfold State.pdMessageEvent
  (repeat' split) <;> simp

@[simp] theorem State.takeWord_hands (s : State) (k : Slot) (w : BitVec 69) : (State.takeWord s k w).hands = s.hands := by
  unfold State.takeWord
  simp
  (repeat' split) <;> simp

@[simp] theorem State.popQueue_hands (s : State) (k : Slot) : (State.popQueue s k).hands = s.hands := by
  unfold State.popQueue
  simp
  (repeat' split) <;> simp

@[simp] theorem State.inSequence_hands (s : State) (p : Port) (sop : Fin 5) (b : List Byte) : ∀ t, State.inSequence s p sop b = some t → t.hands = s.hands := by
  intro t h
  unfold State.inSequence at h
  simp only [] at h
  split at h
  all_goals try (split at h)
  all_goals try (split at h)
  all_goals try (split at h)
  all_goals simp_all
  all_goals (subst h; simp)

@[simp] theorem State.connectSbu_hands (s : State) (p : Port) : (State.connectSbu s p).hands = s.hands := by
  unfold State.connectSbu
  (repeat' split) <;> simp

@[simp] theorem State.sbuFollow_hands (s : State) (p : Port) (b : List Byte) : (State.sbuFollow s p b).hands = s.hands := by
  unfold State.sbuFollow
  simp

@[simp] theorem State.onRetryWait_hands (s : State) (p : Port) (w : WaitRetry) : (State.onRetryWait s p w).hands = s.hands := by
  unfold State.onRetryWait
  simp

@[simp] theorem State.onSoftReset_hands (s : State) (p : Port) : (State.onSoftReset s p).hands = s.hands := by
  unfold State.onSoftReset
  simp

@[simp] theorem State.pdAnswer_hands (s : State) (p : Port) (sop : Fin 5) (b : List Byte) : (State.pdAnswer s p sop b).1.hands = s.hands := by
  unfold State.pdAnswer
  simp only []
  split
  · simp
  · split
    · cases h : (s.pd.get p).retry <;> simp
    · split
      · rename_i t h
        have e := State.inSequence_hands s p sop b t h
        split <;> simp [e]
      · simp

@[simp] theorem State.sopPrecedence_hands (s : State) (p : Port) : (State.sopPrecedence s p).hands = s.hands := by
  unfold State.sopPrecedence
  first
  | (simp; done)
  | (simp; (repeat' split) <;> (simp; done); done)
  | ((repeat' split) <;> (simp; done); done)
  | (simp only []; (repeat' split) <;> (simp; done); done)

@[simp] theorem State.pdArrived_hands (s : State) (p : Port) (sop : Fin 5) (b : List Byte) : (State.pdArrived s p sop b).hands = s.hands := by
  unfold State.pdArrived
  first
  | (simp; done)
  | (simp; (repeat' split) <;> (simp; done); done)
  | ((repeat' split) <;> (simp; done); done)
  | (simp only []; (repeat' split) <;> (simp; done); done)

@[simp] theorem State.pdReceived_hands (s : State) (p : Port) (sop : Fin 5) (b : List Byte) : (State.pdReceived s p sop b).hands = s.hands := by
  unfold State.pdReceived
  first
  | (simp; done)
  | (simp; (repeat' split) <;> (simp; done); done)
  | ((repeat' split) <;> (simp; done); done)
  | (simp only []; (repeat' split) <;> (simp; done); done)

@[simp] theorem State.sentByHost_hands (s : State) (p : Port) (o : PdOut) : (State.sentByHost s p o).hands = s.hands := by
  unfold State.sentByHost
  simp
  (repeat' split) <;> simp

@[simp] theorem State.goodCrcFor_hands (s : State) (p : Port) : (State.goodCrcFor s p).hands = s.hands := by
  unfold State.goodCrcFor
  (repeat' split) <;> simp

@[simp] theorem State.sendFailed_hands (s : State) (p : Port) (o : PdOut) : (State.sendFailed s p o).hands = s.hands := by
  unfold State.sendFailed
  (repeat' split) <;> simp

@[simp] theorem State.receiveTimeout_hands (s : State) (p : Port) : (State.receiveTimeout s p).hands = s.hands := by
  unfold State.receiveTimeout
  (repeat' split) <;> simp

@[simp] theorem State.capsTimer_hands (s : State) (p : Port) : (State.capsTimer s p).hands = s.hands := by
  unfold State.capsTimer
  simp

@[simp] theorem State.capsDue_hands (s : State) (p : Port) : (State.capsDue s p).hands = s.hands := by
  unfold State.capsDue
  simp

@[simp] theorem State.discoverStart_hands (s : State) (p : Port) : (State.discoverStart s p).hands = s.hands := by
  unfold State.discoverStart
  simp

@[simp] theorem State.sinkTxDone_hands (s : State) (p : Port) : (State.sinkTxDone s p).hands = s.hands := by
  unfold State.sinkTxDone
  simp
  (repeat' split) <;> simp

@[simp] theorem State.responseTimeout_hands (s : State) (p : Port) : (State.responseTimeout s p).hands = s.hands := by
  unfold State.responseTimeout
  simp
  (repeat' split) <;> simp

@[simp] theorem State.noResponse_hands (s : State) (p : Port) : (State.noResponse s p).hands = s.hands := by
  unfold State.noResponse
  simp

@[simp] theorem State.ppsTimeout_hands (s : State) (p : Port) : (State.ppsTimeout s p).hands = s.hands := by
  unfold State.ppsTimeout
  (repeat' split) <;> simp

@[simp] theorem State.fwdDeadline_hands (s : State) (p : Port) : (State.fwdDeadline s p).hands = s.hands := by
  unfold State.fwdDeadline
  (repeat' split) <;> simp

@[simp] theorem State.waitRetryDue_hands (s : State) (p : Port) : (State.waitRetryDue s p).hands = s.hands := by
  unfold State.waitRetryDue
  (repeat' split) <;> simp

@[simp] theorem State.srcTransition_hands (s : State) (p : Port) : (State.srcTransition s p).hands = s.hands := by
  unfold State.srcTransition
  (repeat' split) <;> simp

@[simp] theorem State.transitionPgood_hands (s : State) (p : Port) : (State.transitionPgood s p).hands = s.hands := by
  unfold State.transitionPgood
  (repeat' split) <;> simp

@[simp] theorem State.transitionTimeout_hands (s : State) (p : Port) : (State.transitionTimeout s p).hands = s.hands := by
  unfold State.transitionTimeout
  (repeat' split) <;> simp

@[simp] theorem State.hardResetReceived_hands (s : State) (p : Port) : (State.hardResetReceived s p).hands = s.hands := by
  unfold State.hardResetReceived
  simp

@[simp] theorem State.psHardReset_hands (s : State) (p : Port) : (State.psHardReset s p).hands = s.hands := by
  unfold State.psHardReset
  simp

@[simp] theorem State.srcRecover_hands (s : State) (p : Port) : (State.srcRecover s p).hands = s.hands := by
  unfold State.srcRecover
  simp

@[simp] theorem State.vconnTimeout_hands (s : State) (p : Port) : (State.vconnTimeout s p).hands = s.hands := by
  unfold State.vconnTimeout
  simp

@[simp] theorem State.vconnLow_hands (s : State) (p : Port) : (State.vconnLow s p).hands = s.hands := by
  unfold State.vconnLow
  simp

@[simp] theorem State.ccEvaluate_hands (s : State) (p : Port) : (State.ccEvaluate s p).hands = s.hands := by
  unfold State.ccEvaluate
  simp

@[simp] theorem State.ccChange_hands (s : State) (p : Port) (c1 c2 : CcLine) : (State.ccChange s p c1 c2).hands = s.hands := by
  unfold State.ccChange
  simp

@[simp] theorem State.enterAttached_hands (s : State) (p : Port) : (State.enterAttached s p).hands = s.hands := by
  unfold State.enterAttached
  simp

@[simp] theorem State.enterDebug_hands (s : State) (p : Port) : (State.enterDebug s p).hands = s.hands := by
  unfold State.enterDebug
  simp

@[simp] theorem State.ccDebounced_hands (s : State) (p : Port) : (State.ccDebounced s p).hands = s.hands := by
  unfold State.ccDebounced
  simp

@[simp] theorem State.endHold_hands (s : State) (p : Port) : (State.endHold s p).hands = s.hands := by
  unfold State.endHold
  simp

@[simp] theorem State.detachTypeC_hands (s : State) (p : Port) : (State.detachTypeC s p).hands = s.hands := by
  unfold State.detachTypeC
  simp

@[simp] theorem State.rdLost_hands (s : State) (p : Port) : (State.rdLost s p).hands = s.hands := by
  unfold State.rdLost
  simp

@[simp] theorem State.raLost_hands (s : State) (p : Port) : (State.raLost s p).hands = s.hands := by
  unfold State.raLost
  simp

@[simp] theorem State.enterRecovery_hands (s : State) (p : Port) : (State.enterRecovery s p).hands = s.hands := by
  unfold State.enterRecovery
  simp

@[simp] theorem State.vconnOvercurrent_hands (s : State) (p : Port) : (State.vconnOvercurrent s p).hands = s.hands := by
  unfold State.vconnOvercurrent
  simp

@[simp] theorem State.recoveryDone_hands (s : State) (p : Port) : (State.recoveryDone s p).hands = s.hands := by
  unfold State.recoveryDone
  simp

@[simp] theorem State.openTypeC_hands (s : State) (p : Port) : (State.openTypeC s p).hands = s.hands := by
  unfold State.openTypeC
  simp

@[simp] theorem State.leaveOpen_hands (s : State) (p : Port) : (State.leaveOpen s p).hands = s.hands := by
  unfold State.leaveOpen
  simp

@[simp] theorem State.updSlot_hands (s : State) (k : Slot) (f : SlotState → SlotState) : (State.updSlot s k f).hands = s.hands := by
  unfold State.updSlot
  simp

@[simp] theorem State.spcEvent_hands (s : State) (k : Slot) (code : Nat) (payload : List Byte) : (State.spcEvent s k code payload).hands = s.hands := by
  unfold State.spcEvent
  simp

@[simp] theorem State.enterHold_hands (s : State) (p : Port) (c : HoldCause) : (State.enterHold s p c).hands = s.hands := by
  unfold State.enterHold
  simp

@[simp] theorem State.holdPort_hands (s : State) (p : Port) (c : HoldCause) : (State.holdPort s p c).hands = s.hands := by
  unfold State.holdPort
  simp

@[simp] theorem State.chainDown_hands (s : State) (k : Slot) : (State.chainDown s k).hands = s.hands := by
  unfold State.chainDown
  simp

@[simp] theorem State.leaveOn_hands (s : State) (k : Slot) : (State.leaveOn s k).hands = s.hands := by
  unfold State.leaveOn
  simp

@[simp] theorem State.slotTripEvent_hands (s : State) (k : Slot) (kind : Byte) (counted : Bool) (inj : Bool) : (State.slotTripEvent s k kind counted inj).hands = s.hands := by
  unfold State.slotTripEvent
  simp

@[simp] theorem State.gateOff_hands (s : State) (k : Slot) (dest : SlotSt) : (State.gateOff s k dest).hands = s.hands := by
  unfold State.gateOff
  dsimp only
  (repeat' split) <;> simp only [State.updSlot_hands, State.leaveOn_hands]

@[simp] theorem State.trip_hands (s : State) (k : Slot) (kind : Byte) (inj atBudget : Bool) : (State.trip s k kind inj atBudget).hands = s.hands := by
  unfold State.trip
  simp

@[simp] theorem State.notePeak_hands (s : State) (k : Slot) (sense : Nat) : (State.notePeak s k sense).hands = s.hands := by
  unfold State.notePeak
  simp

@[simp] theorem State.fastTrip_hands (s : State) (k : Slot) (sense : Nat) (inj : Bool) : (State.fastTrip s k sense inj).hands = s.hands := by
  unfold State.fastTrip
  simp

@[simp] theorem State.breakerTrip_hands (s : State) (k : Slot) (sense : Nat) (inj atBudget : Bool) : (State.breakerTrip s k sense inj atBudget).hands = s.hands := by
  unfold State.breakerTrip
  simp

@[simp] theorem State.rampStall_hands (s : State) (k : Slot) (inj : Bool) : (State.rampStall s k inj).hands = s.hands := by
  unfold State.rampStall
  simp

@[simp] theorem State.pgLost_hands (s : State) (k : Slot) (inj : Bool) : (State.pgLost s k inj).hands = s.hands := by
  unfold State.pgLost
  simp

@[simp] theorem State.noteVin_hands (s : State) (k : Slot) (mv : Nat) : (State.noteVin s k mv).hands = s.hands := by
  unfold State.noteVin
  simp

@[simp] theorem State.vinExit_hands (s : State) (k : Slot) (mv : Nat) (inj : Bool) : (State.vinExit s k mv inj).hands = s.hands := by
  unfold State.vinExit
  simp

@[simp] theorem State.seatLow_hands (s : State) (k : Slot) : (State.seatLow s k).hands = s.hands := by
  unfold State.seatLow
  simp

@[simp] theorem State.seatHigh_hands (s : State) (k : Slot) (inj : Bool) : (State.seatHigh s k inj).hands = s.hands := by
  unfold State.seatHigh
  simp

@[simp] theorem State.seatDebounced_hands (s : State) (k : Slot) : (State.seatDebounced s k).hands = s.hands := by
  unfold State.seatDebounced
  simp

@[simp] theorem State.startRamp_hands (s : State) (k : Slot) (mv : Nat) : (State.startRamp s k mv).hands = s.hands := by
  unfold State.startRamp
  simp

@[simp] theorem State.offTime_hands (s : State) (k : Slot) (mv : Nat) : (State.offTime s k mv).hands = s.hands := by
  unfold State.offTime
  simp

@[simp] theorem State.pgHold_hands (s : State) (k : Slot) : (State.pgHold s k).hands = s.hands := by
  unfold State.pgHold
  simp

@[simp] theorem State.pgConditionsLost_hands (s : State) (k : Slot) : (State.pgConditionsLost s k).hands = s.hands := by
  unfold State.pgConditionsLost
  simp

@[simp] theorem State.chainSettles_hands (s : State) (k : Slot) : (State.chainSettles s k).hands = s.hands := by
  unfold State.chainSettles
  first
  | (simp; done)
  | (simp; (repeat' split) <;> (simp; done); done)
  | ((repeat' split) <;> (simp; done); done)
  | (simp only []; (repeat' split) <;> (simp; done); done)

@[simp] theorem State.pgDelay_hands (s : State) (k : Slot) : (State.pgDelay s k).hands = s.hands := by
  unfold State.pgDelay
  dsimp only
  (repeat' split) <;> simp only [State.updSlot_hands, State.chainSettles_hands]

@[simp] theorem State.slotLearned_hands (s : State) (k : Slot) : (State.slotLearned s k).hands = s.hands := by
  unfold State.slotLearned
  first
  | (simp; done)
  | (simp; (repeat' split) <;> (simp; done); done)
  | ((repeat' split) <;> (simp; done); done)
  | (simp only []; (repeat' split) <;> (simp; done); done)

@[simp] theorem State.tripAging_hands (s : State) (k : Slot) : (State.tripAging s k).hands = s.hands := by
  unfold State.tripAging
  simp

@[simp] theorem State.slotSample_hands (s : State) (k : Slot) (vin vout sense : BitVec 12) : (State.slotSample s k vin vout sense).hands = s.hands := by
  unfold State.slotSample
  simp

@[simp] theorem State.slotDisableEnd_hands (s : State) (k : Slot) : (State.slotDisableEnd s k).hands = s.hands := by
  unfold State.slotDisableEnd
  simp

@[simp] theorem State.slotDisableBegin_hands (s : State) (k : Slot) : (State.slotDisableBegin s k).hands = s.hands := by
  unfold State.slotDisableBegin
  simp

@[simp] theorem State.slotDisableCheck_hands (s : State) (k : Slot) : (State.slotDisableCheck s k).hands = s.hands := by
  unfold State.slotDisableCheck
  simp

@[simp] theorem State.slotDisableTimeout_hands (s : State) (k : Slot) : (State.slotDisableTimeout s k).hands = s.hands := by
  unfold State.slotDisableTimeout
  simp

@[simp] theorem State.slotOff_hands (s : State) (k : Slot) : (State.slotOff s k).hands = s.hands := by
  unfold State.slotOff
  simp

@[simp] theorem opSlotEnable_hands (m : VcpMsg) (k : Slot) (s : State) : (opSlotEnable m k s).1.hands = s.hands := by
  unfold opSlotEnable
  simp

@[simp] theorem opSlotClearLatch_hands (m : VcpMsg) (k : Slot) (s : State) : (opSlotClearLatch m k s).1.hands = s.hands := by
  unfold opSlotClearLatch
  simp

@[simp] theorem State.setLimits_hands (s : State) (k : Slot) (l : List Byte) : ∀ t, State.setLimits s k l = some t → t.hands = s.hands := by
  intro t h
  unfold State.setLimits at h
  simp only [] at h
  split at h
  · simp at h
  · simp only [Option.some.injEq] at h
    subst h; simp

@[simp] theorem opSlotSetLimits_hands (m : VcpMsg) (k : Slot) (s : State) : (opSlotSetLimits m k s).1.hands = s.hands := by
  unfold opSlotSetLimits
  split
  · simp
  · rename_i h
    have := State.setLimits_hands _ _ _ _ h
    simp [this]

@[simp] theorem opSlotGet_hands (m : VcpMsg) (k : Slot) (s : State) : (opSlotGet m k s).1.hands = s.hands := by
  unfold opSlotGet
  simp

@[simp] theorem opPpcGet_hands (m : VcpMsg) (k : Slot) (only : Option Port) (s : State) : (opPpcGet m k only s).1.hands = s.hands := by
  unfold opPpcGet
  simp

@[simp] theorem State.updChain_hands (s : State) (k : Slot) (f : ChainState → ChainState) : (State.updChain s k f).hands = s.hands := by
  unfold State.updChain
  simp

@[simp] theorem State.wireNote_hands (s : State) (p : Port) (i : Nat) (o : Option Bool) : (s.wireNote p i o).hands = s.hands := by
  unfold State.wireNote
  split <;> simp

@[simp] theorem State.reachSafe0V_hands (s : State) (p : Port) : (State.reachSafe0V s p).hands = s.hands := by
  unfold State.reachSafe0V
  simp

@[simp] theorem State.dischargeOver_hands (s : State) (p : Port) : (State.dischargeOver s p).hands = s.hands := by
  unfold State.dischargeOver
  simp

@[simp] theorem State.releaseIdle_hands (s : State) (k : Slot) : (State.releaseIdle s k).hands = s.hands := by
  unfold State.releaseIdle
  simp

@[simp] theorem State.releaseNext_hands (s : State) (k : Slot) : (State.releaseNext s k).hands = s.hands := by
  unfold State.releaseNext
  simp
  (repeat' split) <;> simp

@[simp] theorem State.chainUp_hands (s : State) (k : Slot) : (State.chainUp s k).hands = s.hands := by
  unfold State.chainUp
  simp

@[simp] theorem State.chainFault_hands (s : State) (k : Slot) (kind : Nat) : (State.chainFault s k kind).hands = s.hands := by
  unfold State.chainFault
  simp

@[simp] theorem State.pgoodSeen_hands (s : State) (p : Port) : (State.pgoodSeen s p).hands = s.hands := by
  unfold State.pgoodSeen
  simp

@[simp] theorem State.judgePort_hands (s : State) (p : Port) (b : Byte) (failing : Bool) : (State.judgePort s p b failing).hands = s.hands := by
  unfold State.judgePort
  first
  | (simp; done)
  | (simp; (repeat' split) <;> (simp; done); done)
  | ((repeat' split) <;> (simp; done); done)
  | (simp only []; (repeat' split) <;> (simp; done); done)

@[simp] theorem State.judgeFrame_hands (s : State) (k : Slot) (input : List Byte) : (State.judgeFrame s k input).hands = s.hands := by
  unfold State.judgeFrame
  simp
  (repeat' split) <;> simp

@[simp] theorem State.chainFrame_hands (s : State) (k : Slot) (input : List Byte) : (State.chainFrame s k input).hands = s.hands := by
  unfold State.chainFrame
  simp

@[simp] theorem State.settlingTimeout_hands (s : State) (k : Slot) : (State.settlingTimeout s k).hands = s.hands := by
  unfold State.settlingTimeout
  simp

@[simp] theorem State.noPgoodTimeout_hands (s : State) (p : Port) : (State.noPgoodTimeout s p).hands = s.hands := by
  unfold State.noPgoodTimeout
  simp

@[simp] theorem State.pgoodLostTimeout_hands (s : State) (p : Port) : (State.pgoodLostTimeout s p).hands = s.hands := by
  unfold State.pgoodLostTimeout
  simp

@[simp] theorem State.updFw_hands (s : State) (f : FirmwareState → FirmwareState) : (State.updFw s f).hands = (s.pending, s.tap, s.scan, s.testmode, s.aonUp, (f s.fw).fuses) := Eq.trans rfl rfl

@[simp] theorem State.setOffer_hands (s : State) (p : Port) (l : List Byte) : ∀ t, State.setOffer s p l = some t → t.hands = s.hands := by
  intro t h
  unfold State.setOffer at h
  simp only [] at h
  split at h
  · simp at h
  · simp only [Option.some.injEq] at h
    subst h; simp

@[simp] theorem State.pdDisable_hands (s : State) (p : Port) : (State.pdDisable s p).hands = s.hands := by
  unfold State.pdDisable
  first
  | (simp; done)
  | (simp; (repeat' split) <;> (simp; done); done)
  | ((repeat' split) <;> (simp; done); done)
  | (simp only []; (repeat' split) <;> (simp; done); done)

@[simp] theorem opPdSetOffer_hands (m : VcpMsg) (p : Port) (s : State) : (opPdSetOffer m p s).1.hands = s.hands := by
  unfold opPdSetOffer
  split
  · simp
  · rename_i h
    have := State.setOffer_hands _ _ _ _ h
    simp [this]

@[simp] theorem opPdSend_hands (m : VcpMsg) (p : Port) (s : State) : (opPdSend m p s).1.hands = s.hands := by
  unfold opPdSend
  simp

@[simp] theorem opPdSetAutoresp_hands (m : VcpMsg) (p : Port) (s : State) : (opPdSetAutoresp m p s).1.hands = s.hands := by
  unfold opPdSetAutoresp
  (repeat' split) <;> simp

@[simp] theorem opPdHardReset_hands (m : VcpMsg) (p : Port) (s : State) : (opPdHardReset m p s).1.hands = s.hands := by
  unfold opPdHardReset
  simp

@[simp] theorem State.setRpLevel_hands (s : State) (p : Port) (r : RpLevel) : (State.setRpLevel s p r).hands = s.hands := by
  unfold State.setRpLevel
  simp

@[simp] theorem opCcSetRp_hands (m : VcpMsg) (p : Port) (s : State) : (opCcSetRp m p s).1.hands = s.hands := by
  unfold opCcSetRp
  simp
  (repeat' split) <;> simp

@[simp] theorem State.syncBaud_hands (s : State) (p : Port) : (State.syncBaud s p).hands = s.hands := by
  unfold State.syncBaud
  simp

@[simp] theorem opSbuSetRoute_hands (m : VcpMsg) (p : Port) (s : State) : (opSbuSetRoute m p s).1.hands = s.hands := by
  unfold opSbuSetRoute
  simp

@[simp] theorem opPdSetTimers_hands (m : VcpMsg) (p : Port) (s : State) : (opPdSetTimers m p s).1.hands = s.hands := by
  unfold opPdSetTimers
  simp

@[simp] theorem State.updUart_hands (s : State) (k : Part) (u : Fin 6) (f : UartSlot → UartSlot) : (State.updUart s k u f).hands = s.hands := by
  unfold State.updUart
  simp

@[simp] theorem State.cdcSetLine_hands (s : State) (k : Part) (u : Fin 6) (rate format parity bits : Nat) : (State.cdcSetLine s k u rate format parity bits).hands = s.hands := by
  unfold State.cdcSetLine
  (repeat' split) <;> simp

@[simp] theorem State.cdcGetLine_hands (s : State) (k : Part) (u : Fin 6) : (State.cdcGetLine s k u).hands = s.hands := by
  unfold State.cdcGetLine
  simp

@[simp] theorem State.cdcOut_hands (s : State) (k : Part) (u : Fin 6) (data : List Byte) : (State.cdcOut s k u data).hands = s.hands := by
  unfold State.cdcOut
  simp
  (repeat' split) <;> simp

@[simp] theorem State.uartRx_hands (s : State) (p : Port) (c : Byte) : (State.uartRx s p c).hands = s.hands := by
  unfold State.uartRx
  (repeat' split) <;> simp

@[simp] theorem State.updBank_hands (s : State) (b : Bank) (f : BankState → BankState) : (State.updBank s b f).hands = s.hands := by
  unfold State.updBank
  simp

@[simp] theorem State.spend_hands (s : State) (i : Injection) : (State.spend s i).hands = s.hands := by
  unfold State.spend
  simp

@[simp] theorem State.addrCheck_hands (s : State) (b : Bank) : (State.addrCheck s b).1.hands = s.hands := by
  unfold State.addrCheck
  (repeat' split) <;> simp

@[simp] theorem State.storeWord_hands (s : State) (b : Bank) (row word : Nat) (cw : BitVec 137) : (State.storeWord s b row word cw).hands = s.hands := by
  unfold State.storeWord
  simp
  (repeat' split) <;> simp

@[simp] theorem State.trackSticky_hands (s : State) (b : Bank) (row word : Nat) (syn : BitVec 9) (position : Nat) (inj : Bool) : (State.trackSticky s b row word syn position inj).hands = s.hands := by
  unfold State.trackSticky
  simp

@[simp] theorem State.raiseBucket_hands (s : State) (b : Bank) (inj : Bool) : (State.raiseBucket s b inj).hands = s.hands := by
  unfold State.raiseBucket
  simp

@[simp] theorem State.countClass_hands (s : State) (b : Bank) (row word : Nat) (syn : BitVec 9) (inj : Bool) (c : EccClass) :
    (s.countClass b row word syn inj c).hands = s.hands := by
  unfold State.countClass; split <;> simp

@[simp] theorem State.readWord_hands (s : State) (b : Bank) (row word : Nat) : (State.readWord s b row word).1.hands = s.hands := by
  unfold State.readWord
  simp
  intro _
  split <;> simp

@[simp] theorem State.flushEntry_hands (s : State) (b : Bank) (e : MergeEntry) : (State.flushEntry s b e).hands = s.hands := by
  unfold State.flushEntry
  simp

@[simp] theorem State.fence_hands (s : State) (b : Bank) : (State.fence s b).hands = s.hands := by
  unfold State.fence
  simp

@[simp] theorem State.writePartial_hands (s : State) (b : Bank) (row word : Nat) (bytes : BitVec 128) (mask : BitVec 16) : (State.writePartial s b row word bytes mask).hands = s.hands := by
  unfold State.writePartial
  simp
  (repeat' split) <;> simp

@[simp] theorem State.writeFull_hands (s : State) (b : Bank) (row word : Nat) (data : BitVec 128) : (State.writeFull s b row word data).hands = s.hands := by
  unfold State.writeFull
  simp

@[simp] theorem State.fillBank_hands (s : State) (b : Bank) : (State.fillBank s b).hands = s.hands := by
  unfold State.fillBank
  simp

@[simp] theorem State.clearBank_hands (s : State) (b : Bank) : (State.clearBank s b).hands = s.hands := by
  unfold State.clearBank
  first
  | (simp; done)
  | (simp; (repeat' split) <;> (simp; done); done)
  | ((repeat' split) <;> (simp; done); done)
  | (simp only []; (repeat' split) <;> (simp; done); done)

@[simp] theorem State.mapRetired_hands (s : State) (b : Bank) (row : Nat) : (State.mapRetired s b row).hands = s.hands := by
  unfold State.mapRetired
  (repeat' split) <;> simp

@[simp] theorem State.closeBank_hands (s : State) (b : Bank) : (State.closeBank s b).hands = s.hands := by
  unfold State.closeBank
  simp

@[simp] theorem State.applyRows_hands (s : State) (which : Bank → Bool) : (State.applyRows s which).hands = s.hands := by
  unfold State.applyRows
  simp

@[simp] theorem State.riseDomain_hands (s : State) (d : Fin 25) : (State.riseDomain s d).hands = s.hands := by
  unfold State.riseDomain
  simp

@[simp] theorem State.lowerDomain_hands (s : State) (d : Fin 25) (st : DomState) : (State.lowerDomain s d st).hands = s.hands := by
  unfold State.lowerDomain
  simp

@[simp] theorem State.wakeBank_hands (s : State) (b : Bank) : (State.wakeBank s b).hands = s.hands := by
  unfold State.wakeBank
  first
  | (simp; done)
  | (simp; (repeat' split) <;> (simp; done); done)
  | ((repeat' split) <;> (simp; done); done)
  | (simp only []; (repeat' split) <;> (simp; done); done)

@[simp] theorem writeRing_hands (n : Nat) (rows : List (Bank × Nat)) (pos : Nat) (bytes : List Byte) (s : State) :
    (writeRing n rows pos bytes s).hands = s.hands := by
  induction n generalizing pos bytes s with
  | zero => rfl
  | succ n ih =>
    cases bytes with
    | nil => rfl
    | cons x xs =>
      unfold writeRing
      split
      · rfl
      · simp [ih]

@[simp] theorem State.readForDelivery_hands (s : State) (b : Bank) (row word : Nat) : (State.readForDelivery s b row word).1.hands = s.hands := by
  unfold State.readForDelivery
  simp

@[simp] theorem readRing_hands (n : Nat) (rows : List (Bank × Nat)) (pos len : Nat) (acc : List Byte) (s : State) :
    (readRing n rows pos len acc s).1.hands = s.hands := by
  induction n generalizing pos len acc s with
  | zero => rfl
  | succ n ih =>
    unfold readRing
    split
    · rfl
    · split
      · rfl
      · simp [ih]

@[simp] theorem State.updRing_hands (s : State) (o : RowOwner) (f : Ring → Ring) : (State.updRing s o f).hands = s.hands := by
  unfold State.updRing
  simp

@[simp] theorem State.ringWrite_hands (s : State) (o : RowOwner) (bytes : List Byte) : (State.ringWrite s o bytes).hands = s.hands := by
  unfold State.ringWrite
  split <;> simp

@[simp] theorem State.ringPeek_hands (s : State) (o : RowOwner) (off len : Nat) : (State.ringPeek s o off len).1.hands = s.hands := by
  unfold State.ringPeek
  split <;> simp

@[simp] theorem State.ringDrop_hands (s : State) (o : RowOwner) (len : Nat) : (State.ringDrop s o len).hands = s.hands := by
  unfold State.ringDrop
  simp

@[simp] theorem State.fenceRing_hands (s : State) (r : Ring) : (State.fenceRing s r).hands = s.hands := by
  unfold State.fenceRing
  first
  | (simp; done)
  | (simp; (repeat' split) <;> (simp; done); done)
  | ((repeat' split) <;> (simp; done); done)
  | (simp only []; (repeat' split) <;> (simp; done); done)

@[simp] theorem State.ringClear_hands (s : State) (o : RowOwner) : (State.ringClear s o).hands = s.hands := by
  unfold State.ringClear
  (repeat' split) <;> simp

@[simp] theorem State.ringKeep_hands (s : State) (o : RowOwner) (n : Nat) : (State.ringKeep s o n).hands = s.hands := by
  unfold State.ringKeep
  first
  | (simp; done)
  | (simp; (repeat' split) <;> (simp; done); done)
  | ((repeat' split) <;> (simp; done); done)
  | (simp only []; (repeat' split) <;> (simp; done); done)

@[simp] theorem State.addRings_hands (s : State) (l : List Ring) : (State.addRings s l).hands = s.hands := by
  unfold State.addRings
  first
  | (simp; done)
  | (simp; (repeat' split) <;> (simp; done); done)
  | ((repeat' split) <;> (simp; done); done)
  | (simp only []; (repeat' split) <;> (simp; done); done)

@[simp] theorem State.reserve_hands (s : State) (k : Part) (want : List (RowOwner × Nat)) : ∀ t, State.reserve s k want = some t → t.hands = s.hands := by
  intro t h
  unfold State.reserve at h
  simp only [Option.map_eq_some_iff] at h
  obtain ⟨l, -, rfl⟩ := h
  simp

@[simp] theorem State.allocFixed_hands (s : State) (o : RowOwner) (b : Bank) (first n : Nat) (k : Part) : (State.allocFixed s o b first n k).hands = s.hands := by
  unfold State.allocFixed
  simp

@[simp] theorem State.allocMf_hands (s : State) (k : Part) : (State.allocMf s k).hands = s.hands := by
  unfold State.allocMf
  simp

@[simp] theorem State.allocNative_hands (s : State) (p : Port) : (State.allocNative s p).hands = s.hands := by
  unfold State.allocNative
  simp

@[simp] theorem State.release_hands (s : State) (which : RowOwner → Bool) : (State.release s which).hands = s.hands := by
  unfold State.release
  simp

@[simp] theorem State.passBuffer_hands (s : State) (o : RowOwner) (bytes : List Byte) : (State.passBuffer s o bytes).1.hands = s.hands := by
  unfold State.passBuffer
  first
  | (simp; done)
  | (simp; (repeat' split) <;> (simp; done); done)
  | ((repeat' split) <;> (simp; done); done)
  | (simp only []; (repeat' split) <;> (simp; done); done)

@[simp] theorem passPackets_hands (o : RowOwner) (m : Nat) (a0 : Nat) (a1 : List Byte) (a2 : State) : (passPackets o m a0 a1 a2).1.hands = a2.hands := by
  induction a0 generalizing a1 a2 with
  | zero => rfl
  | succ n ih =>
    unfold passPackets
    simp only []
    split <;> simp [ih]

@[simp] theorem State.readRow_hands (s : State) (b : Bank) (row : Nat) : (State.readRow s b row).1.hands = s.hands := by
  suffices h : ∀ (l : List Nat) (x : State × List (BitVec 137)),
      (l.foldl (fun (s, acc) w =>
        let (s, r) := s.readWord b row w
        let s := if r.cls.lost then s.updBank b (fun x => { x with poisonWrites := satAdd 32 x.poisonWrites 1 }) else s
        (s, acc ++ [copyWord r])) x).1.hands = x.1.hands by
    exact h _ _
  intro l
  induction l with
  | nil => intro x; rfl
  | cons w l ih =>
    intro x
    rw [List.foldl_cons, ih]
    simp

@[simp] theorem State.writeRow_hands (s : State) (b : Bank) (row : Nat) (l : List (BitVec 137)) : (State.writeRow s b row l).hands = s.hands := by
  unfold State.writeRow
  generalize 0 = n
  induction l generalizing s n with
  | nil => rfl
  | cons w l ih =>
    rw [List.foldl_cons, ih]
    simp

@[simp] theorem State.retire_hands (s : State) (b : Bank) (row : Nat) : ∀ t, State.retire s b row = some t → t.1.hands = s.hands := by
  intro t h
  unfold State.retire at h
  simp only [Option.map_eq_some_iff] at h
  obtain ⟨l, -, rfl⟩ := h
  simp

@[simp] theorem State.moveRow_hands (s : State) (b : Bank) (row : Nat) (copy : Bool) : (State.moveRow s b row copy).hands = s.hands := by
  unfold State.moveRow
  (repeat' split) <;> simp

@[simp] theorem State.updPort_hands (s : State) (p : Port) (f : PortState → PortState) : (State.updPort s p f).hands = s.hands := by
  unfold State.updPort
  simp

@[simp] theorem State.updPart_hands (s : State) (k : Part) (f : PartState → PartState) : (State.updPart s k f).hands = s.hands := by
  unfold State.updPart
  simp

@[simp] theorem State.updUp_hands (s : State) (k : Part) (f : UpState → UpState) : (State.updUp s k f).hands = s.hands := by
  unfold State.updUp
  simp

@[simp] theorem State.updMf_hands (s : State) (k : Part) (f : MfState → MfState) : (State.updMf s k f).hands = s.hands := by
  unfold State.updMf
  simp

@[simp] theorem State.updLift_hands (s : State) (p : Port) (f : LiftPort → LiftPort) : (State.updLift s p f).hands = s.hands := by
  unfold State.updLift
  simp

@[simp] theorem State.updTree_hands (s : State) (k : Part) (side : Side) (f : HubTree → HubTree) : (State.updTree s k side f).hands = s.hands := by
  unfold State.updTree
  (repeat' split) <;> simp

@[simp] theorem State.updLeaf_hands (s : State) (k : Part) (side : Side) (i : Pos) (f : VPort → VPort) : (State.updLeaf s k side i f).hands = s.hands := by
  unfold State.updLeaf
  simp

@[simp] theorem State.updTop_hands (s : State) (k : Part) (side : Side) (n : Fin 9) (f : VPort → VPort) : (State.updTop s k side n f).hands = s.hands := by
  unfold State.updTop
  simp

@[simp] theorem State.signalU3Exit_hands (s : State) (k : Part) : (State.signalU3Exit s k).hands = s.hands := by
  unfold State.signalU3Exit
  first
  | (simp; done)
  | (simp; (repeat' split) <;> (simp; done); done)
  | ((repeat' split) <;> (simp; done); done)
  | (simp only []; (repeat' split) <;> (simp; done); done)

@[simp] theorem State.hubWake_hands (s : State) (k : Part) (side : Side) (i : Pos) (connect : Bool) : (State.hubWake s k side i connect).hands = s.hands := by
  unfold State.hubWake
  first
  | (simp; done)
  | (simp; (repeat' split) <;> (simp; done); done)
  | ((repeat' split) <;> (simp; done); done)
  | (simp only []; (repeat' split) <;> (simp; done); done)

@[simp] theorem State.showConnect_hands (s : State) (p : Port) (side : Side) (enabled : Bool) : (State.showConnect s p side enabled).hands = s.hands := by
  unfold State.showConnect
  simp

@[simp] theorem State.showDisconnect_hands (s : State) (p : Port) (side : Side) : (State.showDisconnect s p side).hands = s.hands := by
  unfold State.showDisconnect
  simp

@[simp] theorem State.attachEvent_hands (s : State) (p : Port) : (State.attachEvent s p).hands = s.hands := by
  unfold State.attachEvent
  simp

@[simp] theorem State.detachEvent_hands (s : State) (p : Port) (r : Reason) (discarded : Nat) : (State.detachEvent s p r discarded).hands = s.hands := by
  unfold State.detachEvent
  simp

@[simp] theorem State.modeEvent_hands (s : State) (p : Port) (old : DataMode) : (State.modeEvent s p old).hands = s.hands := by
  unfold State.modeEvent
  simp

@[simp] theorem State.fallbackEvent_hands (s : State) (p : Port) (reason detail : Nat) : (State.fallbackEvent s p reason detail).hands = s.hands := by
  unfold State.fallbackEvent
  simp

end Sys2Proof.Machine
end

