-- ==== Sys2Proof/Laws/HandsLift.lean ====
section
/-! SUPPORT. Frame lemmas: lifting, the hubs and the ports leave the bundle alone. -/

set_option Elab.async false

namespace Sys2Proof.Machine

open Sys2Proof

@[simp] theorem State.updCtx_hands (s : State) (p : Port) (a : Byte) (f : EpCtx → EpCtx) : (State.updCtx s p a f).hands = s.hands := by
  unfold State.updCtx
  simp

@[simp] theorem State.count_hands (s : State) (p : Port) (a : Byte) (f : EpCounters → EpCounters) : (State.count s p a f).hands = s.hands := by
  unfold State.count
  simp

@[simp] theorem State.discardCtx_hands (s : State) (p : Port) (a : Byte) : (State.discardCtx s p a).hands = s.hands := by
  unfold State.discardCtx
  simp

@[simp] theorem State.useLink_hands (s : State) (p : Port) : (State.useLink s p).hands = s.hands := by
  unfold State.useLink
  first
  | (simp; done)
  | (simp; (repeat' split) <;> (simp; done); done)
  | ((repeat' split) <;> (simp; done); done)
  | (simp only []; (repeat' split) <;> (simp; done); done)

@[simp] theorem State.useFrame_hands (s : State) (p : Port) (n : Nat) (up : Bool) : (State.useFrame s p n up).hands = s.hands := by
  unfold State.useFrame
  first
  | (simp; done)
  | (simp; (repeat' split) <;> (simp; done); done)
  | ((repeat' split) <;> (simp; done); done)
  | (simp only []; (repeat' split) <;> (simp; done); done)

@[simp] theorem State.poisonNote_hands (s : State) (p : Port) (a : Byte) (src : Byte) (offset held : Nat) : (State.poisonNote s p a src offset held).hands = s.hands := by
  unfold State.poisonNote
  simp

@[simp] theorem State.poisonCtx_hands (s : State) (p : Port) (a : Byte) (src : Byte) : (State.poisonCtx s p a src).hands = s.hands := by
  unfold State.poisonCtx
  (repeat' split) <;> simp

@[simp] theorem State.poisonLink_hands (s : State) (p : Port) (a : Byte) : (State.poisonLink s p a).hands = s.hands := by
  unfold State.poisonLink
  first
  | (simp; done)
  | (simp; (repeat' split) <;> (simp; done); done)
  | ((repeat' split) <;> (simp; done); done)
  | (simp only []; (repeat' split) <;> (simp; done); done)

@[simp] theorem State.poisonEp0_hands (s : State) (p : Port) (src : Byte) : (State.poisonEp0 s p src).hands = s.hands := by
  unfold State.poisonEp0
  simp

@[simp] theorem State.erdy_hands (s : State) (p : Port) (a : Byte) : (State.erdy s p a).hands = s.hands := by
  unfold State.erdy
  (repeat' split) <;> simp

@[simp] theorem State.makeReady_hands (s : State) (p : Port) (a : Byte) (n : Nat) : (State.makeReady s p a n).hands = s.hands := by
  unfold State.makeReady
  simp

@[simp] theorem State.pairApply_hands (s : State) (p : Port) (a : Byte) (e : InEvent) : (State.pairApply s p a e).hands = s.hands := by
  unfold State.pairApply
  (repeat' split) <;> simp

@[simp] theorem State.releaseHalf_hands (s : State) (p : Port) (a : Byte) : (State.releaseHalf s p a).hands = s.hands := by
  unfold State.releaseHalf
  (repeat' split) <;> simp

@[simp] theorem State.onCbw_hands (s : State) (p : Port) (a : Byte) (len : Nat) (isInDir : Bool) : (State.onCbw s p a len isInDir).hands = s.hands := by
  unfold State.onCbw
  simp

@[simp] theorem State.resetSnoop_hands (s : State) (p : Port) (a : Byte) : (State.resetSnoop s p a).hands = s.hands := by
  unfold State.resetSnoop
  (repeat' split) <;> simp

@[simp] theorem State.skimData_hands (s : State) (p : Port) (c : EpCtx) (snooping : Bool) (n : Nat) : (State.skimData s p c snooping n).hands = s.hands := by
  unfold State.skimData
  simp

@[simp] theorem State.takeIn_hands (s : State) (p : Port) (a : Byte) (bytes : List Byte) : (State.takeIn s p a bytes).hands = s.hands := by
  unfold State.takeIn
  (repeat' split) <;> simp

@[simp] theorem State.expireHalf_hands (s : State) (p : Port) (a : Byte) : (State.expireHalf s p a).hands = s.hands := by
  unfold State.expireHalf
  first
  | (simp; done)
  | (simp; (repeat' split) <;> (simp; done); done)
  | ((repeat' split) <;> (simp; done); done)
  | (simp only []; (repeat' split) <;> (simp; done); done)

@[simp] theorem State.holdExpiry_hands (s : State) (p : Port) (a : Byte) : (State.holdExpiry s p a).hands = s.hands := by
  unfold State.holdExpiry
  (repeat' split) <;> simp

@[simp] theorem State.bulkIn_hands (s : State) (p : Port) (a : Byte) (r : InAnswer) : (State.bulkIn s p a r).hands = s.hands := by
  unfold State.bulkIn
  (repeat' split) <;> simp

@[simp] theorem sendReady_hands (n : Nat) (p : Port) (a : Byte) (s : State) : (sendReady n p a s).hands = s.hands := by
  induction n generalizing s with
  | zero => rfl
  | succ n ih =>
    unfold sendReady
    split
    · rfl
    · split
      · rfl
      · simp only []
        split <;> simp [ih]

@[simp] theorem State.noteOpportunity_hands (s : State) (p : Port) (a : Byte) : (State.noteOpportunity s p a).hands = s.hands := by
  unfold State.noteOpportunity
  first
  | (simp; done)
  | (simp; (repeat' split) <;> (simp; done); done)
  | ((repeat' split) <;> (simp; done); done)
  | (simp only []; (repeat' split) <;> (simp; done); done)

@[simp] theorem State.isoInOpportunity_hands (s : State) (p : Port) (a : Byte) (c : EpCtx) (m : Nat) : (State.isoInOpportunity s p a c m).hands = s.hands := by
  unfold State.isoInOpportunity
  first
  | (simp; done)
  | (simp; (repeat' split) <;> (simp; done); done)
  | ((repeat' split) <;> (simp; done); done)
  | (simp only []; (repeat' split) <;> (simp; done); done)

@[simp] theorem State.answerStall_hands (s : State) (p : Port) (a : Byte) : (State.answerStall s p a).hands = s.hands := by
  unfold State.answerStall
  first
  | (simp; done)
  | (simp; (repeat' split) <;> (simp; done); done)
  | ((repeat' split) <;> (simp; done); done)
  | (simp only []; (repeat' split) <;> (simp; done); done)

@[simp] theorem State.answerNrdy_hands (s : State) (p : Port) (a : Byte) : (State.answerNrdy s p a).hands = s.hands := by
  unfold State.answerNrdy
  first
  | (simp; done)
  | (simp; (repeat' split) <;> (simp; done); done)
  | ((repeat' split) <;> (simp; done); done)
  | (simp only []; (repeat' split) <;> (simp; done); done)

@[simp] theorem State.answerReady_hands (s : State) (p : Port) (a : Byte) (c : EpCtx) (n : Nat) : (State.answerReady s p a c n).hands = s.hands := by
  unfold State.answerReady
  first
  | (simp; done)
  | (simp; (repeat' split) <;> (simp; done); done)
  | ((repeat' split) <;> (simp; done); done)
  | (simp only []; (repeat' split) <;> (simp; done); done)

@[simp] theorem State.ackTp_hands (s : State) (p : Port) (a : Byte) (n : Nat) : (State.ackTp s p a n).hands = s.hands := by
  unfold State.ackTp
  (repeat' split) <;> simp

@[simp] theorem State.interestLapse_hands (s : State) (p : Port) (a : Byte) : (State.interestLapse s p a).hands = s.hands := by
  unfold State.interestLapse
  simp

@[simp] theorem State.sendOut_hands (s : State) (p : Port) (a : Byte) : (State.sendOut s p a).hands = s.hands := by
  unfold State.sendOut
  simp
  (repeat' split) <;> simp

@[simp] theorem State.bulkOut_hands (s : State) (p : Port) (a : Byte) (bytes : List Byte) : (State.bulkOut s p a bytes).hands = s.hands := by
  unfold State.bulkOut
  (repeat' split) <;> simp

@[simp] theorem State.bulkOutDone_hands (s : State) (p : Port) (a : Byte) (r : OutAnswer) : (State.bulkOutDone s p a r).hands = s.hands := by
  unfold State.bulkOutDone
  (repeat' split) <;> simp

@[simp] theorem State.bulkOutStall_hands (s : State) (p : Port) (a : Byte) : (State.bulkOutStall s p a).hands = s.hands := by
  unfold State.bulkOutStall
  (repeat' split) <;> simp

@[simp] theorem State.countInterval_hands (s : State) (p : Port) (a : Byte) (l : List (List Byte)) : (State.countInterval s p a l).hands = s.hands := by
  unfold State.countInterval
  first
  | (simp; done)
  | (simp; (repeat' split) <;> (simp; done); done)
  | ((repeat' split) <;> (simp; done); done)
  | (simp only []; (repeat' split) <;> (simp; done); done)

@[simp] theorem State.skimInterval_hands (s : State) (p : Port) (c : EpCtx) (l : List (List Byte)) : (State.skimInterval s p c l).hands = s.hands := by
  unfold State.skimInterval
  first
  | (simp; done)
  | (simp; (repeat' split) <;> (simp; done); done)
  | ((repeat' split) <;> (simp; done); done)
  | (simp only []; (repeat' split) <;> (simp; done); done)

@[simp] theorem State.interruptIn_hands (s : State) (p : Port) (c : EpCtx) (l : List (List Byte)) : (State.interruptIn s p c l).hands = s.hands := by
  unfold State.interruptIn
  simp

@[simp] theorem State.isoEnter_hands (s : State) (p : Port) (a : Byte) (n : Option Nat) : (State.isoEnter s p a n).hands = s.hands := by
  unfold State.isoEnter
  first
  | (simp; done)
  | (simp; (repeat' split) <;> (simp; done); done)
  | ((repeat' split) <;> (simp; done); done)
  | (simp only []; (repeat' split) <;> (simp; done); done)

@[simp] theorem State.isoIn_hands (s : State) (p : Port) (c : EpCtx) (l : List (List Byte)) : (State.isoIn s p c l).hands = s.hands := by
  unfold State.isoIn
  simp

@[simp] theorem State.sendInterval_hands (s : State) (p : Port) (a : Byte) (c : EpCtx) (len : Nat) : (State.sendInterval s p a c len).hands = s.hands := by
  unfold State.sendInterval
  simp
  (repeat' split) <;> simp

@[simp] theorem State.periodic_hands (s : State) (p : Port) (c : EpCtx) (answer : Option PeriodicAnswer) : (State.periodic s p c answer).hands = s.hands := by
  unfold State.periodic
  first
  | (simp; done)
  | (simp; (repeat' split) <;> (simp; done); done)
  | ((repeat' split) <;> (simp; done); done)
  | (simp only []; (repeat' split) <;> (simp; done); done)

@[simp] theorem State.interruptOut_hands (s : State) (p : Port) (a : Byte) (bytes : List Byte) : (State.interruptOut s p a bytes).hands = s.hands := by
  unfold State.interruptOut
  (repeat' split) <;> simp

@[simp] theorem State.isoOut_hands (s : State) (p : Port) (a : Byte) (bytes : List Byte) (bad : Bool) : (State.isoOut s p a bytes bad).hands = s.hands := by
  unfold State.isoOut
  (repeat' split) <;> simp

@[simp] theorem State.releaseHalves_hands (s : State) (p : Port) : (State.releaseHalves s p).hands = s.hands := by
  unfold State.releaseHalves
  (repeat' split) <;> simp

@[simp] theorem State.closeContexts_hands (s : State) (p : Port) : (State.closeContexts s p).1.hands = s.hands := by
  unfold State.closeContexts
  (repeat' split) <;> simp

@[simp] theorem State.stopReplaced_hands (s : State) (p : Port) (r : Setup) : (State.stopReplaced s p r).hands = s.hands := by
  unfold State.stopReplaced
  (repeat' split) <;> simp

@[simp] theorem State.reopenStopped_hands (s : State) (p : Port) : (State.reopenStopped s p).hands = s.hands := by
  unfold State.reopenStopped
  simp

@[simp] theorem State.configured_hands (s : State) (p : Port) (value : Nat) : (State.configured s p value).hands = s.hands := by
  unfold State.configured
  simp

@[simp] theorem State.altSet_hands (s : State) (p : Port) (i alt : Nat) : (State.altSet s p i alt).hands = s.hands := by
  unfold State.altSet
  simp

@[simp] theorem State.haltCleared_hands (s : State) (p : Port) (a : Byte) : (State.haltCleared s p a).hands = s.hands := by
  unfold State.haltCleared
  simp

@[simp] theorem State.haltClearedLocally_hands (s : State) (p : Port) (a : Byte) : (State.haltClearedLocally s p a).hands = s.hands := by
  unfold State.haltClearedLocally
  simp

@[simp] theorem State.ctlEffect_hands (s : State) (p : Port) (r : Setup) : (State.ctlEffect s p r).hands = s.hands := by
  unfold State.ctlEffect
  (repeat' split) <;> simp

@[simp] theorem State.updCtl_hands (s : State) (p : Port) (f : CtlXfer → CtlXfer) : (State.updCtl s p f).hands = s.hands := by
  unfold State.updCtl
  simp

@[simp] theorem State.sendCtlOut_hands (s : State) (p : Port) : (State.sendCtlOut s p).hands = s.hands := by
  unfold State.sendCtlOut
  simp
  (repeat' split) <;> simp

@[simp] theorem State.ctlFinish_hands (s : State) (p : Port) (r : Setup) : (State.ctlFinish s p r).hands = s.hands := by
  unfold State.ctlFinish
  first
  | (simp; done)
  | (simp; (repeat' split) <;> (simp; done); done)
  | ((repeat' split) <;> (simp; done); done)
  | (simp only []; (repeat' split) <;> (simp; done); done)

@[simp] theorem State.kickCtl_hands (s : State) (p : Port) : (State.kickCtl s p).hands = s.hands := by
  unfold State.kickCtl
  (repeat' split) <;> simp

@[simp] theorem State.erdy0_hands (s : State) (p : Port) : (State.erdy0 s p).hands = s.hands := by
  unfold State.erdy0
  first
  | (simp; done)
  | (simp; (repeat' split) <;> (simp; done); done)
  | ((repeat' split) <;> (simp; done); done)
  | (simp only []; (repeat' split) <;> (simp; done); done)

@[simp] theorem State.nrdy0_hands (s : State) (p : Port) : (State.nrdy0 s p).hands = s.hands := by
  unfold State.nrdy0
  first
  | (simp; done)
  | (simp; (repeat' split) <;> (simp; done); done)
  | ((repeat' split) <;> (simp; done); done)
  | (simp only []; (repeat' split) <;> (simp; done); done)

@[simp] theorem State.forwardCtl_hands (s : State) (p : Port) (r : Setup) : (State.forwardCtl s p r).hands = s.hands := by
  unfold State.forwardCtl
  simp

@[simp] theorem State.dropCtl_hands (s : State) (p : Port) : (State.dropCtl s p).hands = s.hands := by
  unfold State.dropCtl
  (repeat' split) <;> simp

@[simp] theorem State.failCtl_hands (s : State) (p : Port) : (State.failCtl s p).hands = s.hands := by
  unfold State.failCtl
  simp

@[simp] theorem State.ctlBusError_hands (s : State) (p : Port) (t : CtlXfer) : (State.ctlBusError s p t).hands = s.hands := by
  unfold State.ctlBusError
  first
  | (simp; done)
  | (simp; (repeat' split) <;> (simp; done); done)
  | ((repeat' split) <;> (simp; done); done)
  | (simp only []; (repeat' split) <;> (simp; done); done)

@[simp] theorem State.ctlNak_hands (s : State) (p : Port) : (State.ctlNak s p).hands = s.hands := by
  unfold State.ctlNak
  first
  | (simp; done)
  | (simp; (repeat' split) <;> (simp; done); done)
  | ((repeat' split) <;> (simp; done); done)
  | (simp only []; (repeat' split) <;> (simp; done); done)

@[simp] theorem State.ctlOutPacket_hands (s : State) (p : Port) (bytes : List Byte) : (State.ctlOutPacket s p bytes).hands = s.hands := by
  unfold State.ctlOutPacket
  (repeat' split) <;> simp

@[simp] theorem State.ctlOutDone_hands (s : State) (p : Port) (r : OutAnswer) : (State.ctlOutDone s p r).hands = s.hands := by
  unfold State.ctlOutDone
  (repeat' split) <;> simp

@[simp] theorem presentRead_hands (n : Nat) (p : Port) (s : State) : (presentRead n p s).hands = s.hands := by
  induction n generalizing s with
  | zero => rfl
  | succ n ih =>
    unfold presentRead
    split
    · rfl
    · dsimp only
      split
      · rfl
      · split <;> simp [ih]

@[simp] theorem State.ctlInPacket_hands (s : State) (p : Port) (r : InAnswer) : (State.ctlInPacket s p r).hands = s.hands := by
  unfold State.ctlInPacket
  split
  · rfl
  · split
    · rfl
    · split <;> simp

@[simp] theorem State.ctlStatus_hands (s : State) (p : Port) (r : XferResult) : (State.ctlStatus s p r).hands = s.hands := by
  unfold State.ctlStatus
  (repeat' split) <;> simp

@[simp] theorem State.localData_hands (s : State) (p : Port) (r : Setup) (bytes : List Byte) : (State.localData s p r bytes).hands = s.hands := by
  unfold State.localData
  simp

@[simp] theorem State.requestError_hands (s : State) (p : Port) : (State.requestError s p).hands = s.hands := by
  unfold State.requestError
  simp

@[simp] theorem State.stdGetStatus_hands (s : State) (p : Port) (x : LiftPort) (r : Setup) : (State.stdGetStatus s p x r).hands = s.hands := by
  unfold State.stdGetStatus
  (repeat' split) <;> simp

@[simp] theorem State.stdFunctionSuspend_hands (s : State) (p : Port) (x : LiftPort) (r : Setup) : (State.stdFunctionSuspend s p x r).hands = s.hands := by
  unfold State.stdFunctionSuspend
  simp

@[simp] theorem State.stdGetDescriptor_hands (s : State) (p : Port) (x : LiftPort) (r : Setup) : (State.stdGetDescriptor s p x r).hands = s.hands := by
  unfold State.stdGetDescriptor
  simp
  (repeat' split) <;> simp

@[simp] theorem State.localSet_hands (s : State) (p : Port) (f : LiftPort → LiftPort) : (State.localSet s p f).hands = s.hands := by
  unfold State.localSet
  simp

@[simp] theorem State.treat_hands (s : State) (p : Port) (x : LiftPort) (r : Setup) (data : List Byte) : (State.treat s p x r data).hands = s.hands := by
  unfold State.treat
  simp

@[simp] theorem State.setLink_hands (s : State) (p : Port) (l : VLink) : (State.setLink s p l).hands = s.hands := by
  unfold State.setLink
  simp

@[simp] theorem State.suspendOrder_hands (s : State) (p : Port) : (State.suspendOrder s p).hands = s.hands := by
  unfold State.suspendOrder
  (repeat' split) <;> simp

@[simp] theorem State.resumeOrder_hands (s : State) (p : Port) : (State.resumeOrder s p).hands = s.hands := by
  unfold State.resumeOrder
  (repeat' split) <;> simp

@[simp] theorem State.l1Idle_hands (s : State) (p : Port) : (State.l1Idle s p).hands = s.hands := by
  unfold State.l1Idle
  (repeat' split) <;> simp

@[simp] theorem State.busWakes_hands (s : State) (p : Port) : (State.busWakes s p).hands = s.hands := by
  unfold State.busWakes
  (repeat' split) <;> simp

@[simp] theorem State.l1Exit_hands (s : State) (p : Port) : (State.l1Exit s p).hands = s.hands := by
  unfold State.l1Exit
  simp

@[simp] theorem State.bulkTime_hands (s : State) (p : Port) (x : LiftPort) : (State.bulkTime s p x).hands = s.hands := by
  unfold State.bulkTime
  first
  | (simp; done)
  | (simp; (repeat' split) <;> (simp; done); done)
  | ((repeat' split) <;> (simp; done); done)
  | (simp only []; (repeat' split) <;> (simp; done); done)

@[simp] theorem State.periodicTime_hands (s : State) (p : Port) (x : LiftPort) (l : List Periodic) : (State.periodicTime s p x l).hands = s.hands := by
  unfold State.periodicTime
  first
  | (simp; done)
  | (simp; (repeat' split) <;> (simp; done); done)
  | ((repeat' split) <;> (simp; done); done)
  | (simp only []; (repeat' split) <;> (simp; done); done)

@[simp] theorem State.liftTimers_hands (s : State) (p : Port) (x : LiftPort) : (State.liftTimers s p x).hands = s.hands := by
  unfold State.liftTimers
  first
  | (simp; done)
  | (simp; (repeat' split) <;> (simp; done); done)
  | ((repeat' split) <;> (simp; done); done)
  | (simp only []; (repeat' split) <;> (simp; done); done)

@[simp] theorem State.busFrame_hands (s : State) (p : Port) (l : List Periodic) : (State.busFrame s p l).hands = s.hands := by
  unfold State.busFrame
  first
  | (simp; done)
  | (simp; (repeat' split) <;> (simp; done); done)
  | ((repeat' split) <;> (simp; done); done)
  | (simp only []; (repeat' split) <;> (simp; done); done)

@[simp] theorem State.microFrame_hands (s : State) (l : List Periodic) : (State.microFrame s l).hands = s.hands := by
  unfold State.microFrame
  simp

@[simp] theorem State.placeMf_hands (s : State) (k : Part) (side : Option Side) : (State.placeMf s k side).hands = s.hands := by
  unfold State.placeMf
  (repeat' split) <;> simp

@[simp] theorem State.presentTree_hands (s : State) (k : Part) : (State.presentTree s k).hands = s.hands := by
  unfold State.presentTree
  simp

@[simp] theorem State.evalPresent_hands (s : State) (k : Part) : (State.evalPresent s k).hands = s.hands := by
  unfold State.evalPresent
  simp

@[simp] theorem State.treeGone_hands (s : State) (k : Part) : (State.treeGone s k).hands = s.hands := by
  unfold State.treeGone
  simp
  (repeat' split) <;> simp

@[simp] theorem State.checkWithdraw_hands (s : State) (k : Part) : (State.checkWithdraw s k).hands = s.hands := by
  unfold State.checkWithdraw
  simp

@[simp] theorem State.showUsb2_hands (s : State) (p : Port) (path : Path) (speed : Speed) : (State.showUsb2 s p path speed).hands = s.hands := by
  unfold State.showUsb2
  simp

@[simp] theorem State.showPass_hands (s : State) (p : Port) : (State.showPass s p).hands = s.hands := by
  unfold State.showPass
  simp

@[simp] theorem State.showNative_hands (s : State) (p : Port) : (State.showNative s p).hands = s.hands := by
  unfold State.showNative
  simp

@[simp] theorem State.startProbe_hands (s : State) (p : Port) : (State.startProbe s p).hands = s.hands := by
  unfold State.startProbe
  simp

@[simp] theorem State.showCarried_hands (s : State) (p : Port) (c : Carried) : (State.showCarried s p c).hands = s.hands := by
  unfold State.showCarried
  first
  | (simp; done)
  | (simp; (repeat' split) <;> (simp; done); done)
  | ((repeat' split) <;> (simp; done); done)
  | (simp only []; (repeat' split) <;> (simp; done); done)

@[simp] theorem State.attachFlow_hands (s : State) (p : Port) : (State.attachFlow s p).hands = s.hands := by
  unfold State.attachFlow
  simp
  (repeat' split) <;> simp

@[simp] theorem State.settle_hands (s : State) (p : Port) : (State.settle s p).hands = s.hands := by
  unfold State.settle
  simp
  (repeat' split) <;> simp

@[simp] theorem State.setLines_hands (s : State) (p : Port) (l : DataLines) : (State.setLines s p l).hands = s.hands := by
  unfold State.setLines
  first
  | (simp; done)
  | (simp; (repeat' split) <;> (simp; done); done)
  | ((repeat' split) <;> (simp; done); done)
  | (simp only []; (repeat' split) <;> (simp; done); done)

@[simp] theorem State.applyMode_hands (s : State) (p : Port) : (State.applyMode s p).hands = s.hands := by
  unfold State.applyMode
  (repeat' split) <;> simp

@[simp] theorem State.applyMove_hands (s : State) (p : Port) (was : Carried) : (State.applyMove s p was).hands = s.hands := by
  unfold State.applyMove
  first
  | (simp; done)
  | (simp; (repeat' split) <;> (simp; done); done)
  | ((repeat' split) <;> (simp; done); done)
  | (simp only []; (repeat' split) <;> (simp; done); done)

@[simp] theorem State.startDisable_hands (s : State) (p : Port) : (State.startDisable s p).hands = s.hands := by
  unfold State.startDisable
  simp

@[simp] theorem State.startOwnReset_hands (s : State) (p : Port) : (State.startOwnReset s p).hands = s.hands := by
  unfold State.startOwnReset
  simp

@[simp] theorem State.afterDrain_hands (s : State) (p : Port) (was : Carried) : (State.afterDrain s p was).hands = s.hands := by
  unfold State.afterDrain
  first
  | (simp; done)
  | (simp; (repeat' split) <;> (simp; done); done)
  | ((repeat' split) <;> (simp; done); done)
  | (simp only []; (repeat' split) <;> (simp; done); done)

@[simp] theorem State.beginDrain_hands (s : State) (p : Port) (r : Reason) : (State.beginDrain s p r).hands = s.hands := by
  unfold State.beginDrain
  simp

@[simp] theorem State.endPresentation_hands (s : State) (p : Port) : (State.endPresentation s p).hands = s.hands := by
  unfold State.endPresentation
  simp

@[simp] theorem State.finishDrain_hands (s : State) (p : Port) : (State.finishDrain s p).hands = s.hands := by
  unfold State.finishDrain
  simp

@[simp] theorem State.drainThen_hands (s : State) (p : Port) (r : Reason) (f : PortState → PortState) : (State.drainThen s p r f).hands = s.hands := by
  unfold State.drainThen
  simp

@[simp] theorem State.drainComplete_hands (s : State) (p : Port) : (State.drainComplete s p).hands = s.hands := by
  unfold State.drainComplete
  simp

@[simp] theorem State.drainExpired_hands (s : State) (p : Port) : (State.drainExpired s p).hands = s.hands := by
  unfold State.drainExpired
  simp

@[simp] theorem State.vbusOn_hands (s : State) (p : Port) : (State.vbusOn s p).hands = s.hands := by
  unfold State.vbusOn
  first
  | (simp; done)
  | (simp; (repeat' split) <;> (simp; done); done)
  | ((repeat' split) <;> (simp; done); done)
  | (simp only []; (repeat' split) <;> (simp; done); done)

@[simp] theorem State.runDeferred_hands (s : State) (p : Port) (d : Deferred) : (s.runDeferred p d).hands = s.hands := by
  unfold State.runDeferred
  split <;> simp

@[simp] theorem State.disableComplete_hands (s : State) (p : Port) : (State.disableComplete s p).hands = s.hands := by
  unfold State.disableComplete
  simp

@[simp] theorem State.dischargeEnd_hands (s : State) (p : Port) : (State.dischargeEnd s p).hands = s.hands := by
  unfold State.dischargeEnd
  simp

@[simp] theorem State.connectSeen_hands (s : State) (p : Port) (training : Bool) : (State.connectSeen s p training).hands = s.hands := by
  unfold State.connectSeen
  first
  | (simp; done)
  | (simp; (repeat' split) <;> (simp; done); done)
  | ((repeat' split) <;> (simp; done); done)
  | (simp only []; (repeat' split) <;> (simp; done); done)

@[simp] theorem State.disconnectSeen_hands (s : State) (p : Port) : (State.disconnectSeen s p).hands = s.hands := by
  unfold State.disconnectSeen
  simp
  (repeat' split) <;> simp

@[simp] theorem State.debounced_hands (s : State) (p : Port) : (State.debounced s p).hands = s.hands := by
  unfold State.debounced
  simp

@[simp] theorem State.presentPending_hands (s : State) (p : Port) : (State.presentPending s p).hands = s.hands := by
  unfold State.presentPending
  simp

@[simp] theorem State.ssU0Held_hands (s : State) (p : Port) (gen2 : Bool) : (State.ssU0Held s p gen2).hands = s.hands := by
  unfold State.ssU0Held
  simp

@[simp] theorem State.vdpSrc_hands (s : State) (p : Port) (present : Bool) : (State.vdpSrc s p present).hands = s.hands := by
  unfold State.vdpSrc
  simp

@[simp] theorem State.sideChanged_hands (s : State) (k : Part) : (State.sideChanged s k).hands = s.hands := by
  unfold State.sideChanged
  simp

@[simp] theorem State.setSide_hands (s : State) (k : Part) (side : SsSide) : (State.setSide s k side).hands = s.hands := by
  unfold State.setSide
  simp

@[simp] theorem State.withdraw_hands (s : State) (k : Part) (r : Reason) (answer : Bool) (dest : PartSt) : (State.withdraw s k r answer dest).hands = s.hands := by
  unfold State.withdraw
  simp

@[simp] theorem State.updProbe_hands (s : State) (p : Port) (f : Probe → Probe) : (State.updProbe s p f).hands = s.hands := by
  unfold State.updProbe
  simp

@[simp] theorem State.issueProbe_hands (s : State) (p : Port) : (State.issueProbe s p).hands = s.hands := by
  unfold State.issueProbe
  (repeat' split) <;> simp

@[simp] theorem State.probeTo_hands (s : State) (p : Port) (st : ProbeStep) (len : Nat) : (State.probeTo s p st len).hands = s.hands := by
  unfold State.probeTo
  simp

@[simp] theorem State.rowsFree_hands (s : State) (p : Port) (d : DescSet) : ∀ t, State.rowsFree s p d = some t → t.hands = s.hands := by
  intro t h
  unfold State.rowsFree at h
  simpa using State.reserve_hands _ _ _ _ h

@[simp] theorem State.rowsFree_getD_hands (s : State) (p : Port) (d : DescSet) : ((s.rowsFree p d).getD s).hands = s.hands := by
  cases h : s.rowsFree p d with
  | none => rfl
  | some t => exact State.rowsFree_hands _ _ _ _ h

@[simp] theorem State.noteDevice_hands (s : State) (p : Port) (d : DescSet) (qualified : Bool) : (State.noteDevice s p d qualified).hands = s.hands := by
  unfold State.noteDevice
  simp

@[simp] theorem State.endLift_hands (s : State) (p : Port) : (State.endLift s p).hands = s.hands := by
  unfold State.endLift
  simp

@[simp] theorem State.fallbackNote_hands (s : State) (p : Port) (reason detail : Nat) : (State.fallbackNote s p reason detail).hands = s.hands := by
  unfold State.fallbackNote
  simp

@[simp] theorem State.fallBack_hands (s : State) (p : Port) (reason detail : Nat) : (State.fallBack s p reason detail).hands = s.hands := by
  unfold State.fallBack
  simp

@[simp] theorem State.presentLifted_hands (s : State) (p : Port) (d : DescSet) : (State.presentLifted s p d).hands = s.hands := by
  unfold State.presentLifted
  simp

@[simp] theorem State.conclude_hands (s : State) (p : Port) (d : DescSet) : (State.conclude s p d).hands = s.hands := by
  unfold State.conclude
  (repeat' split) <;> simp

@[simp] theorem State.leafResetDone_hands (s : State) (p : Port) (connected : Bool) : (State.leafResetDone s p connected).hands = s.hands := by
  unfold State.leafResetDone
  simp

@[simp] theorem State.resetStep6_hands (s : State) (p : Port) (d : DescSet) : (State.resetStep6 s p d).hands = s.hands := by
  unfold State.resetStep6
  simp
  (repeat' split) <;> simp

@[simp] theorem State.resetDetach_hands (s : State) (p : Port) : (State.resetDetach s p).hands = s.hands := by
  unfold State.resetDetach
  (repeat' split) <;> simp

@[simp] theorem State.requalify_hands (s : State) (p : Port) (d : DescSet) (detail : Nat) (qualified : Bool) : (State.requalify s p d detail qualified).hands = s.hands := by
  unfold State.requalify
  simp

@[simp] theorem State.refetched_hands (s : State) (p : Port) (d : DescSet) : (State.refetched s p d).hands = s.hands := by
  unfold State.refetched
  split
  · rfl
  · simp
    repeat' (first | intro _ | split)
    all_goals simp

@[simp] theorem State.probeStopped_hands (s : State) (p : Port) (e : ProbeEnd) : (State.probeStopped s p e).hands = s.hands := by
  unfold State.probeStopped
  (repeat' split) <;> simp

@[simp] theorem State.probeGo_hands (s : State) (p : Port) (b : Probe) (n : ProbeNext) : (s.probeGo p b n).hands = s.hands := by
  unfold State.probeGo
  split <;> simp

@[simp] theorem State.requestFails_hands (s : State) (p : Port) : (State.requestFails s p).hands = s.hands := by
  unfold State.requestFails
  first
  | (simp; done)
  | (simp; (repeat' split) <;> (simp; done); done)
  | ((repeat' split) <;> (simp; done); done)
  | (simp only []; (repeat' split) <;> (simp; done); done)

@[simp] theorem State.probeRequest_hands (s : State) (p : Port) (r : XferResult) : (State.probeRequest s p r).hands = s.hands := by
  unfold State.probeRequest
  first
  | (simp; done)
  | (simp; (repeat' split) <;> (simp; done); done)
  | ((repeat' split) <;> (simp; done); done)
  | (simp only []; (repeat' split) <;> (simp; done); done)

@[simp] theorem State.probeTimeout_hands (s : State) (p : Port) : (State.probeTimeout s p).hands = s.hands := by
  unfold State.probeTimeout
  (repeat' split) <;> simp

@[simp] theorem State.probesAfterPause_hands (s : State) : (State.probesAfterPause s).hands = s.hands := by
  unfold State.probesAfterPause
  apply forAll_hands
  intro s p
  split <;> simp

@[simp] theorem State.startLiftReset_hands (s : State) (p : Port) (byHost : Bool) : (State.startLiftReset s p byHost).hands = s.hands := by
  unfold State.startLiftReset
  simp

@[simp] theorem State.sofRuns_hands (s : State) (p : Port) : (State.sofRuns s p).hands = s.hands := by
  unfold State.sofRuns
  first
  | (simp; done)
  | (simp; (repeat' split) <;> (simp; done); done)
  | ((repeat' split) <;> (simp; done); done)
  | (simp only []; (repeat' split) <;> (simp; done); done)

@[simp] theorem State.hostResetDone_hands (s : State) (p : Port) (side : Side) : (State.hostResetDone s p side).hands = s.hands := by
  unfold State.hostResetDone
  first
  | (simp; done)
  | (simp; (repeat' split) <;> (simp; done); done)
  | ((repeat' split) <;> (simp; done); done)
  | (simp only []; (repeat' split) <;> (simp; done); done)

@[simp] theorem State.se0End_hands (s : State) (p : Port) (found : FoundSpeed) : (State.se0End s p found).hands = s.hands := by
  unfold State.se0End
  simp
  (repeat' split) <;> simp

@[simp] theorem State.recoveryEnd_hands (s : State) (p : Port) : (State.recoveryEnd s p).hands = s.hands := by
  unfold State.recoveryEnd
  simp
  (repeat' split) <;> simp

@[simp] theorem State.virtualReset_hands (s : State) (k : Part) (side : Side) (i : Pos) (bh : Bool) : (State.virtualReset s k side i bh).hands = s.hands := by
  unfold State.virtualReset
  first
  | (simp; done)
  | (simp; (repeat' split) <;> (simp; done); done)
  | ((repeat' split) <;> (simp; done); done)
  | (simp only []; (repeat' split) <;> (simp; done); done)

@[simp] theorem State.startHostReset_hands (s : State) (k : Part) (side : Side) (i : Pos) (p : Port) (bh : Bool) (a : BusAct) : (State.startHostReset s k side i p bh a).hands = s.hands := by
  unfold State.startHostReset
  first
  | (simp; done)
  | (simp; (repeat' split) <;> (simp; done); done)
  | ((repeat' split) <;> (simp; done); done)
  | (simp only []; (repeat' split) <;> (simp; done); done)

@[simp] theorem State.hostPortReset_hands (s : State) (k : Part) (i : Pos) (side : Side) (bh : Bool) : (State.hostPortReset s k i side bh).hands = s.hands := by
  unfold State.hostPortReset
  first
  | (simp; done)
  | (simp; (repeat' split) <;> (simp; done); done)
  | ((repeat' split) <;> (simp; done); done)
  | (simp only []; (repeat' split) <;> (simp; done); done)

@[simp] theorem State.makeResetPending_hands (s : State) (p : Port) : (State.makeResetPending s p).hands = s.hands := by
  unfold State.makeResetPending
  (repeat' split) <;> simp

@[simp] theorem State.setup_hands (s : State) (p : Port) (r : Setup) (data : List Byte) : (State.setup s p r data).hands = s.hands := by
  unfold State.setup
  simp
  (repeat' split) <;> simp

@[simp] theorem State.quench_hands (s : State) (p : Port) : (State.quench s p).hands = s.hands := by
  unfold State.quench
  simp
  (repeat' split) <;> simp

@[simp] theorem State.releasePort_hands (s : State) (p : Port) : (State.releasePort s p).hands = s.hands := by
  unfold State.releasePort
  simp
  (repeat' split) <;> simp

@[simp] theorem State.collision_hands (s : State) (p : Port) (order : Nat) (delta : Nat) (map : Nat) : (State.collision s p order delta map).hands = s.hands := by
  unfold State.collision
  simp

@[simp] theorem State.functionWakes_hands (s : State) (p : Port) : (State.functionWakes s p).hands = s.hands := by
  unfold State.functionWakes
  (repeat' split) <;> simp

@[simp] theorem State.driveK_hands (s : State) (p : Port) : (State.driveK s p).hands = s.hands := by
  unfold State.driveK
  first
  | (simp; done)
  | (simp; (repeat' split) <;> (simp; done); done)
  | ((repeat' split) <;> (simp; done); done)
  | (simp only []; (repeat' split) <;> (simp; done); done)

@[simp] theorem State.usb2Signals_hands (s : State) (k : Part) : (State.usb2Signals s k).hands = s.hands := by
  unfold State.usb2Signals
  first
  | (simp; done)
  | (simp; (repeat' split) <;> (simp; done); done)
  | ((repeat' split) <;> (simp; done); done)
  | (simp only []; (repeat' split) <;> (simp; done); done)

@[simp] theorem State.liftedWake_hands (s : State) (p : Port) (x : LiftPort) (delta : Nat) : (State.liftedWake s p x delta).hands = s.hands := by
  unfold State.liftedWake
  first
  | (simp; done)
  | (simp; (repeat' split) <;> (simp; done); done)
  | ((repeat' split) <;> (simp; done); done)
  | (simp only []; (repeat' split) <;> (simp; done); done)

@[simp] theorem State.remoteWakeK_hands (s : State) (p : Port) (delta : Nat) : (State.remoteWakeK s p delta).hands = s.hands := by
  unfold State.remoteWakeK
  (repeat' split) <;> simp

@[simp] theorem State.wakePart_hands (s : State) (k : Part) : (State.wakePart s k).hands = s.hands := by
  unfold State.wakePart
  simp

@[simp] theorem State.u3ExitDone_hands (s : State) (p : Port) : (State.u3ExitDone s p).hands = s.hands := by
  unfold State.u3ExitDone
  (repeat' split) <;> simp

@[simp] theorem State.wakeCollision_hands (s : State) (p : Port) (delta : Nat) : (State.wakeCollision s p delta).hands = s.hands := by
  unfold State.wakeCollision
  (repeat' split) <;> simp

@[simp] theorem State.resumeEnd_hands (s : State) (p : Port) : (State.resumeEnd s p).hands = s.hands := by
  unfold State.resumeEnd
  simp
  (repeat' split) <;> simp

@[simp] theorem State.unarmedResuspend_hands (s : State) (p : Port) : (State.unarmedResuspend s p).hands = s.hands := by
  unfold State.unarmedResuspend
  (repeat' split) <;> simp

@[simp] theorem State.babble_hands (s : State) (p : Port) : (State.babble s p).hands = s.hands := by
  unfold State.babble
  simp

@[simp] theorem State.mergeAge_hands (s : State) (b : Bank) (word : Nat) : (State.mergeAge s b word).hands = s.hands := by
  unfold State.mergeAge
  (repeat' split) <;> simp

@[simp] theorem State.scrubAdvance_hands (s : State) (b : Bank) : (State.scrubAdvance s b).hands = s.hands := by
  unfold State.scrubAdvance
  simp

@[simp] theorem State.scrubAct_hands (s : State) (b : Bank) (row word : Nat) (r : WordRead) (pending : Bool) : (State.scrubAct s b row word r pending).hands = s.hands := by
  unfold State.scrubAct
  (repeat' split) <;> simp

@[simp] theorem State.scrubWord_hands (s : State) (b : Bank) (queued : Bool) : (State.scrubWord s b queued).hands = s.hands := by
  unfold State.scrubWord
  simp

@[simp] theorem State.bucketLeak_hands (s : State) : (State.bucketLeak s).hands = s.hands := by
  unfold State.bucketLeak
  simp

@[simp] theorem State.emptyRowMove_hands (s : State) (b : Bank) (row : Nat) : (State.emptyRowMove s b row).hands = s.hands := by
  unfold State.emptyRowMove
  (repeat' split) <;> simp

@[simp] theorem State.timeoutRowCopy_hands (s : State) (b : Bank) (row : Nat) : (State.timeoutRowCopy s b row).hands = s.hands := by
  unfold State.timeoutRowCopy
  (repeat' split) <;> simp

@[simp] theorem State.raiseTtBucket_hands (s : State) (k : Slot) (by_ : Nat) (inj : Bool) : (State.raiseTtBucket s k by_ inj).hands = s.hands := by
  unfold State.raiseTtBucket
  simp

@[simp] theorem State.clearStats_hands (s : State) (b : Bank) : (State.clearStats s b).hands = s.hands := by
  unfold State.clearStats
  simp

@[simp] theorem opPbmGetStats_hands (m : VcpMsg) (b : Bank) (s : State) : (opPbmGetStats m b s).1.hands = s.hands := by
  unfold opPbmGetStats
  simp

@[simp] theorem opPbmSetScrub_hands (m : VcpMsg) (s : State) : (opPbmSetScrub m s).1.hands = s.hands := by
  unfold opPbmSetScrub
  simp

@[simp] theorem opPbmRetire_hands (m : VcpMsg) (b : Bank) (s : State) : (opPbmRetire m b s).1.hands = s.hands := by
  unfold opPbmRetire
  dsimp only
  repeat' split
  all_goals (first | (simp; done) | skip)
  rename_i h
  exact State.retire_hands _ _ _ _ h

@[simp] theorem opPbmFlipmask_hands (m : VcpMsg) (b : Bank) (s : State) : (opPbmFlipmask m b s).1.hands = s.hands := by
  unfold opPbmFlipmask
  simp

@[simp] theorem State.ctlRead_hands (s : State) (k : Part) (r : Setup) (bytes : List Byte) : (State.ctlRead s k r bytes).hands = s.hands := by
  unfold State.ctlRead
  simp

@[simp] theorem State.ctlOk_hands (s : State) (k : Part) : (State.ctlOk s k).hands = s.hands := by
  unfold State.ctlOk
  simp

@[simp] theorem State.ctlError_hands (s : State) (k : Part) : (State.ctlError s k).hands = s.hands := by
  unfold State.ctlError
  simp

@[simp] theorem State.usb2PositionReset_hands (s : State) (p : Port) : (State.usb2PositionReset s p).hands = s.hands := by
  unfold State.usb2PositionReset
  simp

@[simp] theorem State.resetPositions_hands (s : State) (k : Part) (side : Side) (which : Pos → Bool) : (State.resetPositions s k side which).hands = s.hands := by
  unfold State.resetPositions
  (repeat' split) <;> simp

@[simp] theorem State.restartMf_hands (s : State) (k : Part) : (State.restartMf s k).hands = s.hands := by
  unfold State.restartMf
  simp

@[simp] theorem State.leafDefault_hands (s : State) (k : Part) (side : Side) (h : HubIx) (shown : Pos → Bool) : (State.leafDefault s k side h shown).hands = s.hands := by
  unfold State.leafDefault
  first
  | (simp; done)
  | (simp; (repeat' split) <;> (simp; done); done)
  | ((repeat' split) <;> (simp; done); done)
  | (simp only []; (repeat' split) <;> (simp; done); done)

@[simp] theorem State.topPortReset_hands (s : State) (k : Part) (side : Side) (n : Fin 9) (bh : Bool) : (State.topPortReset s k side n bh).hands = s.hands := by
  unfold State.topPortReset
  first
  | (simp; done)
  | (simp; (repeat' split) <;> (simp; done); done)
  | ((repeat' split) <;> (simp; done); done)
  | (simp only []; (repeat' split) <;> (simp; done); done)

@[simp] theorem State.updHubPort_hands (s : State) (k : Part) (side : Side) (q : HubPort) (f : VPort → VPort) : (State.updHubPort s k side q f).hands = s.hands := by
  unfold State.updHubPort
  (repeat' split) <;> simp

@[simp] theorem State.clearPortPower_hands (s : State) (k : Part) (side : Side) (q : HubPort) : (State.clearPortPower s k side q).hands = s.hands := by
  unfold State.clearPortPower
  simp
  (repeat' split) <;> simp

@[simp] theorem State.setPortPower_hands (s : State) (k : Part) (side : Side) (q : HubPort) : (State.setPortPower s k side q).hands = s.hands := by
  unfold State.setPortPower
  first
  | (simp; done)
  | (simp; (repeat' split) <;> (simp; done); done)
  | ((repeat' split) <;> (simp; done); done)
  | (simp only []; (repeat' split) <;> (simp; done); done)

@[simp] theorem State.hubSuspend_hands (s : State) (k : Part) (q : HubPort) : (State.hubSuspend s k q).hands = s.hands := by
  unfold State.hubSuspend
  simp
  (repeat' split) <;> simp

@[simp] theorem State.leaveL1_hands (s : State) (k : Part) (i : Pos) (p : Port) : (State.leaveL1 s k i p).hands = s.hands := by
  unfold State.leaveL1
  first
  | (simp; done)
  | (simp; (repeat' split) <;> (simp; done); done)
  | ((repeat' split) <;> (simp; done); done)
  | (simp only []; (repeat' split) <;> (simp; done); done)

@[simp] theorem State.hubResume_hands (s : State) (k : Part) (q : HubPort) : (State.hubResume s k q).hands = s.hands := by
  unfold State.hubResume
  simp
  (repeat' split) <;> simp

@[simp] theorem State.hubLpm_hands (s : State) (k : Part) (q : HubPort) (r : Setup) (ack : Bool) : (State.hubLpm s k q r ack).hands = s.hands := by
  unfold State.hubLpm
  first
  | (simp; done)
  | (simp; (repeat' split) <;> (simp; done); done)
  | ((repeat' split) <;> (simp; done); done)
  | (simp only []; (repeat' split) <;> (simp; done); done)

@[simp] theorem State.ttReadWord_hands (s : State) (p : Port) (d : BitVec 64) (c : BitVec 8) : (State.ttReadWord s p d c).1.hands = s.hands := by
  unfold State.ttReadWord
  first
  | (simp; done)
  | (simp; (repeat' split) <;> (simp; done); done)
  | ((repeat' split) <;> (simp; done); done)
  | (simp only []; (repeat' split) <;> (simp; done); done)

@[simp] theorem State.ttReadWords_hands (s : State) (p : Port) (a0 : List (BitVec 64)) (a1 : List (BitVec 8)) : (State.ttReadWords s p a0 a1).1.hands = s.hands := by
  induction a0 generalizing a1 s with
  | nil => unfold State.ttReadWords; rfl
  | cons d ds ih =>
    cases a1 with
    | nil => unfold State.ttReadWords; rfl
    | cons c cs =>
      unfold State.ttReadWords
      have e := State.ttReadWord_hands s p d c
      split
      · rename_i heq; rw [heq] at e; exact e
      · rename_i heq; rw [heq] at e; simp only []; rw [ih]; exact e

@[simp] theorem State.ttRead_hands (s : State) (p : Port) (bytes : List Byte) (check : List (BitVec 8)) : (State.ttRead s p bytes check).1.hands = s.hands := by
  unfold State.ttRead
  first
  | (simp; done)
  | (simp; (repeat' split) <;> (simp; done); done)
  | ((repeat' split) <;> (simp; done); done)
  | (simp only []; (repeat' split) <;> (simp; done); done)

@[simp] theorem State.updTt_hands (s : State) (p : Port) (key : BitVec 16) (f : TtEntry → TtEntry) : (State.updTt s p key f).hands = s.hands := by
  unfold State.updTt
  first
  | (simp; done)
  | (simp; (repeat' split) <;> (simp; done); done)
  | ((repeat' split) <;> (simp; done); done)
  | (simp only []; (repeat' split) <;> (simp; done); done)

@[simp] theorem State.ttIssue_hands (s : State) (p : Port) (e : TtEntry) : (State.ttIssue s p e).hands = s.hands := by
  unfold State.ttIssue
  first
  | (simp; done)
  | (simp; (repeat' split) <;> (simp; done); done)
  | ((repeat' split) <;> (simp; done); done)
  | (simp only []; (repeat' split) <;> (simp; done); done)

@[simp] theorem State.ttShake_hands (s : State) (k : Part) (pid : Byte) : (State.ttShake s k pid).hands = s.hands := by
  unfold State.ttShake
  first
  | (simp; done)
  | (simp; (repeat' split) <;> (simp; done); done)
  | ((repeat' split) <;> (simp; done); done)
  | (simp only []; (repeat' split) <;> (simp; done); done)

@[simp] theorem State.ttError_hands (s : State) (k : Part) (periodic : Bool) : (State.ttError s k periodic).hands = s.hands := by
  unfold State.ttError
  first
  | (simp; done)
  | (simp; (repeat' split) <;> (simp; done); done)
  | ((repeat' split) <;> (simp; done); done)
  | (simp only []; (repeat' split) <;> (simp; done); done)

@[simp] theorem State.ttAnswer_hands (s : State) (k : Part) (p : Port) (e : TtEntry) (a0 : XferResult) : (State.ttAnswer s k p e a0).hands = s.hands := by
  unfold State.ttAnswer
  split
  · rename_i b
    have q := State.ttRead_hands s p b (ttChecks b)
    split <;> (rename_i heq; rw [heq] at q; simp [q])
  all_goals simp

@[simp] theorem State.split_hands (s : State) (k : Part) (i : Pos) (op : SplitOp) : (State.split s k i op).hands = s.hands := by
  unfold State.split
  first
  | (simp; done)
  | (simp; (repeat' split) <;> (simp; done); done)
  | ((repeat' split) <;> (simp; done); done)
  | (simp only []; (repeat' split) <;> (simp; done); done)

@[simp] theorem State.ttTick_hands (s : State) (p : Port) (frame : BitVec 11) : (State.ttTick s p frame).hands = s.hands := by
  unfold State.ttTick
  first
  | (simp; done)
  | (simp; (repeat' split) <;> (simp; done); done)
  | ((repeat' split) <;> (simp; done); done)
  | (simp only []; (repeat' split) <;> (simp; done); done)

@[simp] theorem State.clearTt_hands (s : State) (k : Part) (i : Pos) (key : BitVec 16) : (State.clearTt s k i key).hands = s.hands := by
  unfold State.clearTt
  simp
  (repeat' split) <;> simp

@[simp] theorem State.resetTt_hands (s : State) (k : Part) (i : Pos) : (State.resetTt s k i).hands = s.hands := by
  unfold State.resetTt
  simp
  (repeat' split) <;> simp

@[simp] theorem State.repeat__hands (s : State) (k : Part) (i : Pos) (packet answer : List Byte) (lpmAck : Bool) : (State.repeat_ s k i packet answer lpmAck).hands = s.hands := by
  unfold State.repeat_
  (repeat' split) <;> simp

@[simp] theorem State.nativePacket_hands (s : State) (p : Port) (fromDevice : Bool) (bytes : List Byte) : (State.nativePacket s p fromDevice bytes).hands = s.hands := by
  unfold State.nativePacket
  simp only []
  split
  · rfl
  · split
    · simp
    · have q := State.passBuffer_hands (s.useLink p) (.native p fromDevice) bytes
      split <;> (rename_i heq; rw [heq] at q; (repeat' split) <;> simp_all)

@[simp] theorem State.setPortLink_hands (s : State) (k : Part) (q : HubPort) (code : Nat) : (State.setPortLink s k q code).hands = s.hands := by
  unfold State.setPortLink
  simp
  (repeat' split) <;> simp

@[simp] theorem State.portTest_hands (s : State) (k : Part) (q : HubPort) (sel : Nat) : (State.portTest s k q sel).hands = s.hands := by
  unfold State.portTest
  first
  | (simp; done)
  | (simp; (repeat' split) <;> (simp; done); done)
  | ((repeat' split) <;> (simp; done); done)
  | (simp only []; (repeat' split) <;> (simp; done); done)

@[simp] theorem State.portFeature_hands (s : State) (k : Part) (side : Side) (q : HubPort) (r : Setup) (set : Bool) : (State.portFeature s k side q r set).hands = s.hands := by
  unfold State.portFeature
  simp
  (repeat' split) <;> simp

@[simp] theorem State.updHub_hands (s : State) (k : Part) (side : Side) (h : HubIx) (f : VHub → VHub) : (State.updHub s k side h f).hands = s.hands := by
  unfold State.updHub
  simp

@[simp] theorem State.hubFeature_hands (s : State) (k : Part) (side : Side) (h : HubIx) (sel : Nat) (set : Bool) : (State.hubFeature s k side h sel set).hands = s.hands := by
  unfold State.hubFeature
  (repeat' split) <;> simp

@[simp] theorem State.linksUp_hands (s : State) (k : Part) (h : HubIx) : (State.linksUp s k h).hands = s.hands := by
  unfold State.linksUp
  first
  | (simp; done)
  | (simp; (repeat' split) <;> (simp; done); done)
  | ((repeat' split) <;> (simp; done); done)
  | (simp only []; (repeat' split) <;> (simp; done); done)

@[simp] theorem State.hubPortStatus_hands (s : State) (k : Part) (side : Side) (q : HubPort) (r : Setup) : (State.hubPortStatus s k side q r).hands = s.hands := by
  unfold State.hubPortStatus
  first
  | (simp; done)
  | (simp; (repeat' split) <;> (simp; done); done)
  | ((repeat' split) <;> (simp; done); done)
  | (simp only []; (repeat' split) <;> (simp; done); done)

@[simp] theorem State.hubErrCount_hands (s : State) (k : Part) (q : HubPort) (r : Setup) : (State.hubErrCount s k q r).hands = s.hands := by
  unfold State.hubErrCount
  first
  | (simp; done)
  | (simp; (repeat' split) <;> (simp; done); done)
  | ((repeat' split) <;> (simp; done); done)
  | (simp only []; (repeat' split) <;> (simp; done); done)

@[simp] theorem State.hubRequest_hands (s : State) (k : Part) (side : Side) (h : HubIx) (r : Setup) (lpmAck : Bool) : (State.hubRequest s k side h r lpmAck).hands = s.hands := by
  unfold State.hubRequest
  dsimp only
  repeat' (first | refine keep_ite _ _ _ _ ?_ ?_)
  all_goals first
    | rfl
    | (simp; done)
    | (split <;> simp; done)

@[simp] theorem State.mfRequest_hands (s : State) (k : Part) (r : Setup) (data : List Byte) : (State.mfRequest s k r data).hands = s.hands := by
  unfold State.mfRequest
  dsimp only
  generalize (s.mfs.get k).side = o
  cases o with
  | none => rfl
  | some side =>
    dsimp only
    repeat' (first | refine keep_ite _ _ _ _ ?_ ?_)
    all_goals first
      | exact State.ctlRead_hands _ _ _ _
      | exact State.ctlError_hands _ _
      | exact State.ctlOk_hands _ _
      | (rw [State.ctlOk_hands, State.updMf_hands]; done)
      | (split; exact State.ctlRead_hands _ _ _ _; exact State.ctlError_hands _ _)

@[simp] theorem State.upAttach_hands (s : State) (k : Part) (orientation : Bool) (rp : Fin 4) (vbus : Bool) : (State.upAttach s k orientation rp vbus).hands = s.hands := by
  unfold State.upAttach
  simp

@[simp] theorem State.upDetach_hands (s : State) (k : Part) : (State.upDetach s k).hands = s.hands := by
  unfold State.upDetach
  simp

@[simp] theorem State.upVbusAbsent_hands (s : State) (k : Part) (late : Bool) : (State.upVbusAbsent s k late).hands = s.hands := by
  unfold State.upVbusAbsent
  simp

@[simp] theorem State.upPdMessage_hands (s : State) (k : Part) (b : List Byte) (cut : Bool) : (State.upPdMessage s k b cut).hands = s.hands := by
  unfold State.upPdMessage
  first
  | (simp; done)
  | (simp; (repeat' split) <;> (simp; done); done)
  | ((repeat' split) <;> (simp; done); done)
  | (simp only []; (repeat' split) <;> (simp; done); done)

@[simp] theorem State.upHardReset_hands (s : State) (k : Part) : (State.upHardReset s k).hands = s.hands := by
  unfold State.upHardReset
  simp

@[simp] theorem State.noteExit_hands (s : State) (k : Part) (host : Bool) : (State.noteExit s k host).hands = s.hands := by
  unfold State.noteExit
  first
  | (simp; done)
  | (simp; (repeat' split) <;> (simp; done); done)
  | ((repeat' split) <;> (simp; done); done)
  | (simp only []; (repeat' split) <;> (simp; done); done)

@[simp] theorem State.leaveU3_hands (s : State) (k : Part) : (State.leaveU3 s k).hands = s.hands := by
  unfold State.leaveU3
  simp

@[simp] theorem State.ssU0_hands (s : State) (k : Part) (rate : SsRate) : (State.ssU0 s k rate).hands = s.hands := by
  unfold State.ssU0
  simp

@[simp] theorem State.ssDecided_hands (s : State) (k : Part) : (State.ssDecided s k).hands = s.hands := by
  unfold State.ssDecided
  simp

@[simp] theorem State.ssLost_hands (s : State) (k : Part) : (State.ssLost s k).hands = s.hands := by
  unfold State.ssLost
  simp

@[simp] theorem State.ssInactiveFor_hands (s : State) (k : Part) (link : UpLink) : (State.ssInactiveFor s k link).hands = s.hands := by
  unfold State.ssInactiveFor
  simp

@[simp] theorem State.ssDisabled_hands (s : State) (k : Part) : (State.ssDisabled s k).hands = s.hands := by
  unfold State.ssDisabled
  simp

@[simp] theorem State.enterU_hands (s : State) (k : Part) (u2 : Bool) : (State.enterU s k u2).hands = s.hands := by
  unfold State.enterU
  simp

@[simp] theorem State.lgo_hands (s : State) (k : Part) (u2 unacked : Bool) : (State.lgo s k u2 unacked).hands = s.hands := by
  unfold State.lgo
  simp

@[simp] theorem State.ownU_hands (s : State) (k : Part) (u2 unacked : Bool) : (State.ownU s k u2 unacked).hands = s.hands := by
  unfold State.ownU
  simp

@[simp] theorem State.leaveU_hands (s : State) (k : Part) : (State.leaveU s k).hands = s.hands := by
  unfold State.leaveU
  simp

@[simp] theorem State.checkSuspended_hands (s : State) (k : Part) : (State.checkSuspended s k).hands = s.hands := by
  unfold State.checkSuspended
  simp

@[simp] theorem State.enterU3_hands (s : State) (k : Part) : (State.enterU3 s k).hands = s.hands := by
  unfold State.enterU3
  simp

@[simp] theorem State.mfWake_hands (s : State) (k : Part) : (State.mfWake s k).hands = s.hands := by
  unfold State.mfWake
  first
  | (simp; done)
  | (simp; (repeat' split) <;> (simp; done); done)
  | ((repeat' split) <;> (simp; done); done)
  | (simp only []; (repeat' split) <;> (simp; done); done)

@[simp] theorem State.ssReset_hands (s : State) (k : Part) (warm : Bool) : (State.ssReset s k warm).hands = s.hands := by
  unfold State.ssReset
  simp

@[simp] theorem State.usb2Reset_hands (s : State) (k : Part) (highSpeed : Bool) : (State.usb2Reset s k highSpeed).hands = s.hands := by
  unfold State.usb2Reset
  simp

@[simp] theorem State.usb2Lpm_hands (s : State) (k : Part) (hird : BitVec 4) : (State.usb2Lpm s k hird).hands = s.hands := by
  unfold State.usb2Lpm
  simp

@[simp] theorem State.usb2Suspend_hands (s : State) (k : Part) : (State.usb2Suspend s k).hands = s.hands := by
  unfold State.usb2Suspend
  simp

@[simp] theorem State.repeatResume_hands (s : State) (k : Part) : (State.repeatResume s k).hands = s.hands := by
  unfold State.repeatResume
  first
  | (simp; done)
  | (simp; (repeat' split) <;> (simp; done); done)
  | ((repeat' split) <;> (simp; done); done)
  | (simp only []; (repeat' split) <;> (simp; done); done)

@[simp] theorem State.usb2Resume_hands (s : State) (k : Part) (byDevice : Bool) : (State.usb2Resume s k byDevice).hands = s.hands := by
  unfold State.usb2Resume
  simp

@[simp] theorem State.linkTimeout_hands (s : State) (k : Part) (q : HubPort) (u2 : Bool) : (State.linkTimeout s k q u2).hands = s.hands := by
  unfold State.linkTimeout
  simp
  (repeat' split) <;> simp

@[simp] theorem State.timestamp_hands (s : State) (k : Part) (interval : BitVec 14) (delta : BitVec 13) : (State.timestamp s k interval delta).hands = s.hands := by
  unfold State.timestamp
  simp

@[simp] theorem opPartGet_hands (m : VcpMsg) (k : Part) (s : State) : (opPartGet m k s).1.hands = s.hands := by
  unfold opPartGet
  simp

@[simp] theorem State.assignTo_hands (s : State) (p : Port) (k : Part) (i : Pos) : (State.assignTo s p k i).1.hands = s.hands := by
  unfold State.assignTo
  simp

@[simp] theorem opPartAssignPort_hands (m : VcpMsg) (p : Port) (s : State) : (opPartAssignPort m p s).1.hands = s.hands := by
  unfold opPartAssignPort
  simp
  (repeat' split) <;> simp

@[simp] theorem opPartSetLimits_hands (m : VcpMsg) (k : Part) (s : State) : (opPartSetLimits m k s).1.hands = s.hands := by
  unfold opPartSetLimits
  simp

@[simp] theorem State.refreshPart_hands (s : State) (k : Part) : (State.refreshPart s k).hands = s.hands := by
  unfold State.refreshPart
  simp

@[simp] theorem opPartConnect_hands (m : VcpMsg) (k : Part) (s : State) : (opPartConnect m k s).1.hands = s.hands := by
  unfold opPartConnect
  simp
  (repeat' split) <;> simp

@[simp] theorem State.disconnect_hands (s : State) (k : Part) (dis answer : Bool) : (State.disconnect s k dis answer).hands = s.hands := by
  unfold State.disconnect
  simp
  (repeat' split) <;> simp

@[simp] theorem opPartDisconnect_hands (m : VcpMsg) (k : Part) (s : State) : (opPartDisconnect m k s).1.hands = s.hands := by
  unfold opPartDisconnect
  simp

@[simp] theorem State.deferredDisconnect_hands (s : State) (k : Part) : (State.deferredDisconnect s k).hands = s.hands := by
  unfold State.deferredDisconnect
  (repeat' split) <;> simp

@[simp] theorem opPortGet_hands (m : VcpMsg) (p : Port) (s : State) : (opPortGet m p s).1.hands = s.hands := by
  unfold opPortGet
  simp

@[simp] theorem State.changeMode_hands (s : State) (p : Port) (m : DataMode) : (State.changeMode s p m).hands = s.hands := by
  unfold State.changeMode
  simp

@[simp] theorem opPortSetMode_hands (m : VcpMsg) (p : Port) (s : State) : (opPortSetMode m p s).1.hands = s.hands := by
  unfold opPortSetMode
  simp
  (repeat' split) <;> simp

@[simp] theorem opPortReset_hands (m : VcpMsg) (p : Port) (s : State) : (opPortReset m p s).1.hands = s.hands := by
  unfold opPortReset
  simp

@[simp] theorem opPortQuench_hands (m : VcpMsg) (p : Port) (s : State) : (opPortQuench m p s).1.hands = s.hands := by
  unfold opPortQuench
  simp

@[simp] theorem opPortRelease_hands (m : VcpMsg) (p : Port) (s : State) : (opPortRelease m p s).1.hands = s.hands := by
  unfold opPortRelease
  simp

@[simp] theorem opPortSetBc_hands (m : VcpMsg) (p : Port) (s : State) : (opPortSetBc m p s).1.hands = s.hands := by
  unfold opPortSetBc
  simp

@[simp] theorem opVbusSet_hands (m : VcpMsg) (p : Port) (s : State) : (opVbusSet m p s).1.hands = s.hands := by
  unfold opVbusSet
  simp

@[simp] theorem opLiftGetPolicy_hands (m : VcpMsg) (k : Part) (s : State) : (opLiftGetPolicy m k s).1.hands = s.hands := by
  unfold opLiftGetPolicy
  simp

@[simp] theorem opLiftSetClasslist_hands (m : VcpMsg) (k : Part) (s : State) : (opLiftSetClasslist m k s).1.hands = s.hands := by
  unfold opLiftSetClasslist
  simp

@[simp] theorem State.setBoundary_hands (s : State) (p : Port) (a : Byte) (mode : Option Boundary) (window : Option Nat) : (State.setBoundary s p a mode window).hands = s.hands := by
  unfold State.setBoundary
  simp

@[simp] theorem opLiftSetEpBoundary_hands (m : VcpMsg) (p : Port) (s : State) : (opLiftSetEpBoundary m p s).1.hands = s.hands := by
  unfold opLiftSetEpBoundary
  simp
  (repeat' split) <;> simp

@[simp] theorem opLiftGetEpStats_hands (m : VcpMsg) (p : Port) (s : State) : (opLiftGetEpStats m p s).1.hands = s.hands := by
  unfold opLiftGetEpStats
  simp
  (repeat' split) <;> simp

@[simp] theorem opLiftClearPoison_hands (m : VcpMsg) (p : Port) (s : State) : (opLiftClearPoison m p s).1.hands = s.hands := by
  unfold opLiftClearPoison
  (repeat' split) <;> simp

@[simp] theorem State.putSeverity_hands (s : State) (source : BitVec 12) (kind : Byte) (v : Severity) : (State.putSeverity s source kind v).hands = s.hands := by
  unfold State.putSeverity
  simp

@[simp] theorem State.setSeverity_hands (s t : State) (l : List Byte) (h : s.setSeverity l = .ok t) : t.hands = s.hands := by
  unfold State.setSeverity at h
  dsimp only at h
  repeat' split at h
  all_goals simp at h
  all_goals (subst h; simp)

@[simp] theorem State.defaultSettings_hands (s : State) : (State.defaultSettings s).hands = s.hands := by
  unfold State.defaultSettings
  simp

@[simp] theorem State.replaced_hands (s : State) (offset : Nat) : (State.replaced s offset).hands = s.hands := by
  unfold State.replaced
  simp

theorem when_hands (b : Bool) (a t s : State) (h : when b a = some t) (ha : a.hands = s.hands) : t.hands = s.hands := by
  unfold when at h
  split at h
  · cases h; exact ha
  · cases h

theorem applyPieces_hands (offset : Nat) (wide : Bool) (fields : List (Nat × List (Nat × Nat))) (dflt l : List Byte)
    (write : State → List Byte → Option State) (s : State) (hw : ∀ s l t, write s l = some t → t.hands = s.hands) :
    (applyPieces offset wide fields dflt l write s).hands = s.hands := by
  unfold applyPieces
  apply forAll_hands
  intro s f
  split
  · rename_i h; exact hw _ _ _ h
  · cases h : write (s.replaced offset) (onePiece wide f.1 f.2 dflt) with
    | none => simp [h]
    | some t => simpa [h] using hw _ _ _ h

@[simp] theorem overRange_hands (n : Nat) (h : 0 < n) (e : Element) (first last : Nat) (f : State → Fin n → State) (s : State) (hf : ∀ s a, (f s a).hands = s.hands) : (overRange n h e first last f s).hands = s.hands := by
  unfold overRange
  (repeat' split) <;> simp [hf]

@[simp] theorem ranged_hands (offset : Nat) (good : Bool) (f : ModeSettings → ModeSettings) (dflt : ModeSettings → ModeSettings) (s : State) : (ranged offset good f dflt s).hands = s.hands := by
  unfold ranged
  simp

@[simp] theorem State.recordModes_hands (s : State) (o : Nat) (v : List Byte) : (State.recordModes s o v).hands = s.hands := by
  unfold State.recordModes
  simp

@[simp] theorem State.recordAssign_hands (s : State) (o : Nat) (v : List Byte) : (State.recordAssign s o v).hands = s.hands := by
  unfold State.recordAssign
  simp
  (repeat' split) <;> simp

@[simp] theorem State.recordPortMode_hands (s : State) (p : Port) (l : List Byte) : ∀ t, State.recordPortMode s p l = some t → t.hands = s.hands := by
  intro t h
  unfold State.recordPortMode at h
  (repeat' (split at h)) <;> (first | (simp_all; done) | (cases h; simp; done))

@[simp] theorem State.recordPortData_hands (s : State) (o : Nat) (p : Port) (v : List Byte) : (State.recordPortData s o p v).hands = s.hands := by
  unfold State.recordPortData
  dsimp only
  have : ∀ (f : List (Nat × List (Nat × Nat))) d l, (applyPieces o false f d l (fun s l => s.recordPortMode p l) s).hands = s.hands := by
    intro f d l
    apply applyPieces_hands; intro s l t h; exact State.recordPortMode_hands _ _ _ _ h
  repeat' split
  all_goals simp [this]

@[simp] theorem State.recordAutoresp_hands (s : State) (o : Nat) (p : Port) (l : List Byte) : (State.recordAutoresp s o p l).hands = s.hands := by
  have hw : ∀ (s : State) (q : List Byte) (t : State),
      (setAutoresp p q (s.pd.get p).cfg).map (fun c => s.updPd p (fun x => { x with cfg := c })) = some t → t.hands = s.hands := by
    intro s q t h
    simp only [Option.map_eq_some_iff] at h
    obtain ⟨c, -, rfl⟩ := h
    simp
  unfold State.recordAutoresp
  dsimp only
  split
  · split
    · rename_i h
      rw [hw _ _ _ h]
      exact applyPieces_hands _ _ _ _ _ _ _ hw
    · simp
      exact applyPieces_hands _ _ _ _ _ _ _ hw
  · exact applyPieces_hands _ _ _ _ _ _ _ hw

@[simp] theorem State.recordElement_hands (s : State) (e : Element) : (s.recordElement e).hands = s.hands := by
  unfold State.recordElement
  dsimp only
  split
  · split <;> simp
  · simp
  · apply applyPieces_hands; intro s l t h; exact when_hands _ _ _ _ h (by simp)
  · apply applyPieces_hands; intro s l t h; exact when_hands _ _ _ _ h (by simp)
  · split
    · rename_i h; exact State.setSeverity_hands _ _ _ h
    · simp
  · simp
  · simp
  · apply overRange_hands; intro s k; apply applyPieces_hands; intro s l t h; exact when_hands _ _ _ _ h (by simp)
  · apply overRange_hands; intro s k; split <;> simp
  · simp
  · simp
  · apply overRange_hands; intro s k; split <;> simp
  · apply overRange_hands; intro s k
    split
    · rename_i h; exact State.setOffer_hands _ _ _ _ h
    · simp
  · simp
  · apply overRange_hands; intro s k; split <;> simp
  · apply overRange_hands; intro s k; apply applyPieces_hands; intro s l t h
    split at h
    · cases h
    · simp only [Option.some.injEq] at h
      subst h; simp
  · rfl
  · rfl
  · rfl
  · simp

@[simp] theorem State.recordSlot_hands (s : State) (e : Element) : (State.recordSlot s e).hands = s.hands := by
  unfold State.recordSlot
  dsimp only
  split
  · rfl
  · apply overRange_hands; intro s k
    have : ∀ f d l, (applyPieces e.offset true f d l (fun s l => s.setLimits k l) s).hands = s.hands := by
      intro f d l
      apply applyPieces_hands; intro s l t h; exact State.setLimits_hands _ _ _ _ h
    split <;> simp [this]

@[simp] theorem State.recordRows_hands (s : State) (e : Element) : (State.recordRows s e).hands = s.hands := by
  unfold State.recordRows
  (repeat' split) <;> simp

end Sys2Proof.Machine
end

