-- ==== Sys2Proof/Laws/HandsModes.lean ====
section
/-! SUPPORT. Frame lemmas: modes, firmware, links and faults leave the bundle alone, but for what is said here. -/

set_option Elab.async false

namespace Sys2Proof.Machine

open Sys2Proof

@[simp] theorem State.modeChanged_hands (s : State) (req : Option ModeRequest) : (State.modeChanged s req).hands = s.hands := by
  unfold State.modeChanged
  simp

@[simp] theorem State.abandonStaging_hands (s : State) : (State.abandonStaging s).hands = s.hands := by
  unfold State.abandonStaging
  (repeat' split) <;> simp

@[simp] theorem State.closeSession_hands (s : State) (i : Sess) : (State.closeSession s i).hands = s.hands := by
  unfold State.closeSession
  simp
  (repeat' split) <;> simp

@[simp] theorem State.endSessions_hands (s : State) (keep : Bool) : (State.endSessions s keep).hands = s.hands := by
  unfold State.endSessions
  simp

@[simp] theorem State.setDomain_hands (s : State) (d : Fin 25) (st : DomState) : (State.setDomain s d st).hands = s.hands := by
  unfold State.setDomain
  simp

@[simp] theorem State.enterDomains_hands (s : State) (old m : Mode) : (State.enterDomains s old m).hands = s.hands := by
  unfold State.enterDomains
  rw [forAll_hands]
  · simp
  · intro s d
    split
    · simp
    · simp
    · split <;> simp

@[simp] theorem State.withdrawNow_hands (s : State) (k : Part) (r : Reason) (dest : PartSt) : (State.withdrawNow s k r dest).hands = s.hands := by
  unfold State.withdrawNow
  simp

@[simp] theorem State.permitParts_hands (s : State) (m : Mode) : (State.permitParts s m).hands = s.hands := by
  unfold State.permitParts
  simp

@[simp] theorem State.disarmFor_hands (s : State) (m : Mode) : (State.disarmFor s m).hands = s.hands := by
  unfold State.disarmFor
  simp

@[simp] theorem State.repace_hands (s : State) : (State.repace s).hands = s.hands := by
  unfold State.repace
  simp

@[simp] theorem State.unmarkParts_hands (s : State) : (State.unmarkParts s).hands = s.hands := by
  unfold State.unmarkParts
  first
  | (simp; done)
  | (simp; (repeat' split) <;> (simp; done); done)
  | ((repeat' split) <;> (simp; done); done)
  | (simp only []; (repeat' split) <;> (simp; done); done)

@[simp] theorem State.enterMode_hands (s : State) (m : Mode) (cause : Byte) (detail : Nat) (req : Option ModeRequest) : (State.enterMode s m cause detail req).hands = s.hands := by
  unfold State.enterMode
  simp

@[simp] theorem State.pauseEnd_hands (s : State) : (State.pauseEnd s).hands = s.hands := by
  unfold State.pauseEnd
  simp
  rw [forAll_hands]
  · simp
  · intro s p
    split
    · split <;> simp
    · split <;> simp

@[simp] theorem State.avsFail_hands (s : State) (target : Nat) : (State.avsFail s target).hands = s.hands := by
  unfold State.avsFail
  simp

@[simp] theorem State.dawn_hands (s : State) : (State.dawn s).hands = s.hands := by
  unfold State.dawn
  simp

@[simp] theorem State.bootFail_hands (s : State) (source : Nat) : (State.bootFail s source).hands = s.hands := by
  unfold State.bootFail
  simp

@[simp] theorem State.bootAvs_hands (s : State) : (State.bootAvs s).hands = s.hands := by
  unfold State.bootAvs
  simp

@[simp] theorem State.bootRecord_hands (s : State) (brief : Bool) : (State.bootRecord s brief).1.hands = s.hands := by
  unfold State.bootRecord
  simp
  (repeat' split) <;> simp

@[simp] theorem State.clearTrial_hands (s : State) : (State.clearTrial s).hands = s.hands := by
  unfold State.clearTrial
  (repeat' split) <;> simp

@[simp] theorem trySlots_hands (l : List (Fin 2)) (s : State) : (trySlots l s).1.hands = s.hands := by
  induction l generalizing s with
  | nil => rfl
  | cons i l ih =>
    unfold trySlots
    split <;> simp [ih]

@[simp] theorem State.bootImage_hands (s : State) : (State.bootImage s).1.hands = s.hands := by
  unfold State.bootImage
  simp

@[simp] theorem State.bootFill_hands (s : State) (es : List Element) : (State.bootFill s es).hands = s.hands := by
  unfold State.bootFill
  simp

@[simp] theorem State.firstMorning_hands (s : State) : (State.firstMorning s).hands = s.hands := by
  unfold State.firstMorning
  simp

@[simp] theorem State.arriveUp_hands (s : State) (cause : Byte) (detail : Nat) (req : Option ModeRequest) : (State.arriveUp s cause detail req).1.hands = s.hands := by
  unfold State.arriveUp
  simp

@[simp] theorem State.reachMorning_hands (s : State) (midnight : Bool) : (State.reachMorning s midnight).hands = s.hands := by
  unfold State.reachMorning
  simp

@[simp] theorem State.bootRest_hands (s : State) (es : List Element) (midnight : Bool) : (State.bootRest s es midnight).hands = s.hands := by
  unfold State.bootRest
  (repeat' split) <;> simp

@[simp] theorem State.boot_hands (s : State) (midnight : Bool) : (State.boot s midnight).hands = s.hands := by
  unfold State.boot
  simp
  (repeat' split) <;> simp

@[simp] theorem State.strapAndBoot_hands (s : State) : (State.strapAndBoot s).hands = s.hands := by
  unfold State.strapAndBoot
  simp

@[simp] theorem State.answerReq_hands (s : State) (req : Option ModeRequest) (status : Byte) (payload : List Byte) : (State.answerReq s req status payload).hands = s.hands := by
  unfold State.answerReq
  (repeat' split) <;> simp

@[simp] theorem State.denyReq_hands (s : State) (req : Option ModeRequest) (reason dom : Nat) : (State.denyReq s req reason dom).hands = s.hands := by
  unfold State.denyReq
  simp

@[simp] theorem State.okReq_hands (s : State) (req : Option ModeRequest) : (State.okReq s req).hands = s.hands := by
  unfold State.okReq
  simp

@[simp] theorem State.rise_hands (s : State) (cause : Byte) (detail : Nat) (req : Option ModeRequest) : (State.rise s cause detail req).hands = s.hands := by
  unfold State.rise
  simp

@[simp] theorem State.goBack_hands (s : State) (origin : Mode) (cause : Byte) (detail : Nat) : (State.goBack s origin cause detail).hands = s.hands := by
  unfold State.goBack
  (repeat' split) <;> simp

@[simp] theorem State.withdrawTrees_hands (s : State) : (State.withdrawTrees s).hands = s.hands := by
  unfold State.withdrawTrees
  simp

@[simp] theorem State.startDusk_hands (s : State) (req : ModeRequest) (auto rollback : Bool) (cause : Byte) (detail : Nat) : (State.startDusk s req auto rollback cause detail).hands = s.hands := by
  unfold State.startDusk
  (repeat' split) <;> simp

@[simp] theorem State.nextStep_hands (s : State) : (State.nextStep s).hands = s.hands := by
  unfold State.nextStep
  simp

@[simp] theorem State.offerFive_hands (s : State) (all : Bool) : (State.offerFive s all).hands = s.hands := by
  unfold State.offerFive
  simp

@[simp] theorem State.disableAll_hands (s : State) : (State.disableAll s).hands = s.hands := by
  unfold State.disableAll
  simp

@[simp] theorem State.duskStep_hands (s : State) (g : Goal) (begun : Nat) : ∀ t, State.duskStep s g begun = some t → t.hands = s.hands := by
  intro t h
  unfold State.duskStep at h
  split at h
  · cases h
  · split at h
    · cases h
    · cases h; rfl
  · split at h
    · split at h
      · simp only [Option.some.injEq] at h; rw [← h]; simp
      · cases h; rfl
    · split at h
      · cases h
      · simp only [Option.some.injEq] at h; rw [← h]; simp
  · split at h
    · split at h
      · simp only [Option.some.injEq] at h; rw [← h]; simp
      · cases h; rfl
    · split at h
      · split at h
        · simp only [Option.some.injEq] at h; rw [← h]; simp
        · cases h; rfl
      · split at h
        · cases h
        · cases h; rfl
  · split at h
    · cases h
    · cases h; rfl

@[simp] theorem State.enterMaintenance_hands (s : State) (req : ModeRequest) : (State.enterMaintenance s req).hands = s.hands := by
  unfold State.enterMaintenance
  simp

@[simp] theorem State.abortDusk_hands (s : State) (reason dom : Nat) : (State.abortDusk s reason dom).hands = s.hands := by
  unfold State.abortDusk
  (repeat' split) <;> simp

@[simp] theorem State.fwAsleep_hands (s : State) : (State.fwAsleep s).hands = s.hands := by
  unfold State.fwAsleep
  simp

@[simp] theorem State.enterMidnight_hands (s : State) (t : Trans) : (State.enterMidnight s t).hands = s.hands := by
  unfold State.enterMidnight
  simp

@[simp] theorem State.enterOff_hands (s : State) (t : Trans) : (State.enterOff s t).hands = s.hands := by
  unfold State.enterOff
  simp

@[simp] theorem State.commitDusk_hands (s : State) : (State.commitDusk s).hands = s.hands := by
  unfold State.commitDusk
  (repeat' split) <;> simp

@[simp] theorem State.sendPrepare_hands (s : State) : (State.sendPrepare s).hands = s.hands := by
  unfold State.sendPrepare
  (repeat' split) <;> simp

@[simp] theorem State.startNight_hands (s : State) (req : ModeRequest) (auto : Bool) (cause : Byte) (detail : Nat) : (State.startNight s req auto cause detail).hands = s.hands := by
  unfold State.startNight
  simp

@[simp] theorem State.leaveSafeHold_hands (s : State) (req : ModeRequest) : (State.leaveSafeHold s req).hands = s.hands := by
  unfold State.leaveSafeHold
  simp

@[simp] theorem State.restart_hands (s : State) (req : ModeRequest) : (State.restart s req).hands = s.hands := by
  unfold State.restart
  simp

@[simp] theorem State.startActivation_hands (s : State) (req : ModeRequest) (slot : Fin 2) : (State.startActivation s req slot).hands = s.hands := by
  unfold State.startActivation
  simp

@[simp] theorem State.startFrom_hands (s : State) (req : ModeRequest) : (State.startFrom s req).hands = s.hands := by
  unfold State.startFrom
  (repeat' split) <;> simp

@[simp] theorem State.nightWake_hands (s : State) (code : Nat) : (State.nightWake s code).hands = s.hands := by
  unfold State.nightWake
  simp

@[simp] theorem State.enqueue_hands (s : State) (req : ModeRequest) : (State.enqueue s req).hands = s.hands := by
  unfold State.enqueue
  simp

@[simp] theorem State.startMode_hands (s : State) (req : ModeRequest) : (State.startMode s req).hands = s.hands := by
  unfold State.startMode
  simp

@[simp] theorem State.runQueue_hands (s : State) : (State.runQueue s).hands = s.hands := by
  unfold State.runQueue
  (repeat' split) <;> simp

@[simp] theorem State.preempt_hands (s : State) : (State.preempt s).hands = s.hands := by
  unfold State.preempt
  simp
  (repeat' split) <;> simp

@[simp] theorem State.beginWait_hands (s : State) (m : VcpMsg) (opcode : BitVec 16) (w : Wait) : (State.beginWait s m opcode w).hands = s.hands := by
  unfold State.beginWait
  simp

@[simp] theorem State.meetRequest_hands (s : State) (m : VcpMsg) (opcode : BitVec 16) (goal : Goal) : (State.meetRequest s m opcode goal).hands = s.hands := by
  unfold State.meetRequest
  (repeat' split) <;> simp

@[simp] theorem opModeRequest_hands (m : VcpMsg) (s : State) : (opModeRequest m s).1.hands = s.hands := by
  unfold opModeRequest
  (repeat' split) <;> simp

@[simp] theorem opFwActivate_hands (m : VcpMsg) (s : State) : (opFwActivate m s).1.hands = s.hands := by
  unfold opFwActivate
  simp

@[simp] theorem opModeGet_hands (m : VcpMsg) (s : State) : (opModeGet m s).1.hands = s.hands := by
  unfold opModeGet
  simp

@[simp] theorem State.autoNight_hands (s : State) : (State.autoNight s).hands = s.hands := by
  unfold State.autoNight
  simp

@[simp] theorem State.duskSteps_hands (s : State) : (State.duskSteps s).hands = s.hands := by
  unfold State.duskSteps
  split
  · rfl
  · split
    · rfl
    · split
      · simp
      · rename_i h
        exact State.duskStep_hands _ _ _ _ h

@[simp] theorem State.duskBound_hands (s : State) : (State.duskBound s).hands = s.hands := by
  unfold State.duskBound
  (repeat' split) <;> simp

@[simp] theorem State.setAnswer_hands (s : State) (d : Fin 25) (a : PrepAnswer) : (State.setAnswer s d a).hands = s.hands := by
  unfold State.setAnswer
  simp

@[simp] theorem State.dropEntry_hands (s : State) (d : Fin 25) : (State.dropEntry s d).hands = s.hands := by
  unfold State.dropEntry
  simp

@[simp] theorem State.prepareAnswer_hands (s : State) (d : Fin 25) (defer : Bool) : (State.prepareAnswer s d defer).hands = s.hands := by
  unfold State.prepareAnswer
  (repeat' split) <;> simp

@[simp] theorem State.deferExpired_hands (s : State) (d : Fin 25) : (State.deferExpired s d).hands = s.hands := by
  unfold State.deferExpired
  simp

@[simp] theorem State.budgetEntry_hands (s : State) (d : Fin 25) : (State.budgetEntry s d).hands = s.hands := by
  unfold State.budgetEntry
  (repeat' split) <;> simp

@[simp] theorem State.workArrives_hands (s : State) (on : Fin 25 → Bool) : (State.workArrives s on).hands = s.hands := by
  unfold State.workArrives
  simp
  (repeat' split) <;> simp

@[simp] theorem State.exitPath_hands (s : State) (k : Part) : (State.exitPath s k).hands = s.hands := by
  unfold State.exitPath
  simp

@[simp] theorem State.exitDone_hands (s : State) (d : Fin 25) : (State.exitDone s d).hands = s.hands := by
  unfold State.exitDone
  simp

@[simp] theorem opLatBudgetSet_hands (m : VcpMsg) (k : Part) (s : State) : (opLatBudgetSet m k s).1.hands = s.hands := by
  unfold opLatBudgetSet
  simp

@[simp] theorem opWakeSourcesSet_hands (m : VcpMsg) (s : State) : (opWakeSourcesSet m s).1.hands = s.hands := by
  unfold opWakeSourcesSet
  simp

@[simp] theorem State.wake_hands (s : State) (code : Nat) : (State.wake s code).hands = s.hands := by
  unfold State.wake
  (repeat' split) <;> simp

@[simp] theorem State.midnightDischarged_hands (s : State) (p : Port) : (State.midnightDischarged s p).hands = s.hands := by
  unfold State.midnightDischarged
  simp

@[simp] theorem State.releaseExpired_hands (s : State) (p : Port) : (State.releaseExpired s p).hands = s.hands := by
  unfold State.releaseExpired
  (repeat' split) <;> simp

@[simp] theorem State.causeArisen_hands (s : State) (code : Nat) : (State.causeArisen s code).hands = s.hands := by
  unfold State.causeArisen
  (repeat' split) <;> simp

@[simp] theorem State.eveningOver_hands (s : State) : (State.eveningOver s).hands = s.hands := by
  unfold State.eveningOver
  simp

@[simp] theorem State.causesCleared_hands (s : State) (thermal supply : Bool) : (State.causesCleared s thermal supply).hands = s.hands := by
  unfold State.causesCleared
  simp

@[simp] theorem State.thermalEvent_hands (s : State) (i : Fin 16) (crossing : Byte) : (State.thermalEvent s i crossing).hands = s.hands := by
  unfold State.thermalEvent
  simp

@[simp] theorem State.sampleSensor_hands (s : State) (i : Fin 16) (raw : BitVec 16) : (State.sampleSensor s i raw).hands = s.hands := by
  unfold State.sampleSensor
  simp

@[simp] theorem State.sampleTemps_hands (s : State) (l : Tab 16 (BitVec 16)) : (State.sampleTemps s l).hands = s.hands := by
  unfold State.sampleTemps
  simp

@[simp] theorem State.thermalEvening_hands (s : State) (i : Fin 16) : (State.thermalEvening s i).hands = s.hands := by
  unfold State.thermalEvening
  simp

@[simp] theorem State.thermalCritical_hands (s : State) (i : Fin 16) : (State.thermalCritical s i).hands = s.hands := by
  unfold State.thermalCritical
  simp

@[simp] theorem State.supplyWarning_hands (s : State) (r : Fin 8) (mv : Nat) : (State.supplyWarning s r mv).hands = s.hands := by
  unfold State.supplyWarning
  simp

@[simp] theorem State.supplyFailure_hands (s : State) (r : Fin 8) (mv : Nat) : (State.supplyFailure s r mv).hands = s.hands := by
  unfold State.supplyFailure
  simp

@[simp] theorem State.supplyRestored_hands (s : State) : (State.supplyRestored s).hands = s.hands := by
  unfold State.supplyRestored
  simp

@[simp] theorem State.avsEvaluate_hands (s : State) : (State.avsEvaluate s).hands = s.hands := by
  unfold State.avsEvaluate
  simp

@[simp] theorem State.resumeArrival_hands (s : State) : (State.resumeArrival s).hands = s.hands := by
  unfold State.resumeArrival
  (repeat' split) <;> simp

@[simp] theorem State.avsComplete_hands (s : State) (voltage current temp status : BitVec 16) : (State.avsComplete s voltage current temp status).hands = s.hands := by
  unfold State.avsComplete
  (repeat' split) <;> simp

@[simp] theorem State.avsTimeout_hands (s : State) : (State.avsTimeout s).hands = s.hands := by
  unfold State.avsTimeout
  simp
  (repeat' split) <;> simp

@[simp] theorem State.avsHoldoffOver_hands (s : State) : (State.avsHoldoffOver s).hands = s.hands := by
  unfold State.avsHoldoffOver
  simp

@[simp] theorem opAvsGet_hands (m : VcpMsg) (s : State) : (opAvsGet m s).1.hands = s.hands := by
  unfold opAvsGet
  simp

@[simp] theorem opGetTemps_hands (m : VcpMsg) (s : State) : (opGetTemps m s).1.hands = s.hands := by
  unfold opGetTemps
  simp

@[simp] theorem State.toCrystal_hands (s : State) : (State.toCrystal s).hands = s.hands := by
  unfold State.toCrystal
  simp

@[simp] theorem State.calibrate_hands (s : State) : (State.calibrate s).hands = s.hands := by
  unfold State.calibrate
  simp

@[simp] theorem State.refclkLoss_hands (s : State) : (State.refclkLoss s).hands = s.hands := by
  unfold State.refclkLoss
  simp

@[simp] theorem State.wrstLow_hands (s : State) (b : Bool) : ({ s with wrstLow := b } : State).hands = s.hands := rfl

@[simp] theorem State.wrstAssert_hands (s : State) : (State.wrstAssert s).hands = s.hands := by
  unfold State.wrstAssert
  rw [hands_ite]
  split
  · rfl
  · rw [State.wrstLow_hands, State.dawn_hands]

@[simp] theorem State.wrstRelease_hands (s : State) (b : BoardIn) : (State.wrstRelease s b).hands = s.hands := by
  unfold State.wrstRelease
  simp

@[simp] theorem opFwGet_hands (m : VcpMsg) (s : State) : (opFwGet m s).1.hands = s.hands := by
  unfold opFwGet
  simp

@[simp] theorem opFwStageBegin_hands (m : VcpMsg) (s : State) : (opFwStageBegin m s).1.hands = s.hands := by
  unfold opFwStageBegin
  simp

@[simp] theorem opFwStageData_hands (m : VcpMsg) (s : State) : (opFwStageData m s).1.hands = s.hands := by
  unfold opFwStageData
  (repeat' split) <;> simp

@[simp] theorem opFwStageCommit_hands (m : VcpMsg) (s : State) : (opFwStageCommit m s).1.hands = s.hands := by
  unfold opFwStageCommit
  (repeat' split) <;> simp

@[simp] theorem State.sendResult_hands (s : State) (session : Option Sess) (cseq : BitVec 32) (result : Byte) (more : Bool) : (State.sendResult s session cseq result more).hands = s.hands := by
  unfold State.sendResult
  (repeat' split) <;> simp

@[simp] theorem State.leaveMaintenance_hands (s : State) (detail : Nat) : (State.leaveMaintenance s detail).hands = s.hands := by
  unfold State.leaveMaintenance
  simp

@[simp] theorem State.rolledBack_hands (s : State) (a : Activation) (failed keep : Fin 2) : (State.rolledBack s a failed keep).hands = s.hands := by
  unfold State.rolledBack
  simp

@[simp] theorem State.loadFailed_hands (s : State) : (State.loadFailed s).hands = s.hands := by
  unfold State.loadFailed
  (repeat' split) <;> simp

@[simp] theorem State.activationEnd_hands (s : State) : (State.activationEnd s).hands = s.hands := by
  unfold State.activationEnd
  (repeat' split) <;> simp

@[simp] theorem State.trialFail_hands (s : State) (dead : Bool) : (State.trialFail s dead).hands = s.hands := by
  unfold State.trialFail
  (repeat' split) <;> simp

@[simp] theorem State.portLinkRetrain_hands (s : State) (d : Fin 2) : (State.portLinkRetrain s d).hands = s.hands := by
  unfold State.portLinkRetrain
  simp

@[simp] theorem State.linkBack_hands (s : State) (p : Port) : (State.linkBack s p).hands = s.hands := by
  unfold State.linkBack
  first
  | (simp; done)
  | (simp; (repeat' split) <;> (simp; done); done)
  | ((repeat' split) <;> (simp; done); done)
  | (simp only []; (repeat' split) <;> (simp; done); done)

@[simp] theorem State.portLinkReturn_hands (s : State) (d : Fin 2) : (State.portLinkReturn s d).hands = s.hands := by
  unfold State.portLinkReturn
  first
  | (simp; done)
  | (simp; (repeat' split) <;> (simp; done); done)
  | ((repeat' split) <;> (simp; done); done)
  | (simp only []; (repeat' split) <;> (simp; done); done)

@[simp] theorem State.poisonDie_hands (s : State) (d : Fin 2) : (State.poisonDie s d).hands = s.hands := by
  unfold State.poisonDie
  apply forAll_hands
  intro s p
  (repeat' split) <;> simp

@[simp] theorem State.portLinkFail_hands (s : State) (d : Fin 2) : (State.portLinkFail s d).hands = s.hands := by
  unfold State.portLinkFail
  simp

@[simp] theorem State.powerLinkTimeout_hands (s : State) (d : Fin 2) : (State.powerLinkTimeout s d).hands = s.hands := by
  unfold State.powerLinkTimeout
  simp

@[simp] theorem State.powerLinkSilence_hands (s : State) (d : Fin 2) : (State.powerLinkSilence s d).hands = s.hands := by
  unfold State.powerLinkSilence
  simp

@[simp] theorem State.powerLinkResume_hands (s : State) (d : Fin 2) : (State.powerLinkResume s d).hands = s.hands := by
  unfold State.powerLinkResume
  simp

@[simp] theorem State.alarmCause_hands (s : State) (i : Fin 6) : (State.alarmCause s i).hands = s.hands := by
  unfold State.alarmCause
  simp

@[simp] theorem State.alarmChange_hands (s : State) (i : Fin 6) (on : Bool) : (State.alarmChange s i on).hands = s.hands := by
  unfold State.alarmChange
  simp

@[simp] theorem State.alarmLineFault_hands (s : State) (i : Fin 6) (level : Bool) : (State.alarmLineFault s i level).hands = s.hands := by
  unfold State.alarmLineFault
  simp

@[simp] theorem State.updFault_hands (s : State) (f : FaultState → FaultState) : (State.updFault s f).hands = s.hands := by
  unfold State.updFault
  simp

@[simp] theorem State.storeRecord_hands (s : State) (d : Detection) (sev : Severity) (shadowed escalated : Bool) : (State.storeRecord s d sev shadowed escalated).1.hands = s.hands := by
  unfold State.storeRecord
  (repeat' split) <;> simp

@[simp] theorem State.overflow_hands (s : State) : (State.overflow s).hands = s.hands := by
  unfold State.overflow
  simp

@[simp] theorem State.pulse_hands (s : State) (sev : Severity) : (State.pulse s sev).hands = s.hands := by
  unfold State.pulse
  simp

@[simp] theorem State.pulseEnd_hands (s : State) : (State.pulseEnd s).hands = s.hands := by
  unfold State.pulseEnd
  simp

@[simp] theorem State.castShadow_hands (s : State) (r : Reaction) : (State.castShadow s r).hands = s.hands := by
  unfold State.castShadow
  simp

@[simp] theorem State.containPort_hands (s : State) (p : Port) : (State.containPort s p).hands = s.hands := by
  unfold State.containPort
  simp

@[simp] theorem State.powerOffPort_hands (s : State) (p : Port) : (State.powerOffPort s p).hands = s.hands := by
  unfold State.powerOffPort
  dsimp only
  split
  · rw [State.updPort_hands, State.updVbus_hands]
  · rw [State.drainThen_hands, State.updVbus_hands]

@[simp] theorem State.resetLift_hands (s : State) (k : Part) : (State.resetLift s k).hands = s.hands := by
  unfold State.resetLift
  simp

@[simp] theorem State.resetPde_hands (s : State) (k : Slot) : (State.resetPde s k).hands = s.hands := by
  unfold State.resetPde
  simp

@[simp] theorem State.resetPortDie_hands (s : State) (d : Fin 2) : (State.resetPortDie s d).hands = s.hands := by
  unfold State.resetPortDie
  simp

@[simp] theorem State.closeByReaction_hands (s : State) (b : Bank) : (State.closeByReaction s b).hands = s.hands := by
  unfold State.closeByReaction
  simp

@[simp] theorem State.holdPart_hands (s : State) (k : Part) : (State.holdPart s k).hands = s.hands := by
  unfold State.holdPart
  simp

@[simp] theorem State.reactOn_hands (s : State) (r : Reaction) : (State.reactOn s r).hands = s.hands := by
  unfold State.reactOn
  split
  all_goals (first | (simp; done) | skip)
  split
  · rename_i h; exact State.retire_hands _ _ _ _ h
  · simp

@[simp] theorem State.startReaction_hands (s : State) (r : Reaction) : (State.startReaction s r).hands = s.hands := by
  unfold State.startReaction
  simp

@[simp] theorem State.restartMgt_hands (s : State) : (State.restartMgt s).hands = s.hands := by
  unfold State.restartMgt
  simp

@[simp] theorem State.safeHoldPart_hands (s : State) (k : Part) : (State.safeHoldPart s k).hands = s.hands := by
  unfold State.safeHoldPart
  simp

@[simp] theorem State.safeHoldPd_hands (s : State) (p : Port) : (State.safeHoldPd s p).hands = s.hands := by
  unfold State.safeHoldPd
  simp

@[simp] theorem State.dropRequests_hands (s : State) : (State.dropRequests s).hands = s.hands := by
  unfold State.dropRequests
  simp

@[simp] theorem State.toSafeHold_hands (s : State) (source : Nat) : (State.toSafeHold s source).hands = s.hands := by
  unfold State.toSafeHold
  simp

@[simp] theorem State.resetMgt_hands (s : State) : (State.resetMgt s).hands = s.hands := by
  unfold State.resetMgt
  simp

@[simp] theorem State.fatal_hands (s : State) (source kind : Nat) : (State.fatal s source kind).hands = s.hands := by
  unfold State.fatal
  simp

@[simp] theorem State.spendPoint_hands (s : State) (d : Detection) : (State.spendPoint s d).hands = s.hands := by
  unfold State.spendPoint
  simp

@[simp] theorem State.react_hands (s : State) (d : Detection) (sev : Severity) : (State.react s d sev).hands = s.hands := by
  unfold State.react
  simp
  (repeat' split) <;> simp

@[simp] theorem State.stopMgt_hands (s : State) (d : Detection) (sev : Severity) : (State.stopMgt s d sev).hands = s.hands := by
  unfold State.stopMgt
  simp

@[simp] theorem State.collectOne_hands (s : State) (d : Detection) : (State.collectOne s d).hands = s.hands := by
  unfold State.collectOne
  simp
  (repeat' split) <;> simp

@[simp] theorem collectLoop_hands (n : Nat) (s : State) : (collectLoop n s).hands = s.hands := by
  induction n generalizing s with
  | zero => rfl
  | succ n ih =>
    unfold collectLoop
    split
    · rfl
    · simp [ih]

@[simp] theorem State.collect_hands (s : State) : (State.collect s).hands = s.hands := by
  unfold State.collect
  simp

@[simp] theorem State.portReturned_hands (s : State) (p : Port) : (State.portReturned s p).hands = s.hands := by
  unfold State.portReturned
  simp

@[simp] theorem State.holdReturn_hands (s : State) (k : Part) (aged : Nat) : (State.holdReturn s k aged).hands = s.hands := by
  unfold State.holdReturn
  simp

@[simp] theorem State.mgtBack_hands (s : State) (intact : Bool) : (State.mgtBack s intact).hands = s.hands := by
  unfold State.mgtBack
  simp

@[simp] theorem State.reactionDone_hands (s : State) (r : Reaction) (aged : Nat) (intact : Bool) : (State.reactionDone s r aged intact).hands = s.hands := by
  unfold State.reactionDone
  (repeat' split) <;> simp

@[simp] theorem State.shadowEnd_hands (s : State) (r : Reaction) : (State.shadowEnd s r).hands = s.hands := by
  unfold State.shadowEnd
  simp

@[simp] theorem State.safeHoldServed_hands (s : State) : (State.safeHoldServed s).hands = s.hands := by
  unfold State.safeHoldServed
  simp

@[simp] theorem State.watchdogExpiry_hands (s : State) : (State.watchdogExpiry s).hands = s.hands := by
  unfold State.watchdogExpiry
  simp

@[simp] theorem opDiagLoopback_hands (m : VcpMsg) (t : Target) (s : State) : (opDiagLoopback m t s).1.hands = s.hands := by
  unfold opDiagLoopback
  simp

@[simp] theorem State.testOn_hands (s : State) (t : Target) (pattern : Byte) : (State.testOn s t pattern).hands = s.hands := by
  unfold State.testOn
  (repeat' split) <;> simp

@[simp] theorem opDiagPhyTest_hands (m : VcpMsg) (t : Target) (s : State) : (opDiagPhyTest m t s).1.hands = s.hands := by
  unfold opDiagPhyTest
  simp

@[simp] theorem opDiagEye_hands (m : VcpMsg) (t : Target) (s : State) : (opDiagEye m t s).1.hands = s.hands := by
  unfold opDiagEye
  simp

end Sys2Proof.Machine
end

