-- ==== Sys2Proof/Laws/HandsRows.lean ====
section
/-! SUPPORT. Frame lemmas: the VCP, the transports and what every command row is built on leave the bundle alone. -/

set_option Elab.async false

namespace Sys2Proof.Machine

open Sys2Proof

@[simp] theorem opFaultRead_hands (m : VcpMsg) (s : State) : (opFaultRead m s).1.hands = s.hands := by
  unfold opFaultRead
  simp

@[simp] theorem opFaultAck_hands (m : VcpMsg) (s : State) : (opFaultAck m s).1.hands = s.hands := by
  unfold opFaultAck
  simp

@[simp] theorem opFaultSetSeverity_hands (m : VcpMsg) (s : State) : (opFaultSetSeverity m s).1.hands = s.hands := by
  unfold opFaultSetSeverity
  split
  · rename_i h; simpa using State.setSeverity_hands _ _ _ h
  · simp

@[simp] theorem opFaultpinControl_hands (m : VcpMsg) (s : State) : (opFaultpinControl m s).1.hands = s.hands := by
  unfold opFaultpinControl
  simp

@[simp] theorem State.forced_hands (s : State) (source : Nat) (f : State → State) (hf : ∀ s, (f s).hands = s.hands) : (State.forced s source f).hands = s.hands := by
  unfold State.forced
  simp [hf]

@[simp] theorem State.forcedReport_hands (s : State) (source kind info : Nat) : (State.forcedReport s source kind info).hands = s.hands := by
  unfold State.forcedReport
  simp

@[simp] theorem State.forceTrip_hands (s : State) (k : Slot) (kind : Nat) : (State.forceTrip s k kind).hands = s.hands := by
  unfold State.forceTrip
  (repeat' split) <;> simp

@[simp] theorem State.forceChain_hands (s : State) (k : Slot) (frames : Nat) : (State.forceChain s k frames).hands = s.hands := by
  unfold State.forceChain
  simp

@[simp] theorem State.forceWire_hands (s : State) (k : Slot) (v : Nat) : (State.forceWire s k v).hands = s.hands := by
  unfold State.forceWire
  simp

@[simp] theorem State.forceFlags_hands (s : State) (p : Port) (v : Nat) : (State.forceFlags s p v).hands = s.hands := by
  unfold State.forceFlags
  simp

@[simp] theorem State.forceRail_hands (s : State) (r : Fin 8) (mv : Nat) : (State.forceRail s r mv).hands = s.hands := by
  unfold State.forceRail
  simp

@[simp] theorem State.forceLink_hands (s : State) (source us : Nat) : (State.forceLink s source us).hands = s.hands := by
  unfold State.forceLink
  simp

@[simp] theorem State.forceAlarm_hands (s : State) (i : Fin 6) (line : Nat) : (State.forceAlarm s i line).hands = s.hands := by
  unfold State.forceAlarm
  simp

@[simp] theorem State.actNow_hands (s : State) (source kind v : Nat) : ∀ t, State.actNow s source kind v = some t → t.hands = s.hands := by
  unfold State.actNow
  dsimp only
  repeat' (first | refine keep_opt _ _ _ _ ?_ ?_ | exact keep_none _ | refine keep_some _ _ ?_)
  all_goals simp

@[simp] theorem State.beginForce_hands (s : State) (source v : Nat) : (State.beginForce s source v).hands = s.hands := by
  unfold State.beginForce
  simp

@[simp] theorem opFaultInject_hands (m : VcpMsg) (s : State) : (opFaultInject m s).1.hands = s.hands := by
  unfold opFaultInject
  dsimp only
  repeat' split
  all_goals (first | (simp; done) | skip)
  rename_i h
  simpa using State.actNow_hands _ _ _ _ _ h

@[simp] theorem State.endForce_hands (s : State) (source : Nat) : (State.endForce s source).hands = s.hands := by
  unfold State.endForce
  simp

@[simp] theorem State.injectionEnds_hands (s : State) (source : BitVec 12) (kind : Byte) : (State.injectionEnds s source kind).hands = s.hands := by
  unfold State.injectionEnds
  (repeat' split) <;> simp

@[simp] theorem State.injectionLapses_hands (s : State) (source : BitVec 12) (kind : Byte) : (State.injectionLapses s source kind).hands = s.hands := by
  unfold State.injectionLapses
  simp

@[simp] theorem State.losePacket_hands (s : State) (p : Port) (a src : Byte) : (State.losePacket s p a src).hands = s.hands := by
  unfold State.losePacket
  simp

@[simp] theorem State.inherent_hands (s : State) (source : Nat) (kind : Nat) (info : Nat) (place : Option (Port × Byte)) : (State.inherent s source kind info place).hands = s.hands := by
  unfold State.inherent
  (repeat' split) <;> simp

@[simp] theorem State.detectorReports_hands (s : State) (source : BitVec 12) (kind : Byte) (info : BitVec 32) (inj : Bool) (place : Option (Port × Byte)) : (State.detectorReports s source kind info inj place).hands = s.hands := by
  unfold State.detectorReports
  simp

@[simp] theorem State.detectorMessage_hands (s : State) (source : BitVec 12) (kind : Byte) (info : BitVec 32) (inj : Bool) (place : Option (Port × Byte)) : (State.detectorMessage s source kind info inj place).hands = s.hands := by
  unfold State.detectorMessage
  (repeat' split) <;> simp

@[simp] theorem opHelloGrant_hands (m : VcpMsg) (k : Part) (s : State) : (opHelloGrant m k s).1.hands = s.hands := by
  unfold opHelloGrant
  simp

@[simp] theorem opResync_hands (m : VcpMsg) (s : State) : (opResync m s).1.hands = s.hands := by
  unfold opResync
  simp

@[simp] theorem opEventAck_hands (m : VcpMsg) (s : State) : (opEventAck m s).1.hands = s.hands := by
  unfold opEventAck
  simp

@[simp] theorem opClose_hands (m : VcpMsg) (s : State) : (opClose m s).1.hands = s.hands := by
  unfold opClose
  simp

@[simp] theorem opGetInfo_hands (m : VcpMsg) (s : State) : (opGetInfo m s).1.hands = s.hands := by
  unfold opGetInfo
  simp

@[simp] theorem opGetStatus_hands (m : VcpMsg) (s : State) : (opGetStatus m s).1.hands = s.hands := by
  unfold opGetStatus
  simp

@[simp] theorem runPpcGet_hands (m : VcpMsg) (t : Target) (s : State) : (runPpcGet m t s).1.hands = s.hands := by
  unfold runPpcGet
  (repeat' split) <;> simp

@[simp] theorem State.finishCmd_hands (s : State) (c : Cmd) (stored : Bool) (r : Rsp) : (State.finishCmd s c stored r).hands = s.hands := by
  unfold State.finishCmd
  simp

@[simp] theorem State.takeReply_hands (s : State) (c : Cmd) (stored : Bool) (r : Reply) : (s.takeReply c stored r).hands = s.hands := by
  unfold State.takeReply
  split
  · simp
  · dsimp only
    rw [State.finishCmd_hands, forAll_hands]
    intros; simp
  · simp
  · rfl

@[simp] theorem State.interim_hands (s : State) (c : Cmd) : (State.interim s c).hands = s.hands := by
  unfold State.interim
  simp

@[simp] theorem State.wakeFor_hands (s : State) (op : Nat) (t : Target) : (State.wakeFor s op t).hands = s.hands := by
  unfold State.wakeFor
  (repeat' split) <;> simp

def CmdRow.keeps (r : CmdRow) : Prop := ∀ m t s, (r.run m t s).1.hands = s.hands

theorem onDevice_keeps (op : Nat) (sc : CmdScope) (f) (h : ∀ m s, (f m s).1.hands = s.hands) : (onDevice op sc f).keeps := fun m _ s => h m s

theorem onPort_keeps (op : Nat) (f) (h : ∀ m p s, (f m p s).1.hands = s.hands) : (onPort op f).keeps := by
  intro m t s; cases t <;> simp [onPort, h]

theorem onPart_keeps (op : Nat) (f) (h : ∀ m p s, (f m p s).1.hands = s.hands) : (onPart op f).keeps := by
  intro m t s; cases t <;> simp [onPart, h]

theorem onSlot_keeps (op : Nat) (sc : CmdScope) (f) (h : ∀ m p s, (f m p s).1.hands = s.hands) : (onSlot op sc f).keeps := by
  intro m t s; cases t <;> simp [onSlot, h]

theorem onBank_keeps (op : Nat) (sc : CmdScope) (f) (h : ∀ m p s, (f m p s).1.hands = s.hands) : (onBank op sc f).keeps := by
  intro m t s; cases t <;> simp [onBank, h]

theorem cmdTable_keeps : ∀ r ∈ cmdTable, r.keeps := by
  simp only [cmdTable, sessionCmds, portCmds, liftPdCmds, powerCmds, deviceCmds, List.cons_append, List.nil_append, List.forall_mem_cons]
  repeat' (first
    | refine And.intro (onDevice_keeps _ _ _ (by simp)) ?_
    | refine And.intro (onPart_keeps _ _ (by simp)) ?_
    | refine And.intro (onPort_keeps _ _ (by simp)) ?_
    | refine And.intro (onSlot_keeps _ _ _ (by simp)) ?_
    | refine And.intro (onBank_keeps _ _ _ (by simp)) ?_
    | refine And.intro ?_ ?_)
  all_goals first
    | (intro m t s; cases t <;> simp [onPort, runPpcGet]; done)
    | (intro r hr; exact absurd hr (by simp))

@[simp] theorem State.runOp_hands (s : State) (c : Cmd) : (State.runOp s c).1.hands = s.hands := by
  unfold State.runOp
  split
  · rename_i r t hr ht
    have hk : r.keeps := cmdTable_keeps r (List.mem_of_find?_eq_some hr)
    dsimp only
    split
    · split
      · rw [hk]
      · rfl
    · rw [hk]; simp
  · rfl

@[simp] theorem State.execute_hands (s : State) (c : Cmd) (stored : Bool) : (State.execute s c stored).hands = s.hands := by
  unfold State.execute
  split <;> simp

@[simp] theorem State.consume_hands (s : State) (c : Cmd) : (State.consume s c).hands = s.hands := by
  unfold State.consume
  simp

@[simp] theorem State.hello_hands (s : State) (c : Cmd) : (State.hello s c).hands = s.hands := by
  unfold State.hello
  (repeat' split) <;> simp

@[simp] theorem State.runCmd_hands (s : State) (c : Cmd) : (State.runCmd s c).hands = s.hands := by
  unfold State.runCmd
  simp
  (repeat' split) <;> simp

@[simp] theorem State.arrive_hands (s : State) (opcode : BitVec 16) (m : VcpMsg) (bad : Option Byte) : (State.arrive s opcode m bad).hands = s.hands := by
  unfold State.arrive
  simp

@[simp] theorem State.mfPass_hands (s : State) (k : Part) (b : MfBuffer) (bytes : List Byte) : (State.mfPass s k b bytes).1.hands = s.hands := by
  unfold State.mfPass
  first
  | (simp; done)
  | (simp; (repeat' split) <;> (simp; done); done)
  | ((repeat' split) <;> (simp; done); done)
  | (simp only []; (repeat' split) <;> (simp; done); done)

@[simp] theorem State.mfBulkOut_hands (s : State) (k : Part) (b : List Byte) : (State.mfBulkOut s k b).hands = s.hands := by
  unfold State.mfBulkOut
  simp

@[simp] theorem State.mfControlOut_hands (s : State) (k : Part) (b : List Byte) : (State.mfControlOut s k b).hands = s.hands := by
  unfold State.mfControlOut
  simp

@[simp] theorem State.mfLastResponse_hands (s : State) (k : Part) (len : Nat) : (State.mfLastResponse s k len).hands = s.hands := by
  unfold State.mfLastResponse
  first
  | (simp; done)
  | (simp; (repeat' split) <;> (simp; done); done)
  | ((repeat' split) <;> (simp; done); done)
  | (simp only []; (repeat' split) <;> (simp; done); done)

@[simp] theorem State.mfTakeRsp_hands (s : State) (k : Part) : (State.mfTakeRsp s k).hands = s.hands := by
  unfold State.mfTakeRsp
  simp
  (repeat' split) <;> simp

@[simp] theorem State.mfTakeEvent_hands (s : State) (k : Part) : (State.mfTakeEvent s k).hands = s.hands := by
  unfold State.mfTakeEvent
  simp
  (repeat' split) <;> simp

@[simp] theorem State.mfTakeSerial_hands (s : State) (k : Part) (u : Fin 6) (ep : Byte) : (State.mfTakeSerial s k u ep).hands = s.hands := by
  unfold State.mfTakeSerial
  first
  | (simp; done)
  | (simp; (repeat' split) <;> (simp; done); done)
  | ((repeat' split) <;> (simp; done); done)
  | (simp only []; (repeat' split) <;> (simp; done); done)

@[simp] theorem State.mfIn_hands (s : State) (k : Part) (ep : Byte) : (State.mfIn s k ep).hands = s.hands := by
  unfold State.mfIn
  simp
  (repeat' split) <;> simp

@[simp] theorem State.updMbox_hands (s : State) (m : Mbox) (f : Mailbox → Mailbox) : (State.updMbox s m f).hands = s.hands := by
  unfold State.updMbox
  simp

@[simp] theorem State.oobWriteByte_hands (s : State) (bus : OobBus) (a : Nat) (b : Byte) : (State.oobWriteByte s bus a b).hands = s.hands := by
  unfold State.oobWriteByte
  simp

@[simp] theorem oobWriteBytes_hands (l : List Byte) (bus : OobBus) (a : Nat) (s : State) : (oobWriteBytes l bus a s).hands = s.hands := by
  induction l generalizing a s with
  | nil => rfl
  | cons b l ih => unfold oobWriteBytes; simp [ih]

@[simp] theorem State.blockRead_hands (s : State) (n : Nat) : (State.blockRead s n).hands = s.hands := by
  unfold State.blockRead
  first
  | (simp; done)
  | (simp; (repeat' split) <;> (simp; done); done)
  | ((repeat' split) <;> (simp; done); done)
  | (simp only []; (repeat' split) <;> (simp; done); done)

@[simp] theorem State.oobWrite_hands (s : State) (w : OobWrite) (l : List Byte) : (State.oobWrite s w l).hands = s.hands := by
  unfold State.oobWrite
  split
  · rfl
  · split <;> simp

@[simp] theorem State.ringDoorbell_hands (s : State) (m : Mbox) : (State.ringDoorbell s m).hands = s.hands := by
  unfold State.ringDoorbell
  simp

@[simp] theorem State.writeDoorbell_hands (s : State) (bus : OobBus) (mask : BitVec 3) : (State.writeDoorbell s bus mask).hands = s.hands := by
  unfold State.writeDoorbell
  simp

@[simp] theorem State.rspDone_hands (s : State) (m : Mbox) : (State.rspDone s m).hands = s.hands := by
  unfold State.rspDone
  simp

@[simp] theorem State.evtDone_hands (s : State) (m : Mbox) : (State.evtDone s m).hands = s.hands := by
  unfold State.evtDone
  simp

@[simp] theorem State.crcErrClear_hands (s : State) (m : Mbox) : (State.crcErrClear s m).hands = s.hands := by
  unfold State.crcErrClear
  simp

@[simp] theorem State.takeMailbox_hands (s : State) (m : Mbox) : (State.takeMailbox s m).hands = s.hands := by
  unfold State.takeMailbox
  simp

@[simp] theorem State.takeRepeats_hands (s : State) : (State.takeRepeats s).hands = s.hands := by
  unfold State.takeRepeats
  simp

@[simp] theorem pumpLoop_hands (n : Nat) (s : State) : (pumpLoop n s).hands = s.hands := by
  induction n generalizing s with
  | zero => rfl
  | succ n ih =>
    unfold pumpLoop
    split
    · rfl
    · split
      · simp [ih]
      · dsimp only
        split <;> simp [ih]

@[simp] theorem State.wakeHosts_hands (s before : State) : (State.wakeHosts s before).hands = s.hands := by
  unfold State.wakeHosts
  simp

@[simp] theorem State.endWith_hands (n : Nat) (s before : State) : (State.endWith n s before).hands = s.hands := by
  unfold State.endWith
  simp

@[simp] theorem State.finish_hands (s before : State) : (State.finish s before).hands = s.hands := by
  unfold State.finish
  simp

@[simp] theorem State.submit_hands (s : State) (opcode : BitVec 16) (m : VcpMsg) : (State.submit s opcode m).hands = s.hands := by
  unfold State.submit
  simp

@[simp] theorem State.redo_hands (s : State) : (State.redo s).hands = s.hands := by
  unfold State.redo
  apply forAll_hands
  intro s i
  split
  · split
    · dsimp only
      rw [State.takeReply_hands, State.runOp_hands, State.updSession_hands]
    · rfl
  · rfl

@[simp] theorem State.reactionEnds_hands (s : State) (r : Reaction) (aged : Nat) (intact : Bool) : (State.reactionEnds s r aged intact).hands = s.hands := by
  unfold State.reactionEnds
  simp

@[simp] theorem State.serveJob_hands (s : State) (k : Part) (j : UpJob) : (State.serveJob s k j).1.hands = s.hands := by
  unfold State.serveJob
  first
  | (simp; done)
  | (simp; (repeat' split) <;> (simp; done); done)
  | ((repeat' split) <;> (simp; done); done)
  | (simp only []; (repeat' split) <;> (simp; done); done)

@[simp] theorem serveUp_hands  (a0 : Nat) (a1 : Part) (a2 : Nat) (a3 : List UpJob) (a4 : List (Nat × UpRequest)) (a5 : State) : (serveUp a0 a1 a2 a3 a4 a5).hands = a5.hands := by
  induction a0 generalizing a2 a3 a4 a5 with
  | zero => rfl
  | succ n ih =>
    unfold serveUp
    simp only []
    split
    · rw [ih]; simp
    · split
      · rfl
      · rw [ih]

@[simp] theorem State.ackRequest_hands (s : State) (p : Port) (a : Byte) (t : AckTp) : (State.ackRequest s p a t).hands = s.hands := by
  unfold State.ackRequest
  first
  | (simp; done)
  | (simp; (repeat' split) <;> (simp; done); done)
  | ((repeat' split) <;> (simp; done); done)
  | (simp only []; (repeat' split) <;> (simp; done); done)

@[simp] theorem ifAon_hands (f : State → State) (s : State) (hf : ∀ s, (f s).hands = s.hands) : (ifAon f s).hands = s.hands := by
  unfold ifAon
  simp [hf]

@[simp] theorem ifPorst_hands (f : State → State) (s : State) (hf : ∀ s, (f s).hands = s.hands) : (ifPorst f s).hands = s.hands := by
  unfold ifPorst
  simp [hf]

@[simp] theorem ifUp_hands (f : State → State) (s : State) (hf : ∀ s, (f s).hands = s.hands) : (ifUp f s).hands = s.hands := by
  unfold ifUp
  simp [hf]

@[simp] theorem State.afterWake_hands (s : State) (code : Nat) (f : State → State) (hf : ∀ s, (f s).hands = s.hands) : (State.afterWake s code f).hands = s.hands := by
  unfold State.afterWake
  simp [hf]

@[simp] theorem State.hostWakes_hands (s : State) (k : Part) (f : State → State) (hf : ∀ s, (f s).hands = s.hands) : (State.hostWakes s k f).hands = s.hands := by
  unfold State.hostWakes
  simp [hf]

@[simp] theorem State.deviceResumes_hands (s : State) (k : Part) (f : State → State) (hf : ∀ s, (f s).hands = s.hands) : (State.deviceResumes s k f).hands = s.hands := by
  unfold State.deviceResumes
  simp [hf]

@[simp] theorem State.deviceWakes_hands (s : State) (p : Port) (f : State → State) (hf : ∀ s, (f s).hands = s.hands) : (State.deviceWakes s p f).hands = s.hands := by
  unfold State.deviceWakes
  simp [hf]

@[simp] theorem State.slotWakes_hands (s : State) (k : Slot) (f : State → State) (hf : ∀ s, (f s).hands = s.hands) : (State.slotWakes s k f).hands = s.hands := by
  unfold State.slotWakes
  simp [hf]

@[simp] theorem State.portWakes_hands (s : State) (p : Port) (code : Nat) (f : State → State) (hf : ∀ s, (f s).hands = s.hands) : (State.portWakes s p code f).hands = s.hands := by
  unfold State.portWakes
  simp [hf]

@[simp] theorem State.attachWakes_hands (s : State) (k : Part) (f : State → State) (hf : ∀ s, (f s).hands = s.hands) : (State.attachWakes s k f).hands = s.hands := by
  unfold State.attachWakes
  simp [hf]

@[simp] theorem State.ctlOutStall_hands (s : State) (p : Port) : (State.ctlOutStall s p).hands = s.hands := by
  unfold State.ctlOutStall
  (repeat' split) <;> simp

end Sys2Proof.Machine
end

