-- ==== Sys2Proof/Laws/Frames.lean ====
section
/-! SUPPORT. What every command row leaves alone: the queue of commands, the registers of the test access port, and the fuses. -/

set_option Elab.async false

namespace Sys2Proof.Machine

open Sys2Proof

theorem run_hands (f : State → State) (s t : State) (hf : ∀ s, (f s).hands = s.hands) (h : run f s = .next t) : t.hands = s.hands := by
  cases h
  simp [hf]

theorem runVcp_hands (opcode : BitVec 16) (m : VcpMsg) (s t : State) (h : runVcp opcode m s = .next t) : t.hands = s.hands := by
  cases h
  simp

theorem execWrstAssert_hands (s : State) (t' : State) (h : execWrstAssert s = .next t') : t'.hands = s.hands := by
  refine run_hands _ s t' ?_ h
  intro s
  simp

theorem execEveningHoldExpiry_hands (s : State) (t' : State) (h : execEveningHoldExpiry s = .next t') : t'.hands = s.hands := by
  refine run_hands _ s t' ?_ h
  intro s
  simp

theorem execAutoNightStart_hands (s : State) (t' : State) (h : execAutoNightStart s = .next t') : t'.hands = s.hands := by
  refine run_hands _ s t' ?_ h
  intro s
  simp

theorem execDuskStepsComplete_hands (s : State) (t' : State) (h : execDuskStepsComplete s = .next t') : t'.hands = s.hands := by
  refine run_hands _ s t' ?_ h
  intro s
  simp

theorem execDuskStepBoundExpiry_hands (s : State) (t' : State) (h : execDuskStepBoundExpiry s = .next t') : t'.hands = s.hands := by
  refine run_hands _ s t' ?_ h
  intro s
  simp

theorem execPrepareAnswer_hands (d : Fin 25) (defer : Bool) (s : State) (t' : State) (h : execPrepareAnswer d defer s = .next t') : t'.hands = s.hands := by
  refine run_hands _ s t' ?_ h
  intro s
  simp

theorem execPrepareDeferExpiry_hands (d : Fin 25) (s : State) (t' : State) (h : execPrepareDeferExpiry d s = .next t') : t'.hands = s.hands := by
  refine run_hands _ s t' ?_ h
  intro s
  simp

theorem execBudgetDomainEntryStart_hands (d : Fin 25) (s : State) (t' : State) (h : execBudgetDomainEntryStart d s = .next t') : t'.hands = s.hands := by
  refine run_hands _ s t' ?_ h
  intro s
  simp

theorem execDomainExitStart_hands (k : Part) (s : State) (t' : State) (h : execDomainExitStart k s = .next t') : t'.hands = s.hands := by
  refine run_hands _ s t' ?_ h
  intro s
  simp

theorem execDomainExitComplete_hands (d : Fin 25) (s : State) (t' : State) (h : execDomainExitComplete d s = .next t') : t'.hands = s.hands := by
  refine run_hands _ s t' ?_ h
  intro s
  simp

theorem execNightWake_hands (code : Fin 32) (s : State) (t' : State) (h : execNightWake code s = .next t') : t'.hands = s.hands := by
  refine run_hands _ s t' ?_ h
  intro s
  simp

theorem execMidnightWake_hands (code : Fin 32) (board : BoardIn) (s : State) (t' : State) (h : execMidnightWake code board s = .next t') : t'.hands = s.hands := by
  refine run_hands _ s t' ?_ h
  intro s
  simp

theorem execWakeNLow_hands (s : State) (t' : State) (h : execWakeNLow s = .next t') : t'.hands = s.hands := by
  refine run_hands _ s t' ?_ h
  intro s
  simp

theorem execWakeTimerExpiry_hands (s : State) (t' : State) (h : execWakeTimerExpiry s = .next t') : t'.hands = s.hands := by
  refine run_hands _ s t' ?_ h
  intro s
  simp

theorem execMidnightDetachDischargeEnd_hands (p : Port) (s : State) (t' : State) (h : execMidnightDetachDischargeEnd p s = .next t') : t'.hands = s.hands := by
  refine run_hands _ s t' ?_ h
  intro s
  simp

theorem execDieSensorSample_hands (t : Tab 16 (BitVec 16)) (s : State) (t' : State) (h : execDieSensorSample t s = .next t') : t'.hands = s.hands := by
  refine run_hands _ s t' ?_ h
  intro s
  simp

theorem execThermalEveningExpiry_hands (sensor : Fin 16) (s : State) (t' : State) (h : execThermalEveningExpiry sensor s = .next t') : t'.hands = s.hands := by
  refine run_hands _ s t' ?_ h
  intro s
  simp

theorem execTjCriticalExpiry_hands (sensor : Fin 16) (s : State) (t' : State) (h : execTjCriticalExpiry sensor s = .next t') : t'.hands = s.hands := by
  refine run_hands _ s t' ?_ h
  intro s
  simp

theorem execSupplyWarning_hands (r : Fin 8) (mv : Nat) (s : State) (t' : State) (h : execSupplyWarning r mv s = .next t') : t'.hands = s.hands := by
  refine run_hands _ s t' ?_ h
  intro s
  simp

theorem execSupplyFailure_hands (r : Fin 8) (mv : Nat) (s : State) (t' : State) (h : execSupplyFailure r mv s = .next t') : t'.hands = s.hands := by
  refine run_hands _ s t' ?_ h
  intro s
  simp

theorem execRcToCrystalSwitch_hands (s : State) (t' : State) (h : execRcToCrystalSwitch s = .next t') : t'.hands = s.hands := by
  refine run_hands _ s t' ?_ h
  intro s
  simp

theorem execRcCalibration_hands (s : State) (t' : State) (h : execRcCalibration s = .next t') : t'.hands = s.hands := by
  refine run_hands _ s t' ?_ h
  intro s
  simp

theorem execRefclkLoss_hands (s : State) (t' : State) (h : execRefclkLoss s = .next t') : t'.hands = s.hands := by
  refine run_hands _ s t' ?_ h
  intro s
  simp

theorem execAvsReevaluate_hands (s : State) (t' : State) (h : execAvsReevaluate s = .next t') : t'.hands = s.hands := by
  refine run_hands _ s t' ?_ h
  intro s
  simp

theorem execAvsRequestComplete_hands (voltage current temp status : BitVec 16) (s : State) (t' : State) (h : execAvsRequestComplete voltage current temp status s = .next t') : t'.hands = s.hands := by
  refine run_hands _ s t' ?_ h
  intro s
  simp

theorem execAvsTimeout_hands (s : State) (t' : State) (h : execAvsTimeout s = .next t') : t'.hands = s.hands := by
  refine run_hands _ s t' ?_ h
  intro s
  simp

theorem execAvsHoldoffExpiry_hands (s : State) (t' : State) (h : execAvsHoldoffExpiry s = .next t') : t'.hands = s.hands := by
  refine run_hands _ s t' ?_ h
  intro s
  simp

theorem execPortDieLinkRetrain_hands (d : Fin 2) (s : State) (t' : State) (h : execPortDieLinkRetrain d s = .next t') : t'.hands = s.hands := by
  refine run_hands _ s t' ?_ h
  intro s
  simp

theorem execPortDieLinkReturn_hands (d : Fin 2) (s : State) (t' : State) (h : execPortDieLinkReturn d s = .next t') : t'.hands = s.hands := by
  refine run_hands _ s t' ?_ h
  intro s
  simp

theorem execPortDieLinkFail_hands (d : Fin 2) (s : State) (t' : State) (h : execPortDieLinkFail d s = .next t') : t'.hands = s.hands := by
  refine run_hands _ s t' ?_ h
  intro s
  simp

theorem execPowerDieLinkTimeout_hands (d : Fin 2) (s : State) (t' : State) (h : execPowerDieLinkTimeout d s = .next t') : t'.hands = s.hands := by
  refine run_hands _ s t' ?_ h
  intro s
  simp

theorem execPowerDieCoreSilence_hands (d : Fin 2) (s : State) (t' : State) (h : execPowerDieCoreSilence d s = .next t') : t'.hands = s.hands := by
  refine run_hands _ s t' ?_ h
  intro s
  simp

theorem execAlarmPairChange_hands (pair : Fin 6) (on : Bool) (s : State) (t' : State) (h : execAlarmPairChange pair on s = .next t') : t'.hands = s.hands := by
  refine run_hands _ s t' ?_ h
  intro s
  simp

theorem execAlarmLineFault_hands (pair : Fin 6) (level : Bool) (s : State) (t' : State) (h : execAlarmLineFault pair level s = .next t') : t'.hands = s.hands := by
  refine run_hands _ s t' ?_ h
  intro s
  simp

theorem execDetectorMessage_hands (source : BitVec 12) (kind : Byte) (info : BitVec 32) (injected : Bool) (place : Option (Port × Byte)) (s : State) (t' : State) (h : execDetectorMessage source kind info injected place s = .next t') : t'.hands = s.hands := by
  unfold execDetectorMessage at h
  split at h
  · cases h
  · refine run_hands _ s t' ?_ h
    intro s
    simp

theorem execFaultNPulseEnd_hands (s : State) (t' : State) (h : execFaultNPulseEnd s = .next t') : t'.hands = s.hands := by
  refine run_hands _ s t' ?_ h
  intro s
  simp

theorem execSafeHoldRestartDone_hands (s : State) (t' : State) (h : execSafeHoldRestartDone s = .next t') : t'.hands = s.hands := by
  refine run_hands _ s t' ?_ h
  intro s
  simp

theorem execReactionComplete_hands (r : Reaction) (aged : Nat) (intact : Bool) (s : State) (t' : State) (h : execReactionComplete r aged intact s = .next t') : t'.hands = s.hands := by
  refine run_hands _ s t' ?_ h
  intro s
  simp

theorem execResetShadowEnd_hands (r : Reaction) (s : State) (t' : State) (h : execResetShadowEnd r s = .next t') : t'.hands = s.hands := by
  refine run_hands _ s t' ?_ h
  intro s
  simp

theorem execWatchdogKick_hands (s : State) (t' : State) (h : execWatchdogKick s = .next t') : t'.hands = s.hands := by
  refine run_hands _ s t' ?_ h
  intro s
  simp

theorem execWatchdogExpiry_hands (s : State) (t' : State) (h : execWatchdogExpiry s = .next t') : t'.hands = s.hands := by
  refine run_hands _ s t' ?_ h
  intro s
  simp

theorem execInjectionDurationEnd_hands (source : BitVec 12) (kind : Byte) (s : State) (t' : State) (h : execInjectionDurationEnd source kind s = .next t') : t'.hands = s.hands := by
  refine run_hands _ s t' ?_ h
  intro s
  simp

theorem execInjectionArmTimeout_hands (source : BitVec 12) (kind : Byte) (s : State) (t' : State) (h : execInjectionArmTimeout source kind s = .next t') : t'.hands = s.hands := by
  refine run_hands _ s t' ?_ h
  intro s
  simp

theorem execUpstreamAttach_hands (k : Part) (orientation : Bool) (rp : Fin 4) (vbus : Bool) (s : State) (t' : State) (h : execUpstreamAttach k orientation rp vbus s = .next t') : t'.hands = s.hands := by
  refine run_hands _ s t' ?_ h
  intro s
  simp

theorem execUpstreamDetach_hands (k : Part) (s : State) (t' : State) (h : execUpstreamDetach k s = .next t') : t'.hands = s.hands := by
  refine run_hands _ s t' ?_ h
  intro s
  simp

theorem execUpstreamVbusAbsent_hands (k : Part) (late : Bool) (s : State) (t' : State) (h : execUpstreamVbusAbsent k late s = .next t') : t'.hands = s.hands := by
  refine run_hands _ s t' ?_ h
  intro s
  simp

theorem execUpstreamPdMessage_hands (k : Part) (m : UpPdIn) (s : State) (t' : State) (h : execUpstreamPdMessage k m s = .next t') : t'.hands = s.hands := by
  refine run_hands _ s t' ?_ h
  intro s
  simp

theorem execUpstreamHardReset_hands (k : Part) (s : State) (t' : State) (h : execUpstreamHardReset k s = .next t') : t'.hands = s.hands := by
  refine run_hands _ s t' ?_ h
  intro s
  simp

theorem execSsLinkU0_hands (k : Part) (rate : SsRate) (s : State) (t' : State) (h : execSsLinkU0 k rate s = .next t') : t'.hands = s.hands := by
  refine run_hands _ s t' ?_ h
  intro s
  simp

theorem execSsDecidingExpiry_hands (k : Part) (s : State) (t' : State) (h : execSsDecidingExpiry k s = .next t') : t'.hands = s.hands := by
  refine run_hands _ s t' ?_ h
  intro s
  simp

theorem execSsInactiveExpiry_hands (k : Part) (link : UpLink) (s : State) (t' : State) (h : execSsInactiveExpiry k link s = .next t') : t'.hands = s.hands := by
  refine run_hands _ s t' ?_ h
  intro s
  simp

theorem execSsLinkDisabled_hands (k : Part) (s : State) (t' : State) (h : execSsLinkDisabled k s = .next t') : t'.hands = s.hands := by
  refine run_hands _ s t' ?_ h
  intro s
  simp

theorem execLgoU1U2_hands (k : Part) (u2 unacked : Bool) (s : State) (t' : State) (h : execLgoU1U2 k u2 unacked s = .next t') : t'.hands = s.hands := by
  refine run_hands _ s t' ?_ h
  intro s
  simp

theorem execDeviceU1U2Entry_hands (k : Part) (u2 unacked : Bool) (s : State) (t' : State) (h : execDeviceU1U2Entry k u2 unacked s = .next t') : t'.hands = s.hands := by
  refine run_hands _ s t' ?_ h
  intro s
  simp

theorem execUpstreamU3Entry_hands (k : Part) (s : State) (t' : State) (h : execUpstreamU3Entry k s = .next t') : t'.hands = s.hands := by
  refine run_hands _ s t' ?_ h
  intro s
  simp

theorem execUpstreamU3Exit_hands (k : Part) (s : State) (t' : State) (h : execUpstreamU3Exit k s = .next t') : t'.hands = s.hands := by
  refine run_hands _ s t' ?_ h
  intro s
  simp

theorem execSsWarmReset_hands (k : Part) (s : State) (t' : State) (h : execSsWarmReset k s = .next t') : t'.hands = s.hands := by
  refine run_hands _ s t' ?_ h
  intro s
  simp

theorem execSsHotReset_hands (k : Part) (s : State) (t' : State) (h : execSsHotReset k s = .next t') : t'.hands = s.hands := by
  refine run_hands _ s t' ?_ h
  intro s
  simp

theorem execUsb2BusReset_hands (k : Part) (highSpeed : Bool) (s : State) (t' : State) (h : execUsb2BusReset k highSpeed s = .next t') : t'.hands = s.hands := by
  refine run_hands _ s t' ?_ h
  intro s
  simp

theorem execUsb2LpmTransaction_hands (k : Part) (hird : BitVec 4) (s : State) (t' : State) (h : execUsb2LpmTransaction k hird s = .next t') : t'.hands = s.hands := by
  refine run_hands _ s t' ?_ h
  intro s
  simp

theorem execUsb2Suspend_hands (k : Part) (s : State) (t' : State) (h : execUsb2Suspend k s = .next t') : t'.hands = s.hands := by
  refine run_hands _ s t' ?_ h
  intro s
  simp

theorem execUsb2Resume_hands (k : Part) (byDevice : Bool) (s : State) (t' : State) (h : execUsb2Resume k byDevice s = .next t') : t'.hands = s.hands := by
  refine run_hands _ s t' ?_ h
  intro s
  simp

theorem execMfStandardRequest_hands (k : Part) (r : Setup) (data : List Byte) (s : State) (t' : State) (h : execMfStandardRequest k r data s = .next t') : t'.hands = s.hands := by
  refine run_hands _ s t' ?_ h
  intro s
  simp

theorem execMfBulkOutCommand_hands (k : Part) (bytes : List Byte) (s : State) (t' : State) (h : execMfBulkOutCommand k bytes s = .next t') : t'.hands = s.hands := by
  refine run_hands _ s t' ?_ h
  intro s
  simp

theorem execVcpCommand_hands (k : Part) (bytes : List Byte) (s : State) (t' : State) (h : execVcpCommand k bytes s = .next t') : t'.hands = s.hands := by
  refine run_hands _ s t' ?_ h
  intro s
  simp

theorem execVcpLastResponse_hands (k : Part) (len : BitVec 16) (s : State) (t' : State) (h : execVcpLastResponse k len s = .next t') : t'.hands = s.hands := by
  refine run_hands _ s t' ?_ h
  intro s
  simp

theorem execMfOtherVendorRequest_hands (k : Part) (_r : Setup) (s : State) (t' : State) (h : execMfOtherVendorRequest k _r s = .next t') : t'.hands = s.hands := by
  refine run_hands _ s t' ?_ h
  intro s
  simp

theorem execDoorbellRing_hands (bus : OobBus) (mask : BitVec 3) (s : State) (t' : State) (h : execDoorbellRing bus mask s = .next t') : t'.hands = s.hands := by
  refine run_hands _ s t' ?_ h
  intro s
  simp

theorem execSmbusDoorbellWrite_hands (pecOk : Bool) (s : State) (t' : State) (h : execSmbusDoorbellWrite pecOk s = .next t') : t'.hands = s.hands := by
  refine run_hands _ s t' ?_ h
  intro s
  simp

theorem execSmbusSetPointer_hands (address : BitVec 16) (pecOk : Bool) (s : State) (t' : State) (h : execSmbusSetPointer address pecOk s = .next t') : t'.hands = s.hands := by
  refine run_hands _ s t' ?_ h
  intro s
  simp

theorem execSmbusAlertResponse_hands (s : State) (t' : State) (h : execSmbusAlertResponse s = .next t') : t'.hands = s.hands := by
  refine run_hands _ s t' ?_ h
  intro s
  simp

theorem execRspDone_hands (m : Mbox) (s : State) (t' : State) (h : execRspDone m s = .next t') : t'.hands = s.hands := by
  refine run_hands _ s t' ?_ h
  intro s
  simp

theorem execEvtDone_hands (m : Mbox) (s : State) (t' : State) (h : execEvtDone m s = .next t') : t'.hands = s.hands := by
  refine run_hands _ s t' ?_ h
  intro s
  simp

theorem execCrcErrClear_hands (m : Mbox) (s : State) (t' : State) (h : execCrcErrClear m s = .next t') : t'.hands = s.hands := by
  refine run_hands _ s t' ?_ h
  intro s
  simp

theorem execRegisterWrite_hands (w : OobWrite) (bytes : List Byte) (s : State) (t' : State) (h : execRegisterWrite w bytes s = .next t') : t'.hands = s.hands := by
  refine run_hands _ s t' ?_ h
  intro s
  simp

theorem execHelloOpen_hands (m : VcpMsg) (s : State) (t' : State) (h : execHelloOpen m s = .next t') : t'.hands = s.hands := runVcp_hands _ _ s t' h

theorem execHelloForceOpen_hands (m : VcpMsg) (s : State) (t' : State) (h : execHelloForceOpen m s = .next t') : t'.hands = s.hands := runVcp_hands _ _ s t' h

theorem execHelloGrant_hands (m : VcpMsg) (s : State) (t' : State) (h : execHelloGrant m s = .next t') : t'.hands = s.hands := runVcp_hands _ _ s t' h

theorem execHelloRevoke_hands (m : VcpMsg) (s : State) (t' : State) (h : execHelloRevoke m s = .next t') : t'.hands = s.hands := runVcp_hands _ _ s t' h

theorem execResync_hands (m : VcpMsg) (s : State) (t' : State) (h : execResync m s = .next t') : t'.hands = s.hands := runVcp_hands _ _ s t' h

theorem execEventAck_hands (m : VcpMsg) (s : State) (t' : State) (h : execEventAck m s = .next t') : t'.hands = s.hands := runVcp_hands _ _ s t' h

theorem execClose_hands (m : VcpMsg) (s : State) (t' : State) (h : execClose m s = .next t') : t'.hands = s.hands := runVcp_hands _ _ s t' h

theorem execGetInfo_hands (m : VcpMsg) (s : State) (t' : State) (h : execGetInfo m s = .next t') : t'.hands = s.hands := runVcp_hands _ _ s t' h

theorem execGetStatus_hands (m : VcpMsg) (s : State) (t' : State) (h : execGetStatus m s = .next t') : t'.hands = s.hands := runVcp_hands _ _ s t' h

theorem execGetTemps_hands (m : VcpMsg) (s : State) (t' : State) (h : execGetTemps m s = .next t') : t'.hands = s.hands := runVcp_hands _ _ s t' h

theorem execUnsupportedOpcode_hands (opcode : BitVec 16) (m : VcpMsg) (s : State) (t' : State) (h : execUnsupportedOpcode opcode m s = .next t') : t'.hands = s.hands := runVcp_hands _ _ s t' h

theorem execPartGet_hands (m : VcpMsg) (s : State) (t' : State) (h : execPartGet m s = .next t') : t'.hands = s.hands := runVcp_hands _ _ s t' h

theorem execPartAssignPort_hands (m : VcpMsg) (s : State) (t' : State) (h : execPartAssignPort m s = .next t') : t'.hands = s.hands := runVcp_hands _ _ s t' h

theorem execPartSetLimits_hands (m : VcpMsg) (s : State) (t' : State) (h : execPartSetLimits m s = .next t') : t'.hands = s.hands := runVcp_hands _ _ s t' h

theorem execPartConnect_hands (m : VcpMsg) (s : State) (t' : State) (h : execPartConnect m s = .next t') : t'.hands = s.hands := runVcp_hands _ _ s t' h

theorem execPartDisconnect_hands (m : VcpMsg) (s : State) (t' : State) (h : execPartDisconnect m s = .next t') : t'.hands = s.hands := runVcp_hands _ _ s t' h

theorem execDeferredDisconnectExecute_hands (k : Part) (s : State) (t' : State) (h : execDeferredDisconnectExecute k s = .next t') : t'.hands = s.hands := by
  refine run_hands _ s t' ?_ h
  intro s
  simp

theorem execPortGet_hands (m : VcpMsg) (s : State) (t' : State) (h : execPortGet m s = .next t') : t'.hands = s.hands := runVcp_hands _ _ s t' h

theorem execPortSetMode_hands (m : VcpMsg) (s : State) (t' : State) (h : execPortSetMode m s = .next t') : t'.hands = s.hands := runVcp_hands _ _ s t' h

theorem execPortReset_hands (m : VcpMsg) (s : State) (t' : State) (h : execPortReset m s = .next t') : t'.hands = s.hands := runVcp_hands _ _ s t' h

theorem execPortQuench_hands (m : VcpMsg) (s : State) (t' : State) (h : execPortQuench m s = .next t') : t'.hands = s.hands := runVcp_hands _ _ s t' h

theorem execPortRelease_hands (m : VcpMsg) (s : State) (t' : State) (h : execPortRelease m s = .next t') : t'.hands = s.hands := runVcp_hands _ _ s t' h

theorem execPortSetBc_hands (m : VcpMsg) (s : State) (t' : State) (h : execPortSetBc m s = .next t') : t'.hands = s.hands := runVcp_hands _ _ s t' h

theorem execLiftGetPolicy_hands (m : VcpMsg) (s : State) (t' : State) (h : execLiftGetPolicy m s = .next t') : t'.hands = s.hands := runVcp_hands _ _ s t' h

theorem execLiftSetClasslist_hands (m : VcpMsg) (s : State) (t' : State) (h : execLiftSetClasslist m s = .next t') : t'.hands = s.hands := runVcp_hands _ _ s t' h

theorem execLiftSetEpBoundary_hands (m : VcpMsg) (s : State) (t' : State) (h : execLiftSetEpBoundary m s = .next t') : t'.hands = s.hands := runVcp_hands _ _ s t' h

theorem execLiftGetEpStats_hands (m : VcpMsg) (s : State) (t' : State) (h : execLiftGetEpStats m s = .next t') : t'.hands = s.hands := runVcp_hands _ _ s t' h

theorem execLiftClearPoison_hands (m : VcpMsg) (s : State) (t' : State) (h : execLiftClearPoison m s = .next t') : t'.hands = s.hands := runVcp_hands _ _ s t' h

theorem execPdSetOffer_hands (m : VcpMsg) (s : State) (t' : State) (h : execPdSetOffer m s = .next t') : t'.hands = s.hands := runVcp_hands _ _ s t' h

theorem execPdSend_hands (m : VcpMsg) (s : State) (t' : State) (h : execPdSend m s = .next t') : t'.hands = s.hands := runVcp_hands _ _ s t' h

theorem execPdSetAutoresp_hands (m : VcpMsg) (s : State) (t' : State) (h : execPdSetAutoresp m s = .next t') : t'.hands = s.hands := runVcp_hands _ _ s t' h

theorem execPdHardReset_hands (m : VcpMsg) (s : State) (t' : State) (h : execPdHardReset m s = .next t') : t'.hands = s.hands := runVcp_hands _ _ s t' h

theorem execCcSetRp_hands (m : VcpMsg) (s : State) (t' : State) (h : execCcSetRp m s = .next t') : t'.hands = s.hands := runVcp_hands _ _ s t' h

theorem execSbuSetRoute_hands (m : VcpMsg) (s : State) (t' : State) (h : execSbuSetRoute m s = .next t') : t'.hands = s.hands := runVcp_hands _ _ s t' h

theorem execPdSetTimers_hands (m : VcpMsg) (s : State) (t' : State) (h : execPdSetTimers m s = .next t') : t'.hands = s.hands := runVcp_hands _ _ s t' h

theorem execSlotGet_hands (m : VcpMsg) (s : State) (t' : State) (h : execSlotGet m s = .next t') : t'.hands = s.hands := runVcp_hands _ _ s t' h

theorem execSlotSetLimits_hands (m : VcpMsg) (s : State) (t' : State) (h : execSlotSetLimits m s = .next t') : t'.hands = s.hands := runVcp_hands _ _ s t' h

theorem execSlotEnable_hands (m : VcpMsg) (s : State) (t' : State) (h : execSlotEnable m s = .next t') : t'.hands = s.hands := runVcp_hands _ _ s t' h

theorem execSlotClearLatch_hands (m : VcpMsg) (s : State) (t' : State) (h : execSlotClearLatch m s = .next t') : t'.hands = s.hands := runVcp_hands _ _ s t' h

theorem execVbusSet_hands (m : VcpMsg) (s : State) (t' : State) (h : execVbusSet m s = .next t') : t'.hands = s.hands := runVcp_hands _ _ s t' h

theorem execPpcGet_hands (m : VcpMsg) (s : State) (t' : State) (h : execPpcGet m s = .next t') : t'.hands = s.hands := runVcp_hands _ _ s t' h

theorem execModeGet_hands (m : VcpMsg) (s : State) (t' : State) (h : execModeGet m s = .next t') : t'.hands = s.hands := runVcp_hands _ _ s t' h

theorem execModeRequest_hands (m : VcpMsg) (board : BoardIn) (s : State) (t' : State) (h : execModeRequest m board s = .next t') : t'.hands = s.hands := by
  refine run_hands _ s t' ?_ h
  intro s
  simp

theorem execLatBudgetSet_hands (m : VcpMsg) (s : State) (t' : State) (h : execLatBudgetSet m s = .next t') : t'.hands = s.hands := runVcp_hands _ _ s t' h

theorem execWakeSourcesSet_hands (m : VcpMsg) (s : State) (t' : State) (h : execWakeSourcesSet m s = .next t') : t'.hands = s.hands := runVcp_hands _ _ s t' h

theorem execAvsGet_hands (m : VcpMsg) (s : State) (t' : State) (h : execAvsGet m s = .next t') : t'.hands = s.hands := runVcp_hands _ _ s t' h

theorem execPbmGetStats_hands (m : VcpMsg) (s : State) (t' : State) (h : execPbmGetStats m s = .next t') : t'.hands = s.hands := runVcp_hands _ _ s t' h

theorem execPbmSetScrub_hands (m : VcpMsg) (s : State) (t' : State) (h : execPbmSetScrub m s = .next t') : t'.hands = s.hands := runVcp_hands _ _ s t' h

theorem execPbmRetire_hands (m : VcpMsg) (s : State) (t' : State) (h : execPbmRetire m s = .next t') : t'.hands = s.hands := runVcp_hands _ _ s t' h

theorem execPbmFlipmask_hands (m : VcpMsg) (s : State) (t' : State) (h : execPbmFlipmask m s = .next t') : t'.hands = s.hands := runVcp_hands _ _ s t' h

theorem execFaultRead_hands (m : VcpMsg) (s : State) (t' : State) (h : execFaultRead m s = .next t') : t'.hands = s.hands := runVcp_hands _ _ s t' h

theorem execFaultAck_hands (m : VcpMsg) (s : State) (t' : State) (h : execFaultAck m s = .next t') : t'.hands = s.hands := runVcp_hands _ _ s t' h

theorem execFaultSetSeverity_hands (m : VcpMsg) (s : State) (t' : State) (h : execFaultSetSeverity m s = .next t') : t'.hands = s.hands := runVcp_hands _ _ s t' h

theorem execFaultInject_hands (m : VcpMsg) (s : State) (t' : State) (h : execFaultInject m s = .next t') : t'.hands = s.hands := runVcp_hands _ _ s t' h

theorem execFaultpinControl_hands (m : VcpMsg) (s : State) (t' : State) (h : execFaultpinControl m s = .next t') : t'.hands = s.hands := runVcp_hands _ _ s t' h

theorem execFwGet_hands (m : VcpMsg) (s : State) (t' : State) (h : execFwGet m s = .next t') : t'.hands = s.hands := runVcp_hands _ _ s t' h

theorem execFwStageBegin_hands (m : VcpMsg) (s : State) (t' : State) (h : execFwStageBegin m s = .next t') : t'.hands = s.hands := runVcp_hands _ _ s t' h

theorem execFwStageData_hands (m : VcpMsg) (s : State) (t' : State) (h : execFwStageData m s = .next t') : t'.hands = s.hands := runVcp_hands _ _ s t' h

theorem execFwStageCommit_hands (m : VcpMsg) (s : State) (t' : State) (h : execFwStageCommit m s = .next t') : t'.hands = s.hands := runVcp_hands _ _ s t' h

theorem execFwActivate_hands (m : VcpMsg) (s : State) (t' : State) (h : execFwActivate m s = .next t') : t'.hands = s.hands := runVcp_hands _ _ s t' h

theorem execActivationPauseEnd_hands (s : State) (t' : State) (h : execActivationPauseEnd s = .next t') : t'.hands = s.hands := by
  refine run_hands _ s t' ?_ h
  intro s
  simp

theorem execActivationLoadFail_hands (s : State) (t' : State) (h : execActivationLoadFail s = .next t') : t'.hands = s.hands := by
  refine run_hands _ s t' ?_ h
  intro s
  simp

theorem execTrialFail_hands (dead : Bool) (s : State) (t' : State) (h : execTrialFail dead s = .next t') : t'.hands = s.hands := by
  refine run_hands _ s t' ?_ h
  intro s
  simp

theorem execDiagLoopback_hands (m : VcpMsg) (s : State) (t' : State) (h : execDiagLoopback m s = .next t') : t'.hands = s.hands := runVcp_hands _ _ s t' h

theorem execDiagPhyTest_hands (m : VcpMsg) (s : State) (t' : State) (h : execDiagPhyTest m s = .next t') : t'.hands = s.hands := runVcp_hands _ _ s t' h

theorem execDiagEye_hands (m : VcpMsg) (s : State) (t' : State) (h : execDiagEye m s = .next t') : t'.hands = s.hands := runVcp_hands _ _ s t' h

theorem execConnectRecognised_hands (c : Connect) (s : State) (t' : State) (h : execConnectRecognised c s = .next t') : t'.hands = s.hands := by
  refine run_hands _ s t' ?_ h
  intro s
  simp

theorem execDisconnectRecognised_hands (p : Port) (s : State) (t' : State) (h : execDisconnectRecognised p s = .next t') : t'.hands = s.hands := by
  refine run_hands _ s t' ?_ h
  intro s
  simp

theorem execPresentationPossible_hands (p : Port) (s : State) (t' : State) (h : execPresentationPossible p s = .next t') : t'.hands = s.hands := by
  refine run_hands _ s t' ?_ h
  intro s
  simp

theorem execDebounceComplete_hands (p : Port) (s : State) (t' : State) (h : execDebounceComplete p s = .next t') : t'.hands = s.hands := by
  refine run_hands _ s t' ?_ h
  intro s
  simp

theorem execDeviceResetSe0End_hands (p : Port) (found : FoundSpeed) (s : State) (t' : State) (h : execDeviceResetSe0End p found s = .next t') : t'.hands = s.hands := by
  refine run_hands _ s t' ?_ h
  intro s
  simp

theorem execResetRecoveryEnd_hands (p : Port) (s : State) (t' : State) (h : execResetRecoveryEnd p s = .next t') : t'.hands = s.hands := by
  refine run_hands _ s t' ?_ h
  intro s
  simp

theorem execProbeRequestComplete_hands (p : Port) (r : XferResult) (s : State) (t' : State) (h : execProbeRequestComplete p r s = .next t') : t'.hands = s.hands := by
  refine run_hands _ s t' ?_ h
  intro s
  simp

theorem execProbeRequestTimeout_hands (p : Port) (s : State) (t' : State) (h : execProbeRequestTimeout p s = .next t') : t'.hands = s.hands := by
  refine run_hands _ s t' ?_ h
  intro s
  simp

theorem execProbeTimeout_hands (p : Port) (s : State) (t' : State) (h : execProbeTimeout p s = .next t') : t'.hands = s.hands := by
  refine run_hands _ s t' ?_ h
  intro s
  simp

theorem execNativeSsU0Held_hands (p : Port) (gen2 : Bool) (s : State) (t' : State) (h : execNativeSsU0Held p gen2 s = .next t') : t'.hands = s.hands := by
  refine run_hands _ s t' ?_ h
  intro s
  simp

theorem execHostPortReset_hands (k : Part) (pos : Pos) (f : HubReset) (s : State) (t' : State) (h : execHostPortReset k pos f s = .next t') : t'.hands = s.hands := by
  refine run_hands _ s t' ?_ h
  intro s
  simp

theorem execHostResetSe0End_hands (p : Port) (found : FoundSpeed) (s : State) (t' : State) (h : execHostResetSe0End p found s = .next t') : t'.hands = s.hands := by
  refine run_hands _ s t' ?_ h
  intro s
  simp

theorem execHubTopPortReset_hands (k : Part) (f : HubReset) (n : Fin 9) (s : State) (t' : State) (h : execHubTopPortReset k f n s = .next t') : t'.hands = s.hands := by
  refine run_hands _ s t' ?_ h
  intro s
  simp

theorem execHubClearPortPower_hands (k : Part) (side : Side) (q : HubPort) (s : State) (t' : State) (h : execHubClearPortPower k side q s = .next t') : t'.hands = s.hands := by
  refine run_hands _ s t' ?_ h
  intro s
  simp

theorem execHubSetPortPower_hands (k : Part) (side : Side) (q : HubPort) (s : State) (t' : State) (h : execHubSetPortPower k side q s = .next t') : t'.hands = s.hands := by
  refine run_hands _ s t' ?_ h
  intro s
  simp

theorem execHubSetPortIndicator_hands (k : Part) (side : Side) (q : HubPort) (s : State) (t' : State) (h : execHubSetPortIndicator k side q s = .next t') : t'.hands = s.hands := by
  refine run_hands _ s t' ?_ h
  intro s
  simp

theorem execHubPortSuspend_hands (k : Part) (q : HubPort) (s : State) (t' : State) (h : execHubPortSuspend k q s = .next t') : t'.hands = s.hands := by
  refine run_hands _ s t' ?_ h
  intro s
  simp

theorem execHubPortResume_hands (k : Part) (q : HubPort) (s : State) (t' : State) (h : execHubPortResume k q s = .next t') : t'.hands = s.hands := by
  refine run_hands _ s t' ?_ h
  intro s
  simp

theorem execClearTtBuffer_hands (k : Part) (pos : Pos) (key : BitVec 16) (s : State) (t' : State) (h : execClearTtBuffer k pos key s = .next t') : t'.hands = s.hands := by
  refine run_hands _ s t' ?_ h
  intro s
  simp

theorem execResetTt_hands (k : Part) (pos : Pos) (s : State) (t' : State) (h : execResetTt k pos s = .next t') : t'.hands = s.hands := by
  refine run_hands _ s t' ?_ h
  intro s
  simp

theorem execGetTtState_hands (k : Part) (pos : Pos) (s : State) (t' : State) (h : execGetTtState k pos s = .next t') : t'.hands = s.hands := by
  refine run_hands _ s t' ?_ h
  intro s
  simp

theorem execStopTt_hands (k : Part) (pos : Pos) (s : State) (t' : State) (h : execStopTt k pos s = .next t') : t'.hands = s.hands := by
  refine run_hands _ s t' ?_ h
  intro s
  simp

theorem execHubStandardRequest_hands (k : Part) (side : Side) (h : HubIx) (r : HubRequest) (s : State) (t' : State) (h : execHubStandardRequest k side h r s = .next t') : t'.hands = s.hands := by
  refine run_hands _ s t' ?_ h
  intro s
  simp

theorem execLiftSuspendOrder_hands (p : Port) (s : State) (t' : State) (h : execLiftSuspendOrder p s = .next t') : t'.hands = s.hands := by
  refine run_hands _ s t' ?_ h
  intro s
  simp

theorem execLiftResumeOrder_hands (p : Port) (s : State) (t' : State) (h : execLiftResumeOrder p s = .next t') : t'.hands = s.hands := by
  refine run_hands _ s t' ?_ h
  intro s
  simp

theorem execResumeKEnd_hands (p : Port) (s : State) (t' : State) (h : execResumeKEnd p s = .next t') : t'.hands = s.hands := by
  refine run_hands _ s t' ?_ h
  intro s
  simp

theorem execRemoteWakeKRecognised_hands (p : Port) (delta : BitVec 16) (s : State) (t' : State) (h : execRemoteWakeKRecognised p delta s = .next t') : t'.hands = s.hands := by
  refine run_hands _ s t' ?_ h
  intro s
  simp

theorem execU3ExitHandshakeComplete_hands (p : Port) (s : State) (t' : State) (h : execU3ExitHandshakeComplete p s = .next t') : t'.hands = s.hands := by
  refine run_hands _ s t' ?_ h
  intro s
  simp

theorem execHostU3ExitCollision_hands (p : Port) (delta : BitVec 16) (s : State) (t' : State) (h : execHostU3ExitCollision p delta s = .next t') : t'.hands = s.hands := by
  refine run_hands _ s t' ?_ h
  intro s
  simp

theorem execUnarmedWakeResuspend_hands (p : Port) (s : State) (t' : State) (h : execUnarmedWakeResuspend p s = .next t') : t'.hands = s.hands := by
  refine run_hands _ s t' ?_ h
  intro s
  simp

theorem execL1IdleExpiry_hands (p : Port) (s : State) (t' : State) (h : execL1IdleExpiry p s = .next t') : t'.hands = s.hands := by
  refine run_hands _ s t' ?_ h
  intro s
  simp

theorem execL1ExitRequest_hands (p : Port) (s : State) (t' : State) (h : execL1ExitRequest p s = .next t') : t'.hands = s.hands := by
  refine run_hands _ s t' ?_ h
  intro s
  simp

theorem execPortBabble_hands (p : Port) (s : State) (t' : State) (h : execPortBabble p s = .next t') : t'.hands = s.hands := by
  refine run_hands _ s t' ?_ h
  intro s
  simp

theorem execDrainComplete_hands (p : Port) (s : State) (t' : State) (h : execDrainComplete p s = .next t') : t'.hands = s.hands := by
  refine run_hands _ s t' ?_ h
  intro s
  simp

theorem execDrainWindowExpiry_hands (p : Port) (s : State) (t' : State) (h : execDrainWindowExpiry p s = .next t') : t'.hands = s.hands := by
  refine run_hands _ s t' ?_ h
  intro s
  simp

theorem execDischargeIntervalEnd_hands (p : Port) (s : State) (t' : State) (h : execDischargeIntervalEnd p s = .next t') : t'.hands = s.hands := by
  refine run_hands _ s t' ?_ h
  intro s
  simp

theorem execStdGetStatus_hands (p : Port) (recipient : Fin 3) (index len : BitVec 16) (s : State) (t' : State) (h : execStdGetStatus p recipient index len s = .next t') : t'.hands = s.hands := by
  refine run_hands _ s t' ?_ h
  intro s
  simp

theorem execStdClearEndpointHalt_hands (p : Port) (ep : Byte) (s : State) (t' : State) (h : execStdClearEndpointHalt p ep s = .next t') : t'.hands = s.hands := by
  refine run_hands _ s t' ?_ h
  intro s
  simp

theorem execStdSetEndpointHalt_hands (p : Port) (ep : Byte) (s : State) (t' : State) (h : execStdSetEndpointHalt p ep s = .next t') : t'.hands = s.hands := by
  refine run_hands _ s t' ?_ h
  intro s
  simp

theorem execStdSetFunctionSuspend_hands (p : Port) (interface : Byte) (suspend wake : Bool) (s : State) (t' : State) (h : execStdSetFunctionSuspend p interface suspend wake s = .next t') : t'.hands = s.hands := by
  refine run_hands _ s t' ?_ h
  intro s
  simp

theorem execStdU1U2Enable_hands (p : Port) (u2 on : Bool) (s : State) (t' : State) (h : execStdU1U2Enable p u2 on s = .next t') : t'.hands = s.hands := by
  refine run_hands _ s t' ?_ h
  intro s
  simp

theorem execStdSetLtmEnable_hands (p : Port) (s : State) (t' : State) (h : execStdSetLtmEnable p s = .next t') : t'.hands = s.hands := by
  refine run_hands _ s t' ?_ h
  intro s
  simp

theorem execStdDeviceRemoteWakeup_hands (p : Port) (on : Bool) (s : State) (t' : State) (h : execStdDeviceRemoteWakeup p on s = .next t') : t'.hands = s.hands := by
  refine run_hands _ s t' ?_ h
  intro s
  simp

theorem execStdSetTestMode_hands (p : Port) (selector : Byte) (s : State) (t' : State) (h : execStdSetTestMode p selector s = .next t') : t'.hands = s.hands := by
  refine run_hands _ s t' ?_ h
  intro s
  simp

theorem execStdSetAddress_hands (p : Port) (address : BitVec 7) (s : State) (t' : State) (h : execStdSetAddress p address s = .next t') : t'.hands = s.hands := by
  refine run_hands _ s t' ?_ h
  intro s
  simp

theorem execStdGetDescriptor_hands (p : Port) (type index : Byte) (language len : BitVec 16) (s : State) (t' : State) (h : execStdGetDescriptor p type index language len s = .next t') : t'.hands = s.hands := by
  refine run_hands _ s t' ?_ h
  intro s
  simp

theorem execStdSetDescriptor_hands (p : Port) (type index : Byte) (language len : BitVec 16) (s : State) (t' : State) (h : execStdSetDescriptor p type index language len s = .next t') : t'.hands = s.hands := by
  refine run_hands _ s t' ?_ h
  intro s
  simp

theorem execStdGetConfiguration_hands (p : Port) (s : State) (t' : State) (h : execStdGetConfiguration p s = .next t') : t'.hands = s.hands := by
  refine run_hands _ s t' ?_ h
  intro s
  simp

theorem execStdSetConfiguration_hands (p : Port) (value : Byte) (s : State) (t' : State) (h : execStdSetConfiguration p value s = .next t') : t'.hands = s.hands := by
  refine run_hands _ s t' ?_ h
  intro s
  simp

theorem execStdGetInterface_hands (p : Port) (interface : Byte) (s : State) (t' : State) (h : execStdGetInterface p interface s = .next t') : t'.hands = s.hands := by
  refine run_hands _ s t' ?_ h
  intro s
  simp

theorem execStdSetInterface_hands (p : Port) (interface alt : Byte) (s : State) (t' : State) (h : execStdSetInterface p interface alt s = .next t') : t'.hands = s.hands := by
  refine run_hands _ s t' ?_ h
  intro s
  simp

theorem execStdSynchFrame_hands (p : Port) (ep : Byte) (s : State) (t' : State) (h : execStdSynchFrame p ep s = .next t') : t'.hands = s.hands := by
  refine run_hands _ s t' ?_ h
  intro s
  simp

theorem execStdSetSel_hands (p : Port) (data : List Byte) (s : State) (t' : State) (h : execStdSetSel p data s = .next t') : t'.hands = s.hands := by
  refine run_hands _ s t' ?_ h
  intro s
  simp

theorem execStdSetIsochDelay_hands (p : Port) (delay : BitVec 16) (s : State) (t' : State) (h : execStdSetIsochDelay p delay s = .next t') : t'.hands = s.hands := by
  refine run_hands _ s t' ?_ h
  intro s
  simp

theorem execStdOtherRequest_hands (p : Port) (r : Setup) (s : State) (t' : State) (h : execStdOtherRequest p r s = .next t') : t'.hands = s.hands := by
  refine run_hands _ s t' ?_ h
  intro s
  simp

theorem execClassVendorRequest_hands (p : Port) (r : Setup) (s : State) (t' : State) (h : execClassVendorRequest p r s = .next t') : t'.hands = s.hands := by
  refine run_hands _ s t' ?_ h
  intro s
  simp

theorem execControlWriteDataPacket_hands (p : Port) (bytes : List Byte) (s : State) (t' : State) (h : execControlWriteDataPacket p bytes s = .next t') : t'.hands = s.hands := by
  refine run_hands _ s t' ?_ h
  intro s
  simp

theorem execDownstreamControlInPacket_hands (p : Port) (r : InAnswer) (s : State) (t' : State) (h : execDownstreamControlInPacket p r s = .next t') : t'.hands = s.hands := by
  refine run_hands _ s t' ?_ h
  intro s
  simp

theorem execDownstreamStatusComplete_hands (p : Port) (r : XferResult) (s : State) (t' : State) (h : execDownstreamStatusComplete p r s = .next t') : t'.hands = s.hands := by
  refine run_hands _ s t' ?_ h
  intro s
  simp

theorem execMicroframeBoundary_hands (l : List Periodic) (s : State) (t' : State) (h : execMicroframeBoundary l s = .next t') : t'.hands = s.hands := by
  refine run_hands _ s t' ?_ h
  intro s
  simp

theorem execHsBulkInPacket_hands (p : Port) (ep : Byte) (r : InAnswer) (s : State) (t' : State) (h : execHsBulkInPacket p ep r s = .next t') : t'.hands = s.hands := by
  refine run_hands _ s t' ?_ h
  intro s
  simp

theorem execHoldWindowExpiry_hands (p : Port) (ep : Byte) (s : State) (t' : State) (h : execHoldWindowExpiry p ep s = .next t') : t'.hands = s.hands := by
  refine run_hands _ s t' ?_ h
  intro s
  simp

theorem execSsAckTpReceived_hands (p : Port) (ep : Byte) (a : AckTp) (s : State) (t' : State) (h : execSsAckTpReceived p ep a s = .next t') : t'.hands = s.hands := by
  refine run_hands _ s t' ?_ h
  intro s
  simp

theorem execSsBulkOutPacket_hands (p : Port) (ep : Byte) (bytes : List Byte) (s : State) (t' : State) (h : execSsBulkOutPacket p ep bytes s = .next t') : t'.hands = s.hands := by
  refine run_hands _ s t' ?_ h
  intro s
  simp

theorem execHsOutTransactionComplete_hands (p : Port) (ep : Byte) (r : OutAnswer) (s : State) (t' : State) (h : execHsOutTransactionComplete p ep r s = .next t') : t'.hands = s.hands := by
  refine run_hands _ s t' ?_ h
  intro s
  simp

theorem execHsOutStall_hands (p : Port) (ep : Byte) (s : State) (t' : State) (h : execHsOutStall p ep s = .next t') : t'.hands = s.hands := by
  refine run_hands _ s t' ?_ h
  intro s
  simp

theorem execInterestLapse_hands (p : Port) (ep : Byte) (s : State) (t' : State) (h : execInterestLapse p ep s = .next t') : t'.hands = s.hands := by
  refine run_hands _ s t' ?_ h
  intro s
  simp

theorem execSsInterruptOutInterval_hands (p : Port) (ep : Byte) (bytes : List Byte) (s : State) (t' : State) (h : execSsInterruptOutInterval p ep bytes s = .next t') : t'.hands = s.hands := by
  refine run_hands _ s t' ?_ h
  intro s
  simp

theorem execIsochTimestampReceived_hands (k : Part) (interval : BitVec 14) (delta : BitVec 13) (s : State) (t' : State) (h : execIsochTimestampReceived k interval delta s = .next t') : t'.hands = s.hands := by
  refine run_hands _ s t' ?_ h
  intro s
  simp

theorem execSsIsoOutPacket_hands (p : Port) (ep : Byte) (bytes : List Byte) (bad : Bool) (s : State) (t' : State) (h : execSsIsoOutPacket p ep bytes bad s = .next t') : t'.hands = s.hands := by
  refine run_hands _ s t' ?_ h
  intro s
  simp

theorem execMergeAgeFlush_hands (b : Bank) (word : Nat) (s : State) (t' : State) (h : execMergeAgeFlush b word s = .next t') : t'.hands = s.hands := by
  refine run_hands _ s t' ?_ h
  intro s
  simp

theorem execScrubWord_hands (b : Bank) (queued : Bool) (s : State) (t' : State) (h : execScrubWord b queued s = .next t') : t'.hands = s.hands := by
  refine run_hands _ s t' ?_ h
  intro s
  simp

theorem execBucketLeakInterval_hands (s : State) (t' : State) (h : execBucketLeakInterval s = .next t') : t'.hands = s.hands := by
  refine run_hands _ s t' ?_ h
  intro s
  simp

theorem execBankRowEmptyMove_hands (b : Bank) (row : Nat) (s : State) (t' : State) (h : execBankRowEmptyMove b row s = .next t') : t'.hands = s.hands := by
  refine run_hands _ s t' ?_ h
  intro s
  simp

theorem execBankRowTimeoutCopy_hands (b : Bank) (row : Nat) (s : State) (t' : State) (h : execBankRowTimeoutCopy b row s = .next t') : t'.hands = s.hands := by
  refine run_hands _ s t' ?_ h
  intro s
  simp

theorem execCcPatternChange_hands (p : Port) (cc1 cc2 : CcLine) (s : State) (t' : State) (h : execCcPatternChange p cc1 cc2 s = .next t') : t'.hands = s.hands := by
  refine run_hands _ s t' ?_ h
  intro s
  simp

theorem execTccDebounceExpiry_hands (p : Port) (s : State) (t' : State) (h : execTccDebounceExpiry p s = .next t') : t'.hands = s.hands := by
  refine run_hands _ s t' ?_ h
  intro s
  simp

theorem execTpdDebounceExpiry_hands (p : Port) (s : State) (t' : State) (h : execTpdDebounceExpiry p s = .next t') : t'.hands = s.hands := by
  refine run_hands _ s t' ?_ h
  intro s
  simp

theorem execRaLost_hands (p : Port) (s : State) (t' : State) (h : execRaLost p s = .next t') : t'.hands = s.hands := by
  refine run_hands _ s t' ?_ h
  intro s
  simp

theorem execVconnOvercurrent_hands (p : Port) (s : State) (t' : State) (h : execVconnOvercurrent p s = .next t') : t'.hands = s.hands := by
  refine run_hands _ s t' ?_ h
  intro s
  simp

theorem execErrorRecoveryExpiry_hands (p : Port) (s : State) (t' : State) (h : execErrorRecoveryExpiry p s = .next t') : t'.hands = s.hands := by
  refine run_hands _ s t' ?_ h
  intro s
  simp

theorem execCableDiscoveryStart_hands (p : Port) (s : State) (t' : State) (h : execCableDiscoveryStart p s = .next t') : t'.hands = s.hands := by
  refine run_hands _ s t' ?_ h
  intro s
  simp

theorem execSourceCapabilitiesSend_hands (p : Port) (s : State) (t' : State) (h : execSourceCapabilitiesSend p s = .next t') : t'.hands = s.hands := by
  refine run_hands _ s t' ?_ h
  intro s
  simp

theorem execTypecSendSourceCapExpiry_hands (p : Port) (s : State) (t' : State) (h : execTypecSendSourceCapExpiry p s = .next t') : t'.hands = s.hands := by
  refine run_hands _ s t' ?_ h
  intro s
  simp

theorem execPdSopDetected_hands (p : Port) (sop : Fin 5) (size : Fin 300) (s : State) (t' : State) (h : execPdSopDetected p sop size s = .next t') : t'.hands = s.hands := by
  refine run_hands _ s t' ?_ h
  intro s
  simp

theorem execPdMessageReceived_hands (p : Port) (sop : Fin 5) (bytes : List Byte) (s : State) (t' : State) (h : execPdMessageReceived p sop bytes s = .next t') : t'.hands = s.hands := by
  refine run_hands _ s t' ?_ h
  intro s
  simp

theorem execPdGoodcrcReceived_hands (p : Port) (s : State) (t' : State) (h : execPdGoodcrcReceived p s = .next t') : t'.hands = s.hands := by
  refine run_hands _ s t' ?_ h
  intro s
  simp

theorem execPdReceiveTimeout_hands (p : Port) (s : State) (t' : State) (h : execPdReceiveTimeout p s = .next t') : t'.hands = s.hands := by
  refine run_hands _ s t' ?_ h
  intro s
  simp

theorem execFwdDeadlineExpiry_hands (p : Port) (s : State) (t' : State) (h : execFwdDeadlineExpiry p s = .next t') : t'.hands = s.hands := by
  refine run_hands _ s t' ?_ h
  intro s
  simp

theorem execWaitRetryExpiry_hands (p : Port) (s : State) (t' : State) (h : execWaitRetryExpiry p s = .next t') : t'.hands = s.hands := by
  refine run_hands _ s t' ?_ h
  intro s
  simp

theorem execSinkTxExpiry_hands (p : Port) (s : State) (t' : State) (h : execSinkTxExpiry p s = .next t') : t'.hands = s.hands := by
  refine run_hands _ s t' ?_ h
  intro s
  simp

theorem execSenderResponseTimeout_hands (p : Port) (s : State) (t' : State) (h : execSenderResponseTimeout p s = .next t') : t'.hands = s.hands := by
  refine run_hands _ s t' ?_ h
  intro s
  simp

theorem execNoResponseTimeout_hands (p : Port) (s : State) (t' : State) (h : execNoResponseTimeout p s = .next t') : t'.hands = s.hands := by
  refine run_hands _ s t' ?_ h
  intro s
  simp

theorem execPpsTimeout_hands (p : Port) (s : State) (t' : State) (h : execPpsTimeout p s = .next t') : t'.hands = s.hands := by
  refine run_hands _ s t' ?_ h
  intro s
  simp

theorem execSrcTransitionExpiry_hands (p : Port) (s : State) (t' : State) (h : execSrcTransitionExpiry p s = .next t') : t'.hands = s.hands := by
  refine run_hands _ s t' ?_ h
  intro s
  simp

theorem execTransitionPgood_hands (p : Port) (s : State) (t' : State) (h : execTransitionPgood p s = .next t') : t'.hands = s.hands := by
  refine run_hands _ s t' ?_ h
  intro s
  simp

theorem execTransitionTimeout_hands (p : Port) (s : State) (t' : State) (h : execTransitionTimeout p s = .next t') : t'.hands = s.hands := by
  refine run_hands _ s t' ?_ h
  intro s
  simp

theorem execHardResetReceived_hands (p : Port) (s : State) (t' : State) (h : execHardResetReceived p s = .next t') : t'.hands = s.hands := by
  refine run_hands _ s t' ?_ h
  intro s
  simp

theorem execPsHardResetExpiry_hands (p : Port) (s : State) (t' : State) (h : execPsHardResetExpiry p s = .next t') : t'.hands = s.hands := by
  refine run_hands _ s t' ?_ h
  intro s
  simp

theorem execSrcRecoverExpiry_hands (p : Port) (s : State) (t' : State) (h : execSrcRecoverExpiry p s = .next t') : t'.hands = s.hands := by
  refine run_hands _ s t' ?_ h
  intro s
  simp

theorem execVconnSourceTimeout_hands (p : Port) (s : State) (t' : State) (h : execVconnSourceTimeout p s = .next t') : t'.hands = s.hands := by
  refine run_hands _ s t' ?_ h
  intro s
  simp

theorem execVconnLineLow_hands (p : Port) (s : State) (t' : State) (h : execVconnLineLow p s = .next t') : t'.hands = s.hands := by
  refine run_hands _ s t' ?_ h
  intro s
  simp

theorem execPdQueuePop_hands (k : Slot) (s : State) (t' : State) (h : execPdQueuePop k s = .next t') : t'.hands = s.hands := by
  refine run_hands _ s t' ?_ h
  intro s
  simp

theorem execCdcSetLineCoding_hands (k : Part) (u : Fin 6) (rate : BitVec 32) (format parity bits : Byte) (s : State) (t' : State) (h : execCdcSetLineCoding k u rate format parity bits s = .next t') : t'.hands = s.hands := by
  refine run_hands _ s t' ?_ h
  intro s
  simp

theorem execCdcGetLineCoding_hands (k : Part) (u : Fin 6) (s : State) (t' : State) (h : execCdcGetLineCoding k u s = .next t') : t'.hands = s.hands := by
  refine run_hands _ s t' ?_ h
  intro s
  simp

theorem execCdcSetControlLineState_hands (k : Part) (_u : Fin 6) (_lines : BitVec 16) (s : State) (t' : State) (h : execCdcSetControlLineState k _u _lines s = .next t') : t'.hands = s.hands := by
  refine run_hands _ s t' ?_ h
  intro s
  simp

theorem execCdcSendBreak_hands (k : Part) (_u : Fin 6) (_ms : BitVec 16) (s : State) (t' : State) (h : execCdcSendBreak k _u _ms s = .next t') : t'.hands = s.hands := by
  refine run_hands _ s t' ?_ h
  intro s
  simp

theorem execSeatNLow_hands (k : Slot) (s : State) (t' : State) (h : execSeatNLow k s = .next t') : t'.hands = s.hands := by
  refine run_hands _ s t' ?_ h
  intro s
  simp

theorem execSeatNHigh_hands (k : Slot) (s : State) (t' : State) (h : execSeatNHigh k s = .next t') : t'.hands = s.hands := by
  refine run_hands _ s t' ?_ h
  intro s
  simp

theorem execSeatDebounceExpiry_hands (k : Slot) (s : State) (t' : State) (h : execSeatDebounceExpiry k s = .next t') : t'.hands = s.hands := by
  refine run_hands _ s t' ?_ h
  intro s
  simp

theorem execStartConditionHolds_hands (k : Slot) (mv : Nat) (s : State) (t' : State) (h : execStartConditionHolds k mv s = .next t') : t'.hands = s.hands := by
  refine run_hands _ s t' ?_ h
  intro s
  simp

theorem execPgConditionsHold_hands (k : Slot) (s : State) (t' : State) (h : execPgConditionsHold k s = .next t') : t'.hands = s.hands := by
  refine run_hands _ s t' ?_ h
  intro s
  simp

theorem execPgConditionsLost_hands (k : Slot) (s : State) (t' : State) (h : execPgConditionsLost k s = .next t') : t'.hands = s.hands := by
  refine run_hands _ s t' ?_ h
  intro s
  simp

theorem execPgDelayExpiry_hands (k : Slot) (s : State) (t' : State) (h : execPgDelayExpiry k s = .next t') : t'.hands = s.hands := by
  refine run_hands _ s t' ?_ h
  intro s
  simp

theorem execPgLostTrip_hands (k : Slot) (s : State) (t' : State) (h : execPgLostTrip k s = .next t') : t'.hands = s.hands := by
  refine run_hands _ s t' ?_ h
  intro s
  simp

theorem execFastTrip_hands (k : Slot) (sense : BitVec 12) (s : State) (t' : State) (h : execFastTrip k sense s = .next t') : t'.hands = s.hands := by
  refine run_hands _ s t' ?_ h
  intro s
  simp

theorem execBreakerTimeout_hands (k : Slot) (sense : BitVec 12) (s : State) (t' : State) (h : execBreakerTimeout k sense s = .next t') : t'.hands = s.hands := by
  refine run_hands _ s t' ?_ h
  intro s
  simp

theorem execRampStall_hands (k : Slot) (s : State) (t' : State) (h : execRampStall k s = .next t') : t'.hands = s.hands := by
  refine run_hands _ s t' ?_ h
  intro s
  simp

theorem execVinWindowExit_hands (k : Slot) (mv : Nat) (s : State) (t' : State) (h : execVinWindowExit k mv s = .next t') : t'.hands = s.hands := by
  refine run_hands _ s t' ?_ h
  intro s
  simp

theorem execOffTimeExpiry_hands (k : Slot) (mv : Nat) (s : State) (t' : State) (h : execOffTimeExpiry k mv s = .next t') : t'.hands = s.hands := by
  refine run_hands _ s t' ?_ h
  intro s
  simp

theorem execTripWindowAging_hands (k : Slot) (s : State) (t' : State) (h : execTripWindowAging k s = .next t') : t'.hands = s.hands := by
  refine run_hands _ s t' ?_ h
  intro s
  simp

theorem execSlotTelemetrySample_hands (k : Slot) (vin vout sense : BitVec 12) (s : State) (t' : State) (h : execSlotTelemetrySample k vin vout sense s = .next t') : t'.hands = s.hands := by
  refine run_hands _ s t' ?_ h
  intro s
  simp

theorem execSlotDisableTimeout_hands (k : Slot) (s : State) (t' : State) (h : execSlotDisableTimeout k s = .next t') : t'.hands = s.hands := by
  refine run_hands _ s t' ?_ h
  intro s
  simp

theorem execChainFrame_hands (k : Slot) (input : List Byte) (s : State) (t' : State) (h : execChainFrame k input s = .next t') : t'.hands = s.hands := by
  refine run_hands _ s t' ?_ h
  intro s
  simp

theorem execChainSettlingTimeout_hands (k : Slot) (s : State) (t' : State) (h : execChainSettlingTimeout k s = .next t') : t'.hands = s.hands := by
  refine run_hands _ s t' ?_ h
  intro s
  simp

theorem execVbusReleaseStagger_hands (k : Slot) (s : State) (t' : State) (h : execVbusReleaseStagger k s = .next t') : t'.hands = s.hands := by
  refine run_hands _ s t' ?_ h
  intro s
  simp

theorem execNoPgoodTimeout_hands (p : Port) (s : State) (t' : State) (h : execNoPgoodTimeout p s = .next t') : t'.hands = s.hands := by
  refine run_hands _ s t' ?_ h
  intro s
  simp

theorem execPgoodLostTimeout_hands (p : Port) (s : State) (t' : State) (h : execPgoodLostTimeout p s = .next t') : t'.hands = s.hands := by
  refine run_hands _ s t' ?_ h
  intro s
  simp

theorem execPowerDieLinkResume_hands (d : Fin 2) (s : State) (t' : State) (h : execPowerDieLinkResume d s = .next t') : t'.hands = s.hands := by
  refine run_hands _ s t' ?_ h
  intro s
  simp

theorem execSupplyWarningClear_hands (s : State) (t' : State) (h : execSupplyWarningClear s = .next t') : t'.hands = s.hands := by
  refine run_hands _ s t' ?_ h
  intro s
  simp

theorem execMfInTransfer_hands (k : Part) (ep : Byte) (s : State) (t' : State) (h : execMfInTransfer k ep s = .next t') : t'.hands = s.hands := by
  refine run_hands _ s t' ?_ h
  intro s
  simp

theorem execCdcBulkOutData_hands (k : Part) (u : Fin 6) (data : List Byte) (s : State) (t' : State) (h : execCdcBulkOutData k u data s = .next t') : t'.hands = s.hands := by
  refine run_hands _ s t' ?_ h
  intro s
  simp

theorem execSbuUartRx_hands (p : Port) (c : Byte) (s : State) (t' : State) (h : execSbuUartRx p c s = .next t') : t'.hands = s.hands := by
  refine run_hands _ s t' ?_ h
  intro s
  simp

theorem execSmbusClockLowTimeout_hands (s : State) (t' : State) (h : execSmbusClockLowTimeout s = .next t') : t'.hands = s.hands := by
  refine run_hands _ s t' ?_ h
  intro s
  simp

theorem execMidnightContractReleaseExpiry_hands (p : Port) (s : State) (t' : State) (h : execMidnightContractReleaseExpiry p s = .next t') : t'.hands = s.hands := by
  refine run_hands _ s t' ?_ h
  intro s
  simp

theorem execVirtualLinkInactivityTimeout_hands (k : Part) (q : HubPort) (u2 : Bool) (s : State) (t' : State) (h : execVirtualLinkInactivityTimeout k q u2 s = .next t') : t'.hands = s.hands := by
  refine run_hands _ s t' ?_ h
  intro s
  simp

theorem execNativeSsPacketReceived_hands (p : Port) (fromDevice : Bool) (bytes : List Byte) (s : State) (t' : State) (h : execNativeSsPacketReceived p fromDevice bytes s = .next t') : t'.hands = s.hands := by
  refine run_hands _ s t' ?_ h
  intro s
  simp

theorem execTtSplitTransaction_hands (k : Part) (pos : Pos) (op : SplitOp) (s : State) (t' : State) (h : execTtSplitTransaction k pos op s = .next t') : t'.hands = s.hands := by
  refine run_hands _ s t' ?_ h
  intro s
  simp

theorem execPassthroughTransaction_hands (k : Part) (pos : Pos) (packet answer : List Byte) (lpmAck : Bool) (s : State) (t' : State) (h : execPassthroughTransaction k pos packet answer lpmAck s = .next t') : t'.hands = s.hands := by
  refine run_hands _ s t' ?_ h
  intro s
  simp

theorem execWrstRelease_hands (board : BoardIn) (s : State) (t' : State) (h : execWrstRelease board s = .next t') : t'.hands = s.hands := by
  refine run_hands _ s t' ?_ h
  intro s
  simp

theorem execVdpSrcDetected_hands (p : Port) (present : Bool) (s : State) (t' : State) (h : execVdpSrcDetected p present s = .next t') : t'.hands = s.hands := by
  refine run_hands _ s t' ?_ h
  intro s
  simp

end Sys2Proof.Machine
end

