-- ==== Sys2Proof/Laws/Ports.lean ====
section
/-! SUPPORT. What never changes the data side of a port: the wires, events and responses, the buffer memory, the ready packets of a context. -/

set_option Elab.async false

namespace Sys2Proof.Machine

open Sys2Proof

@[simp] theorem ports_ite (c : Prop) [Decidable c] (a b : State) : (if c then a else b).ports = if c then a.ports else b.ports := by split <;> rfl
@[simp] theorem ports_ite1 {α : Type} (c : Prop) [Decidable c] (a b : State × α) : (if c then a else b).1.ports = if c then a.1.ports else b.1.ports := by split <;> rfl
@[simp] theorem forAll_ports {α : Type} (l : List α) (f : State → α → State) (s : State) (h : ∀ s a, (f s a).ports = s.ports) : (forAll l f s).ports = s.ports := by
  unfold forAll
  induction l generalizing s with
  | nil => rfl
  | cons a l ih => rw [List.foldl_cons, ih, h]

@[simp] theorem State.fillRsp_ports (s : State) (m : Mbox) : (State.fillRsp s m).ports = s.ports := by
  unfold State.fillRsp
  first
  | (simp; done)
  | (simp; (repeat' split) <;> (simp; done); done)
  | ((repeat' split) <;> (simp; done); done)
  | (simp only []; (repeat' split) <;> (simp; done); done)

@[simp] theorem State.fillEvt_ports (s : State) (m : Mbox) : (State.fillEvt s m).ports = s.ports := by
  unfold State.fillEvt
  first
  | (simp; done)
  | (simp; (repeat' split) <;> (simp; done); done)
  | ((repeat' split) <;> (simp; done); done)
  | (simp only []; (repeat' split) <;> (simp; done); done)

@[simp] theorem State.fillMailbox_ports (s : State) (m : Mbox) : (State.fillMailbox s m).ports = s.ports := by
  unfold State.fillMailbox
  first
  | (simp; done)
  | (simp; (repeat' split) <;> (simp; done); done)
  | ((repeat' split) <;> (simp; done); done)
  | (simp only []; (repeat' split) <;> (simp; done); done)

@[simp] theorem State.respond_ports (s : State) (i : Sess) (r : Rsp) : (State.respond s i r).ports = s.ports := by
  unfold State.respond
  first
  | (simp; done)
  | (simp; (repeat' split) <;> (simp; done); done)
  | ((repeat' split) <;> (simp; done); done)
  | (simp only []; (repeat' split) <;> (simp; done); done)

@[simp] theorem State.deliver_ports (s : State) (e : EventOut) (i : Sess) : (State.deliver s e i).ports = s.ports := by
  unfold State.deliver
  first
  | (simp; done)
  | (simp; (repeat' split) <;> (simp; done); done)
  | ((repeat' split) <;> (simp; done); done)
  | (simp only []; (repeat' split) <;> (simp; done); done)

@[simp] theorem State.issue_ports (s : State) (e : EventOut) : (State.issue s e).ports = s.ports := by
  unfold State.issue
  first
  | (simp; done)
  | (simp; (repeat' split) <;> (simp; done); done)
  | ((repeat' split) <;> (simp; done); done)
  | (simp only []; (repeat' split) <;> (simp; done); done)

@[simp] theorem State.issueHeld_ports (s : State) : (State.issueHeld s).ports = s.ports := by
  unfold State.issueHeld
  first
  | (simp; done)
  | (simp; (repeat' split) <;> (simp; done); done)
  | ((repeat' split) <;> (simp; done); done)
  | (simp only []; (repeat' split) <;> (simp; done); done)

@[simp] theorem State.portEvent_ports (s : State) (p : Port) (code : Nat) (payload : List Byte) : (State.portEvent s p code payload).ports = s.ports := by
  unfold State.portEvent
  first
  | (simp; done)
  | (simp; (repeat' split) <;> (simp; done); done)
  | ((repeat' split) <;> (simp; done); done)
  | (simp only []; (repeat' split) <;> (simp; done); done)

@[simp] theorem State.slotEvent_ports (s : State) (k : Slot) (code : Nat) (payload : List Byte) : (State.slotEvent s k code payload).ports = s.ports := by
  unfold State.slotEvent
  first
  | (simp; done)
  | (simp; (repeat' split) <;> (simp; done); done)
  | ((repeat' split) <;> (simp; done); done)
  | (simp only []; (repeat' split) <;> (simp; done); done)

@[simp] theorem State.bankEvent_ports (s : State) (b : Bank) (code : Nat) (payload : List Byte) : (State.bankEvent s b code payload).ports = s.ports := by
  unfold State.bankEvent
  first
  | (simp; done)
  | (simp; (repeat' split) <;> (simp; done); done)
  | ((repeat' split) <;> (simp; done); done)
  | (simp only []; (repeat' split) <;> (simp; done); done)

@[simp] theorem State.complete_ports (s : State) (i : Sess) (status : Byte) (payload : List Byte) : (State.complete s i status payload).ports = s.ports := by
  unfold State.complete
  first
  | (simp; done)
  | (simp; (repeat' split) <;> (simp; done); done)
  | ((repeat' split) <;> (simp; done); done)
  | (simp only []; (repeat' split) <;> (simp; done); done)

@[simp] theorem State.answer_ports (s : State) (w : Wait) (status : Byte) (payload : List Byte) : (State.answer s w status payload).ports = s.ports := by
  unfold State.answer
  first
  | (simp; done)
  | (simp; (repeat' split) <;> (simp; done); done)
  | ((repeat' split) <;> (simp; done); done)
  | (simp only []; (repeat' split) <;> (simp; done); done)

@[simp] theorem refuse_ports (s : State) (status : Byte) : (refuse s status).1.ports = s.ports := by
  unfold refuse
  first
  | (simp; done)
  | (simp; (repeat' split) <;> (simp; done); done)
  | ((repeat' split) <;> (simp; done); done)
  | (simp only []; (repeat' split) <;> (simp; done); done)

@[simp] theorem ok_ports (s : State) : (ok s).1.ports = s.ports := by
  unfold ok
  first
  | (simp; done)
  | (simp; (repeat' split) <;> (simp; done); done)
  | ((repeat' split) <;> (simp; done); done)
  | (simp only []; (repeat' split) <;> (simp; done); done)


@[simp] theorem State.spend_ports (s : State) (i : Injection) : (State.spend s i).ports = s.ports := by
  unfold State.spend
  simp

@[simp] theorem State.addrCheck_ports (s : State) (b : Bank) : (State.addrCheck s b).1.ports = s.ports := by
  unfold State.addrCheck
  (repeat' split) <;> simp

@[simp] theorem State.storeWord_ports (s : State) (b : Bank) (row word : Nat) (cw : BitVec 137) : (State.storeWord s b row word cw).ports = s.ports := by
  unfold State.storeWord
  simp
  (repeat' split) <;> simp

@[simp] theorem State.trackSticky_ports (s : State) (b : Bank) (row word : Nat) (syn : BitVec 9) (position : Nat) (inj : Bool) : (State.trackSticky s b row word syn position inj).ports = s.ports := by
  unfold State.trackSticky
  simp

@[simp] theorem State.raiseBucket_ports (s : State) (b : Bank) (inj : Bool) : (State.raiseBucket s b inj).ports = s.ports := by
  unfold State.raiseBucket
  simp

@[simp] theorem State.countClass_ports (s : State) (b : Bank) (row word : Nat) (syn : BitVec 9) (inj : Bool) (c : EccClass) :
    (s.countClass b row word syn inj c).ports = s.ports := by
  unfold State.countClass; split <;> simp

@[simp] theorem State.readWord_ports (s : State) (b : Bank) (row word : Nat) : (State.readWord s b row word).1.ports = s.ports := by
  unfold State.readWord
  simp
  intro _
  split <;> simp

@[simp] theorem State.flushEntry_ports (s : State) (b : Bank) (e : MergeEntry) : (State.flushEntry s b e).ports = s.ports := by
  unfold State.flushEntry
  simp

@[simp] theorem State.fence_ports (s : State) (b : Bank) : (State.fence s b).ports = s.ports := by
  unfold State.fence
  simp

@[simp] theorem State.writePartial_ports (s : State) (b : Bank) (row word : Nat) (bytes : BitVec 128) (mask : BitVec 16) : (State.writePartial s b row word bytes mask).ports = s.ports := by
  unfold State.writePartial
  simp
  (repeat' split) <;> simp

@[simp] theorem State.writeFull_ports (s : State) (b : Bank) (row word : Nat) (data : BitVec 128) : (State.writeFull s b row word data).ports = s.ports := by
  unfold State.writeFull
  simp

@[simp] theorem State.fillBank_ports (s : State) (b : Bank) : (State.fillBank s b).ports = s.ports := by
  unfold State.fillBank
  simp

@[simp] theorem State.clearBank_ports (s : State) (b : Bank) : (State.clearBank s b).ports = s.ports := by
  unfold State.clearBank
  first
  | (simp; done)
  | (simp; (repeat' split) <;> (simp; done); done)
  | ((repeat' split) <;> (simp; done); done)
  | (simp only []; (repeat' split) <;> (simp; done); done)

@[simp] theorem State.mapRetired_ports (s : State) (b : Bank) (row : Nat) : (State.mapRetired s b row).ports = s.ports := by
  unfold State.mapRetired
  (repeat' split) <;> simp

@[simp] theorem State.closeBank_ports (s : State) (b : Bank) : (State.closeBank s b).ports = s.ports := by
  unfold State.closeBank
  simp

@[simp] theorem State.applyRows_ports (s : State) (which : Bank → Bool) : (State.applyRows s which).ports = s.ports := by
  unfold State.applyRows
  simp

@[simp] theorem State.riseDomain_ports (s : State) (d : Fin 25) : (State.riseDomain s d).ports = s.ports := by
  unfold State.riseDomain
  simp

@[simp] theorem State.wakeBank_ports (s : State) (b : Bank) : (State.wakeBank s b).ports = s.ports := by
  unfold State.wakeBank
  first
  | (simp; done)
  | (simp; (repeat' split) <;> (simp; done); done)
  | ((repeat' split) <;> (simp; done); done)
  | (simp only []; (repeat' split) <;> (simp; done); done)

@[simp] theorem writeRing_ports (n : Nat) (rows : List (Bank × Nat)) (pos : Nat) (bytes : List Byte) (s : State) :
    (writeRing n rows pos bytes s).ports = s.ports := by
  induction n generalizing pos bytes s with
  | zero => rfl
  | succ n ih =>
    cases bytes with
    | nil => rfl
    | cons x xs =>
      unfold writeRing
      split
      · rfl
      · simp [ih]

@[simp] theorem State.readForDelivery_ports (s : State) (b : Bank) (row word : Nat) : (State.readForDelivery s b row word).1.ports = s.ports := by
  unfold State.readForDelivery
  simp

@[simp] theorem readRing_ports (n : Nat) (rows : List (Bank × Nat)) (pos len : Nat) (acc : List Byte) (s : State) :
    (readRing n rows pos len acc s).1.ports = s.ports := by
  induction n generalizing pos len acc s with
  | zero => rfl
  | succ n ih =>
    unfold readRing
    split
    · rfl
    · split
      · rfl
      · simp [ih]

@[simp] theorem State.ringWrite_ports (s : State) (o : RowOwner) (bytes : List Byte) : (State.ringWrite s o bytes).ports = s.ports := by
  unfold State.ringWrite
  split <;> simp

@[simp] theorem State.ringPeek_ports (s : State) (o : RowOwner) (off len : Nat) : (State.ringPeek s o off len).1.ports = s.ports := by
  unfold State.ringPeek
  split <;> simp

@[simp] theorem State.ringDrop_ports (s : State) (o : RowOwner) (len : Nat) : (State.ringDrop s o len).ports = s.ports := by
  unfold State.ringDrop
  simp

@[simp] theorem State.fenceRing_ports (s : State) (r : Ring) : (State.fenceRing s r).ports = s.ports := by
  unfold State.fenceRing
  first
  | (simp; done)
  | (simp; (repeat' split) <;> (simp; done); done)
  | ((repeat' split) <;> (simp; done); done)
  | (simp only []; (repeat' split) <;> (simp; done); done)

@[simp] theorem State.ringClear_ports (s : State) (o : RowOwner) : (State.ringClear s o).ports = s.ports := by
  unfold State.ringClear
  (repeat' split) <;> simp


@[simp] theorem State.makeReady_ports (s : State) (p : Port) (a : Byte) (n : Nat) : (s.makeReady p a n).ports = s.ports := by
  unfold State.makeReady State.erdy
  dsimp only
  (repeat' split) <;> rfl

@[simp] theorem State.releaseHalf_ports (s : State) (p : Port) (a : Byte) : (s.releaseHalf p a).ports = s.ports := by
  unfold State.releaseHalf
  (repeat' split) <;> simp <;> rfl

@[simp] theorem State.releaseHalves_ports (s : State) (p : Port) : (s.releaseHalves p).ports = s.ports := by
  unfold State.releaseHalves
  split
  · rfl
  · simp

@[simp] theorem State.dropCtl_ports (s : State) (p : Port) : (s.dropCtl p).ports = s.ports := by
  unfold State.dropCtl State.reopenStopped
  split
  · rfl
  · show (((s.ringClear (.control p)).updLift p _).updLift p _).ports = _
    exact State.ringClear_ports _ _

/-- What a port shows once its drain began; the bytes dropped at once are counted. -/
theorem beginDrain_get (s : State) (p : Port) (r : Reason) (h : (s.ports.get p).st ≠ .draining) :
    ((s.beginDrain p r).ports.get p) = { s.ports.get p with
      st := .draining, reason := some r, tt := [], resumeK := false, discarded := (s.ports.get p).discarded + s.droppedByDrain p } := by
  unfold State.beginDrain
  rw [if_neg h]
  dsimp only
  rw [State.updPort_ports, Tab.get_upd_same, State.updLift_ports, State.dropCtl_ports, State.releaseHalves_ports]

/-- The drain of a presented port begins with what is to follow it noted (Table 3.4). -/
theorem drainThen_presented (s : State) (p : Port) (r : Reason) (f : PortState → PortState) (h1 : (f (s.ports.get p)).presented = true)
    (h2 : (f (s.ports.get p)).st ≠ .probe ∨ r ≠ .mode) (h3 : (f (s.ports.get p)).st ≠ .disabling) (h4 : (f (s.ports.get p)).st ≠ .draining) :
    s.drainThen p r f = (s.updPort p f).beginDrain p r := by
  unfold State.drainThen
  have e : (s.updPort p f).ports.get p = f (s.ports.get p) := Tab.get_upd_same _ _ _
  dsimp only
  rw [e, h1, if_neg (by simp [h3, h4]), if_pos (by rcases h2 with h2 | h2 <;> simp [h2])]

end Sys2Proof.Machine
end

