-- ==== Sys2Proof/Laws/Settle.lean ====
section
/-! SUPPORT. What ends a command: where nothing waits it changes nothing; and how a VCP command is taken from its session's empty store. -/

set_option Elab.async false

namespace Sys2Proof.Machine

open Sys2Proof

theorem forAll_same {α : Type} (l : List α) (f : State → α → State) (s : State) (h : ∀ s a, f s a = s) : forAll l f s = s := by
  unfold forAll
  induction l generalizing s with
  | nil => rfl
  | cons a l ih => rw [List.foldl_cons, h, ih]

theorem forAll_nil {α : Type} (f : State → α → State) (s : State) : forAll [] f s = s := rfl

/-- With an empty inbox there is nothing to collect. -/
theorem collect_calm (s : State) (h : s.fault.inbox = []) : s.collect = s := by
  show collectLoop 8192 s = s
  unfold collectLoop
  rw [h]

theorem mailboxReady_calm (s : State) (h : ∀ m, (s.mailboxes.get m).cmdBusy = false) : s.mailboxReady = none := by
  unfold State.mailboxReady
  simp [h]

theorem takeRepeats_idle (x : Session) (h : x.store = []) : x.takeRepeats = x := by
  unfold Session.takeRepeats
  split <;> simp [h]

theorem State.takeRepeats_calm (s : State) (h : ∀ i, (s.sessions.get i).takeRepeats = s.sessions.get i) : s.takeRepeats = s := by
  unfold State.takeRepeats
  simp [h]

theorem next_empty (x : Session) (h : x.store = []) : x.next = none := by
  unfold Session.next
  simp [h]

theorem ready_calm (s : State) (h : ∀ i, (s.sessions.get i).store = []) : s.ready = none := by
  unfold State.ready
  generalize List.finRange 19 = l
  induction l with
  | nil => rfl
  | cons i l ih => simp only [List.foldl_cons, next_empty _ (h i)]; exact ih

/-- Where nothing waits, nothing runs. -/
theorem pumpLoop_calm (n : Nat) (s : State) (h : s.calm) : pumpLoop n s = s := by
  cases n with
  | zero => rfl
  | succ n =>
    unfold pumpLoop
    rw [mailboxReady_calm s h.2.2]
    dsimp only
    rw [State.takeRepeats_calm s (fun i => takeRepeats_idle _ (h.2.1 i)), ready_calm s h.2.1]
    split <;> rfl

/-- No host is newly waited for: each MF that waits for its host did so before, with no event issued since. -/
def State.sameWaits (s before : State) : Prop := ∀ k, s.mfWakeDue k = true →
  before.mfWakeDue k = true ∧ (s.sessions.get (mfSession k)).nextEseq = (before.sessions.get (mfSession k)).nextEseq

theorem wakeHosts_same (s before : State) (h : s.sameWaits before) : s.wakeHosts before = s := by
  unfold State.wakeHosts
  rw [List.filter_eq_nil_iff.mpr]
  · rfl
  · intro k _
    cases hd : s.mfWakeDue k with
    | false => simp
    | true =>
      obtain ⟨h1, h2⟩ := h k hd
      simp [h1, h2]

/-- What ends a command changes nothing where nothing waits and no event was issued. -/
theorem endWith_calm (n : Nat) (s before : State) (h : s.calm) (he : s.sameWaits before) : s.endWith n before = s := by
  unfold State.endWith
  rw [collect_calm s h.1, pumpLoop_calm n s h, wakeHosts_same s before he]

theorem finish_calm (s before : State) (h : s.calm) (he : s.sameWaits before) : s.finish before = s := endWith_calm 4096 s before h he

/-! ## Taking a VCP command -/

/-- The store of one session alone holds one command: it is the one that runs next. -/
theorem ready_single (s : State) (i : Sess) (c : Cmd) (hi : c.msg.session = i) (hc : (s.sessions.get i).next = some c)
    (ho : ∀ j, j ≠ i → (s.sessions.get j).store = []) (hx : ∀ j, (s.sessions.get j).executing = none) : s.ready = some c := by
  have hm : s.mayStart c = true := by
    unfold State.mayStart
    rw [List.all_eq_true]
    intro j _
    by_cases hj : j = i
    · simp [hj, hi]
    · simp [next_empty _ (ho j hj), hx j]
  have key : ∀ (l : List Sess) (b : Option Cmd), (b = none ∨ b = some c) → (i ∈ l ∨ b = some c) →
      l.foldl (fun best i => match (s.sessions.get i).next with
        | some d => if s.mayStart d && (best.map (fun (e : Cmd) => decide (d.arrival < e.arrival))).getD true then some d else best
        | none => best) b = some c := by
    intro l
    induction l with
    | nil => intro b _ h; simpa using h
    | cons j l ih =>
      intro b hb h
      rw [List.foldl_cons]
      by_cases hj : j = i
      · subst hj
        simp only [hc]
        apply ih
        · split
          · exact .inr rfl
          · exact hb
        · right
          rcases hb with rfl | rfl
          · simp [hm]
          · simp
      · simp only [next_empty _ (ho j hj)]
        apply ih _ hb
        rcases h with h | h
        · left
          rcases List.mem_cons.mp h with h | h
          · exact absurd h.symm hj
          · exact h
        · exact .inr h
  exact key _ none (.inl rfl) (.inl (List.mem_finRange i))

/-- A mode in which a doorbell wakes nothing. -/
theorem wake_idle (s : State) (code : Nat) (h1 : s.mode ≠ .night) (h2 : s.mode ≠ .midnight) (h3 : s.mode ≠ .dusk) : s.wake code = s := by
  unfold State.wake
  split <;> first | contradiction | rfl

/-- A session that hears a message has it alone in its store when firmware looks. -/
theorem pump_heard (s : State) (opcode : BitVec 16) (m : VcpMsg) (h : s.hears m) :
    run (fun s => s.submit opcode m) s =
      .next (((s.begin.arrive opcode m none).runCmd (s.cmdAt opcode m)).endWith 4095 s.begin) := by
  obtain ⟨⟨⟨hi, hs, hb⟩, hx⟩, hv, hd, hn, ht, -, -, -, -⟩ := h
  have hm : s.mode ≠ .midnight := by
    intro e; simp [State.serving, e] at hv
  have hsub : s.begin.submit opcode m = s.begin.arrive opcode m none := by
    unfold State.submit
    rw [show s.begin.transportOpen m = s.transportOpen m from rfl, ht, if_pos rfl]
    split
    · exact wake_idle _ _ hn hm hd
    · rfl
  have hst : ∀ j, j ≠ m.session → ((s.begin.arrive opcode m none).sessions.get j).store = [] := by
    intro j hj
    unfold State.arrive
    rw [State.updSession_sessions, Tab.get_upd_other _ _ _ _ (Ne.symm hj)]
    exact hs j
  have hex : ∀ j, ((s.begin.arrive opcode m none).sessions.get j).executing = none := by
    intro j
    unfold State.arrive
    rw [State.updSession_sessions, Tab.get_upd]
    split
    · exact hx m.session
    · exact hx j
  have hown : ((s.begin.arrive opcode m none).sessions.get m.session).store = [s.cmdAt opcode m] := by
    unfold State.arrive
    rw [State.updSession_sessions, Tab.get_upd_same]
    show (s.sessions.get m.session).store ++ _ = _
    rw [hs]; rfl
  have hnext : ((s.begin.arrive opcode m none).sessions.get m.session).next = some (s.cmdAt opcode m) := by
    unfold Session.next
    rw [hex, hown]
    simp only [Option.isSome_none, Bool.false_eq_true, if_false, List.head?_cons]
    split
    · rw [List.find?_cons]
      split <;> simp
    · simp
  unfold run
  dsimp only
  rw [hsub]
  show Host.Outcome.next ((pumpLoop 4096 (s.begin.arrive opcode m none).collect).wakeHosts s.begin) = _
  rw [collect_calm (s.begin.arrive opcode m none) hi]
  unfold pumpLoop
  rw [show (s.begin.arrive opcode m none).serving = s.serving from rfl, hv, mailboxReady_calm (s.begin.arrive opcode m none) hb]
  dsimp only
  rw [State.takeRepeats_calm, ready_single _ m.session (s.cmdAt opcode m) rfl hnext hst hex]
  · rfl
  · intro j
    unfold Session.takeRepeats
    rw [hex]

/-- Out of the store again, an arrival leaves its session as it was. -/
theorem erase_heard (s : State) (opcode : BitVec 16) (m : VcpMsg) (h : (s.sessions.get m.session).store = []) :
    ((s.begin.arrive opcode m none).updSession m.session (fun x => { x with store := x.store.erase (s.cmdAt opcode m) })) = s.heard := by
  have e : ((s.sessions.upd m.session (fun x => { x with store := x.store ++ [s.cmdAt opcode m] })).upd m.session
        (fun x => { x with store := x.store.erase (s.cmdAt opcode m) })) = s.sessions := by
    rw [Tab.upd_upd_same]
    apply Tab.upd_same
    simp only [h, List.nil_append, List.erase_cons_head]
    rw [← h]
  exact congrArg (fun t => ({ s.begin with arrivals := s.arrivals + 1, sessions := t } : State)) e

/-- A heard command meets its session. -/
theorem runVcp_heard (s : State) (opcode : BitVec 16) (m : VcpMsg) (h : s.hears m) :
    runVcp opcode m s = .next (((s.begin.arrive opcode m none).runCmd (s.cmdAt opcode m)).endWith 4095 s.begin) := pump_heard s opcode m h

/-- The next command of an open session executes, or is objected to, on the state that taking it leaves. -/
theorem runVcp_next (s : State) (opcode : BitVec 16) (m : VcpMsg) (h : s.hears m) (hop : (s.sessions.get m.session).isOpen = true)
    (hcs : m.cseq = (s.sessions.get m.session).lastCseq + 1) (ho : opcode ≠ 0x0001 ∨ 1 < get8 m.payload 0) (hy : opcode ≠ 0x0002) :
    runVcp opcode m s = .next (((s.taken opcode m).execute (s.cmdAt opcode m) true).endWith 4095 s.begin) := by
  rw [runVcp_heard s opcode m h]
  have hco : cmdOpens (s.cmdAt opcode m) = none := by
    unfold cmdOpens
    rcases ho with ho | ho
    · rw [if_neg]; exact ho
    · have : (s.cmdAt opcode m).msg.payload = m.payload := rfl
      rw [this]
      split
      · rw [if_neg (by omega), if_neg (by omega)]
      · rfl
  unfold State.runCmd
  dsimp only
  rw [hco]
  dsimp only
  rw [show (s.cmdAt opcode m).msg.session = m.session from rfl, erase_heard s opcode m (h.1.1.2.1 m.session)]
  rw [show s.heard.sessions = s.sessions from rfl, hop]
  rw [if_neg (by simp), if_neg (by exact hy), if_pos (by exact hcs)]
  rfl

/-- The next command of an open session that something objects to is answered with the objection, and does nothing else (R374). -/
theorem runVcp_objected (s : State) (opcode : BitVec 16) (m : VcpMsg) (st : Byte) (h : s.hears m) (hop : (s.sessions.get m.session).isOpen = true)
    (hcs : m.cseq = (s.sessions.get m.session).lastCseq + 1) (ho : opcode ≠ 0x0001 ∨ 1 < get8 m.payload 0) (hy : opcode ≠ 0x0002)
    (hst : (s.taken opcode m).objection (s.cmdAt opcode m) = some st) :
    runVcp opcode m s = .next ((s.taken opcode m).answers s opcode m st []) := by
  rw [runVcp_next s opcode m h hop hcs ho hy]
  unfold State.execute
  rw [hst]
  rfl

/-- Nothing objects to a command that its session takes, whose row fits its target, in its scope, its domain up. -/
theorem objection_none (s : State) (opcode : BitVec 16) (m : VcpMsg) (r : CmdRow) (t : Target) (h : s.takes opcode m)
    (hr : cmdRow opcode = some r) (ht : decodeTarget m.target = some t) (hf : r.fits t = true) (hs : s.inScope m.session r t = true)
    (hd : ∀ d, neededDomain opcode.toNat t = some d → s.domains.get d = .on) :
    (s.taken opcode m).objection (s.cmdAt opcode m) = none := by
  obtain ⟨⟨-, -, -, -, -, hfl, hst, hl, hsh⟩, -, -, hb, hm⟩ := h
  have hs' : (s.taken opcode m).inScope m.session r t = s.inScope m.session r t := by
    have hg : (s.taken opcode m).isSteward m.session = s.isSteward m.session := by
      unfold State.isSteward State.taken
      simp
    unfold State.inScope
    rw [hg]; rfl
  unfold State.objection
  have e1 : (s.cmdAt opcode m).bad = none := rfl
  have e2 : (s.cmdAt opcode m).msg = m := rfl
  have e3 : (s.cmdAt opcode m).opcode = opcode := rfl
  have e4 : (s.taken opcode m).mode = s.mode := rfl
  have e5 : (s.taken opcode m).fw = s.fw := rfl
  have e6 : (s.taken opcode m).modeAdmits opcode.toNat = s.modeAdmits opcode.toNat := rfl
  have e7 : (s.taken opcode m).domains = s.domains := rfl
  simp only [e1, e2, e3, e4, e5, e6, e7, hr, ht, hf, hs', hs, hm, hfl, hst]
  have b1 : ¬ (1024 < m.payload.length) := by omega
  have b2 : (s.mode == .safeHold && !isOob m.session) = false := by
    by_cases hq : s.mode = .safeHold
    · simp [hsh hq]
    · simp [hq]
  have b3 : (s.fw.bootFailed && !bootRomServes opcode.toNat) = false := by
    cases hq : s.fw.bootFailed
    · rfl
    · simp [hb hq]
  simp only [b1, b2, b3, if_false, Bool.false_eq_true]
  cases hq : neededDomain opcode.toNat t with
  | none => rfl
  | some d => simp [hd d hq]

theorem runOp_up (s : State) (c : Cmd) (r : CmdRow) (t : Target) (hr : cmdRow c.opcode = some r) (ht : decodeTarget c.msg.target = some t)
    (hf : c.msg.flags = 0) (hd : ∀ d, neededDomain c.opcode.toNat t = some d → s.domains.get d = .on) :
    s.runOp c = r.run c.msg t s := by
  have hw : s.wakeFor c.opcode.toNat t = s := by
    unfold State.wakeFor
    cases hq : neededDomain c.opcode.toNat t with
    | none => rfl
    | some d => simp [hd d hq]
  have hi : s.interim c = s := by
    unfold State.interim
    rw [hf]; rfl
  unfold State.runOp
  rw [hr, ht]
  dsimp only
  rw [hw, hi]
  split <;> rfl

/-- A command that an open session takes runs its row on the state that taking it leaves, and its reply is given. -/
theorem runVcp_taken (s : State) (opcode : BitVec 16) (m : VcpMsg) (r : CmdRow) (t : Target) (h : s.takes opcode m)
    (hr : cmdRow opcode = some r) (ht : decodeTarget m.target = some t) (hf : r.fits t = true) (hs : s.inScope m.session r t = true)
    (hd : ∀ d, neededDomain opcode.toNat t = some d → s.domains.get d = .on) (ho : opcode ≠ 0x0001 ∨ 1 < get8 m.payload 0) (hy : opcode ≠ 0x0002) :
    runVcp opcode m s =
      .next (((r.run m t (s.taken opcode m)).1.takeReply (s.cmdAt opcode m) true (r.run m t (s.taken opcode m)).2).endWith 4095 s.begin) := by
  rw [runVcp_next s opcode m h.1 h.2.1 h.2.2.1 ho hy]
  unfold State.execute
  rw [objection_none s opcode m r t h hr ht hf hs hd]
  dsimp only
  rw [runOp_up (s.taken opcode m) (s.cmdAt opcode m) r t hr ht h.1.2.2.2.2.2.1 hd]
  rfl

/-- The same, where the row answers with one final response. -/
theorem runVcp_done (s u : State) (opcode : BitVec 16) (m : VcpMsg) (r : CmdRow) (t : Target) (st : Byte) (b : List Byte) (h : s.takes opcode m)
    (hr : cmdRow opcode = some r) (ht : decodeTarget m.target = some t) (hf : r.fits t = true) (hs : s.inScope m.session r t = true)
    (hd : ∀ d, neededDomain opcode.toNat t = some d → s.domains.get d = .on) (ho : opcode ≠ 0x0001 ∨ 1 < get8 m.payload 0) (hy : opcode ≠ 0x0002)
    (hrun : r.run m t (s.taken opcode m) = (u, .done st b)) :
    runVcp opcode m s = .next (u.answers s opcode m st b) := by
  rw [runVcp_taken s opcode m r t h hr ht hf hs hd ho hy, hrun]
  rfl

/-- The same, where the row answers in its own way. -/
theorem runVcp_answered (s u : State) (opcode : BitVec 16) (m : VcpMsg) (r : CmdRow) (t : Target) (h : s.takes opcode m)
    (hr : cmdRow opcode = some r) (ht : decodeTarget m.target = some t) (hf : r.fits t = true) (hs : s.inScope m.session r t = true)
    (hd : ∀ d, neededDomain opcode.toNat t = some d → s.domains.get d = .on) (ho : opcode ≠ 0x0001 ∨ 1 < get8 m.payload 0) (hy : opcode ≠ 0x0002)
    (hrun : r.run m t (s.taken opcode m) = (u, .answered)) :
    runVcp opcode m s = .next (u.endWith 4095 s.begin) := by
  rw [runVcp_taken s opcode m r t h hr ht hf hs hd ho hy, hrun]
  rfl

/-- The same, where the row's answer comes later. -/
theorem runVcp_waits (s u : State) (opcode : BitVec 16) (m : VcpMsg) (r : CmdRow) (t : Target) (w : Wait) (h : s.takes opcode m)
    (hr : cmdRow opcode = some r) (ht : decodeTarget m.target = some t) (hf : r.fits t = true) (hs : s.inScope m.session r t = true)
    (hd : ∀ d, neededDomain opcode.toNat t = some d → s.domains.get d = .on) (ho : opcode ≠ 0x0001 ∨ 1 < get8 m.payload 0) (hy : opcode ≠ 0x0002)
    (hrun : r.run m t (s.taken opcode m) = (u, .wait w)) :
    runVcp opcode m s =
      .next ((u.updSession m.session (fun x => { x with executing := some (s.cmdAt opcode m, w) })).endWith 4095 s.begin) := by
  rw [runVcp_taken s opcode m r t h hr ht hf hs hd ho hy, hrun]
  rfl

/-- A command that reaches its target is in scope there, unless its row asks for a steward. -/
theorem scope_reaches (s : State) (opcode : BitVec 16) (m : VcpMsg) (t : Target) (r : CmdRow) (h : s.reaches opcode m t)
    (hs : r.scope = .steward → s.isSteward m.session = true) : s.inScope m.session r t = true := by
  unfold State.inScope
  cases e : r.scope with
  | any => rfl
  | own => exact h.2.2.1
  | steward => exact hs e

theorem reaches_done (s u : State) (opcode : BitVec 16) (m : VcpMsg) (r : CmdRow) (t : Target) (st : Byte) (b : List Byte)
    (h : s.reaches opcode m t) (hr : cmdRow opcode = some r) (hs : r.scope = .steward → s.isSteward m.session = true) (hf : r.fits t = true)
    (ho : opcode ≠ 0x0001 ∧ opcode ≠ 0x0002) (hrun : r.run m t (s.taken opcode m) = (u, .done st b)) :
    runVcp opcode m s = .next (u.answers s opcode m st b) :=
  runVcp_done s u opcode m r t st b h.1 hr h.2.1 hf (scope_reaches s opcode m t r h hs) h.2.2.2 (.inl ho.1) ho.2 hrun

theorem reaches_waits (s u : State) (opcode : BitVec 16) (m : VcpMsg) (r : CmdRow) (t : Target) (w : Wait)
    (h : s.reaches opcode m t) (hr : cmdRow opcode = some r) (hs : r.scope = .steward → s.isSteward m.session = true) (hf : r.fits t = true)
    (ho : opcode ≠ 0x0001 ∧ opcode ≠ 0x0002) (hrun : r.run m t (s.taken opcode m) = (u, .wait w)) :
    runVcp opcode m s =
      .next ((u.updSession m.session (fun x => { x with executing := some (s.cmdAt opcode m, w) })).endWith 4095 s.begin) :=
  runVcp_waits s u opcode m r t w h.1 hr h.2.1 hf (scope_reaches s opcode m t r h hs) h.2.2.2 (.inl ho.1) ho.2 hrun

theorem reaches_answered (s u : State) (opcode : BitVec 16) (m : VcpMsg) (r : CmdRow) (t : Target)
    (h : s.reaches opcode m t) (hr : cmdRow opcode = some r) (hs : r.scope = .steward → s.isSteward m.session = true) (hf : r.fits t = true)
    (ho : opcode ≠ 0x0001 ∧ opcode ≠ 0x0002) (hrun : r.run m t (s.taken opcode m) = (u, .answered)) :
    runVcp opcode m s = .next (u.endWith 4095 s.begin) :=
  runVcp_answered s u opcode m r t h.1 hr h.2.1 hf (scope_reaches s opcode m t r h hs) h.2.2.2 (.inl ho.1) ho.2 hrun

end Sys2Proof.Machine
end

