-- ==== Sys2Proof/Laws/Rows.lean ====
section
/-! SUPPORT. Where a row of the opcode table acts: what a run of an effect answers. -/

set_option Elab.async false

namespace Sys2Proof.Machine

open Sys2Proof

/-- A run of an effect: the wires cleared, the effect, then what ends every command. -/
theorem run_eq (f : State → State) (s : State) : run f s = .next ((f s.begin).finish s.begin) := rfl

/-- A row of AON or of a power die acts in every mode but Off. -/
theorem run_ifAon (f : State → State) (s : State) (h : s.mode ≠ .off) : run (ifAon f) s = .next ((f s.begin).finish s.begin) := by
  rw [run_eq]
  unfold ifAon
  rw [if_neg (by exact h)]

/-- A row of the always-on domain acts once PORST_N is released. -/
theorem run_ifPorst (f : State → State) (s : State) (h : s.aonUp = true) : run (ifPorst f) s = .next ((f s.begin).finish s.begin) := by
  rw [run_eq]
  unfold ifPorst
  rw [if_pos (by exact h)]

/-- A row of a switched domain acts where the domain is up. -/
theorem run_ifUp (f : State → State) (s : State) (h : s.switchedUp) : run (ifUp f) s = .next ((f s.begin).finish s.begin) := by
  rw [run_eq]
  unfold ifUp
  obtain ⟨h1, h2, h3⟩ := h
  rw [if_neg (by simp [h1, h2, h3])]

/-- A row of a switched domain does nothing where the domain is down. -/
theorem run_ifUp_down (f : State → State) (s : State) (h : ¬ s.switchedUp) : run (ifUp f) s = .next (s.begin.finish s.begin) := by
  rw [run_eq]
  unfold ifUp
  rw [if_pos]
  unfold State.switchedUp at h
  by_cases h1 : s.mode = .off
  · simp [h1]
  · by_cases h2 : s.mode = .midnight
    · simp [h2]
    · simp [h1, h2] at h ⊢
      exact h

/-- In daytime a wake source does nothing. -/
theorem wake_day (s : State) (code : Nat) (h : s.daytime) : s.wake code = s := wake_idle s code h.1 h.2.1 h.2.2

/-- In daytime what waits for a wake takes effect at once. -/
theorem afterWake_day (s : State) (code : Nat) (f : State → State) (h : s.daytime) : s.afterWake code f = f s := by
  unfold State.afterWake
  rw [wake_day s _ h]
  exact if_neg h.1

/-- In daytime what a host signals takes effect at once. -/
theorem hostWakes_day (s : State) (k : Part) (f : State → State) (h : s.daytime) : s.hostWakes k f = f s := by
  unfold State.hostWakes
  rw [afterWake_day s _ f h]
  split <;> rfl

/-- In daytime what the device signals upstream takes effect at once. -/
theorem deviceResumes_day (s : State) (k : Part) (f : State → State) (h : s.daytime) : s.deviceResumes k f = f s := by
  unfold State.deviceResumes
  rw [afterWake_day s _ f h]
  split <;> rfl

/-- In daytime a device's remote wake takes effect at once. -/
theorem deviceWakes_day (s : State) (p : Port) (f : State → State) (h : s.daytime) : s.deviceWakes p f = f s := by
  unfold State.deviceWakes
  rw [afterWake_day s _ f h]
  split <;> rfl

/-- In daytime a slot's change is no more than the change. -/
theorem slotWakes_day (s : State) (k : Slot) (f : State → State) (h : (f s).daytime) : s.slotWakes k f = f s := by
  unfold State.slotWakes
  rw [wake_day _ _ h]
  split <;> rfl

/-- In daytime a port's change is no more than the change. -/
theorem portWakes_day (s : State) (p : Port) (code : Nat) (f : State → State) (h : (f s).daytime) : s.portWakes p code f = f s := by
  unfold State.portWakes
  rw [wake_day _ _ h]
  split <;> rfl

/-- In daytime an upstream port's change is no more than the change. -/
theorem attachWakes_day (s : State) (k : Part) (f : State → State) (h : (f s).daytime) : s.attachWakes k f = f s := by
  unfold State.attachWakes
  rw [wake_day _ _ h]
  split <;> rfl

end Sys2Proof.Machine
end

