-- ==== Sys2Proof/Laws/Mode.lean ====
section
/-! SUPPORT. Which operations leave the operating mode as it is. -/

set_option Elab.async false

namespace Sys2Proof.Machine

open Sys2Proof

@[simp] theorem mode_ite (c : Prop) [Decidable c] (a b : State) : (if c then a else b).mode = if c then a.mode else b.mode := by split <;> rfl

@[simp] theorem mode_ite1 {α : Type} (c : Prop) [Decidable c] (a b : State × α) : (if c then a else b).1.mode = if c then a.1.mode else b.1.mode := by split <;> rfl

@[simp] theorem forAll_mode {α : Type} (l : List α) (f : State → α → State) (s : State) (h : ∀ s a, (f s a).mode = s.mode) : (forAll l f s).mode = s.mode := by
  unfold forAll
  induction l generalizing s with
  | nil => rfl
  | cons a l ih => rw [List.foldl_cons, ih, h]

@[simp] theorem State.fillRsp_mode (s : State) (m : Mbox) : (State.fillRsp s m).mode = s.mode := by
  unfold State.fillRsp
  simp
  (repeat' split) <;> simp

@[simp] theorem State.fillEvt_mode (s : State) (m : Mbox) : (State.fillEvt s m).mode = s.mode := by
  unfold State.fillEvt
  simp
  (repeat' split) <;> simp

@[simp] theorem State.fillMailbox_mode (s : State) (m : Mbox) : (State.fillMailbox s m).mode = s.mode := by
  unfold State.fillMailbox
  simp

@[simp] theorem State.respond_mode (s : State) (i : Sess) (r : Rsp) : (State.respond s i r).mode = s.mode := by
  unfold State.respond
  (repeat' split) <;> simp

@[simp] theorem State.deliver_mode (s : State) (e : EventOut) (i : Sess) : (State.deliver s e i).mode = s.mode := by
  unfold State.deliver
  (repeat' split) <;> simp

@[simp] theorem State.issue_mode (s : State) (e : EventOut) : (State.issue s e).mode = s.mode := by
  unfold State.issue
  simp

@[simp] theorem State.issueHeld_mode (s : State) : (State.issueHeld s).mode = s.mode := by
  unfold State.issueHeld
  simp

@[simp] theorem State.portEvent_mode (s : State) (p : Port) (code : Nat) (payload : List Byte) : (State.portEvent s p code payload).mode = s.mode := by
  unfold State.portEvent
  simp

@[simp] theorem State.slotEvent_mode (s : State) (k : Slot) (code : Nat) (payload : List Byte) : (State.slotEvent s k code payload).mode = s.mode := by
  unfold State.slotEvent
  simp

@[simp] theorem State.bankEvent_mode (s : State) (b : Bank) (code : Nat) (payload : List Byte) : (State.bankEvent s b code payload).mode = s.mode := by
  unfold State.bankEvent
  simp

@[simp] theorem State.complete_mode (s : State) (i : Sess) (status : Byte) (payload : List Byte) : (State.complete s i status payload).mode = s.mode := by
  unfold State.complete
  simp
  (repeat' split) <;> simp

@[simp] theorem State.answer_mode (s : State) (w : Wait) (status : Byte) (payload : List Byte) : (State.answer s w status payload).mode = s.mode := by
  unfold State.answer
  simp

@[simp] theorem refuse_mode (s : State) (status : Byte) : (refuse s status).1.mode = s.mode := by
  unfold refuse
  simp

@[simp] theorem ok_mode (s : State) : (ok s).1.mode = s.mode := by
  unfold ok
  simp

@[simp] theorem State.writeWord_mode (s : State) (p : Port) : (State.writeWord s p).mode = s.mode := by
  unfold State.writeWord
  simp

@[simp] theorem State.refreshWord_mode (s : State) (p : Port) : (State.refreshWord s p).mode = s.mode := by
  unfold State.refreshWord
  simp

@[simp] theorem State.startDischarge_mode (s : State) (p : Port) : (State.startDischarge s p).mode = s.mode := by
  unfold State.startDischarge
  simp

@[simp] theorem State.contractEvent_mode (s : State) (p : Port) : (State.contractEvent s p).mode = s.mode := by
  unfold State.contractEvent
  simp

@[simp] theorem State.setRp_mode (s : State) (p : Port) : (State.setRp s p).mode = s.mode := by
  unfold State.setRp
  simp

@[simp] theorem State.sendOutcome_mode (s : State) (p : Port) (code : Byte) : (State.sendOutcome s p code).mode = s.mode := by
  unfold State.sendOutcome
  simp

@[simp] theorem State.endSequences_mode (s : State) (p : Port) (code : Byte) : (State.endSequences s p code).mode = s.mode := by
  unfold State.endSequences
  first
  | (simp; done)
  | (simp; (repeat' split) <;> (simp; done); done)
  | ((repeat' split) <;> (simp; done); done)
  | (simp only []; (repeat' split) <;> (simp; done); done)

@[simp] theorem State.protocolReset_mode (s : State) (p : Port) (code : Byte) : (State.protocolReset s p code).mode = s.mode := by
  unfold State.protocolReset
  first
  | (simp; done)
  | (simp; (repeat' split) <;> (simp; done); done)
  | ((repeat' split) <;> (simp; done); done)
  | (simp only []; (repeat' split) <;> (simp; done); done)

@[simp] theorem State.endContract_mode (s : State) (p : Port) (code : Byte) : (State.endContract s p code).mode = s.mode := by
  unfold State.endContract
  first
  | (simp; done)
  | (simp; (repeat' split) <;> (simp; done); done)
  | ((repeat' split) <;> (simp; done); done)
  | (simp only []; (repeat' split) <;> (simp; done); done)

@[simp] theorem State.isolateSbu_mode (s : State) (p : Port) : (State.isolateSbu s p).mode = s.mode := by
  unfold State.isolateSbu
  simp

@[simp] theorem State.freeUart_mode (s : State) (p : Port) : (State.freeUart s p).mode = s.mode := by
  unfold State.freeUart
  simp

@[simp] theorem State.bindUart_mode (s : State) (p : Port) : (State.bindUart s p).mode = s.mode := by
  unfold State.bindUart
  simp
  (repeat' split) <;> simp

@[simp] theorem State.setVconn_mode (s : State) (p : Port) (on : Bool) : (State.setVconn s p on).mode = s.mode := by
  unfold State.setVconn
  first
  | (simp; done)
  | (simp; (repeat' split) <;> (simp; done); done)
  | ((repeat' split) <;> (simp; done); done)
  | (simp only []; (repeat' split) <;> (simp; done); done)

@[simp] theorem State.pdTransmit_mode (s : State) (p : Port) (o : PdOut) : (State.pdTransmit s p o).mode = s.mode := by
  unfold State.pdTransmit
  simp

@[simp] theorem State.pdAbandon_mode (s : State) (p : Port) (o : PdOut) : (State.pdAbandon s p o).mode = s.mode := by
  unfold State.pdAbandon
  first
  | (simp; done)
  | (simp; (repeat' split) <;> (simp; done); done)
  | ((repeat' split) <;> (simp; done); done)
  | (simp only []; (repeat' split) <;> (simp; done); done)

@[simp] theorem State.pdSay_mode (s : State) (p : Port) (o : PdOut) : (State.pdSay s p o).mode = s.mode := by
  unfold State.pdSay
  first
  | (simp; done)
  | (simp; (repeat' split) <;> (simp; done); done)
  | ((repeat' split) <;> (simp; done); done)
  | (simp only []; (repeat' split) <;> (simp; done); done)

@[simp] theorem State.pdStart_mode (s : State) (p : Port) (o : PdOut) : (State.pdStart s p o).mode = s.mode := by
  unfold State.pdStart
  simp

@[simp] theorem State.pdIdle_mode (s : State) (p : Port) : (State.pdIdle s p).mode = s.mode := by
  unfold State.pdIdle
  simp
  (repeat' split) <;> simp

@[simp] theorem State.sendCaps_mode (s : State) (p : Port) (only5 : Bool) : (State.sendCaps s p only5).mode = s.mode := by
  unfold State.sendCaps
  simp

@[simp] theorem State.sendSoftReset_mode (s : State) (p : Port) : (State.sendSoftReset s p).mode = s.mode := by
  unfold State.sendSoftReset
  simp

@[simp] theorem State.pdReply_mode (s : State) (p : Port) (bytes : List Byte) (purpose : PdPurpose) (sop : Fin 5) : (State.pdReply s p bytes purpose sop).mode = s.mode := by
  unfold State.pdReply
  simp

@[simp] theorem State.hardResetBegin_mode (s : State) (p : Port) : (State.hardResetBegin s p).mode = s.mode := by
  unfold State.hardResetBegin
  simp

@[simp] theorem State.sendHardReset_mode (s : State) (p : Port) : (State.sendHardReset s p).mode = s.mode := by
  unfold State.sendHardReset
  simp

@[simp] theorem State.hardResetOff_mode (s : State) (p : Port) : (State.hardResetOff s p).mode = s.mode := by
  unfold State.hardResetOff
  simp

@[simp] theorem State.hardResetSafe_mode (s : State) (p : Port) : (State.hardResetSafe s p).mode = s.mode := by
  unfold State.hardResetSafe
  simp

@[simp] theorem State.hardResetReturn_mode (s : State) (p : Port) : (State.hardResetReturn s p).mode = s.mode := by
  unfold State.hardResetReturn
  simp

@[simp] theorem State.acceptRequest_mode (s : State) (p : Port) (c : Contract) (noChange : Bool) : (State.acceptRequest s p c noChange).mode = s.mode := by
  unfold State.acceptRequest
  simp

@[simp] theorem State.sendPsRdy_mode (s : State) (p : Port) : (State.sendPsRdy s p).mode = s.mode := by
  unfold State.sendPsRdy
  simp

@[simp] theorem State.contractInForce_mode (s : State) (p : Port) : (State.contractInForce s p).mode = s.mode := by
  unfold State.contractInForce
  (repeat' split) <;> simp

@[simp] theorem State.forward_mode (s : State) (p : Port) (sop : Fin 5) (b : List Byte) (c : Option Contract) : (State.forward s p sop b c).1.mode = s.mode := by
  unfold State.forward
  simp

@[simp] theorem State.onRequest_mode (s : State) (p : Port) (b : List Byte) : (State.onRequest s p b).1.mode = s.mode := by
  unfold State.onRequest
  simp
  (repeat' split) <;> simp

@[simp] theorem State.onVconnSwap_mode (s : State) (p : Port) : (State.onVconnSwap s p).1.mode = s.mode := by
  unfold State.onVconnSwap
  simp

@[simp] theorem State.autoRespond_mode (s : State) (p : Port) (sop : Fin 5) (b : List Byte) : (State.autoRespond s p sop b).1.mode = s.mode := by
  unfold State.autoRespond
  simp
  (repeat' split) <;> simp

@[simp] theorem State.sopDetected_mode (s : State) (k : Slot) (j : Fin 33) (sop : Nat) (size : Nat) : (State.sopDetected s k j sop size).mode = s.mode := by
  unfold State.sopDetected
  simp

@[simp] theorem State.messageWhole_mode (s : State) (k : Slot) (j : Fin 33) (bytes : List Byte) (hw fwd raise : Bool) : (State.messageWhole s k j bytes hw fwd raise).mode = s.mode := by
  unfold State.messageWhole
  simp

@[simp] theorem State.messageDropped_mode (s : State) (k : Slot) (j : Fin 33) : (State.messageDropped s k j).mode = s.mode := by
  unfold State.messageDropped
  simp

@[simp] theorem State.resetItem_mode (s : State) (k : Slot) (j : Fin 33) (sop : Nat) (raise : Bool) : (State.resetItem s k j sop raise).mode = s.mode := by
  unfold State.resetItem
  (repeat' split) <;> simp

@[simp] theorem State.flushPd_mode (s : State) (k : Slot) : (State.flushPd s k).mode = s.mode := by
  unfold State.flushPd
  simp

@[simp] theorem State.pdMessageEvent_mode (s : State) (k : Slot) (note : ItemNote) (words : List (BitVec 69)) : (State.pdMessageEvent s k note words).mode = s.mode := by
  unfold State.pdMessageEvent
  (repeat' split) <;> simp

@[simp] theorem State.takeWord_mode (s : State) (k : Slot) (w : BitVec 69) : (State.takeWord s k w).mode = s.mode := by
  unfold State.takeWord
  simp
  (repeat' split) <;> simp

@[simp] theorem State.popQueue_mode (s : State) (k : Slot) : (State.popQueue s k).mode = s.mode := by
  unfold State.popQueue
  simp
  (repeat' split) <;> simp

@[simp] theorem State.inSequence_mode (s : State) (p : Port) (sop : Fin 5) (b : List Byte) : ∀ t, State.inSequence s p sop b = some t → t.mode = s.mode := by
  intro t h
  unfold State.inSequence at h
  simp only [] at h
  split at h
  all_goals try (split at h)
  all_goals try (split at h)
  all_goals try (split at h)
  all_goals simp_all
  all_goals (subst h; simp)

@[simp] theorem State.connectSbu_mode (s : State) (p : Port) : (State.connectSbu s p).mode = s.mode := by
  unfold State.connectSbu
  (repeat' split) <;> simp

@[simp] theorem State.sbuFollow_mode (s : State) (p : Port) (b : List Byte) : (State.sbuFollow s p b).mode = s.mode := by
  unfold State.sbuFollow
  simp

@[simp] theorem State.onRetryWait_mode (s : State) (p : Port) (w : WaitRetry) : (State.onRetryWait s p w).mode = s.mode := by
  unfold State.onRetryWait
  simp

@[simp] theorem State.onSoftReset_mode (s : State) (p : Port) : (State.onSoftReset s p).mode = s.mode := by
  unfold State.onSoftReset
  simp

@[simp] theorem State.pdAnswer_mode (s : State) (p : Port) (sop : Fin 5) (b : List Byte) : (State.pdAnswer s p sop b).1.mode = s.mode := by
  unfold State.pdAnswer
  simp only []
  split
  · simp
  · split
    · cases h : (s.pd.get p).retry <;> simp
    · split
      · rename_i t h
        have e := State.inSequence_mode s p sop b t h
        split <;> simp [e]
      · simp

@[simp] theorem State.sopPrecedence_mode (s : State) (p : Port) : (State.sopPrecedence s p).mode = s.mode := by
  unfold State.sopPrecedence
  first
  | (simp; done)
  | (simp; (repeat' split) <;> (simp; done); done)
  | ((repeat' split) <;> (simp; done); done)
  | (simp only []; (repeat' split) <;> (simp; done); done)

@[simp] theorem State.pdArrived_mode (s : State) (p : Port) (sop : Fin 5) (b : List Byte) : (State.pdArrived s p sop b).mode = s.mode := by
  unfold State.pdArrived
  first
  | (simp; done)
  | (simp; (repeat' split) <;> (simp; done); done)
  | ((repeat' split) <;> (simp; done); done)
  | (simp only []; (repeat' split) <;> (simp; done); done)

@[simp] theorem State.pdReceived_mode (s : State) (p : Port) (sop : Fin 5) (b : List Byte) : (State.pdReceived s p sop b).mode = s.mode := by
  unfold State.pdReceived
  first
  | (simp; done)
  | (simp; (repeat' split) <;> (simp; done); done)
  | ((repeat' split) <;> (simp; done); done)
  | (simp only []; (repeat' split) <;> (simp; done); done)

@[simp] theorem State.sentByHost_mode (s : State) (p : Port) (o : PdOut) : (State.sentByHost s p o).mode = s.mode := by
  unfold State.sentByHost
  simp
  (repeat' split) <;> simp

@[simp] theorem State.goodCrcFor_mode (s : State) (p : Port) : (State.goodCrcFor s p).mode = s.mode := by
  unfold State.goodCrcFor
  (repeat' split) <;> simp

@[simp] theorem State.sendFailed_mode (s : State) (p : Port) (o : PdOut) : (State.sendFailed s p o).mode = s.mode := by
  unfold State.sendFailed
  (repeat' split) <;> simp

@[simp] theorem State.receiveTimeout_mode (s : State) (p : Port) : (State.receiveTimeout s p).mode = s.mode := by
  unfold State.receiveTimeout
  (repeat' split) <;> simp

@[simp] theorem State.capsTimer_mode (s : State) (p : Port) : (State.capsTimer s p).mode = s.mode := by
  unfold State.capsTimer
  simp

@[simp] theorem State.capsDue_mode (s : State) (p : Port) : (State.capsDue s p).mode = s.mode := by
  unfold State.capsDue
  simp

@[simp] theorem State.discoverStart_mode (s : State) (p : Port) : (State.discoverStart s p).mode = s.mode := by
  unfold State.discoverStart
  simp

@[simp] theorem State.sinkTxDone_mode (s : State) (p : Port) : (State.sinkTxDone s p).mode = s.mode := by
  unfold State.sinkTxDone
  simp
  (repeat' split) <;> simp

@[simp] theorem State.responseTimeout_mode (s : State) (p : Port) : (State.responseTimeout s p).mode = s.mode := by
  unfold State.responseTimeout
  simp
  (repeat' split) <;> simp

@[simp] theorem State.noResponse_mode (s : State) (p : Port) : (State.noResponse s p).mode = s.mode := by
  unfold State.noResponse
  simp

@[simp] theorem State.ppsTimeout_mode (s : State) (p : Port) : (State.ppsTimeout s p).mode = s.mode := by
  unfold State.ppsTimeout
  (repeat' split) <;> simp

@[simp] theorem State.fwdDeadline_mode (s : State) (p : Port) : (State.fwdDeadline s p).mode = s.mode := by
  unfold State.fwdDeadline
  (repeat' split) <;> simp

@[simp] theorem State.waitRetryDue_mode (s : State) (p : Port) : (State.waitRetryDue s p).mode = s.mode := by
  unfold State.waitRetryDue
  (repeat' split) <;> simp

@[simp] theorem State.srcTransition_mode (s : State) (p : Port) : (State.srcTransition s p).mode = s.mode := by
  unfold State.srcTransition
  (repeat' split) <;> simp

@[simp] theorem State.transitionPgood_mode (s : State) (p : Port) : (State.transitionPgood s p).mode = s.mode := by
  unfold State.transitionPgood
  (repeat' split) <;> simp

@[simp] theorem State.transitionTimeout_mode (s : State) (p : Port) : (State.transitionTimeout s p).mode = s.mode := by
  unfold State.transitionTimeout
  (repeat' split) <;> simp

@[simp] theorem State.hardResetReceived_mode (s : State) (p : Port) : (State.hardResetReceived s p).mode = s.mode := by
  unfold State.hardResetReceived
  simp

@[simp] theorem State.psHardReset_mode (s : State) (p : Port) : (State.psHardReset s p).mode = s.mode := by
  unfold State.psHardReset
  simp

@[simp] theorem State.srcRecover_mode (s : State) (p : Port) : (State.srcRecover s p).mode = s.mode := by
  unfold State.srcRecover
  simp

@[simp] theorem State.vconnTimeout_mode (s : State) (p : Port) : (State.vconnTimeout s p).mode = s.mode := by
  unfold State.vconnTimeout
  simp

@[simp] theorem State.vconnLow_mode (s : State) (p : Port) : (State.vconnLow s p).mode = s.mode := by
  unfold State.vconnLow
  simp

@[simp] theorem State.ccEvaluate_mode (s : State) (p : Port) : (State.ccEvaluate s p).mode = s.mode := by
  unfold State.ccEvaluate
  simp

@[simp] theorem State.ccChange_mode (s : State) (p : Port) (c1 c2 : CcLine) : (State.ccChange s p c1 c2).mode = s.mode := by
  unfold State.ccChange
  simp

@[simp] theorem State.enterAttached_mode (s : State) (p : Port) : (State.enterAttached s p).mode = s.mode := by
  unfold State.enterAttached
  simp

@[simp] theorem State.enterDebug_mode (s : State) (p : Port) : (State.enterDebug s p).mode = s.mode := by
  unfold State.enterDebug
  simp

@[simp] theorem State.ccDebounced_mode (s : State) (p : Port) : (State.ccDebounced s p).mode = s.mode := by
  unfold State.ccDebounced
  simp

@[simp] theorem State.endHold_mode (s : State) (p : Port) : (State.endHold s p).mode = s.mode := by
  unfold State.endHold
  simp

@[simp] theorem State.detachTypeC_mode (s : State) (p : Port) : (State.detachTypeC s p).mode = s.mode := by
  unfold State.detachTypeC
  simp

@[simp] theorem State.rdLost_mode (s : State) (p : Port) : (State.rdLost s p).mode = s.mode := by
  unfold State.rdLost
  simp

@[simp] theorem State.raLost_mode (s : State) (p : Port) : (State.raLost s p).mode = s.mode := by
  unfold State.raLost
  simp

@[simp] theorem State.enterRecovery_mode (s : State) (p : Port) : (State.enterRecovery s p).mode = s.mode := by
  unfold State.enterRecovery
  simp

@[simp] theorem State.vconnOvercurrent_mode (s : State) (p : Port) : (State.vconnOvercurrent s p).mode = s.mode := by
  unfold State.vconnOvercurrent
  simp

@[simp] theorem State.recoveryDone_mode (s : State) (p : Port) : (State.recoveryDone s p).mode = s.mode := by
  unfold State.recoveryDone
  simp

@[simp] theorem State.openTypeC_mode (s : State) (p : Port) : (State.openTypeC s p).mode = s.mode := by
  unfold State.openTypeC
  simp

@[simp] theorem State.leaveOpen_mode (s : State) (p : Port) : (State.leaveOpen s p).mode = s.mode := by
  unfold State.leaveOpen
  simp

@[simp] theorem State.spcEvent_mode (s : State) (k : Slot) (code : Nat) (payload : List Byte) : (State.spcEvent s k code payload).mode = s.mode := by
  unfold State.spcEvent
  simp

@[simp] theorem State.enterHold_mode (s : State) (p : Port) (c : HoldCause) : (State.enterHold s p c).mode = s.mode := by
  unfold State.enterHold
  simp

@[simp] theorem State.holdPort_mode (s : State) (p : Port) (c : HoldCause) : (State.holdPort s p c).mode = s.mode := by
  unfold State.holdPort
  simp

@[simp] theorem State.chainDown_mode (s : State) (k : Slot) : (State.chainDown s k).mode = s.mode := by
  unfold State.chainDown
  dsimp only
  rw [forAll_mode]
  · split <;> simp
  · intro s p; rfl

@[simp] theorem State.leaveOn_mode (s : State) (k : Slot) : (State.leaveOn s k).mode = s.mode := by
  unfold State.leaveOn
  simp

@[simp] theorem State.slotTripEvent_mode (s : State) (k : Slot) (kind : Byte) (counted : Bool) (inj : Bool) : (State.slotTripEvent s k kind counted inj).mode = s.mode := by
  unfold State.slotTripEvent
  simp

@[simp] theorem State.gateOff_mode (s : State) (k : Slot) (dest : SlotSt) : (State.gateOff s k dest).mode = s.mode := by
  unfold State.gateOff
  simp only []
  (repeat' split) <;> simp

@[simp] theorem State.trip_mode (s : State) (k : Slot) (kind : Byte) (inj atBudget : Bool) : (State.trip s k kind inj atBudget).mode = s.mode := by
  unfold State.trip
  simp

@[simp] theorem State.notePeak_mode (s : State) (k : Slot) (sense : Nat) : (State.notePeak s k sense).mode = s.mode := by
  unfold State.notePeak
  simp

@[simp] theorem State.fastTrip_mode (s : State) (k : Slot) (sense : Nat) (inj : Bool) : (State.fastTrip s k sense inj).mode = s.mode := by
  unfold State.fastTrip
  simp

@[simp] theorem State.breakerTrip_mode (s : State) (k : Slot) (sense : Nat) (inj atBudget : Bool) : (State.breakerTrip s k sense inj atBudget).mode = s.mode := by
  unfold State.breakerTrip
  simp

@[simp] theorem State.rampStall_mode (s : State) (k : Slot) (inj : Bool) : (State.rampStall s k inj).mode = s.mode := by
  unfold State.rampStall
  simp

@[simp] theorem State.pgLost_mode (s : State) (k : Slot) (inj : Bool) : (State.pgLost s k inj).mode = s.mode := by
  unfold State.pgLost
  simp

@[simp] theorem State.noteVin_mode (s : State) (k : Slot) (mv : Nat) : (State.noteVin s k mv).mode = s.mode := by
  unfold State.noteVin
  simp

@[simp] theorem State.vinExit_mode (s : State) (k : Slot) (mv : Nat) (inj : Bool) : (State.vinExit s k mv inj).mode = s.mode := by
  unfold State.vinExit
  simp

@[simp] theorem State.seatLow_mode (s : State) (k : Slot) : (State.seatLow s k).mode = s.mode := by
  unfold State.seatLow
  simp

@[simp] theorem State.seatHigh_mode (s : State) (k : Slot) (inj : Bool) : (State.seatHigh s k inj).mode = s.mode := by
  unfold State.seatHigh
  simp

@[simp] theorem State.seatDebounced_mode (s : State) (k : Slot) : (State.seatDebounced s k).mode = s.mode := by
  unfold State.seatDebounced
  simp

@[simp] theorem State.startRamp_mode (s : State) (k : Slot) (mv : Nat) : (State.startRamp s k mv).mode = s.mode := by
  unfold State.startRamp
  simp

@[simp] theorem State.offTime_mode (s : State) (k : Slot) (mv : Nat) : (State.offTime s k mv).mode = s.mode := by
  unfold State.offTime
  simp

@[simp] theorem State.pgHold_mode (s : State) (k : Slot) : (State.pgHold s k).mode = s.mode := by
  unfold State.pgHold
  simp

@[simp] theorem State.pgConditionsLost_mode (s : State) (k : Slot) : (State.pgConditionsLost s k).mode = s.mode := by
  unfold State.pgConditionsLost
  simp

@[simp] theorem State.chainSettles_mode (s : State) (k : Slot) : (State.chainSettles s k).mode = s.mode := by
  unfold State.chainSettles
  first
  | (simp; done)
  | (simp; (repeat' split) <;> (simp; done); done)
  | ((repeat' split) <;> (simp; done); done)
  | (simp only []; (repeat' split) <;> (simp; done); done)

@[simp] theorem State.pgDelay_mode (s : State) (k : Slot) : (State.pgDelay s k).mode = s.mode := by
  unfold State.pgDelay
  dsimp only
  (repeat' split) <;> simp

@[simp] theorem State.slotLearned_mode (s : State) (k : Slot) : (State.slotLearned s k).mode = s.mode := by
  unfold State.slotLearned
  first
  | (simp; done)
  | (simp; (repeat' split) <;> (simp; done); done)
  | ((repeat' split) <;> (simp; done); done)
  | (simp only []; (repeat' split) <;> (simp; done); done)

@[simp] theorem State.tripAging_mode (s : State) (k : Slot) : (State.tripAging s k).mode = s.mode := by
  unfold State.tripAging
  simp

@[simp] theorem State.slotSample_mode (s : State) (k : Slot) (vin vout sense : BitVec 12) : (State.slotSample s k vin vout sense).mode = s.mode := by
  unfold State.slotSample
  simp

@[simp] theorem State.slotDisableEnd_mode (s : State) (k : Slot) : (State.slotDisableEnd s k).mode = s.mode := by
  unfold State.slotDisableEnd
  simp

@[simp] theorem State.slotDisableBegin_mode (s : State) (k : Slot) : (State.slotDisableBegin s k).mode = s.mode := by
  unfold State.slotDisableBegin
  simp

@[simp] theorem State.slotDisableCheck_mode (s : State) (k : Slot) : (State.slotDisableCheck s k).mode = s.mode := by
  unfold State.slotDisableCheck
  simp

@[simp] theorem State.slotDisableTimeout_mode (s : State) (k : Slot) : (State.slotDisableTimeout s k).mode = s.mode := by
  unfold State.slotDisableTimeout
  simp

@[simp] theorem State.slotOff_mode (s : State) (k : Slot) : (State.slotOff s k).mode = s.mode := by
  unfold State.slotOff
  simp

@[simp] theorem opSlotEnable_mode (m : VcpMsg) (k : Slot) (s : State) : (opSlotEnable m k s).1.mode = s.mode := by
  unfold opSlotEnable
  simp

@[simp] theorem opSlotClearLatch_mode (m : VcpMsg) (k : Slot) (s : State) : (opSlotClearLatch m k s).1.mode = s.mode := by
  unfold opSlotClearLatch
  simp

@[simp] theorem State.setLimits_mode (s : State) (k : Slot) (l : List Byte) : ∀ t, State.setLimits s k l = some t → t.mode = s.mode := by
  intro t h
  unfold State.setLimits at h
  simp only [] at h
  split at h
  · simp at h
  · simp only [Option.some.injEq] at h
    subst h; simp

@[simp] theorem opSlotSetLimits_mode (m : VcpMsg) (k : Slot) (s : State) : (opSlotSetLimits m k s).1.mode = s.mode := by
  unfold opSlotSetLimits
  split
  · simp
  · rename_i h
    have := State.setLimits_mode _ _ _ _ h
    simp [this]

@[simp] theorem opSlotGet_mode (m : VcpMsg) (k : Slot) (s : State) : (opSlotGet m k s).1.mode = s.mode := by
  unfold opSlotGet
  simp

@[simp] theorem opPpcGet_mode (m : VcpMsg) (k : Slot) (only : Option Port) (s : State) : (opPpcGet m k only s).1.mode = s.mode := by
  unfold opPpcGet
  simp

end Sys2Proof.Machine
end

