-- ==== Sys2Proof/Laws/Memory.lean ====
section
/-! SUPPORT. The packet buffer memory: a list of code words by physical address keeps its canonical form under every operation, a read
after a write gives what was written, and a write leaves every other word alone. -/

set_option Elab.async false

namespace Sys2Proof.Machine

open Sys2Proof

theorem cellsWf_tail (c : Nat × BitVec 137) (l) (h : cellsWf (c :: l) = true) : cellsWf l = true := by
  cases l with
  | nil => rfl
  | cons d l => simp only [cellsWf, Bool.and_eq_true] at h; exact h.2

theorem cellsWf_cons (c : Nat × BitVec 137) (l) : cellsWf (c :: l) = true ↔ c.2 ≠ fillPattern ∧ (∀ d ∈ l, c.1 < d.1) ∧ cellsWf l = true := by
  induction l generalizing c with
  | nil => simp [cellsWf]
  | cons d l ih =>
    simp only [cellsWf, Bool.and_eq_true, bne_iff_ne, ne_eq, decide_eq_true_eq, List.mem_cons, forall_eq_or_imp]
    constructor
    · rintro ⟨⟨h1, h2⟩, h3⟩
      refine ⟨h1, ⟨h2, ?_⟩, h3⟩
      intro e he
      exact Nat.lt_trans h2 (((ih d).mp h3).2.1 e he)
    · rintro ⟨h1, ⟨h2, _⟩, h3⟩
      exact ⟨⟨h1, h2⟩, h3⟩

theorem cellsWf_filter (l : List (Nat × BitVec 137)) (p) (h : cellsWf l = true) : cellsWf (l.filter p) = true := by
  induction l with
  | nil => rfl
  | cons c l ih =>
    rw [cellsWf_cons] at h
    rw [List.filter_cons]
    split
    · rw [cellsWf_cons]
      exact ⟨h.1, fun d hd => h.2.1 d (List.mem_filter.mp hd).1, ih h.2.2⟩
    · exact ih h.2.2

theorem cellsPut_keys (l : List (Nat × BitVec 137)) (k v) : ∀ d ∈ cellsPut l k v, d.1 = k ∨ d ∈ l := by
  induction l with
  | nil => intro d; unfold cellsPut; split <;> simp; rintro rfl; simp
  | cons c l ih =>
    intro d hd
    unfold cellsPut at hd
    repeat' split at hd
    · rcases List.mem_cons.mp hd with rfl | h
      · simp
      · rcases ih d h with h | h <;> simp [h]
    · simp [hd]
    · rcases List.mem_cons.mp hd with rfl | h <;> simp [*]
    · exact .inr hd
    · rcases List.mem_cons.mp hd with rfl | h <;> simp [*]

theorem cellsWf_put (l : List (Nat × BitVec 137)) (k v) (h : cellsWf l = true) : cellsWf (cellsPut l k v) = true := by
  induction l with
  | nil => unfold cellsPut; split <;> simp [cellsWf, *]
  | cons c l ih =>
    obtain ⟨h1, h2, h3⟩ := (cellsWf_cons c l).mp h
    unfold cellsPut
    split
    · rw [cellsWf_cons]
      refine ⟨h1, ?_, ih h3⟩
      intro d hd
      rcases cellsPut_keys l k v d hd with rfl | hd
      · assumption
      · exact h2 d hd
    · split
      · split
        · exact h3
        · rw [cellsWf_cons]
          subst_vars
          exact ⟨‹_›, h2, h3⟩
      · split
        · exact h
        · rw [cellsWf_cons]
          refine ⟨‹_›, ?_, h⟩
          intro d hd
          have : k < c.1 := by omega
          rcases List.mem_cons.mp hd with rfl | hd
          · exact this
          · exact Nat.lt_trans this (h2 d hd)

/-- After reset the memory lists nothing and is canonical. -/
theorem reset_cellsWf : cellsWf State.reset.cells = true := rfl

/-- In a canonical list an address below every listed one is not listed. -/
theorem cellsGet_below (l : List (Nat × BitVec 137)) (k : Nat) (h : ∀ d ∈ l, k < d.1) : cellsGet l k = none := by
  induction l with
  | nil => rfl
  | cons c l ih =>
    unfold cellsGet
    rw [if_neg (Nat.ne_of_gt (h c (List.mem_cons_self ..)))]
    exact ih (fun d hd => h d (List.mem_cons_of_mem _ hd))

/-- What an address of a canonical list holds, the unlisted one counted as the fill pattern. -/
def cellAt (l : List (Nat × BitVec 137)) (k : Nat) : BitVec 137 := (cellsGet l k).getD fillPattern

theorem cellAt_cons (a : Nat) (v : BitVec 137) (l : List (Nat × BitVec 137)) (k : Nat) :
    cellAt ((a, v) :: l) k = if a = k then v else cellAt l k := by
  unfold cellAt
  rw [cellsGet]
  split <;> rfl

theorem cellAt_below (l : List (Nat × BitVec 137)) (k : Nat) (h : ∀ d ∈ l, k < d.1) : cellAt l k = fillPattern := by
  unfold cellAt
  rw [cellsGet_below l k h]
  rfl

/-- Read after write: the address written reads as what was written, every other address as before. -/
theorem cellAt_put (l : List (Nat × BitVec 137)) (k j : Nat) (v : BitVec 137) (h : cellsWf l = true) :
    cellAt (cellsPut l k v) j = if j = k then v else cellAt l j := by
  induction l with
  | nil =>
    unfold cellsPut
    split
    · subst_vars
      split <;> rfl
    · rw [cellAt_cons]
      simp only [eq_comm]
  | cons c l ih =>
    obtain ⟨a, w⟩ := c
    obtain ⟨-, h2, h3⟩ := (cellsWf_cons _ l).mp h
    unfold cellsPut
    split
    · rw [cellAt_cons, cellAt_cons, ih h3]
      by_cases ha : a = j
      · have : j ≠ k := by omega
        simp [ha, this]
      · simp [ha]
    · split
      · subst_vars
        split
        · rw [cellAt_cons]
          by_cases hj : j = a
          · rw [if_pos hj, hj, cellAt_below l a h2]
            exact Eq.symm ‹_›
          · rw [if_neg hj, if_neg (fun e => hj e.symm)]
        · rw [cellAt_cons, cellAt_cons]
          by_cases hj : j = a
          · simp [hj]
          · simp [hj, Ne.symm hj]
      · have hk : k < a := by omega
        split
        · rw [cellAt_cons]
          by_cases hj : j = k
          · subst hj
            rw [if_neg (by omega), if_pos rfl, cellAt_below l j (fun d hd => Nat.lt_trans hk (h2 d hd))]
            exact Eq.symm ‹_›
          · rw [if_neg hj]
        · rw [cellAt_cons]
          by_cases hj : k = j
          · simp [hj]
          · simp [hj, Ne.symm hj]

end Sys2Proof.Machine
end

