-- ==== Sys2Proof/Laws/OrderPorts.lean ====
section
/-! SUPPORT. Order lemmas: the PBM, and through it power, PD and the slots, keep the code words in canonical order. -/

set_option Elab.async false

namespace Sys2Proof.Machine

open Sys2Proof

/-- 0 where the list of code words is canonical, 1 where it is not. -/
def disorderOf (l : List (Nat × BitVec 137)) : Nat := if cellsWf l then 0 else 1

@[irreducible] def State.disorder (s : State) : Nat := disorderOf s.cells

theorem State.disorder_mk (a0 a1 a2 a3 a4 a5 a6 a7 a8 a9 a10 a11 a12 a13 a14 a15 a16 a17 a18 a19 a20 a21 a22 a23 a24 a25 a26 a27 a28 a29 a30 a31 a32 a33 a34 a35 a36 a37 a38 a39 a40 a41 a42 a43 a44 a45 a46 a47 a48 a49 a50 a51 a52 a53 a54 a55 a56 a57 a58 a59 a60 a61) : (State.mk a0 a1 a2 a3 a4 a5 a6 a7 a8 a9 a10 a11 a12 a13 a14 a15 a16 a17 a18 a19 a20 a21 a22 a23 a24 a25 a26 a27 a28 a29 a30 a31 a32 a33 a34 a35 a36 a37 a38 a39 a40 a41 a42 a43 a44 a45 a46 a47 a48 a49 a50 a51 a52 a53 a54 a55 a56 a57 a58 a59 a60 a61).disorder = disorderOf a53 := by
  unfold State.disorder; rfl

theorem State.disorder_fold (s : State) : disorderOf s.cells = s.disorder := by
  unfold State.disorder; rfl

theorem disorder_ite {c : Prop} [Decidable c] {a b : State} {n : Nat} (h : a.disorder ≤ n) (h' : b.disorder ≤ n) : (if c then a else b).disorder ≤ n := by split <;> assumption

theorem disorder_ite1 {α : Type} {c : Prop} [Decidable c] {a b : State × α} {n : Nat} (h : a.1.disorder ≤ n) (h' : b.1.disorder ≤ n) : (if c then a else b).1.disorder ≤ n := by split <;> assumption

theorem State.begin_disorder (s : State) (lim : Nat) (dz : s.disorder ≤ lim) : (State.begin s).disorder ≤ lim := by
  unfold State.begin
  with_reducible repeat' (first | assumption | simp only [State.disorder_mk, State.disorder_fold])

theorem State.emit_disorder (s : State) (e : Emission) (lim : Nat) (dz : s.disorder ≤ lim) : (State.emit s e).disorder ≤ lim := by
  unfold State.emit
  with_reducible repeat' (first | assumption | simp only [State.disorder_mk, State.disorder_fold])

theorem State.emits_disorder (s : State) (es : List Emission) (lim : Nat) (dz : s.disorder ≤ lim) : (State.emits s es).disorder ≤ lim := by
  unfold State.emits
  with_reducible repeat' (first | assumption | simp only [State.disorder_mk, State.disorder_fold])

theorem State.tick_disorder (s : State) (lim : Nat) (dz : s.disorder ≤ lim) : (State.tick s).disorder ≤ lim := by
  unfold State.tick
  with_reducible repeat' (first | assumption | simp only [State.disorder_mk, State.disorder_fold])

theorem forAll_disorder {α : Type} (l : List α) (f : State → α → State) (s : State) (hf : ∀ s a (n : Nat), s.disorder ≤ n → (f s a).disorder ≤ n) (n : Nat) (dz : s.disorder ≤ n) : (forAll l f s).disorder ≤ n := by
  unfold forAll
  induction l generalizing s with
  | nil => exact dz
  | cons a l ih => rw [List.foldl_cons]; exact ih _ (hf _ _ _ dz)

theorem disorder_put (l : List (Nat × BitVec 137)) (k v) (n : Nat) (h : disorderOf l ≤ n) : disorderOf (cellsPut l k v) ≤ n := by
  unfold disorderOf at *
  split
  · exact Nat.zero_le _
  · split at h
    · exact absurd (cellsWf_put l k v ‹_›) ‹_›
    · exact h

theorem disorder_filter (l : List (Nat × BitVec 137)) (p) (n : Nat) (h : disorderOf l ≤ n) : disorderOf (l.filter p) ≤ n := by
  unfold disorderOf at *
  split
  · exact Nat.zero_le _
  · split at h
    · exact absurd (cellsWf_filter l p ‹_›) ‹_›
    · exact h

theorem forAll_disorder' {α : Type} (l : List α) (f : State → α → State) (s : State) (lim : Nat)
    (hf : ∀ s a, s.disorder ≤ lim → (f s a).disorder ≤ lim) (dz : s.disorder ≤ lim) : (forAll l f s).disorder ≤ lim := by
  unfold forAll
  induction l generalizing s with
  | nil => exact dz
  | cons a l ih => rw [List.foldl_cons]; exact ih _ (hf _ _ dz)

theorem disorder_nil (lim : Nat) : disorderOf [] ≤ lim := Nat.zero_le _

theorem State.report_disorder (s : State) (d : Detection) (lim : Nat) (dz : s.disorder ≤ lim) : (State.report s d).disorder ≤ lim := by
  unfold State.report
  with_reducible repeat' (first | assumption | simp only [State.disorder_mk, State.disorder_fold])

theorem State.detect_disorder (s : State) (source kind info : Nat) (lim : Nat) (dz : s.disorder ≤ lim) : (State.detect s source kind info).disorder ≤ lim := by
  unfold State.detect
  with_reducible repeat' (first | assumption | apply State.report_disorder)

theorem State.updSession_disorder (s : State) (i : Sess) (f : Session → Session) (lim : Nat) (dz : s.disorder ≤ lim) : (State.updSession s i f).disorder ≤ lim := by
  unfold State.updSession
  with_reducible repeat' (first | assumption | simp only [State.disorder_mk, State.disorder_fold])

theorem State.fillRsp_disorder (s : State) (m : Mbox) (lim : Nat) (dz : s.disorder ≤ lim) : (State.fillRsp s m).disorder ≤ lim := by
  unfold State.fillRsp
  with_reducible repeat' (first | assumption | apply State.updSession_disorder | simp only [State.disorder_mk, State.disorder_fold] | apply disorder_put | apply disorder_nil | apply disorder_filter | dsimp only | split)

theorem State.fillEvt_disorder (s : State) (m : Mbox) (lim : Nat) (dz : s.disorder ≤ lim) : (State.fillEvt s m).disorder ≤ lim := by
  unfold State.fillEvt
  with_reducible repeat' (first | assumption | apply State.updSession_disorder | simp only [State.disorder_mk, State.disorder_fold] | apply disorder_put | apply disorder_nil | apply disorder_filter | dsimp only | split)

theorem State.fillMailbox_disorder (s : State) (m : Mbox) (lim : Nat) (dz : s.disorder ≤ lim) : (State.fillMailbox s m).disorder ≤ lim := by
  unfold State.fillMailbox
  with_reducible repeat' (first | assumption | apply State.fillRsp_disorder | apply State.fillEvt_disorder | simp only [State.disorder_mk, State.disorder_fold] | apply disorder_put | apply disorder_nil | apply disorder_filter | dsimp only | split)

theorem State.respond_disorder (s : State) (i : Sess) (r : Rsp) (lim : Nat) (dz : s.disorder ≤ lim) : (State.respond s i r).disorder ≤ lim := by
  unfold State.respond
  with_reducible repeat' (first | assumption | apply State.updSession_disorder | apply State.fillMailbox_disorder | simp only [State.disorder_mk, State.disorder_fold] | apply disorder_put | apply disorder_nil | apply disorder_filter | dsimp only | split)

theorem State.deliver_disorder (s : State) (e : EventOut) (i : Sess) (lim : Nat) (dz : s.disorder ≤ lim) : (State.deliver s e i).disorder ≤ lim := by
  unfold State.deliver
  with_reducible repeat' (first | assumption | apply State.updSession_disorder | apply State.fillMailbox_disorder | simp only [State.disorder_mk, State.disorder_fold] | apply disorder_put | apply disorder_nil | apply disorder_filter | dsimp only | split)

theorem State.issue_disorder (s : State) (e : EventOut) (lim : Nat) (dz : s.disorder ≤ lim) : (State.issue s e).disorder ≤ lim := by
  unfold State.issue
  with_reducible repeat' (first | assumption | apply State.deliver_disorder | apply forAll_disorder | simp only [State.disorder_mk, State.disorder_fold] | apply disorder_put | apply disorder_nil | apply disorder_filter | dsimp only | split | intro)

theorem State.issueHeld_disorder (s : State) (lim : Nat) (dz : s.disorder ≤ lim) : (State.issueHeld s).disorder ≤ lim := by
  unfold State.issueHeld
  with_reducible repeat' (first | assumption | apply State.issue_disorder | apply forAll_disorder | simp only [State.disorder_mk, State.disorder_fold])

theorem State.portEvent_disorder (s : State) (p : Port) (code : Nat) (payload : List Byte) (lim : Nat) (dz : s.disorder ≤ lim) : (State.portEvent s p code payload).disorder ≤ lim := by
  unfold State.portEvent
  with_reducible repeat' (first | assumption | apply State.issue_disorder)

theorem State.slotEvent_disorder (s : State) (k : Slot) (code : Nat) (payload : List Byte) (lim : Nat) (dz : s.disorder ≤ lim) : (State.slotEvent s k code payload).disorder ≤ lim := by
  unfold State.slotEvent
  with_reducible repeat' (first | assumption | apply State.issue_disorder)

theorem State.bankEvent_disorder (s : State) (b : Bank) (code : Nat) (payload : List Byte) (lim : Nat) (dz : s.disorder ≤ lim) : (State.bankEvent s b code payload).disorder ≤ lim := by
  unfold State.bankEvent
  with_reducible repeat' (first | assumption | apply State.issue_disorder)

theorem State.complete_disorder (s : State) (i : Sess) (status : Byte) (payload : List Byte) (lim : Nat) (dz : s.disorder ≤ lim) : (State.complete s i status payload).disorder ≤ lim := by
  unfold State.complete
  with_reducible repeat' (first | assumption | apply State.updSession_disorder | apply State.respond_disorder | apply forAll_disorder | simp only [State.disorder_mk, State.disorder_fold] | apply disorder_put | apply disorder_nil | apply disorder_filter | dsimp only | split | intro)

theorem State.answer_disorder (s : State) (w : Wait) (status : Byte) (payload : List Byte) (lim : Nat) (dz : s.disorder ≤ lim) : (State.answer s w status payload).disorder ≤ lim := by
  unfold State.answer
  with_reducible repeat' (first | assumption | apply State.complete_disorder | apply forAll_disorder | simp only [State.disorder_mk, State.disorder_fold] | apply disorder_put | apply disorder_nil | apply disorder_filter | dsimp only | split | intro)

theorem refuse_disorder (s : State) (status : Byte) (lim : Nat) (dz : s.disorder ≤ lim) : (refuse s status).1.disorder ≤ lim := by
  unfold refuse
  assumption

theorem ok_disorder (s : State) (lim : Nat) (dz : s.disorder ≤ lim) : (ok s).1.disorder ≤ lim := by
  unfold ok
  assumption

theorem State.updVbus_disorder (s : State) (p : Port) (f : VbusState → VbusState) (lim : Nat) (dz : s.disorder ≤ lim) : (State.updVbus s p f).disorder ≤ lim := by
  unfold State.updVbus
  with_reducible repeat' (first | assumption | simp only [State.disorder_mk, State.disorder_fold])

theorem State.updPd_disorder (s : State) (p : Port) (f : PdPort → PdPort) (lim : Nat) (dz : s.disorder ≤ lim) : (State.updPd s p f).disorder ≤ lim := by
  unfold State.updPd
  with_reducible repeat' (first | assumption | simp only [State.disorder_mk, State.disorder_fold])

theorem State.writeWord_disorder (s : State) (p : Port) (lim : Nat) (dz : s.disorder ≤ lim) : (State.writeWord s p).disorder ≤ lim := by
  unfold State.writeWord
  with_reducible repeat' (first | assumption | apply State.updVbus_disorder | apply forAll_disorder | simp only [State.disorder_mk, State.disorder_fold] | apply disorder_put | apply disorder_nil | apply disorder_filter | dsimp only | split | intro)

theorem State.refreshWord_disorder (s : State) (p : Port) (lim : Nat) (dz : s.disorder ≤ lim) : (State.refreshWord s p).disorder ≤ lim := by
  unfold State.refreshWord
  with_reducible repeat' (first | assumption | apply State.writeWord_disorder | simp only [State.disorder_mk, State.disorder_fold] | apply disorder_put | apply disorder_nil | apply disorder_filter | dsimp only | split)

theorem State.startDischarge_disorder (s : State) (p : Port) (lim : Nat) (dz : s.disorder ≤ lim) : (State.startDischarge s p).disorder ≤ lim := by
  unfold State.startDischarge
  with_reducible repeat' (first | assumption | apply State.updVbus_disorder)

theorem State.contractEvent_disorder (s : State) (p : Port) (lim : Nat) (dz : s.disorder ≤ lim) : (State.contractEvent s p).disorder ≤ lim := by
  unfold State.contractEvent
  with_reducible repeat' (first | assumption | apply State.portEvent_disorder)

theorem State.setRp_disorder (s : State) (p : Port) (lim : Nat) (dz : s.disorder ≤ lim) : (State.setRp s p).disorder ≤ lim := by
  unfold State.setRp
  with_reducible repeat' (first | assumption | apply State.updPd_disorder | simp only [State.disorder_mk, State.disorder_fold] | apply disorder_put | apply disorder_nil | apply disorder_filter | dsimp only | split)

theorem State.sendOutcome_disorder (s : State) (p : Port) (code : Byte) (lim : Nat) (dz : s.disorder ≤ lim) : (State.sendOutcome s p code).disorder ≤ lim := by
  unfold State.sendOutcome
  with_reducible repeat' (first | assumption | apply State.answer_disorder)

theorem State.endSequences_disorder (s : State) (p : Port) (code : Byte) (lim : Nat) (dz : s.disorder ≤ lim) : (State.endSequences s p code).disorder ≤ lim := by
  unfold State.endSequences
  with_reducible repeat' (first | assumption | apply State.updPd_disorder | apply State.sendOutcome_disorder | apply forAll_disorder | simp only [State.disorder_mk, State.disorder_fold] | apply disorder_put | apply disorder_nil | apply disorder_filter | dsimp only | split | intro)

theorem State.protocolReset_disorder (s : State) (p : Port) (code : Byte) (lim : Nat) (dz : s.disorder ≤ lim) : (State.protocolReset s p code).disorder ≤ lim := by
  unfold State.protocolReset
  with_reducible repeat' (first | assumption | apply State.updPd_disorder | apply State.endSequences_disorder | apply forAll_disorder | simp only [State.disorder_mk, State.disorder_fold] | apply disorder_put | apply disorder_nil | apply disorder_filter | dsimp only | split | intro)

theorem State.endContract_disorder (s : State) (p : Port) (code : Byte) (lim : Nat) (dz : s.disorder ≤ lim) : (State.endContract s p code).disorder ≤ lim := by
  unfold State.endContract
  with_reducible repeat' (first | assumption | apply State.protocolReset_disorder | apply State.updPd_disorder | apply State.setRp_disorder | apply State.contractEvent_disorder | apply forAll_disorder | simp only [State.disorder_mk, State.disorder_fold] | apply disorder_put | apply disorder_nil | apply disorder_filter | dsimp only | split | intro)

theorem State.isolateSbu_disorder (s : State) (p : Port) (lim : Nat) (dz : s.disorder ≤ lim) : (State.isolateSbu s p).disorder ≤ lim := by
  unfold State.isolateSbu
  with_reducible repeat' (first | assumption | apply State.updPd_disorder)

theorem State.freeUart_disorder (s : State) (p : Port) (lim : Nat) (dz : s.disorder ≤ lim) : (State.freeUart s p).disorder ≤ lim := by
  unfold State.freeUart
  with_reducible repeat' (first | assumption | apply State.updPd_disorder | simp only [State.disorder_mk, State.disorder_fold])

theorem State.bindUart_disorder (s : State) (p : Port) (lim : Nat) (dz : s.disorder ≤ lim) : (State.bindUart s p).disorder ≤ lim := by
  unfold State.bindUart
  with_reducible repeat' (first | assumption | apply State.updPd_disorder | simp only [State.disorder_mk, State.disorder_fold] | apply disorder_put | apply disorder_nil | apply disorder_filter | dsimp only | split)

theorem State.setVconn_disorder (s : State) (p : Port) (on : Bool) (lim : Nat) (dz : s.disorder ≤ lim) : (State.setVconn s p on).disorder ≤ lim := by
  unfold State.setVconn
  with_reducible repeat' (first | assumption | apply State.updPd_disorder | apply forAll_disorder | simp only [State.disorder_mk, State.disorder_fold] | apply disorder_put | apply disorder_nil | apply disorder_filter | dsimp only | split | intro)

theorem State.pdTransmit_disorder (s : State) (p : Port) (o : PdOut) (lim : Nat) (dz : s.disorder ≤ lim) : (State.pdTransmit s p o).disorder ≤ lim := by
  unfold State.pdTransmit
  with_reducible repeat' (first | assumption | apply State.updPd_disorder | apply State.emit_disorder | apply forAll_disorder | simp only [State.disorder_mk, State.disorder_fold] | apply disorder_put | apply disorder_nil | apply disorder_filter | dsimp only | split | intro)

theorem State.pdAbandon_disorder (s : State) (p : Port) (o : PdOut) (lim : Nat) (dz : s.disorder ≤ lim) : (State.pdAbandon s p o).disorder ≤ lim := by
  unfold State.pdAbandon
  with_reducible repeat' (first | assumption | apply State.updPd_disorder | apply State.sendOutcome_disorder | apply State.answer_disorder | apply forAll_disorder | simp only [State.disorder_mk, State.disorder_fold] | apply disorder_put | apply disorder_nil | apply disorder_filter | dsimp only | split | intro)

theorem State.pdSay_disorder (s : State) (p : Port) (o : PdOut) (lim : Nat) (dz : s.disorder ≤ lim) : (State.pdSay s p o).disorder ≤ lim := by
  unfold State.pdSay
  with_reducible repeat' (first | assumption | apply State.pdAbandon_disorder | apply State.pdTransmit_disorder | apply forAll_disorder | simp only [State.disorder_mk, State.disorder_fold] | apply disorder_put | apply disorder_nil | apply disorder_filter | dsimp only | split | intro)

theorem State.pdStart_disorder (s : State) (p : Port) (o : PdOut) (lim : Nat) (dz : s.disorder ≤ lim) : (State.pdStart s p o).disorder ≤ lim := by
  unfold State.pdStart
  with_reducible repeat' (first | assumption | apply State.updPd_disorder | apply State.setRp_disorder | apply State.pdTransmit_disorder | apply forAll_disorder | simp only [State.disorder_mk, State.disorder_fold] | apply disorder_put | apply disorder_nil | apply disorder_filter | dsimp only | split | intro)

theorem State.pdIdle_disorder (s : State) (p : Port) (lim : Nat) (dz : s.disorder ≤ lim) : (State.pdIdle s p).disorder ≤ lim := by
  unfold State.pdIdle
  with_reducible repeat' (first | assumption | apply State.updPd_disorder | apply State.setRp_disorder | apply State.pdTransmit_disorder | apply forAll_disorder | simp only [State.disorder_mk, State.disorder_fold] | apply disorder_put | apply disorder_nil | apply disorder_filter | dsimp only | split | intro)

theorem State.sendCaps_disorder (s : State) (p : Port) (only5 : Bool) (lim : Nat) (dz : s.disorder ≤ lim) : (State.sendCaps s p only5).disorder ≤ lim := by
  unfold State.sendCaps
  with_reducible repeat' (first | assumption | apply State.pdStart_disorder | apply forAll_disorder | simp only [State.disorder_mk, State.disorder_fold] | apply disorder_put | apply disorder_nil | apply disorder_filter | dsimp only | split | intro)

theorem State.sendSoftReset_disorder (s : State) (p : Port) (lim : Nat) (dz : s.disorder ≤ lim) : (State.sendSoftReset s p).disorder ≤ lim := by
  unfold State.sendSoftReset
  with_reducible repeat' (first | assumption | apply State.pdStart_disorder)

theorem State.pdReply_disorder (s : State) (p : Port) (bytes : List Byte) (purpose : PdPurpose) (sop : Fin 5) (lim : Nat) (dz : s.disorder ≤ lim) : (State.pdReply s p bytes purpose sop).disorder ≤ lim := by
  unfold State.pdReply
  with_reducible repeat' (first | assumption | apply State.pdSay_disorder | apply forAll_disorder | simp only [State.disorder_mk, State.disorder_fold] | apply disorder_put | apply disorder_nil | apply disorder_filter | dsimp only | split | intro)

theorem State.hardResetBegin_disorder (s : State) (p : Port) (lim : Nat) (dz : s.disorder ≤ lim) : (State.hardResetBegin s p).disorder ≤ lim := by
  unfold State.hardResetBegin
  with_reducible repeat' (first | assumption | apply State.endContract_disorder | apply State.updPd_disorder | apply State.isolateSbu_disorder | apply forAll_disorder | simp only [State.disorder_mk, State.disorder_fold] | apply disorder_put | apply disorder_nil | apply disorder_filter | dsimp only | split | intro)

theorem State.sendHardReset_disorder (s : State) (p : Port) (lim : Nat) (dz : s.disorder ≤ lim) : (State.sendHardReset s p).disorder ≤ lim := by
  unfold State.sendHardReset
  with_reducible repeat' (first | assumption | apply State.emit_disorder | apply State.updPd_disorder | apply State.hardResetBegin_disorder)

theorem State.hardResetOff_disorder (s : State) (p : Port) (lim : Nat) (dz : s.disorder ≤ lim) : (State.hardResetOff s p).disorder ≤ lim := by
  unfold State.hardResetOff
  with_reducible repeat' (first | assumption | apply State.updPd_disorder | apply State.setVconn_disorder | apply State.startDischarge_disorder | apply State.writeWord_disorder | apply forAll_disorder | simp only [State.disorder_mk, State.disorder_fold] | apply disorder_put | apply disorder_nil | apply disorder_filter | dsimp only | split | intro)

theorem State.hardResetSafe_disorder (s : State) (p : Port) (lim : Nat) (dz : s.disorder ≤ lim) : (State.hardResetSafe s p).disorder ≤ lim := by
  unfold State.hardResetSafe
  with_reducible repeat' (first | assumption | apply State.updPd_disorder | simp only [State.disorder_mk, State.disorder_fold] | apply disorder_put | apply disorder_nil | apply disorder_filter | dsimp only | split)

theorem State.hardResetReturn_disorder (s : State) (p : Port) (lim : Nat) (dz : s.disorder ≤ lim) : (State.hardResetReturn s p).disorder ≤ lim := by
  unfold State.hardResetReturn
  with_reducible repeat' (first | assumption | apply State.updVbus_disorder | apply State.updPd_disorder | apply State.refreshWord_disorder)

theorem State.acceptRequest_disorder (s : State) (p : Port) (c : Contract) (noChange : Bool) (lim : Nat) (dz : s.disorder ≤ lim) : (State.acceptRequest s p c noChange).disorder ≤ lim := by
  unfold State.acceptRequest
  with_reducible repeat' (first | assumption | apply State.updPd_disorder | apply State.pdReply_disorder | apply forAll_disorder | simp only [State.disorder_mk, State.disorder_fold] | apply disorder_put | apply disorder_nil | apply disorder_filter | dsimp only | split | intro)

theorem State.sendPsRdy_disorder (s : State) (p : Port) (lim : Nat) (dz : s.disorder ≤ lim) : (State.sendPsRdy s p).disorder ≤ lim := by
  unfold State.sendPsRdy
  with_reducible repeat' (first | assumption | apply State.updPd_disorder | apply State.pdReply_disorder)

theorem State.contractInForce_disorder (s : State) (p : Port) (lim : Nat) (dz : s.disorder ≤ lim) : (State.contractInForce s p).disorder ≤ lim := by
  unfold State.contractInForce
  with_reducible repeat' (first | assumption | apply State.updPd_disorder | apply State.contractEvent_disorder | apply State.setRp_disorder | simp only [State.disorder_mk, State.disorder_fold] | apply disorder_put | apply disorder_nil | apply disorder_filter | dsimp only | split)

theorem State.forward_disorder (s : State) (p : Port) (sop : Fin 5) (b : List Byte) (c : Option Contract) (lim : Nat) (dz : s.disorder ≤ lim) : (State.forward s p sop b c).1.disorder ≤ lim := by
  unfold State.forward
  with_reducible repeat' (first | assumption | apply State.updPd_disorder)

theorem State.onRequest_disorder (s : State) (p : Port) (b : List Byte) (lim : Nat) (dz : s.disorder ≤ lim) : (State.onRequest s p b).1.disorder ≤ lim := by
  unfold State.onRequest
  with_reducible repeat' (first | assumption | apply State.updPd_disorder | apply State.pdReply_disorder | apply State.answer_disorder | apply State.acceptRequest_disorder | apply State.forward_disorder | apply forAll_disorder | simp only [State.disorder_mk, State.disorder_fold] | apply disorder_put | apply disorder_nil | apply disorder_filter | dsimp only | split | intro)

theorem State.onVconnSwap_disorder (s : State) (p : Port) (lim : Nat) (dz : s.disorder ≤ lim) : (State.onVconnSwap s p).1.disorder ≤ lim := by
  unfold State.onVconnSwap
  with_reducible repeat' (first | assumption | apply State.answer_disorder | apply State.pdReply_disorder | simp only [State.disorder_mk, State.disorder_fold] | apply disorder_put | apply disorder_nil | apply disorder_filter | dsimp only | split)

theorem State.autoRespond_disorder (s : State) (p : Port) (sop : Fin 5) (b : List Byte) (lim : Nat) (dz : s.disorder ≤ lim) : (State.autoRespond s p sop b).1.disorder ≤ lim := by
  unfold State.autoRespond
  with_reducible repeat' (first | assumption | apply State.onRequest_disorder | apply State.pdReply_disorder | apply State.onVconnSwap_disorder | apply State.answer_disorder | apply State.forward_disorder | apply forAll_disorder | simp only [State.disorder_mk, State.disorder_fold] | apply disorder_put | apply disorder_nil | apply disorder_filter | dsimp only | split | intro)

theorem State.updQueue_disorder (s : State) (k : Slot) (f : PdQueue → PdQueue) (lim : Nat) (dz : s.disorder ≤ lim) : (State.updQueue s k f).disorder ≤ lim := by
  unfold State.updQueue
  with_reducible repeat' (first | assumption | simp only [State.disorder_mk, State.disorder_fold])

theorem State.sopDetected_disorder (s : State) (k : Slot) (j : Fin 33) (sop : Nat) (size : Nat) (lim : Nat) (dz : s.disorder ≤ lim) : (State.sopDetected s k j sop size).disorder ≤ lim := by
  unfold State.sopDetected
  with_reducible repeat' (first | assumption | apply State.tick_disorder | apply State.updQueue_disorder | apply forAll_disorder | simp only [State.disorder_mk, State.disorder_fold] | apply disorder_put | apply disorder_nil | apply disorder_filter | dsimp only | split | intro)

theorem State.messageWhole_disorder (s : State) (k : Slot) (j : Fin 33) (bytes : List Byte) (hw fwd raise : Bool) (lim : Nat) (dz : s.disorder ≤ lim) : (State.messageWhole s k j bytes hw fwd raise).disorder ≤ lim := by
  unfold State.messageWhole
  with_reducible repeat' (first | assumption | apply State.updQueue_disorder)

theorem State.messageDropped_disorder (s : State) (k : Slot) (j : Fin 33) (lim : Nat) (dz : s.disorder ≤ lim) : (State.messageDropped s k j).disorder ≤ lim := by
  unfold State.messageDropped
  with_reducible repeat' (first | assumption | apply State.updQueue_disorder | apply forAll_disorder | simp only [State.disorder_mk, State.disorder_fold] | apply disorder_put | apply disorder_nil | apply disorder_filter | dsimp only | split | intro)

theorem State.resetItem_disorder (s : State) (k : Slot) (j : Fin 33) (sop : Nat) (raise : Bool) (lim : Nat) (dz : s.disorder ≤ lim) : (State.resetItem s k j sop raise).disorder ≤ lim := by
  unfold State.resetItem
  with_reducible repeat' (first | assumption | apply State.messageDropped_disorder | apply State.tick_disorder | apply State.updQueue_disorder | apply forAll_disorder | simp only [State.disorder_mk, State.disorder_fold] | apply disorder_put | apply disorder_nil | apply disorder_filter | dsimp only | split | intro)

theorem State.flushPd_disorder (s : State) (k : Slot) (lim : Nat) (dz : s.disorder ≤ lim) : (State.flushPd s k).disorder ≤ lim := by
  unfold State.flushPd
  with_reducible repeat' (first | assumption | apply State.tick_disorder | apply State.portEvent_disorder | apply State.updQueue_disorder | apply forAll_disorder | simp only [State.disorder_mk, State.disorder_fold] | apply disorder_put | apply disorder_nil | apply disorder_filter | dsimp only | split | intro)

theorem State.pdMessageEvent_disorder (s : State) (k : Slot) (note : ItemNote) (words : List (BitVec 69)) (lim : Nat) (dz : s.disorder ≤ lim) : (State.pdMessageEvent s k note words).disorder ≤ lim := by
  unfold State.pdMessageEvent
  with_reducible repeat' (first | assumption | apply State.portEvent_disorder | simp only [State.disorder_mk, State.disorder_fold] | apply disorder_put | apply disorder_nil | apply disorder_filter | dsimp only | split)

theorem State.takeWord_disorder (s : State) (k : Slot) (w : BitVec 69) (lim : Nat) (dz : s.disorder ≤ lim) : (State.takeWord s k w).disorder ≤ lim := by
  unfold State.takeWord
  with_reducible repeat' (first | assumption | apply State.updQueue_disorder | apply State.pdMessageEvent_disorder | simp only [State.disorder_mk, State.disorder_fold] | apply disorder_put | apply disorder_nil | apply disorder_filter | dsimp only | split)

theorem State.popQueue_disorder (s : State) (k : Slot) (lim : Nat) (dz : s.disorder ≤ lim) : (State.popQueue s k).disorder ≤ lim := by
  unfold State.popQueue
  with_reducible repeat' (first | assumption | apply State.report_disorder | apply State.flushPd_disorder | apply State.takeWord_disorder | simp only [State.disorder_mk, State.disorder_fold] | apply disorder_put | apply disorder_nil | apply disorder_filter | dsimp only | split)

theorem State.inSequence_disorder (s : State) (p : Port) (sop : Fin 5) (b : List Byte) (lim : Nat) (dz : s.disorder ≤ lim) :
    ∀ t, State.inSequence s p sop b = some t → t.disorder ≤ lim := by
  intro t h
  unfold State.inSequence at h
  simp only [] at h
  split at h
  all_goals try (split at h)
  all_goals try (split at h)
  all_goals try (split at h)
  all_goals simp only [Option.some.injEq, reduceCtorEq] at h
  all_goals (subst h; with_reducible repeat' (first | assumption | apply State.updPd_disorder | apply State.setVconn_disorder | apply State.sendOutcome_disorder | apply State.pdIdle_disorder | apply State.sendCaps_disorder | apply State.sendSoftReset_disorder | apply State.pdReply_disorder))

theorem State.connectSbu_disorder (s : State) (p : Port) (lim : Nat) (dz : s.disorder ≤ lim) : (State.connectSbu s p).disorder ≤ lim := by
  unfold State.connectSbu
  with_reducible repeat' (first | assumption | apply State.updPd_disorder | apply State.emit_disorder | apply forAll_disorder | simp only [State.disorder_mk, State.disorder_fold] | apply disorder_put | apply disorder_nil | apply disorder_filter | dsimp only | split | intro)

theorem State.sbuFollow_disorder (s : State) (p : Port) (b : List Byte) (lim : Nat) (dz : s.disorder ≤ lim) : (State.sbuFollow s p b).disorder ≤ lim := by
  unfold State.sbuFollow
  with_reducible repeat' (first | assumption | apply State.isolateSbu_disorder | apply State.connectSbu_disorder | simp only [State.disorder_mk, State.disorder_fold] | apply disorder_put | apply disorder_nil | apply disorder_filter | dsimp only | split)

theorem State.onRetryWait_disorder (s : State) (p : Port) (w : WaitRetry) (lim : Nat) (dz : s.disorder ≤ lim) : (State.onRetryWait s p w).disorder ≤ lim := by
  unfold State.onRetryWait
  with_reducible repeat' (first | assumption | apply State.sendOutcome_disorder | apply State.updPd_disorder | apply State.pdIdle_disorder | apply State.portEvent_disorder | apply forAll_disorder | simp only [State.disorder_mk, State.disorder_fold] | apply disorder_put | apply disorder_nil | apply disorder_filter | dsimp only | split | intro)

theorem State.onSoftReset_disorder (s : State) (p : Port) (lim : Nat) (dz : s.disorder ≤ lim) : (State.onSoftReset s p).disorder ≤ lim := by
  unfold State.onSoftReset
  with_reducible repeat' (first | assumption | apply State.protocolReset_disorder | apply State.updPd_disorder | apply State.pdReply_disorder | apply forAll_disorder | simp only [State.disorder_mk, State.disorder_fold] | apply disorder_put | apply disorder_nil | apply disorder_filter | dsimp only | split | intro)

theorem State.pdAnswer_disorder (s : State) (p : Port) (sop : Fin 5) (b : List Byte) (lim : Nat) (dz : s.disorder ≤ lim) :
    (State.pdAnswer s p sop b).1.disorder ≤ lim := by
  unfold State.pdAnswer
  dsimp only
  split
  · with_reducible apply State.onSoftReset_disorder; assumption
  · split
    · dsimp only
      generalize (s.pd.get p).retry = r
      cases r with
      | none => exact dz
      | some r => exact State.onRetryWait_disorder _ _ _ _ dz
    · split
      · have q := State.inSequence_disorder _ _ _ _ _ dz _ ‹_›
        with_reducible repeat' (first | assumption | apply State.updPd_disorder | dsimp only | split)
      · with_reducible apply State.autoRespond_disorder; assumption

theorem State.sopPrecedence_disorder (s : State) (p : Port) (lim : Nat) (dz : s.disorder ≤ lim) : (State.sopPrecedence s p).disorder ≤ lim := by
  unfold State.sopPrecedence
  with_reducible repeat' (first | assumption | apply State.updPd_disorder | apply State.pdAbandon_disorder | apply State.sendOutcome_disorder | apply State.setRp_disorder | apply forAll_disorder | simp only [State.disorder_mk, State.disorder_fold] | apply disorder_put | apply disorder_nil | apply disorder_filter | dsimp only | split | intro)

theorem State.pdArrived_disorder (s : State) (p : Port) (sop : Fin 5) (b : List Byte) (lim : Nat) (dz : s.disorder ≤ lim) : (State.pdArrived s p sop b).disorder ≤ lim := by
  unfold State.pdArrived
  with_reducible repeat' (first | assumption | apply State.messageDropped_disorder | apply State.emit_disorder | apply State.updPd_disorder | apply State.sbuFollow_disorder | apply State.pdAnswer_disorder | apply State.messageWhole_disorder | apply forAll_disorder | simp only [State.disorder_mk, State.disorder_fold] | apply disorder_put | apply disorder_nil | apply disorder_filter | dsimp only | split | intro)

theorem State.pdReceived_disorder (s : State) (p : Port) (sop : Fin 5) (b : List Byte) (lim : Nat) (dz : s.disorder ≤ lim) : (State.pdReceived s p sop b).disorder ≤ lim := by
  unfold State.pdReceived
  with_reducible repeat' (first | assumption | apply State.sopDetected_disorder | apply State.sopPrecedence_disorder | apply State.updPd_disorder | apply State.pdArrived_disorder | apply State.pdIdle_disorder | apply forAll_disorder | simp only [State.disorder_mk, State.disorder_fold] | apply disorder_put | apply disorder_nil | apply disorder_filter | dsimp only | split | intro)

theorem State.sentByHost_disorder (s : State) (p : Port) (o : PdOut) (lim : Nat) (dz : s.disorder ≤ lim) : (State.sentByHost s p o).disorder ≤ lim := by
  unfold State.sentByHost
  with_reducible repeat' (first | assumption | apply State.updPd_disorder | apply State.sendOutcome_disorder | apply State.pdIdle_disorder | apply State.sendCaps_disorder | simp only [State.disorder_mk, State.disorder_fold] | apply disorder_put | apply disorder_nil | apply disorder_filter | dsimp only | split)

theorem State.goodCrcFor_disorder (s : State) (p : Port) (lim : Nat) (dz : s.disorder ≤ lim) : (State.goodCrcFor s p).disorder ≤ lim := by
  unfold State.goodCrcFor
  with_reducible repeat' (first | assumption | apply State.updPd_disorder | apply State.acceptRequest_disorder | apply State.contractInForce_disorder | apply State.pdIdle_disorder | apply State.answer_disorder | apply State.sendCaps_disorder | apply State.setVconn_disorder | apply State.pdReply_disorder | apply State.sentByHost_disorder | apply forAll_disorder | simp only [State.disorder_mk, State.disorder_fold] | apply disorder_put | apply disorder_nil | apply disorder_filter | dsimp only | split | intro)

theorem State.sendFailed_disorder (s : State) (p : Port) (o : PdOut) (lim : Nat) (dz : s.disorder ≤ lim) : (State.sendFailed s p o).disorder ≤ lim := by
  unfold State.sendFailed
  with_reducible repeat' (first | assumption | apply State.updPd_disorder | apply State.sendSoftReset_disorder | apply State.pdIdle_disorder | apply State.sendHardReset_disorder | apply State.sendOutcome_disorder | apply forAll_disorder | simp only [State.disorder_mk, State.disorder_fold] | apply disorder_put | apply disorder_nil | apply disorder_filter | dsimp only | split | intro)

theorem State.receiveTimeout_disorder (s : State) (p : Port) (lim : Nat) (dz : s.disorder ≤ lim) : (State.receiveTimeout s p).disorder ≤ lim := by
  unfold State.receiveTimeout
  with_reducible repeat' (first | assumption | apply State.pdTransmit_disorder | apply State.sendFailed_disorder | simp only [State.disorder_mk, State.disorder_fold] | apply disorder_put | apply disorder_nil | apply disorder_filter | dsimp only | split)

theorem State.capsTimer_disorder (s : State) (p : Port) (lim : Nat) (dz : s.disorder ≤ lim) : (State.capsTimer s p).disorder ≤ lim := by
  unfold State.capsTimer
  with_reducible repeat' (first | assumption | apply State.sendCaps_disorder | apply forAll_disorder | simp only [State.disorder_mk, State.disorder_fold] | apply disorder_put | apply disorder_nil | apply disorder_filter | dsimp only | split | intro)

theorem State.capsDue_disorder (s : State) (p : Port) (lim : Nat) (dz : s.disorder ≤ lim) : (State.capsDue s p).disorder ≤ lim := by
  unfold State.capsDue
  with_reducible repeat' (first | assumption | apply State.sendCaps_disorder | apply forAll_disorder | simp only [State.disorder_mk, State.disorder_fold] | apply disorder_put | apply disorder_nil | apply disorder_filter | dsimp only | split | intro)

theorem State.discoverStart_disorder (s : State) (p : Port) (lim : Nat) (dz : s.disorder ≤ lim) : (State.discoverStart s p).disorder ≤ lim := by
  unfold State.discoverStart
  with_reducible repeat' (first | assumption | apply State.updPd_disorder | apply State.pdStart_disorder | apply forAll_disorder | simp only [State.disorder_mk, State.disorder_fold] | apply disorder_put | apply disorder_nil | apply disorder_filter | dsimp only | split | intro)

theorem State.sinkTxDone_disorder (s : State) (p : Port) (lim : Nat) (dz : s.disorder ≤ lim) : (State.sinkTxDone s p).disorder ≤ lim := by
  unfold State.sinkTxDone
  with_reducible repeat' (first | assumption | apply State.updPd_disorder | apply State.pdTransmit_disorder | apply forAll_disorder | simp only [State.disorder_mk, State.disorder_fold] | apply disorder_put | apply disorder_nil | apply disorder_filter | dsimp only | split | intro)

theorem State.responseTimeout_disorder (s : State) (p : Port) (lim : Nat) (dz : s.disorder ≤ lim) : (State.responseTimeout s p).disorder ≤ lim := by
  unfold State.responseTimeout
  with_reducible repeat' (first | assumption | apply State.updPd_disorder | apply State.sendOutcome_disorder | apply State.pdIdle_disorder | apply State.sendHardReset_disorder | simp only [State.disorder_mk, State.disorder_fold] | apply disorder_put | apply disorder_nil | apply disorder_filter | dsimp only | split)

theorem State.noResponse_disorder (s : State) (p : Port) (lim : Nat) (dz : s.disorder ≤ lim) : (State.noResponse s p).disorder ≤ lim := by
  unfold State.noResponse
  with_reducible repeat' (first | assumption | apply State.updPd_disorder | apply State.pdIdle_disorder | apply State.sendHardReset_disorder | apply forAll_disorder | simp only [State.disorder_mk, State.disorder_fold] | apply disorder_put | apply disorder_nil | apply disorder_filter | dsimp only | split | intro)

theorem State.ppsTimeout_disorder (s : State) (p : Port) (lim : Nat) (dz : s.disorder ≤ lim) : (State.ppsTimeout s p).disorder ≤ lim := by
  unfold State.ppsTimeout
  with_reducible repeat' (first | assumption | apply State.sendHardReset_disorder | simp only [State.disorder_mk, State.disorder_fold] | apply disorder_put | apply disorder_nil | apply disorder_filter | dsimp only | split)

theorem State.fwdDeadline_disorder (s : State) (p : Port) (lim : Nat) (dz : s.disorder ≤ lim) : (State.fwdDeadline s p).disorder ≤ lim := by
  unfold State.fwdDeadline
  with_reducible repeat' (first | assumption | apply State.updPd_disorder | apply State.pdReply_disorder | apply State.answer_disorder | apply forAll_disorder | simp only [State.disorder_mk, State.disorder_fold] | apply disorder_put | apply disorder_nil | apply disorder_filter | dsimp only | split | intro)

theorem State.waitRetryDue_disorder (s : State) (p : Port) (lim : Nat) (dz : s.disorder ≤ lim) : (State.waitRetryDue s p).disorder ≤ lim := by
  unfold State.waitRetryDue
  with_reducible repeat' (first | assumption | apply State.updPd_disorder | apply State.pdStart_disorder | simp only [State.disorder_mk, State.disorder_fold] | apply disorder_put | apply disorder_nil | apply disorder_filter | dsimp only | split)

theorem State.srcTransition_disorder (s : State) (p : Port) (lim : Nat) (dz : s.disorder ≤ lim) : (State.srcTransition s p).disorder ≤ lim := by
  unfold State.srcTransition
  with_reducible repeat' (first | assumption | apply State.updVbus_disorder | apply State.updPd_disorder | apply State.refreshWord_disorder | apply State.sendPsRdy_disorder | simp only [State.disorder_mk, State.disorder_fold] | apply disorder_put | apply disorder_nil | apply disorder_filter | dsimp only | split)

theorem State.transitionPgood_disorder (s : State) (p : Port) (lim : Nat) (dz : s.disorder ≤ lim) : (State.transitionPgood s p).disorder ≤ lim := by
  unfold State.transitionPgood
  with_reducible repeat' (first | assumption | apply State.sendPsRdy_disorder | simp only [State.disorder_mk, State.disorder_fold] | apply disorder_put | apply disorder_nil | apply disorder_filter | dsimp only | split)

theorem State.transitionTimeout_disorder (s : State) (p : Port) (lim : Nat) (dz : s.disorder ≤ lim) : (State.transitionTimeout s p).disorder ≤ lim := by
  unfold State.transitionTimeout
  with_reducible repeat' (first | assumption | apply State.detect_disorder | apply State.sendHardReset_disorder | simp only [State.disorder_mk, State.disorder_fold] | apply disorder_put | apply disorder_nil | apply disorder_filter | dsimp only | split)

theorem State.hardResetReceived_disorder (s : State) (p : Port) (lim : Nat) (dz : s.disorder ≤ lim) : (State.hardResetReceived s p).disorder ≤ lim := by
  unfold State.hardResetReceived
  with_reducible repeat' (first | assumption | apply State.hardResetBegin_disorder | apply State.resetItem_disorder | simp only [State.disorder_mk, State.disorder_fold] | apply disorder_put | apply disorder_nil | apply disorder_filter | dsimp only | split)

theorem State.psHardReset_disorder (s : State) (p : Port) (lim : Nat) (dz : s.disorder ≤ lim) : (State.psHardReset s p).disorder ≤ lim := by
  unfold State.psHardReset
  with_reducible repeat' (first | assumption | apply State.hardResetOff_disorder | simp only [State.disorder_mk, State.disorder_fold] | apply disorder_put | apply disorder_nil | apply disorder_filter | dsimp only | split)

theorem State.srcRecover_disorder (s : State) (p : Port) (lim : Nat) (dz : s.disorder ≤ lim) : (State.srcRecover s p).disorder ≤ lim := by
  unfold State.srcRecover
  with_reducible repeat' (first | assumption | apply State.hardResetReturn_disorder | simp only [State.disorder_mk, State.disorder_fold] | apply disorder_put | apply disorder_nil | apply disorder_filter | dsimp only | split)

theorem State.vconnTimeout_disorder (s : State) (p : Port) (lim : Nat) (dz : s.disorder ≤ lim) : (State.vconnTimeout s p).disorder ≤ lim := by
  unfold State.vconnTimeout
  with_reducible repeat' (first | assumption | apply State.sendHardReset_disorder | simp only [State.disorder_mk, State.disorder_fold] | apply disorder_put | apply disorder_nil | apply disorder_filter | dsimp only | split)

theorem State.vconnLow_disorder (s : State) (p : Port) (lim : Nat) (dz : s.disorder ≤ lim) : (State.vconnLow s p).disorder ≤ lim := by
  unfold State.vconnLow
  with_reducible repeat' (first | assumption | apply State.updPd_disorder | apply State.setVconn_disorder | apply forAll_disorder | simp only [State.disorder_mk, State.disorder_fold] | apply disorder_put | apply disorder_nil | apply disorder_filter | dsimp only | split | intro)

theorem State.ccEvaluate_disorder (s : State) (p : Port) (lim : Nat) (dz : s.disorder ≤ lim) : (State.ccEvaluate s p).disorder ≤ lim := by
  unfold State.ccEvaluate
  with_reducible repeat' (first | assumption | apply State.updPd_disorder)

theorem State.ccChange_disorder (s : State) (p : Port) (c1 c2 : CcLine) (lim : Nat) (dz : s.disorder ≤ lim) : (State.ccChange s p c1 c2).disorder ≤ lim := by
  unfold State.ccChange
  with_reducible repeat' (first | assumption | apply State.updPd_disorder | apply State.ccEvaluate_disorder | simp only [State.disorder_mk, State.disorder_fold] | apply disorder_put | apply disorder_nil | apply disorder_filter | dsimp only | split)

theorem State.enterAttached_disorder (s : State) (p : Port) (lim : Nat) (dz : s.disorder ≤ lim) : (State.enterAttached s p).disorder ≤ lim := by
  unfold State.enterAttached
  with_reducible repeat' (first | assumption | apply State.updPd_disorder | apply State.setVconn_disorder | apply State.setRp_disorder | apply State.updVbus_disorder | apply State.refreshWord_disorder | apply State.contractEvent_disorder | apply forAll_disorder | simp only [State.disorder_mk, State.disorder_fold] | apply disorder_put | apply disorder_nil | apply disorder_filter | dsimp only | split | intro)

theorem State.enterDebug_disorder (s : State) (p : Port) (lim : Nat) (dz : s.disorder ≤ lim) : (State.enterDebug s p).disorder ≤ lim := by
  unfold State.enterDebug
  with_reducible repeat' (first | assumption | apply State.updVbus_disorder | apply State.updPd_disorder | apply State.refreshWord_disorder | apply State.setRp_disorder | apply State.bindUart_disorder | apply State.connectSbu_disorder | simp only [State.disorder_mk, State.disorder_fold] | apply disorder_put | apply disorder_nil | apply disorder_filter | dsimp only | split)

theorem State.ccDebounced_disorder (s : State) (p : Port) (lim : Nat) (dz : s.disorder ≤ lim) : (State.ccDebounced s p).disorder ≤ lim := by
  unfold State.ccDebounced
  with_reducible repeat' (first | assumption | apply State.updPd_disorder | apply State.enterAttached_disorder | apply State.enterDebug_disorder | simp only [State.disorder_mk, State.disorder_fold] | apply disorder_put | apply disorder_nil | apply disorder_filter | dsimp only | split)

theorem State.endHold_disorder (s : State) (p : Port) (lim : Nat) (dz : s.disorder ≤ lim) : (State.endHold s p).disorder ≤ lim := by
  unfold State.endHold
  with_reducible repeat' (first | assumption | apply State.updVbus_disorder)

theorem State.detachTypeC_disorder (s : State) (p : Port) (lim : Nat) (dz : s.disorder ≤ lim) : (State.detachTypeC s p).disorder ≤ lim := by
  unfold State.detachTypeC
  with_reducible repeat' (first | assumption | apply State.endContract_disorder | apply State.endHold_disorder | apply State.isolateSbu_disorder | apply State.freeUart_disorder | apply State.setVconn_disorder | apply State.updPd_disorder | apply State.setRp_disorder | apply State.startDischarge_disorder | apply State.writeWord_disorder | apply State.ccEvaluate_disorder | apply forAll_disorder | simp only [State.disorder_mk, State.disorder_fold] | apply disorder_put | apply disorder_nil | apply disorder_filter | dsimp only | split | intro)

theorem State.rdLost_disorder (s : State) (p : Port) (lim : Nat) (dz : s.disorder ≤ lim) : (State.rdLost s p).disorder ≤ lim := by
  unfold State.rdLost
  with_reducible repeat' (first | assumption | apply State.detachTypeC_disorder | simp only [State.disorder_mk, State.disorder_fold] | apply disorder_put | apply disorder_nil | apply disorder_filter | dsimp only | split)

theorem State.raLost_disorder (s : State) (p : Port) (lim : Nat) (dz : s.disorder ≤ lim) : (State.raLost s p).disorder ≤ lim := by
  unfold State.raLost
  with_reducible repeat' (first | assumption | apply State.updPd_disorder | apply State.ccEvaluate_disorder | simp only [State.disorder_mk, State.disorder_fold] | apply disorder_put | apply disorder_nil | apply disorder_filter | dsimp only | split)

theorem State.enterRecovery_disorder (s : State) (p : Port) (lim : Nat) (dz : s.disorder ≤ lim) : (State.enterRecovery s p).disorder ≤ lim := by
  unfold State.enterRecovery
  with_reducible repeat' (first | assumption | apply State.endContract_disorder | apply State.isolateSbu_disorder | apply State.freeUart_disorder | apply State.setVconn_disorder | apply State.updPd_disorder | apply State.setRp_disorder | apply State.refreshWord_disorder | apply forAll_disorder | simp only [State.disorder_mk, State.disorder_fold] | apply disorder_put | apply disorder_nil | apply disorder_filter | dsimp only | split | intro)

theorem State.vconnOvercurrent_disorder (s : State) (p : Port) (lim : Nat) (dz : s.disorder ≤ lim) : (State.vconnOvercurrent s p).disorder ≤ lim := by
  unfold State.vconnOvercurrent
  with_reducible repeat' (first | assumption | apply State.detect_disorder | apply State.enterRecovery_disorder | simp only [State.disorder_mk, State.disorder_fold] | apply disorder_put | apply disorder_nil | apply disorder_filter | dsimp only | split)

theorem State.recoveryDone_disorder (s : State) (p : Port) (lim : Nat) (dz : s.disorder ≤ lim) : (State.recoveryDone s p).disorder ≤ lim := by
  unfold State.recoveryDone
  with_reducible repeat' (first | assumption | apply State.updPd_disorder | apply State.setRp_disorder | apply State.ccEvaluate_disorder | simp only [State.disorder_mk, State.disorder_fold] | apply disorder_put | apply disorder_nil | apply disorder_filter | dsimp only | split)

theorem State.openTypeC_disorder (s : State) (p : Port) (lim : Nat) (dz : s.disorder ≤ lim) : (State.openTypeC s p).disorder ≤ lim := by
  unfold State.openTypeC
  with_reducible repeat' (first | assumption | apply State.endContract_disorder | apply State.freeUart_disorder | apply State.setVconn_disorder | apply State.updPd_disorder | apply State.setRp_disorder | apply State.refreshWord_disorder | apply forAll_disorder | simp only [State.disorder_mk, State.disorder_fold] | apply disorder_put | apply disorder_nil | apply disorder_filter | dsimp only | split | intro)

theorem State.leaveOpen_disorder (s : State) (p : Port) (lim : Nat) (dz : s.disorder ≤ lim) : (State.leaveOpen s p).disorder ≤ lim := by
  unfold State.leaveOpen
  with_reducible repeat' (first | assumption | apply State.updPd_disorder | apply State.setRp_disorder | apply State.ccEvaluate_disorder | simp only [State.disorder_mk, State.disorder_fold] | apply disorder_put | apply disorder_nil | apply disorder_filter | dsimp only | split)

theorem State.updSlot_disorder (s : State) (k : Slot) (f : SlotState → SlotState) (lim : Nat) (dz : s.disorder ≤ lim) : (State.updSlot s k f).disorder ≤ lim := by
  unfold State.updSlot
  with_reducible repeat' (first | assumption | simp only [State.disorder_mk, State.disorder_fold])

theorem State.spcEvent_disorder (s : State) (k : Slot) (code : Nat) (payload : List Byte) (lim : Nat) (dz : s.disorder ≤ lim) : (State.spcEvent s k code payload).disorder ≤ lim := by
  unfold State.spcEvent
  with_reducible repeat' (first | assumption | apply State.slotEvent_disorder | simp only [State.disorder_mk, State.disorder_fold] | apply disorder_put | apply disorder_nil | apply disorder_filter | dsimp only | split)

theorem State.enterHold_disorder (s : State) (p : Port) (c : HoldCause) (lim : Nat) (dz : s.disorder ≤ lim) : (State.enterHold s p c).disorder ≤ lim := by
  unfold State.enterHold
  with_reducible repeat' (first | assumption | apply State.endContract_disorder | apply State.updPd_disorder | apply State.updVbus_disorder | apply State.writeWord_disorder | apply State.detect_disorder | apply forAll_disorder | simp only [State.disorder_mk, State.disorder_fold] | apply disorder_put | apply disorder_nil | apply disorder_filter | dsimp only | split | intro)

theorem State.holdPort_disorder (s : State) (p : Port) (c : HoldCause) (lim : Nat) (dz : s.disorder ≤ lim) : (State.holdPort s p c).disorder ≤ lim := by
  unfold State.holdPort
  with_reducible repeat' (first | assumption | apply State.updVbus_disorder | apply State.enterHold_disorder | simp only [State.disorder_mk, State.disorder_fold] | apply disorder_put | apply disorder_nil | apply disorder_filter | dsimp only | split)

theorem State.chainDown_disorder (s : State) (k : Slot) (lim : Nat) (dz : s.disorder ≤ lim) : (State.chainDown s k).disorder ≤ lim := by
  unfold State.chainDown
  with_reducible repeat' (first | assumption | apply State.spcEvent_disorder | apply forAll_disorder | apply State.updVbus_disorder | apply forAll_disorder | simp only [State.disorder_mk, State.disorder_fold] | apply disorder_put | apply disorder_nil | apply disorder_filter | dsimp only | split | intro)

theorem State.leaveOn_disorder (s : State) (k : Slot) (lim : Nat) (dz : s.disorder ≤ lim) : (State.leaveOn s k).disorder ≤ lim := by
  unfold State.leaveOn
  with_reducible repeat' (first | assumption | apply State.updSlot_disorder | apply State.chainDown_disorder | apply forAll_disorder | apply State.endContract_disorder | apply State.refreshWord_disorder | apply State.answer_disorder | apply forAll_disorder | simp only [State.disorder_mk, State.disorder_fold] | apply disorder_put | apply disorder_nil | apply disorder_filter | dsimp only | split | intro)

theorem State.slotTripEvent_disorder (s : State) (k : Slot) (kind : Byte) (counted : Bool) (inj : Bool) (lim : Nat) (dz : s.disorder ≤ lim) : (State.slotTripEvent s k kind counted inj).disorder ≤ lim := by
  unfold State.slotTripEvent
  with_reducible repeat' (first | assumption | apply State.spcEvent_disorder | apply State.report_disorder | apply forAll_disorder | simp only [State.disorder_mk, State.disorder_fold] | apply disorder_put | apply disorder_nil | apply disorder_filter | dsimp only | split | intro)

theorem State.gateOff_disorder (s : State) (k : Slot) (dest : SlotSt) (lim : Nat) (dz : s.disorder ≤ lim) : (State.gateOff s k dest).disorder ≤ lim := by
  unfold State.gateOff
  with_reducible repeat' (first | assumption | apply State.updSlot_disorder | apply State.leaveOn_disorder | apply forAll_disorder | simp only [State.disorder_mk, State.disorder_fold] | apply disorder_put | apply disorder_nil | apply disorder_filter | dsimp only | split | intro)

theorem State.trip_disorder (s : State) (k : Slot) (kind : Byte) (inj atBudget : Bool) (lim : Nat) (dz : s.disorder ≤ lim) : (State.trip s k kind inj atBudget).disorder ≤ lim := by
  unfold State.trip
  with_reducible repeat' (first | assumption | apply State.updSlot_disorder | apply State.gateOff_disorder | apply State.slotTripEvent_disorder | apply State.spcEvent_disorder | apply State.report_disorder | apply forAll_disorder | simp only [State.disorder_mk, State.disorder_fold] | apply disorder_put | apply disorder_nil | apply disorder_filter | dsimp only | split | intro)

theorem State.notePeak_disorder (s : State) (k : Slot) (sense : Nat) (lim : Nat) (dz : s.disorder ≤ lim) : (State.notePeak s k sense).disorder ≤ lim := by
  unfold State.notePeak
  with_reducible repeat' (first | assumption | apply State.updSlot_disorder)

theorem State.fastTrip_disorder (s : State) (k : Slot) (sense : Nat) (inj : Bool) (lim : Nat) (dz : s.disorder ≤ lim) : (State.fastTrip s k sense inj).disorder ≤ lim := by
  unfold State.fastTrip
  with_reducible repeat' (first | assumption | apply State.trip_disorder | apply State.notePeak_disorder | simp only [State.disorder_mk, State.disorder_fold] | apply disorder_put | apply disorder_nil | apply disorder_filter | dsimp only | split)

theorem State.breakerTrip_disorder (s : State) (k : Slot) (sense : Nat) (inj atBudget : Bool) (lim : Nat) (dz : s.disorder ≤ lim) : (State.breakerTrip s k sense inj atBudget).disorder ≤ lim := by
  unfold State.breakerTrip
  with_reducible repeat' (first | assumption | apply State.trip_disorder | apply State.notePeak_disorder | simp only [State.disorder_mk, State.disorder_fold] | apply disorder_put | apply disorder_nil | apply disorder_filter | dsimp only | split)

theorem State.rampStall_disorder (s : State) (k : Slot) (inj : Bool) (lim : Nat) (dz : s.disorder ≤ lim) : (State.rampStall s k inj).disorder ≤ lim := by
  unfold State.rampStall
  with_reducible repeat' (first | assumption | apply State.trip_disorder | simp only [State.disorder_mk, State.disorder_fold] | apply disorder_put | apply disorder_nil | apply disorder_filter | dsimp only | split)

theorem State.pgLost_disorder (s : State) (k : Slot) (inj : Bool) (lim : Nat) (dz : s.disorder ≤ lim) : (State.pgLost s k inj).disorder ≤ lim := by
  unfold State.pgLost
  with_reducible repeat' (first | assumption | apply State.trip_disorder | simp only [State.disorder_mk, State.disorder_fold] | apply disorder_put | apply disorder_nil | apply disorder_filter | dsimp only | split)

theorem State.noteVin_disorder (s : State) (k : Slot) (mv : Nat) (lim : Nat) (dz : s.disorder ≤ lim) : (State.noteVin s k mv).disorder ≤ lim := by
  unfold State.noteVin
  with_reducible repeat' (first | assumption | apply State.updSlot_disorder | apply forAll_disorder | simp only [State.disorder_mk, State.disorder_fold] | apply disorder_put | apply disorder_nil | apply disorder_filter | dsimp only | split | intro)

theorem State.vinExit_disorder (s : State) (k : Slot) (mv : Nat) (inj : Bool) (lim : Nat) (dz : s.disorder ≤ lim) : (State.vinExit s k mv inj).disorder ≤ lim := by
  unfold State.vinExit
  with_reducible repeat' (first | assumption | apply State.noteVin_disorder | apply State.updSlot_disorder | apply State.gateOff_disorder | apply State.slotTripEvent_disorder | apply forAll_disorder | simp only [State.disorder_mk, State.disorder_fold] | apply disorder_put | apply disorder_nil | apply disorder_filter | dsimp only | split | intro)

theorem State.seatLow_disorder (s : State) (k : Slot) (lim : Nat) (dz : s.disorder ≤ lim) : (State.seatLow s k).disorder ≤ lim := by
  unfold State.seatLow
  with_reducible repeat' (first | assumption | apply State.updSlot_disorder)

theorem State.seatHigh_disorder (s : State) (k : Slot) (inj : Bool) (lim : Nat) (dz : s.disorder ≤ lim) : (State.seatHigh s k inj).disorder ≤ lim := by
  unfold State.seatHigh
  with_reducible repeat' (first | assumption | apply State.updSlot_disorder | apply State.slotTripEvent_disorder | apply State.gateOff_disorder | apply State.seatLow_disorder | simp only [State.disorder_mk, State.disorder_fold] | apply disorder_put | apply disorder_nil | apply disorder_filter | dsimp only | split)

theorem State.seatDebounced_disorder (s : State) (k : Slot) (lim : Nat) (dz : s.disorder ≤ lim) : (State.seatDebounced s k).disorder ≤ lim := by
  unfold State.seatDebounced
  with_reducible repeat' (first | assumption | apply State.updSlot_disorder)

theorem State.startRamp_disorder (s : State) (k : Slot) (mv : Nat) (lim : Nat) (dz : s.disorder ≤ lim) : (State.startRamp s k mv).disorder ≤ lim := by
  unfold State.startRamp
  with_reducible repeat' (first | assumption | apply State.noteVin_disorder | apply State.updSlot_disorder | apply forAll_disorder | simp only [State.disorder_mk, State.disorder_fold] | apply disorder_put | apply disorder_nil | apply disorder_filter | dsimp only | split | intro)

theorem State.offTime_disorder (s : State) (k : Slot) (mv : Nat) (lim : Nat) (dz : s.disorder ≤ lim) : (State.offTime s k mv).disorder ≤ lim := by
  unfold State.offTime
  with_reducible repeat' (first | assumption | apply State.noteVin_disorder | apply State.updSlot_disorder | apply forAll_disorder | simp only [State.disorder_mk, State.disorder_fold] | apply disorder_put | apply disorder_nil | apply disorder_filter | dsimp only | split | intro)

theorem State.pgHold_disorder (s : State) (k : Slot) (lim : Nat) (dz : s.disorder ≤ lim) : (State.pgHold s k).disorder ≤ lim := by
  unfold State.pgHold
  with_reducible repeat' (first | assumption | apply State.updSlot_disorder)

theorem State.pgConditionsLost_disorder (s : State) (k : Slot) (lim : Nat) (dz : s.disorder ≤ lim) : (State.pgConditionsLost s k).disorder ≤ lim := by
  unfold State.pgConditionsLost
  with_reducible repeat' (first | assumption | apply State.updSlot_disorder)

theorem State.chainSettles_disorder (s : State) (k : Slot) (lim : Nat) (dz : s.disorder ≤ lim) : (State.chainSettles s k).disorder ≤ lim := by
  unfold State.chainSettles
  with_reducible repeat' (first | assumption | apply forAll_disorder | simp only [State.disorder_mk, State.disorder_fold] | apply disorder_put | apply disorder_nil | apply disorder_filter | dsimp only | split | intro)

theorem State.pgDelay_disorder (s : State) (k : Slot) (lim : Nat) (dz : s.disorder ≤ lim) : (State.pgDelay s k).disorder ≤ lim := by
  unfold State.pgDelay
  with_reducible repeat' (first | assumption | apply State.updSlot_disorder | apply State.chainSettles_disorder | apply forAll_disorder | simp only [State.disorder_mk, State.disorder_fold] | apply disorder_put | apply disorder_nil | apply disorder_filter | dsimp only | split | intro)

theorem State.slotLearned_disorder (s : State) (k : Slot) (lim : Nat) (dz : s.disorder ≤ lim) : (State.slotLearned s k).disorder ≤ lim := by
  unfold State.slotLearned
  with_reducible repeat' (first | assumption | apply State.leaveOn_disorder | apply State.chainSettles_disorder | apply forAll_disorder | simp only [State.disorder_mk, State.disorder_fold] | apply disorder_put | apply disorder_nil | apply disorder_filter | dsimp only | split | intro)

theorem State.tripAging_disorder (s : State) (k : Slot) (lim : Nat) (dz : s.disorder ≤ lim) : (State.tripAging s k).disorder ≤ lim := by
  unfold State.tripAging
  with_reducible repeat' (first | assumption | apply State.updSlot_disorder)

theorem State.slotSample_disorder (s : State) (k : Slot) (vin vout sense : BitVec 12) (lim : Nat) (dz : s.disorder ≤ lim) : (State.slotSample s k vin vout sense).disorder ≤ lim := by
  unfold State.slotSample
  with_reducible repeat' (first | assumption | apply State.updSlot_disorder | apply State.notePeak_disorder | simp only [State.disorder_mk, State.disorder_fold] | apply disorder_put | apply disorder_nil | apply disorder_filter | dsimp only | split)

theorem State.slotDisableEnd_disorder (s : State) (k : Slot) (lim : Nat) (dz : s.disorder ≤ lim) : (State.slotDisableEnd s k).disorder ≤ lim := by
  unfold State.slotDisableEnd
  with_reducible repeat' (first | assumption | apply State.answer_disorder | apply State.refreshWord_disorder | apply State.updSlot_disorder | apply State.chainDown_disorder | apply forAll_disorder)

theorem State.slotDisableBegin_disorder (s : State) (k : Slot) (lim : Nat) (dz : s.disorder ≤ lim) : (State.slotDisableBegin s k).disorder ≤ lim := by
  unfold State.slotDisableBegin
  with_reducible repeat' (first | assumption | apply State.updSlot_disorder | apply forAll_disorder | apply State.endContract_disorder | apply State.refreshWord_disorder | apply forAll_disorder | simp only [State.disorder_mk, State.disorder_fold] | apply disorder_put | apply disorder_nil | apply disorder_filter | dsimp only | split | intro)

theorem State.slotDisableCheck_disorder (s : State) (k : Slot) (lim : Nat) (dz : s.disorder ≤ lim) : (State.slotDisableCheck s k).disorder ≤ lim := by
  unfold State.slotDisableCheck
  with_reducible repeat' (first | assumption | apply State.slotDisableEnd_disorder | simp only [State.disorder_mk, State.disorder_fold] | apply disorder_put | apply disorder_nil | apply disorder_filter | dsimp only | split)

theorem State.slotDisableTimeout_disorder (s : State) (k : Slot) (lim : Nat) (dz : s.disorder ≤ lim) : (State.slotDisableTimeout s k).disorder ≤ lim := by
  unfold State.slotDisableTimeout
  with_reducible repeat' (first | assumption | apply State.holdPort_disorder | apply State.slotDisableEnd_disorder | apply forAll_disorder | simp only [State.disorder_mk, State.disorder_fold] | apply disorder_put | apply disorder_nil | apply disorder_filter | dsimp only | split | intro)

theorem State.slotOff_disorder (s : State) (k : Slot) (lim : Nat) (dz : s.disorder ≤ lim) : (State.slotOff s k).disorder ≤ lim := by
  unfold State.slotOff
  with_reducible repeat' (first | assumption | apply State.updSlot_disorder | apply State.slotDisableBegin_disorder | simp only [State.disorder_mk, State.disorder_fold] | apply disorder_put | apply disorder_nil | apply disorder_filter | dsimp only | split)

theorem opSlotEnable_disorder (m : VcpMsg) (k : Slot) (s : State) (lim : Nat) (dz : s.disorder ≤ lim) : (opSlotEnable m k s).1.disorder ≤ lim := by
  unfold opSlotEnable
  with_reducible repeat' (first | assumption | apply refuse_disorder | apply ok_disorder | apply State.refreshWord_disorder | apply State.updSlot_disorder | apply State.chainDown_disorder | apply State.slotOff_disorder | apply forAll_disorder | simp only [State.disorder_mk, State.disorder_fold] | apply disorder_put | apply disorder_nil | apply disorder_filter | dsimp only | split)

theorem opSlotClearLatch_disorder (m : VcpMsg) (k : Slot) (s : State) (lim : Nat) (dz : s.disorder ≤ lim) : (opSlotClearLatch m k s).1.disorder ≤ lim := by
  unfold opSlotClearLatch
  with_reducible repeat' (first | assumption | apply refuse_disorder | apply ok_disorder | apply State.updSlot_disorder | apply State.seatLow_disorder | simp only [State.disorder_mk, State.disorder_fold] | apply disorder_put | apply disorder_nil | apply disorder_filter | dsimp only | split)

theorem State.setLimits_disorder (s : State) (k : Slot) (l : List Byte) (lim : Nat) (dz : s.disorder ≤ lim) :
    ∀ t, State.setLimits s k l = some t → t.disorder ≤ lim := by
  intro t h
  unfold State.setLimits at h
  simp only [] at h
  split at h
  · simp at h
  · simp only [Option.some.injEq] at h
    subst h
    with_reducible repeat' (first | assumption | apply State.updSlot_disorder)

theorem opSlotSetLimits_disorder (m : VcpMsg) (k : Slot) (s : State) (lim : Nat) (dz : s.disorder ≤ lim) : (opSlotSetLimits m k s).1.disorder ≤ lim := by
  unfold opSlotSetLimits
  split
  · with_reducible repeat' (first | assumption | apply refuse_disorder)
  · have := State.setLimits_disorder _ _ _ _ dz _ ‹_›
    with_reducible repeat' (first | assumption | apply refuse_disorder | apply ok_disorder)

theorem opSlotGet_disorder (m : VcpMsg) (k : Slot) (s : State) (lim : Nat) (dz : s.disorder ≤ lim) : (opSlotGet m k s).1.disorder ≤ lim := by
  unfold opSlotGet
  with_reducible repeat' (first | assumption | apply State.tick_disorder | apply refuse_disorder | simp only [State.disorder_mk, State.disorder_fold] | apply disorder_put | apply disorder_nil | apply disorder_filter | dsimp only | split)

theorem opPpcGet_disorder (m : VcpMsg) (k : Slot) (only : Option Port) (s : State) (lim : Nat) (dz : s.disorder ≤ lim) : (opPpcGet m k only s).1.disorder ≤ lim := by
  unfold opPpcGet
  with_reducible repeat' (first | assumption | apply refuse_disorder | simp only [State.disorder_mk, State.disorder_fold] | apply disorder_put | apply disorder_nil | apply disorder_filter | dsimp only | split)

theorem State.updChain_disorder (s : State) (k : Slot) (f : ChainState → ChainState) (lim : Nat) (dz : s.disorder ≤ lim) : (State.updChain s k f).disorder ≤ lim := by
  unfold State.updChain
  with_reducible repeat' (first | assumption | simp only [State.disorder_mk, State.disorder_fold])

theorem State.wireNote_disorder (s : State) (p : Port) (i : Nat) (o : Option Bool) (lim : Nat) (dz : s.disorder ≤ lim) : (s.wireNote p i o).disorder ≤ lim := by
  unfold State.wireNote
  with_reducible repeat' (first | assumption | apply State.detect_disorder | apply State.spcEvent_disorder | simp only [State.disorder_mk, State.disorder_fold] | apply disorder_put | apply disorder_nil | apply disorder_filter | dsimp only | split)

theorem State.reachSafe0V_disorder (s : State) (p : Port) (lim : Nat) (dz : s.disorder ≤ lim) : (State.reachSafe0V s p).disorder ≤ lim := by
  unfold State.reachSafe0V
  with_reducible repeat' (first | assumption | apply State.updVbus_disorder | apply State.updPd_disorder | apply State.hardResetSafe_disorder | apply State.ccEvaluate_disorder | apply State.slotDisableCheck_disorder | simp only [State.disorder_mk, State.disorder_fold] | apply disorder_put | apply disorder_nil | apply disorder_filter | dsimp only | split)

theorem State.dischargeOver_disorder (s : State) (p : Port) (lim : Nat) (dz : s.disorder ≤ lim) : (State.dischargeOver s p).disorder ≤ lim := by
  unfold State.dischargeOver
  with_reducible repeat' (first | assumption | apply State.updVbus_disorder | apply State.refreshWord_disorder | apply State.holdPort_disorder | apply State.reachSafe0V_disorder | simp only [State.disorder_mk, State.disorder_fold] | apply disorder_put | apply disorder_nil | apply disorder_filter | dsimp only | split)

theorem State.releaseIdle_disorder (s : State) (k : Slot) (lim : Nat) (dz : s.disorder ≤ lim) : (State.releaseIdle s k).disorder ≤ lim := by
  unfold State.releaseIdle
  with_reducible repeat' (first | assumption | apply State.updVbus_disorder | apply forAll_disorder | simp only [State.disorder_mk, State.disorder_fold] | apply disorder_put | apply disorder_nil | apply disorder_filter | dsimp only | split | intro)

theorem State.releaseNext_disorder (s : State) (k : Slot) (lim : Nat) (dz : s.disorder ≤ lim) : (State.releaseNext s k).disorder ≤ lim := by
  unfold State.releaseNext
  with_reducible repeat' (first | assumption | apply State.releaseIdle_disorder | apply State.updVbus_disorder | apply State.updPd_disorder | apply forAll_disorder | simp only [State.disorder_mk, State.disorder_fold] | apply disorder_put | apply disorder_nil | apply disorder_filter | dsimp only | split | intro)

theorem State.chainUp_disorder (s : State) (k : Slot) (lim : Nat) (dz : s.disorder ≤ lim) : (State.chainUp s k).disorder ≤ lim := by
  unfold State.chainUp
  with_reducible repeat' (first | assumption | apply State.updVbus_disorder | apply State.releaseIdle_disorder | apply forAll_disorder | simp only [State.disorder_mk, State.disorder_fold] | apply disorder_put | apply disorder_nil | apply disorder_filter | dsimp only | split | intro)

theorem State.chainFault_disorder (s : State) (k : Slot) (kind : Nat) (lim : Nat) (dz : s.disorder ≤ lim) : (State.chainFault s k kind).disorder ≤ lim := by
  unfold State.chainFault
  with_reducible repeat' (first | assumption | apply State.spcEvent_disorder | apply State.detect_disorder | apply forAll_disorder | apply State.endContract_disorder | apply State.refreshWord_disorder | apply forAll_disorder | simp only [State.disorder_mk, State.disorder_fold] | apply disorder_put | apply disorder_nil | apply disorder_filter | dsimp only | split | intro)

theorem State.pgoodSeen_disorder (s : State) (p : Port) (lim : Nat) (dz : s.disorder ≤ lim) : (State.pgoodSeen s p).disorder ≤ lim := by
  unfold State.pgoodSeen
  with_reducible repeat' (first | assumption | apply State.updVbus_disorder | apply State.updPd_disorder | apply State.reachSafe0V_disorder | simp only [State.disorder_mk, State.disorder_fold] | apply disorder_put | apply disorder_nil | apply disorder_filter | dsimp only | split)

theorem State.judgePort_disorder (s : State) (p : Port) (b : Byte) (failing : Bool) (lim : Nat) (dz : s.disorder ≤ lim) : (State.judgePort s p b failing).disorder ≤ lim := by
  unfold State.judgePort
  with_reducible repeat' (first | assumption | apply State.updVbus_disorder | apply State.wireNote_disorder | apply State.detect_disorder | apply State.pgoodSeen_disorder | apply State.holdPort_disorder | apply forAll_disorder | simp only [State.disorder_mk, State.disorder_fold] | apply disorder_put | apply disorder_nil | apply disorder_filter | dsimp only | split | intro)

theorem State.judgeFrame_disorder (s : State) (k : Slot) (input : List Byte) (lim : Nat) (dz : s.disorder ≤ lim) : (State.judgeFrame s k input).disorder ≤ lim := by
  unfold State.judgeFrame
  with_reducible repeat' (first | assumption | apply State.chainUp_disorder | apply State.updChain_disorder | apply State.chainFault_disorder | apply forAll_disorder | apply State.judgePort_disorder | apply State.spcEvent_disorder | apply forAll_disorder | simp only [State.disorder_mk, State.disorder_fold] | apply disorder_put | apply disorder_nil | apply disorder_filter | dsimp only | split | intro)

theorem State.chainFrame_disorder (s : State) (k : Slot) (input : List Byte) (lim : Nat) (dz : s.disorder ≤ lim) : (State.chainFrame s k input).disorder ≤ lim := by
  unfold State.chainFrame
  with_reducible repeat' (first | assumption | apply forAll_disorder | apply State.updVbus_disorder | apply State.judgeFrame_disorder | apply State.emit_disorder | apply forAll_disorder | simp only [State.disorder_mk, State.disorder_fold] | apply disorder_put | apply disorder_nil | apply disorder_filter | dsimp only | split | intro)

theorem State.settlingTimeout_disorder (s : State) (k : Slot) (lim : Nat) (dz : s.disorder ≤ lim) : (State.settlingTimeout s k).disorder ≤ lim := by
  unfold State.settlingTimeout
  with_reducible repeat' (first | assumption | apply State.chainFault_disorder | simp only [State.disorder_mk, State.disorder_fold] | apply disorder_put | apply disorder_nil | apply disorder_filter | dsimp only | split)

theorem State.noPgoodTimeout_disorder (s : State) (p : Port) (lim : Nat) (dz : s.disorder ≤ lim) : (State.noPgoodTimeout s p).disorder ≤ lim := by
  unfold State.noPgoodTimeout
  with_reducible repeat' (first | assumption | apply State.holdPort_disorder | simp only [State.disorder_mk, State.disorder_fold] | apply disorder_put | apply disorder_nil | apply disorder_filter | dsimp only | split)

theorem State.pgoodLostTimeout_disorder (s : State) (p : Port) (lim : Nat) (dz : s.disorder ≤ lim) : (State.pgoodLostTimeout s p).disorder ≤ lim := by
  unfold State.pgoodLostTimeout
  with_reducible repeat' (first | assumption | apply State.holdPort_disorder | simp only [State.disorder_mk, State.disorder_fold] | apply disorder_put | apply disorder_nil | apply disorder_filter | dsimp only | split)

theorem State.updFw_disorder (s : State) (f : FirmwareState → FirmwareState) (lim : Nat) (dz : s.disorder ≤ lim) : (State.updFw s f).disorder ≤ lim := by
  unfold State.updFw
  with_reducible repeat' (first | assumption | simp only [State.disorder_mk, State.disorder_fold])

theorem State.setOffer_disorder (s : State) (p : Port) (l : List Byte) (lim : Nat) (dz : s.disorder ≤ lim) :
    ∀ t, State.setOffer s p l = some t → t.disorder ≤ lim := by
  intro t h
  unfold State.setOffer at h
  simp only [] at h
  split at h
  · simp at h
  · simp only [Option.some.injEq] at h
    subst h
    with_reducible repeat' (first | assumption | apply State.updPd_disorder)

theorem State.pdDisable_disorder (s : State) (p : Port) (lim : Nat) (dz : s.disorder ≤ lim) : (State.pdDisable s p).disorder ≤ lim := by
  unfold State.pdDisable
  with_reducible repeat' (first | assumption | apply State.endSequences_disorder | apply State.updPd_disorder | apply State.setRp_disorder | apply State.refreshWord_disorder | apply forAll_disorder | simp only [State.disorder_mk, State.disorder_fold] | apply disorder_put | apply disorder_nil | apply disorder_filter | dsimp only | split | intro)

theorem opPdSetOffer_disorder (m : VcpMsg) (p : Port) (s : State) (lim : Nat) (dz : s.disorder ≤ lim) : (opPdSetOffer m p s).1.disorder ≤ lim := by
  unfold opPdSetOffer
  split
  · exact refuse_disorder _ _ _ dz
  · have q := State.setOffer_disorder _ _ _ _ dz _ ‹_›
    with_reducible repeat' (first | assumption | apply ok_disorder | apply State.pdDisable_disorder | apply State.sendCaps_disorder | dsimp only | split)

theorem opPdSend_disorder (m : VcpMsg) (p : Port) (s : State) (lim : Nat) (dz : s.disorder ≤ lim) : (opPdSend m p s).1.disorder ≤ lim := by
  unfold opPdSend
  with_reducible repeat' (first | assumption | apply refuse_disorder | apply State.updPd_disorder | apply State.pdTransmit_disorder | apply State.pdStart_disorder | apply forAll_disorder | simp only [State.disorder_mk, State.disorder_fold] | apply disorder_put | apply disorder_nil | apply disorder_filter | dsimp only | split | intro)

theorem opPdSetAutoresp_disorder (m : VcpMsg) (p : Port) (s : State) (lim : Nat) (dz : s.disorder ≤ lim) : (opPdSetAutoresp m p s).1.disorder ≤ lim := by
  unfold opPdSetAutoresp
  with_reducible repeat' (first | assumption | apply refuse_disorder | apply ok_disorder | apply State.updPd_disorder | simp only [State.disorder_mk, State.disorder_fold] | apply disorder_put | apply disorder_nil | apply disorder_filter | dsimp only | split)

theorem opPdHardReset_disorder (m : VcpMsg) (p : Port) (s : State) (lim : Nat) (dz : s.disorder ≤ lim) : (opPdHardReset m p s).1.disorder ≤ lim := by
  unfold opPdHardReset
  with_reducible repeat' (first | assumption | apply refuse_disorder | apply State.sendHardReset_disorder | simp only [State.disorder_mk, State.disorder_fold] | apply disorder_put | apply disorder_nil | apply disorder_filter | dsimp only | split)

theorem State.setRpLevel_disorder (s : State) (p : Port) (r : RpLevel) (lim : Nat) (dz : s.disorder ≤ lim) : (State.setRpLevel s p r).disorder ≤ lim := by
  unfold State.setRpLevel
  with_reducible repeat' (first | assumption | apply State.updPd_disorder | apply State.refreshWord_disorder | apply State.setRp_disorder)

theorem opCcSetRp_disorder (m : VcpMsg) (p : Port) (s : State) (lim : Nat) (dz : s.disorder ≤ lim) : (opCcSetRp m p s).1.disorder ≤ lim := by
  unfold opCcSetRp
  with_reducible repeat' (first | assumption | apply refuse_disorder | apply ok_disorder | apply State.enterRecovery_disorder | apply State.setRpLevel_disorder | simp only [State.disorder_mk, State.disorder_fold] | apply disorder_put | apply disorder_nil | apply disorder_filter | dsimp only | split)

theorem State.syncBaud_disorder (s : State) (p : Port) (lim : Nat) (dz : s.disorder ≤ lim) : (State.syncBaud s p).disorder ≤ lim := by
  unfold State.syncBaud
  with_reducible repeat' (first | assumption | simp only [State.disorder_mk, State.disorder_fold])

theorem opSbuSetRoute_disorder (m : VcpMsg) (p : Port) (s : State) (lim : Nat) (dz : s.disorder ≤ lim) : (opSbuSetRoute m p s).1.disorder ≤ lim := by
  unfold opSbuSetRoute
  with_reducible repeat' (first | assumption | apply refuse_disorder | apply State.updPd_disorder | apply State.freeUart_disorder | apply State.bindUart_disorder | apply State.syncBaud_disorder | simp only [State.disorder_mk, State.disorder_fold] | apply disorder_put | apply disorder_nil | apply disorder_filter | dsimp only | split)

theorem opPdSetTimers_disorder (m : VcpMsg) (p : Port) (s : State) (lim : Nat) (dz : s.disorder ≤ lim) : (opPdSetTimers m p s).1.disorder ≤ lim := by
  unfold opPdSetTimers
  with_reducible repeat' (first | assumption | apply refuse_disorder | apply ok_disorder | apply State.updPd_disorder | simp only [State.disorder_mk, State.disorder_fold] | apply disorder_put | apply disorder_nil | apply disorder_filter | dsimp only | split)

theorem State.updUart_disorder (s : State) (k : Part) (u : Fin 6) (f : UartSlot → UartSlot) (lim : Nat) (dz : s.disorder ≤ lim) : (State.updUart s k u f).disorder ≤ lim := by
  unfold State.updUart
  with_reducible repeat' (first | assumption | simp only [State.disorder_mk, State.disorder_fold])

theorem State.cdcSetLine_disorder (s : State) (k : Part) (u : Fin 6) (rate format parity bits : Nat) (lim : Nat) (dz : s.disorder ≤ lim) : (State.cdcSetLine s k u rate format parity bits).disorder ≤ lim := by
  unfold State.cdcSetLine
  with_reducible repeat' (first | assumption | apply State.emit_disorder | apply State.updPd_disorder | apply State.updUart_disorder | simp only [State.disorder_mk, State.disorder_fold] | apply disorder_put | apply disorder_nil | apply disorder_filter | dsimp only | split)

theorem State.cdcGetLine_disorder (s : State) (k : Part) (u : Fin 6) (lim : Nat) (dz : s.disorder ≤ lim) : (State.cdcGetLine s k u).disorder ≤ lim := by
  unfold State.cdcGetLine
  with_reducible repeat' (first | assumption | apply State.emit_disorder)

theorem State.cdcOut_disorder (s : State) (k : Part) (u : Fin 6) (data : List Byte) (lim : Nat) (dz : s.disorder ≤ lim) : (State.cdcOut s k u data).disorder ≤ lim := by
  unfold State.cdcOut
  with_reducible repeat' (first | assumption | apply State.emit_disorder | apply State.updUart_disorder | apply forAll_disorder | simp only [State.disorder_mk, State.disorder_fold] | apply disorder_put | apply disorder_nil | apply disorder_filter | dsimp only | split | intro)

theorem State.uartRx_disorder (s : State) (p : Port) (c : Byte) (lim : Nat) (dz : s.disorder ≤ lim) : (State.uartRx s p c).disorder ≤ lim := by
  unfold State.uartRx
  with_reducible repeat' (first | assumption | apply State.updUart_disorder | simp only [State.disorder_mk, State.disorder_fold] | apply disorder_put | apply disorder_nil | apply disorder_filter | dsimp only | split)

theorem State.updBank_disorder (s : State) (b : Bank) (f : BankState → BankState) (lim : Nat) (dz : s.disorder ≤ lim) : (State.updBank s b f).disorder ≤ lim := by
  unfold State.updBank
  with_reducible repeat' (first | assumption | simp only [State.disorder_mk, State.disorder_fold])

theorem State.spend_disorder (s : State) (i : Injection) (lim : Nat) (dz : s.disorder ≤ lim) : (State.spend s i).disorder ≤ lim := by
  unfold State.spend
  with_reducible repeat' (first | assumption | simp only [State.disorder_mk, State.disorder_fold])

theorem State.addrCheck_disorder (s : State) (b : Bank) (lim : Nat) (dz : s.disorder ≤ lim) : (State.addrCheck s b).1.disorder ≤ lim := by
  unfold State.addrCheck
  with_reducible repeat' (first | assumption | apply State.report_disorder | apply State.spend_disorder | simp only [State.disorder_mk, State.disorder_fold] | apply disorder_put | apply disorder_nil | apply disorder_filter | dsimp only | split)

theorem State.storeWord_disorder (s : State) (b : Bank) (row word : Nat) (cw : BitVec 137) (lim : Nat) (dz : s.disorder ≤ lim) : (State.storeWord s b row word cw).disorder ≤ lim := by
  unfold State.storeWord
  with_reducible repeat' (first | assumption | apply State.updBank_disorder | apply State.spend_disorder | apply State.addrCheck_disorder | simp only [State.disorder_mk, State.disorder_fold] | apply disorder_put | apply disorder_nil | apply disorder_filter | dsimp only | split)

theorem State.trackSticky_disorder (s : State) (b : Bank) (row word : Nat) (syn : BitVec 9) (position : Nat) (inj : Bool) (lim : Nat) (dz : s.disorder ≤ lim) : (State.trackSticky s b row word syn position inj).disorder ≤ lim := by
  unfold State.trackSticky
  with_reducible repeat' (first | assumption | apply State.report_disorder | apply State.bankEvent_disorder | simp only [State.disorder_mk, State.disorder_fold] | apply disorder_put | apply disorder_nil | apply disorder_filter | dsimp only | split)

theorem State.raiseBucket_disorder (s : State) (b : Bank) (inj : Bool) (lim : Nat) (dz : s.disorder ≤ lim) : (State.raiseBucket s b inj).disorder ≤ lim := by
  unfold State.raiseBucket
  with_reducible repeat' (first | assumption | apply State.report_disorder | apply State.bankEvent_disorder | apply State.updBank_disorder | simp only [State.disorder_mk, State.disorder_fold] | apply disorder_put | apply disorder_nil | apply disorder_filter | dsimp only | split)

theorem State.countClass_disorder (s : State) (b : Bank) (row word : Nat) (syn : BitVec 9) (inj : Bool) (c : EccClass) (lim : Nat) (dz : s.disorder ≤ lim) : (s.countClass b row word syn inj c).disorder ≤ lim := by
  unfold State.countClass;
  with_reducible repeat' (first | assumption | apply State.updBank_disorder | apply State.trackSticky_disorder | apply State.raiseBucket_disorder | simp only [State.disorder_mk, State.disorder_fold] | apply disorder_put | apply disorder_nil | apply disorder_filter | dsimp only | split)

theorem State.readWord_disorder (s : State) (b : Bank) (row word : Nat) (lim : Nat) (dz : s.disorder ≤ lim) : (State.readWord s b row word).1.disorder ≤ lim := by
  unfold State.readWord
  with_reducible repeat' (first | assumption | apply State.tick_disorder | apply State.spend_disorder | apply State.addrCheck_disorder | apply State.countClass_disorder | simp only [State.disorder_mk, State.disorder_fold] | apply disorder_put | apply disorder_nil | apply disorder_filter | dsimp only | split)

theorem State.flushEntry_disorder (s : State) (b : Bank) (e : MergeEntry) (lim : Nat) (dz : s.disorder ≤ lim) : (State.flushEntry s b e).disorder ≤ lim := by
  unfold State.flushEntry
  with_reducible repeat' (first | assumption | apply State.updBank_disorder | apply State.storeWord_disorder | apply State.readWord_disorder | simp only [State.disorder_mk, State.disorder_fold] | apply disorder_put | apply disorder_nil | apply disorder_filter | dsimp only | split)

theorem State.fence_disorder (s : State) (b : Bank) (lim : Nat) (dz : s.disorder ≤ lim) : (State.fence s b).disorder ≤ lim := by
  unfold State.fence
  with_reducible repeat' (first | assumption | apply State.flushEntry_disorder | apply forAll_disorder | simp only [State.disorder_mk, State.disorder_fold] | apply disorder_put | apply disorder_nil | apply disorder_filter | dsimp only | split | intro)

theorem State.writePartial_disorder (s : State) (b : Bank) (row word : Nat) (bytes : BitVec 128) (mask : BitVec 16) (lim : Nat) (dz : s.disorder ≤ lim) : (State.writePartial s b row word bytes mask).disorder ≤ lim := by
  unfold State.writePartial
  with_reducible repeat' (first | assumption | apply State.updBank_disorder | apply State.flushEntry_disorder | simp only [State.disorder_mk, State.disorder_fold] | apply disorder_put | apply disorder_nil | apply disorder_filter | dsimp only | split)

theorem State.writeFull_disorder (s : State) (b : Bank) (row word : Nat) (data : BitVec 128) (lim : Nat) (dz : s.disorder ≤ lim) : (State.writeFull s b row word data).disorder ≤ lim := by
  unfold State.writeFull
  with_reducible repeat' (first | assumption | apply State.updBank_disorder | apply State.storeWord_disorder)

theorem State.fillBank_disorder (s : State) (b : Bank) (lim : Nat) (dz : s.disorder ≤ lim) : (State.fillBank s b).disorder ≤ lim := by
  unfold State.fillBank
  with_reducible repeat' (first | assumption | apply State.updBank_disorder | simp only [State.disorder_mk, State.disorder_fold] | apply disorder_put | apply disorder_nil | apply disorder_filter)

theorem State.clearBank_disorder (s : State) (b : Bank) (lim : Nat) (dz : s.disorder ≤ lim) : (State.clearBank s b).disorder ≤ lim := by
  unfold State.clearBank
  with_reducible repeat' (first | assumption | apply State.updBank_disorder | apply forAll_disorder | simp only [State.disorder_mk, State.disorder_fold] | apply disorder_put | apply disorder_nil | apply disorder_filter | dsimp only | split | intro)

theorem State.mapRetired_disorder (s : State) (b : Bank) (row : Nat) (lim : Nat) (dz : s.disorder ≤ lim) : (State.mapRetired s b row).disorder ≤ lim := by
  unfold State.mapRetired
  with_reducible repeat' (first | assumption | apply State.updBank_disorder | simp only [State.disorder_mk, State.disorder_fold] | apply disorder_put | apply disorder_nil | apply disorder_filter | dsimp only | split)

theorem State.closeBank_disorder (s : State) (b : Bank) (lim : Nat) (dz : s.disorder ≤ lim) : (State.closeBank s b).disorder ≤ lim := by
  unfold State.closeBank
  with_reducible repeat' (first | assumption | apply State.updBank_disorder)

theorem State.applyRows_disorder (s : State) (which : Bank → Bool) (lim : Nat) (dz : s.disorder ≤ lim) : (State.applyRows s which).disorder ≤ lim := by
  unfold State.applyRows
  with_reducible repeat' (first | assumption | apply State.mapRetired_disorder | apply State.closeBank_disorder | apply forAll_disorder | simp only [State.disorder_mk, State.disorder_fold] | apply disorder_put | apply disorder_nil | apply disorder_filter | dsimp only | split | intro)

theorem State.riseDomain_disorder (s : State) (d : Fin 25) (lim : Nat) (dz : s.disorder ≤ lim) : (State.riseDomain s d).disorder ≤ lim := by
  unfold State.riseDomain
  with_reducible repeat' (first | assumption | apply forAll_disorder | apply State.clearBank_disorder | apply State.fillBank_disorder | apply State.applyRows_disorder | apply forAll_disorder | simp only [State.disorder_mk, State.disorder_fold] | apply disorder_put | apply disorder_nil | apply disorder_filter | dsimp only | split | intro)

theorem State.lowerDomain_disorder (s : State) (d : Fin 25) (st : DomState) (lim : Nat) (dz : s.disorder ≤ lim) : (State.lowerDomain s d st).disorder ≤ lim := by
  unfold State.lowerDomain
  with_reducible repeat' (first | assumption | apply forAll_disorder | apply State.fence_disorder | apply State.clearBank_disorder | apply forAll_disorder | simp only [State.disorder_mk, State.disorder_fold] | apply disorder_put | apply disorder_nil | apply disorder_filter | dsimp only | split | intro)

theorem State.wakeBank_disorder (s : State) (b : Bank) (lim : Nat) (dz : s.disorder ≤ lim) : (State.wakeBank s b).disorder ≤ lim := by
  unfold State.wakeBank
  with_reducible repeat' (first | assumption | apply State.riseDomain_disorder | apply forAll_disorder | simp only [State.disorder_mk, State.disorder_fold] | apply disorder_put | apply disorder_nil | apply disorder_filter | dsimp only | split | intro)

theorem writeRing_disorder (n : Nat) (rows : List (Bank × Nat)) (pos : Nat) (bytes : List Byte) (s : State) (lim : Nat) (dz : s.disorder ≤ lim) :
    (writeRing n rows pos bytes s).disorder ≤ lim := by
  induction n generalizing pos bytes s with
  | zero => exact dz
  | succ n ih =>
    cases bytes with
    | nil => exact dz
    | cons x xs =>
      unfold writeRing
      split
      · exact dz
      · apply ih
        with_reducible repeat' (first | assumption | apply State.wakeBank_disorder | apply State.writePartial_disorder | apply State.writeFull_disorder | dsimp only | split)

theorem State.readForDelivery_disorder (s : State) (b : Bank) (row word : Nat) (lim : Nat) (dz : s.disorder ≤ lim) : (State.readForDelivery s b row word).1.disorder ≤ lim := by
  unfold State.readForDelivery
  with_reducible repeat' (first | assumption | apply State.wakeBank_disorder | apply State.readWord_disorder | apply State.report_disorder | apply forAll_disorder | simp only [State.disorder_mk, State.disorder_fold] | apply disorder_put | apply disorder_nil | apply disorder_filter | dsimp only | split | intro)

theorem readRing_disorder (n : Nat) (rows : List (Bank × Nat)) (pos len : Nat) (acc : List Byte) (s : State) (lim : Nat) (dz : s.disorder ≤ lim) :
    (readRing n rows pos len acc s).1.disorder ≤ lim := by
  induction n generalizing pos len acc s with
  | zero => exact dz
  | succ n ih =>
    unfold readRing
    split
    · exact dz
    · split
      · exact dz
      · dsimp only
        split
        · with_reducible repeat' (first | assumption | apply State.readForDelivery_disorder)
        · apply ih
          with_reducible repeat' (first | assumption | apply State.readForDelivery_disorder)

theorem State.updRing_disorder (s : State) (o : RowOwner) (f : Ring → Ring) (lim : Nat) (dz : s.disorder ≤ lim) : (State.updRing s o f).disorder ≤ lim := by
  unfold State.updRing
  with_reducible repeat' (first | assumption | simp only [State.disorder_mk, State.disorder_fold])

theorem State.ringWrite_disorder (s : State) (o : RowOwner) (bytes : List Byte) (lim : Nat) (dz : s.disorder ≤ lim) : (State.ringWrite s o bytes).disorder ≤ lim := by
  unfold State.ringWrite
  with_reducible repeat' (first | assumption | apply State.updRing_disorder | apply writeRing_disorder | simp only [State.disorder_mk, State.disorder_fold] | apply disorder_put | apply disorder_nil | apply disorder_filter | dsimp only | split)

theorem State.ringPeek_disorder (s : State) (o : RowOwner) (off len : Nat) (lim : Nat) (dz : s.disorder ≤ lim) : (State.ringPeek s o off len).1.disorder ≤ lim := by
  unfold State.ringPeek
  with_reducible repeat' (first | assumption | apply readRing_disorder | simp only [State.disorder_mk, State.disorder_fold] | apply disorder_put | apply disorder_nil | apply disorder_filter | dsimp only | split)

theorem State.ringDrop_disorder (s : State) (o : RowOwner) (len : Nat) (lim : Nat) (dz : s.disorder ≤ lim) : (State.ringDrop s o len).disorder ≤ lim := by
  unfold State.ringDrop
  with_reducible repeat' (first | assumption | apply State.updRing_disorder)

theorem State.fenceRing_disorder (s : State) (r : Ring) (lim : Nat) (dz : s.disorder ≤ lim) : (State.fenceRing s r).disorder ≤ lim := by
  unfold State.fenceRing
  with_reducible repeat' (first | assumption | apply forAll_disorder | apply State.fence_disorder | apply forAll_disorder | simp only [State.disorder_mk, State.disorder_fold] | apply disorder_put | apply disorder_nil | apply disorder_filter | dsimp only | split | intro)

theorem State.ringClear_disorder (s : State) (o : RowOwner) (lim : Nat) (dz : s.disorder ≤ lim) : (State.ringClear s o).disorder ≤ lim := by
  unfold State.ringClear
  with_reducible repeat' (first | assumption | apply State.fenceRing_disorder | apply State.updRing_disorder | apply forAll_disorder | simp only [State.disorder_mk, State.disorder_fold] | apply disorder_put | apply disorder_nil | apply disorder_filter | dsimp only | split | intro)

theorem State.ringKeep_disorder (s : State) (o : RowOwner) (n : Nat) (lim : Nat) (dz : s.disorder ≤ lim) : (State.ringKeep s o n).disorder ≤ lim := by
  unfold State.ringKeep
  with_reducible repeat' (first | assumption | apply State.fenceRing_disorder | apply State.updRing_disorder | apply forAll_disorder | simp only [State.disorder_mk, State.disorder_fold] | apply disorder_put | apply disorder_nil | apply disorder_filter | dsimp only | split | intro)

theorem State.addRings_disorder (s : State) (l : List Ring) (lim : Nat) (dz : s.disorder ≤ lim) : (State.addRings s l).disorder ≤ lim := by
  unfold State.addRings
  with_reducible repeat' (first | assumption | apply forAll_disorder | apply State.wakeBank_disorder | apply forAll_disorder | simp only [State.disorder_mk, State.disorder_fold] | apply disorder_put | apply disorder_nil | apply disorder_filter | dsimp only | split | intro)

theorem State.reserve_disorder (s : State) (k : Part) (want : List (RowOwner × Nat)) (lim : Nat) (dz : s.disorder ≤ lim) :
    ∀ t, State.reserve s k want = some t → t.disorder ≤ lim := by
  intro t h
  unfold State.reserve at h
  simp only [Option.map_eq_some_iff] at h
  obtain ⟨l, -, rfl⟩ := h
  exact State.addRings_disorder _ _ _ dz

theorem State.allocFixed_disorder (s : State) (o : RowOwner) (b : Bank) (first n : Nat) (k : Part) (lim : Nat) (dz : s.disorder ≤ lim) : (State.allocFixed s o b first n k).disorder ≤ lim := by
  unfold State.allocFixed
  with_reducible repeat' (first | assumption | apply State.addRings_disorder | apply forAll_disorder | simp only [State.disorder_mk, State.disorder_fold] | apply disorder_put | apply disorder_nil | apply disorder_filter | dsimp only | split | intro)

theorem State.allocMf_disorder (s : State) (k : Part) (lim : Nat) (dz : s.disorder ≤ lim) : (State.allocMf s k).disorder ≤ lim := by
  unfold State.allocMf
  with_reducible repeat' (first | assumption | apply State.allocFixed_disorder | apply forAll_disorder | simp only [State.disorder_mk, State.disorder_fold] | apply disorder_put | apply disorder_nil | apply disorder_filter | dsimp only | split | intro)

theorem State.allocNative_disorder (s : State) (p : Port) (lim : Nat) (dz : s.disorder ≤ lim) : (State.allocNative s p).disorder ≤ lim := by
  unfold State.allocNative
  with_reducible repeat' (first | assumption | apply State.allocFixed_disorder | apply forAll_disorder | simp only [State.disorder_mk, State.disorder_fold] | apply disorder_put | apply disorder_nil | apply disorder_filter | dsimp only | split | intro)

theorem State.release_disorder (s : State) (which : RowOwner → Bool) (lim : Nat) (dz : s.disorder ≤ lim) : (State.release s which).disorder ≤ lim := by
  unfold State.release
  with_reducible repeat' (first | assumption | apply forAll_disorder | apply State.fenceRing_disorder | apply forAll_disorder | simp only [State.disorder_mk, State.disorder_fold] | apply disorder_put | apply disorder_nil | apply disorder_filter | dsimp only | split | intro)

theorem State.passBuffer_disorder (s : State) (o : RowOwner) (bytes : List Byte) (lim : Nat) (dz : s.disorder ≤ lim) : (State.passBuffer s o bytes).1.disorder ≤ lim := by
  unfold State.passBuffer
  with_reducible repeat' (first | assumption | apply State.ringWrite_disorder | apply State.ringPeek_disorder | apply State.ringDrop_disorder | apply forAll_disorder | simp only [State.disorder_mk, State.disorder_fold] | apply disorder_put | apply disorder_nil | apply disorder_filter | dsimp only | split | intro)

theorem passPackets_disorder (o : RowOwner) (m : Nat) (a0 : Nat) (a1 : List Byte) (a2 : State) (lim : Nat) (dz : a2.disorder ≤ lim) : (passPackets o m a0 a1 a2).1.disorder ≤ lim := by
  induction a0 generalizing a1 a2 with
  | zero => exact dz
  | succ n ih =>
    unfold passPackets
    dsimp only
    split
    · exact State.passBuffer_disorder _ _ _ _ dz
    · exact ih _ _ (State.passBuffer_disorder _ _ _ _ dz)

theorem State.readRow_disorder (s : State) (b : Bank) (row : Nat) (lim : Nat) (dz : s.disorder ≤ lim) : (State.readRow s b row).1.disorder ≤ lim := by
  suffices h : ∀ (l : List Nat) (x : State × List (BitVec 137)), x.1.disorder ≤ lim →
      (l.foldl (fun (s, acc) w =>
        let (s, r) := s.readWord b row w
        let s := if r.cls.lost then s.updBank b (fun x => { x with poisonWrites := satAdd 32 x.poisonWrites 1 }) else s
        (s, acc ++ [copyWord r])) x).1.disorder ≤ lim by
    exact h _ _ dz
  intro l
  induction l with
  | nil => intro x dz; exact dz
  | cons w l ih =>
    intro x dz
    rw [List.foldl_cons]
    apply ih
    with_reducible repeat' (first | assumption | apply State.updBank_disorder | apply State.readWord_disorder | simp only [State.disorder_mk, State.disorder_fold] | apply disorder_put | apply disorder_nil | apply disorder_filter | dsimp only | split)

theorem State.writeRow_disorder (s : State) (b : Bank) (row : Nat) (l : List (BitVec 137)) (lim : Nat) (dz : s.disorder ≤ lim) :
    (State.writeRow s b row l).disorder ≤ lim := by
  unfold State.writeRow
  generalize 0 = n
  induction l generalizing s n with
  | nil => exact dz
  | cons w l ih =>
    rw [List.foldl_cons]
    apply ih
    with_reducible repeat' (first | assumption | apply State.storeWord_disorder)

theorem State.retire_disorder (s : State) (b : Bank) (row : Nat) (lim : Nat) (dz : s.disorder ≤ lim) :
    ∀ t, State.retire s b row = some t → t.1.disorder ≤ lim := by
  intro t h
  unfold State.retire at h
  simp only [Option.map_eq_some_iff] at h
  obtain ⟨l, -, rfl⟩ := h
  with_reducible repeat' (first | assumption | apply State.updBank_disorder | apply State.fence_disorder | apply State.readRow_disorder | apply State.writeRow_disorder | simp only [State.disorder_mk, State.disorder_fold])

theorem State.moveRow_disorder (s : State) (b : Bank) (row : Nat) (copy : Bool) (lim : Nat) (dz : s.disorder ≤ lim) : (State.moveRow s b row copy).disorder ≤ lim := by
  unfold State.moveRow
  with_reducible repeat' (first | assumption | apply State.wakeBank_disorder | apply State.fence_disorder | apply State.readRow_disorder | apply State.writeRow_disorder | apply State.updRing_disorder | apply forAll_disorder | simp only [State.disorder_mk, State.disorder_fold] | apply disorder_put | apply disorder_nil | apply disorder_filter | dsimp only | split | intro)

theorem State.updPort_disorder (s : State) (p : Port) (f : PortState → PortState) (lim : Nat) (dz : s.disorder ≤ lim) : (State.updPort s p f).disorder ≤ lim := by
  unfold State.updPort
  with_reducible repeat' (first | assumption | simp only [State.disorder_mk, State.disorder_fold])

theorem State.updPart_disorder (s : State) (k : Part) (f : PartState → PartState) (lim : Nat) (dz : s.disorder ≤ lim) : (State.updPart s k f).disorder ≤ lim := by
  unfold State.updPart
  with_reducible repeat' (first | assumption | simp only [State.disorder_mk, State.disorder_fold])

theorem State.updUp_disorder (s : State) (k : Part) (f : UpState → UpState) (lim : Nat) (dz : s.disorder ≤ lim) : (State.updUp s k f).disorder ≤ lim := by
  unfold State.updUp
  with_reducible repeat' (first | assumption | simp only [State.disorder_mk, State.disorder_fold])

theorem State.updMf_disorder (s : State) (k : Part) (f : MfState → MfState) (lim : Nat) (dz : s.disorder ≤ lim) : (State.updMf s k f).disorder ≤ lim := by
  unfold State.updMf
  with_reducible repeat' (first | assumption | simp only [State.disorder_mk, State.disorder_fold])

theorem State.updLift_disorder (s : State) (p : Port) (f : LiftPort → LiftPort) (lim : Nat) (dz : s.disorder ≤ lim) : (State.updLift s p f).disorder ≤ lim := by
  unfold State.updLift
  with_reducible repeat' (first | assumption | simp only [State.disorder_mk, State.disorder_fold])

theorem State.updTree_disorder (s : State) (k : Part) (side : Side) (f : HubTree → HubTree) (lim : Nat) (dz : s.disorder ≤ lim) : (State.updTree s k side f).disorder ≤ lim := by
  unfold State.updTree
  with_reducible repeat' (first | assumption | simp only [State.disorder_mk, State.disorder_fold] | apply disorder_put | apply disorder_nil | apply disorder_filter | dsimp only | split)

theorem State.updLeaf_disorder (s : State) (k : Part) (side : Side) (i : Pos) (f : VPort → VPort) (lim : Nat) (dz : s.disorder ≤ lim) : (State.updLeaf s k side i f).disorder ≤ lim := by
  unfold State.updLeaf
  with_reducible repeat' (first | assumption | apply State.updTree_disorder)

theorem State.updTop_disorder (s : State) (k : Part) (side : Side) (n : Fin 9) (f : VPort → VPort) (lim : Nat) (dz : s.disorder ≤ lim) : (State.updTop s k side n f).disorder ≤ lim := by
  unfold State.updTop
  with_reducible repeat' (first | assumption | apply State.updTree_disorder)

theorem State.signalU3Exit_disorder (s : State) (k : Part) (lim : Nat) (dz : s.disorder ≤ lim) : (State.signalU3Exit s k).disorder ≤ lim := by
  unfold State.signalU3Exit
  with_reducible repeat' (first | assumption | apply State.updUp_disorder | apply State.emit_disorder | apply forAll_disorder | simp only [State.disorder_mk, State.disorder_fold] | apply disorder_put | apply disorder_nil | apply disorder_filter | dsimp only | split | intro)

theorem State.hubWake_disorder (s : State) (k : Part) (side : Side) (i : Pos) (connect : Bool) (lim : Nat) (dz : s.disorder ≤ lim) : (State.hubWake s k side i connect).disorder ≤ lim := by
  unfold State.hubWake
  with_reducible repeat' (first | assumption | apply State.emit_disorder | apply State.signalU3Exit_disorder | apply forAll_disorder | simp only [State.disorder_mk, State.disorder_fold] | apply disorder_put | apply disorder_nil | apply disorder_filter | dsimp only | split | intro)

theorem State.showConnect_disorder (s : State) (p : Port) (side : Side) (enabled : Bool) (lim : Nat) (dz : s.disorder ≤ lim) : (State.showConnect s p side enabled).disorder ≤ lim := by
  unfold State.showConnect
  with_reducible repeat' (first | assumption | apply State.updLeaf_disorder | apply State.hubWake_disorder | apply forAll_disorder | simp only [State.disorder_mk, State.disorder_fold] | apply disorder_put | apply disorder_nil | apply disorder_filter | dsimp only | split | intro)

theorem State.showDisconnect_disorder (s : State) (p : Port) (side : Side) (lim : Nat) (dz : s.disorder ≤ lim) : (State.showDisconnect s p side).disorder ≤ lim := by
  unfold State.showDisconnect
  with_reducible repeat' (first | assumption | apply State.updLeaf_disorder | apply State.hubWake_disorder | apply forAll_disorder | simp only [State.disorder_mk, State.disorder_fold] | apply disorder_put | apply disorder_nil | apply disorder_filter | dsimp only | split | intro)

theorem State.attachEvent_disorder (s : State) (p : Port) (lim : Nat) (dz : s.disorder ≤ lim) : (State.attachEvent s p).disorder ≤ lim := by
  unfold State.attachEvent
  with_reducible repeat' (first | assumption | apply State.portEvent_disorder)

theorem State.detachEvent_disorder (s : State) (p : Port) (r : Reason) (discarded : Nat) (lim : Nat) (dz : s.disorder ≤ lim) : (State.detachEvent s p r discarded).disorder ≤ lim := by
  unfold State.detachEvent
  with_reducible repeat' (first | assumption | apply State.portEvent_disorder)

theorem State.modeEvent_disorder (s : State) (p : Port) (old : DataMode) (lim : Nat) (dz : s.disorder ≤ lim) : (State.modeEvent s p old).disorder ≤ lim := by
  unfold State.modeEvent
  with_reducible repeat' (first | assumption | apply State.portEvent_disorder)

theorem State.fallbackEvent_disorder (s : State) (p : Port) (reason detail : Nat) (lim : Nat) (dz : s.disorder ≤ lim) : (State.fallbackEvent s p reason detail).disorder ≤ lim := by
  unfold State.fallbackEvent
  with_reducible repeat' (first | assumption | apply State.portEvent_disorder)

end Sys2Proof.Machine
end

