-- ==== Sys2Proof/Laws/OrderLift.lean ====
section
/-! SUPPORT. Order lemmas: lifting, the hubs and the ports keep the code words in canonical order. -/

set_option Elab.async false

namespace Sys2Proof.Machine

open Sys2Proof

theorem State.updCtx_disorder (s : State) (p : Port) (a : Byte) (f : EpCtx → EpCtx) (lim : Nat) (dz : s.disorder ≤ lim) : (State.updCtx s p a f).disorder ≤ lim := by
  unfold State.updCtx
  with_reducible repeat' (first | assumption | apply State.updLift_disorder)

theorem State.count_disorder (s : State) (p : Port) (a : Byte) (f : EpCounters → EpCounters) (lim : Nat) (dz : s.disorder ≤ lim) : (State.count s p a f).disorder ≤ lim := by
  unfold State.count
  with_reducible repeat' (first | assumption | apply State.updLift_disorder)

theorem State.discardCtx_disorder (s : State) (p : Port) (a : Byte) (lim : Nat) (dz : s.disorder ≤ lim) : (State.discardCtx s p a).disorder ≤ lim := by
  unfold State.discardCtx
  with_reducible repeat' (first | assumption | apply State.count_disorder | apply State.ringClear_disorder | apply State.updCtx_disorder | apply forAll_disorder | simp only [State.disorder_mk, State.disorder_fold] | apply disorder_put | apply disorder_nil | apply disorder_filter | dsimp only | split | intro)

theorem State.useLink_disorder (s : State) (p : Port) (lim : Nat) (dz : s.disorder ≤ lim) : (State.useLink s p).disorder ≤ lim := by
  unfold State.useLink
  with_reducible repeat' (first | assumption | apply State.updUp_disorder | apply State.updLeaf_disorder | apply forAll_disorder | simp only [State.disorder_mk, State.disorder_fold] | apply disorder_put | apply disorder_nil | apply disorder_filter | dsimp only | split | intro)

theorem State.useFrame_disorder (s : State) (p : Port) (n : Nat) (up : Bool) (lim : Nat) (dz : s.disorder ≤ lim) : (State.useFrame s p n up).disorder ≤ lim := by
  unfold State.useFrame
  with_reducible repeat' (first | assumption | apply State.updPart_disorder | apply forAll_disorder | simp only [State.disorder_mk, State.disorder_fold] | apply disorder_put | apply disorder_nil | apply disorder_filter | dsimp only | split | intro)

theorem State.poisonNote_disorder (s : State) (p : Port) (a : Byte) (src : Byte) (offset held : Nat) (lim : Nat) (dz : s.disorder ≤ lim) : (State.poisonNote s p a src offset held).disorder ≤ lim := by
  unfold State.poisonNote
  with_reducible repeat' (first | assumption | apply State.detect_disorder | apply State.portEvent_disorder | apply State.count_disorder)

theorem State.poisonCtx_disorder (s : State) (p : Port) (a : Byte) (src : Byte) (lim : Nat) (dz : s.disorder ≤ lim) : (State.poisonCtx s p a src).disorder ≤ lim := by
  unfold State.poisonCtx
  with_reducible repeat' (first | assumption | apply State.ringClear_disorder | apply State.updCtx_disorder | apply State.poisonNote_disorder | apply forAll_disorder | simp only [State.disorder_mk, State.disorder_fold] | apply disorder_put | apply disorder_nil | apply disorder_filter | dsimp only | split | intro)

theorem State.poisonLink_disorder (s : State) (p : Port) (a : Byte) (lim : Nat) (dz : s.disorder ≤ lim) : (State.poisonLink s p a).disorder ≤ lim := by
  unfold State.poisonLink
  with_reducible repeat' (first | assumption | apply State.ringKeep_disorder | apply State.updCtx_disorder | apply State.poisonNote_disorder | apply forAll_disorder | simp only [State.disorder_mk, State.disorder_fold] | apply disorder_put | apply disorder_nil | apply disorder_filter | dsimp only | split | intro)

theorem State.poisonEp0_disorder (s : State) (p : Port) (src : Byte) (lim : Nat) (dz : s.disorder ≤ lim) : (State.poisonEp0 s p src).disorder ≤ lim := by
  unfold State.poisonEp0
  with_reducible repeat' (first | assumption | apply State.ringClear_disorder | apply State.updLift_disorder | apply State.poisonNote_disorder | apply forAll_disorder | simp only [State.disorder_mk, State.disorder_fold] | apply disorder_put | apply disorder_nil | apply disorder_filter | dsimp only | split | intro)

theorem State.erdy_disorder (s : State) (p : Port) (a : Byte) (lim : Nat) (dz : s.disorder ≤ lim) : (State.erdy s p a).disorder ≤ lim := by
  unfold State.erdy
  with_reducible repeat' (first | assumption | apply State.emit_disorder | apply State.updCtx_disorder | simp only [State.disorder_mk, State.disorder_fold] | apply disorder_put | apply disorder_nil | apply disorder_filter | dsimp only | split)

theorem State.makeReady_disorder (s : State) (p : Port) (a : Byte) (n : Nat) (lim : Nat) (dz : s.disorder ≤ lim) : (State.makeReady s p a n).disorder ≤ lim := by
  unfold State.makeReady
  with_reducible repeat' (first | assumption | apply State.updCtx_disorder | apply State.erdy_disorder)

theorem State.pairApply_disorder (s : State) (p : Port) (a : Byte) (e : InEvent) (lim : Nat) (dz : s.disorder ≤ lim) : (State.pairApply s p a e).disorder ≤ lim := by
  unfold State.pairApply
  with_reducible repeat' (first | assumption | apply State.updCtx_disorder | apply State.count_disorder | apply State.makeReady_disorder | apply forAll_disorder | simp only [State.disorder_mk, State.disorder_fold] | apply disorder_put | apply disorder_nil | apply disorder_filter | dsimp only | split | intro)

theorem State.releaseHalf_disorder (s : State) (p : Port) (a : Byte) (lim : Nat) (dz : s.disorder ≤ lim) : (State.releaseHalf s p a).disorder ≤ lim := by
  unfold State.releaseHalf
  with_reducible repeat' (first | assumption | apply State.updCtx_disorder | apply State.makeReady_disorder | simp only [State.disorder_mk, State.disorder_fold] | apply disorder_put | apply disorder_nil | apply disorder_filter | dsimp only | split)

theorem State.onCbw_disorder (s : State) (p : Port) (a : Byte) (len : Nat) (isInDir : Bool) (lim : Nat) (dz : s.disorder ≤ lim) : (State.onCbw s p a len isInDir).disorder ≤ lim := by
  unfold State.onCbw
  with_reducible repeat' (first | assumption | apply State.count_disorder | apply State.releaseHalf_disorder | apply State.updCtx_disorder | apply forAll_disorder | simp only [State.disorder_mk, State.disorder_fold] | apply disorder_put | apply disorder_nil | apply disorder_filter | dsimp only | split | intro)

theorem State.resetSnoop_disorder (s : State) (p : Port) (a : Byte) (lim : Nat) (dz : s.disorder ≤ lim) : (State.resetSnoop s p a).disorder ≤ lim := by
  unfold State.resetSnoop
  with_reducible repeat' (first | assumption | apply State.updLift_disorder | simp only [State.disorder_mk, State.disorder_fold] | apply disorder_put | apply disorder_nil | apply disorder_filter | dsimp only | split)

theorem State.skimData_disorder (s : State) (p : Port) (c : EpCtx) (snooping : Bool) (n : Nat) (lim : Nat) (dz : s.disorder ≤ lim) : (State.skimData s p c snooping n).disorder ≤ lim := by
  unfold State.skimData
  with_reducible repeat' (first | assumption | apply State.updCtx_disorder | apply State.count_disorder)

theorem State.takeIn_disorder (s : State) (p : Port) (a : Byte) (bytes : List Byte) (lim : Nat) (dz : s.disorder ≤ lim) : (State.takeIn s p a bytes).disorder ≤ lim := by
  unfold State.takeIn
  with_reducible repeat' (first | assumption | apply State.skimData_disorder | apply State.ringWrite_disorder | apply State.updCtx_disorder | apply State.makeReady_disorder | apply State.count_disorder | apply State.pairApply_disorder | apply State.releaseHalf_disorder | apply forAll_disorder | simp only [State.disorder_mk, State.disorder_fold] | apply disorder_put | apply disorder_nil | apply disorder_filter | dsimp only | split | intro)

theorem State.expireHalf_disorder (s : State) (p : Port) (a : Byte) (lim : Nat) (dz : s.disorder ≤ lim) : (State.expireHalf s p a).disorder ≤ lim := by
  unfold State.expireHalf
  with_reducible repeat' (first | assumption | apply State.count_disorder | apply State.pairApply_disorder | apply forAll_disorder | simp only [State.disorder_mk, State.disorder_fold] | apply disorder_put | apply disorder_nil | apply disorder_filter | dsimp only | split | intro)

theorem State.holdExpiry_disorder (s : State) (p : Port) (a : Byte) (lim : Nat) (dz : s.disorder ≤ lim) : (State.holdExpiry s p a).disorder ≤ lim := by
  unfold State.holdExpiry
  with_reducible repeat' (first | assumption | apply State.count_disorder | apply State.expireHalf_disorder | apply forAll_disorder | simp only [State.disorder_mk, State.disorder_fold] | apply disorder_put | apply disorder_nil | apply disorder_filter | dsimp only | split | intro)

theorem State.bulkIn_disorder (s : State) (p : Port) (a : Byte) (r : InAnswer) (lim : Nat) (dz : s.disorder ≤ lim) : (State.bulkIn s p a r).disorder ≤ lim := by
  unfold State.bulkIn
  with_reducible repeat' (first | assumption | apply State.count_disorder | apply State.updLift_disorder | apply State.updCtx_disorder | apply State.takeIn_disorder | apply State.emit_disorder | apply State.expireHalf_disorder | apply State.pairApply_disorder | apply State.erdy_disorder | apply forAll_disorder | simp only [State.disorder_mk, State.disorder_fold] | apply disorder_put | apply disorder_nil | apply disorder_filter | dsimp only | split | intro)

theorem sendReady_disorder (n : Nat) (p : Port) (a : Byte) (s : State) (lim : Nat) (dz : s.disorder ≤ lim) : (sendReady n p a s).disorder ≤ lim := by
  induction n generalizing s with
  | zero => exact dz
  | succ n ih =>
    unfold sendReady
    split
    · exact dz
    · split
      · exact dz
      · simp only []
        split
        · with_reducible repeat' (first | assumption | apply State.emit_disorder | apply State.ringPeek_disorder | apply State.ringDrop_disorder | apply State.updCtx_disorder | apply State.count_disorder | apply State.useFrame_disorder | apply State.poisonCtx_disorder)
        · split <;> (apply ih; with_reducible repeat' (first | assumption | apply State.emit_disorder | apply State.ringPeek_disorder | apply State.ringDrop_disorder | apply State.updCtx_disorder | apply State.count_disorder | apply State.useFrame_disorder))

theorem State.noteOpportunity_disorder (s : State) (p : Port) (a : Byte) (lim : Nat) (dz : s.disorder ≤ lim) : (State.noteOpportunity s p a).disorder ≤ lim := by
  unfold State.noteOpportunity
  with_reducible repeat' (first | assumption | apply State.updCtx_disorder | apply forAll_disorder | simp only [State.disorder_mk, State.disorder_fold] | apply disorder_put | apply disorder_nil | apply disorder_filter | dsimp only | split | intro)

theorem State.isoInOpportunity_disorder (s : State) (p : Port) (a : Byte) (c : EpCtx) (m : Nat) (lim : Nat) (dz : s.disorder ≤ lim) : (State.isoInOpportunity s p a c m).disorder ≤ lim := by
  unfold State.isoInOpportunity
  with_reducible repeat' (first | assumption | apply State.count_disorder | apply State.emit_disorder | apply State.noteOpportunity_disorder | apply State.updCtx_disorder | apply sendReady_disorder | apply forAll_disorder | simp only [State.disorder_mk, State.disorder_fold] | apply disorder_put | apply disorder_nil | apply disorder_filter | dsimp only | split | intro)

theorem State.answerStall_disorder (s : State) (p : Port) (a : Byte) (lim : Nat) (dz : s.disorder ≤ lim) : (State.answerStall s p a).disorder ≤ lim := by
  unfold State.answerStall
  with_reducible repeat' (first | assumption | apply State.updCtx_disorder | apply State.emit_disorder | apply forAll_disorder | simp only [State.disorder_mk, State.disorder_fold] | apply disorder_put | apply disorder_nil | apply disorder_filter | dsimp only | split | intro)

theorem State.answerNrdy_disorder (s : State) (p : Port) (a : Byte) (lim : Nat) (dz : s.disorder ≤ lim) : (State.answerNrdy s p a).disorder ≤ lim := by
  unfold State.answerNrdy
  with_reducible repeat' (first | assumption | apply State.updCtx_disorder | apply State.emit_disorder | apply forAll_disorder | simp only [State.disorder_mk, State.disorder_fold] | apply disorder_put | apply disorder_nil | apply disorder_filter | dsimp only | split | intro)

theorem State.answerReady_disorder (s : State) (p : Port) (a : Byte) (c : EpCtx) (n : Nat) (lim : Nat) (dz : s.disorder ≤ lim) : (State.answerReady s p a c n).disorder ≤ lim := by
  unfold State.answerReady
  with_reducible repeat' (first | assumption | apply sendReady_disorder | apply State.updCtx_disorder | apply State.answerStall_disorder | apply forAll_disorder | simp only [State.disorder_mk, State.disorder_fold] | apply disorder_put | apply disorder_nil | apply disorder_filter | dsimp only | split | intro)

theorem State.ackTp_disorder (s : State) (p : Port) (a : Byte) (n : Nat) (lim : Nat) (dz : s.disorder ≤ lim) : (State.ackTp s p a n).disorder ≤ lim := by
  unfold State.ackTp
  with_reducible repeat' (first | assumption | apply State.useLink_disorder | apply State.updCtx_disorder | apply State.answerNrdy_disorder | apply State.answerStall_disorder | apply State.isoInOpportunity_disorder | apply State.answerReady_disorder | apply forAll_disorder | simp only [State.disorder_mk, State.disorder_fold] | apply disorder_put | apply disorder_nil | apply disorder_filter | dsimp only | split | intro)

theorem State.interestLapse_disorder (s : State) (p : Port) (a : Byte) (lim : Nat) (dz : s.disorder ≤ lim) : (State.interestLapse s p a).disorder ≤ lim := by
  unfold State.interestLapse
  with_reducible repeat' (first | assumption | apply State.updCtx_disorder)

theorem State.sendOut_disorder (s : State) (p : Port) (a : Byte) (lim : Nat) (dz : s.disorder ≤ lim) : (State.sendOut s p a).disorder ≤ lim := by
  unfold State.sendOut
  with_reducible repeat' (first | assumption | apply State.updCtx_disorder | apply State.emit_disorder | apply State.ringPeek_disorder | apply State.poisonCtx_disorder | apply forAll_disorder | simp only [State.disorder_mk, State.disorder_fold] | apply disorder_put | apply disorder_nil | apply disorder_filter | dsimp only | split | intro)

theorem State.bulkOut_disorder (s : State) (p : Port) (a : Byte) (bytes : List Byte) (lim : Nat) (dz : s.disorder ≤ lim) : (State.bulkOut s p a bytes).disorder ≤ lim := by
  unfold State.bulkOut
  with_reducible repeat' (first | assumption | apply State.useLink_disorder | apply State.answerNrdy_disorder | apply State.answerStall_disorder | apply State.ringWrite_disorder | apply State.useFrame_disorder | apply State.count_disorder | apply forAll_disorder | apply State.onCbw_disorder | apply State.updCtx_disorder | apply State.emit_disorder | apply State.sendOut_disorder | apply forAll_disorder | simp only [State.disorder_mk, State.disorder_fold] | apply disorder_put | apply disorder_nil | apply disorder_filter | dsimp only | split | intro)

theorem State.bulkOutDone_disorder (s : State) (p : Port) (a : Byte) (r : OutAnswer) (lim : Nat) (dz : s.disorder ≤ lim) : (State.bulkOutDone s p a r).disorder ≤ lim := by
  unfold State.bulkOutDone
  with_reducible repeat' (first | assumption | apply State.count_disorder | apply State.ringDrop_disorder | apply State.updCtx_disorder | apply State.erdy_disorder | apply State.sendOut_disorder | apply forAll_disorder | simp only [State.disorder_mk, State.disorder_fold] | apply disorder_put | apply disorder_nil | apply disorder_filter | dsimp only | split | intro)

theorem State.bulkOutStall_disorder (s : State) (p : Port) (a : Byte) (lim : Nat) (dz : s.disorder ≤ lim) : (State.bulkOutStall s p a).disorder ≤ lim := by
  unfold State.bulkOutStall
  with_reducible repeat' (first | assumption | apply State.updCtx_disorder | apply State.discardCtx_disorder | apply State.erdy_disorder | simp only [State.disorder_mk, State.disorder_fold] | apply disorder_put | apply disorder_nil | apply disorder_filter | dsimp only | split)

theorem State.countInterval_disorder (s : State) (p : Port) (a : Byte) (l : List (List Byte)) (lim : Nat) (dz : s.disorder ≤ lim) : (State.countInterval s p a l).disorder ≤ lim := by
  unfold State.countInterval
  with_reducible repeat' (first | assumption | apply State.count_disorder | apply forAll_disorder | simp only [State.disorder_mk, State.disorder_fold] | apply disorder_put | apply disorder_nil | apply disorder_filter | dsimp only | split | intro)

theorem State.skimInterval_disorder (s : State) (p : Port) (c : EpCtx) (l : List (List Byte)) (lim : Nat) (dz : s.disorder ≤ lim) : (State.skimInterval s p c l).disorder ≤ lim := by
  unfold State.skimInterval
  with_reducible repeat' (first | assumption | apply State.count_disorder | apply State.updCtx_disorder | apply forAll_disorder | simp only [State.disorder_mk, State.disorder_fold] | apply disorder_put | apply disorder_nil | apply disorder_filter | dsimp only | split | intro)

theorem State.interruptIn_disorder (s : State) (p : Port) (c : EpCtx) (l : List (List Byte)) (lim : Nat) (dz : s.disorder ≤ lim) : (State.interruptIn s p c l).disorder ≤ lim := by
  unfold State.interruptIn
  with_reducible repeat' (first | assumption | apply State.countInterval_disorder | apply State.updCtx_disorder | apply State.skimInterval_disorder | apply State.ringWrite_disorder | apply State.erdy_disorder | apply forAll_disorder | simp only [State.disorder_mk, State.disorder_fold] | apply disorder_put | apply disorder_nil | apply disorder_filter | dsimp only | split | intro)

theorem State.isoEnter_disorder (s : State) (p : Port) (a : Byte) (n : Option Nat) (lim : Nat) (dz : s.disorder ≤ lim) : (State.isoEnter s p a n).disorder ≤ lim := by
  unfold State.isoEnter
  with_reducible repeat' (first | assumption | apply State.updCtx_disorder | apply forAll_disorder | simp only [State.disorder_mk, State.disorder_fold] | apply disorder_put | apply disorder_nil | apply disorder_filter | dsimp only | split | intro)

theorem State.isoIn_disorder (s : State) (p : Port) (c : EpCtx) (l : List (List Byte)) (lim : Nat) (dz : s.disorder ≤ lim) : (State.isoIn s p c l).disorder ≤ lim := by
  unfold State.isoIn
  with_reducible repeat' (first | assumption | apply State.countInterval_disorder | apply State.skimInterval_disorder | apply State.isoEnter_disorder | apply State.ringWrite_disorder | apply forAll_disorder | simp only [State.disorder_mk, State.disorder_fold] | apply disorder_put | apply disorder_nil | apply disorder_filter | dsimp only | split | intro)

theorem State.sendInterval_disorder (s : State) (p : Port) (a : Byte) (c : EpCtx) (len : Nat) (lim : Nat) (dz : s.disorder ≤ lim) : (State.sendInterval s p a c len).disorder ≤ lim := by
  unfold State.sendInterval
  with_reducible repeat' (first | assumption | apply State.ringPeek_disorder | apply State.poisonCtx_disorder | apply State.ringDrop_disorder | apply State.count_disorder | apply State.updCtx_disorder | apply State.emits_disorder | apply forAll_disorder | simp only [State.disorder_mk, State.disorder_fold] | apply disorder_put | apply disorder_nil | apply disorder_filter | dsimp only | split | intro)

theorem State.periodic_disorder (s : State) (p : Port) (c : EpCtx) (answer : Option PeriodicAnswer) (lim : Nat) (dz : s.disorder ≤ lim) : (State.periodic s p c answer).disorder ≤ lim := by
  unfold State.periodic
  with_reducible repeat' (first | assumption | apply State.count_disorder | apply State.emit_disorder | apply State.answer_disorder | apply State.interruptIn_disorder | apply State.isoIn_disorder | apply State.updCtx_disorder | apply State.erdy_disorder | apply State.isoEnter_disorder | apply State.sendInterval_disorder | apply State.bulkOutStall_disorder | apply forAll_disorder | simp only [State.disorder_mk, State.disorder_fold] | apply disorder_put | apply disorder_nil | apply disorder_filter | dsimp only | split | intro)

theorem State.interruptOut_disorder (s : State) (p : Port) (a : Byte) (bytes : List Byte) (lim : Nat) (dz : s.disorder ≤ lim) : (State.interruptOut s p a bytes).disorder ≤ lim := by
  unfold State.interruptOut
  with_reducible repeat' (first | assumption | apply State.useLink_disorder | apply State.answerNrdy_disorder | apply State.answerStall_disorder | apply State.ringWrite_disorder | apply State.useFrame_disorder | apply State.count_disorder | apply State.updCtx_disorder | apply State.emit_disorder | apply forAll_disorder | simp only [State.disorder_mk, State.disorder_fold] | apply disorder_put | apply disorder_nil | apply disorder_filter | dsimp only | split | intro)

theorem State.isoOut_disorder (s : State) (p : Port) (a : Byte) (bytes : List Byte) (bad : Bool) (lim : Nat) (dz : s.disorder ≤ lim) : (State.isoOut s p a bytes bad).disorder ≤ lim := by
  unfold State.isoOut
  with_reducible repeat' (first | assumption | apply State.useLink_disorder | apply State.answerStall_disorder | apply State.count_disorder | apply State.noteOpportunity_disorder | apply State.ringWrite_disorder | apply State.useFrame_disorder | apply State.isoEnter_disorder | apply forAll_disorder | simp only [State.disorder_mk, State.disorder_fold] | apply disorder_put | apply disorder_nil | apply disorder_filter | dsimp only | split | intro)

theorem State.releaseHalves_disorder (s : State) (p : Port) (lim : Nat) (dz : s.disorder ≤ lim) : (State.releaseHalves s p).disorder ≤ lim := by
  unfold State.releaseHalves
  with_reducible repeat' (first | assumption | apply State.releaseHalf_disorder | apply forAll_disorder | simp only [State.disorder_mk, State.disorder_fold] | apply disorder_put | apply disorder_nil | apply disorder_filter | dsimp only | split | intro)

theorem State.closeContexts_disorder (s : State) (p : Port) (lim : Nat) (dz : s.disorder ≤ lim) : (State.closeContexts s p).1.disorder ≤ lim := by
  unfold State.closeContexts
  with_reducible repeat' (first | assumption | apply State.updLift_disorder | apply State.discardCtx_disorder | apply forAll_disorder | simp only [State.disorder_mk, State.disorder_fold] | apply disorder_put | apply disorder_nil | apply disorder_filter | dsimp only | split | intro)

theorem State.stopReplaced_disorder (s : State) (p : Port) (r : Setup) (lim : Nat) (dz : s.disorder ≤ lim) : (State.stopReplaced s p r).disorder ≤ lim := by
  unfold State.stopReplaced
  with_reducible repeat' (first | assumption | apply State.updLift_disorder | apply State.discardCtx_disorder | apply forAll_disorder | simp only [State.disorder_mk, State.disorder_fold] | apply disorder_put | apply disorder_nil | apply disorder_filter | dsimp only | split | intro)

theorem State.reopenStopped_disorder (s : State) (p : Port) (lim : Nat) (dz : s.disorder ≤ lim) : (State.reopenStopped s p).disorder ≤ lim := by
  unfold State.reopenStopped
  with_reducible repeat' (first | assumption | apply State.updLift_disorder)

theorem State.configured_disorder (s : State) (p : Port) (value : Nat) (lim : Nat) (dz : s.disorder ≤ lim) : (State.configured s p value).disorder ≤ lim := by
  unfold State.configured
  with_reducible repeat' (first | assumption | apply State.updLift_disorder)

theorem State.altSet_disorder (s : State) (p : Port) (i alt : Nat) (lim : Nat) (dz : s.disorder ≤ lim) : (State.altSet s p i alt).disorder ≤ lim := by
  unfold State.altSet
  with_reducible repeat' (first | assumption | apply State.updLift_disorder)

theorem State.haltCleared_disorder (s : State) (p : Port) (a : Byte) (lim : Nat) (dz : s.disorder ≤ lim) : (State.haltCleared s p a).disorder ≤ lim := by
  unfold State.haltCleared
  with_reducible repeat' (first | assumption | apply State.updLift_disorder | apply State.discardCtx_disorder | apply State.updCtx_disorder | apply State.resetSnoop_disorder | apply forAll_disorder | simp only [State.disorder_mk, State.disorder_fold] | apply disorder_put | apply disorder_nil | apply disorder_filter | dsimp only | split | intro)

theorem State.haltClearedLocally_disorder (s : State) (p : Port) (a : Byte) (lim : Nat) (dz : s.disorder ≤ lim) : (State.haltClearedLocally s p a).disorder ≤ lim := by
  unfold State.haltClearedLocally
  with_reducible repeat' (first | assumption | apply State.updCtx_disorder | apply State.discardCtx_disorder | apply State.resetSnoop_disorder | simp only [State.disorder_mk, State.disorder_fold] | apply disorder_put | apply disorder_nil | apply disorder_filter | dsimp only | split)

theorem State.ctlEffect_disorder (s : State) (p : Port) (r : Setup) (lim : Nat) (dz : s.disorder ≤ lim) : (State.ctlEffect s p r).disorder ≤ lim := by
  unfold State.ctlEffect
  with_reducible repeat' (first | assumption | apply State.updCtx_disorder | apply State.resetSnoop_disorder | apply State.configured_disorder | apply State.altSet_disorder | apply State.haltCleared_disorder | simp only [State.disorder_mk, State.disorder_fold] | apply disorder_put | apply disorder_nil | apply disorder_filter | dsimp only | split)

theorem State.updCtl_disorder (s : State) (p : Port) (f : CtlXfer → CtlXfer) (lim : Nat) (dz : s.disorder ≤ lim) : (State.updCtl s p f).disorder ≤ lim := by
  unfold State.updCtl
  with_reducible repeat' (first | assumption | apply State.updLift_disorder)

theorem State.sendCtlOut_disorder (s : State) (p : Port) (lim : Nat) (dz : s.disorder ≤ lim) : (State.sendCtlOut s p).disorder ≤ lim := by
  unfold State.sendCtlOut
  with_reducible repeat' (first | assumption | apply State.ringPeek_disorder | apply State.poisonEp0_disorder | apply State.updCtl_disorder | apply State.emit_disorder | apply forAll_disorder | simp only [State.disorder_mk, State.disorder_fold] | apply disorder_put | apply disorder_nil | apply disorder_filter | dsimp only | split | intro)

theorem State.ctlFinish_disorder (s : State) (p : Port) (r : Setup) (lim : Nat) (dz : s.disorder ≤ lim) : (State.ctlFinish s p r).disorder ≤ lim := by
  unfold State.ctlFinish
  with_reducible repeat' (first | assumption | apply State.ringClear_disorder | apply State.updLift_disorder | apply State.ctlEffect_disorder | apply State.emit_disorder | apply forAll_disorder | simp only [State.disorder_mk, State.disorder_fold] | apply disorder_put | apply disorder_nil | apply disorder_filter | dsimp only | split | intro)

theorem State.kickCtl_disorder (s : State) (p : Port) (lim : Nat) (dz : s.disorder ≤ lim) : (State.kickCtl s p).disorder ≤ lim := by
  unfold State.kickCtl
  with_reducible repeat' (first | assumption | apply State.updCtl_disorder | apply State.emit_disorder | apply State.sendCtlOut_disorder | apply State.ctlFinish_disorder | apply forAll_disorder | simp only [State.disorder_mk, State.disorder_fold] | apply disorder_put | apply disorder_nil | apply disorder_filter | dsimp only | split | intro)

theorem State.erdy0_disorder (s : State) (p : Port) (lim : Nat) (dz : s.disorder ≤ lim) : (State.erdy0 s p).disorder ≤ lim := by
  unfold State.erdy0
  with_reducible repeat' (first | assumption | apply State.updLift_disorder | apply State.emit_disorder | apply forAll_disorder | simp only [State.disorder_mk, State.disorder_fold] | apply disorder_put | apply disorder_nil | apply disorder_filter | dsimp only | split | intro)

theorem State.nrdy0_disorder (s : State) (p : Port) (lim : Nat) (dz : s.disorder ≤ lim) : (State.nrdy0 s p).disorder ≤ lim := by
  unfold State.nrdy0
  with_reducible repeat' (first | assumption | apply State.updLift_disorder | apply State.emit_disorder | apply forAll_disorder | simp only [State.disorder_mk, State.disorder_fold] | apply disorder_put | apply disorder_nil | apply disorder_filter | dsimp only | split | intro)

theorem State.forwardCtl_disorder (s : State) (p : Port) (r : Setup) (lim : Nat) (dz : s.disorder ≤ lim) : (State.forwardCtl s p r).disorder ≤ lim := by
  unfold State.forwardCtl
  with_reducible repeat' (first | assumption | apply State.stopReplaced_disorder | apply State.updLift_disorder | apply State.nrdy0_disorder | apply State.kickCtl_disorder | apply forAll_disorder | simp only [State.disorder_mk, State.disorder_fold] | apply disorder_put | apply disorder_nil | apply disorder_filter | dsimp only | split | intro)

theorem State.dropCtl_disorder (s : State) (p : Port) (lim : Nat) (dz : s.disorder ≤ lim) : (State.dropCtl s p).disorder ≤ lim := by
  unfold State.dropCtl
  with_reducible repeat' (first | assumption | apply State.ringClear_disorder | apply State.updLift_disorder | apply State.reopenStopped_disorder | simp only [State.disorder_mk, State.disorder_fold] | apply disorder_put | apply disorder_nil | apply disorder_filter | dsimp only | split)

theorem State.failCtl_disorder (s : State) (p : Port) (lim : Nat) (dz : s.disorder ≤ lim) : (State.failCtl s p).disorder ≤ lim := by
  unfold State.failCtl
  with_reducible repeat' (first | assumption | apply State.emit_disorder | apply State.dropCtl_disorder)

theorem State.ctlBusError_disorder (s : State) (p : Port) (t : CtlXfer) (lim : Nat) (dz : s.disorder ≤ lim) : (State.ctlBusError s p t).disorder ≤ lim := by
  unfold State.ctlBusError
  with_reducible repeat' (first | assumption | apply State.failCtl_disorder | apply State.updCtl_disorder | apply State.kickCtl_disorder | apply forAll_disorder | simp only [State.disorder_mk, State.disorder_fold] | apply disorder_put | apply disorder_nil | apply disorder_filter | dsimp only | split | intro)

theorem State.ctlNak_disorder (s : State) (p : Port) (lim : Nat) (dz : s.disorder ≤ lim) : (State.ctlNak s p).disorder ≤ lim := by
  unfold State.ctlNak
  with_reducible repeat' (first | assumption | apply State.count_disorder | apply State.updCtl_disorder | apply forAll_disorder | simp only [State.disorder_mk, State.disorder_fold] | apply disorder_put | apply disorder_nil | apply disorder_filter | dsimp only | split | intro)

theorem State.ctlOutPacket_disorder (s : State) (p : Port) (bytes : List Byte) (lim : Nat) (dz : s.disorder ≤ lim) : (State.ctlOutPacket s p bytes).disorder ≤ lim := by
  unfold State.ctlOutPacket
  with_reducible repeat' (first | assumption | apply State.nrdy0_disorder | apply State.ringWrite_disorder | apply State.count_disorder | apply State.updCtl_disorder | apply State.emit_disorder | apply State.kickCtl_disorder | apply State.sendCtlOut_disorder | apply forAll_disorder | simp only [State.disorder_mk, State.disorder_fold] | apply disorder_put | apply disorder_nil | apply disorder_filter | dsimp only | split | intro)

theorem State.ctlOutDone_disorder (s : State) (p : Port) (r : OutAnswer) (lim : Nat) (dz : s.disorder ≤ lim) : (State.ctlOutDone s p r).disorder ≤ lim := by
  unfold State.ctlOutDone
  with_reducible repeat' (first | assumption | apply State.updCtl_disorder | apply State.ctlBusError_disorder | apply State.ctlNak_disorder | apply State.count_disorder | apply State.ringDrop_disorder | apply State.kickCtl_disorder | apply State.erdy0_disorder | apply forAll_disorder | simp only [State.disorder_mk, State.disorder_fold] | apply disorder_put | apply disorder_nil | apply disorder_filter | dsimp only | split | intro)

theorem presentRead_disorder (n : Nat) (p : Port) (s : State) (lim : Nat) (dz : s.disorder ≤ lim) : (presentRead n p s).disorder ≤ lim := by
  induction n generalizing s with
  | zero => exact dz
  | succ n ih =>
    unfold presentRead
    split
    · exact dz
    · dsimp only
      split
      · exact dz
      · split
        · with_reducible repeat' (first | assumption | apply State.emit_disorder | apply State.ringPeek_disorder | apply State.ringDrop_disorder | apply State.count_disorder | apply State.poisonEp0_disorder)
        · split <;> (apply ih; with_reducible repeat' (first | assumption | apply State.emit_disorder | apply State.ringPeek_disorder | apply State.ringDrop_disorder | apply State.count_disorder | apply State.poisonEp0_disorder | apply State.updCtl_disorder))

theorem State.ctlInPacket_disorder (s : State) (p : Port) (r : InAnswer) (lim : Nat) (dz : s.disorder ≤ lim) : (State.ctlInPacket s p r).disorder ≤ lim := by
  unfold State.ctlInPacket
  with_reducible repeat' (first | assumption | apply State.ctlNak_disorder | apply State.failCtl_disorder | apply State.ctlBusError_disorder | apply State.count_disorder | apply State.ringWrite_disorder | apply State.updCtl_disorder | apply presentRead_disorder | apply State.kickCtl_disorder | apply forAll_disorder | simp only [State.disorder_mk, State.disorder_fold] | apply disorder_put | apply disorder_nil | apply disorder_filter | dsimp only | split | intro)

theorem State.ctlStatus_disorder (s : State) (p : Port) (r : XferResult) (lim : Nat) (dz : s.disorder ≤ lim) : (State.ctlStatus s p r).disorder ≤ lim := by
  unfold State.ctlStatus
  with_reducible repeat' (first | assumption | apply State.ctlFinish_disorder | apply State.updCtl_disorder | apply State.ctlNak_disorder | apply State.ctlBusError_disorder | apply State.failCtl_disorder | apply forAll_disorder | simp only [State.disorder_mk, State.disorder_fold] | apply disorder_put | apply disorder_nil | apply disorder_filter | dsimp only | split | intro)

theorem State.localData_disorder (s : State) (p : Port) (r : Setup) (bytes : List Byte) (lim : Nat) (dz : s.disorder ≤ lim) : (State.localData s p r bytes).disorder ≤ lim := by
  unfold State.localData
  with_reducible repeat' (first | assumption | apply State.emits_disorder | apply State.count_disorder)

theorem State.requestError_disorder (s : State) (p : Port) (lim : Nat) (dz : s.disorder ≤ lim) : (State.requestError s p).disorder ≤ lim := by
  unfold State.requestError
  with_reducible repeat' (first | assumption | apply State.emit_disorder)

theorem State.stdGetStatus_disorder (s : State) (p : Port) (x : LiftPort) (r : Setup) (lim : Nat) (dz : s.disorder ≤ lim) : (State.stdGetStatus s p x r).disorder ≤ lim := by
  unfold State.stdGetStatus
  with_reducible repeat' (first | assumption | apply State.localData_disorder | apply State.requestError_disorder | apply forAll_disorder | simp only [State.disorder_mk, State.disorder_fold] | apply disorder_put | apply disorder_nil | apply disorder_filter | dsimp only | split | intro)

theorem State.stdFunctionSuspend_disorder (s : State) (p : Port) (x : LiftPort) (r : Setup) (lim : Nat) (dz : s.disorder ≤ lim) : (State.stdFunctionSuspend s p x r).disorder ≤ lim := by
  unfold State.stdFunctionSuspend
  with_reducible repeat' (first | assumption | apply State.updLift_disorder | apply State.updLeaf_disorder | apply State.emit_disorder | apply State.requestError_disorder | apply forAll_disorder | simp only [State.disorder_mk, State.disorder_fold] | apply disorder_put | apply disorder_nil | apply disorder_filter | dsimp only | split | intro)

theorem State.stdGetDescriptor_disorder (s : State) (p : Port) (x : LiftPort) (r : Setup) (lim : Nat) (dz : s.disorder ≤ lim) : (State.stdGetDescriptor s p x r).disorder ≤ lim := by
  unfold State.stdGetDescriptor
  with_reducible repeat' (first | assumption | apply State.forwardCtl_disorder | apply State.localData_disorder | apply State.requestError_disorder | simp only [State.disorder_mk, State.disorder_fold] | apply disorder_put | apply disorder_nil | apply disorder_filter | dsimp only | split)

theorem State.localSet_disorder (s : State) (p : Port) (f : LiftPort → LiftPort) (lim : Nat) (dz : s.disorder ≤ lim) : (State.localSet s p f).disorder ≤ lim := by
  unfold State.localSet
  with_reducible repeat' (first | assumption | apply State.emit_disorder | apply State.updLift_disorder)

theorem State.treat_disorder (s : State) (p : Port) (x : LiftPort) (r : Setup) (data : List Byte) (lim : Nat) (dz : s.disorder ≤ lim) : (State.treat s p x r data).disorder ≤ lim := by
  unfold State.treat
  repeat' (first | with_reducible assumption | with_reducible apply State.emit_disorder | with_reducible apply State.haltClearedLocally_disorder | with_reducible apply State.forwardCtl_disorder | with_reducible apply State.localData_disorder | with_reducible apply State.requestError_disorder | with_reducible apply State.stdGetStatus_disorder | with_reducible apply State.stdFunctionSuspend_disorder | with_reducible apply State.stdGetDescriptor_disorder | with_reducible apply State.localSet_disorder | simp only [State.disorder_mk, State.disorder_fold] | with_reducible apply disorder_put | with_reducible apply disorder_nil | with_reducible apply disorder_filter | with_reducible refine disorder_ite ?_ ?_)

theorem State.setLink_disorder (s : State) (p : Port) (l : VLink) (lim : Nat) (dz : s.disorder ≤ lim) : (State.setLink s p l).disorder ≤ lim := by
  unfold State.setLink
  with_reducible repeat' (first | assumption | apply State.updLeaf_disorder)

theorem State.suspendOrder_disorder (s : State) (p : Port) (lim : Nat) (dz : s.disorder ≤ lim) : (State.suspendOrder s p).disorder ≤ lim := by
  unfold State.suspendOrder
  with_reducible repeat' (first | assumption | apply State.emit_disorder | apply State.updLift_disorder | apply State.updPort_disorder | apply forAll_disorder | simp only [State.disorder_mk, State.disorder_fold] | apply disorder_put | apply disorder_nil | apply disorder_filter | dsimp only | split | intro)

theorem State.resumeOrder_disorder (s : State) (p : Port) (lim : Nat) (dz : s.disorder ≤ lim) : (State.resumeOrder s p).disorder ≤ lim := by
  unfold State.resumeOrder
  with_reducible repeat' (first | assumption | apply State.updPort_disorder | apply State.emit_disorder | apply forAll_disorder | simp only [State.disorder_mk, State.disorder_fold] | apply disorder_put | apply disorder_nil | apply disorder_filter | dsimp only | split | intro)

theorem State.l1Idle_disorder (s : State) (p : Port) (lim : Nat) (dz : s.disorder ≤ lim) : (State.l1Idle s p).disorder ≤ lim := by
  unfold State.l1Idle
  with_reducible repeat' (first | assumption | apply State.updPort_disorder | apply State.updLift_disorder | apply State.emit_disorder | apply forAll_disorder | simp only [State.disorder_mk, State.disorder_fold] | apply disorder_put | apply disorder_nil | apply disorder_filter | dsimp only | split | intro)

theorem State.busWakes_disorder (s : State) (p : Port) (lim : Nat) (dz : s.disorder ≤ lim) : (State.busWakes s p).disorder ≤ lim := by
  unfold State.busWakes
  with_reducible repeat' (first | assumption | apply presentRead_disorder | apply State.kickCtl_disorder | apply State.erdy0_disorder | apply forAll_disorder | apply State.sendOut_disorder | apply State.erdy_disorder | apply forAll_disorder | simp only [State.disorder_mk, State.disorder_fold] | apply disorder_put | apply disorder_nil | apply disorder_filter | dsimp only | split | intro)

theorem State.l1Exit_disorder (s : State) (p : Port) (lim : Nat) (dz : s.disorder ≤ lim) : (State.l1Exit s p).disorder ≤ lim := by
  unfold State.l1Exit
  with_reducible repeat' (first | assumption | apply State.updPort_disorder | apply State.updLift_disorder | apply State.emit_disorder | apply State.busWakes_disorder | apply forAll_disorder | simp only [State.disorder_mk, State.disorder_fold] | apply disorder_put | apply disorder_nil | apply disorder_filter | dsimp only | split | intro)

theorem State.bulkTime_disorder (s : State) (p : Port) (x : LiftPort) (lim : Nat) (dz : s.disorder ≤ lim) : (State.bulkTime s p x).disorder ≤ lim := by
  unfold State.bulkTime
  with_reducible repeat' (first | assumption | apply forAll_disorder | apply State.emit_disorder | apply State.sendOut_disorder | apply State.updLift_disorder | apply forAll_disorder | simp only [State.disorder_mk, State.disorder_fold] | apply disorder_put | apply disorder_nil | apply disorder_filter | dsimp only | split | intro)

theorem State.periodicTime_disorder (s : State) (p : Port) (x : LiftPort) (l : List Periodic) (lim : Nat) (dz : s.disorder ≤ lim) : (State.periodicTime s p x l).disorder ≤ lim := by
  unfold State.periodicTime
  with_reducible repeat' (first | assumption | apply forAll_disorder | apply State.periodic_disorder | apply State.answer_disorder | apply forAll_disorder | simp only [State.disorder_mk, State.disorder_fold] | apply disorder_put | apply disorder_nil | apply disorder_filter | dsimp only | split | intro)

theorem State.liftTimers_disorder (s : State) (p : Port) (x : LiftPort) (lim : Nat) (dz : s.disorder ≤ lim) : (State.liftTimers s p x).disorder ≤ lim := by
  unfold State.liftTimers
  with_reducible repeat' (first | assumption | apply State.updLift_disorder | apply State.busWakes_disorder | apply State.emits_disorder | apply forAll_disorder | simp only [State.disorder_mk, State.disorder_fold] | apply disorder_put | apply disorder_nil | apply disorder_filter | dsimp only | split | intro)

theorem State.busFrame_disorder (s : State) (p : Port) (l : List Periodic) (lim : Nat) (dz : s.disorder ≤ lim) : (State.busFrame s p l).disorder ≤ lim := by
  unfold State.busFrame
  with_reducible repeat' (first | assumption | apply State.emit_disorder | apply State.liftTimers_disorder | apply State.periodicTime_disorder | apply State.kickCtl_disorder | apply forAll_disorder | apply State.erdy_disorder | apply State.erdy0_disorder | apply State.bulkTime_disorder | apply forAll_disorder | simp only [State.disorder_mk, State.disorder_fold] | apply disorder_put | apply disorder_nil | apply disorder_filter | dsimp only | split | intro)

theorem State.microFrame_disorder (s : State) (l : List Periodic) (lim : Nat) (dz : s.disorder ≤ lim) : (State.microFrame s l).disorder ≤ lim := by
  unfold State.microFrame
  with_reducible repeat' (first | assumption | apply forAll_disorder | apply State.busFrame_disorder | apply forAll_disorder | simp only [State.disorder_mk, State.disorder_fold] | apply disorder_put | apply disorder_nil | apply disorder_filter | dsimp only | split | intro)

theorem State.placeMf_disorder (s : State) (k : Part) (side : Option Side) (lim : Nat) (dz : s.disorder ≤ lim) : (State.placeMf s k side).disorder ≤ lim := by
  unfold State.placeMf
  with_reducible repeat' (first | assumption | apply State.updTop_disorder | apply State.updMf_disorder | apply State.configured_disorder | apply forAll_disorder | simp only [State.disorder_mk, State.disorder_fold] | apply disorder_put | apply disorder_nil | apply disorder_filter | dsimp only | split | intro)

theorem State.presentTree_disorder (s : State) (k : Part) (lim : Nat) (dz : s.disorder ≤ lim) : (State.presentTree s k).disorder ≤ lim := by
  unfold State.presentTree
  with_reducible repeat' (first | assumption | apply State.updPart_disorder | apply State.allocMf_disorder | apply State.updUp_disorder | apply State.emits_disorder | apply forAll_disorder | simp only [State.disorder_mk, State.disorder_fold] | apply disorder_put | apply disorder_nil | apply disorder_filter | dsimp only | split | intro)

theorem State.evalPresent_disorder (s : State) (k : Part) (lim : Nat) (dz : s.disorder ≤ lim) : (State.evalPresent s k).disorder ≤ lim := by
  unfold State.evalPresent
  with_reducible repeat' (first | assumption | apply State.presentTree_disorder | simp only [State.disorder_mk, State.disorder_fold] | apply disorder_put | apply disorder_nil | apply disorder_filter | dsimp only | split)

theorem State.treeGone_disorder (s : State) (k : Part) (lim : Nat) (dz : s.disorder ≤ lim) : (State.treeGone s k).disorder ≤ lim := by
  unfold State.treeGone
  with_reducible repeat' (first | assumption | apply State.updPart_disorder | apply State.release_disorder | apply State.updUp_disorder | apply State.emits_disorder | apply State.answer_disorder | apply State.evalPresent_disorder | apply forAll_disorder | simp only [State.disorder_mk, State.disorder_fold] | apply disorder_put | apply disorder_nil | apply disorder_filter | dsimp only | split | intro)

theorem State.checkWithdraw_disorder (s : State) (k : Part) (lim : Nat) (dz : s.disorder ≤ lim) : (State.checkWithdraw s k).disorder ≤ lim := by
  unfold State.checkWithdraw
  with_reducible repeat' (first | assumption | apply State.treeGone_disorder | simp only [State.disorder_mk, State.disorder_fold] | apply disorder_put | apply disorder_nil | apply disorder_filter | dsimp only | split)

theorem State.showUsb2_disorder (s : State) (p : Port) (path : Path) (speed : Speed) (lim : Nat) (dz : s.disorder ≤ lim) : (State.showUsb2 s p path speed).disorder ≤ lim := by
  unfold State.showUsb2
  with_reducible repeat' (first | assumption | apply State.updPort_disorder | apply State.showConnect_disorder | apply State.attachEvent_disorder | simp only [State.disorder_mk, State.disorder_fold] | apply disorder_put | apply disorder_nil | apply disorder_filter | dsimp only | split)

theorem State.showPass_disorder (s : State) (p : Port) (lim : Nat) (dz : s.disorder ≤ lim) : (State.showPass s p).disorder ≤ lim := by
  unfold State.showPass
  with_reducible repeat' (first | assumption | apply State.showUsb2_disorder)

theorem State.showNative_disorder (s : State) (p : Port) (lim : Nat) (dz : s.disorder ≤ lim) : (State.showNative s p).disorder ≤ lim := by
  unfold State.showNative
  with_reducible repeat' (first | assumption | apply State.allocNative_disorder | apply State.updPort_disorder | apply State.showConnect_disorder | apply State.attachEvent_disorder)

theorem State.startProbe_disorder (s : State) (p : Port) (lim : Nat) (dz : s.disorder ≤ lim) : (State.startProbe s p).disorder ≤ lim := by
  unfold State.startProbe
  with_reducible repeat' (first | assumption | apply State.emit_disorder | apply State.updPort_disorder | simp only [State.disorder_mk, State.disorder_fold])

theorem State.showCarried_disorder (s : State) (p : Port) (c : Carried) (lim : Nat) (dz : s.disorder ≤ lim) : (State.showCarried s p c).disorder ≤ lim := by
  unfold State.showCarried
  with_reducible repeat' (first | assumption | apply State.updPort_disorder | apply State.showUsb2_disorder | apply State.fallbackEvent_disorder | apply forAll_disorder | simp only [State.disorder_mk, State.disorder_fold] | apply disorder_put | apply disorder_nil | apply disorder_filter | dsimp only | split | intro)

theorem State.attachFlow_disorder (s : State) (p : Port) (lim : Nat) (dz : s.disorder ≤ lim) : (State.attachFlow s p).disorder ≤ lim := by
  unfold State.attachFlow
  with_reducible repeat' (first | assumption | apply State.updPort_disorder | apply State.showNative_disorder | apply State.emit_disorder | apply State.showPass_disorder | apply State.startProbe_disorder | apply State.showCarried_disorder | apply forAll_disorder | simp only [State.disorder_mk, State.disorder_fold] | apply disorder_put | apply disorder_nil | apply disorder_filter | dsimp only | split | intro)

theorem State.settle_disorder (s : State) (p : Port) (lim : Nat) (dz : s.disorder ≤ lim) : (State.settle s p).disorder ≤ lim := by
  unfold State.settle
  with_reducible repeat' (first | assumption | apply State.updPort_disorder | apply State.attachFlow_disorder | simp only [State.disorder_mk, State.disorder_fold] | apply disorder_put | apply disorder_nil | apply disorder_filter | dsimp only | split)

theorem State.setLines_disorder (s : State) (p : Port) (l : DataLines) (lim : Nat) (dz : s.disorder ≤ lim) : (State.setLines s p l).disorder ≤ lim := by
  unfold State.setLines
  with_reducible repeat' (first | assumption | apply State.updPort_disorder | apply State.emit_disorder | apply forAll_disorder | simp only [State.disorder_mk, State.disorder_fold] | apply disorder_put | apply disorder_nil | apply disorder_filter | dsimp only | split | intro)

theorem State.applyMode_disorder (s : State) (p : Port) (lim : Nat) (dz : s.disorder ≤ lim) : (State.applyMode s p).disorder ≤ lim := by
  unfold State.applyMode
  with_reducible repeat' (first | assumption | apply State.updPort_disorder | apply State.modeEvent_disorder | apply State.setLines_disorder | apply State.updVbus_disorder | apply State.openTypeC_disorder | apply State.leaveOpen_disorder | apply State.refreshWord_disorder | apply State.answer_disorder | apply forAll_disorder | simp only [State.disorder_mk, State.disorder_fold] | apply disorder_put | apply disorder_nil | apply disorder_filter | dsimp only | split | intro)

theorem State.applyMove_disorder (s : State) (p : Port) (was : Carried) (lim : Nat) (dz : s.disorder ≤ lim) : (State.applyMove s p was).disorder ≤ lim := by
  unfold State.applyMove
  with_reducible repeat' (first | assumption | apply State.freeUart_disorder | apply State.isolateSbu_disorder | apply State.updPd_disorder | apply State.updPort_disorder | apply State.refreshWord_disorder | apply State.answer_disorder | apply forAll_disorder | simp only [State.disorder_mk, State.disorder_fold] | apply disorder_put | apply disorder_nil | apply disorder_filter | dsimp only | split | intro)

theorem State.startDisable_disorder (s : State) (p : Port) (lim : Nat) (dz : s.disorder ≤ lim) : (State.startDisable s p).disorder ≤ lim := by
  unfold State.startDisable
  with_reducible repeat' (first | assumption | apply State.updPort_disorder | apply State.setLines_disorder | apply State.endContract_disorder | apply State.startDischarge_disorder | apply State.refreshWord_disorder | apply forAll_disorder | simp only [State.disorder_mk, State.disorder_fold] | apply disorder_put | apply disorder_nil | apply disorder_filter | dsimp only | split | intro)

theorem State.startOwnReset_disorder (s : State) (p : Port) (lim : Nat) (dz : s.disorder ≤ lim) : (State.startOwnReset s p).disorder ≤ lim := by
  unfold State.startOwnReset
  with_reducible repeat' (first | assumption | apply State.updPort_disorder | apply State.emit_disorder | apply State.answer_disorder | apply State.settle_disorder | apply forAll_disorder | simp only [State.disorder_mk, State.disorder_fold] | apply disorder_put | apply disorder_nil | apply disorder_filter | dsimp only | split | intro)

theorem State.afterDrain_disorder (s : State) (p : Port) (was : Carried) (lim : Nat) (dz : s.disorder ≤ lim) : (State.afterDrain s p was).disorder ≤ lim := by
  unfold State.afterDrain
  with_reducible repeat' (first | assumption | apply State.applyMove_disorder | apply State.startDisable_disorder | apply State.applyMode_disorder | apply State.updPort_disorder | apply State.startOwnReset_disorder | apply State.settle_disorder | apply forAll_disorder | simp only [State.disorder_mk, State.disorder_fold] | apply disorder_put | apply disorder_nil | apply disorder_filter | dsimp only | split | intro)

theorem State.beginDrain_disorder (s : State) (p : Port) (r : Reason) (lim : Nat) (dz : s.disorder ≤ lim) : (State.beginDrain s p r).disorder ≤ lim := by
  unfold State.beginDrain
  with_reducible repeat' (first | assumption | apply State.updPort_disorder | apply State.releaseHalves_disorder | apply State.dropCtl_disorder | apply State.updLift_disorder | apply forAll_disorder | simp only [State.disorder_mk, State.disorder_fold] | apply disorder_put | apply disorder_nil | apply disorder_filter | dsimp only | split | intro)

theorem State.endPresentation_disorder (s : State) (p : Port) (lim : Nat) (dz : s.disorder ≤ lim) : (State.endPresentation s p).disorder ≤ lim := by
  unfold State.endPresentation
  with_reducible repeat' (first | assumption | apply State.showDisconnect_disorder | apply State.detachEvent_disorder | apply State.emit_disorder | apply State.release_disorder | apply State.updPort_disorder | apply forAll_disorder | simp only [State.disorder_mk, State.disorder_fold] | apply disorder_put | apply disorder_nil | apply disorder_filter | dsimp only | split | intro)

theorem State.finishDrain_disorder (s : State) (p : Port) (lim : Nat) (dz : s.disorder ≤ lim) : (State.finishDrain s p).disorder ≤ lim := by
  unfold State.finishDrain
  with_reducible repeat' (first | assumption | apply State.endPresentation_disorder | apply State.afterDrain_disorder | apply State.checkWithdraw_disorder | apply forAll_disorder | simp only [State.disorder_mk, State.disorder_fold] | apply disorder_put | apply disorder_nil | apply disorder_filter | dsimp only | split | intro)

theorem State.drainThen_disorder (s : State) (p : Port) (r : Reason) (f : PortState → PortState) (lim : Nat) (dz : s.disorder ≤ lim) : (State.drainThen s p r f).disorder ≤ lim := by
  unfold State.drainThen
  with_reducible repeat' (first | assumption | apply State.updPort_disorder | apply State.beginDrain_disorder | apply State.endPresentation_disorder | apply State.afterDrain_disorder | apply forAll_disorder | simp only [State.disorder_mk, State.disorder_fold] | apply disorder_put | apply disorder_nil | apply disorder_filter | dsimp only | split | intro)

theorem State.drainComplete_disorder (s : State) (p : Port) (lim : Nat) (dz : s.disorder ≤ lim) : (State.drainComplete s p).disorder ≤ lim := by
  unfold State.drainComplete
  with_reducible repeat' (first | assumption | apply State.finishDrain_disorder | simp only [State.disorder_mk, State.disorder_fold] | apply disorder_put | apply disorder_nil | apply disorder_filter | dsimp only | split)

theorem State.drainExpired_disorder (s : State) (p : Port) (lim : Nat) (dz : s.disorder ≤ lim) : (State.drainExpired s p).disorder ≤ lim := by
  unfold State.drainExpired
  with_reducible repeat' (first | assumption | apply State.finishDrain_disorder | simp only [State.disorder_mk, State.disorder_fold] | apply disorder_put | apply disorder_nil | apply disorder_filter | dsimp only | split)

theorem State.vbusOn_disorder (s : State) (p : Port) (lim : Nat) (dz : s.disorder ≤ lim) : (State.vbusOn s p).disorder ≤ lim := by
  unfold State.vbusOn
  with_reducible repeat' (first | assumption | apply State.updVbus_disorder | apply State.endHold_disorder | apply State.updPd_disorder | apply State.refreshWord_disorder | apply forAll_disorder | simp only [State.disorder_mk, State.disorder_fold] | apply disorder_put | apply disorder_nil | apply disorder_filter | dsimp only | split | intro)

theorem State.runDeferred_disorder (s : State) (p : Port) (a0 : Deferred) (lim : Nat) (dz : s.disorder ≤ lim) : (State.runDeferred s p a0).disorder ≤ lim := by
  unfold State.runDeferred
  with_reducible repeat' (first | assumption | apply State.updPort_disorder | apply State.applyMode_disorder | apply State.vbusOn_disorder | apply forAll_disorder | simp only [State.disorder_mk, State.disorder_fold] | apply disorder_put | apply disorder_nil | apply disorder_filter | dsimp only | split | intro)

theorem State.disableComplete_disorder (s : State) (p : Port) (lim : Nat) (dz : s.disorder ≤ lim) : (State.disableComplete s p).disorder ≤ lim := by
  unfold State.disableComplete
  with_reducible repeat' (first | assumption | apply State.updPort_disorder | apply State.setLines_disorder | apply State.applyMode_disorder | apply forAll_disorder | apply State.runDeferred_disorder | apply State.afterDrain_disorder | apply forAll_disorder | simp only [State.disorder_mk, State.disorder_fold] | apply disorder_put | apply disorder_nil | apply disorder_filter | dsimp only | split | intro)

theorem State.dischargeEnd_disorder (s : State) (p : Port) (lim : Nat) (dz : s.disorder ≤ lim) : (State.dischargeEnd s p).disorder ≤ lim := by
  unfold State.dischargeEnd
  with_reducible repeat' (first | assumption | apply State.dischargeOver_disorder | apply State.disableComplete_disorder | simp only [State.disorder_mk, State.disorder_fold] | apply disorder_put | apply disorder_nil | apply disorder_filter | dsimp only | split)

theorem State.connectSeen_disorder (s : State) (p : Port) (training : Bool) (lim : Nat) (dz : s.disorder ≤ lim) : (State.connectSeen s p training).disorder ≤ lim := by
  unfold State.connectSeen
  with_reducible repeat' (first | assumption | apply State.updPort_disorder | apply State.emit_disorder | apply State.drainThen_disorder | apply State.attachFlow_disorder | apply forAll_disorder | simp only [State.disorder_mk, State.disorder_fold] | apply disorder_put | apply disorder_nil | apply disorder_filter | dsimp only | split | intro)

theorem State.disconnectSeen_disorder (s : State) (p : Port) (lim : Nat) (dz : s.disorder ≤ lim) : (State.disconnectSeen s p).disorder ≤ lim := by
  unfold State.disconnectSeen
  with_reducible repeat' (first | assumption | apply State.updPort_disorder | apply State.beginDrain_disorder | apply State.answer_disorder | apply State.updLeaf_disorder | apply forAll_disorder | simp only [State.disorder_mk, State.disorder_fold] | apply disorder_put | apply disorder_nil | apply disorder_filter | dsimp only | split | intro)

theorem State.debounced_disorder (s : State) (p : Port) (lim : Nat) (dz : s.disorder ≤ lim) : (State.debounced s p).disorder ≤ lim := by
  unfold State.debounced
  with_reducible repeat' (first | assumption | apply State.startProbe_disorder | simp only [State.disorder_mk, State.disorder_fold] | apply disorder_put | apply disorder_nil | apply disorder_filter | dsimp only | split)

theorem State.presentPending_disorder (s : State) (p : Port) (lim : Nat) (dz : s.disorder ≤ lim) : (State.presentPending s p).disorder ≤ lim := by
  unfold State.presentPending
  with_reducible repeat' (first | assumption | apply State.attachFlow_disorder | simp only [State.disorder_mk, State.disorder_fold] | apply disorder_put | apply disorder_nil | apply disorder_filter | dsimp only | split)

theorem State.ssU0Held_disorder (s : State) (p : Port) (gen2 : Bool) (lim : Nat) (dz : s.disorder ≤ lim) : (State.ssU0Held s p gen2).disorder ≤ lim := by
  unfold State.ssU0Held
  with_reducible repeat' (first | assumption | apply State.updPort_disorder | apply State.attachFlow_disorder | simp only [State.disorder_mk, State.disorder_fold] | apply disorder_put | apply disorder_nil | apply disorder_filter | dsimp only | split)

theorem State.vdpSrc_disorder (s : State) (p : Port) (present : Bool) (lim : Nat) (dz : s.disorder ≤ lim) : (State.vdpSrc s p present).disorder ≤ lim := by
  unfold State.vdpSrc
  with_reducible repeat' (first | assumption | apply State.emit_disorder | apply State.updPort_disorder | simp only [State.disorder_mk, State.disorder_fold] | apply disorder_put | apply disorder_nil | apply disorder_filter | dsimp only | split)

theorem State.sideChanged_disorder (s : State) (k : Part) (lim : Nat) (dz : s.disorder ≤ lim) : (State.sideChanged s k).disorder ≤ lim := by
  unfold State.sideChanged
  with_reducible repeat' (first | assumption | apply State.emit_disorder | apply State.updPort_disorder | apply State.drainThen_disorder | apply forAll_disorder | simp only [State.disorder_mk, State.disorder_fold] | apply disorder_put | apply disorder_nil | apply disorder_filter | dsimp only | split | intro)

theorem State.setSide_disorder (s : State) (k : Part) (side : SsSide) (lim : Nat) (dz : s.disorder ≤ lim) : (State.setSide s k side).disorder ≤ lim := by
  unfold State.setSide
  with_reducible repeat' (first | assumption | apply State.updUp_disorder | apply State.placeMf_disorder | apply State.sideChanged_disorder)

theorem State.withdraw_disorder (s : State) (k : Part) (r : Reason) (answer : Bool) (dest : PartSt) (lim : Nat) (dz : s.disorder ≤ lim) : (State.withdraw s k r answer dest).disorder ≤ lim := by
  unfold State.withdraw
  with_reducible repeat' (first | assumption | apply State.answer_disorder | apply State.updPart_disorder | apply State.checkWithdraw_disorder | apply State.drainThen_disorder | apply forAll_disorder | simp only [State.disorder_mk, State.disorder_fold] | apply disorder_put | apply disorder_nil | apply disorder_filter | dsimp only | split | intro)

theorem State.updProbe_disorder (s : State) (p : Port) (f : Probe → Probe) (lim : Nat) (dz : s.disorder ≤ lim) : (State.updProbe s p f).disorder ≤ lim := by
  unfold State.updProbe
  with_reducible repeat' (first | assumption | apply State.updLift_disorder)

theorem State.issueProbe_disorder (s : State) (p : Port) (lim : Nat) (dz : s.disorder ≤ lim) : (State.issueProbe s p).disorder ≤ lim := by
  unfold State.issueProbe
  with_reducible repeat' (first | assumption | apply State.updProbe_disorder | apply State.emit_disorder | apply forAll_disorder | simp only [State.disorder_mk, State.disorder_fold] | apply disorder_put | apply disorder_nil | apply disorder_filter | dsimp only | split | intro)

theorem State.probeTo_disorder (s : State) (p : Port) (st : ProbeStep) (len : Nat) (lim : Nat) (dz : s.disorder ≤ lim) : (State.probeTo s p st len).disorder ≤ lim := by
  unfold State.probeTo
  with_reducible repeat' (first | assumption | apply State.updProbe_disorder | apply State.issueProbe_disorder)

theorem State.rowsFree_disorder (s : State) (p : Port) (d : DescSet) (lim : Nat) (dz : s.disorder ≤ lim) :
    ∀ t, State.rowsFree s p d = some t → t.disorder ≤ lim := by
  intro t h
  unfold State.rowsFree at h
  refine State.reserve_disorder _ _ _ _ ?_ _ h
  with_reducible repeat' (first | assumption | apply State.release_disorder)

theorem State.rowsFree_getD_disorder (s : State) (p : Port) (d : DescSet) (lim : Nat) (dz : s.disorder ≤ lim) : ((s.rowsFree p d).getD s).disorder ≤ lim := by
  cases h : s.rowsFree p d with
  | none => exact dz
  | some t => exact State.rowsFree_disorder _ _ _ _ dz _ h

theorem State.noteDevice_disorder (s : State) (p : Port) (d : DescSet) (qualified : Bool) (lim : Nat) (dz : s.disorder ≤ lim) : (State.noteDevice s p d qualified).disorder ≤ lim := by
  unfold State.noteDevice
  with_reducible repeat' (first | assumption | apply State.updPort_disorder)

theorem State.endLift_disorder (s : State) (p : Port) (lim : Nat) (dz : s.disorder ≤ lim) : (State.endLift s p).disorder ≤ lim := by
  unfold State.endLift
  with_reducible repeat' (first | assumption | apply State.emit_disorder | apply State.release_disorder | simp only [State.disorder_mk, State.disorder_fold])

theorem State.fallbackNote_disorder (s : State) (p : Port) (reason detail : Nat) (lim : Nat) (dz : s.disorder ≤ lim) : (State.fallbackNote s p reason detail).disorder ≤ lim := by
  unfold State.fallbackNote
  with_reducible repeat' (first | assumption | apply State.fallbackEvent_disorder | simp only [State.disorder_mk, State.disorder_fold] | apply disorder_put | apply disorder_nil | apply disorder_filter | dsimp only | split)

theorem State.fallBack_disorder (s : State) (p : Port) (reason detail : Nat) (lim : Nat) (dz : s.disorder ≤ lim) : (State.fallBack s p reason detail).disorder ≤ lim := by
  unfold State.fallBack
  with_reducible repeat' (first | assumption | apply State.updPort_disorder | apply State.showUsb2_disorder | apply State.endLift_disorder | apply State.fallbackNote_disorder)

theorem State.presentLifted_disorder (s : State) (p : Port) (d : DescSet) (lim : Nat) (dz : s.disorder ≤ lim) : (State.presentLifted s p d).disorder ≤ lim := by
  unfold State.presentLifted
  with_reducible repeat' (first | assumption | apply State.rowsFree_getD_disorder | apply State.updPort_disorder | apply State.showConnect_disorder | apply State.attachEvent_disorder | apply forAll_disorder | simp only [State.disorder_mk, State.disorder_fold] | apply disorder_put | apply disorder_nil | apply disorder_filter | dsimp only | split | intro)

theorem State.conclude_disorder (s : State) (p : Port) (d : DescSet) (lim : Nat) (dz : s.disorder ≤ lim) : (State.conclude s p d).disorder ≤ lim := by
  unfold State.conclude
  with_reducible repeat' (first | assumption | apply State.noteDevice_disorder | apply State.endLift_disorder | apply State.showUsb2_disorder | apply State.updPort_disorder | apply State.fallBack_disorder | apply State.updProbe_disorder | apply State.presentLifted_disorder | apply forAll_disorder | simp only [State.disorder_mk, State.disorder_fold] | apply disorder_put | apply disorder_nil | apply disorder_filter | dsimp only | split | intro)

theorem State.leafResetDone_disorder (s : State) (p : Port) (connected : Bool) (lim : Nat) (dz : s.disorder ≤ lim) : (State.leafResetDone s p connected).disorder ≤ lim := by
  unfold State.leafResetDone
  with_reducible repeat' (first | assumption | apply State.updLeaf_disorder | apply forAll_disorder | simp only [State.disorder_mk, State.disorder_fold] | apply disorder_put | apply disorder_nil | apply disorder_filter | dsimp only | split | intro)

theorem State.resetStep6_disorder (s : State) (p : Port) (d : DescSet) (lim : Nat) (dz : s.disorder ≤ lim) : (State.resetStep6 s p d).disorder ≤ lim := by
  unfold State.resetStep6
  with_reducible repeat' (first | assumption | apply State.leafResetDone_disorder | apply State.updLift_disorder | apply State.noteDevice_disorder | apply State.updPort_disorder | apply State.erdy0_disorder | apply State.treat_disorder | apply forAll_disorder | simp only [State.disorder_mk, State.disorder_fold] | apply disorder_put | apply disorder_nil | apply disorder_filter | dsimp only | split | intro)

theorem State.resetDetach_disorder (s : State) (p : Port) (lim : Nat) (dz : s.disorder ≤ lim) : (State.resetDetach s p).disorder ≤ lim := by
  unfold State.resetDetach
  with_reducible repeat' (first | assumption | apply State.leafResetDone_disorder | apply State.detachEvent_disorder | apply State.updPort_disorder | apply State.endLift_disorder | apply forAll_disorder | simp only [State.disorder_mk, State.disorder_fold] | apply disorder_put | apply disorder_nil | apply disorder_filter | dsimp only | split | intro)

theorem State.requalify_disorder (s : State) (p : Port) (d : DescSet) (detail : Nat) (qualified : Bool) (lim : Nat) (dz : s.disorder ≤ lim) : (State.requalify s p d detail qualified).disorder ≤ lim := by
  unfold State.requalify
  with_reducible repeat' (first | assumption | apply State.updPort_disorder | apply State.showUsb2_disorder | apply State.noteDevice_disorder | apply State.fallbackNote_disorder | apply State.resetDetach_disorder)

theorem State.refetched_disorder (s : State) (p : Port) (d : DescSet) (lim : Nat) (dz : s.disorder ≤ lim) : (State.refetched s p d).disorder ≤ lim := by
  unfold State.refetched
  with_reducible repeat' (first | assumption | apply State.rowsFree_getD_disorder | apply State.resetDetach_disorder | apply State.noteDevice_disorder | apply State.showUsb2_disorder | apply State.resetStep6_disorder | apply State.requalify_disorder | apply State.updProbe_disorder | apply forAll_disorder | simp only [State.disorder_mk, State.disorder_fold] | apply disorder_put | apply disorder_nil | apply disorder_filter | dsimp only | split | intro)

theorem State.probeStopped_disorder (s : State) (p : Port) (e : ProbeEnd) (lim : Nat) (dz : s.disorder ≤ lim) : (State.probeStopped s p e).disorder ≤ lim := by
  unfold State.probeStopped
  with_reducible repeat' (first | assumption | apply State.emit_disorder | apply State.updProbe_disorder | apply State.noteDevice_disorder | apply State.fallBack_disorder | apply State.requalify_disorder | simp only [State.disorder_mk, State.disorder_fold] | apply disorder_put | apply disorder_nil | apply disorder_filter | dsimp only | split)

theorem State.probeGo_disorder (s : State) (p : Port) (b : Probe) (n : ProbeNext) (lim : Nat) (dz : s.disorder ≤ lim) : (s.probeGo p b n).disorder ≤ lim := by
  have hu : ∀ f, (s.updProbe p f).disorder ≤ lim := fun f => State.updProbe_disorder _ _ _ _ dz
  unfold State.probeGo
  split
  · exact State.probeTo_disorder _ _ _ _ _ (hu _)
  · with_reducible repeat' (first | assumption | apply State.updProbe_disorder | apply State.probeTo_disorder | apply State.conclude_disorder | apply State.refetched_disorder | apply State.probeStopped_disorder | simp only [State.disorder_mk, State.disorder_fold] | apply disorder_put | apply disorder_nil | apply disorder_filter | dsimp only | split)
  · with_reducible repeat' (first | assumption | apply State.updProbe_disorder | apply State.probeTo_disorder | apply State.conclude_disorder | apply State.refetched_disorder | apply State.probeStopped_disorder | simp only [State.disorder_mk, State.disorder_fold] | apply disorder_put | apply disorder_nil | apply disorder_filter | dsimp only | split)
  · with_reducible repeat' (first | assumption | apply State.updProbe_disorder | apply State.probeTo_disorder | apply State.conclude_disorder | apply State.refetched_disorder | apply State.probeStopped_disorder)

theorem State.requestFails_disorder (s : State) (p : Port) (lim : Nat) (dz : s.disorder ≤ lim) : (State.requestFails s p).disorder ≤ lim := by
  unfold State.requestFails
  with_reducible repeat' (first | assumption | apply State.probeStopped_disorder | apply State.updProbe_disorder | apply State.issueProbe_disorder | apply forAll_disorder | simp only [State.disorder_mk, State.disorder_fold] | apply disorder_put | apply disorder_nil | apply disorder_filter | dsimp only | split | intro)

theorem State.probeRequest_disorder (s : State) (p : Port) (r : XferResult) (lim : Nat) (dz : s.disorder ≤ lim) : (State.probeRequest s p r).disorder ≤ lim := by
  unfold State.probeRequest
  with_reducible repeat' (first | assumption | apply State.probeGo_disorder | apply State.updProbe_disorder | apply State.emit_disorder | apply State.requestFails_disorder | apply forAll_disorder | simp only [State.disorder_mk, State.disorder_fold] | apply disorder_put | apply disorder_nil | apply disorder_filter | dsimp only | split | intro)

theorem State.probeTimeout_disorder (s : State) (p : Port) (lim : Nat) (dz : s.disorder ≤ lim) : (State.probeTimeout s p).disorder ≤ lim := by
  unfold State.probeTimeout
  with_reducible repeat' (first | assumption | apply State.probeStopped_disorder | simp only [State.disorder_mk, State.disorder_fold] | apply disorder_put | apply disorder_nil | apply disorder_filter | dsimp only | split)

theorem State.probesAfterPause_disorder (s : State) (lim : Nat) (dz : s.disorder ≤ lim) : (State.probesAfterPause s).disorder ≤ lim := by
  unfold State.probesAfterPause
  with_reducible repeat' (first | assumption | apply State.updProbe_disorder | apply State.conclude_disorder | apply State.refetched_disorder | apply forAll_disorder | simp only [State.disorder_mk, State.disorder_fold] | apply disorder_put | apply disorder_nil | apply disorder_filter | dsimp only | split | intro)

theorem State.startLiftReset_disorder (s : State) (p : Port) (byHost : Bool) (lim : Nat) (dz : s.disorder ≤ lim) : (State.startLiftReset s p byHost).disorder ≤ lim := by
  unfold State.startLiftReset
  with_reducible repeat' (first | assumption | apply State.dropCtl_disorder | apply State.closeContexts_disorder | apply State.updLift_disorder | apply State.setLink_disorder | apply State.emit_disorder | apply State.l1Exit_disorder | apply State.updPort_disorder | apply forAll_disorder | simp only [State.disorder_mk, State.disorder_fold] | apply disorder_put | apply disorder_nil | apply disorder_filter | dsimp only | split | intro)

theorem State.sofRuns_disorder (s : State) (p : Port) (lim : Nat) (dz : s.disorder ≤ lim) : (State.sofRuns s p).disorder ≤ lim := by
  unfold State.sofRuns
  with_reducible repeat' (first | assumption | apply State.updLift_disorder | apply forAll_disorder | simp only [State.disorder_mk, State.disorder_fold] | apply disorder_put | apply disorder_nil | apply disorder_filter | dsimp only | split | intro)

theorem State.hostResetDone_disorder (s : State) (p : Port) (side : Side) (lim : Nat) (dz : s.disorder ≤ lim) : (State.hostResetDone s p side).disorder ≤ lim := by
  unfold State.hostResetDone
  with_reducible repeat' (first | assumption | apply State.updLeaf_disorder | apply State.updPort_disorder | apply forAll_disorder | simp only [State.disorder_mk, State.disorder_fold] | apply disorder_put | apply disorder_nil | apply disorder_filter | dsimp only | split | intro)

theorem State.se0End_disorder (s : State) (p : Port) (found : FoundSpeed) (lim : Nat) (dz : s.disorder ≤ lim) : (State.se0End s p found).disorder ≤ lim := by
  unfold State.se0End
  with_reducible repeat' (first | assumption | apply State.sofRuns_disorder | apply State.endLift_disorder | apply State.updPort_disorder | apply State.answer_disorder | apply State.settle_disorder | apply State.resetDetach_disorder | apply State.showUsb2_disorder | apply State.hostResetDone_disorder | apply forAll_disorder | simp only [State.disorder_mk, State.disorder_fold] | apply disorder_put | apply disorder_nil | apply disorder_filter | dsimp only | split | intro)

theorem State.recoveryEnd_disorder (s : State) (p : Port) (lim : Nat) (dz : s.disorder ≤ lim) : (State.recoveryEnd s p).disorder ≤ lim := by
  unfold State.recoveryEnd
  with_reducible repeat' (first | assumption | apply State.updLift_disorder | apply State.issueProbe_disorder | apply State.showUsb2_disorder | apply State.drainThen_disorder | apply State.updPort_disorder | apply forAll_disorder | simp only [State.disorder_mk, State.disorder_fold] | apply disorder_put | apply disorder_nil | apply disorder_filter | dsimp only | split | intro)

theorem State.virtualReset_disorder (s : State) (k : Part) (side : Side) (i : Pos) (bh : Bool) (lim : Nat) (dz : s.disorder ≤ lim) : (State.virtualReset s k side i bh).disorder ≤ lim := by
  unfold State.virtualReset
  with_reducible repeat' (first | assumption | apply State.updLeaf_disorder | apply forAll_disorder | simp only [State.disorder_mk, State.disorder_fold] | apply disorder_put | apply disorder_nil | apply disorder_filter | dsimp only | split | intro)

theorem State.startHostReset_disorder (s : State) (k : Part) (side : Side) (i : Pos) (p : Port) (bh : Bool) (a : BusAct) (lim : Nat) (dz : s.disorder ≤ lim) : (State.startHostReset s k side i p bh a).disorder ≤ lim := by
  unfold State.startHostReset
  with_reducible repeat' (first | assumption | apply State.updLeaf_disorder | apply State.updPort_disorder | apply State.emit_disorder | apply forAll_disorder | simp only [State.disorder_mk, State.disorder_fold] | apply disorder_put | apply disorder_nil | apply disorder_filter | dsimp only | split | intro)

theorem State.hostPortReset_disorder (s : State) (k : Part) (i : Pos) (side : Side) (bh : Bool) (lim : Nat) (dz : s.disorder ≤ lim) : (State.hostPortReset s k i side bh).disorder ≤ lim := by
  unfold State.hostPortReset
  with_reducible repeat' (first | assumption | apply State.virtualReset_disorder | apply State.updLeaf_disorder | apply State.startLiftReset_disorder | apply State.startHostReset_disorder | apply forAll_disorder | simp only [State.disorder_mk, State.disorder_fold] | apply disorder_put | apply disorder_nil | apply disorder_filter | dsimp only | split | intro)

theorem State.makeResetPending_disorder (s : State) (p : Port) (lim : Nat) (dz : s.disorder ≤ lim) : (State.makeResetPending s p).disorder ≤ lim := by
  unfold State.makeResetPending
  with_reducible repeat' (first | assumption | apply State.dropCtl_disorder | apply State.closeContexts_disorder | apply State.updLift_disorder | apply forAll_disorder | simp only [State.disorder_mk, State.disorder_fold] | apply disorder_put | apply disorder_nil | apply disorder_filter | dsimp only | split | intro)

theorem State.setup_disorder (s : State) (p : Port) (r : Setup) (data : List Byte) (lim : Nat) (dz : s.disorder ≤ lim) : (State.setup s p r data).disorder ≤ lim := by
  unfold State.setup
  with_reducible repeat' (first | assumption | apply State.nrdy0_disorder | apply State.updLift_disorder | apply State.startLiftReset_disorder | apply State.useLink_disorder | apply State.dropCtl_disorder | apply State.treat_disorder | apply forAll_disorder | simp only [State.disorder_mk, State.disorder_fold] | apply disorder_put | apply disorder_nil | apply disorder_filter | dsimp only | split | intro)

theorem State.quench_disorder (s : State) (p : Port) (lim : Nat) (dz : s.disorder ≤ lim) : (State.quench s p).disorder ≤ lim := by
  unfold State.quench
  with_reducible repeat' (first | assumption | apply State.updPort_disorder | apply State.endLift_disorder | apply State.updLeaf_disorder | apply State.emit_disorder | apply forAll_disorder | simp only [State.disorder_mk, State.disorder_fold] | apply disorder_put | apply disorder_nil | apply disorder_filter | dsimp only | split | intro)

theorem State.releasePort_disorder (s : State) (p : Port) (lim : Nat) (dz : s.disorder ≤ lim) : (State.releasePort s p).disorder ≤ lim := by
  unfold State.releasePort
  with_reducible repeat' (first | assumption | apply State.updPort_disorder | apply State.settle_disorder | apply State.updLift_disorder | apply State.issueProbe_disorder | apply State.busWakes_disorder | apply forAll_disorder | simp only [State.disorder_mk, State.disorder_fold] | apply disorder_put | apply disorder_nil | apply disorder_filter | dsimp only | split | intro)

theorem State.collision_disorder (s : State) (p : Port) (order : Nat) (delta : Nat) (map : Nat) (lim : Nat) (dz : s.disorder ≤ lim) : (State.collision s p order delta map).disorder ≤ lim := by
  unfold State.collision
  with_reducible repeat' (first | assumption | apply State.portEvent_disorder | apply State.count_disorder)

theorem State.functionWakes_disorder (s : State) (p : Port) (lim : Nat) (dz : s.disorder ≤ lim) : (State.functionWakes s p).disorder ≤ lim := by
  unfold State.functionWakes
  with_reducible repeat' (first | assumption | apply State.updLift_disorder | apply State.emits_disorder | apply forAll_disorder | simp only [State.disorder_mk, State.disorder_fold] | apply disorder_put | apply disorder_nil | apply disorder_filter | dsimp only | split | intro)

theorem State.driveK_disorder (s : State) (p : Port) (lim : Nat) (dz : s.disorder ≤ lim) : (State.driveK s p).disorder ≤ lim := by
  unfold State.driveK
  with_reducible repeat' (first | assumption | apply State.updPort_disorder | apply State.emit_disorder | apply forAll_disorder | simp only [State.disorder_mk, State.disorder_fold] | apply disorder_put | apply disorder_nil | apply disorder_filter | dsimp only | split | intro)

theorem State.usb2Signals_disorder (s : State) (k : Part) (lim : Nat) (dz : s.disorder ≤ lim) : (State.usb2Signals s k).disorder ≤ lim := by
  unfold State.usb2Signals
  with_reducible repeat' (first | assumption | apply State.emit_disorder | apply forAll_disorder | simp only [State.disorder_mk, State.disorder_fold] | apply disorder_put | apply disorder_nil | apply disorder_filter | dsimp only | split | intro)

theorem State.liftedWake_disorder (s : State) (p : Port) (x : LiftPort) (delta : Nat) (lim : Nat) (dz : s.disorder ≤ lim) : (State.liftedWake s p x delta).disorder ≤ lim := by
  unfold State.liftedWake
  with_reducible repeat' (first | assumption | apply State.count_disorder | apply State.driveK_disorder | apply State.collision_disorder | apply State.updLift_disorder | apply State.setLink_disorder | apply State.signalU3Exit_disorder | apply State.functionWakes_disorder | apply forAll_disorder | simp only [State.disorder_mk, State.disorder_fold] | apply disorder_put | apply disorder_nil | apply disorder_filter | dsimp only | split | intro)

theorem State.remoteWakeK_disorder (s : State) (p : Port) (delta : Nat) (lim : Nat) (dz : s.disorder ≤ lim) : (State.remoteWakeK s p delta).disorder ≤ lim := by
  unfold State.remoteWakeK
  with_reducible repeat' (first | assumption | apply State.liftedWake_disorder | apply State.driveK_disorder | apply State.usb2Signals_disorder | apply State.updLeaf_disorder | apply State.updPort_disorder | apply State.emit_disorder | apply State.l1Exit_disorder | apply State.signalU3Exit_disorder | apply forAll_disorder | simp only [State.disorder_mk, State.disorder_fold] | apply disorder_put | apply disorder_nil | apply disorder_filter | dsimp only | split | intro)

theorem State.wakePart_disorder (s : State) (k : Part) (lim : Nat) (dz : s.disorder ≤ lim) : (State.wakePart s k).disorder ≤ lim := by
  unfold State.wakePart
  with_reducible repeat' (first | assumption | apply State.updPart_disorder | apply forAll_disorder | simp only [State.disorder_mk, State.disorder_fold] | apply disorder_put | apply disorder_nil | apply disorder_filter | dsimp only | split | intro)

theorem State.u3ExitDone_disorder (s : State) (p : Port) (lim : Nat) (dz : s.disorder ≤ lim) : (State.u3ExitDone s p).disorder ≤ lim := by
  unfold State.u3ExitDone
  with_reducible repeat' (first | assumption | apply State.setLink_disorder | apply State.updUp_disorder | apply State.wakePart_disorder | apply State.functionWakes_disorder | apply forAll_disorder | simp only [State.disorder_mk, State.disorder_fold] | apply disorder_put | apply disorder_nil | apply disorder_filter | dsimp only | split | intro)

theorem State.wakeCollision_disorder (s : State) (p : Port) (delta : Nat) (lim : Nat) (dz : s.disorder ≤ lim) : (State.wakeCollision s p delta).disorder ≤ lim := by
  unfold State.wakeCollision
  with_reducible repeat' (first | assumption | apply State.updLift_disorder | apply State.setLink_disorder | apply State.collision_disorder | apply forAll_disorder | simp only [State.disorder_mk, State.disorder_fold] | apply disorder_put | apply disorder_nil | apply disorder_filter | dsimp only | split | intro)

theorem State.resumeEnd_disorder (s : State) (p : Port) (lim : Nat) (dz : s.disorder ≤ lim) : (State.resumeEnd s p).disorder ≤ lim := by
  unfold State.resumeEnd
  with_reducible repeat' (first | assumption | apply State.updPort_disorder | apply State.emit_disorder | apply State.updLift_disorder | apply State.updLeaf_disorder | apply forAll_disorder | simp only [State.disorder_mk, State.disorder_fold] | apply disorder_put | apply disorder_nil | apply disorder_filter | dsimp only | split | intro)

theorem State.unarmedResuspend_disorder (s : State) (p : Port) (lim : Nat) (dz : s.disorder ≤ lim) : (State.unarmedResuspend s p).disorder ≤ lim := by
  unfold State.unarmedResuspend
  with_reducible repeat' (first | assumption | apply State.suspendOrder_disorder | simp only [State.disorder_mk, State.disorder_fold] | apply disorder_put | apply disorder_nil | apply disorder_filter | dsimp only | split)

theorem State.babble_disorder (s : State) (p : Port) (lim : Nat) (dz : s.disorder ≤ lim) : (State.babble s p).disorder ≤ lim := by
  unfold State.babble
  with_reducible repeat' (first | assumption | apply State.detect_disorder | apply State.updPort_disorder | apply State.updLeaf_disorder | apply State.drainThen_disorder | simp only [State.disorder_mk, State.disorder_fold] | apply disorder_put | apply disorder_nil | apply disorder_filter | dsimp only | split)

theorem State.mergeAge_disorder (s : State) (b : Bank) (word : Nat) (lim : Nat) (dz : s.disorder ≤ lim) : (State.mergeAge s b word).disorder ≤ lim := by
  unfold State.mergeAge
  with_reducible repeat' (first | assumption | apply State.flushEntry_disorder | simp only [State.disorder_mk, State.disorder_fold] | apply disorder_put | apply disorder_nil | apply disorder_filter | dsimp only | split)

theorem State.scrubAdvance_disorder (s : State) (b : Bank) (lim : Nat) (dz : s.disorder ≤ lim) : (State.scrubAdvance s b).disorder ≤ lim := by
  unfold State.scrubAdvance
  with_reducible repeat' (first | assumption | apply State.updBank_disorder)

theorem State.scrubAct_disorder (s : State) (b : Bank) (row word : Nat) (r : WordRead) (pending : Bool) (lim : Nat) (dz : s.disorder ≤ lim) : (State.scrubAct s b row word r pending).disorder ≤ lim := by
  unfold State.scrubAct
  with_reducible repeat' (first | assumption | apply State.report_disorder | apply State.updBank_disorder | apply State.storeWord_disorder | simp only [State.disorder_mk, State.disorder_fold] | apply disorder_put | apply disorder_nil | apply disorder_filter | dsimp only | split)

theorem State.scrubWord_disorder (s : State) (b : Bank) (queued : Bool) (lim : Nat) (dz : s.disorder ≤ lim) : (State.scrubWord s b queued).disorder ≤ lim := by
  unfold State.scrubWord
  with_reducible repeat' (first | assumption | apply State.readWord_disorder | apply State.scrubAdvance_disorder | apply State.scrubAct_disorder | simp only [State.disorder_mk, State.disorder_fold] | apply disorder_put | apply disorder_nil | apply disorder_filter | dsimp only | split)

theorem State.bucketLeak_disorder (s : State) (lim : Nat) (dz : s.disorder ≤ lim) : (State.bucketLeak s).disorder ≤ lim := by
  unfold State.bucketLeak
  with_reducible repeat' (first | assumption | simp only [State.disorder_mk, State.disorder_fold])

theorem State.emptyRowMove_disorder (s : State) (b : Bank) (row : Nat) (lim : Nat) (dz : s.disorder ≤ lim) : (State.emptyRowMove s b row).disorder ≤ lim := by
  unfold State.emptyRowMove
  with_reducible repeat' (first | assumption | apply State.moveRow_disorder | simp only [State.disorder_mk, State.disorder_fold] | apply disorder_put | apply disorder_nil | apply disorder_filter | dsimp only | split)

theorem State.timeoutRowCopy_disorder (s : State) (b : Bank) (row : Nat) (lim : Nat) (dz : s.disorder ≤ lim) : (State.timeoutRowCopy s b row).disorder ≤ lim := by
  unfold State.timeoutRowCopy
  with_reducible repeat' (first | assumption | apply State.moveRow_disorder | simp only [State.disorder_mk, State.disorder_fold] | apply disorder_put | apply disorder_nil | apply disorder_filter | dsimp only | split)

theorem State.raiseTtBucket_disorder (s : State) (k : Slot) (by_ : Nat) (inj : Bool) (lim : Nat) (dz : s.disorder ≤ lim) : (State.raiseTtBucket s k by_ inj).disorder ≤ lim := by
  unfold State.raiseTtBucket
  with_reducible repeat' (first | assumption | apply State.report_disorder | simp only [State.disorder_mk, State.disorder_fold] | apply disorder_put | apply disorder_nil | apply disorder_filter | dsimp only | split)

theorem State.clearStats_disorder (s : State) (b : Bank) (lim : Nat) (dz : s.disorder ≤ lim) : (State.clearStats s b).disorder ≤ lim := by
  unfold State.clearStats
  with_reducible repeat' (first | assumption | apply State.updBank_disorder | simp only [State.disorder_mk, State.disorder_fold])

theorem opPbmGetStats_disorder (m : VcpMsg) (b : Bank) (s : State) (lim : Nat) (dz : s.disorder ≤ lim) : (opPbmGetStats m b s).1.disorder ≤ lim := by
  unfold opPbmGetStats
  with_reducible repeat' (first | assumption | apply refuse_disorder | apply State.clearStats_disorder | simp only [State.disorder_mk, State.disorder_fold] | apply disorder_put | apply disorder_nil | apply disorder_filter | dsimp only | split)

theorem opPbmSetScrub_disorder (m : VcpMsg) (s : State) (lim : Nat) (dz : s.disorder ≤ lim) : (opPbmSetScrub m s).1.disorder ≤ lim := by
  unfold opPbmSetScrub
  with_reducible repeat' (first | assumption | apply refuse_disorder | apply ok_disorder | simp only [State.disorder_mk, State.disorder_fold] | apply disorder_put | apply disorder_nil | apply disorder_filter | dsimp only | split)

theorem opPbmRetire_disorder (m : VcpMsg) (b : Bank) (s : State) (lim : Nat) (dz : s.disorder ≤ lim) : (opPbmRetire m b s).1.disorder ≤ lim := by
  unfold opPbmRetire
  dsimp only
  repeat' split
  all_goals first
    | exact dz
    | exact refuse_disorder _ _ _ dz
    | (rename_i h; exact State.retire_disorder _ _ _ _ dz _ h)
    | with_reducible repeat' (first | assumption | apply refuse_disorder | apply State.closeBank_disorder)

theorem opPbmFlipmask_disorder (m : VcpMsg) (b : Bank) (s : State) (lim : Nat) (dz : s.disorder ≤ lim) : (opPbmFlipmask m b s).1.disorder ≤ lim := by
  unfold opPbmFlipmask
  with_reducible repeat' (first | assumption | apply refuse_disorder | apply ok_disorder | apply State.updBank_disorder | simp only [State.disorder_mk, State.disorder_fold] | apply disorder_put | apply disorder_nil | apply disorder_filter | dsimp only | split)

theorem State.ctlRead_disorder (s : State) (k : Part) (r : Setup) (bytes : List Byte) (lim : Nat) (dz : s.disorder ≤ lim) : (State.ctlRead s k r bytes).disorder ≤ lim := by
  unfold State.ctlRead
  with_reducible repeat' (first | assumption | apply State.emits_disorder)

theorem State.ctlOk_disorder (s : State) (k : Part) (lim : Nat) (dz : s.disorder ≤ lim) : (State.ctlOk s k).disorder ≤ lim := by
  unfold State.ctlOk
  with_reducible repeat' (first | assumption | apply State.emit_disorder)

theorem State.ctlError_disorder (s : State) (k : Part) (lim : Nat) (dz : s.disorder ≤ lim) : (State.ctlError s k).disorder ≤ lim := by
  unfold State.ctlError
  with_reducible repeat' (first | assumption | apply State.emit_disorder)

theorem State.usb2PositionReset_disorder (s : State) (p : Port) (lim : Nat) (dz : s.disorder ≤ lim) : (State.usb2PositionReset s p).disorder ≤ lim := by
  unfold State.usb2PositionReset
  with_reducible repeat' (first | assumption | apply State.updPort_disorder | apply forAll_disorder | simp only [State.disorder_mk, State.disorder_fold] | apply disorder_put | apply disorder_nil | apply disorder_filter | dsimp only | split | intro)

theorem State.resetPositions_disorder (s : State) (k : Part) (side : Side) (which : Pos → Bool) (lim : Nat) (dz : s.disorder ≤ lim) : (State.resetPositions s k side which).disorder ≤ lim := by
  unfold State.resetPositions
  with_reducible repeat' (first | assumption | apply State.makeResetPending_disorder | apply State.usb2PositionReset_disorder | apply forAll_disorder | simp only [State.disorder_mk, State.disorder_fold] | apply disorder_put | apply disorder_nil | apply disorder_filter | dsimp only | split | intro)

theorem State.restartMf_disorder (s : State) (k : Part) (lim : Nat) (dz : s.disorder ≤ lim) : (State.restartMf s k).disorder ≤ lim := by
  unfold State.restartMf
  with_reducible repeat' (first | assumption | apply State.updMf_disorder)

theorem State.leafDefault_disorder (s : State) (k : Part) (side : Side) (h : HubIx) (shown : Pos → Bool) (lim : Nat) (dz : s.disorder ≤ lim) : (State.leafDefault s k side h shown).disorder ≤ lim := by
  unfold State.leafDefault
  with_reducible repeat' (first | assumption | apply State.updTree_disorder | apply State.resetPositions_disorder | apply forAll_disorder | simp only [State.disorder_mk, State.disorder_fold] | apply disorder_put | apply disorder_nil | apply disorder_filter | dsimp only | split | intro)

theorem State.topPortReset_disorder (s : State) (k : Part) (side : Side) (n : Fin 9) (bh : Bool) (lim : Nat) (dz : s.disorder ≤ lim) : (State.topPortReset s k side n bh).disorder ≤ lim := by
  unfold State.topPortReset
  with_reducible repeat' (first | assumption | apply State.updTop_disorder | apply State.restartMf_disorder | apply State.leafDefault_disorder | apply forAll_disorder | simp only [State.disorder_mk, State.disorder_fold] | apply disorder_put | apply disorder_nil | apply disorder_filter | dsimp only | split | intro)

theorem State.updHubPort_disorder (s : State) (k : Part) (side : Side) (q : HubPort) (f : VPort → VPort) (lim : Nat) (dz : s.disorder ≤ lim) : (State.updHubPort s k side q f).disorder ≤ lim := by
  unfold State.updHubPort
  with_reducible repeat' (first | assumption | apply State.updLeaf_disorder | apply State.updTop_disorder | simp only [State.disorder_mk, State.disorder_fold] | apply disorder_put | apply disorder_nil | apply disorder_filter | dsimp only | split)

theorem State.clearPortPower_disorder (s : State) (k : Part) (side : Side) (q : HubPort) (lim : Nat) (dz : s.disorder ≤ lim) : (State.clearPortPower s k side q).disorder ≤ lim := by
  unfold State.clearPortPower
  with_reducible repeat' (first | assumption | apply State.ctlOk_disorder | apply State.updHubPort_disorder | apply State.emit_disorder | apply State.updMf_disorder | apply State.leafDefault_disorder | apply forAll_disorder | simp only [State.disorder_mk, State.disorder_fold] | apply disorder_put | apply disorder_nil | apply disorder_filter | dsimp only | split | intro)

theorem State.setPortPower_disorder (s : State) (k : Part) (side : Side) (q : HubPort) (lim : Nat) (dz : s.disorder ≤ lim) : (State.setPortPower s k side q).disorder ≤ lim := by
  unfold State.setPortPower
  with_reducible repeat' (first | assumption | apply State.ctlOk_disorder | apply State.updHubPort_disorder | apply State.emit_disorder | apply State.placeMf_disorder | apply State.updTree_disorder | apply forAll_disorder | simp only [State.disorder_mk, State.disorder_fold] | apply disorder_put | apply disorder_nil | apply disorder_filter | dsimp only | split | intro)

theorem State.hubSuspend_disorder (s : State) (k : Part) (q : HubPort) (lim : Nat) (dz : s.disorder ≤ lim) : (State.hubSuspend s k q).disorder ≤ lim := by
  unfold State.hubSuspend
  with_reducible repeat' (first | assumption | apply State.emit_disorder | apply State.updPort_disorder | apply State.ctlOk_disorder | apply State.updHubPort_disorder | simp only [State.disorder_mk, State.disorder_fold] | apply disorder_put | apply disorder_nil | apply disorder_filter | dsimp only | split)

theorem State.leaveL1_disorder (s : State) (k : Part) (i : Pos) (p : Port) (lim : Nat) (dz : s.disorder ≤ lim) : (State.leaveL1 s k i p).disorder ≤ lim := by
  unfold State.leaveL1
  with_reducible repeat' (first | assumption | apply State.updLeaf_disorder | apply State.updPort_disorder | apply State.emit_disorder | apply State.l1Exit_disorder | apply forAll_disorder | simp only [State.disorder_mk, State.disorder_fold] | apply disorder_put | apply disorder_nil | apply disorder_filter | dsimp only | split | intro)

theorem State.hubResume_disorder (s : State) (k : Part) (q : HubPort) (lim : Nat) (dz : s.disorder ≤ lim) : (State.hubResume s k q).disorder ≤ lim := by
  unfold State.hubResume
  with_reducible repeat' (first | assumption | apply State.ctlOk_disorder | apply State.updTop_disorder | apply State.leaveL1_disorder | apply State.updPort_disorder | apply State.emit_disorder | apply forAll_disorder | simp only [State.disorder_mk, State.disorder_fold] | apply disorder_put | apply disorder_nil | apply disorder_filter | dsimp only | split | intro)

theorem State.hubLpm_disorder (s : State) (k : Part) (q : HubPort) (r : Setup) (ack : Bool) (lim : Nat) (dz : s.disorder ≤ lim) : (State.hubLpm s k q r ack).disorder ≤ lim := by
  unfold State.hubLpm
  with_reducible repeat' (first | assumption | apply State.emit_disorder | apply State.updPort_disorder | apply State.ctlRead_disorder | apply State.ctlError_disorder | apply forAll_disorder | simp only [State.disorder_mk, State.disorder_fold] | apply disorder_put | apply disorder_nil | apply disorder_filter | dsimp only | split | intro)

theorem State.ttReadWord_disorder (s : State) (p : Port) (d : BitVec 64) (c : BitVec 8) (lim : Nat) (dz : s.disorder ≤ lim) : (State.ttReadWord s p d c).1.disorder ≤ lim := by
  unfold State.ttReadWord
  with_reducible repeat' (first | assumption | apply State.spend_disorder | apply State.raiseTtBucket_disorder | apply State.report_disorder | apply forAll_disorder | simp only [State.disorder_mk, State.disorder_fold] | apply disorder_put | apply disorder_nil | apply disorder_filter | dsimp only | split | intro)

theorem State.ttReadWords_disorder (s : State) (p : Port) (a0 : List (BitVec 64)) (a1 : List (BitVec 8)) (lim : Nat) (dz : s.disorder ≤ lim) : (State.ttReadWords s p a0 a1).1.disorder ≤ lim := by
  induction a0 generalizing a1 s with
  | nil => unfold State.ttReadWords; exact dz
  | cons d ds ih =>
    cases a1 with
    | nil => unfold State.ttReadWords; exact dz
    | cons c cs =>
      unfold State.ttReadWords
      have e := State.ttReadWord_disorder s p d c lim dz
      split
      · rename_i heq; rw [heq] at e; exact e
      · rename_i heq; rw [heq] at e; exact ih _ _ e

theorem State.ttRead_disorder (s : State) (p : Port) (bytes : List Byte) (check : List (BitVec 8)) (lim : Nat) (dz : s.disorder ≤ lim) : (State.ttRead s p bytes check).1.disorder ≤ lim := by
  unfold State.ttRead
  with_reducible repeat' (first | assumption | apply State.ttReadWords_disorder | apply forAll_disorder | simp only [State.disorder_mk, State.disorder_fold] | apply disorder_put | apply disorder_nil | apply disorder_filter | dsimp only | split | intro)

theorem State.updTt_disorder (s : State) (p : Port) (key : BitVec 16) (f : TtEntry → TtEntry) (lim : Nat) (dz : s.disorder ≤ lim) : (State.updTt s p key f).disorder ≤ lim := by
  unfold State.updTt
  with_reducible repeat' (first | assumption | apply State.updPort_disorder | apply forAll_disorder | simp only [State.disorder_mk, State.disorder_fold] | apply disorder_put | apply disorder_nil | apply disorder_filter | dsimp only | split | intro)

theorem State.ttIssue_disorder (s : State) (p : Port) (e : TtEntry) (lim : Nat) (dz : s.disorder ≤ lim) : (State.ttIssue s p e).disorder ≤ lim := by
  unfold State.ttIssue
  with_reducible repeat' (first | assumption | apply State.ttRead_disorder | apply State.updTt_disorder | apply State.emit_disorder | apply forAll_disorder | simp only [State.disorder_mk, State.disorder_fold] | apply disorder_put | apply disorder_nil | apply disorder_filter | dsimp only | split | intro)

theorem State.ttShake_disorder (s : State) (k : Part) (pid : Byte) (lim : Nat) (dz : s.disorder ≤ lim) : (State.ttShake s k pid).disorder ≤ lim := by
  unfold State.ttShake
  with_reducible repeat' (first | assumption | apply State.emit_disorder | apply forAll_disorder | simp only [State.disorder_mk, State.disorder_fold] | apply disorder_put | apply disorder_nil | apply disorder_filter | dsimp only | split | intro)

theorem State.ttError_disorder (s : State) (k : Part) (periodic : Bool) (lim : Nat) (dz : s.disorder ≤ lim) : (State.ttError s k periodic).disorder ≤ lim := by
  unfold State.ttError
  with_reducible repeat' (first | assumption | apply State.ttShake_disorder | apply State.periodic_disorder | apply forAll_disorder | simp only [State.disorder_mk, State.disorder_fold] | apply disorder_put | apply disorder_nil | apply disorder_filter | dsimp only | split | intro)

theorem State.ttAnswer_disorder (s : State) (k : Part) (p : Port) (e : TtEntry) (a0 : XferResult) (lim : Nat) (dz : s.disorder ≤ lim) : (State.ttAnswer s k p e a0).disorder ≤ lim := by
  unfold State.ttAnswer
  split
  · rename_i bytes
    have h := State.ttRead_disorder s p bytes (ttChecks bytes) lim dz
    split
    · rename_i heq; rw [heq] at h; exact State.emit_disorder _ _ _ h
    · rename_i heq; rw [heq] at h; exact State.ttError_disorder _ _ _ _ h
  · exact State.ttShake_disorder _ _ _ _ dz
  · exact State.ttShake_disorder _ _ _ _ dz
  · exact State.ttError_disorder _ _ _ _ dz

theorem State.split_disorder (s : State) (k : Part) (i : Pos) (op : SplitOp) (lim : Nat) (dz : s.disorder ≤ lim) : (State.split s k i op).disorder ≤ lim := by
  unfold State.split
  with_reducible repeat' (first | assumption | apply State.periodic_disorder | apply State.updPort_disorder | apply State.ttIssue_disorder | apply State.emit_disorder | apply State.complete_disorder | apply State.answer_disorder | apply State.ttShake_disorder | apply State.ttError_disorder | apply State.ttAnswer_disorder | apply forAll_disorder | simp only [State.disorder_mk, State.disorder_fold] | apply disorder_put | apply disorder_nil | apply disorder_filter | dsimp only | split | intro)

theorem State.ttTick_disorder (s : State) (p : Port) (frame : BitVec 11) (lim : Nat) (dz : s.disorder ≤ lim) : (State.ttTick s p frame).disorder ≤ lim := by
  unfold State.ttTick
  with_reducible repeat' (first | assumption | apply State.updPort_disorder | apply State.periodic_disorder | apply State.emit_disorder | apply forAll_disorder | apply State.ttIssue_disorder | apply forAll_disorder | simp only [State.disorder_mk, State.disorder_fold] | apply disorder_put | apply disorder_nil | apply disorder_filter | dsimp only | split | intro)

theorem State.clearTt_disorder (s : State) (k : Part) (i : Pos) (key : BitVec 16) (lim : Nat) (dz : s.disorder ≤ lim) : (State.clearTt s k i key).disorder ≤ lim := by
  unfold State.clearTt
  with_reducible repeat' (first | assumption | apply State.updPort_disorder | apply State.ctlOk_disorder | simp only [State.disorder_mk, State.disorder_fold] | apply disorder_put | apply disorder_nil | apply disorder_filter | dsimp only | split)

theorem State.resetTt_disorder (s : State) (k : Part) (i : Pos) (lim : Nat) (dz : s.disorder ≤ lim) : (State.resetTt s k i).disorder ≤ lim := by
  unfold State.resetTt
  with_reducible repeat' (first | assumption | apply State.updPort_disorder | apply State.ctlOk_disorder | simp only [State.disorder_mk, State.disorder_fold] | apply disorder_put | apply disorder_nil | apply disorder_filter | dsimp only | split)

theorem State.repeat__disorder (s : State) (k : Part) (i : Pos) (packet answer : List Byte) (lpmAck : Bool) (lim : Nat) (dz : s.disorder ≤ lim) : (State.repeat_ s k i packet answer lpmAck).disorder ≤ lim := by
  unfold State.repeat_
  with_reducible repeat' (first | assumption | apply State.emit_disorder | apply State.answer_disorder | apply State.updPort_disorder | apply State.ttTick_disorder | apply forAll_disorder | simp only [State.disorder_mk, State.disorder_fold] | apply disorder_put | apply disorder_nil | apply disorder_filter | dsimp only | split | intro)

theorem State.nativePacket_disorder (s : State) (p : Port) (fromDevice : Bool) (bytes : List Byte) (lim : Nat) (dz : s.disorder ≤ lim) : (State.nativePacket s p fromDevice bytes).disorder ≤ lim := by
  have h := State.passBuffer_disorder (s.useLink p) (.native p fromDevice) bytes lim (State.useLink_disorder _ _ _ dz)
  unfold State.nativePacket
  dsimp only
  split
  · exact dz
  · split
    · exact State.emit_disorder _ _ _ (State.emit_disorder _ _ _ (State.useLink_disorder _ _ _ dz))
    · split
      · rename_i heq; rw [heq] at h; exact State.emit_disorder _ _ _ h
      · rename_i heq; rw [heq] at h; exact h

theorem State.setPortLink_disorder (s : State) (k : Part) (q : HubPort) (code : Nat) (lim : Nat) (dz : s.disorder ≤ lim) : (State.setPortLink s k q code).disorder ≤ lim := by
  unfold State.setPortLink
  with_reducible repeat' (first | assumption | apply State.ctlError_disorder | apply State.updHubPort_disorder | apply State.emit_disorder | apply State.ctlOk_disorder | apply forAll_disorder | simp only [State.disorder_mk, State.disorder_fold] | apply disorder_put | apply disorder_nil | apply disorder_filter | dsimp only | split | intro)

theorem State.portTest_disorder (s : State) (k : Part) (q : HubPort) (sel : Nat) (lim : Nat) (dz : s.disorder ≤ lim) : (State.portTest s k q sel).disorder ≤ lim := by
  unfold State.portTest
  with_reducible repeat' (first | assumption | apply State.ctlError_disorder | apply State.updHubPort_disorder | apply State.emit_disorder | apply State.ctlOk_disorder | apply forAll_disorder | simp only [State.disorder_mk, State.disorder_fold] | apply disorder_put | apply disorder_nil | apply disorder_filter | dsimp only | split | intro)

theorem State.portFeature_disorder (s : State) (k : Part) (side : Side) (q : HubPort) (r : Setup) (set : Bool) (lim : Nat) (dz : s.disorder ≤ lim) : (State.portFeature s k side q r set).disorder ≤ lim := by
  unfold State.portFeature
  with_reducible repeat' (first | assumption | apply State.updHubPort_disorder | apply State.ctlOk_disorder | apply State.usb2PositionReset_disorder | apply State.hubResume_disorder | apply State.portTest_disorder | apply State.setPortLink_disorder | apply State.ctlError_disorder | apply forAll_disorder | simp only [State.disorder_mk, State.disorder_fold] | apply disorder_put | apply disorder_nil | apply disorder_filter | dsimp only | split | intro)

theorem State.updHub_disorder (s : State) (k : Part) (side : Side) (h : HubIx) (f : VHub → VHub) (lim : Nat) (dz : s.disorder ≤ lim) : (State.updHub s k side h f).disorder ≤ lim := by
  unfold State.updHub
  with_reducible repeat' (first | assumption | apply State.updTree_disorder)

theorem State.hubFeature_disorder (s : State) (k : Part) (side : Side) (h : HubIx) (sel : Nat) (set : Bool) (lim : Nat) (dz : s.disorder ≤ lim) : (State.hubFeature s k side h sel set).disorder ≤ lim := by
  unfold State.hubFeature
  with_reducible repeat' (first | assumption | apply State.ctlOk_disorder | apply State.ctlError_disorder | apply State.updHub_disorder | simp only [State.disorder_mk, State.disorder_fold] | apply disorder_put | apply disorder_nil | apply disorder_filter | dsimp only | split)

theorem State.linksUp_disorder (s : State) (k : Part) (h : HubIx) (lim : Nat) (dz : s.disorder ≤ lim) : (State.linksUp s k h).disorder ≤ lim := by
  unfold State.linksUp
  with_reducible repeat' (first | assumption | apply State.updTree_disorder | apply forAll_disorder | simp only [State.disorder_mk, State.disorder_fold] | apply disorder_put | apply disorder_nil | apply disorder_filter | dsimp only | split | intro)

theorem State.hubPortStatus_disorder (s : State) (k : Part) (side : Side) (q : HubPort) (r : Setup) (lim : Nat) (dz : s.disorder ≤ lim) : (State.hubPortStatus s k side q r).disorder ≤ lim := by
  unfold State.hubPortStatus
  with_reducible repeat' (first | assumption | apply State.ctlRead_disorder | apply State.ctlError_disorder | apply forAll_disorder | simp only [State.disorder_mk, State.disorder_fold] | apply disorder_put | apply disorder_nil | apply disorder_filter | dsimp only | split | intro)

theorem State.hubErrCount_disorder (s : State) (k : Part) (q : HubPort) (r : Setup) (lim : Nat) (dz : s.disorder ≤ lim) : (State.hubErrCount s k q r).disorder ≤ lim := by
  unfold State.hubErrCount
  with_reducible repeat' (first | assumption | apply State.tick_disorder | apply State.ctlRead_disorder | apply forAll_disorder | simp only [State.disorder_mk, State.disorder_fold] | apply disorder_put | apply disorder_nil | apply disorder_filter | dsimp only | split | intro)

theorem State.hubRequest_disorder (s : State) (k : Part) (side : Side) (h : HubIx) (r : Setup) (lpmAck : Bool) (lim : Nat) (dz : s.disorder ≤ lim) : (State.hubRequest s k side h r lpmAck).disorder ≤ lim := by
  unfold State.hubRequest
  repeat' (first | with_reducible assumption | with_reducible apply State.configured_disorder | with_reducible apply State.ctlRead_disorder | with_reducible apply State.ctlOk_disorder | with_reducible apply State.ctlError_disorder | with_reducible apply State.portFeature_disorder | with_reducible apply State.hubPortStatus_disorder | with_reducible apply State.hubLpm_disorder | with_reducible apply State.hubErrCount_disorder | with_reducible apply State.linksUp_disorder | with_reducible apply State.updHub_disorder | with_reducible apply State.hubFeature_disorder | simp only [State.disorder_mk, State.disorder_fold] | with_reducible apply disorder_put | with_reducible apply disorder_nil | with_reducible apply disorder_filter | with_reducible refine disorder_ite ?_ ?_ | dsimp only | split)

theorem State.mfRequest_disorder (s : State) (k : Part) (r : Setup) (data : List Byte) (lim : Nat) (dz : s.disorder ≤ lim) : (s.mfRequest k r data).disorder ≤ lim := by
  unfold State.mfRequest
  repeat' (first | with_reducible assumption | with_reducible apply State.updMf_disorder | with_reducible apply State.ctlRead_disorder | with_reducible apply State.ctlOk_disorder | with_reducible apply State.ctlError_disorder | simp only [State.disorder_mk, State.disorder_fold] | with_reducible apply disorder_put | with_reducible apply disorder_nil | with_reducible apply disorder_filter | with_reducible refine disorder_ite ?_ ?_ | dsimp only | split)

theorem State.upAttach_disorder (s : State) (k : Part) (orientation : Bool) (rp : Fin 4) (vbus : Bool) (lim : Nat) (dz : s.disorder ≤ lim) : (State.upAttach s k orientation rp vbus).disorder ≤ lim := by
  unfold State.upAttach
  with_reducible repeat' (first | assumption | apply State.updUp_disorder | apply State.evalPresent_disorder | apply forAll_disorder | simp only [State.disorder_mk, State.disorder_fold] | apply disorder_put | apply disorder_nil | apply disorder_filter | dsimp only | split | intro)

theorem State.upDetach_disorder (s : State) (k : Part) (lim : Nat) (dz : s.disorder ≤ lim) : (State.upDetach s k).disorder ≤ lim := by
  unfold State.upDetach
  with_reducible repeat' (first | assumption | apply State.updUp_disorder | apply State.withdraw_disorder | apply forAll_disorder | simp only [State.disorder_mk, State.disorder_fold] | apply disorder_put | apply disorder_nil | apply disorder_filter | dsimp only | split | intro)

theorem State.upVbusAbsent_disorder (s : State) (k : Part) (late : Bool) (lim : Nat) (dz : s.disorder ≤ lim) : (State.upVbusAbsent s k late).disorder ≤ lim := by
  unfold State.upVbusAbsent
  with_reducible repeat' (first | assumption | apply State.updUp_disorder | apply State.upDetach_disorder | simp only [State.disorder_mk, State.disorder_fold] | apply disorder_put | apply disorder_nil | apply disorder_filter | dsimp only | split)

theorem State.upPdMessage_disorder (s : State) (k : Part) (b : List Byte) (cut : Bool) (lim : Nat) (dz : s.disorder ≤ lim) : (State.upPdMessage s k b cut).disorder ≤ lim := by
  unfold State.upPdMessage
  with_reducible repeat' (first | assumption | apply State.sopDetected_disorder | apply State.emit_disorder | apply State.messageWhole_disorder | apply State.updUp_disorder | apply forAll_disorder | simp only [State.disorder_mk, State.disorder_fold] | apply disorder_put | apply disorder_nil | apply disorder_filter | dsimp only | split | intro)

theorem State.upHardReset_disorder (s : State) (k : Part) (lim : Nat) (dz : s.disorder ≤ lim) : (State.upHardReset s k).disorder ≤ lim := by
  unfold State.upHardReset
  with_reducible repeat' (first | assumption | apply State.updUp_disorder | apply State.resetItem_disorder | apply forAll_disorder | simp only [State.disorder_mk, State.disorder_fold] | apply disorder_put | apply disorder_nil | apply disorder_filter | dsimp only | split | intro)

theorem State.noteExit_disorder (s : State) (k : Part) (host : Bool) (lim : Nat) (dz : s.disorder ≤ lim) : (State.noteExit s k host).disorder ≤ lim := by
  unfold State.noteExit
  with_reducible repeat' (first | assumption | apply forAll_disorder | apply State.updLift_disorder | apply forAll_disorder | simp only [State.disorder_mk, State.disorder_fold] | apply disorder_put | apply disorder_nil | apply disorder_filter | dsimp only | split | intro)

theorem State.leaveU3_disorder (s : State) (k : Part) (lim : Nat) (dz : s.disorder ≤ lim) : (State.leaveU3 s k).disorder ≤ lim := by
  unfold State.leaveU3
  with_reducible repeat' (first | assumption | apply State.updUp_disorder | apply State.noteExit_disorder | apply State.wakePart_disorder | apply forAll_disorder | simp only [State.disorder_mk, State.disorder_fold] | apply disorder_put | apply disorder_nil | apply disorder_filter | dsimp only | split | intro)

theorem State.ssU0_disorder (s : State) (k : Part) (rate : SsRate) (lim : Nat) (dz : s.disorder ≤ lim) : (State.ssU0 s k rate).disorder ≤ lim := by
  unfold State.ssU0
  with_reducible repeat' (first | assumption | apply State.leaveU3_disorder | apply State.updUp_disorder | apply State.setSide_disorder | apply forAll_disorder | simp only [State.disorder_mk, State.disorder_fold] | apply disorder_put | apply disorder_nil | apply disorder_filter | dsimp only | split | intro)

theorem State.ssDecided_disorder (s : State) (k : Part) (lim : Nat) (dz : s.disorder ≤ lim) : (State.ssDecided s k).disorder ≤ lim := by
  unfold State.ssDecided
  with_reducible repeat' (first | assumption | apply State.setSide_disorder | simp only [State.disorder_mk, State.disorder_fold] | apply disorder_put | apply disorder_nil | apply disorder_filter | dsimp only | split)

theorem State.ssLost_disorder (s : State) (k : Part) (lim : Nat) (dz : s.disorder ≤ lim) : (State.ssLost s k).disorder ≤ lim := by
  unfold State.ssLost
  with_reducible repeat' (first | assumption | apply State.updUp_disorder | apply State.setSide_disorder | simp only [State.disorder_mk, State.disorder_fold] | apply disorder_put | apply disorder_nil | apply disorder_filter | dsimp only | split)

theorem State.ssInactiveFor_disorder (s : State) (k : Part) (link : UpLink) (lim : Nat) (dz : s.disorder ≤ lim) : (State.ssInactiveFor s k link).disorder ≤ lim := by
  unfold State.ssInactiveFor
  with_reducible repeat' (first | assumption | apply State.updUp_disorder | apply State.ssLost_disorder | simp only [State.disorder_mk, State.disorder_fold] | apply disorder_put | apply disorder_nil | apply disorder_filter | dsimp only | split)

theorem State.ssDisabled_disorder (s : State) (k : Part) (lim : Nat) (dz : s.disorder ≤ lim) : (State.ssDisabled s k).disorder ≤ lim := by
  unfold State.ssDisabled
  with_reducible repeat' (first | assumption | apply State.updUp_disorder | apply State.ssLost_disorder | simp only [State.disorder_mk, State.disorder_fold] | apply disorder_put | apply disorder_nil | apply disorder_filter | dsimp only | split)

theorem State.enterU_disorder (s : State) (k : Part) (u2 : Bool) (lim : Nat) (dz : s.disorder ≤ lim) : (State.enterU s k u2).disorder ≤ lim := by
  unfold State.enterU
  with_reducible repeat' (first | assumption | apply State.updUp_disorder)

theorem State.lgo_disorder (s : State) (k : Part) (u2 unacked : Bool) (lim : Nat) (dz : s.disorder ≤ lim) : (State.lgo s k u2 unacked).disorder ≤ lim := by
  unfold State.lgo
  with_reducible repeat' (first | assumption | apply State.emit_disorder | apply State.updUp_disorder | apply State.enterU_disorder | simp only [State.disorder_mk, State.disorder_fold] | apply disorder_put | apply disorder_nil | apply disorder_filter | dsimp only | split)

theorem State.ownU_disorder (s : State) (k : Part) (u2 unacked : Bool) (lim : Nat) (dz : s.disorder ≤ lim) : (State.ownU s k u2 unacked).disorder ≤ lim := by
  unfold State.ownU
  with_reducible repeat' (first | assumption | apply State.emit_disorder | apply State.enterU_disorder | simp only [State.disorder_mk, State.disorder_fold] | apply disorder_put | apply disorder_nil | apply disorder_filter | dsimp only | split)

theorem State.leaveU_disorder (s : State) (k : Part) (lim : Nat) (dz : s.disorder ≤ lim) : (State.leaveU s k).disorder ≤ lim := by
  unfold State.leaveU
  with_reducible repeat' (first | assumption | apply State.updUp_disorder | apply forAll_disorder | simp only [State.disorder_mk, State.disorder_fold] | apply disorder_put | apply disorder_nil | apply disorder_filter | dsimp only | split | intro)

theorem State.checkSuspended_disorder (s : State) (k : Part) (lim : Nat) (dz : s.disorder ≤ lim) : (State.checkSuspended s k).disorder ≤ lim := by
  unfold State.checkSuspended
  with_reducible repeat' (first | assumption | apply State.updPart_disorder | apply State.withdraw_disorder | simp only [State.disorder_mk, State.disorder_fold] | apply disorder_put | apply disorder_nil | apply disorder_filter | dsimp only | split)

theorem State.enterU3_disorder (s : State) (k : Part) (lim : Nat) (dz : s.disorder ≤ lim) : (State.enterU3 s k).disorder ≤ lim := by
  unfold State.enterU3
  with_reducible repeat' (first | assumption | apply State.updUp_disorder | apply State.noteExit_disorder | apply State.emit_disorder | apply State.updTree_disorder | apply State.checkSuspended_disorder | apply forAll_disorder | simp only [State.disorder_mk, State.disorder_fold] | apply disorder_put | apply disorder_nil | apply disorder_filter | dsimp only | split | intro)

theorem State.mfWake_disorder (s : State) (k : Part) (lim : Nat) (dz : s.disorder ≤ lim) : (State.mfWake s k).disorder ≤ lim := by
  unfold State.mfWake
  with_reducible repeat' (first | assumption | apply State.signalU3Exit_disorder | apply State.emit_disorder | apply forAll_disorder | simp only [State.disorder_mk, State.disorder_fold] | apply disorder_put | apply disorder_nil | apply disorder_filter | dsimp only | split | intro)

theorem State.ssReset_disorder (s : State) (k : Part) (warm : Bool) (lim : Nat) (dz : s.disorder ≤ lim) : (State.ssReset s k warm).disorder ≤ lim := by
  unfold State.ssReset
  with_reducible repeat' (first | assumption | apply State.updUp_disorder | apply State.updTree_disorder | apply State.restartMf_disorder | apply State.resetPositions_disorder | apply State.wakePart_disorder | apply forAll_disorder | simp only [State.disorder_mk, State.disorder_fold] | apply disorder_put | apply disorder_nil | apply disorder_filter | dsimp only | split | intro)

theorem State.usb2Reset_disorder (s : State) (k : Part) (highSpeed : Bool) (lim : Nat) (dz : s.disorder ≤ lim) : (State.usb2Reset s k highSpeed).disorder ≤ lim := by
  unfold State.usb2Reset
  with_reducible repeat' (first | assumption | apply State.updUp_disorder | apply State.updTree_disorder | apply State.placeMf_disorder | apply State.drainThen_disorder | apply State.resetPositions_disorder | apply State.restartMf_disorder | apply State.wakePart_disorder | apply forAll_disorder | simp only [State.disorder_mk, State.disorder_fold] | apply disorder_put | apply disorder_nil | apply disorder_filter | dsimp only | split | intro)

theorem State.usb2Lpm_disorder (s : State) (k : Part) (hird : BitVec 4) (lim : Nat) (dz : s.disorder ≤ lim) : (State.usb2Lpm s k hird).disorder ≤ lim := by
  unfold State.usb2Lpm
  with_reducible repeat' (first | assumption | apply State.updUp_disorder | apply State.emit_disorder | apply forAll_disorder | simp only [State.disorder_mk, State.disorder_fold] | apply disorder_put | apply disorder_nil | apply disorder_filter | dsimp only | split | intro)

theorem State.usb2Suspend_disorder (s : State) (k : Part) (lim : Nat) (dz : s.disorder ≤ lim) : (State.usb2Suspend s k).disorder ≤ lim := by
  unfold State.usb2Suspend
  with_reducible repeat' (first | assumption | apply State.updUp_disorder | apply State.checkSuspended_disorder | simp only [State.disorder_mk, State.disorder_fold] | apply disorder_put | apply disorder_nil | apply disorder_filter | dsimp only | split)

theorem State.repeatResume_disorder (s : State) (k : Part) (lim : Nat) (dz : s.disorder ≤ lim) : (State.repeatResume s k).disorder ≤ lim := by
  unfold State.repeatResume
  with_reducible repeat' (first | assumption | apply forAll_disorder | apply State.driveK_disorder | apply forAll_disorder | simp only [State.disorder_mk, State.disorder_fold] | apply disorder_put | apply disorder_nil | apply disorder_filter | dsimp only | split | intro)

theorem State.usb2Resume_disorder (s : State) (k : Part) (byDevice : Bool) (lim : Nat) (dz : s.disorder ≤ lim) : (State.usb2Resume s k byDevice).disorder ≤ lim := by
  unfold State.usb2Resume
  with_reducible repeat' (first | assumption | apply State.emit_disorder | apply State.repeatResume_disorder | apply State.updUp_disorder | apply State.wakePart_disorder | apply forAll_disorder | simp only [State.disorder_mk, State.disorder_fold] | apply disorder_put | apply disorder_nil | apply disorder_filter | dsimp only | split | intro)

theorem State.linkTimeout_disorder (s : State) (k : Part) (q : HubPort) (u2 : Bool) (lim : Nat) (dz : s.disorder ≤ lim) : (State.linkTimeout s k q u2).disorder ≤ lim := by
  unfold State.linkTimeout
  with_reducible repeat' (first | assumption | apply State.emit_disorder | apply State.updHubPort_disorder | simp only [State.disorder_mk, State.disorder_fold] | apply disorder_put | apply disorder_nil | apply disorder_filter | dsimp only | split)

theorem State.timestamp_disorder (s : State) (k : Part) (interval : BitVec 14) (delta : BitVec 13) (lim : Nat) (dz : s.disorder ≤ lim) : (State.timestamp s k interval delta).disorder ≤ lim := by
  unfold State.timestamp
  with_reducible repeat' (first | assumption | apply State.updUp_disorder | apply forAll_disorder | simp only [State.disorder_mk, State.disorder_fold] | apply disorder_put | apply disorder_nil | apply disorder_filter | dsimp only | split | intro)

theorem opPartGet_disorder (m : VcpMsg) (k : Part) (s : State) (lim : Nat) (dz : s.disorder ≤ lim) : (opPartGet m k s).1.disorder ≤ lim := by
  unfold opPartGet
  with_reducible repeat' (first | assumption | apply refuse_disorder | apply State.updUp_disorder | simp only [State.disorder_mk, State.disorder_fold] | apply disorder_put | apply disorder_nil | apply disorder_filter | dsimp only | split)

theorem State.assignTo_disorder (s : State) (p : Port) (k : Part) (i : Pos) (lim : Nat) (dz : s.disorder ≤ lim) : (State.assignTo s p k i).1.disorder ≤ lim := by
  unfold State.assignTo
  with_reducible repeat' (first | assumption | apply refuse_disorder | apply State.updPort_disorder | apply State.drainThen_disorder | apply forAll_disorder | simp only [State.disorder_mk, State.disorder_fold] | apply disorder_put | apply disorder_nil | apply disorder_filter | dsimp only | split | intro)

theorem opPartAssignPort_disorder (m : VcpMsg) (p : Port) (s : State) (lim : Nat) (dz : s.disorder ≤ lim) : (opPartAssignPort m p s).1.disorder ≤ lim := by
  unfold opPartAssignPort
  with_reducible repeat' (first | assumption | apply refuse_disorder | apply State.assignTo_disorder | simp only [State.disorder_mk, State.disorder_fold] | apply disorder_put | apply disorder_nil | apply disorder_filter | dsimp only | split)

theorem opPartSetLimits_disorder (m : VcpMsg) (k : Part) (s : State) (lim : Nat) (dz : s.disorder ≤ lim) : (opPartSetLimits m k s).1.disorder ≤ lim := by
  unfold opPartSetLimits
  with_reducible repeat' (first | assumption | apply refuse_disorder | apply State.updPart_disorder | simp only [State.disorder_mk, State.disorder_fold] | apply disorder_put | apply disorder_nil | apply disorder_filter | dsimp only | split)

theorem State.refreshPart_disorder (s : State) (k : Part) (lim : Nat) (dz : s.disorder ≤ lim) : (State.refreshPart s k).disorder ≤ lim := by
  unfold State.refreshPart
  with_reducible repeat' (first | assumption | apply State.refreshWord_disorder | apply forAll_disorder)

theorem opPartConnect_disorder (m : VcpMsg) (k : Part) (s : State) (lim : Nat) (dz : s.disorder ≤ lim) : (opPartConnect m k s).1.disorder ≤ lim := by
  unfold opPartConnect
  with_reducible repeat' (first | assumption | apply refuse_disorder | apply ok_disorder | apply State.updPart_disorder | apply State.evalPresent_disorder | apply State.refreshPart_disorder | simp only [State.disorder_mk, State.disorder_fold] | apply disorder_put | apply disorder_nil | apply disorder_filter | dsimp only | split)

theorem State.disconnect_disorder (s : State) (k : Part) (dis answer : Bool) (lim : Nat) (dz : s.disorder ≤ lim) : (State.disconnect s k dis answer).disorder ≤ lim := by
  unfold State.disconnect
  with_reducible repeat' (first | assumption | apply State.answer_disorder | apply State.updPart_disorder | apply State.withdraw_disorder | simp only [State.disorder_mk, State.disorder_fold] | apply disorder_put | apply disorder_nil | apply disorder_filter | dsimp only | split)

theorem opPartDisconnect_disorder (m : VcpMsg) (k : Part) (s : State) (lim : Nat) (dz : s.disorder ≤ lim) : (opPartDisconnect m k s).1.disorder ≤ lim := by
  unfold opPartDisconnect
  with_reducible repeat' (first | assumption | apply refuse_disorder | apply ok_disorder | apply State.updPart_disorder | apply State.withdraw_disorder | apply State.disconnect_disorder | simp only [State.disorder_mk, State.disorder_fold] | apply disorder_put | apply disorder_nil | apply disorder_filter | dsimp only | split)

theorem State.deferredDisconnect_disorder (s : State) (k : Part) (lim : Nat) (dz : s.disorder ≤ lim) : (State.deferredDisconnect s k).disorder ≤ lim := by
  unfold State.deferredDisconnect
  with_reducible repeat' (first | assumption | apply State.disconnect_disorder | apply forAll_disorder | simp only [State.disorder_mk, State.disorder_fold] | apply disorder_put | apply disorder_nil | apply disorder_filter | dsimp only | split | intro)

theorem opPortGet_disorder (m : VcpMsg) (p : Port) (s : State) (lim : Nat) (dz : s.disorder ≤ lim) : (opPortGet m p s).1.disorder ≤ lim := by
  unfold opPortGet
  with_reducible repeat' (first | assumption | apply refuse_disorder | simp only [State.disorder_mk, State.disorder_fold] | apply disorder_put | apply disorder_nil | apply disorder_filter | dsimp only | split)

theorem State.changeMode_disorder (s : State) (p : Port) (m : DataMode) (lim : Nat) (dz : s.disorder ≤ lim) : (State.changeMode s p m).disorder ≤ lim := by
  unfold State.changeMode
  with_reducible repeat' (first | assumption | apply State.drainThen_disorder)

theorem opPortSetMode_disorder (m : VcpMsg) (p : Port) (s : State) (lim : Nat) (dz : s.disorder ≤ lim) : (opPortSetMode m p s).1.disorder ≤ lim := by
  unfold opPortSetMode
  with_reducible repeat' (first | assumption | apply refuse_disorder | apply ok_disorder | apply State.updPort_disorder | apply State.changeMode_disorder | apply forAll_disorder | simp only [State.disorder_mk, State.disorder_fold] | apply disorder_put | apply disorder_nil | apply disorder_filter | dsimp only | split | intro)

theorem opPortReset_disorder (m : VcpMsg) (p : Port) (s : State) (lim : Nat) (dz : s.disorder ≤ lim) : (opPortReset m p s).1.disorder ≤ lim := by
  unfold opPortReset
  with_reducible repeat' (first | assumption | apply refuse_disorder | apply ok_disorder | apply State.updPort_disorder | apply State.drainThen_disorder | simp only [State.disorder_mk, State.disorder_fold] | apply disorder_put | apply disorder_nil | apply disorder_filter | dsimp only | split)

theorem opPortQuench_disorder (m : VcpMsg) (p : Port) (s : State) (lim : Nat) (dz : s.disorder ≤ lim) : (opPortQuench m p s).1.disorder ≤ lim := by
  unfold opPortQuench
  with_reducible repeat' (first | assumption | apply refuse_disorder | apply ok_disorder | apply State.quench_disorder | simp only [State.disorder_mk, State.disorder_fold] | apply disorder_put | apply disorder_nil | apply disorder_filter | dsimp only | split)

theorem opPortRelease_disorder (m : VcpMsg) (p : Port) (s : State) (lim : Nat) (dz : s.disorder ≤ lim) : (opPortRelease m p s).1.disorder ≤ lim := by
  unfold opPortRelease
  with_reducible repeat' (first | assumption | apply refuse_disorder | apply ok_disorder | apply State.releasePort_disorder | simp only [State.disorder_mk, State.disorder_fold] | apply disorder_put | apply disorder_nil | apply disorder_filter | dsimp only | split)

theorem opPortSetBc_disorder (m : VcpMsg) (p : Port) (s : State) (lim : Nat) (dz : s.disorder ≤ lim) : (opPortSetBc m p s).1.disorder ≤ lim := by
  unfold opPortSetBc
  with_reducible repeat' (first | assumption | apply refuse_disorder | apply ok_disorder | apply State.updPort_disorder | simp only [State.disorder_mk, State.disorder_fold] | apply disorder_put | apply disorder_nil | apply disorder_filter | dsimp only | split)

theorem opVbusSet_disorder (m : VcpMsg) (p : Port) (s : State) (lim : Nat) (dz : s.disorder ≤ lim) : (opVbusSet m p s).1.disorder ≤ lim := by
  unfold opVbusSet
  with_reducible repeat' (first | assumption | apply refuse_disorder | apply State.updPort_disorder | apply State.vbusOn_disorder | apply ok_disorder | apply State.updVbus_disorder | apply State.drainThen_disorder | apply forAll_disorder | simp only [State.disorder_mk, State.disorder_fold] | apply disorder_put | apply disorder_nil | apply disorder_filter | dsimp only | split | intro)

theorem opLiftGetPolicy_disorder (m : VcpMsg) (k : Part) (s : State) (lim : Nat) (dz : s.disorder ≤ lim) : (opLiftGetPolicy m k s).1.disorder ≤ lim := by
  unfold opLiftGetPolicy
  with_reducible repeat' (first | assumption | apply refuse_disorder | simp only [State.disorder_mk, State.disorder_fold] | apply disorder_put | apply disorder_nil | apply disorder_filter | dsimp only | split)

theorem opLiftSetClasslist_disorder (m : VcpMsg) (k : Part) (s : State) (lim : Nat) (dz : s.disorder ≤ lim) : (opLiftSetClasslist m k s).1.disorder ≤ lim := by
  unfold opLiftSetClasslist
  with_reducible repeat' (first | assumption | apply refuse_disorder | apply ok_disorder | apply State.updPart_disorder | simp only [State.disorder_mk, State.disorder_fold] | apply disorder_put | apply disorder_nil | apply disorder_filter | dsimp only | split)

theorem State.setBoundary_disorder (s : State) (p : Port) (a : Byte) (mode : Option Boundary) (window : Option Nat) (lim : Nat) (dz : s.disorder ≤ lim) : (State.setBoundary s p a mode window).disorder ≤ lim := by
  unfold State.setBoundary
  with_reducible repeat' (first | assumption | apply State.updLift_disorder | apply State.updCtx_disorder | apply State.releaseHalf_disorder | apply forAll_disorder | simp only [State.disorder_mk, State.disorder_fold] | apply disorder_put | apply disorder_nil | apply disorder_filter | dsimp only | split | intro)

theorem opLiftSetEpBoundary_disorder (m : VcpMsg) (p : Port) (s : State) (lim : Nat) (dz : s.disorder ≤ lim) : (opLiftSetEpBoundary m p s).1.disorder ≤ lim := by
  unfold opLiftSetEpBoundary
  with_reducible repeat' (first | assumption | apply refuse_disorder | apply ok_disorder | apply State.setBoundary_disorder | simp only [State.disorder_mk, State.disorder_fold] | apply disorder_put | apply disorder_nil | apply disorder_filter | dsimp only | split)

theorem opLiftGetEpStats_disorder (m : VcpMsg) (p : Port) (s : State) (lim : Nat) (dz : s.disorder ≤ lim) : (opLiftGetEpStats m p s).1.disorder ≤ lim := by
  unfold opLiftGetEpStats
  with_reducible repeat' (first | assumption | apply refuse_disorder | apply State.updLift_disorder | simp only [State.disorder_mk, State.disorder_fold] | apply disorder_put | apply disorder_nil | apply disorder_filter | dsimp only | split)

theorem opLiftClearPoison_disorder (m : VcpMsg) (p : Port) (s : State) (lim : Nat) (dz : s.disorder ≤ lim) : (opLiftClearPoison m p s).1.disorder ≤ lim := by
  unfold opLiftClearPoison
  with_reducible repeat' (first | assumption | apply refuse_disorder | apply ok_disorder | apply State.updLift_disorder | apply State.updCtx_disorder | simp only [State.disorder_mk, State.disorder_fold] | apply disorder_put | apply disorder_nil | apply disorder_filter | dsimp only | split)

theorem State.putSeverity_disorder (s : State) (source : BitVec 12) (kind : Byte) (v : Severity) (lim : Nat) (dz : s.disorder ≤ lim) : (State.putSeverity s source kind v).disorder ≤ lim := by
  unfold State.putSeverity
  with_reducible repeat' (first | assumption | simp only [State.disorder_mk, State.disorder_fold])

theorem State.setSeverity_disorder (s t : State) (l : List Byte) (lim : Nat) (h : s.setSeverity l = .ok t) (dz : s.disorder ≤ lim) : t.disorder ≤ lim := by
  unfold State.setSeverity at h
  dsimp only at h
  repeat' split at h
  all_goals simp at h
  all_goals (subst h; with_reducible repeat' (first | assumption | apply ok_disorder | apply State.putSeverity_disorder | apply forAll_disorder | simp only [State.disorder_mk, State.disorder_fold] | apply disorder_put | apply disorder_nil | apply disorder_filter | dsimp only | split | intro))

theorem State.defaultSettings_disorder (s : State) (lim : Nat) (dz : s.disorder ≤ lim) : (State.defaultSettings s).disorder ≤ lim := by
  unfold State.defaultSettings
  with_reducible repeat' (first | assumption | simp only [State.disorder_mk, State.disorder_fold])

theorem State.replaced_disorder (s : State) (offset : Nat) (lim : Nat) (dz : s.disorder ≤ lim) : (State.replaced s offset).disorder ≤ lim := by
  unfold State.replaced
  with_reducible repeat' (first | assumption | apply State.detect_disorder)

theorem when_disorder (b : Bool) (a t : State) (lim : Nat) (h : when b a = some t) (ha : a.disorder ≤ lim) : t.disorder ≤ lim := by
  unfold Machine.when at h
  split at h
  · cases h; exact ha
  · cases h

theorem applyPieces_disorder (offset : Nat) (wide : Bool) (fields : List (Nat × List (Nat × Nat))) (dflt l : List Byte)
    (write : State → List Byte → Option State) (s : State) (lim : Nat)
    (hw : ∀ s l t, s.disorder ≤ lim → write s l = some t → t.disorder ≤ lim) (dz : s.disorder ≤ lim) :
    (applyPieces offset wide fields dflt l write s).disorder ≤ lim := by
  unfold applyPieces
  refine forAll_disorder' _ _ _ _ ?_ dz
  intro s f dz
  split
  · rename_i h; exact hw _ _ _ dz h
  · have hr : (s.replaced offset).disorder ≤ lim := State.replaced_disorder _ _ _ dz
    dsimp only
    cases h : write (s.replaced offset) (onePiece wide f.1 f.2 dflt) with
    | none => exact hr
    | some t => exact hw _ _ _ hr h

theorem overRange_disorder (n : Nat) (h : 0 < n) (e : Element) (first last : Nat) (f : State → Fin n → State) (s : State) (lim : Nat)
    (hf : ∀ s a, s.disorder ≤ lim → (f s a).disorder ≤ lim) (dz : s.disorder ≤ lim) : (overRange n h e first last f s).disorder ≤ lim := by
  unfold overRange
  split
  · exact forAll_disorder' _ _ _ _ (fun s a dz => hf s _ dz) dz
  · exact State.replaced_disorder _ _ _ dz

theorem ranged_disorder (offset : Nat) (good : Bool) (f : ModeSettings → ModeSettings) (dflt : ModeSettings → ModeSettings) (s : State) (lim : Nat) (dz : s.disorder ≤ lim) : (ranged offset good f dflt s).disorder ≤ lim := by
  unfold ranged
  with_reducible repeat' (first | assumption | apply State.replaced_disorder | simp only [State.disorder_mk, State.disorder_fold] | apply disorder_put | apply disorder_nil | apply disorder_filter | dsimp only | split)

theorem State.recordModes_disorder (s : State) (o : Nat) (v : List Byte) (lim : Nat) (dz : s.disorder ≤ lim) : (State.recordModes s o v).disorder ≤ lim := by
  unfold State.recordModes
  with_reducible repeat' (first | assumption | apply ranged_disorder)

theorem State.recordAssign_disorder (s : State) (o : Nat) (v : List Byte) (lim : Nat) (dz : s.disorder ≤ lim) : (State.recordAssign s o v).disorder ≤ lim := by
  unfold State.recordAssign
  with_reducible repeat' (first | assumption | apply State.replaced_disorder | apply forAll_disorder | simp only [State.disorder_mk, State.disorder_fold] | apply disorder_put | apply disorder_nil | apply disorder_filter | dsimp only | split | intro)

theorem State.recordPortMode_disorder (s : State) (p : Port) (l : List Byte) (lim : Nat) (dz : s.disorder ≤ lim) :
    ∀ t, State.recordPortMode s p l = some t → t.disorder ≤ lim := by
  intro t h
  unfold State.recordPortMode at h
  repeat' (split at h)
  · simp at h
  · cases h
    with_reducible repeat' (first | assumption | apply State.updPort_disorder)
  · simp at h
  · simp at h
  · cases h
    with_reducible repeat' (first | assumption | apply State.updPort_disorder)

theorem State.recordPortData_disorder (s : State) (o : Nat) (p : Port) (v : List Byte) (lim : Nat) (dz : s.disorder ≤ lim) :
    (State.recordPortData s o p v).disorder ≤ lim := by
  have ha : ∀ (f : List (Nat × List (Nat × Nat))) d l (s : State), s.disorder ≤ lim →
      (applyPieces o false f d l (fun s l => s.recordPortMode p l) s).disorder ≤ lim := by
    intro f d l s dz
    exact applyPieces_disorder _ _ _ _ _ _ _ _ (fun s l t dz h => State.recordPortMode_disorder _ _ _ _ dz _ h) dz
  unfold State.recordPortData
  have h1 := ha modeFields [0x0F, 0, 2, 0, 0xF4, 0x01] ((v.drop 4).take 6) s dz
  generalize applyPieces o false modeFields [0x0F, 0, 2, 0, 0xF4, 0x01] ((v.drop 4).take 6) (fun s l => s.recordPortMode p l) s = t at *
  with_reducible repeat' (first | assumption | apply State.updVbus_disorder | apply State.updPort_disorder | apply State.replaced_disorder | simp only [State.disorder_mk, State.disorder_fold] | apply disorder_put | apply disorder_nil | apply disorder_filter | dsimp only | split)

theorem State.recordAutoresp_disorder (s : State) (o : Nat) (p : Port) (l : List Byte) (lim : Nat) (dz : s.disorder ≤ lim) :
    (State.recordAutoresp s o p l).disorder ≤ lim := by
  have hw : ∀ (s : State) (q : List Byte) (t : State), s.disorder ≤ lim →
      (setAutoresp p q (s.pd.get p).cfg).map (fun c => s.updPd p (fun x => { x with cfg := c })) = some t → t.disorder ≤ lim := by
    intro s q t dz h
    simp only [Option.map_eq_some_iff] at h
    obtain ⟨c, -, rfl⟩ := h
    exact State.updPd_disorder _ _ _ _ dz
  unfold State.recordAutoresp
  dsimp only
  split
  · split
    · rename_i h
      exact hw _ _ _ (applyPieces_disorder _ _ _ _ _ _ _ _ hw dz) h
    · refine State.updPd_disorder _ _ _ _ (State.replaced_disorder _ _ _ ?_)
      exact applyPieces_disorder _ _ _ _ _ _ _ _ hw dz
  · exact applyPieces_disorder _ _ _ _ _ _ _ _ hw dz

theorem State.recordElement_disorder (s : State) (e : Element) (lim : Nat) (dz : s.disorder ≤ lim) : (s.recordElement e).disorder ≤ lim := by
  unfold State.recordElement
  dsimp only
  split
  · with_reducible repeat' (first | assumption | apply ok_disorder | apply State.updFw_disorder | apply State.updPd_disorder | apply State.bindUart_disorder | apply State.syncBaud_disorder | apply State.updPart_disorder | apply State.replaced_disorder | apply State.recordModes_disorder | apply State.recordAssign_disorder | apply State.recordPortData_disorder | apply State.recordAutoresp_disorder | simp only [State.disorder_mk, State.disorder_fold] | apply disorder_put | apply disorder_nil | apply disorder_filter | dsimp only | split)
  · with_reducible repeat' (first | assumption | apply ok_disorder | apply State.updFw_disorder | apply State.updPd_disorder | apply State.bindUart_disorder | apply State.syncBaud_disorder | apply State.updPart_disorder | apply State.replaced_disorder | apply State.recordModes_disorder)
  · refine applyPieces_disorder _ _ _ _ _ _ _ _ ?_ dz; intro s l t dz h; refine when_disorder _ _ _ _ h ?_; with_reducible repeat' (first | assumption | apply ok_disorder | apply State.updFw_disorder | apply State.updPd_disorder | apply State.bindUart_disorder | apply State.syncBaud_disorder | apply State.updPart_disorder | apply State.replaced_disorder | apply State.recordModes_disorder | apply State.recordAssign_disorder | apply State.recordPortData_disorder | apply State.recordAutoresp_disorder | simp only [State.disorder_mk, State.disorder_fold])
  · refine applyPieces_disorder _ _ _ _ _ _ _ _ ?_ dz; intro s l t dz h; refine when_disorder _ _ _ _ h ?_; with_reducible repeat' (first | assumption | apply ok_disorder | apply State.updFw_disorder | apply State.updPd_disorder | apply State.bindUart_disorder | apply State.syncBaud_disorder | apply State.updPart_disorder | apply State.replaced_disorder | apply State.recordModes_disorder | apply State.recordAssign_disorder | apply State.recordPortData_disorder | apply State.recordAutoresp_disorder | simp only [State.disorder_mk, State.disorder_fold])
  · split
    · rename_i h; exact State.setSeverity_disorder _ _ _ _ h dz
    · with_reducible repeat' (first | assumption | apply ok_disorder | apply State.updFw_disorder | apply State.updPd_disorder | apply State.bindUart_disorder | apply State.syncBaud_disorder | apply State.updPart_disorder | apply State.replaced_disorder)
  · with_reducible repeat' (first | assumption | apply ok_disorder | apply State.updFw_disorder | apply State.updPd_disorder | apply State.bindUart_disorder | apply State.syncBaud_disorder | apply State.updPart_disorder | apply State.replaced_disorder | apply State.recordModes_disorder | apply State.recordAssign_disorder | apply State.recordPortData_disorder | apply State.recordAutoresp_disorder | simp only [State.disorder_mk, State.disorder_fold])
  · with_reducible repeat' (first | assumption | apply ok_disorder | apply State.updFw_disorder)
  · refine overRange_disorder _ _ _ _ _ _ _ _ ?_ dz; intro s k dz; refine applyPieces_disorder _ _ _ _ _ _ _ _ ?_ dz; intro s l t dz h; refine when_disorder _ _ _ _ h ?_; with_reducible repeat' (first | assumption | apply ok_disorder | apply State.updFw_disorder | apply State.updPd_disorder | apply State.bindUart_disorder | apply State.syncBaud_disorder | apply State.updPart_disorder)
  · refine overRange_disorder _ _ _ _ _ _ _ _ ?_ dz; intro s k dz; with_reducible repeat' (first | assumption | apply ok_disorder | apply State.updFw_disorder | apply State.updPd_disorder | apply State.bindUart_disorder | apply State.syncBaud_disorder | apply State.updPart_disorder | apply State.replaced_disorder | apply State.recordModes_disorder | apply State.recordAssign_disorder | apply State.recordPortData_disorder | apply State.recordAutoresp_disorder | simp only [State.disorder_mk, State.disorder_fold] | apply disorder_put | apply disorder_nil | apply disorder_filter | dsimp only | split)
  · with_reducible repeat' (first | assumption | apply ok_disorder | apply State.updFw_disorder | apply State.updPd_disorder | apply State.bindUart_disorder | apply State.syncBaud_disorder | apply State.updPart_disorder | apply State.replaced_disorder | apply State.recordModes_disorder | apply State.recordAssign_disorder)
  · refine overRange_disorder _ _ _ _ _ _ _ _ ?_ dz; intro s k dz; with_reducible repeat' (first | assumption | apply ok_disorder | apply State.updFw_disorder | apply State.updPd_disorder | apply State.bindUart_disorder | apply State.syncBaud_disorder | apply State.updPart_disorder | apply State.replaced_disorder | apply State.recordModes_disorder | apply State.recordAssign_disorder | apply State.recordPortData_disorder)
  · refine overRange_disorder _ _ _ _ _ _ _ _ ?_ dz; intro s k dz; with_reducible repeat' (first | assumption | apply ok_disorder | apply State.updFw_disorder | apply State.updPd_disorder | apply State.bindUart_disorder | apply State.syncBaud_disorder | apply State.updPart_disorder | apply State.replaced_disorder | apply State.recordModes_disorder | apply State.recordAssign_disorder | apply State.recordPortData_disorder | apply State.recordAutoresp_disorder | simp only [State.disorder_mk, State.disorder_fold] | apply disorder_put | apply disorder_nil | apply disorder_filter | dsimp only | split)
  · refine overRange_disorder _ _ _ _ _ _ _ _ ?_ dz; intro s k dz
    split
    · rename_i h; exact State.setOffer_disorder _ _ _ _ dz _ h
    · with_reducible repeat' (first | assumption | apply ok_disorder | apply State.updFw_disorder | apply State.updPd_disorder | apply State.bindUart_disorder | apply State.syncBaud_disorder | apply State.updPart_disorder | apply State.replaced_disorder)
  · refine overRange_disorder _ _ _ _ _ _ _ _ ?_ dz; intro s k dz; with_reducible repeat' (first | assumption | apply ok_disorder | apply State.updFw_disorder | apply State.updPd_disorder | apply State.bindUart_disorder | apply State.syncBaud_disorder | apply State.updPart_disorder | apply State.replaced_disorder | apply State.recordModes_disorder | apply State.recordAssign_disorder | apply State.recordPortData_disorder | apply State.recordAutoresp_disorder)
  · refine overRange_disorder _ _ _ _ _ _ _ _ ?_ dz; intro s k dz; with_reducible repeat' (first | assumption | apply ok_disorder | apply State.updFw_disorder | apply State.updPd_disorder | apply State.bindUart_disorder | apply State.syncBaud_disorder | apply State.updPart_disorder | apply State.replaced_disorder | apply State.recordModes_disorder | apply State.recordAssign_disorder | apply State.recordPortData_disorder | apply State.recordAutoresp_disorder | simp only [State.disorder_mk, State.disorder_fold] | apply disorder_put | apply disorder_nil | apply disorder_filter | dsimp only | split)
  · refine overRange_disorder _ _ _ _ _ _ _ _ ?_ dz; intro s k dz; refine applyPieces_disorder _ _ _ _ _ _ _ _ ?_ dz; intro s l t dz h
    split at h
    · cases h
    · simp only [Option.some.injEq] at h
      subst h; with_reducible repeat' (first | assumption | apply ok_disorder | apply State.updFw_disorder | apply State.updPd_disorder | apply State.bindUart_disorder | apply State.syncBaud_disorder | apply State.updPart_disorder | apply State.replaced_disorder | apply State.recordModes_disorder | apply State.recordAssign_disorder | apply State.recordPortData_disorder | apply State.recordAutoresp_disorder | simp only [State.disorder_mk, State.disorder_fold] | apply disorder_put | apply disorder_nil | apply disorder_filter | dsimp only | split)
  · exact dz
  · exact dz
  · exact dz
  · with_reducible repeat' (first | assumption | apply ok_disorder | apply State.updFw_disorder | apply State.updPd_disorder | apply State.bindUart_disorder | apply State.syncBaud_disorder | apply State.updPart_disorder | apply State.replaced_disorder)

theorem State.recordSlot_disorder (s : State) (e : Element) (lim : Nat) (dz : s.disorder ≤ lim) : (State.recordSlot s e).disorder ≤ lim := by
  unfold State.recordSlot
  dsimp only
  split
  · exact dz
  · refine overRange_disorder _ _ _ _ _ _ _ _ ?_ dz; intro s k dz
    have h1 := applyPieces_disorder e.offset true slotFields (limitsBytes {}) (e.value.drop 4) (fun s l => s.setLimits k l) s lim
      (fun s l t dz h => State.setLimits_disorder _ _ _ _ dz _ h) dz
    generalize applyPieces e.offset true slotFields (limitsBytes {}) (e.value.drop 4) (fun s l => s.setLimits k l) s = t at *
    with_reducible repeat' (first | assumption | apply State.updSlot_disorder | apply State.slotOff_disorder | apply State.replaced_disorder | simp only [State.disorder_mk, State.disorder_fold] | apply disorder_put | apply disorder_nil | apply disorder_filter | dsimp only | split)

theorem State.recordRows_disorder (s : State) (e : Element) (lim : Nat) (dz : s.disorder ≤ lim) : (State.recordRows s e).disorder ≤ lim := by
  unfold State.recordRows
  with_reducible repeat' (first | assumption | apply State.updFw_disorder | apply State.replaced_disorder | apply forAll_disorder | simp only [State.disorder_mk, State.disorder_fold] | apply disorder_put | apply disorder_nil | apply disorder_filter | dsimp only | split | intro)

end Sys2Proof.Machine
end

