-- ==== Sys2Proof/Laws/OrderModes.lean ====
section
/-! SUPPORT. Order lemmas: modes, firmware, links and faults keep the code words in canonical order. -/

set_option Elab.async false

namespace Sys2Proof.Machine

open Sys2Proof

theorem State.modeChanged_disorder (s : State) (req : Option ModeRequest) (lim : Nat) (dz : s.disorder ≤ lim) : (State.modeChanged s req).disorder ≤ lim := by
  unfold State.modeChanged
  with_reducible repeat' (first | assumption | apply State.issue_disorder)

theorem State.abandonStaging_disorder (s : State) (lim : Nat) (dz : s.disorder ≤ lim) : (State.abandonStaging s).disorder ≤ lim := by
  unfold State.abandonStaging
  with_reducible repeat' (first | assumption | apply State.updFw_disorder | simp only [State.disorder_mk, State.disorder_fold] | apply disorder_put | apply disorder_nil | apply disorder_filter | dsimp only | split)

theorem State.closeSession_disorder (s : State) (i : Sess) (lim : Nat) (dz : s.disorder ≤ lim) : (State.closeSession s i).disorder ≤ lim := by
  unfold State.closeSession
  with_reducible repeat' (first | assumption | apply State.updSession_disorder | apply State.updFw_disorder | apply State.abandonStaging_disorder | simp only [State.disorder_mk, State.disorder_fold] | apply disorder_put | apply disorder_nil | apply disorder_filter | dsimp only | split)

theorem State.endSessions_disorder (s : State) (keep : Bool) (lim : Nat) (dz : s.disorder ≤ lim) : (State.endSessions s keep).disorder ≤ lim := by
  unfold State.endSessions
  with_reducible repeat' (first | assumption | apply State.updFw_disorder | apply State.abandonStaging_disorder | simp only [State.disorder_mk, State.disorder_fold])

theorem State.setDomain_disorder (s : State) (d : Fin 25) (st : DomState) (lim : Nat) (dz : s.disorder ≤ lim) : (State.setDomain s d st).disorder ≤ lim := by
  unfold State.setDomain
  with_reducible repeat' (first | assumption | apply State.riseDomain_disorder | apply State.lowerDomain_disorder | simp only [State.disorder_mk, State.disorder_fold] | apply disorder_put | apply disorder_nil | apply disorder_filter | dsimp only | split)

theorem State.enterDomains_disorder (s : State) (old m : Mode) (lim : Nat) (dz : s.disorder ≤ lim) : (State.enterDomains s old m).disorder ≤ lim := by
  unfold State.enterDomains
  with_reducible repeat' (first | assumption | apply forAll_disorder | apply State.setDomain_disorder | apply forAll_disorder | simp only [State.disorder_mk, State.disorder_fold] | apply disorder_put | apply disorder_nil | apply disorder_filter | dsimp only | split | intro)

theorem State.withdrawNow_disorder (s : State) (k : Part) (r : Reason) (dest : PartSt) (lim : Nat) (dz : s.disorder ≤ lim) : (State.withdrawNow s k r dest).disorder ≤ lim := by
  unfold State.withdrawNow
  with_reducible repeat' (first | assumption | apply State.emits_disorder | apply State.answer_disorder | apply State.withdraw_disorder | apply State.updPart_disorder | apply forAll_disorder | apply State.finishDrain_disorder | apply State.beginDrain_disorder | apply State.drainThen_disorder | apply State.checkWithdraw_disorder | apply forAll_disorder | simp only [State.disorder_mk, State.disorder_fold] | apply disorder_put | apply disorder_nil | apply disorder_filter | dsimp only | split | intro)

theorem State.permitParts_disorder (s : State) (m : Mode) (lim : Nat) (dz : s.disorder ≤ lim) : (State.permitParts s m).disorder ≤ lim := by
  unfold State.permitParts
  with_reducible repeat' (first | assumption | apply State.updPart_disorder | apply State.withdrawNow_disorder | apply forAll_disorder | simp only [State.disorder_mk, State.disorder_fold] | apply disorder_put | apply disorder_nil | apply disorder_filter | dsimp only | split | intro)

theorem State.disarmFor_disorder (s : State) (m : Mode) (lim : Nat) (dz : s.disorder ≤ lim) : (State.disarmFor s m).disorder ≤ lim := by
  unfold State.disarmFor
  with_reducible repeat' (first | assumption | simp only [State.disorder_mk, State.disorder_fold])

theorem State.repace_disorder (s : State) (lim : Nat) (dz : s.disorder ≤ lim) : (State.repace s).disorder ≤ lim := by
  unfold State.repace
  with_reducible repeat' (first | assumption | simp only [State.disorder_mk, State.disorder_fold])

theorem State.unmarkParts_disorder (s : State) (lim : Nat) (dz : s.disorder ≤ lim) : (State.unmarkParts s).disorder ≤ lim := by
  unfold State.unmarkParts
  with_reducible repeat' (first | assumption | apply forAll_disorder | simp only [State.disorder_mk, State.disorder_fold] | apply disorder_put | apply disorder_nil | apply disorder_filter | dsimp only | split | intro)

theorem State.enterMode_disorder (s : State) (m : Mode) (cause : Byte) (detail : Nat) (req : Option ModeRequest) (lim : Nat) (dz : s.disorder ≤ lim) : (State.enterMode s m cause detail req).disorder ≤ lim := by
  unfold State.enterMode
  with_reducible repeat' (first | assumption | apply State.unmarkParts_disorder | apply State.permitParts_disorder | apply State.disarmFor_disorder | apply State.enterDomains_disorder | apply State.repace_disorder | apply State.modeChanged_disorder | apply forAll_disorder | apply State.evalPresent_disorder | apply State.capsDue_disorder | apply forAll_disorder | simp only [State.disorder_mk, State.disorder_fold] | apply disorder_put | apply disorder_nil | apply disorder_filter | dsimp only | split | intro)

theorem State.pauseEnd_disorder (s : State) (lim : Nat) (dz : s.disorder ≤ lim) : (State.pauseEnd s).disorder ≤ lim := by
  unfold State.pauseEnd
  with_reducible repeat' (first | assumption | apply State.fillMailbox_disorder | apply State.issueHeld_disorder | apply State.updFw_disorder | apply State.updPd_disorder | apply State.refreshWord_disorder | apply State.ccDebounced_disorder | apply State.enterHold_disorder | apply State.releaseIdle_disorder | apply State.debounced_disorder | apply State.probesAfterPause_disorder | apply forAll_disorder | simp only [State.disorder_mk, State.disorder_fold] | apply disorder_put | apply disorder_nil | apply disorder_filter | dsimp only | split | intro)

theorem State.avsFail_disorder (s : State) (target : Nat) (lim : Nat) (dz : s.disorder ≤ lim) : (State.avsFail s target).disorder ≤ lim := by
  unfold State.avsFail
  with_reducible repeat' (first | assumption | apply State.detect_disorder | simp only [State.disorder_mk, State.disorder_fold])

theorem State.dawn_disorder (s : State) (lim : Nat) (dz : s.disorder ≤ lim) : (State.dawn s).disorder ≤ lim := by
  unfold State.dawn
  with_reducible repeat' (first | assumption | apply State.endSessions_disorder | apply State.defaultSettings_disorder | apply forAll_disorder | apply State.writeWord_disorder | apply forAll_disorder | simp only [State.disorder_mk, State.disorder_fold] | apply disorder_put | apply disorder_nil | apply disorder_filter | dsimp only | split | intro)

theorem State.bootFail_disorder (s : State) (source : Nat) (lim : Nat) (dz : s.disorder ≤ lim) : (State.bootFail s source).disorder ≤ lim := by
  unfold State.bootFail
  with_reducible repeat' (first | assumption | apply State.updFw_disorder | apply State.enterMode_disorder)

theorem State.bootAvs_disorder (s : State) (lim : Nat) (dz : s.disorder ≤ lim) : (State.bootAvs s).disorder ≤ lim := by
  unfold State.bootAvs
  with_reducible repeat' (first | assumption | apply State.avsFail_disorder | simp only [State.disorder_mk, State.disorder_fold] | apply disorder_put | apply disorder_nil | apply disorder_filter | dsimp only | split)

theorem State.bootRecord_disorder (s : State) (brief : Bool) (lim : Nat) (dz : s.disorder ≤ lim) : (State.bootRecord s brief).1.disorder ≤ lim := by
  unfold State.bootRecord
  with_reducible repeat' (first | assumption | apply State.detect_disorder | apply ok_disorder | apply State.updFw_disorder | simp only [State.disorder_mk, State.disorder_fold] | apply disorder_put | apply disorder_nil | apply disorder_filter | dsimp only | split)

theorem State.clearTrial_disorder (s : State) (lim : Nat) (dz : s.disorder ≤ lim) : (State.clearTrial s).disorder ≤ lim := by
  unfold State.clearTrial
  with_reducible repeat' (first | assumption | apply State.updFw_disorder | simp only [State.disorder_mk, State.disorder_fold] | apply disorder_put | apply disorder_nil | apply disorder_filter | dsimp only | split)

theorem trySlots_disorder (l : List (Fin 2)) (s : State) (lim : Nat) (dz : s.disorder ≤ lim) : (trySlots l s).1.disorder ≤ lim := by
  induction l generalizing s with
  | nil => exact dz
  | cons i l ih =>
    unfold trySlots
    split
    · with_reducible repeat' (first | assumption | apply State.detect_disorder | apply State.updFw_disorder)
    · apply ih
      with_reducible repeat' (first | assumption | apply State.detect_disorder | apply State.updFw_disorder)

theorem State.bootImage_disorder (s : State) (lim : Nat) (dz : s.disorder ≤ lim) : (State.bootImage s).1.disorder ≤ lim := by
  unfold State.bootImage
  with_reducible repeat' (first | assumption | apply State.clearTrial_disorder | apply trySlots_disorder)

theorem State.bootFill_disorder (s : State) (es : List Element) (lim : Nat) (dz : s.disorder ≤ lim) : (State.bootFill s es).disorder ≤ lim := by
  unfold State.bootFill
  with_reducible repeat' (first | assumption | apply State.updFw_disorder | apply State.fillBank_disorder | apply State.recordRows_disorder | apply State.applyRows_disorder | apply forAll_disorder)

theorem State.firstMorning_disorder (s : State) (lim : Nat) (dz : s.disorder ≤ lim) : (State.firstMorning s).disorder ≤ lim := by
  unfold State.firstMorning
  with_reducible repeat' (first | assumption | apply State.leaveOpen_disorder | apply forAll_disorder | simp only [State.disorder_mk, State.disorder_fold])

theorem State.arriveUp_disorder (s : State) (cause : Byte) (detail : Nat) (req : Option ModeRequest) (lim : Nat) (dz : s.disorder ≤ lim) : (State.arriveUp s cause detail req).1.disorder ≤ lim := by
  unfold State.arriveUp
  with_reducible repeat' (first | assumption | apply State.emit_disorder | apply State.enterMode_disorder | simp only [State.disorder_mk, State.disorder_fold] | apply disorder_put | apply disorder_nil | apply disorder_filter | dsimp only | split)

theorem State.reachMorning_disorder (s : State) (midnight : Bool) (lim : Nat) (dz : s.disorder ≤ lim) : (State.reachMorning s midnight).disorder ≤ lim := by
  unfold State.reachMorning
  with_reducible repeat' (first | assumption | apply State.enterMode_disorder | apply State.pauseEnd_disorder | apply State.firstMorning_disorder | apply State.arriveUp_disorder | simp only [State.disorder_mk, State.disorder_fold] | apply disorder_put | apply disorder_nil | apply disorder_filter | dsimp only | split)

theorem State.bootRest_disorder (s : State) (es : List Element) (midnight : Bool) (lim : Nat) (dz : s.disorder ≤ lim) : (State.bootRest s es midnight).disorder ≤ lim := by
  unfold State.bootRest
  with_reducible repeat' (first | assumption | apply State.detect_disorder | apply State.bootFail_disorder | apply forAll_disorder | apply State.clearBank_disorder | apply State.bootFill_disorder | apply State.recordElement_disorder | apply State.recordSlot_disorder | apply State.reachMorning_disorder | apply forAll_disorder | simp only [State.disorder_mk, State.disorder_fold] | apply disorder_put | apply disorder_nil | apply disorder_filter | dsimp only | split | intro)

theorem State.boot_disorder (s : State) (midnight : Bool) (lim : Nat) (dz : s.disorder ≤ lim) : (State.boot s midnight).disorder ≤ lim := by
  unfold State.boot
  with_reducible repeat' (first | assumption | apply State.detect_disorder | apply State.bootFail_disorder | apply State.bootAvs_disorder | apply State.bootRecord_disorder | apply State.bootImage_disorder | apply State.bootRest_disorder | simp only [State.disorder_mk, State.disorder_fold] | apply disorder_put | apply disorder_nil | apply disorder_filter | dsimp only | split)

theorem State.strapAndBoot_disorder (s : State) (lim : Nat) (dz : s.disorder ≤ lim) : (State.strapAndBoot s).disorder ≤ lim := by
  unfold State.strapAndBoot
  with_reducible repeat' (first | assumption | apply State.detect_disorder | apply State.bootFail_disorder | apply State.boot_disorder | simp only [State.disorder_mk, State.disorder_fold] | apply disorder_put | apply disorder_nil | apply disorder_filter | dsimp only | split)

theorem State.answerReq_disorder (s : State) (req : Option ModeRequest) (status : Byte) (payload : List Byte) (lim : Nat) (dz : s.disorder ≤ lim) : (State.answerReq s req status payload).disorder ≤ lim := by
  unfold State.answerReq
  with_reducible repeat' (first | assumption | apply State.complete_disorder | simp only [State.disorder_mk, State.disorder_fold] | apply disorder_put | apply disorder_nil | apply disorder_filter | dsimp only | split)

theorem State.denyReq_disorder (s : State) (req : Option ModeRequest) (reason dom : Nat) (lim : Nat) (dz : s.disorder ≤ lim) : (State.denyReq s req reason dom).disorder ≤ lim := by
  unfold State.denyReq
  with_reducible repeat' (first | assumption | apply State.answerReq_disorder)

theorem State.okReq_disorder (s : State) (req : Option ModeRequest) (lim : Nat) (dz : s.disorder ≤ lim) : (State.okReq s req).disorder ≤ lim := by
  unfold State.okReq
  with_reducible repeat' (first | assumption | apply State.answerReq_disorder)

theorem State.rise_disorder (s : State) (cause : Byte) (detail : Nat) (req : Option ModeRequest) (lim : Nat) (dz : s.disorder ≤ lim) : (State.rise s cause detail req).disorder ≤ lim := by
  unfold State.rise
  with_reducible repeat' (first | assumption | apply State.arriveUp_disorder | apply State.okReq_disorder | simp only [State.disorder_mk, State.disorder_fold] | apply disorder_put | apply disorder_nil | apply disorder_filter | dsimp only | split)

theorem State.goBack_disorder (s : State) (origin : Mode) (cause : Byte) (detail : Nat) (lim : Nat) (dz : s.disorder ≤ lim) : (State.goBack s origin cause detail).disorder ≤ lim := by
  unfold State.goBack
  with_reducible repeat' (first | assumption | apply State.enterMode_disorder | apply State.rise_disorder | simp only [State.disorder_mk, State.disorder_fold] | apply disorder_put | apply disorder_nil | apply disorder_filter | dsimp only | split)

theorem State.withdrawTrees_disorder (s : State) (lim : Nat) (dz : s.disorder ≤ lim) : (State.withdrawTrees s).disorder ≤ lim := by
  unfold State.withdrawTrees
  with_reducible repeat' (first | assumption | apply State.withdraw_disorder | apply forAll_disorder | simp only [State.disorder_mk, State.disorder_fold] | apply disorder_put | apply disorder_nil | apply disorder_filter | dsimp only | split | intro)

theorem State.startDusk_disorder (s : State) (req : ModeRequest) (auto rollback : Bool) (cause : Byte) (detail : Nat) (lim : Nat) (dz : s.disorder ≤ lim) : (State.startDusk s req auto rollback cause detail).disorder ≤ lim := by
  unfold State.startDusk
  with_reducible repeat' (first | assumption | apply State.setDomain_disorder | apply State.enterMode_disorder | apply State.withdrawTrees_disorder | apply forAll_disorder | simp only [State.disorder_mk, State.disorder_fold] | apply disorder_put | apply disorder_nil | apply disorder_filter | dsimp only | split | intro)

theorem State.nextStep_disorder (s : State) (lim : Nat) (dz : s.disorder ≤ lim) : (State.nextStep s).disorder ≤ lim := by
  unfold State.nextStep
  with_reducible repeat' (first | assumption | simp only [State.disorder_mk, State.disorder_fold])

theorem State.offerFive_disorder (s : State) (all : Bool) (lim : Nat) (dz : s.disorder ≤ lim) : (State.offerFive s all).disorder ≤ lim := by
  unfold State.offerFive
  with_reducible repeat' (first | assumption | apply forAll_disorder | apply State.sendCaps_disorder | apply forAll_disorder | simp only [State.disorder_mk, State.disorder_fold] | apply disorder_put | apply disorder_nil | apply disorder_filter | dsimp only | split | intro)

theorem State.disableAll_disorder (s : State) (lim : Nat) (dz : s.disorder ≤ lim) : (State.disableAll s).disorder ≤ lim := by
  unfold State.disableAll
  with_reducible repeat' (first | assumption | apply State.drainThen_disorder | apply forAll_disorder | simp only [State.disorder_mk, State.disorder_fold] | apply disorder_put | apply disorder_nil | apply disorder_filter | dsimp only | split | intro)

theorem State.duskStep_disorder (s : State) (g : Goal) (begun : Nat) (lim : Nat) (dz : s.disorder ≤ lim) :
    ∀ t, State.duskStep s g begun = some t → t.disorder ≤ lim := by
  intro t h
  unfold State.duskStep at h
  repeat' (split at h)
  all_goals simp only [Option.some.injEq, reduceCtorEq] at h
  all_goals subst h
  all_goals with_reducible repeat' (first | assumption | apply State.slotOff_disorder | apply State.nextStep_disorder | apply State.offerFive_disorder | apply State.disableAll_disorder | apply forAll_disorder)

theorem State.enterMaintenance_disorder (s : State) (req : ModeRequest) (lim : Nat) (dz : s.disorder ≤ lim) : (State.enterMaintenance s req).disorder ≤ lim := by
  unfold State.enterMaintenance
  with_reducible repeat' (first | assumption | apply State.updFw_disorder | apply State.enterMode_disorder)

theorem State.abortDusk_disorder (s : State) (reason dom : Nat) (lim : Nat) (dz : s.disorder ≤ lim) : (State.abortDusk s reason dom).disorder ≤ lim := by
  unfold State.abortDusk
  with_reducible repeat' (first | assumption | apply State.updFw_disorder | apply State.denyReq_disorder | apply State.goBack_disorder | apply State.enterMaintenance_disorder | simp only [State.disorder_mk, State.disorder_fold] | apply disorder_put | apply disorder_nil | apply disorder_filter | dsimp only | split)

theorem State.fwAsleep_disorder (s : State) (lim : Nat) (dz : s.disorder ≤ lim) : (State.fwAsleep s).disorder ≤ lim := by
  unfold State.fwAsleep
  with_reducible repeat' (first | assumption | apply State.updFw_disorder)

theorem State.enterMidnight_disorder (s : State) (t : Trans) (lim : Nat) (dz : s.disorder ≤ lim) : (State.enterMidnight s t).disorder ≤ lim := by
  unfold State.enterMidnight
  with_reducible repeat' (first | assumption | apply State.setRp_disorder | apply State.endSessions_disorder | apply State.enterMode_disorder | apply State.answerReq_disorder | apply State.fwAsleep_disorder | apply forAll_disorder | simp only [State.disorder_mk, State.disorder_fold] | apply disorder_put | apply disorder_nil | apply disorder_filter | dsimp only | split | intro)

theorem State.enterOff_disorder (s : State) (t : Trans) (lim : Nat) (dz : s.disorder ≤ lim) : (State.enterOff s t).disorder ≤ lim := by
  unfold State.enterOff
  with_reducible repeat' (first | assumption | apply State.endSessions_disorder | apply State.enterMode_disorder | apply State.answerReq_disorder | simp only [State.disorder_mk, State.disorder_fold])

theorem State.commitDusk_disorder (s : State) (lim : Nat) (dz : s.disorder ≤ lim) : (State.commitDusk s).disorder ≤ lim := by
  unfold State.commitDusk
  with_reducible repeat' (first | assumption | apply State.lowerDomain_disorder | apply State.enterMode_disorder | apply State.okReq_disorder | apply State.enterMaintenance_disorder | apply State.enterMidnight_disorder | apply State.enterOff_disorder | apply forAll_disorder | simp only [State.disorder_mk, State.disorder_fold] | apply disorder_put | apply disorder_nil | apply disorder_filter | dsimp only | split | intro)

theorem State.sendPrepare_disorder (s : State) (lim : Nat) (dz : s.disorder ≤ lim) : (State.sendPrepare s).disorder ≤ lim := by
  unfold State.sendPrepare
  with_reducible repeat' (first | assumption | apply State.commitDusk_disorder | simp only [State.disorder_mk, State.disorder_fold] | apply disorder_put | apply disorder_nil | apply disorder_filter | dsimp only | split)

theorem State.startNight_disorder (s : State) (req : ModeRequest) (auto : Bool) (cause : Byte) (detail : Nat) (lim : Nat) (dz : s.disorder ≤ lim) : (State.startNight s req auto cause detail).disorder ≤ lim := by
  unfold State.startNight
  with_reducible repeat' (first | assumption | apply State.fence_disorder | apply State.startDusk_disorder | apply State.abortDusk_disorder | apply forAll_disorder | simp only [State.disorder_mk, State.disorder_fold] | apply disorder_put | apply disorder_nil | apply disorder_filter | dsimp only | split)

theorem State.leaveSafeHold_disorder (s : State) (req : ModeRequest) (lim : Nat) (dz : s.disorder ≤ lim) : (State.leaveSafeHold s req).disorder ≤ lim := by
  unfold State.leaveSafeHold
  with_reducible repeat' (first | assumption | apply State.rise_disorder | apply forAll_disorder | simp only [State.disorder_mk, State.disorder_fold] | apply disorder_put | apply disorder_nil | apply disorder_filter | dsimp only | split | intro)

theorem State.restart_disorder (s : State) (req : ModeRequest) (lim : Nat) (dz : s.disorder ≤ lim) : (State.restart s req).disorder ≤ lim := by
  unfold State.restart
  with_reducible repeat' (first | assumption | apply State.dawn_disorder | apply State.strapAndBoot_disorder | apply State.answerReq_disorder)

theorem State.startActivation_disorder (s : State) (req : ModeRequest) (slot : Fin 2) (lim : Nat) (dz : s.disorder ≤ lim) : (State.startActivation s req slot).disorder ≤ lim := by
  unfold State.startActivation
  with_reducible repeat' (first | assumption | apply State.updFw_disorder | apply State.answerReq_disorder | apply State.startDusk_disorder | simp only [State.disorder_mk, State.disorder_fold] | apply disorder_put | apply disorder_nil | apply disorder_filter | dsimp only | split)

theorem State.startFrom_disorder (s : State) (req : ModeRequest) (lim : Nat) (dz : s.disorder ≤ lim) : (State.startFrom s req).disorder ≤ lim := by
  unfold State.startFrom
  with_reducible repeat' (first | assumption | apply State.enterMode_disorder | apply State.answerReq_disorder | apply State.denyReq_disorder | apply State.okReq_disorder | apply State.rise_disorder | apply State.startDusk_disorder | apply State.startNight_disorder | apply State.leaveSafeHold_disorder | apply State.restart_disorder | apply State.startActivation_disorder | simp only [State.disorder_mk, State.disorder_fold] | apply disorder_put | apply disorder_nil | apply disorder_filter | dsimp only | split)

theorem State.nightWake_disorder (s : State) (code : Nat) (lim : Nat) (dz : s.disorder ≤ lim) : (State.nightWake s code).disorder ≤ lim := by
  unfold State.nightWake
  with_reducible repeat' (first | assumption | apply State.goBack_disorder | simp only [State.disorder_mk, State.disorder_fold] | apply disorder_put | apply disorder_nil | apply disorder_filter | dsimp only | split)

theorem State.enqueue_disorder (s : State) (req : ModeRequest) (lim : Nat) (dz : s.disorder ≤ lim) : (State.enqueue s req).disorder ≤ lim := by
  unfold State.enqueue
  with_reducible repeat' (first | assumption | apply State.answerReq_disorder | simp only [State.disorder_mk, State.disorder_fold])

theorem State.startMode_disorder (s : State) (req : ModeRequest) (lim : Nat) (dz : s.disorder ≤ lim) : (State.startMode s req).disorder ≤ lim := by
  unfold State.startMode
  with_reducible repeat' (first | assumption | apply State.restart_disorder | apply State.startFrom_disorder | apply State.nightWake_disorder | apply State.enqueue_disorder | simp only [State.disorder_mk, State.disorder_fold] | apply disorder_put | apply disorder_nil | apply disorder_filter | dsimp only | split)

theorem State.runQueue_disorder (s : State) (lim : Nat) (dz : s.disorder ≤ lim) : (State.runQueue s).disorder ≤ lim := by
  unfold State.runQueue
  with_reducible repeat' (first | assumption | apply State.updSession_disorder | apply State.startMode_disorder | simp only [State.disorder_mk, State.disorder_fold] | apply disorder_put | apply disorder_nil | apply disorder_filter | dsimp only | split)

theorem State.preempt_disorder (s : State) (lim : Nat) (dz : s.disorder ≤ lim) : (State.preempt s).disorder ≤ lim := by
  unfold State.preempt
  with_reducible repeat' (first | assumption | apply State.updFw_disorder | apply State.answerReq_disorder | apply State.denyReq_disorder | simp only [State.disorder_mk, State.disorder_fold] | apply disorder_put | apply disorder_nil | apply disorder_filter | dsimp only | split)

theorem State.beginWait_disorder (s : State) (m : VcpMsg) (opcode : BitVec 16) (w : Wait) (lim : Nat) (dz : s.disorder ≤ lim) : (State.beginWait s m opcode w).disorder ≤ lim := by
  unfold State.beginWait
  with_reducible repeat' (first | assumption | apply State.updSession_disorder)

theorem State.meetRequest_disorder (s : State) (m : VcpMsg) (opcode : BitVec 16) (goal : Goal) (lim : Nat) (dz : s.disorder ≤ lim) : (State.meetRequest s m opcode goal).disorder ≤ lim := by
  unfold State.meetRequest
  with_reducible repeat' (first | assumption | apply State.abortDusk_disorder | apply State.restart_disorder | apply State.enqueue_disorder | apply State.startMode_disorder | apply State.preempt_disorder | apply State.beginWait_disorder | simp only [State.disorder_mk, State.disorder_fold] | apply disorder_put | apply disorder_nil | apply disorder_filter | dsimp only | split)

theorem opModeRequest_disorder (m : VcpMsg) (s : State) (lim : Nat) (dz : s.disorder ≤ lim) : (opModeRequest m s).1.disorder ≤ lim := by
  unfold opModeRequest
  with_reducible repeat' (first | assumption | apply refuse_disorder | apply State.restart_disorder | apply State.meetRequest_disorder | simp only [State.disorder_mk, State.disorder_fold] | apply disorder_put | apply disorder_nil | apply disorder_filter | dsimp only | split)

theorem opFwActivate_disorder (m : VcpMsg) (s : State) (lim : Nat) (dz : s.disorder ≤ lim) : (opFwActivate m s).1.disorder ≤ lim := by
  unfold opFwActivate
  with_reducible repeat' (first | assumption | apply refuse_disorder | apply State.meetRequest_disorder | simp only [State.disorder_mk, State.disorder_fold] | apply disorder_put | apply disorder_nil | apply disorder_filter | dsimp only | split)

theorem opModeGet_disorder (m : VcpMsg) (s : State) (lim : Nat) (dz : s.disorder ≤ lim) : (opModeGet m s).1.disorder ≤ lim := by
  unfold opModeGet
  with_reducible repeat' (first | assumption | apply refuse_disorder | simp only [State.disorder_mk, State.disorder_fold] | apply disorder_put | apply disorder_nil | apply disorder_filter | dsimp only | split)

theorem State.autoNight_disorder (s : State) (lim : Nat) (dz : s.disorder ≤ lim) : (State.autoNight s).disorder ≤ lim := by
  unfold State.autoNight
  with_reducible repeat' (first | assumption | apply State.startNight_disorder | apply State.runQueue_disorder | simp only [State.disorder_mk, State.disorder_fold] | apply disorder_put | apply disorder_nil | apply disorder_filter | dsimp only | split)

theorem State.duskSteps_disorder (s : State) (lim : Nat) (dz : s.disorder ≤ lim) : (State.duskSteps s).disorder ≤ lim := by
  unfold State.duskSteps
  split
  · exact dz
  · split
    · exact dz
    · split
      · with_reducible repeat' (first | assumption | apply State.openTypeC_disorder | apply State.sendPrepare_disorder | apply State.runQueue_disorder | apply forAll_disorder | simp only [State.disorder_mk, State.disorder_fold] | apply disorder_put | apply disorder_nil | apply disorder_filter | dsimp only | split)
      · rename_i h
        exact State.duskStep_disorder _ _ _ _ dz _ h

theorem State.duskBound_disorder (s : State) (lim : Nat) (dz : s.disorder ≤ lim) : (State.duskBound s).disorder ≤ lim := by
  unfold State.duskBound
  with_reducible repeat' (first | assumption | apply State.abortDusk_disorder | apply State.runQueue_disorder | simp only [State.disorder_mk, State.disorder_fold] | apply disorder_put | apply disorder_nil | apply disorder_filter | dsimp only | split)

theorem State.setAnswer_disorder (s : State) (d : Fin 25) (a : PrepAnswer) (lim : Nat) (dz : s.disorder ≤ lim) : (State.setAnswer s d a).disorder ≤ lim := by
  unfold State.setAnswer
  with_reducible repeat' (first | assumption | simp only [State.disorder_mk, State.disorder_fold])

theorem State.dropEntry_disorder (s : State) (d : Fin 25) (lim : Nat) (dz : s.disorder ≤ lim) : (State.dropEntry s d).disorder ≤ lim := by
  unfold State.dropEntry
  with_reducible repeat' (first | assumption | simp only [State.disorder_mk, State.disorder_fold])

theorem State.prepareAnswer_disorder (s : State) (d : Fin 25) (defer : Bool) (lim : Nat) (dz : s.disorder ≤ lim) : (State.prepareAnswer s d defer).disorder ≤ lim := by
  unfold State.prepareAnswer
  with_reducible repeat' (first | assumption | apply State.abortDusk_disorder | apply State.runQueue_disorder | apply State.setAnswer_disorder | apply State.commitDusk_disorder | apply State.dropEntry_disorder | apply State.lowerDomain_disorder | apply forAll_disorder | simp only [State.disorder_mk, State.disorder_fold] | apply disorder_put | apply disorder_nil | apply disorder_filter | dsimp only | split | intro)

theorem State.deferExpired_disorder (s : State) (d : Fin 25) (lim : Nat) (dz : s.disorder ≤ lim) : (State.deferExpired s d).disorder ≤ lim := by
  unfold State.deferExpired
  with_reducible repeat' (first | assumption | apply State.abortDusk_disorder | apply State.runQueue_disorder | apply State.dropEntry_disorder | simp only [State.disorder_mk, State.disorder_fold] | apply disorder_put | apply disorder_nil | apply disorder_filter | dsimp only | split)

theorem State.budgetEntry_disorder (s : State) (d : Fin 25) (lim : Nat) (dz : s.disorder ≤ lim) : (State.budgetEntry s d).disorder ≤ lim := by
  unfold State.budgetEntry
  with_reducible repeat' (first | assumption | simp only [State.disorder_mk, State.disorder_fold] | apply disorder_put | apply disorder_nil | apply disorder_filter | dsimp only | split)

theorem State.workArrives_disorder (s : State) (on : Fin 25 → Bool) (lim : Nat) (dz : s.disorder ≤ lim) : (State.workArrives s on).disorder ≤ lim := by
  unfold State.workArrives
  with_reducible repeat' (first | assumption | apply State.abortDusk_disorder | apply State.runQueue_disorder | apply State.dropEntry_disorder | apply forAll_disorder | simp only [State.disorder_mk, State.disorder_fold] | apply disorder_put | apply disorder_nil | apply disorder_filter | dsimp only | split)

theorem State.exitPath_disorder (s : State) (k : Part) (lim : Nat) (dz : s.disorder ≤ lim) : (State.exitPath s k).disorder ≤ lim := by
  unfold State.exitPath
  with_reducible repeat' (first | assumption | apply State.leaveU_disorder | apply State.dawn_disorder | apply State.workArrives_disorder | simp only [State.disorder_mk, State.disorder_fold] | apply disorder_put | apply disorder_nil | apply disorder_filter | dsimp only | split)

theorem State.exitDone_disorder (s : State) (d : Fin 25) (lim : Nat) (dz : s.disorder ≤ lim) : (State.exitDone s d).disorder ≤ lim := by
  unfold State.exitDone
  with_reducible repeat' (first | assumption | apply State.riseDomain_disorder | simp only [State.disorder_mk, State.disorder_fold] | apply disorder_put | apply disorder_nil | apply disorder_filter | dsimp only | split)

theorem opLatBudgetSet_disorder (m : VcpMsg) (k : Part) (s : State) (lim : Nat) (dz : s.disorder ≤ lim) : (opLatBudgetSet m k s).1.disorder ≤ lim := by
  unfold opLatBudgetSet
  with_reducible repeat' (first | assumption | apply refuse_disorder | apply ok_disorder | apply State.updPart_disorder | apply forAll_disorder | simp only [State.disorder_mk, State.disorder_fold] | apply disorder_put | apply disorder_nil | apply disorder_filter | dsimp only | split | intro)

theorem opWakeSourcesSet_disorder (m : VcpMsg) (s : State) (lim : Nat) (dz : s.disorder ≤ lim) : (opWakeSourcesSet m s).1.disorder ≤ lim := by
  unfold opWakeSourcesSet
  with_reducible repeat' (first | assumption | apply refuse_disorder | apply ok_disorder | simp only [State.disorder_mk, State.disorder_fold] | apply disorder_put | apply disorder_nil | apply disorder_filter | dsimp only | split)

theorem State.wake_disorder (s : State) (code : Nat) (lim : Nat) (dz : s.disorder ≤ lim) : (State.wake s code).disorder ≤ lim := by
  unfold State.wake
  with_reducible repeat' (first | assumption | apply State.boot_disorder | apply State.nightWake_disorder | apply State.runQueue_disorder | apply State.workArrives_disorder | simp only [State.disorder_mk, State.disorder_fold] | apply disorder_put | apply disorder_nil | apply disorder_filter | dsimp only | split)

theorem State.midnightDischarged_disorder (s : State) (p : Port) (lim : Nat) (dz : s.disorder ≤ lim) : (State.midnightDischarged s p).disorder ≤ lim := by
  unfold State.midnightDischarged
  with_reducible repeat' (first | assumption | apply State.writeWord_disorder | apply State.dischargeOver_disorder | simp only [State.disorder_mk, State.disorder_fold] | apply disorder_put | apply disorder_nil | apply disorder_filter | dsimp only | split)

theorem State.releaseExpired_disorder (s : State) (p : Port) (lim : Nat) (dz : s.disorder ≤ lim) : (State.releaseExpired s p).disorder ≤ lim := by
  unfold State.releaseExpired
  with_reducible repeat' (first | assumption | apply State.sendHardReset_disorder | simp only [State.disorder_mk, State.disorder_fold] | apply disorder_put | apply disorder_nil | apply disorder_filter | dsimp only | split)

theorem State.causeArisen_disorder (s : State) (code : Nat) (lim : Nat) (dz : s.disorder ≤ lim) : (State.causeArisen s code).disorder ≤ lim := by
  unfold State.causeArisen
  with_reducible repeat' (first | assumption | apply State.repace_disorder | apply State.enterMode_disorder | apply State.rise_disorder | apply State.runQueue_disorder | simp only [State.disorder_mk, State.disorder_fold] | apply disorder_put | apply disorder_nil | apply disorder_filter | dsimp only | split)

theorem State.eveningOver_disorder (s : State) (lim : Nat) (dz : s.disorder ≤ lim) : (State.eveningOver s).disorder ≤ lim := by
  unfold State.eveningOver
  with_reducible repeat' (first | assumption | apply State.rise_disorder | simp only [State.disorder_mk, State.disorder_fold] | apply disorder_put | apply disorder_nil | apply disorder_filter | dsimp only | split)

theorem State.causesCleared_disorder (s : State) (thermal supply : Bool) (lim : Nat) (dz : s.disorder ≤ lim) : (State.causesCleared s thermal supply).disorder ≤ lim := by
  unfold State.causesCleared
  with_reducible repeat' (first | assumption | apply State.repace_disorder | simp only [State.disorder_mk, State.disorder_fold])

theorem State.thermalEvent_disorder (s : State) (i : Fin 16) (crossing : Byte) (lim : Nat) (dz : s.disorder ≤ lim) : (State.thermalEvent s i crossing).disorder ≤ lim := by
  unfold State.thermalEvent
  with_reducible repeat' (first | assumption | apply State.issue_disorder)

theorem State.sampleSensor_disorder (s : State) (i : Fin 16) (raw : BitVec 16) (lim : Nat) (dz : s.disorder ≤ lim) : (State.sampleSensor s i raw).disorder ≤ lim := by
  unfold State.sampleSensor
  with_reducible repeat' (first | assumption | apply State.thermalEvent_disorder | simp only [State.disorder_mk, State.disorder_fold] | apply disorder_put | apply disorder_nil | apply disorder_filter | dsimp only | split)

theorem State.sampleTemps_disorder (s : State) (l : Tab 16 (BitVec 16)) (lim : Nat) (dz : s.disorder ≤ lim) : (State.sampleTemps s l).disorder ≤ lim := by
  unfold State.sampleTemps
  with_reducible repeat' (first | assumption | apply State.causesCleared_disorder | apply State.sampleSensor_disorder | apply forAll_disorder | simp only [State.disorder_mk, State.disorder_fold] | apply disorder_put | apply disorder_nil | apply disorder_filter | dsimp only | split | intro)

theorem State.thermalEvening_disorder (s : State) (i : Fin 16) (lim : Nat) (dz : s.disorder ≤ lim) : (State.thermalEvening s i).disorder ≤ lim := by
  unfold State.thermalEvening
  with_reducible repeat' (first | assumption | apply State.detect_disorder | apply State.causeArisen_disorder | simp only [State.disorder_mk, State.disorder_fold] | apply disorder_put | apply disorder_nil | apply disorder_filter | dsimp only | split)

theorem State.thermalCritical_disorder (s : State) (i : Fin 16) (lim : Nat) (dz : s.disorder ≤ lim) : (State.thermalCritical s i).disorder ≤ lim := by
  unfold State.thermalCritical
  with_reducible repeat' (first | assumption | apply State.detect_disorder | simp only [State.disorder_mk, State.disorder_fold] | apply disorder_put | apply disorder_nil | apply disorder_filter | dsimp only | split)

theorem State.supplyWarning_disorder (s : State) (r : Fin 8) (mv : Nat) (lim : Nat) (dz : s.disorder ≤ lim) : (State.supplyWarning s r mv).disorder ≤ lim := by
  unfold State.supplyWarning
  with_reducible repeat' (first | assumption | apply State.detect_disorder | apply State.causeArisen_disorder | simp only [State.disorder_mk, State.disorder_fold] | apply disorder_put | apply disorder_nil | apply disorder_filter | dsimp only | split)

theorem State.supplyFailure_disorder (s : State) (r : Fin 8) (mv : Nat) (lim : Nat) (dz : s.disorder ≤ lim) : (State.supplyFailure s r mv).disorder ≤ lim := by
  unfold State.supplyFailure
  with_reducible repeat' (first | assumption | apply State.detect_disorder | simp only [State.disorder_mk, State.disorder_fold] | apply disorder_put | apply disorder_nil | apply disorder_filter | dsimp only | split)

theorem State.supplyRestored_disorder (s : State) (lim : Nat) (dz : s.disorder ≤ lim) : (State.supplyRestored s).disorder ≤ lim := by
  unfold State.supplyRestored
  with_reducible repeat' (first | assumption | apply State.causesCleared_disorder | simp only [State.disorder_mk, State.disorder_fold])

theorem State.avsEvaluate_disorder (s : State) (lim : Nat) (dz : s.disorder ≤ lim) : (State.avsEvaluate s).disorder ≤ lim := by
  unfold State.avsEvaluate
  with_reducible repeat' (first | assumption | apply State.emit_disorder | simp only [State.disorder_mk, State.disorder_fold] | apply disorder_put | apply disorder_nil | apply disorder_filter | dsimp only | split)

theorem State.resumeArrival_disorder (s : State) (lim : Nat) (dz : s.disorder ≤ lim) : (State.resumeArrival s).disorder ≤ lim := by
  unfold State.resumeArrival
  with_reducible repeat' (first | assumption | apply State.rise_disorder | apply State.runQueue_disorder | simp only [State.disorder_mk, State.disorder_fold] | apply disorder_put | apply disorder_nil | apply disorder_filter | dsimp only | split)

theorem State.avsComplete_disorder (s : State) (voltage current temp status : BitVec 16) (lim : Nat) (dz : s.disorder ≤ lim) : (State.avsComplete s voltage current temp status).disorder ≤ lim := by
  unfold State.avsComplete
  with_reducible repeat' (first | assumption | apply State.repace_disorder | apply State.resumeArrival_disorder | simp only [State.disorder_mk, State.disorder_fold] | apply disorder_put | apply disorder_nil | apply disorder_filter | dsimp only | split)

theorem State.avsTimeout_disorder (s : State) (lim : Nat) (dz : s.disorder ≤ lim) : (State.avsTimeout s).disorder ≤ lim := by
  unfold State.avsTimeout
  with_reducible repeat' (first | assumption | apply State.enterMode_disorder | apply State.avsFail_disorder | apply State.okReq_disorder | apply State.runQueue_disorder | apply State.causeArisen_disorder | simp only [State.disorder_mk, State.disorder_fold] | apply disorder_put | apply disorder_nil | apply disorder_filter | dsimp only | split)

theorem State.avsHoldoffOver_disorder (s : State) (lim : Nat) (dz : s.disorder ≤ lim) : (State.avsHoldoffOver s).disorder ≤ lim := by
  unfold State.avsHoldoffOver
  with_reducible repeat' (first | assumption | apply State.resumeArrival_disorder | simp only [State.disorder_mk, State.disorder_fold])

theorem opAvsGet_disorder (m : VcpMsg) (s : State) (lim : Nat) (dz : s.disorder ≤ lim) : (opAvsGet m s).1.disorder ≤ lim := by
  unfold opAvsGet
  with_reducible repeat' (first | assumption | apply refuse_disorder | simp only [State.disorder_mk, State.disorder_fold] | apply disorder_put | apply disorder_nil | apply disorder_filter | dsimp only | split)

theorem opGetTemps_disorder (m : VcpMsg) (s : State) (lim : Nat) (dz : s.disorder ≤ lim) : (opGetTemps m s).1.disorder ≤ lim := by
  unfold opGetTemps
  with_reducible repeat' (first | assumption | apply refuse_disorder | simp only [State.disorder_mk, State.disorder_fold] | apply disorder_put | apply disorder_nil | apply disorder_filter | dsimp only | split)

theorem State.toCrystal_disorder (s : State) (lim : Nat) (dz : s.disorder ≤ lim) : (State.toCrystal s).disorder ≤ lim := by
  unfold State.toCrystal
  with_reducible repeat' (first | assumption | simp only [State.disorder_mk, State.disorder_fold] | apply disorder_put | apply disorder_nil | apply disorder_filter | dsimp only | split)

theorem State.calibrate_disorder (s : State) (lim : Nat) (dz : s.disorder ≤ lim) : (State.calibrate s).disorder ≤ lim := by
  unfold State.calibrate
  with_reducible repeat' (first | assumption | simp only [State.disorder_mk, State.disorder_fold] | apply disorder_put | apply disorder_nil | apply disorder_filter | dsimp only | split)

theorem State.refclkLoss_disorder (s : State) (lim : Nat) (dz : s.disorder ≤ lim) : (State.refclkLoss s).disorder ≤ lim := by
  unfold State.refclkLoss
  with_reducible repeat' (first | assumption | apply State.detect_disorder | simp only [State.disorder_mk, State.disorder_fold] | apply disorder_put | apply disorder_nil | apply disorder_filter | dsimp only | split)

theorem State.wrstAssert_disorder (s : State) (lim : Nat) (dz : s.disorder ≤ lim) : (State.wrstAssert s).disorder ≤ lim := by
  unfold State.wrstAssert
  with_reducible repeat' (first | assumption | apply State.dawn_disorder | simp only [State.disorder_mk, State.disorder_fold] | apply disorder_put | apply disorder_nil | apply disorder_filter | dsimp only | split)

theorem State.wrstRelease_disorder (s : State) (b : BoardIn) (lim : Nat) (dz : s.disorder ≤ lim) : (State.wrstRelease s b).disorder ≤ lim := by
  unfold State.wrstRelease
  with_reducible repeat' (first | assumption | apply State.dawn_disorder | apply State.strapAndBoot_disorder | simp only [State.disorder_mk, State.disorder_fold] | apply disorder_put | apply disorder_nil | apply disorder_filter | dsimp only | split)

theorem opFwGet_disorder (m : VcpMsg) (s : State) (lim : Nat) (dz : s.disorder ≤ lim) : (opFwGet m s).1.disorder ≤ lim := by
  unfold opFwGet
  with_reducible repeat' (first | assumption | apply refuse_disorder | simp only [State.disorder_mk, State.disorder_fold] | apply disorder_put | apply disorder_nil | apply disorder_filter | dsimp only | split)

theorem opFwStageBegin_disorder (m : VcpMsg) (s : State) (lim : Nat) (dz : s.disorder ≤ lim) : (opFwStageBegin m s).1.disorder ≤ lim := by
  unfold opFwStageBegin
  with_reducible repeat' (first | assumption | apply refuse_disorder | apply State.updFw_disorder | apply State.abandonStaging_disorder | simp only [State.disorder_mk, State.disorder_fold] | apply disorder_put | apply disorder_nil | apply disorder_filter | dsimp only | split)

theorem opFwStageData_disorder (m : VcpMsg) (s : State) (lim : Nat) (dz : s.disorder ≤ lim) : (opFwStageData m s).1.disorder ≤ lim := by
  unfold opFwStageData
  with_reducible repeat' (first | assumption | apply refuse_disorder | apply State.updFw_disorder | simp only [State.disorder_mk, State.disorder_fold] | apply disorder_put | apply disorder_nil | apply disorder_filter | dsimp only | split)

theorem opFwStageCommit_disorder (m : VcpMsg) (s : State) (lim : Nat) (dz : s.disorder ≤ lim) : (opFwStageCommit m s).1.disorder ≤ lim := by
  unfold opFwStageCommit
  with_reducible repeat' (first | assumption | apply State.answer_disorder | apply refuse_disorder | apply State.updFw_disorder | simp only [State.disorder_mk, State.disorder_fold] | apply disorder_put | apply disorder_nil | apply disorder_filter | dsimp only | split)

theorem State.sendResult_disorder (s : State) (session : Option Sess) (cseq : BitVec 32) (result : Byte) (more : Bool) (lim : Nat) (dz : s.disorder ≤ lim) : (State.sendResult s session cseq result more).disorder ≤ lim := by
  unfold State.sendResult
  with_reducible repeat' (first | assumption | apply State.updSession_disorder | apply State.respond_disorder | apply forAll_disorder | simp only [State.disorder_mk, State.disorder_fold] | apply disorder_put | apply disorder_nil | apply disorder_filter | dsimp only | split | intro)

theorem State.leaveMaintenance_disorder (s : State) (detail : Nat) (lim : Nat) (dz : s.disorder ≤ lim) : (State.leaveMaintenance s detail).disorder ≤ lim := by
  unfold State.leaveMaintenance
  with_reducible repeat' (first | assumption | apply State.goBack_disorder | simp only [State.disorder_mk, State.disorder_fold] | apply disorder_put | apply disorder_nil | apply disorder_filter | dsimp only | split)

theorem State.rolledBack_disorder (s : State) (a : Activation) (failed keep : Fin 2) (lim : Nat) (dz : s.disorder ≤ lim) : (State.rolledBack s a failed keep).disorder ≤ lim := by
  unfold State.rolledBack
  with_reducible repeat' (first | assumption | apply State.detect_disorder | apply State.updFw_disorder | apply State.pauseEnd_disorder | apply State.runQueue_disorder | apply State.sendResult_disorder | apply State.leaveMaintenance_disorder)

theorem State.loadFailed_disorder (s : State) (lim : Nat) (dz : s.disorder ≤ lim) : (State.loadFailed s).disorder ≤ lim := by
  unfold State.loadFailed
  with_reducible repeat' (first | assumption | apply State.rolledBack_disorder | simp only [State.disorder_mk, State.disorder_fold] | apply disorder_put | apply disorder_nil | apply disorder_filter | dsimp only | split)

theorem State.activationEnd_disorder (s : State) (lim : Nat) (dz : s.disorder ≤ lim) : (State.activationEnd s).disorder ≤ lim := by
  unfold State.activationEnd
  with_reducible repeat' (first | assumption | apply State.updFw_disorder | apply State.pauseEnd_disorder | apply State.runQueue_disorder | apply State.sendResult_disorder | apply State.leaveMaintenance_disorder | apply State.rolledBack_disorder | simp only [State.disorder_mk, State.disorder_fold] | apply disorder_put | apply disorder_nil | apply disorder_filter | dsimp only | split)

theorem State.trialFail_disorder (s : State) (dead : Bool) (lim : Nat) (dz : s.disorder ≤ lim) : (State.trialFail s dead).disorder ≤ lim := by
  unfold State.trialFail
  with_reducible repeat' (first | assumption | apply State.updFw_disorder | apply State.startDusk_disorder | apply State.enterMaintenance_disorder | simp only [State.disorder_mk, State.disorder_fold] | apply disorder_put | apply disorder_nil | apply disorder_filter | dsimp only | split)

theorem State.portLinkRetrain_disorder (s : State) (d : Fin 2) (lim : Nat) (dz : s.disorder ≤ lim) : (State.portLinkRetrain s d).disorder ≤ lim := by
  unfold State.portLinkRetrain
  with_reducible repeat' (first | assumption | simp only [State.disorder_mk, State.disorder_fold])

theorem State.linkBack_disorder (s : State) (p : Port) (lim : Nat) (dz : s.disorder ≤ lim) : (State.linkBack s p).disorder ≤ lim := by
  unfold State.linkBack
  with_reducible repeat' (first | assumption | apply State.issueProbe_disorder | apply State.suspendOrder_disorder | apply State.busWakes_disorder | apply forAll_disorder | simp only [State.disorder_mk, State.disorder_fold] | apply disorder_put | apply disorder_nil | apply disorder_filter | dsimp only | split | intro)

theorem State.portLinkReturn_disorder (s : State) (d : Fin 2) (lim : Nat) (dz : s.disorder ≤ lim) : (State.portLinkReturn s d).disorder ≤ lim := by
  unfold State.portLinkReturn
  with_reducible repeat' (first | assumption | apply forAll_disorder | apply State.linkBack_disorder | apply forAll_disorder | simp only [State.disorder_mk, State.disorder_fold] | apply disorder_put | apply disorder_nil | apply disorder_filter | dsimp only | split | intro)

theorem State.poisonDie_disorder (s : State) (d : Fin 2) (lim : Nat) (dz : s.disorder ≤ lim) : (State.poisonDie s d).disorder ≤ lim := by
  unfold State.poisonDie
  with_reducible repeat' (first | assumption | apply forAll_disorder | apply State.poisonLink_disorder | apply State.poisonEp0_disorder | apply forAll_disorder | simp only [State.disorder_mk, State.disorder_fold] | apply disorder_put | apply disorder_nil | apply disorder_filter | dsimp only | split | intro)

theorem State.portLinkFail_disorder (s : State) (d : Fin 2) (lim : Nat) (dz : s.disorder ≤ lim) : (State.portLinkFail s d).disorder ≤ lim := by
  unfold State.portLinkFail
  with_reducible repeat' (first | assumption | apply State.detect_disorder | apply State.poisonDie_disorder | simp only [State.disorder_mk, State.disorder_fold] | apply disorder_put | apply disorder_nil | apply disorder_filter | dsimp only | split)

theorem State.powerLinkTimeout_disorder (s : State) (d : Fin 2) (lim : Nat) (dz : s.disorder ≤ lim) : (State.powerLinkTimeout s d).disorder ≤ lim := by
  unfold State.powerLinkTimeout
  with_reducible repeat' (first | assumption | apply State.detect_disorder | simp only [State.disorder_mk, State.disorder_fold] | apply disorder_put | apply disorder_nil | apply disorder_filter | dsimp only | split)

theorem State.powerLinkSilence_disorder (s : State) (d : Fin 2) (lim : Nat) (dz : s.disorder ≤ lim) : (State.powerLinkSilence s d).disorder ≤ lim := by
  unfold State.powerLinkSilence
  with_reducible repeat' (first | assumption | apply State.updPd_disorder | apply forAll_disorder | simp only [State.disorder_mk, State.disorder_fold] | apply disorder_put | apply disorder_nil | apply disorder_filter | dsimp only | split | intro)

theorem State.powerLinkResume_disorder (s : State) (d : Fin 2) (lim : Nat) (dz : s.disorder ≤ lim) : (State.powerLinkResume s d).disorder ≤ lim := by
  unfold State.powerLinkResume
  with_reducible repeat' (first | assumption | apply forAll_disorder | apply State.issue_disorder | apply State.updSlot_disorder | apply State.slotLearned_disorder | apply State.setRp_disorder | apply State.setVconn_disorder | apply forAll_disorder | simp only [State.disorder_mk, State.disorder_fold] | apply disorder_put | apply disorder_nil | apply disorder_filter | dsimp only | split | intro)

theorem State.alarmCause_disorder (s : State) (i : Fin 6) (lim : Nat) (dz : s.disorder ≤ lim) : (State.alarmCause s i).disorder ≤ lim := by
  unfold State.alarmCause
  with_reducible repeat' (first | assumption | apply State.causeArisen_disorder | simp only [State.disorder_mk, State.disorder_fold] | apply disorder_put | apply disorder_nil | apply disorder_filter | dsimp only | split)

theorem State.alarmChange_disorder (s : State) (i : Fin 6) (on : Bool) (lim : Nat) (dz : s.disorder ≤ lim) : (State.alarmChange s i on).disorder ≤ lim := by
  unfold State.alarmChange
  with_reducible repeat' (first | assumption | apply State.detect_disorder | apply State.causesCleared_disorder | apply State.alarmCause_disorder | simp only [State.disorder_mk, State.disorder_fold] | apply disorder_put | apply disorder_nil | apply disorder_filter | dsimp only | split)

theorem State.alarmLineFault_disorder (s : State) (i : Fin 6) (level : Bool) (lim : Nat) (dz : s.disorder ≤ lim) : (State.alarmLineFault s i level).disorder ≤ lim := by
  unfold State.alarmLineFault
  with_reducible repeat' (first | assumption | apply State.detect_disorder | apply State.alarmCause_disorder | simp only [State.disorder_mk, State.disorder_fold] | apply disorder_put | apply disorder_nil | apply disorder_filter | dsimp only | split)

theorem State.updFault_disorder (s : State) (f : FaultState → FaultState) (lim : Nat) (dz : s.disorder ≤ lim) : (State.updFault s f).disorder ≤ lim := by
  unfold State.updFault
  with_reducible repeat' (first | assumption | simp only [State.disorder_mk, State.disorder_fold])

theorem State.storeRecord_disorder (s : State) (d : Detection) (sev : Severity) (shadowed escalated : Bool) (lim : Nat) (dz : s.disorder ≤ lim) : (State.storeRecord s d sev shadowed escalated).1.disorder ≤ lim := by
  unfold State.storeRecord
  with_reducible repeat' (first | assumption | apply State.tick_disorder | apply State.issue_disorder | apply State.timestamp_disorder | apply State.updFault_disorder | simp only [State.disorder_mk, State.disorder_fold] | apply disorder_put | apply disorder_nil | apply disorder_filter | dsimp only | split)

theorem State.overflow_disorder (s : State) (lim : Nat) (dz : s.disorder ≤ lim) : (State.overflow s).disorder ≤ lim := by
  unfold State.overflow
  with_reducible repeat' (first | assumption | apply State.updFault_disorder | simp only [State.disorder_mk, State.disorder_fold] | apply disorder_put | apply disorder_nil | apply disorder_filter | dsimp only | split)

theorem State.pulse_disorder (s : State) (sev : Severity) (lim : Nat) (dz : s.disorder ≤ lim) : (State.pulse s sev).disorder ≤ lim := by
  unfold State.pulse
  with_reducible repeat' (first | assumption | apply State.updFault_disorder | simp only [State.disorder_mk, State.disorder_fold] | apply disorder_put | apply disorder_nil | apply disorder_filter | dsimp only | split)

theorem State.pulseEnd_disorder (s : State) (lim : Nat) (dz : s.disorder ≤ lim) : (State.pulseEnd s).disorder ≤ lim := by
  unfold State.pulseEnd
  with_reducible repeat' (first | assumption | apply State.updFault_disorder)

theorem State.castShadow_disorder (s : State) (r : Reaction) (lim : Nat) (dz : s.disorder ≤ lim) : (State.castShadow s r).disorder ≤ lim := by
  unfold State.castShadow
  with_reducible repeat' (first | assumption | apply State.updFault_disorder | simp only [State.disorder_mk, State.disorder_fold] | apply disorder_put | apply disorder_nil | apply disorder_filter | dsimp only | split)

theorem State.containPort_disorder (s : State) (p : Port) (lim : Nat) (dz : s.disorder ≤ lim) : (State.containPort s p).disorder ≤ lim := by
  unfold State.containPort
  with_reducible repeat' (first | assumption | apply State.updPort_disorder | apply State.drainThen_disorder | simp only [State.disorder_mk, State.disorder_fold] | apply disorder_put | apply disorder_nil | apply disorder_filter | dsimp only | split)

theorem State.powerOffPort_disorder (s : State) (p : Port) (lim : Nat) (dz : s.disorder ≤ lim) : (State.powerOffPort s p).disorder ≤ lim := by
  unfold State.powerOffPort
  with_reducible repeat' (first | assumption | apply State.updVbus_disorder | apply State.updPort_disorder | apply State.drainThen_disorder | simp only [State.disorder_mk, State.disorder_fold] | apply disorder_put | apply disorder_nil | apply disorder_filter | dsimp only | split)

theorem State.resetLift_disorder (s : State) (k : Part) (lim : Nat) (dz : s.disorder ≤ lim) : (State.resetLift s k).disorder ≤ lim := by
  unfold State.resetLift
  with_reducible repeat' (first | assumption | apply State.drainThen_disorder | apply forAll_disorder | simp only [State.disorder_mk, State.disorder_fold] | apply disorder_put | apply disorder_nil | apply disorder_filter | dsimp only | split | intro)

theorem State.resetPde_disorder (s : State) (k : Slot) (lim : Nat) (dz : s.disorder ≤ lim) : (State.resetPde s k).disorder ≤ lim := by
  unfold State.resetPde
  with_reducible repeat' (first | assumption | apply State.flushPd_disorder | apply forAll_disorder | apply State.protocolReset_disorder | apply State.sendSoftReset_disorder | apply State.updUp_disorder | apply forAll_disorder | simp only [State.disorder_mk, State.disorder_fold] | apply disorder_put | apply disorder_nil | apply disorder_filter | dsimp only | split | intro)

theorem State.resetPortDie_disorder (s : State) (d : Fin 2) (lim : Nat) (dz : s.disorder ≤ lim) : (State.resetPortDie s d).disorder ≤ lim := by
  unfold State.resetPortDie
  with_reducible repeat' (first | assumption | apply State.riseDomain_disorder | apply State.poisonDie_disorder | apply State.containPort_disorder | apply forAll_disorder | simp only [State.disorder_mk, State.disorder_fold])

theorem State.closeByReaction_disorder (s : State) (b : Bank) (lim : Nat) (dz : s.disorder ≤ lim) : (State.closeByReaction s b).disorder ≤ lim := by
  unfold State.closeByReaction
  with_reducible repeat' (first | assumption | apply State.closeBank_disorder | apply State.updFault_disorder | simp only [State.disorder_mk, State.disorder_fold] | apply disorder_put | apply disorder_nil | apply disorder_filter | dsimp only | split)

theorem State.holdPart_disorder (s : State) (k : Part) (lim : Nat) (dz : s.disorder ≤ lim) : (State.holdPart s k).disorder ≤ lim := by
  unfold State.holdPart
  with_reducible repeat' (first | assumption | apply State.updPart_disorder | apply State.withdraw_disorder | simp only [State.disorder_mk, State.disorder_fold] | apply disorder_put | apply disorder_nil | apply disorder_filter | dsimp only | split)

theorem State.reactOn_disorder (s : State) (r : Reaction) (lim : Nat) (dz : s.disorder ≤ lim) : (State.reactOn s r).disorder ≤ lim := by
  unfold State.reactOn
  split
  case h_9 =>
    split
    · rename_i h; exact State.retire_disorder _ _ _ _ dz _ h
    · with_reducible repeat' (first | assumption | apply State.updFw_disorder | apply State.slotOff_disorder | apply State.containPort_disorder | apply State.powerOffPort_disorder | apply State.resetLift_disorder | apply State.resetPde_disorder | apply State.resetPortDie_disorder | apply State.closeByReaction_disorder)
  all_goals with_reducible repeat' (first | assumption | apply State.updFw_disorder | apply State.slotOff_disorder | apply State.containPort_disorder | apply State.powerOffPort_disorder | apply State.resetLift_disorder | apply State.resetPde_disorder | apply State.resetPortDie_disorder | apply State.closeByReaction_disorder | apply State.holdPart_disorder | apply forAll_disorder | simp only [State.disorder_mk, State.disorder_fold])

theorem State.startReaction_disorder (s : State) (r : Reaction) (lim : Nat) (dz : s.disorder ≤ lim) : (State.startReaction s r).disorder ≤ lim := by
  unfold State.startReaction
  with_reducible repeat' (first | assumption | apply State.updFault_disorder | apply State.castShadow_disorder | apply State.reactOn_disorder | simp only [State.disorder_mk, State.disorder_fold] | apply disorder_put | apply disorder_nil | apply disorder_filter | dsimp only | split)

theorem State.restartMgt_disorder (s : State) (lim : Nat) (dz : s.disorder ≤ lim) : (State.restartMgt s).disorder ≤ lim := by
  unfold State.restartMgt
  with_reducible repeat' (first | assumption | apply State.updFault_disorder | apply State.startReaction_disorder | simp only [State.disorder_mk, State.disorder_fold] | apply disorder_put | apply disorder_nil | apply disorder_filter | dsimp only | split)

theorem State.safeHoldPart_disorder (s : State) (k : Part) (lim : Nat) (dz : s.disorder ≤ lim) : (State.safeHoldPart s k).disorder ≤ lim := by
  unfold State.safeHoldPart
  with_reducible repeat' (first | assumption | apply State.updPart_disorder | apply State.withdrawNow_disorder | simp only [State.disorder_mk, State.disorder_fold] | apply disorder_put | apply disorder_nil | apply disorder_filter | dsimp only | split)

theorem State.safeHoldPd_disorder (s : State) (p : Port) (lim : Nat) (dz : s.disorder ≤ lim) : (State.safeHoldPd s p).disorder ≤ lim := by
  unfold State.safeHoldPd
  with_reducible repeat' (first | assumption | apply State.sendHardReset_disorder | apply State.protocolReset_disorder | apply forAll_disorder | simp only [State.disorder_mk, State.disorder_fold] | apply disorder_put | apply disorder_nil | apply disorder_filter | dsimp only | split | intro)

theorem State.dropRequests_disorder (s : State) (lim : Nat) (dz : s.disorder ≤ lim) : (State.dropRequests s).disorder ≤ lim := by
  unfold State.dropRequests
  with_reducible repeat' (first | assumption | apply State.updFw_disorder | apply State.preempt_disorder | apply State.denyReq_disorder | simp only [State.disorder_mk, State.disorder_fold] | apply disorder_put | apply disorder_nil | apply disorder_filter | dsimp only | split)

theorem State.toSafeHold_disorder (s : State) (source : Nat) (lim : Nat) (dz : s.disorder ≤ lim) : (State.toSafeHold s source).disorder ≤ lim := by
  unfold State.toSafeHold
  with_reducible repeat' (first | assumption | apply State.enterMode_disorder | apply State.pauseEnd_disorder | apply State.safeHoldPd_disorder | apply State.dropRequests_disorder | apply forAll_disorder | simp only [State.disorder_mk, State.disorder_fold] | apply disorder_put | apply disorder_nil | apply disorder_filter | dsimp only | split)

theorem State.resetMgt_disorder (s : State) (lim : Nat) (dz : s.disorder ≤ lim) : (State.resetMgt s).disorder ≤ lim := by
  unfold State.resetMgt
  with_reducible repeat' (first | assumption | apply State.updFw_disorder | apply State.updFault_disorder)

theorem State.fatal_disorder (s : State) (source kind : Nat) (lim : Nat) (dz : s.disorder ≤ lim) : (State.fatal s source kind).disorder ≤ lim := by
  unfold State.fatal
  with_reducible repeat' (first | assumption | apply State.thermalEvent_disorder | apply State.safeHoldPart_disorder | apply State.toSafeHold_disorder | apply State.resetMgt_disorder | apply forAll_disorder | simp only [State.disorder_mk, State.disorder_fold] | apply disorder_put | apply disorder_nil | apply disorder_filter | dsimp only | split)

theorem State.spendPoint_disorder (s : State) (d : Detection) (lim : Nat) (dz : s.disorder ≤ lim) : (State.spendPoint s d).disorder ≤ lim := by
  unfold State.spendPoint
  with_reducible repeat' (first | assumption | apply State.updFault_disorder)

theorem State.react_disorder (s : State) (d : Detection) (sev : Severity) (lim : Nat) (dz : s.disorder ≤ lim) : (State.react s d sev).disorder ≤ lim := by
  unfold State.react
  with_reducible repeat' (first | assumption | apply State.trialFail_disorder | apply State.startReaction_disorder | apply State.restartMgt_disorder | apply State.fatal_disorder | simp only [State.disorder_mk, State.disorder_fold] | apply disorder_put | apply disorder_nil | apply disorder_filter | dsimp only | split)

theorem State.stopMgt_disorder (s : State) (d : Detection) (sev : Severity) (lim : Nat) (dz : s.disorder ≤ lim) : (State.stopMgt s d sev).disorder ≤ lim := by
  unfold State.stopMgt
  with_reducible repeat' (first | assumption | apply State.updFw_disorder | apply State.fatal_disorder | simp only [State.disorder_mk, State.disorder_fold] | apply disorder_put | apply disorder_nil | apply disorder_filter | dsimp only | split)

theorem State.collectOne_disorder (s : State) (d : Detection) (lim : Nat) (dz : s.disorder ≤ lim) : (State.collectOne s d).disorder ≤ lim := by
  unfold State.collectOne
  with_reducible repeat' (first | assumption | apply State.updFault_disorder | apply State.storeRecord_disorder | apply State.overflow_disorder | apply State.pulse_disorder | apply State.spendPoint_disorder | apply State.react_disorder | apply State.stopMgt_disorder | simp only [State.disorder_mk, State.disorder_fold] | apply disorder_put | apply disorder_nil | apply disorder_filter | dsimp only | split)

theorem collectLoop_disorder (n : Nat) (s : State) (lim : Nat) (dz : s.disorder ≤ lim) : (collectLoop n s).disorder ≤ lim := by
  induction n generalizing s with
  | zero => exact dz
  | succ n ih =>
    unfold collectLoop
    split
    · exact dz
    · apply ih
      with_reducible repeat' (first | assumption | apply State.updFault_disorder | apply State.collectOne_disorder)

theorem State.collect_disorder (s : State) (lim : Nat) (dz : s.disorder ≤ lim) : (State.collect s).disorder ≤ lim := by
  unfold State.collect
  with_reducible repeat' (first | assumption | apply collectLoop_disorder)

theorem State.portReturned_disorder (s : State) (p : Port) (lim : Nat) (dz : s.disorder ≤ lim) : (State.portReturned s p).disorder ≤ lim := by
  unfold State.portReturned
  with_reducible repeat' (first | assumption | apply State.updPort_disorder | apply State.drainThen_disorder | simp only [State.disorder_mk, State.disorder_fold] | apply disorder_put | apply disorder_nil | apply disorder_filter | dsimp only | split)

theorem State.holdReturn_disorder (s : State) (k : Part) (aged : Nat) (lim : Nat) (dz : s.disorder ≤ lim) : (State.holdReturn s k aged).disorder ≤ lim := by
  unfold State.holdReturn
  with_reducible repeat' (first | assumption | apply State.updPart_disorder | apply State.evalPresent_disorder | simp only [State.disorder_mk, State.disorder_fold] | apply disorder_put | apply disorder_nil | apply disorder_filter | dsimp only | split)

theorem State.mgtBack_disorder (s : State) (intact : Bool) (lim : Nat) (dz : s.disorder ≤ lim) : (State.mgtBack s intact).disorder ≤ lim := by
  unfold State.mgtBack
  with_reducible repeat' (first | assumption | apply State.updFw_disorder | apply State.closeSession_disorder | apply State.pauseEnd_disorder | apply State.updFault_disorder | apply forAll_disorder | simp only [State.disorder_mk, State.disorder_fold] | apply disorder_put | apply disorder_nil | apply disorder_filter | dsimp only | split)

theorem State.reactionDone_disorder (s : State) (r : Reaction) (aged : Nat) (intact : Bool) (lim : Nat) (dz : s.disorder ≤ lim) : (State.reactionDone s r aged intact).disorder ≤ lim := by
  unfold State.reactionDone
  with_reducible repeat' (first | assumption | apply State.portLinkReturn_disorder | apply State.powerLinkResume_disorder | apply State.updFault_disorder | apply State.portReturned_disorder | apply State.holdReturn_disorder | apply State.mgtBack_disorder | apply forAll_disorder | simp only [State.disorder_mk, State.disorder_fold] | apply disorder_put | apply disorder_nil | apply disorder_filter | dsimp only | split)

theorem State.shadowEnd_disorder (s : State) (r : Reaction) (lim : Nat) (dz : s.disorder ≤ lim) : (State.shadowEnd s r).disorder ≤ lim := by
  unfold State.shadowEnd
  with_reducible repeat' (first | assumption | apply State.updFault_disorder)

theorem State.safeHoldServed_disorder (s : State) (lim : Nat) (dz : s.disorder ≤ lim) : (State.safeHoldServed s).disorder ≤ lim := by
  unfold State.safeHoldServed
  with_reducible repeat' (first | assumption | apply State.pauseEnd_disorder | apply State.activationEnd_disorder | apply State.updFault_disorder | simp only [State.disorder_mk, State.disorder_fold] | apply disorder_put | apply disorder_nil | apply disorder_filter | dsimp only | split)

theorem State.watchdogExpiry_disorder (s : State) (lim : Nat) (dz : s.disorder ≤ lim) : (State.watchdogExpiry s).disorder ≤ lim := by
  unfold State.watchdogExpiry
  with_reducible repeat' (first | assumption | apply State.report_disorder | simp only [State.disorder_mk, State.disorder_fold] | apply disorder_put | apply disorder_nil | apply disorder_filter | dsimp only | split)

theorem opDiagLoopback_disorder (m : VcpMsg) (t : Target) (s : State) (lim : Nat) (dz : s.disorder ≤ lim) : (opDiagLoopback m t s).1.disorder ≤ lim := by
  unfold opDiagLoopback
  with_reducible repeat' (first | assumption | apply State.tick_disorder | apply refuse_disorder | simp only [State.disorder_mk, State.disorder_fold] | apply disorder_put | apply disorder_nil | apply disorder_filter | dsimp only | split)

theorem State.testOn_disorder (s : State) (t : Target) (pattern : Byte) (lim : Nat) (dz : s.disorder ≤ lim) : (State.testOn s t pattern).disorder ≤ lim := by
  unfold State.testOn
  with_reducible repeat' (first | assumption | apply State.emit_disorder | simp only [State.disorder_mk, State.disorder_fold] | apply disorder_put | apply disorder_nil | apply disorder_filter | dsimp only | split)

theorem opDiagPhyTest_disorder (m : VcpMsg) (t : Target) (s : State) (lim : Nat) (dz : s.disorder ≤ lim) : (opDiagPhyTest m t s).1.disorder ≤ lim := by
  unfold opDiagPhyTest
  with_reducible repeat' (first | assumption | apply refuse_disorder | apply ok_disorder | apply State.testOn_disorder | simp only [State.disorder_mk, State.disorder_fold] | apply disorder_put | apply disorder_nil | apply disorder_filter | dsimp only | split)

theorem opDiagEye_disorder (m : VcpMsg) (t : Target) (s : State) (lim : Nat) (dz : s.disorder ≤ lim) : (opDiagEye m t s).1.disorder ≤ lim := by
  unfold opDiagEye
  with_reducible repeat' (first | assumption | apply State.tick_disorder | apply refuse_disorder | simp only [State.disorder_mk, State.disorder_fold] | apply disorder_put | apply disorder_nil | apply disorder_filter | dsimp only | split)

end Sys2Proof.Machine
end

