-- ==== Sys2Proof/Laws/OrderRows.lean ====
section
/-! SUPPORT. Order lemmas: the VCP, the transports and what every command row is built on keep the code words in canonical order. -/

set_option Elab.async false

namespace Sys2Proof.Machine

open Sys2Proof

theorem opFaultRead_disorder (m : VcpMsg) (s : State) (lim : Nat) (dz : s.disorder ≤ lim) : (opFaultRead m s).1.disorder ≤ lim := by
  unfold opFaultRead
  with_reducible repeat' (first | assumption | apply refuse_disorder | simp only [State.disorder_mk, State.disorder_fold] | apply disorder_put | apply disorder_nil | apply disorder_filter | dsimp only | split)

theorem opFaultAck_disorder (m : VcpMsg) (s : State) (lim : Nat) (dz : s.disorder ≤ lim) : (opFaultAck m s).1.disorder ≤ lim := by
  unfold opFaultAck
  with_reducible repeat' (first | assumption | apply refuse_disorder | apply State.updFault_disorder | apply State.overflow_disorder | simp only [State.disorder_mk, State.disorder_fold] | apply disorder_put | apply disorder_nil | apply disorder_filter | dsimp only | split)

theorem opFaultSetSeverity_disorder (m : VcpMsg) (s : State) (lim : Nat) (dz : s.disorder ≤ lim) : (opFaultSetSeverity m s).1.disorder ≤ lim := by
  unfold opFaultSetSeverity
  split
  · rename_i h
    have := State.setSeverity_disorder _ _ _ _ h dz
    with_reducible repeat' (first | assumption | apply refuse_disorder | apply ok_disorder)
  · with_reducible repeat' (first | assumption | apply refuse_disorder)

theorem opFaultpinControl_disorder (m : VcpMsg) (s : State) (lim : Nat) (dz : s.disorder ≤ lim) : (opFaultpinControl m s).1.disorder ≤ lim := by
  unfold opFaultpinControl
  with_reducible repeat' (first | assumption | apply refuse_disorder | apply State.updFault_disorder | simp only [State.disorder_mk, State.disorder_fold] | apply disorder_put | apply disorder_nil | apply disorder_filter | dsimp only | split)

theorem State.forced_disorder (s : State) (source : Nat) (f : State → State) (hf : ∀ s (n : Nat), s.disorder ≤ n → (f s).disorder ≤ n) (lim : Nat) (dz : s.disorder ≤ lim) : (State.forced s source f).disorder ≤ lim := by
  unfold State.forced
  with_reducible repeat' (first | assumption | apply hf | apply State.updFault_disorder)

theorem State.forcedReport_disorder (s : State) (source kind info : Nat) (lim : Nat) (dz : s.disorder ≤ lim) : (State.forcedReport s source kind info).disorder ≤ lim := by
  unfold State.forcedReport
  with_reducible repeat' (first | assumption | apply State.report_disorder)

theorem State.forceTrip_disorder (s : State) (k : Slot) (kind : Nat) (lim : Nat) (dz : s.disorder ≤ lim) : (State.forceTrip s k kind).disorder ≤ lim := by
  unfold State.forceTrip
  with_reducible repeat' (first | assumption | apply State.updSlot_disorder | apply State.fastTrip_disorder | apply State.breakerTrip_disorder | apply State.rampStall_disorder | apply State.pgLost_disorder | apply State.vinExit_disorder | apply State.seatLow_disorder | apply State.seatHigh_disorder | simp only [State.disorder_mk, State.disorder_fold] | apply disorder_put | apply disorder_nil | apply disorder_filter | dsimp only | split)

theorem State.forceChain_disorder (s : State) (k : Slot) (frames : Nat) (lim : Nat) (dz : s.disorder ≤ lim) : (State.forceChain s k frames).disorder ≤ lim := by
  unfold State.forceChain
  with_reducible repeat' (first | assumption | apply State.judgeFrame_disorder | apply forAll_disorder | simp only [State.disorder_mk, State.disorder_fold] | apply disorder_put | apply disorder_nil | apply disorder_filter | dsimp only | split | intro)

theorem State.forceWire_disorder (s : State) (k : Slot) (v : Nat) (lim : Nat) (dz : s.disorder ≤ lim) : (State.forceWire s k v).disorder ≤ lim := by
  unfold State.forceWire
  with_reducible repeat' (first | assumption | apply forAll_disorder | apply State.judgePort_disorder | apply forAll_disorder | simp only [State.disorder_mk, State.disorder_fold] | apply disorder_put | apply disorder_nil | apply disorder_filter | dsimp only | split | intro)

theorem State.forceFlags_disorder (s : State) (p : Port) (v : Nat) (lim : Nat) (dz : s.disorder ≤ lim) : (State.forceFlags s p v).disorder ≤ lim := by
  unfold State.forceFlags
  with_reducible repeat' (first | assumption | apply State.detect_disorder | apply State.updVbus_disorder | apply State.holdPort_disorder | apply State.pgoodLostTimeout_disorder | simp only [State.disorder_mk, State.disorder_fold] | apply disorder_put | apply disorder_nil | apply disorder_filter | dsimp only | split)

theorem State.forceRail_disorder (s : State) (r : Fin 8) (mv : Nat) (lim : Nat) (dz : s.disorder ≤ lim) : (State.forceRail s r mv).disorder ≤ lim := by
  unfold State.forceRail
  with_reducible repeat' (first | assumption | apply State.supplyWarning_disorder | apply State.supplyFailure_disorder | simp only [State.disorder_mk, State.disorder_fold] | apply disorder_put | apply disorder_nil | apply disorder_filter | dsimp only | split)

theorem State.forceLink_disorder (s : State) (source us : Nat) (lim : Nat) (dz : s.disorder ≤ lim) : (State.forceLink s source us).disorder ≤ lim := by
  unfold State.forceLink
  with_reducible repeat' (first | assumption | apply State.portLinkRetrain_disorder | apply State.portLinkFail_disorder | apply State.powerLinkTimeout_disorder | simp only [State.disorder_mk, State.disorder_fold] | apply disorder_put | apply disorder_nil | apply disorder_filter | dsimp only | split)

theorem State.forceAlarm_disorder (s : State) (i : Fin 6) (line : Nat) (lim : Nat) (dz : s.disorder ≤ lim) : (State.forceAlarm s i line).disorder ≤ lim := by
  unfold State.forceAlarm
  with_reducible repeat' (first | assumption | apply State.alarmLineFault_disorder | simp only [State.disorder_mk, State.disorder_fold])

theorem State.actNow_disorder (s : State) (source kind v : Nat) (lim : Nat) (dz : s.disorder ≤ lim) :
    ∀ t, State.actNow s source kind v = some t → t.disorder ≤ lim := by
  intro t h
  unfold State.actNow at h
  dsimp only at h
  repeat' (split at h)
  all_goals simp only [Option.some.injEq, reduceCtorEq] at h
  all_goals (subst h; with_reducible repeat' (first | assumption | apply State.breakerTrip_disorder | apply State.babble_disorder | apply State.raiseTtBucket_disorder | apply State.refclkLoss_disorder | apply State.forced_disorder | apply State.forcedReport_disorder | apply State.forceTrip_disorder | apply State.forceChain_disorder | apply State.forceWire_disorder | apply State.forceAlarm_disorder | simp only [State.disorder_mk, State.disorder_fold] | apply disorder_put | apply disorder_nil | apply disorder_filter | dsimp only | split | intro))

theorem State.beginForce_disorder (s : State) (source v : Nat) (lim : Nat) (dz : s.disorder ≤ lim) : (State.beginForce s source v).disorder ≤ lim := by
  unfold State.beginForce
  with_reducible repeat' (first | assumption | apply State.sampleSensor_disorder | apply State.forced_disorder | apply State.forceFlags_disorder | apply State.forceRail_disorder | apply State.forceLink_disorder | simp only [State.disorder_mk, State.disorder_fold] | apply disorder_put | apply disorder_nil | apply disorder_filter | dsimp only | split | intro)

theorem opFaultInject_disorder (m : VcpMsg) (s : State) (lim : Nat) (dz : s.disorder ≤ lim) : (opFaultInject m s).1.disorder ≤ lim := by
  unfold opFaultInject
  dsimp only
  repeat' split
  all_goals first
    | exact State.actNow_disorder _ _ _ _ _ dz _ ‹_›
    | with_reducible repeat' (first | assumption | apply refuse_disorder | apply ok_disorder | apply State.updFault_disorder | apply State.beginForce_disorder)

theorem State.endForce_disorder (s : State) (source : Nat) (lim : Nat) (dz : s.disorder ≤ lim) : (State.endForce s source).disorder ≤ lim := by
  unfold State.endForce
  with_reducible repeat' (first | assumption | apply State.causesCleared_disorder | apply State.portLinkReturn_disorder | apply State.powerLinkResume_disorder | simp only [State.disorder_mk, State.disorder_fold] | apply disorder_put | apply disorder_nil | apply disorder_filter | dsimp only | split)

theorem State.injectionEnds_disorder (s : State) (source : BitVec 12) (kind : Byte) (lim : Nat) (dz : s.disorder ≤ lim) : (State.injectionEnds s source kind).disorder ≤ lim := by
  unfold State.injectionEnds
  with_reducible repeat' (first | assumption | apply State.spend_disorder | apply State.thermalCritical_disorder | apply State.forced_disorder | apply State.endForce_disorder | simp only [State.disorder_mk, State.disorder_fold] | apply disorder_put | apply disorder_nil | apply disorder_filter | dsimp only | split | intro)

theorem State.injectionLapses_disorder (s : State) (source : BitVec 12) (kind : Byte) (lim : Nat) (dz : s.disorder ≤ lim) : (State.injectionLapses s source kind).disorder ≤ lim := by
  unfold State.injectionLapses
  with_reducible repeat' (first | assumption | apply State.updFault_disorder)

theorem State.losePacket_disorder (s : State) (p : Port) (a src : Byte) (lim : Nat) (dz : s.disorder ≤ lim) : (State.losePacket s p a src).disorder ≤ lim := by
  unfold State.losePacket
  with_reducible repeat' (first | assumption | apply State.poisonCtx_disorder | apply State.poisonEp0_disorder | simp only [State.disorder_mk, State.disorder_fold] | apply disorder_put | apply disorder_nil | apply disorder_filter | dsimp only | split)

theorem State.inherent_disorder (s : State) (source : Nat) (kind : Nat) (info : Nat) (place : Option (Port × Byte)) (lim : Nat) (dz : s.disorder ≤ lim) : (State.inherent s source kind info place).disorder ≤ lim := by
  unfold State.inherent
  with_reducible repeat' (first | assumption | apply State.losePacket_disorder | apply State.updPort_disorder | apply State.flushPd_disorder | apply forAll_disorder | simp only [State.disorder_mk, State.disorder_fold] | apply disorder_put | apply disorder_nil | apply disorder_filter | dsimp only | split | intro)

theorem State.detectorReports_disorder (s : State) (source : BitVec 12) (kind : Byte) (info : BitVec 32) (inj : Bool) (place : Option (Port × Byte)) (lim : Nat) (dz : s.disorder ≤ lim) : (State.detectorReports s source kind info inj place).disorder ≤ lim := by
  unfold State.detectorReports
  with_reducible repeat' (first | assumption | apply State.report_disorder | apply State.babble_disorder | apply State.forced_disorder | apply State.losePacket_disorder | apply State.inherent_disorder | simp only [State.disorder_mk, State.disorder_fold] | apply disorder_put | apply disorder_nil | apply disorder_filter | dsimp only | split | intro)

theorem State.detectorMessage_disorder (s : State) (source : BitVec 12) (kind : Byte) (info : BitVec 32) (inj : Bool) (place : Option (Port × Byte)) (lim : Nat) (dz : s.disorder ≤ lim) : (State.detectorMessage s source kind info inj place).disorder ≤ lim := by
  unfold State.detectorMessage
  with_reducible repeat' (first | assumption | apply State.spend_disorder | apply State.detectorReports_disorder | simp only [State.disorder_mk, State.disorder_fold] | apply disorder_put | apply disorder_nil | apply disorder_filter | dsimp only | split)

theorem opHelloGrant_disorder (m : VcpMsg) (k : Part) (s : State) (lim : Nat) (dz : s.disorder ≤ lim) : (opHelloGrant m k s).1.disorder ≤ lim := by
  unfold opHelloGrant
  with_reducible repeat' (first | assumption | apply State.updSession_disorder | apply refuse_disorder | apply ok_disorder | simp only [State.disorder_mk, State.disorder_fold] | apply disorder_put | apply disorder_nil | apply disorder_filter | dsimp only | split)

theorem opResync_disorder (m : VcpMsg) (s : State) (lim : Nat) (dz : s.disorder ≤ lim) : (opResync m s).1.disorder ≤ lim := by
  unfold opResync
  with_reducible repeat' (first | assumption | apply State.updSession_disorder | apply refuse_disorder | simp only [State.disorder_mk, State.disorder_fold] | apply disorder_put | apply disorder_nil | apply disorder_filter | dsimp only | split)

theorem opEventAck_disorder (m : VcpMsg) (s : State) (lim : Nat) (dz : s.disorder ≤ lim) : (opEventAck m s).1.disorder ≤ lim := by
  unfold opEventAck
  with_reducible repeat' (first | assumption | apply State.updSession_disorder | apply refuse_disorder | apply ok_disorder | simp only [State.disorder_mk, State.disorder_fold] | apply disorder_put | apply disorder_nil | apply disorder_filter | dsimp only | split)

theorem opClose_disorder (m : VcpMsg) (s : State) (lim : Nat) (dz : s.disorder ≤ lim) : (opClose m s).1.disorder ≤ lim := by
  unfold opClose
  with_reducible repeat' (first | assumption | apply State.respond_disorder | apply refuse_disorder | apply State.closeSession_disorder | simp only [State.disorder_mk, State.disorder_fold] | apply disorder_put | apply disorder_nil | apply disorder_filter | dsimp only | split)

theorem opGetInfo_disorder (m : VcpMsg) (s : State) (lim : Nat) (dz : s.disorder ≤ lim) : (opGetInfo m s).1.disorder ≤ lim := by
  unfold opGetInfo
  with_reducible repeat' (first | assumption | apply refuse_disorder | simp only [State.disorder_mk, State.disorder_fold] | apply disorder_put | apply disorder_nil | apply disorder_filter | dsimp only | split)

theorem opGetStatus_disorder (m : VcpMsg) (s : State) (lim : Nat) (dz : s.disorder ≤ lim) : (opGetStatus m s).1.disorder ≤ lim := by
  unfold opGetStatus
  with_reducible repeat' (first | assumption | apply State.tick_disorder | apply refuse_disorder | simp only [State.disorder_mk, State.disorder_fold] | apply disorder_put | apply disorder_nil | apply disorder_filter | dsimp only | split)

theorem runPpcGet_disorder (m : VcpMsg) (t : Target) (s : State) (lim : Nat) (dz : s.disorder ≤ lim) : (runPpcGet m t s).1.disorder ≤ lim := by
  unfold runPpcGet
  with_reducible repeat' (first | assumption | apply refuse_disorder | apply opPpcGet_disorder | simp only [State.disorder_mk, State.disorder_fold] | apply disorder_put | apply disorder_nil | apply disorder_filter | dsimp only | split)

theorem State.finishCmd_disorder (s : State) (c : Cmd) (stored : Bool) (r : Rsp) (lim : Nat) (dz : s.disorder ≤ lim) : (State.finishCmd s c stored r).disorder ≤ lim := by
  unfold State.finishCmd
  with_reducible repeat' (first | assumption | apply State.updSession_disorder | apply State.respond_disorder | simp only [State.disorder_mk, State.disorder_fold] | apply disorder_put | apply disorder_nil | apply disorder_filter | dsimp only | split)

theorem State.takeReply_disorder (s : State) (c : Cmd) (stored : Bool) (r : Reply) (lim : Nat) (dz : s.disorder ≤ lim) : (s.takeReply c stored r).disorder ≤ lim := by
  unfold State.takeReply
  with_reducible repeat' (first | assumption | apply State.updSession_disorder | apply State.respond_disorder | apply State.finishCmd_disorder | apply forAll_disorder | simp only [State.disorder_mk, State.disorder_fold] | apply disorder_put | apply disorder_nil | apply disorder_filter | dsimp only | split | intro)

theorem State.interim_disorder (s : State) (c : Cmd) (lim : Nat) (dz : s.disorder ≤ lim) : (State.interim s c).disorder ≤ lim := by
  unfold State.interim
  with_reducible repeat' (first | assumption | apply State.respond_disorder | simp only [State.disorder_mk, State.disorder_fold] | apply disorder_put | apply disorder_nil | apply disorder_filter | dsimp only | split)

theorem State.wakeFor_disorder (s : State) (op : Nat) (t : Target) (lim : Nat) (dz : s.disorder ≤ lim) : (State.wakeFor s op t).disorder ≤ lim := by
  unfold State.wakeFor
  with_reducible repeat' (first | assumption | apply State.riseDomain_disorder | apply State.workArrives_disorder | simp only [State.disorder_mk, State.disorder_fold] | apply disorder_put | apply disorder_nil | apply disorder_filter | dsimp only | split)

def CmdRow.ordered (r : CmdRow) : Prop := ∀ m t s (lim : Nat), s.disorder ≤ lim → (r.run m t s).1.disorder ≤ lim

theorem onDevice_ordered (op : Nat) (sc : CmdScope) (f) (h : ∀ m s (lim : Nat), s.disorder ≤ lim → (f m s).1.disorder ≤ lim) : (onDevice op sc f).ordered :=
  fun m _ s => h m s

theorem onPort_ordered (op : Nat) (f) (h : ∀ m p s (lim : Nat), s.disorder ≤ lim → (f m p s).1.disorder ≤ lim) : (onPort op f).ordered := by
  intro m t s lim dz
  cases t <;> first | exact dz | exact h _ _ _ _ dz

theorem onPart_ordered (op : Nat) (f) (h : ∀ m p s (lim : Nat), s.disorder ≤ lim → (f m p s).1.disorder ≤ lim) : (onPart op f).ordered := by
  intro m t s lim dz
  cases t <;> first | exact dz | exact h _ _ _ _ dz

theorem onSlot_ordered (op : Nat) (sc : CmdScope) (f) (h : ∀ m p s (lim : Nat), s.disorder ≤ lim → (f m p s).1.disorder ≤ lim) : (onSlot op sc f).ordered := by
  intro m t s lim dz
  cases t <;> first | exact dz | exact h _ _ _ _ dz

theorem onBank_ordered (op : Nat) (sc : CmdScope) (f) (h : ∀ m p s (lim : Nat), s.disorder ≤ lim → (f m p s).1.disorder ≤ lim) : (onBank op sc f).ordered := by
  intro m t s lim dz
  cases t <;> first | exact dz | exact h _ _ _ _ dz

theorem cmdTable_ordered : ∀ r ∈ cmdTable, r.ordered := by
  simp only [cmdTable, sessionCmds, portCmds, liftPdCmds, powerCmds, deviceCmds, List.cons_append, List.nil_append, List.forall_mem_cons]
  repeat' (first
    | refine And.intro (onDevice_ordered _ _ _ ?_) ?_
    | refine And.intro (onPart_ordered _ _ ?_) ?_
    | refine And.intro (onPort_ordered _ _ ?_) ?_
    | refine And.intro (onSlot_ordered _ _ _ ?_) ?_
    | refine And.intro (onBank_ordered _ _ _ ?_) ?_
    | refine And.intro ?_ ?_)
  all_goals try (intro r hr; exact absurd hr (by simp))
  all_goals first
    | intro m t s lim dz
    | intro m s lim dz
  all_goals try (cases t <;> simp only [onPort, runPpcGet])
  all_goals with_reducible repeat' (first | assumption | apply refuse_disorder | apply opPdSetOffer_disorder | apply opPdSend_disorder | apply opPdSetAutoresp_disorder | apply opPdHardReset_disorder | apply opCcSetRp_disorder | apply opSbuSetRoute_disorder | apply opPdSetTimers_disorder | apply opSlotEnable_disorder | apply opSlotClearLatch_disorder | apply opSlotSetLimits_disorder | apply opSlotGet_disorder | apply opPpcGet_disorder | apply opPartGet_disorder | apply opPartAssignPort_disorder | apply opPartSetLimits_disorder | apply opPartConnect_disorder | apply opPartDisconnect_disorder | apply opPortGet_disorder | apply opPortSetMode_disorder | apply opPortReset_disorder | apply opPortQuench_disorder | apply opPortRelease_disorder | apply opPortSetBc_disorder | apply opVbusSet_disorder | apply opLiftGetPolicy_disorder | apply opLiftSetClasslist_disorder | apply opLiftSetEpBoundary_disorder | apply opLiftGetEpStats_disorder | apply opLiftClearPoison_disorder | apply opPbmGetStats_disorder | apply opPbmSetScrub_disorder | apply opPbmRetire_disorder | apply opPbmFlipmask_disorder | apply opModeRequest_disorder | apply opFwActivate_disorder | apply opModeGet_disorder | apply opLatBudgetSet_disorder | apply opWakeSourcesSet_disorder | apply opAvsGet_disorder | apply opGetTemps_disorder | apply opFwGet_disorder | apply opFwStageBegin_disorder | apply opFwStageData_disorder | apply opFwStageCommit_disorder | apply opDiagLoopback_disorder | apply opDiagPhyTest_disorder | apply opDiagEye_disorder | apply opFaultRead_disorder | apply opFaultAck_disorder | apply opFaultSetSeverity_disorder | apply opFaultpinControl_disorder | apply opFaultInject_disorder | apply opHelloGrant_disorder | apply opResync_disorder | apply opEventAck_disorder | apply opClose_disorder | apply opGetInfo_disorder | apply opGetStatus_disorder)

theorem State.runOp_disorder (s : State) (c : Cmd) (lim : Nat) (dz : s.disorder ≤ lim) : (State.runOp s c).1.disorder ≤ lim := by
  unfold State.runOp
  split
  · rename_i r t hr ht
    have hk : r.ordered := cmdTable_ordered r (List.mem_of_find?_eq_some hr)
    dsimp only
    split
    · split
      · exact hk _ _ _ _ dz
      · exact dz
    · exact hk _ _ _ _ (State.interim_disorder _ _ _ (State.wakeFor_disorder _ _ _ _ dz))
  · exact dz

theorem State.execute_disorder (s : State) (c : Cmd) (stored : Bool) (lim : Nat) (dz : s.disorder ≤ lim) : (State.execute s c stored).disorder ≤ lim := by
  unfold State.execute
  with_reducible repeat' (first | assumption | apply State.finishCmd_disorder | apply State.runOp_disorder | apply State.takeReply_disorder | simp only [State.disorder_mk, State.disorder_fold] | apply disorder_put | apply disorder_nil | apply disorder_filter | dsimp only | split)

theorem State.consume_disorder (s : State) (c : Cmd) (lim : Nat) (dz : s.disorder ≤ lim) : (State.consume s c).disorder ≤ lim := by
  unfold State.consume
  with_reducible repeat' (first | assumption | apply State.updSession_disorder)

theorem State.hello_disorder (s : State) (c : Cmd) (lim : Nat) (dz : s.disorder ≤ lim) : (State.hello s c).disorder ≤ lim := by
  unfold State.hello
  with_reducible repeat' (first | assumption | apply State.updSession_disorder | apply State.closeSession_disorder | apply State.finishCmd_disorder | apply State.interim_disorder | apply State.consume_disorder | simp only [State.disorder_mk, State.disorder_fold] | apply disorder_put | apply disorder_nil | apply disorder_filter | dsimp only | split)

theorem State.runCmd_disorder (s : State) (c : Cmd) (lim : Nat) (dz : s.disorder ≤ lim) : (State.runCmd s c).disorder ≤ lim := by
  unfold State.runCmd
  with_reducible repeat' (first | assumption | apply State.updSession_disorder | apply State.respond_disorder | apply State.finishCmd_disorder | apply State.execute_disorder | apply State.consume_disorder | apply State.hello_disorder | simp only [State.disorder_mk, State.disorder_fold] | apply disorder_put | apply disorder_nil | apply disorder_filter | dsimp only | split)

theorem State.arrive_disorder (s : State) (opcode : BitVec 16) (m : VcpMsg) (bad : Option Byte) (lim : Nat) (dz : s.disorder ≤ lim) : (State.arrive s opcode m bad).disorder ≤ lim := by
  unfold State.arrive
  with_reducible repeat' (first | assumption | apply State.updSession_disorder | simp only [State.disorder_mk, State.disorder_fold])

theorem State.mfPass_disorder (s : State) (k : Part) (b : MfBuffer) (bytes : List Byte) (lim : Nat) (dz : s.disorder ≤ lim) : (State.mfPass s k b bytes).1.disorder ≤ lim := by
  unfold State.mfPass
  with_reducible repeat' (first | assumption | apply passPackets_disorder | apply forAll_disorder | simp only [State.disorder_mk, State.disorder_fold] | apply disorder_put | apply disorder_nil | apply disorder_filter | dsimp only | split | intro)

theorem State.mfBulkOut_disorder (s : State) (k : Part) (b : List Byte) (lim : Nat) (dz : s.disorder ≤ lim) : (State.mfBulkOut s k b).disorder ≤ lim := by
  unfold State.mfBulkOut
  with_reducible repeat' (first | assumption | apply State.emit_disorder | apply State.mfPass_disorder | apply State.bulkOut_disorder | apply State.arrive_disorder | apply forAll_disorder | simp only [State.disorder_mk, State.disorder_fold] | apply disorder_put | apply disorder_nil | apply disorder_filter | dsimp only | split | intro)

theorem State.mfControlOut_disorder (s : State) (k : Part) (b : List Byte) (lim : Nat) (dz : s.disorder ≤ lim) : (State.mfControlOut s k b).disorder ≤ lim := by
  unfold State.mfControlOut
  with_reducible repeat' (first | assumption | apply State.ctlError_disorder | apply State.mfPass_disorder | apply State.bulkOut_disorder | apply State.arrive_disorder | apply State.emit_disorder | apply forAll_disorder | simp only [State.disorder_mk, State.disorder_fold] | apply disorder_put | apply disorder_nil | apply disorder_filter | dsimp only | split | intro)

theorem State.mfLastResponse_disorder (s : State) (k : Part) (len : Nat) (lim : Nat) (dz : s.disorder ≤ lim) : (State.mfLastResponse s k len).disorder ≤ lim := by
  unfold State.mfLastResponse
  with_reducible repeat' (first | assumption | apply State.mfPass_disorder | apply State.emits_disorder | apply State.ctlError_disorder | apply forAll_disorder | simp only [State.disorder_mk, State.disorder_fold] | apply disorder_put | apply disorder_nil | apply disorder_filter | dsimp only | split | intro)

theorem State.mfTakeRsp_disorder (s : State) (k : Part) (lim : Nat) (dz : s.disorder ≤ lim) : (State.mfTakeRsp s k).disorder ≤ lim := by
  unfold State.mfTakeRsp
  with_reducible repeat' (first | assumption | apply State.updSession_disorder | apply State.mfPass_disorder | apply State.bulkIn_disorder | apply State.emit_disorder | apply forAll_disorder | simp only [State.disorder_mk, State.disorder_fold] | apply disorder_put | apply disorder_nil | apply disorder_filter | dsimp only | split | intro)

theorem State.mfTakeEvent_disorder (s : State) (k : Part) (lim : Nat) (dz : s.disorder ≤ lim) : (State.mfTakeEvent s k).disorder ≤ lim := by
  unfold State.mfTakeEvent
  with_reducible repeat' (first | assumption | apply State.updSession_disorder | apply State.mfPass_disorder | apply State.emit_disorder | apply forAll_disorder | simp only [State.disorder_mk, State.disorder_fold] | apply disorder_put | apply disorder_nil | apply disorder_filter | dsimp only | split | intro)

theorem State.mfTakeSerial_disorder (s : State) (k : Part) (u : Fin 6) (ep : Byte) (lim : Nat) (dz : s.disorder ≤ lim) : (State.mfTakeSerial s k u ep).disorder ≤ lim := by
  unfold State.mfTakeSerial
  with_reducible repeat' (first | assumption | apply State.updMf_disorder | apply State.emit_disorder | apply forAll_disorder | simp only [State.disorder_mk, State.disorder_fold] | apply disorder_put | apply disorder_nil | apply disorder_filter | dsimp only | split | intro)

theorem State.mfIn_disorder (s : State) (k : Part) (ep : Byte) (lim : Nat) (dz : s.disorder ≤ lim) : (State.mfIn s k ep).disorder ≤ lim := by
  unfold State.mfIn
  with_reducible repeat' (first | assumption | apply State.emit_disorder | apply State.mfTakeRsp_disorder | apply State.mfTakeEvent_disorder | apply State.mfTakeSerial_disorder | apply forAll_disorder | simp only [State.disorder_mk, State.disorder_fold] | apply disorder_put | apply disorder_nil | apply disorder_filter | dsimp only | split | intro)

theorem State.updMbox_disorder (s : State) (m : Mbox) (f : Mailbox → Mailbox) (lim : Nat) (dz : s.disorder ≤ lim) : (State.updMbox s m f).disorder ≤ lim := by
  unfold State.updMbox
  with_reducible repeat' (first | assumption | simp only [State.disorder_mk, State.disorder_fold])

theorem State.oobWriteByte_disorder (s : State) (bus : OobBus) (a : Nat) (b : Byte) (lim : Nat) (dz : s.disorder ≤ lim) : (State.oobWriteByte s bus a b).disorder ≤ lim := by
  unfold State.oobWriteByte
  with_reducible repeat' (first | assumption | apply State.updMbox_disorder | simp only [State.disorder_mk, State.disorder_fold] | apply disorder_put | apply disorder_nil | apply disorder_filter | dsimp only | split)

theorem oobWriteBytes_disorder (l : List Byte) (bus : OobBus) (a : Nat) (s : State) (lim : Nat) (dz : s.disorder ≤ lim) : (oobWriteBytes l bus a s).disorder ≤ lim := by
  induction l generalizing a s with
  | nil => exact dz
  | cons b l ih =>
    unfold oobWriteBytes
    apply ih
    with_reducible repeat' (first | assumption | apply State.oobWriteByte_disorder)

theorem State.blockRead_disorder (s : State) (n : Nat) (lim : Nat) (dz : s.disorder ≤ lim) : (State.blockRead s n).disorder ≤ lim := by
  unfold State.blockRead
  with_reducible repeat' (first | assumption | apply State.emit_disorder | apply forAll_disorder | simp only [State.disorder_mk, State.disorder_fold] | apply disorder_put | apply disorder_nil | apply disorder_filter | dsimp only | split | intro)

theorem State.oobWrite_disorder (s : State) (w : OobWrite) (l : List Byte) (lim : Nat) (dz : s.disorder ≤ lim) : (State.oobWrite s w l).disorder ≤ lim := by
  unfold State.oobWrite
  with_reducible repeat' (first | assumption | apply oobWriteBytes_disorder | apply State.blockRead_disorder | apply forAll_disorder | simp only [State.disorder_mk, State.disorder_fold] | apply disorder_put | apply disorder_nil | apply disorder_filter | dsimp only | split | intro)

theorem State.ringDoorbell_disorder (s : State) (m : Mbox) (lim : Nat) (dz : s.disorder ≤ lim) : (State.ringDoorbell s m).disorder ≤ lim := by
  unfold State.ringDoorbell
  with_reducible repeat' (first | assumption | apply State.wake_disorder | apply State.updMbox_disorder | simp only [State.disorder_mk, State.disorder_fold] | apply disorder_put | apply disorder_nil | apply disorder_filter | dsimp only | split)

theorem State.writeDoorbell_disorder (s : State) (bus : OobBus) (mask : BitVec 3) (lim : Nat) (dz : s.disorder ≤ lim) : (State.writeDoorbell s bus mask).disorder ≤ lim := by
  unfold State.writeDoorbell
  with_reducible repeat' (first | assumption | apply State.ringDoorbell_disorder | apply forAll_disorder)

theorem State.rspDone_disorder (s : State) (m : Mbox) (lim : Nat) (dz : s.disorder ≤ lim) : (State.rspDone s m).disorder ≤ lim := by
  unfold State.rspDone
  with_reducible repeat' (first | assumption | apply State.fillRsp_disorder | apply State.updMbox_disorder | simp only [State.disorder_mk, State.disorder_fold] | apply disorder_put | apply disorder_nil | apply disorder_filter | dsimp only | split)

theorem State.evtDone_disorder (s : State) (m : Mbox) (lim : Nat) (dz : s.disorder ≤ lim) : (State.evtDone s m).disorder ≤ lim := by
  unfold State.evtDone
  with_reducible repeat' (first | assumption | apply State.fillEvt_disorder | apply State.updMbox_disorder | simp only [State.disorder_mk, State.disorder_fold] | apply disorder_put | apply disorder_nil | apply disorder_filter | dsimp only | split)

theorem State.crcErrClear_disorder (s : State) (m : Mbox) (lim : Nat) (dz : s.disorder ≤ lim) : (State.crcErrClear s m).disorder ≤ lim := by
  unfold State.crcErrClear
  with_reducible repeat' (first | assumption | apply State.updMbox_disorder | simp only [State.disorder_mk, State.disorder_fold] | apply disorder_put | apply disorder_nil | apply disorder_filter | dsimp only | split)

theorem State.takeMailbox_disorder (s : State) (m : Mbox) (lim : Nat) (dz : s.disorder ≤ lim) : (State.takeMailbox s m).disorder ≤ lim := by
  unfold State.takeMailbox
  with_reducible repeat' (first | assumption | apply State.arrive_disorder | apply State.updMbox_disorder | simp only [State.disorder_mk, State.disorder_fold] | apply disorder_put | apply disorder_nil | apply disorder_filter | dsimp only | split)

theorem State.takeRepeats_disorder (s : State) (lim : Nat) (dz : s.disorder ≤ lim) : (State.takeRepeats s).disorder ≤ lim := by
  unfold State.takeRepeats
  with_reducible repeat' (first | assumption | simp only [State.disorder_mk, State.disorder_fold] | apply disorder_put | apply disorder_nil | apply disorder_filter | dsimp only | split)

theorem pumpLoop_disorder (n : Nat) (s : State) (lim : Nat) (dz : s.disorder ≤ lim) : (pumpLoop n s).disorder ≤ lim := by
  induction n generalizing s with
  | zero => exact dz
  | succ n ih =>
    unfold pumpLoop
    split
    · exact dz
    · split
      · apply ih
        with_reducible repeat' (first | assumption | apply State.collect_disorder | apply State.runCmd_disorder | apply State.takeMailbox_disorder)
      · dsimp only
        split
        · apply ih
          with_reducible repeat' (first | assumption | apply State.collect_disorder | apply State.runCmd_disorder | apply State.takeMailbox_disorder | apply State.takeRepeats_disorder)
        · with_reducible repeat' (first | assumption | apply State.collect_disorder | apply State.runCmd_disorder | apply State.takeMailbox_disorder | apply State.takeRepeats_disorder)

theorem State.wakeHosts_disorder (s before : State) (lim : Nat) (dz : s.disorder ≤ lim) : (State.wakeHosts s before).disorder ≤ lim := by
  unfold State.wakeHosts
  with_reducible repeat' (first | assumption | apply forAll_disorder | apply State.mfWake_disorder | apply forAll_disorder | simp only [State.disorder_mk, State.disorder_fold] | apply disorder_put | apply disorder_nil | apply disorder_filter | dsimp only | split | intro)

theorem State.endWith_disorder (n : Nat) (s before : State) (lim : Nat) (dz : s.disorder ≤ lim) : (State.endWith n s before).disorder ≤ lim := by
  unfold State.endWith
  with_reducible repeat' (first | assumption | apply State.collect_disorder | apply State.wakeHosts_disorder | apply pumpLoop_disorder)

theorem State.finish_disorder (s before : State) (lim : Nat) (dz : s.disorder ≤ lim) : (State.finish s before).disorder ≤ lim := by
  unfold State.finish
  with_reducible repeat' (first | assumption | apply State.endWith_disorder)

theorem State.submit_disorder (s : State) (opcode : BitVec 16) (m : VcpMsg) (lim : Nat) (dz : s.disorder ≤ lim) : (State.submit s opcode m).disorder ≤ lim := by
  unfold State.submit
  with_reducible repeat' (first | assumption | apply State.wake_disorder | apply State.arrive_disorder | simp only [State.disorder_mk, State.disorder_fold] | apply disorder_put | apply disorder_nil | apply disorder_filter | dsimp only | split)

theorem State.redo_disorder (s : State) (lim : Nat) (dz : s.disorder ≤ lim) : (State.redo s).disorder ≤ lim := by
  unfold State.redo
  with_reducible repeat' (first | assumption | apply State.updSession_disorder | apply State.runOp_disorder | apply State.takeReply_disorder | apply forAll_disorder | simp only [State.disorder_mk, State.disorder_fold] | apply disorder_put | apply disorder_nil | apply disorder_filter | dsimp only | split | intro)

theorem State.reactionEnds_disorder (s : State) (r : Reaction) (aged : Nat) (intact : Bool) (lim : Nat) (dz : s.disorder ≤ lim) : (State.reactionEnds s r aged intact).disorder ≤ lim := by
  unfold State.reactionEnds
  with_reducible repeat' (first | assumption | apply State.reactionDone_disorder | apply State.redo_disorder | simp only [State.disorder_mk, State.disorder_fold] | apply disorder_put | apply disorder_nil | apply disorder_filter | dsimp only | split)

theorem State.serveJob_disorder (s : State) (k : Part) (j : UpJob) (lim : Nat) (dz : s.disorder ≤ lim) : (State.serveJob s k j).1.disorder ≤ lim := by
  unfold State.serveJob
  with_reducible repeat' (first | assumption | apply State.mfIn_disorder | apply State.ackTp_disorder | apply sendReady_disorder | apply forAll_disorder | simp only [State.disorder_mk, State.disorder_fold] | apply disorder_put | apply disorder_nil | apply disorder_filter | dsimp only | split | intro)

theorem serveUp_disorder  (a0 : Nat) (a1 : Part) (a2 : Nat) (a3 : List UpJob) (a4 : List (Nat × UpRequest)) (a5 : State) (lim : Nat) (dz : a5.disorder ≤ lim) : (serveUp a0 a1 a2 a3 a4 a5).disorder ≤ lim := by
  induction a0 generalizing a2 a3 a4 a5 with
  | zero => exact dz
  | succ n ih =>
    unfold serveUp
    dsimp only
    split
    · exact ih _ _ _ _ (State.serveJob_disorder _ _ _ _ dz)
    · split
      · exact dz
      · exact ih _ _ _ _ dz

theorem State.ackRequest_disorder (s : State) (p : Port) (a : Byte) (t : AckTp) (lim : Nat) (dz : s.disorder ≤ lim) : (State.ackRequest s p a t).disorder ≤ lim := by
  unfold State.ackRequest
  with_reducible repeat' (first | assumption | apply serveUp_disorder | apply forAll_disorder | simp only [State.disorder_mk, State.disorder_fold] | apply disorder_put | apply disorder_nil | apply disorder_filter | dsimp only | split | intro)

theorem ifAon_disorder (f : State → State) (s : State) (hf : ∀ s (n : Nat), s.disorder ≤ n → (f s).disorder ≤ n) (lim : Nat) (dz : s.disorder ≤ lim) : (ifAon f s).disorder ≤ lim := by
  unfold ifAon
  with_reducible repeat' (first | assumption | apply hf | simp only [State.disorder_mk, State.disorder_fold] | apply disorder_put | apply disorder_nil | apply disorder_filter | dsimp only | split)

theorem ifPorst_disorder (f : State → State) (s : State) (hf : ∀ s (n : Nat), s.disorder ≤ n → (f s).disorder ≤ n) (lim : Nat) (dz : s.disorder ≤ lim) : (ifPorst f s).disorder ≤ lim := by
  unfold ifPorst
  exact disorder_ite (hf _ _ dz) dz

theorem ifUp_disorder (f : State → State) (s : State) (hf : ∀ s (n : Nat), s.disorder ≤ n → (f s).disorder ≤ n) (lim : Nat) (dz : s.disorder ≤ lim) : (ifUp f s).disorder ≤ lim := by
  unfold ifUp
  with_reducible repeat' (first | assumption | apply hf | simp only [State.disorder_mk, State.disorder_fold] | apply disorder_put | apply disorder_nil | apply disorder_filter | dsimp only | split)

theorem State.afterWake_disorder (s : State) (code : Nat) (f : State → State) (hf : ∀ s (n : Nat), s.disorder ≤ n → (f s).disorder ≤ n) (lim : Nat) (dz : s.disorder ≤ lim) : (State.afterWake s code f).disorder ≤ lim := by
  have h := State.wake_disorder s code lim dz
  unfold State.afterWake
  exact disorder_ite h (hf _ _ h)

theorem State.hostWakes_disorder (s : State) (k : Part) (f : State → State) (hf : ∀ s (n : Nat), s.disorder ≤ n → (f s).disorder ≤ n) (lim : Nat) (dz : s.disorder ≤ lim) : (State.hostWakes s k f).disorder ≤ lim := by
  unfold State.hostWakes
  exact disorder_ite (State.afterWake_disorder _ _ _ hf _ dz) (hf _ _ dz)

theorem State.deviceResumes_disorder (s : State) (k : Part) (f : State → State) (hf : ∀ s (n : Nat), s.disorder ≤ n → (f s).disorder ≤ n) (lim : Nat) (dz : s.disorder ≤ lim) : (State.deviceResumes s k f).disorder ≤ lim := by
  unfold State.deviceResumes
  exact disorder_ite (State.afterWake_disorder _ _ _ hf _ dz) (hf _ _ dz)

theorem State.deviceWakes_disorder (s : State) (p : Port) (f : State → State) (hf : ∀ s (n : Nat), s.disorder ≤ n → (f s).disorder ≤ n) (lim : Nat) (dz : s.disorder ≤ lim) : (State.deviceWakes s p f).disorder ≤ lim := by
  unfold State.deviceWakes
  exact disorder_ite (State.afterWake_disorder _ _ _ hf _ dz) (hf _ _ dz)

theorem State.slotWakes_disorder (s : State) (k : Slot) (f : State → State) (hf : ∀ s (n : Nat), s.disorder ≤ n → (f s).disorder ≤ n) (lim : Nat) (dz : s.disorder ≤ lim) : (State.slotWakes s k f).disorder ≤ lim := by
  unfold State.slotWakes
  with_reducible repeat' (first | assumption | apply hf | apply State.wake_disorder | simp only [State.disorder_mk, State.disorder_fold] | apply disorder_put | apply disorder_nil | apply disorder_filter | dsimp only | split)

theorem State.portWakes_disorder (s : State) (p : Port) (code : Nat) (f : State → State) (hf : ∀ s (n : Nat), s.disorder ≤ n → (f s).disorder ≤ n) (lim : Nat) (dz : s.disorder ≤ lim) : (State.portWakes s p code f).disorder ≤ lim := by
  unfold State.portWakes
  with_reducible repeat' (first | assumption | apply hf | apply State.wake_disorder | simp only [State.disorder_mk, State.disorder_fold] | apply disorder_put | apply disorder_nil | apply disorder_filter | dsimp only | split)

theorem State.attachWakes_disorder (s : State) (k : Part) (f : State → State) (hf : ∀ s (n : Nat), s.disorder ≤ n → (f s).disorder ≤ n) (lim : Nat) (dz : s.disorder ≤ lim) : (State.attachWakes s k f).disorder ≤ lim := by
  unfold State.attachWakes
  with_reducible repeat' (first | assumption | apply hf | apply State.wake_disorder | simp only [State.disorder_mk, State.disorder_fold] | apply disorder_put | apply disorder_nil | apply disorder_filter | dsimp only | split)

theorem State.ctlOutStall_disorder (s : State) (p : Port) (lim : Nat) (dz : s.disorder ≤ lim) : (State.ctlOutStall s p).disorder ≤ lim := by
  unfold State.ctlOutStall
  with_reducible repeat' (first | assumption | apply State.failCtl_disorder | simp only [State.disorder_mk, State.disorder_fold] | apply disorder_put | apply disorder_nil | apply disorder_filter | dsimp only | split)

end Sys2Proof.Machine
end

