-- ==== Sys2Proof/Laws/Order.lean ====
section
/-! SUPPORT. Order lemmas: no command row disorders the list of code words. -/

set_option Elab.async false

namespace Sys2Proof.Machine

open Sys2Proof

theorem run_disorder (f : State → State) (s t : State) (hf : ∀ s (lim : Nat), s.disorder ≤ lim → (f s).disorder ≤ lim) (h : run f s = .next t) :
    t.disorder ≤ s.disorder := by
  cases h
  exact State.finish_disorder _ _ _ (hf _ _ (State.begin_disorder _ _ (Nat.le_refl _)))

theorem runVcp_disorder (opcode : BitVec 16) (m : VcpMsg) (s t : State) (h : runVcp opcode m s = .next t) : t.disorder ≤ s.disorder :=
  run_disorder _ s t (fun _ _ dz => State.submit_disorder _ _ _ _ dz) h

theorem State.disorder_reset : State.reset.disorder = 0 := by
  unfold State.disorder; rfl

theorem State.powerOff_disorder (s : State) (lim : Nat) (_ : s.disorder ≤ lim) : s.powerOff.disorder ≤ lim := by
  unfold State.powerOff
  simp only [State.disorder_mk, State.disorder_fold]
  rw [State.disorder_reset]
  exact Nat.zero_le _

theorem State.porstRelease_disorder (s : State) (testmode : Bool) (b : BoardIn) (lim : Nat) (dz : s.disorder ≤ lim) : (s.porstRelease testmode b).disorder ≤ lim := by
  unfold State.porstRelease
  with_reducible repeat' (first | assumption | apply State.strapAndBoot_disorder | apply State.dawn_disorder | simp only [State.disorder_mk, State.disorder_fold] | split)

theorem State.trialPass_disorder (s : State) (lim : Nat) (dz : s.disorder ≤ lim) : s.trialPass.disorder ≤ lim := by
  unfold State.trialPass
  with_reducible repeat' (first | assumption | apply State.sendResult_disorder | apply State.updFw_disorder | dsimp only | split)

theorem State.tapBypass_disorder (s : State) (tdi : List Bool) (lim : Nat) (dz : s.disorder ≤ lim) : (s.tapBypass tdi).disorder ≤ lim := by
  unfold State.tapBypass
  with_reducible repeat' (first | assumption | apply State.emit_disorder | simp only [State.disorder_mk, State.disorder_fold])

theorem State.tapIdcode_disorder (s : State) (lim : Nat) (dz : s.disorder ≤ lim) : s.tapIdcode.disorder ≤ lim := by
  unfold State.tapIdcode
  with_reducible repeat' (first | assumption | apply State.emit_disorder | simp only [State.disorder_mk, State.disorder_fold])

theorem State.tapSample_disorder (s : State) (balls cells : BitVec 103) (lim : Nat) (dz : s.disorder ≤ lim) : (s.tapSample balls cells).disorder ≤ lim := by
  unfold State.tapSample
  with_reducible repeat' (first | assumption | apply State.emit_disorder | simp only [State.disorder_mk, State.disorder_fold])

theorem State.tapExtest_disorder (s : State) (balls cells : BitVec 103) (lim : Nat) (dz : s.disorder ≤ lim) : (s.tapExtest balls cells).disorder ≤ lim := by
  unfold State.tapExtest
  with_reducible repeat' (first | assumption | apply State.emits_disorder | simp only [State.disorder_mk, State.disorder_fold] | split)

theorem execPorstRelease_disorder (testmode : Bool) (board : BoardIn) (s : State) (t' : State) (h : execPorstRelease testmode board s = .next t') : t'.disorder ≤ s.disorder := by
  refine run_disorder _ s t' ?_ h
  intro s lim dz
  with_reducible repeat' (first | assumption | apply State.porstRelease_disorder | dsimp only | simp only [State.disorder_mk, State.disorder_fold] | split | intro)

theorem execPorstAssert_disorder (s : State) (t' : State) (h : execPorstAssert s = .next t') : t'.disorder ≤ s.disorder := by
  refine run_disorder _ s t' ?_ h
  intro s lim dz
  with_reducible repeat' (first | assumption | apply State.powerOff_disorder | dsimp only | simp only [State.disorder_mk, State.disorder_fold] | split | intro)

theorem execVaonFailure_disorder (s : State) (t' : State) (h : execVaonFailure s = .next t') : t'.disorder ≤ s.disorder := by
  refine run_disorder _ s t' ?_ h
  intro s lim dz
  with_reducible repeat' (first | assumption | apply State.powerOff_disorder | dsimp only | simp only [State.disorder_mk, State.disorder_fold] | split | intro)

theorem execWrstAssert_disorder (s : State) (t' : State) (h : execWrstAssert s = .next t') : t'.disorder ≤ s.disorder := by
  refine run_disorder _ s t' ?_ h
  intro s lim dz
  with_reducible repeat' (first | assumption | apply State.wrstAssert_disorder | dsimp only | simp only [State.disorder_mk, State.disorder_fold] | split | intro)

theorem execEveningHoldExpiry_disorder (s : State) (t' : State) (h : execEveningHoldExpiry s = .next t') : t'.disorder ≤ s.disorder := by
  refine run_disorder _ s t' ?_ h
  intro s lim dz
  with_reducible repeat' (first | assumption | apply State.eveningOver_disorder | apply ifAon_disorder | dsimp only | simp only [State.disorder_mk, State.disorder_fold] | split | intro)

theorem execAutoNightStart_disorder (s : State) (t' : State) (h : execAutoNightStart s = .next t') : t'.disorder ≤ s.disorder := by
  refine run_disorder _ s t' ?_ h
  intro s lim dz
  with_reducible repeat' (first | assumption | apply State.autoNight_disorder | apply ifAon_disorder | dsimp only | simp only [State.disorder_mk, State.disorder_fold] | split | intro)

theorem execDuskStepsComplete_disorder (s : State) (t' : State) (h : execDuskStepsComplete s = .next t') : t'.disorder ≤ s.disorder := by
  refine run_disorder _ s t' ?_ h
  intro s lim dz
  with_reducible repeat' (first | assumption | apply State.duskSteps_disorder | apply ifAon_disorder | dsimp only | simp only [State.disorder_mk, State.disorder_fold] | split | intro)

theorem execDuskStepBoundExpiry_disorder (s : State) (t' : State) (h : execDuskStepBoundExpiry s = .next t') : t'.disorder ≤ s.disorder := by
  refine run_disorder _ s t' ?_ h
  intro s lim dz
  with_reducible repeat' (first | assumption | apply State.duskBound_disorder | apply ifAon_disorder | dsimp only | simp only [State.disorder_mk, State.disorder_fold] | split | intro)

theorem execPrepareAnswer_disorder (d : Fin 25) (defer : Bool) (s : State) (t' : State) (h : execPrepareAnswer d defer s = .next t') : t'.disorder ≤ s.disorder := by
  refine run_disorder _ s t' ?_ h
  intro s lim dz
  with_reducible repeat' (first | assumption | apply State.prepareAnswer_disorder | apply ifAon_disorder | dsimp only | simp only [State.disorder_mk, State.disorder_fold] | split | intro)

theorem execPrepareDeferExpiry_disorder (d : Fin 25) (s : State) (t' : State) (h : execPrepareDeferExpiry d s = .next t') : t'.disorder ≤ s.disorder := by
  refine run_disorder _ s t' ?_ h
  intro s lim dz
  with_reducible repeat' (first | assumption | apply State.deferExpired_disorder | apply ifAon_disorder | dsimp only | simp only [State.disorder_mk, State.disorder_fold] | split | intro)

theorem execBudgetDomainEntryStart_disorder (d : Fin 25) (s : State) (t' : State) (h : execBudgetDomainEntryStart d s = .next t') : t'.disorder ≤ s.disorder := by
  refine run_disorder _ s t' ?_ h
  intro s lim dz
  with_reducible repeat' (first | assumption | apply State.budgetEntry_disorder | apply ifAon_disorder | dsimp only | simp only [State.disorder_mk, State.disorder_fold] | split | intro)

theorem execDomainExitStart_disorder (k : Part) (s : State) (t' : State) (h : execDomainExitStart k s = .next t') : t'.disorder ≤ s.disorder := by
  refine run_disorder _ s t' ?_ h
  intro s lim dz
  with_reducible repeat' (first | assumption | apply State.exitPath_disorder | apply ifAon_disorder | dsimp only | simp only [State.disorder_mk, State.disorder_fold] | split | intro)

theorem execDomainExitComplete_disorder (d : Fin 25) (s : State) (t' : State) (h : execDomainExitComplete d s = .next t') : t'.disorder ≤ s.disorder := by
  refine run_disorder _ s t' ?_ h
  intro s lim dz
  with_reducible repeat' (first | assumption | apply State.exitDone_disorder | apply ifAon_disorder | dsimp only | simp only [State.disorder_mk, State.disorder_fold] | split | intro)

theorem execNightWake_disorder (code : Fin 32) (s : State) (t' : State) (h : execNightWake code s = .next t') : t'.disorder ≤ s.disorder := by
  refine run_disorder _ s t' ?_ h
  intro s lim dz
  with_reducible repeat' (first | assumption | apply State.wake_disorder | apply ifAon_disorder | dsimp only | simp only [State.disorder_mk, State.disorder_fold] | split | intro)

theorem execMidnightWake_disorder (code : Fin 32) (board : BoardIn) (s : State) (t' : State) (h : execMidnightWake code board s = .next t') : t'.disorder ≤ s.disorder := by
  refine run_disorder _ s t' ?_ h
  intro s lim dz
  with_reducible repeat' (first | assumption | apply State.wake_disorder | apply ifAon_disorder | dsimp only | simp only [State.disorder_mk, State.disorder_fold] | split | intro)

theorem execWakeNLow_disorder (s : State) (t' : State) (h : execWakeNLow s = .next t') : t'.disorder ≤ s.disorder := by
  refine run_disorder _ s t' ?_ h
  intro s lim dz
  with_reducible repeat' (first | assumption | apply State.wake_disorder | apply ifAon_disorder | dsimp only | simp only [State.disorder_mk, State.disorder_fold] | split | intro)

theorem execWakeTimerExpiry_disorder (s : State) (t' : State) (h : execWakeTimerExpiry s = .next t') : t'.disorder ≤ s.disorder := by
  refine run_disorder _ s t' ?_ h
  intro s lim dz
  with_reducible repeat' (first | assumption | apply State.wake_disorder | apply ifAon_disorder | dsimp only | simp only [State.disorder_mk, State.disorder_fold] | split | intro)

theorem execMidnightDetachDischargeEnd_disorder (p : Port) (s : State) (t' : State) (h : execMidnightDetachDischargeEnd p s = .next t') : t'.disorder ≤ s.disorder := by
  refine run_disorder _ s t' ?_ h
  intro s lim dz
  with_reducible repeat' (first | assumption | apply State.midnightDischarged_disorder | apply ifAon_disorder | dsimp only | simp only [State.disorder_mk, State.disorder_fold] | split | intro)

theorem execDieSensorSample_disorder (t : Tab 16 (BitVec 16)) (s : State) (t' : State) (h : execDieSensorSample t s = .next t') : t'.disorder ≤ s.disorder := by
  refine run_disorder _ s t' ?_ h
  intro s lim dz
  with_reducible repeat' (first | assumption | apply State.sampleTemps_disorder | apply ifAon_disorder | dsimp only | simp only [State.disorder_mk, State.disorder_fold] | split | intro)

theorem execThermalEveningExpiry_disorder (sensor : Fin 16) (s : State) (t' : State) (h : execThermalEveningExpiry sensor s = .next t') : t'.disorder ≤ s.disorder := by
  refine run_disorder _ s t' ?_ h
  intro s lim dz
  with_reducible repeat' (first | assumption | apply State.thermalEvening_disorder | apply ifAon_disorder | dsimp only | simp only [State.disorder_mk, State.disorder_fold] | split | intro)

theorem execTjCriticalExpiry_disorder (sensor : Fin 16) (s : State) (t' : State) (h : execTjCriticalExpiry sensor s = .next t') : t'.disorder ≤ s.disorder := by
  refine run_disorder _ s t' ?_ h
  intro s lim dz
  with_reducible repeat' (first | assumption | apply State.thermalCritical_disorder | apply ifAon_disorder | dsimp only | simp only [State.disorder_mk, State.disorder_fold] | split | intro)

theorem execSupplyWarning_disorder (r : Fin 8) (mv : Nat) (s : State) (t' : State) (h : execSupplyWarning r mv s = .next t') : t'.disorder ≤ s.disorder := by
  refine run_disorder _ s t' ?_ h
  intro s lim dz
  with_reducible repeat' (first | assumption | apply State.supplyWarning_disorder | apply ifAon_disorder | dsimp only | simp only [State.disorder_mk, State.disorder_fold] | split | intro)

theorem execSupplyFailure_disorder (r : Fin 8) (mv : Nat) (s : State) (t' : State) (h : execSupplyFailure r mv s = .next t') : t'.disorder ≤ s.disorder := by
  refine run_disorder _ s t' ?_ h
  intro s lim dz
  with_reducible repeat' (first | assumption | apply State.supplyFailure_disorder | apply ifAon_disorder | dsimp only | simp only [State.disorder_mk, State.disorder_fold] | split | intro)

theorem execRcToCrystalSwitch_disorder (s : State) (t' : State) (h : execRcToCrystalSwitch s = .next t') : t'.disorder ≤ s.disorder := by
  refine run_disorder _ s t' ?_ h
  intro s lim dz
  with_reducible repeat' (first | assumption | apply State.toCrystal_disorder | dsimp only | simp only [State.disorder_mk, State.disorder_fold] | split | intro)

theorem execRcCalibration_disorder (s : State) (t' : State) (h : execRcCalibration s = .next t') : t'.disorder ≤ s.disorder := by
  refine run_disorder _ s t' ?_ h
  intro s lim dz
  with_reducible repeat' (first | assumption | apply State.calibrate_disorder | apply ifAon_disorder | dsimp only | simp only [State.disorder_mk, State.disorder_fold] | split | intro)

theorem execRefclkLoss_disorder (s : State) (t' : State) (h : execRefclkLoss s = .next t') : t'.disorder ≤ s.disorder := by
  refine run_disorder _ s t' ?_ h
  intro s lim dz
  with_reducible repeat' (first | assumption | apply State.refclkLoss_disorder | apply ifAon_disorder | dsimp only | simp only [State.disorder_mk, State.disorder_fold] | split | intro)

theorem execAvsReevaluate_disorder (s : State) (t' : State) (h : execAvsReevaluate s = .next t') : t'.disorder ≤ s.disorder := by
  refine run_disorder _ s t' ?_ h
  intro s lim dz
  with_reducible repeat' (first | assumption | apply State.avsEvaluate_disorder | apply ifAon_disorder | dsimp only | simp only [State.disorder_mk, State.disorder_fold] | split | intro)

theorem execAvsRequestComplete_disorder (voltage current temp status : BitVec 16) (s : State) (t' : State) (h : execAvsRequestComplete voltage current temp status s = .next t') : t'.disorder ≤ s.disorder := by
  refine run_disorder _ s t' ?_ h
  intro s lim dz
  with_reducible repeat' (first | assumption | apply State.avsComplete_disorder | apply State.avsTimeout_disorder | apply State.forced_disorder | apply ifAon_disorder | dsimp only | simp only [State.disorder_mk, State.disorder_fold] | split | intro)

theorem execAvsTimeout_disorder (s : State) (t' : State) (h : execAvsTimeout s = .next t') : t'.disorder ≤ s.disorder := by
  refine run_disorder _ s t' ?_ h
  intro s lim dz
  with_reducible repeat' (first | assumption | apply State.avsTimeout_disorder | apply ifAon_disorder | dsimp only | simp only [State.disorder_mk, State.disorder_fold] | split | intro)

theorem execAvsHoldoffExpiry_disorder (s : State) (t' : State) (h : execAvsHoldoffExpiry s = .next t') : t'.disorder ≤ s.disorder := by
  refine run_disorder _ s t' ?_ h
  intro s lim dz
  with_reducible repeat' (first | assumption | apply State.avsHoldoffOver_disorder | apply ifAon_disorder | dsimp only | simp only [State.disorder_mk, State.disorder_fold] | split | intro)

theorem execPortDieLinkRetrain_disorder (d : Fin 2) (s : State) (t' : State) (h : execPortDieLinkRetrain d s = .next t') : t'.disorder ≤ s.disorder := by
  refine run_disorder _ s t' ?_ h
  intro s lim dz
  with_reducible repeat' (first | assumption | apply State.portLinkRetrain_disorder | apply ifUp_disorder | dsimp only | simp only [State.disorder_mk, State.disorder_fold] | split | intro)

theorem execPortDieLinkReturn_disorder (d : Fin 2) (s : State) (t' : State) (h : execPortDieLinkReturn d s = .next t') : t'.disorder ≤ s.disorder := by
  refine run_disorder _ s t' ?_ h
  intro s lim dz
  with_reducible repeat' (first | assumption | apply State.portLinkReturn_disorder | apply ifUp_disorder | dsimp only | simp only [State.disorder_mk, State.disorder_fold] | split | intro)

theorem execPortDieLinkFail_disorder (d : Fin 2) (s : State) (t' : State) (h : execPortDieLinkFail d s = .next t') : t'.disorder ≤ s.disorder := by
  refine run_disorder _ s t' ?_ h
  intro s lim dz
  with_reducible repeat' (first | assumption | apply State.portLinkFail_disorder | apply ifUp_disorder | dsimp only | simp only [State.disorder_mk, State.disorder_fold] | split | intro)

theorem execPowerDieLinkTimeout_disorder (d : Fin 2) (s : State) (t' : State) (h : execPowerDieLinkTimeout d s = .next t') : t'.disorder ≤ s.disorder := by
  refine run_disorder _ s t' ?_ h
  intro s lim dz
  with_reducible repeat' (first | assumption | apply State.powerLinkTimeout_disorder | apply ifAon_disorder | dsimp only | simp only [State.disorder_mk, State.disorder_fold] | split | intro)

theorem execPowerDieCoreSilence_disorder (d : Fin 2) (s : State) (t' : State) (h : execPowerDieCoreSilence d s = .next t') : t'.disorder ≤ s.disorder := by
  refine run_disorder _ s t' ?_ h
  intro s lim dz
  with_reducible repeat' (first | assumption | apply State.powerLinkSilence_disorder | apply ifAon_disorder | dsimp only | simp only [State.disorder_mk, State.disorder_fold] | split | intro)

theorem execAlarmPairChange_disorder (pair : Fin 6) (on : Bool) (s : State) (t' : State) (h : execAlarmPairChange pair on s = .next t') : t'.disorder ≤ s.disorder := by
  refine run_disorder _ s t' ?_ h
  intro s lim dz
  with_reducible repeat' (first | assumption | apply State.alarmChange_disorder | apply ifAon_disorder | dsimp only | simp only [State.disorder_mk, State.disorder_fold] | split | intro)

theorem execAlarmLineFault_disorder (pair : Fin 6) (level : Bool) (s : State) (t' : State) (h : execAlarmLineFault pair level s = .next t') : t'.disorder ≤ s.disorder := by
  refine run_disorder _ s t' ?_ h
  intro s lim dz
  with_reducible repeat' (first | assumption | apply State.alarmLineFault_disorder | apply ifAon_disorder | dsimp only | simp only [State.disorder_mk, State.disorder_fold] | split | intro)

theorem execDetectorMessage_disorder (source : BitVec 12) (kind : Byte) (info : BitVec 32) (injected : Bool) (place : Option (Port × Byte)) (s : State) (t' : State) (h : execDetectorMessage source kind info injected place s = .next t') : t'.disorder ≤ s.disorder := by
  unfold execDetectorMessage at h
  split at h
  · cases h
  · refine run_disorder _ s t' ?_ h
    intro s lim dz
    with_reducible repeat' (first | assumption | apply State.detectorMessage_disorder | apply ifAon_disorder | dsimp only | simp only [State.disorder_mk, State.disorder_fold] | split | intro)

theorem execFaultNPulseEnd_disorder (s : State) (t' : State) (h : execFaultNPulseEnd s = .next t') : t'.disorder ≤ s.disorder := by
  refine run_disorder _ s t' ?_ h
  intro s lim dz
  with_reducible repeat' (first | assumption | apply State.pulseEnd_disorder | apply ifAon_disorder | dsimp only | simp only [State.disorder_mk, State.disorder_fold] | split | intro)

theorem execSafeHoldRestartDone_disorder (s : State) (t' : State) (h : execSafeHoldRestartDone s = .next t') : t'.disorder ≤ s.disorder := by
  refine run_disorder _ s t' ?_ h
  intro s lim dz
  with_reducible repeat' (first | assumption | apply State.safeHoldServed_disorder | apply ifAon_disorder | dsimp only | simp only [State.disorder_mk, State.disorder_fold] | split | intro)

theorem execReactionComplete_disorder (r : Reaction) (aged : Nat) (intact : Bool) (s : State) (t' : State) (h : execReactionComplete r aged intact s = .next t') : t'.disorder ≤ s.disorder := by
  refine run_disorder _ s t' ?_ h
  intro s lim dz
  with_reducible repeat' (first | assumption | apply State.reactionEnds_disorder | apply ifAon_disorder | dsimp only | simp only [State.disorder_mk, State.disorder_fold] | split | intro)

theorem execResetShadowEnd_disorder (r : Reaction) (s : State) (t' : State) (h : execResetShadowEnd r s = .next t') : t'.disorder ≤ s.disorder := by
  refine run_disorder _ s t' ?_ h
  intro s lim dz
  with_reducible repeat' (first | assumption | apply State.shadowEnd_disorder | apply ifAon_disorder | dsimp only | simp only [State.disorder_mk, State.disorder_fold] | split | intro)

theorem execWatchdogKick_disorder (s : State) (t' : State) (h : execWatchdogKick s = .next t') : t'.disorder ≤ s.disorder := by
  refine run_disorder _ s t' ?_ h
  intro s lim dz
  with_reducible repeat' (first | assumption | dsimp only | simp only [State.disorder_mk, State.disorder_fold] | split | intro)

theorem execWatchdogExpiry_disorder (s : State) (t' : State) (h : execWatchdogExpiry s = .next t') : t'.disorder ≤ s.disorder := by
  refine run_disorder _ s t' ?_ h
  intro s lim dz
  with_reducible repeat' (first | assumption | apply State.watchdogExpiry_disorder | apply ifAon_disorder | dsimp only | simp only [State.disorder_mk, State.disorder_fold] | split | intro)

theorem execInjectionDurationEnd_disorder (source : BitVec 12) (kind : Byte) (s : State) (t' : State) (h : execInjectionDurationEnd source kind s = .next t') : t'.disorder ≤ s.disorder := by
  refine run_disorder _ s t' ?_ h
  intro s lim dz
  with_reducible repeat' (first | assumption | apply State.injectionEnds_disorder | apply ifAon_disorder | dsimp only | simp only [State.disorder_mk, State.disorder_fold] | split | intro)

theorem execInjectionArmTimeout_disorder (source : BitVec 12) (kind : Byte) (s : State) (t' : State) (h : execInjectionArmTimeout source kind s = .next t') : t'.disorder ≤ s.disorder := by
  refine run_disorder _ s t' ?_ h
  intro s lim dz
  with_reducible repeat' (first | assumption | apply State.injectionLapses_disorder | apply ifAon_disorder | dsimp only | simp only [State.disorder_mk, State.disorder_fold] | split | intro)

theorem execUpstreamAttach_disorder (k : Part) (orientation : Bool) (rp : Fin 4) (vbus : Bool) (s : State) (t' : State) (h : execUpstreamAttach k orientation rp vbus s = .next t') : t'.disorder ≤ s.disorder := by
  refine run_disorder _ s t' ?_ h
  intro s lim dz
  with_reducible repeat' (first | assumption | apply State.upAttach_disorder | apply ifPorst_disorder | apply State.attachWakes_disorder | dsimp only | simp only [State.disorder_mk, State.disorder_fold] | split | intro)

theorem execUpstreamDetach_disorder (k : Part) (s : State) (t' : State) (h : execUpstreamDetach k s = .next t') : t'.disorder ≤ s.disorder := by
  refine run_disorder _ s t' ?_ h
  intro s lim dz
  with_reducible repeat' (first | assumption | apply State.upDetach_disorder | apply ifPorst_disorder | dsimp only | simp only [State.disorder_mk, State.disorder_fold] | split | intro)

theorem execUpstreamVbusAbsent_disorder (k : Part) (late : Bool) (s : State) (t' : State) (h : execUpstreamVbusAbsent k late s = .next t') : t'.disorder ≤ s.disorder := by
  refine run_disorder _ s t' ?_ h
  intro s lim dz
  with_reducible repeat' (first | assumption | apply State.upVbusAbsent_disorder | apply ifPorst_disorder | dsimp only | simp only [State.disorder_mk, State.disorder_fold] | split | intro)

theorem execUpstreamPdMessage_disorder (k : Part) (m : UpPdIn) (s : State) (t' : State) (h : execUpstreamPdMessage k m s = .next t') : t'.disorder ≤ s.disorder := by
  refine run_disorder _ s t' ?_ h
  intro s lim dz
  with_reducible repeat' (first | assumption | apply State.upPdMessage_disorder | apply ifUp_disorder | dsimp only | simp only [State.disorder_mk, State.disorder_fold] | split | intro)

theorem execUpstreamHardReset_disorder (k : Part) (s : State) (t' : State) (h : execUpstreamHardReset k s = .next t') : t'.disorder ≤ s.disorder := by
  refine run_disorder _ s t' ?_ h
  intro s lim dz
  with_reducible repeat' (first | assumption | apply State.upHardReset_disorder | apply ifUp_disorder | dsimp only | simp only [State.disorder_mk, State.disorder_fold] | split | intro)

theorem execSsLinkU0_disorder (k : Part) (rate : SsRate) (s : State) (t' : State) (h : execSsLinkU0 k rate s = .next t') : t'.disorder ≤ s.disorder := by
  refine run_disorder _ s t' ?_ h
  intro s lim dz
  with_reducible repeat' (first | assumption | apply State.ssU0_disorder | apply ifUp_disorder | dsimp only | simp only [State.disorder_mk, State.disorder_fold] | split | intro)

theorem execSsDecidingExpiry_disorder (k : Part) (s : State) (t' : State) (h : execSsDecidingExpiry k s = .next t') : t'.disorder ≤ s.disorder := by
  refine run_disorder _ s t' ?_ h
  intro s lim dz
  with_reducible repeat' (first | assumption | apply State.ssDecided_disorder | apply ifUp_disorder | dsimp only | simp only [State.disorder_mk, State.disorder_fold] | split | intro)

theorem execSsInactiveExpiry_disorder (k : Part) (link : UpLink) (s : State) (t' : State) (h : execSsInactiveExpiry k link s = .next t') : t'.disorder ≤ s.disorder := by
  refine run_disorder _ s t' ?_ h
  intro s lim dz
  with_reducible repeat' (first | assumption | apply State.ssInactiveFor_disorder | apply ifUp_disorder | dsimp only | simp only [State.disorder_mk, State.disorder_fold] | split | intro)

theorem execSsLinkDisabled_disorder (k : Part) (s : State) (t' : State) (h : execSsLinkDisabled k s = .next t') : t'.disorder ≤ s.disorder := by
  refine run_disorder _ s t' ?_ h
  intro s lim dz
  with_reducible repeat' (first | assumption | apply State.ssDisabled_disorder | apply ifUp_disorder | dsimp only | simp only [State.disorder_mk, State.disorder_fold] | split | intro)

theorem execLgoU1U2_disorder (k : Part) (u2 unacked : Bool) (s : State) (t' : State) (h : execLgoU1U2 k u2 unacked s = .next t') : t'.disorder ≤ s.disorder := by
  refine run_disorder _ s t' ?_ h
  intro s lim dz
  with_reducible repeat' (first | assumption | apply State.lgo_disorder | apply ifUp_disorder | dsimp only | simp only [State.disorder_mk, State.disorder_fold] | split | intro)

theorem execDeviceU1U2Entry_disorder (k : Part) (u2 unacked : Bool) (s : State) (t' : State) (h : execDeviceU1U2Entry k u2 unacked s = .next t') : t'.disorder ≤ s.disorder := by
  refine run_disorder _ s t' ?_ h
  intro s lim dz
  with_reducible repeat' (first | assumption | apply State.ownU_disorder | apply ifUp_disorder | dsimp only | simp only [State.disorder_mk, State.disorder_fold] | split | intro)

theorem execUpstreamU3Entry_disorder (k : Part) (s : State) (t' : State) (h : execUpstreamU3Entry k s = .next t') : t'.disorder ≤ s.disorder := by
  refine run_disorder _ s t' ?_ h
  intro s lim dz
  with_reducible repeat' (first | assumption | apply State.enterU3_disorder | apply ifUp_disorder | dsimp only | simp only [State.disorder_mk, State.disorder_fold] | split | intro)

theorem execUpstreamU3Exit_disorder (k : Part) (s : State) (t' : State) (h : execUpstreamU3Exit k s = .next t') : t'.disorder ≤ s.disorder := by
  refine run_disorder _ s t' ?_ h
  intro s lim dz
  with_reducible repeat' (first | assumption | apply State.leaveU3_disorder | apply ifUp_disorder | apply State.hostWakes_disorder | dsimp only | simp only [State.disorder_mk, State.disorder_fold] | split | intro)

theorem execSsWarmReset_disorder (k : Part) (s : State) (t' : State) (h : execSsWarmReset k s = .next t') : t'.disorder ≤ s.disorder := by
  refine run_disorder _ s t' ?_ h
  intro s lim dz
  with_reducible repeat' (first | assumption | apply State.ssReset_disorder | apply ifUp_disorder | apply State.hostWakes_disorder | dsimp only | simp only [State.disorder_mk, State.disorder_fold] | split | intro)

theorem execSsHotReset_disorder (k : Part) (s : State) (t' : State) (h : execSsHotReset k s = .next t') : t'.disorder ≤ s.disorder := by
  refine run_disorder _ s t' ?_ h
  intro s lim dz
  with_reducible repeat' (first | assumption | apply State.ssReset_disorder | apply ifUp_disorder | apply State.hostWakes_disorder | dsimp only | simp only [State.disorder_mk, State.disorder_fold] | split | intro)

theorem execUsb2BusReset_disorder (k : Part) (highSpeed : Bool) (s : State) (t' : State) (h : execUsb2BusReset k highSpeed s = .next t') : t'.disorder ≤ s.disorder := by
  refine run_disorder _ s t' ?_ h
  intro s lim dz
  with_reducible repeat' (first | assumption | apply State.usb2Reset_disorder | apply ifUp_disorder | apply State.hostWakes_disorder | dsimp only | simp only [State.disorder_mk, State.disorder_fold] | split | intro)

theorem execUsb2LpmTransaction_disorder (k : Part) (hird : BitVec 4) (s : State) (t' : State) (h : execUsb2LpmTransaction k hird s = .next t') : t'.disorder ≤ s.disorder := by
  refine run_disorder _ s t' ?_ h
  intro s lim dz
  with_reducible repeat' (first | assumption | apply State.usb2Lpm_disorder | apply ifUp_disorder | dsimp only | simp only [State.disorder_mk, State.disorder_fold] | split | intro)

theorem execUsb2Suspend_disorder (k : Part) (s : State) (t' : State) (h : execUsb2Suspend k s = .next t') : t'.disorder ≤ s.disorder := by
  refine run_disorder _ s t' ?_ h
  intro s lim dz
  with_reducible repeat' (first | assumption | apply State.usb2Suspend_disorder | apply ifUp_disorder | dsimp only | simp only [State.disorder_mk, State.disorder_fold] | split | intro)

theorem execUsb2Resume_disorder (k : Part) (byDevice : Bool) (s : State) (t' : State) (h : execUsb2Resume k byDevice s = .next t') : t'.disorder ≤ s.disorder := by
  refine run_disorder _ s t' ?_ h
  intro s lim dz
  with_reducible repeat' (first | assumption | apply State.usb2Resume_disorder | apply ifUp_disorder | apply State.hostWakes_disorder | apply State.deviceResumes_disorder | dsimp only | simp only [State.disorder_mk, State.disorder_fold] | split | intro)

theorem execMfStandardRequest_disorder (k : Part) (r : Setup) (data : List Byte) (s : State) (t' : State) (h : execMfStandardRequest k r data s = .next t') : t'.disorder ≤ s.disorder := by
  refine run_disorder _ s t' ?_ h
  intro s lim dz
  with_reducible repeat' (first | assumption | apply State.mfRequest_disorder | apply ifUp_disorder | dsimp only | simp only [State.disorder_mk, State.disorder_fold] | split | intro)

theorem execMfBulkOutCommand_disorder (k : Part) (bytes : List Byte) (s : State) (t' : State) (h : execMfBulkOutCommand k bytes s = .next t') : t'.disorder ≤ s.disorder := by
  refine run_disorder _ s t' ?_ h
  intro s lim dz
  with_reducible repeat' (first | assumption | apply State.mfBulkOut_disorder | apply ifUp_disorder | dsimp only | simp only [State.disorder_mk, State.disorder_fold] | split | intro)

theorem execVcpCommand_disorder (k : Part) (bytes : List Byte) (s : State) (t' : State) (h : execVcpCommand k bytes s = .next t') : t'.disorder ≤ s.disorder := by
  refine run_disorder _ s t' ?_ h
  intro s lim dz
  with_reducible repeat' (first | assumption | apply State.mfControlOut_disorder | apply ifUp_disorder | dsimp only | simp only [State.disorder_mk, State.disorder_fold] | split | intro)

theorem execVcpLastResponse_disorder (k : Part) (len : BitVec 16) (s : State) (t' : State) (h : execVcpLastResponse k len s = .next t') : t'.disorder ≤ s.disorder := by
  refine run_disorder _ s t' ?_ h
  intro s lim dz
  with_reducible repeat' (first | assumption | apply State.mfLastResponse_disorder | apply ifUp_disorder | dsimp only | simp only [State.disorder_mk, State.disorder_fold] | split | intro)

theorem execMfOtherVendorRequest_disorder (k : Part) (_r : Setup) (s : State) (t' : State) (h : execMfOtherVendorRequest k _r s = .next t') : t'.disorder ≤ s.disorder := by
  refine run_disorder _ s t' ?_ h
  intro s lim dz
  with_reducible repeat' (first | assumption | apply State.ctlError_disorder | apply ifUp_disorder | dsimp only | simp only [State.disorder_mk, State.disorder_fold] | split | intro)

theorem execDoorbellRing_disorder (bus : OobBus) (mask : BitVec 3) (s : State) (t' : State) (h : execDoorbellRing bus mask s = .next t') : t'.disorder ≤ s.disorder := by
  refine run_disorder _ s t' ?_ h
  intro s lim dz
  with_reducible repeat' (first | assumption | apply State.writeDoorbell_disorder | dsimp only | simp only [State.disorder_mk, State.disorder_fold] | split | intro)

theorem execSmbusDoorbellWrite_disorder (pecOk : Bool) (s : State) (t' : State) (h : execSmbusDoorbellWrite pecOk s = .next t') : t'.disorder ≤ s.disorder := by
  refine run_disorder _ s t' ?_ h
  intro s lim dz
  with_reducible repeat' (first | assumption | apply State.ringDoorbell_disorder | dsimp only | simp only [State.disorder_mk, State.disorder_fold] | split | intro)

theorem execSmbusSetPointer_disorder (address : BitVec 16) (pecOk : Bool) (s : State) (t' : State) (h : execSmbusSetPointer address pecOk s = .next t') : t'.disorder ≤ s.disorder := by
  refine run_disorder _ s t' ?_ h
  intro s lim dz
  with_reducible repeat' (first | assumption | dsimp only | simp only [State.disorder_mk, State.disorder_fold] | split | intro)

theorem execSmbusAlertResponse_disorder (s : State) (t' : State) (h : execSmbusAlertResponse s = .next t') : t'.disorder ≤ s.disorder := by
  refine run_disorder _ s t' ?_ h
  intro s lim dz
  with_reducible repeat' (first | assumption | apply State.emit_disorder | dsimp only | simp only [State.disorder_mk, State.disorder_fold] | split | intro)

theorem execRspDone_disorder (m : Mbox) (s : State) (t' : State) (h : execRspDone m s = .next t') : t'.disorder ≤ s.disorder := by
  refine run_disorder _ s t' ?_ h
  intro s lim dz
  with_reducible repeat' (first | assumption | apply State.rspDone_disorder | dsimp only | simp only [State.disorder_mk, State.disorder_fold] | split | intro)

theorem execEvtDone_disorder (m : Mbox) (s : State) (t' : State) (h : execEvtDone m s = .next t') : t'.disorder ≤ s.disorder := by
  refine run_disorder _ s t' ?_ h
  intro s lim dz
  with_reducible repeat' (first | assumption | apply State.evtDone_disorder | dsimp only | simp only [State.disorder_mk, State.disorder_fold] | split | intro)

theorem execCrcErrClear_disorder (m : Mbox) (s : State) (t' : State) (h : execCrcErrClear m s = .next t') : t'.disorder ≤ s.disorder := by
  refine run_disorder _ s t' ?_ h
  intro s lim dz
  with_reducible repeat' (first | assumption | apply State.crcErrClear_disorder | dsimp only | simp only [State.disorder_mk, State.disorder_fold] | split | intro)

theorem execRegisterWrite_disorder (w : OobWrite) (bytes : List Byte) (s : State) (t' : State) (h : execRegisterWrite w bytes s = .next t') : t'.disorder ≤ s.disorder := by
  refine run_disorder _ s t' ?_ h
  intro s lim dz
  with_reducible repeat' (first | assumption | apply State.oobWrite_disorder | dsimp only | simp only [State.disorder_mk, State.disorder_fold] | split | intro)

theorem execHelloOpen_disorder (m : VcpMsg) (s : State) (t' : State) (h : execHelloOpen m s = .next t') : t'.disorder ≤ s.disorder := runVcp_disorder _ _ s t' h

theorem execHelloForceOpen_disorder (m : VcpMsg) (s : State) (t' : State) (h : execHelloForceOpen m s = .next t') : t'.disorder ≤ s.disorder := runVcp_disorder _ _ s t' h

theorem execHelloGrant_disorder (m : VcpMsg) (s : State) (t' : State) (h : execHelloGrant m s = .next t') : t'.disorder ≤ s.disorder := runVcp_disorder _ _ s t' h

theorem execHelloRevoke_disorder (m : VcpMsg) (s : State) (t' : State) (h : execHelloRevoke m s = .next t') : t'.disorder ≤ s.disorder := runVcp_disorder _ _ s t' h

theorem execResync_disorder (m : VcpMsg) (s : State) (t' : State) (h : execResync m s = .next t') : t'.disorder ≤ s.disorder := runVcp_disorder _ _ s t' h

theorem execEventAck_disorder (m : VcpMsg) (s : State) (t' : State) (h : execEventAck m s = .next t') : t'.disorder ≤ s.disorder := runVcp_disorder _ _ s t' h

theorem execClose_disorder (m : VcpMsg) (s : State) (t' : State) (h : execClose m s = .next t') : t'.disorder ≤ s.disorder := runVcp_disorder _ _ s t' h

theorem execGetInfo_disorder (m : VcpMsg) (s : State) (t' : State) (h : execGetInfo m s = .next t') : t'.disorder ≤ s.disorder := runVcp_disorder _ _ s t' h

theorem execGetStatus_disorder (m : VcpMsg) (s : State) (t' : State) (h : execGetStatus m s = .next t') : t'.disorder ≤ s.disorder := runVcp_disorder _ _ s t' h

theorem execGetTemps_disorder (m : VcpMsg) (s : State) (t' : State) (h : execGetTemps m s = .next t') : t'.disorder ≤ s.disorder := runVcp_disorder _ _ s t' h

theorem execUnsupportedOpcode_disorder (opcode : BitVec 16) (m : VcpMsg) (s : State) (t' : State) (h : execUnsupportedOpcode opcode m s = .next t') : t'.disorder ≤ s.disorder := runVcp_disorder _ _ s t' h

theorem execPartGet_disorder (m : VcpMsg) (s : State) (t' : State) (h : execPartGet m s = .next t') : t'.disorder ≤ s.disorder := runVcp_disorder _ _ s t' h

theorem execPartAssignPort_disorder (m : VcpMsg) (s : State) (t' : State) (h : execPartAssignPort m s = .next t') : t'.disorder ≤ s.disorder := runVcp_disorder _ _ s t' h

theorem execPartSetLimits_disorder (m : VcpMsg) (s : State) (t' : State) (h : execPartSetLimits m s = .next t') : t'.disorder ≤ s.disorder := runVcp_disorder _ _ s t' h

theorem execPartConnect_disorder (m : VcpMsg) (s : State) (t' : State) (h : execPartConnect m s = .next t') : t'.disorder ≤ s.disorder := runVcp_disorder _ _ s t' h

theorem execPartDisconnect_disorder (m : VcpMsg) (s : State) (t' : State) (h : execPartDisconnect m s = .next t') : t'.disorder ≤ s.disorder := runVcp_disorder _ _ s t' h

theorem execDeferredDisconnectExecute_disorder (k : Part) (s : State) (t' : State) (h : execDeferredDisconnectExecute k s = .next t') : t'.disorder ≤ s.disorder := by
  refine run_disorder _ s t' ?_ h
  intro s lim dz
  with_reducible repeat' (first | assumption | apply State.deferredDisconnect_disorder | apply ifAon_disorder | dsimp only | simp only [State.disorder_mk, State.disorder_fold] | split | intro)

theorem execPortGet_disorder (m : VcpMsg) (s : State) (t' : State) (h : execPortGet m s = .next t') : t'.disorder ≤ s.disorder := runVcp_disorder _ _ s t' h

theorem execPortSetMode_disorder (m : VcpMsg) (s : State) (t' : State) (h : execPortSetMode m s = .next t') : t'.disorder ≤ s.disorder := runVcp_disorder _ _ s t' h

theorem execPortReset_disorder (m : VcpMsg) (s : State) (t' : State) (h : execPortReset m s = .next t') : t'.disorder ≤ s.disorder := runVcp_disorder _ _ s t' h

theorem execPortQuench_disorder (m : VcpMsg) (s : State) (t' : State) (h : execPortQuench m s = .next t') : t'.disorder ≤ s.disorder := runVcp_disorder _ _ s t' h

theorem execPortRelease_disorder (m : VcpMsg) (s : State) (t' : State) (h : execPortRelease m s = .next t') : t'.disorder ≤ s.disorder := runVcp_disorder _ _ s t' h

theorem execPortSetBc_disorder (m : VcpMsg) (s : State) (t' : State) (h : execPortSetBc m s = .next t') : t'.disorder ≤ s.disorder := runVcp_disorder _ _ s t' h

theorem execLiftGetPolicy_disorder (m : VcpMsg) (s : State) (t' : State) (h : execLiftGetPolicy m s = .next t') : t'.disorder ≤ s.disorder := runVcp_disorder _ _ s t' h

theorem execLiftSetClasslist_disorder (m : VcpMsg) (s : State) (t' : State) (h : execLiftSetClasslist m s = .next t') : t'.disorder ≤ s.disorder := runVcp_disorder _ _ s t' h

theorem execLiftSetEpBoundary_disorder (m : VcpMsg) (s : State) (t' : State) (h : execLiftSetEpBoundary m s = .next t') : t'.disorder ≤ s.disorder := runVcp_disorder _ _ s t' h

theorem execLiftGetEpStats_disorder (m : VcpMsg) (s : State) (t' : State) (h : execLiftGetEpStats m s = .next t') : t'.disorder ≤ s.disorder := runVcp_disorder _ _ s t' h

theorem execLiftClearPoison_disorder (m : VcpMsg) (s : State) (t' : State) (h : execLiftClearPoison m s = .next t') : t'.disorder ≤ s.disorder := runVcp_disorder _ _ s t' h

theorem execPdSetOffer_disorder (m : VcpMsg) (s : State) (t' : State) (h : execPdSetOffer m s = .next t') : t'.disorder ≤ s.disorder := runVcp_disorder _ _ s t' h

theorem execPdSend_disorder (m : VcpMsg) (s : State) (t' : State) (h : execPdSend m s = .next t') : t'.disorder ≤ s.disorder := runVcp_disorder _ _ s t' h

theorem execPdSetAutoresp_disorder (m : VcpMsg) (s : State) (t' : State) (h : execPdSetAutoresp m s = .next t') : t'.disorder ≤ s.disorder := runVcp_disorder _ _ s t' h

theorem execPdHardReset_disorder (m : VcpMsg) (s : State) (t' : State) (h : execPdHardReset m s = .next t') : t'.disorder ≤ s.disorder := runVcp_disorder _ _ s t' h

theorem execCcSetRp_disorder (m : VcpMsg) (s : State) (t' : State) (h : execCcSetRp m s = .next t') : t'.disorder ≤ s.disorder := runVcp_disorder _ _ s t' h

theorem execSbuSetRoute_disorder (m : VcpMsg) (s : State) (t' : State) (h : execSbuSetRoute m s = .next t') : t'.disorder ≤ s.disorder := runVcp_disorder _ _ s t' h

theorem execPdSetTimers_disorder (m : VcpMsg) (s : State) (t' : State) (h : execPdSetTimers m s = .next t') : t'.disorder ≤ s.disorder := runVcp_disorder _ _ s t' h

theorem execSlotGet_disorder (m : VcpMsg) (s : State) (t' : State) (h : execSlotGet m s = .next t') : t'.disorder ≤ s.disorder := runVcp_disorder _ _ s t' h

theorem execSlotSetLimits_disorder (m : VcpMsg) (s : State) (t' : State) (h : execSlotSetLimits m s = .next t') : t'.disorder ≤ s.disorder := runVcp_disorder _ _ s t' h

theorem execSlotEnable_disorder (m : VcpMsg) (s : State) (t' : State) (h : execSlotEnable m s = .next t') : t'.disorder ≤ s.disorder := runVcp_disorder _ _ s t' h

theorem execSlotClearLatch_disorder (m : VcpMsg) (s : State) (t' : State) (h : execSlotClearLatch m s = .next t') : t'.disorder ≤ s.disorder := runVcp_disorder _ _ s t' h

theorem execVbusSet_disorder (m : VcpMsg) (s : State) (t' : State) (h : execVbusSet m s = .next t') : t'.disorder ≤ s.disorder := runVcp_disorder _ _ s t' h

theorem execPpcGet_disorder (m : VcpMsg) (s : State) (t' : State) (h : execPpcGet m s = .next t') : t'.disorder ≤ s.disorder := runVcp_disorder _ _ s t' h

theorem execModeGet_disorder (m : VcpMsg) (s : State) (t' : State) (h : execModeGet m s = .next t') : t'.disorder ≤ s.disorder := runVcp_disorder _ _ s t' h

theorem execModeRequest_disorder (m : VcpMsg) (board : BoardIn) (s : State) (t' : State) (h : execModeRequest m board s = .next t') : t'.disorder ≤ s.disorder := by
  refine run_disorder _ s t' ?_ h
  intro s lim dz
  with_reducible repeat' (first | assumption | apply State.submit_disorder | dsimp only | simp only [State.disorder_mk, State.disorder_fold] | split | intro)

theorem execLatBudgetSet_disorder (m : VcpMsg) (s : State) (t' : State) (h : execLatBudgetSet m s = .next t') : t'.disorder ≤ s.disorder := runVcp_disorder _ _ s t' h

theorem execWakeSourcesSet_disorder (m : VcpMsg) (s : State) (t' : State) (h : execWakeSourcesSet m s = .next t') : t'.disorder ≤ s.disorder := runVcp_disorder _ _ s t' h

theorem execAvsGet_disorder (m : VcpMsg) (s : State) (t' : State) (h : execAvsGet m s = .next t') : t'.disorder ≤ s.disorder := runVcp_disorder _ _ s t' h

theorem execPbmGetStats_disorder (m : VcpMsg) (s : State) (t' : State) (h : execPbmGetStats m s = .next t') : t'.disorder ≤ s.disorder := runVcp_disorder _ _ s t' h

theorem execPbmSetScrub_disorder (m : VcpMsg) (s : State) (t' : State) (h : execPbmSetScrub m s = .next t') : t'.disorder ≤ s.disorder := runVcp_disorder _ _ s t' h

theorem execPbmRetire_disorder (m : VcpMsg) (s : State) (t' : State) (h : execPbmRetire m s = .next t') : t'.disorder ≤ s.disorder := runVcp_disorder _ _ s t' h

theorem execPbmFlipmask_disorder (m : VcpMsg) (s : State) (t' : State) (h : execPbmFlipmask m s = .next t') : t'.disorder ≤ s.disorder := runVcp_disorder _ _ s t' h

theorem execFaultRead_disorder (m : VcpMsg) (s : State) (t' : State) (h : execFaultRead m s = .next t') : t'.disorder ≤ s.disorder := runVcp_disorder _ _ s t' h

theorem execFaultAck_disorder (m : VcpMsg) (s : State) (t' : State) (h : execFaultAck m s = .next t') : t'.disorder ≤ s.disorder := runVcp_disorder _ _ s t' h

theorem execFaultSetSeverity_disorder (m : VcpMsg) (s : State) (t' : State) (h : execFaultSetSeverity m s = .next t') : t'.disorder ≤ s.disorder := runVcp_disorder _ _ s t' h

theorem execFaultInject_disorder (m : VcpMsg) (s : State) (t' : State) (h : execFaultInject m s = .next t') : t'.disorder ≤ s.disorder := runVcp_disorder _ _ s t' h

theorem execFaultpinControl_disorder (m : VcpMsg) (s : State) (t' : State) (h : execFaultpinControl m s = .next t') : t'.disorder ≤ s.disorder := runVcp_disorder _ _ s t' h

theorem execFwGet_disorder (m : VcpMsg) (s : State) (t' : State) (h : execFwGet m s = .next t') : t'.disorder ≤ s.disorder := runVcp_disorder _ _ s t' h

theorem execFwStageBegin_disorder (m : VcpMsg) (s : State) (t' : State) (h : execFwStageBegin m s = .next t') : t'.disorder ≤ s.disorder := runVcp_disorder _ _ s t' h

theorem execFwStageData_disorder (m : VcpMsg) (s : State) (t' : State) (h : execFwStageData m s = .next t') : t'.disorder ≤ s.disorder := runVcp_disorder _ _ s t' h

theorem execFwStageCommit_disorder (m : VcpMsg) (s : State) (t' : State) (h : execFwStageCommit m s = .next t') : t'.disorder ≤ s.disorder := runVcp_disorder _ _ s t' h

theorem execFwActivate_disorder (m : VcpMsg) (s : State) (t' : State) (h : execFwActivate m s = .next t') : t'.disorder ≤ s.disorder := runVcp_disorder _ _ s t' h

theorem execActivationPauseEnd_disorder (s : State) (t' : State) (h : execActivationPauseEnd s = .next t') : t'.disorder ≤ s.disorder := by
  refine run_disorder _ s t' ?_ h
  intro s lim dz
  with_reducible repeat' (first | assumption | apply State.activationEnd_disorder | apply ifAon_disorder | dsimp only | simp only [State.disorder_mk, State.disorder_fold] | split | intro)

theorem execActivationLoadFail_disorder (s : State) (t' : State) (h : execActivationLoadFail s = .next t') : t'.disorder ≤ s.disorder := by
  refine run_disorder _ s t' ?_ h
  intro s lim dz
  with_reducible repeat' (first | assumption | apply State.loadFailed_disorder | apply ifAon_disorder | dsimp only | simp only [State.disorder_mk, State.disorder_fold] | split | intro)

theorem execTrialPass_disorder (s : State) (t' : State) (h : execTrialPass s = .next t') : t'.disorder ≤ s.disorder := by
  refine run_disorder _ s t' ?_ h
  intro s lim dz
  with_reducible repeat' (first | assumption | apply ifAon_disorder | apply State.trialPass_disorder | dsimp only | simp only [State.disorder_mk, State.disorder_fold] | split | intro)

theorem execTrialFail_disorder (dead : Bool) (s : State) (t' : State) (h : execTrialFail dead s = .next t') : t'.disorder ≤ s.disorder := by
  refine run_disorder _ s t' ?_ h
  intro s lim dz
  with_reducible repeat' (first | assumption | apply State.trialFail_disorder | apply ifAon_disorder | dsimp only | simp only [State.disorder_mk, State.disorder_fold] | split | intro)

theorem execDiagLoopback_disorder (m : VcpMsg) (s : State) (t' : State) (h : execDiagLoopback m s = .next t') : t'.disorder ≤ s.disorder := runVcp_disorder _ _ s t' h

theorem execDiagPhyTest_disorder (m : VcpMsg) (s : State) (t' : State) (h : execDiagPhyTest m s = .next t') : t'.disorder ≤ s.disorder := runVcp_disorder _ _ s t' h

theorem execDiagEye_disorder (m : VcpMsg) (s : State) (t' : State) (h : execDiagEye m s = .next t') : t'.disorder ≤ s.disorder := runVcp_disorder _ _ s t' h

theorem execJtagBypass_disorder (tdi : List Bool) (s : State) (t' : State) (h : execJtagBypass tdi s = .next t') : t'.disorder ≤ s.disorder := by
  refine run_disorder _ s t' ?_ h
  intro s lim dz
  with_reducible repeat' (first | assumption | apply State.tapBypass_disorder | dsimp only | simp only [State.disorder_mk, State.disorder_fold] | split | intro)

theorem execJtagIdcode_disorder (s : State) (t' : State) (h : execJtagIdcode s = .next t') : t'.disorder ≤ s.disorder := by
  refine run_disorder _ s t' ?_ h
  intro s lim dz
  with_reducible repeat' (first | assumption | apply State.tapIdcode_disorder | dsimp only | simp only [State.disorder_mk, State.disorder_fold] | split | intro)

theorem execJtagSamplePreload_disorder (balls cells : BitVec 103) (s : State) (t' : State) (h : execJtagSamplePreload balls cells s = .next t') : t'.disorder ≤ s.disorder := by
  refine run_disorder _ s t' ?_ h
  intro s lim dz
  with_reducible repeat' (first | assumption | apply State.tapSample_disorder | dsimp only | simp only [State.disorder_mk, State.disorder_fold] | split | intro)

theorem execJtagExtest_disorder (balls cells : BitVec 103) (s : State) (t' : State) (h : execJtagExtest balls cells s = .next t') : t'.disorder ≤ s.disorder := by
  refine run_disorder _ s t' ?_ h
  intro s lim dz
  with_reducible repeat' (first | assumption | apply State.tapExtest_disorder | dsimp only | simp only [State.disorder_mk, State.disorder_fold] | split | intro)

theorem execConnectRecognised_disorder (c : Connect) (s : State) (t' : State) (h : execConnectRecognised c s = .next t') : t'.disorder ≤ s.disorder := by
  refine run_disorder _ s t' ?_ h
  intro s lim dz
  with_reducible repeat' (first | assumption | apply State.connectSeen_disorder | apply ifUp_disorder | dsimp only | simp only [State.disorder_mk, State.disorder_fold] | split | intro)

theorem execDisconnectRecognised_disorder (p : Port) (s : State) (t' : State) (h : execDisconnectRecognised p s = .next t') : t'.disorder ≤ s.disorder := by
  refine run_disorder _ s t' ?_ h
  intro s lim dz
  with_reducible repeat' (first | assumption | apply State.disconnectSeen_disorder | apply ifUp_disorder | dsimp only | simp only [State.disorder_mk, State.disorder_fold] | split | intro)

theorem execPresentationPossible_disorder (p : Port) (s : State) (t' : State) (h : execPresentationPossible p s = .next t') : t'.disorder ≤ s.disorder := by
  refine run_disorder _ s t' ?_ h
  intro s lim dz
  with_reducible repeat' (first | assumption | apply State.presentPending_disorder | apply ifUp_disorder | dsimp only | simp only [State.disorder_mk, State.disorder_fold] | split | intro)

theorem execDebounceComplete_disorder (p : Port) (s : State) (t' : State) (h : execDebounceComplete p s = .next t') : t'.disorder ≤ s.disorder := by
  refine run_disorder _ s t' ?_ h
  intro s lim dz
  with_reducible repeat' (first | assumption | apply State.debounced_disorder | apply ifUp_disorder | dsimp only | simp only [State.disorder_mk, State.disorder_fold] | split | intro)

theorem execDeviceResetSe0End_disorder (p : Port) (found : FoundSpeed) (s : State) (t' : State) (h : execDeviceResetSe0End p found s = .next t') : t'.disorder ≤ s.disorder := by
  refine run_disorder _ s t' ?_ h
  intro s lim dz
  with_reducible repeat' (first | assumption | apply State.se0End_disorder | apply ifUp_disorder | dsimp only | simp only [State.disorder_mk, State.disorder_fold] | split | intro)

theorem execResetRecoveryEnd_disorder (p : Port) (s : State) (t' : State) (h : execResetRecoveryEnd p s = .next t') : t'.disorder ≤ s.disorder := by
  refine run_disorder _ s t' ?_ h
  intro s lim dz
  with_reducible repeat' (first | assumption | apply State.recoveryEnd_disorder | apply ifUp_disorder | dsimp only | simp only [State.disorder_mk, State.disorder_fold] | split | intro)

theorem execProbeRequestComplete_disorder (p : Port) (r : XferResult) (s : State) (t' : State) (h : execProbeRequestComplete p r s = .next t') : t'.disorder ≤ s.disorder := by
  refine run_disorder _ s t' ?_ h
  intro s lim dz
  with_reducible repeat' (first | assumption | apply State.probeRequest_disorder | apply ifUp_disorder | dsimp only | simp only [State.disorder_mk, State.disorder_fold] | split | intro)

theorem execProbeRequestTimeout_disorder (p : Port) (s : State) (t' : State) (h : execProbeRequestTimeout p s = .next t') : t'.disorder ≤ s.disorder := by
  refine run_disorder _ s t' ?_ h
  intro s lim dz
  with_reducible repeat' (first | assumption | apply State.requestFails_disorder | apply ifUp_disorder | dsimp only | simp only [State.disorder_mk, State.disorder_fold] | split | intro)

theorem execProbeTimeout_disorder (p : Port) (s : State) (t' : State) (h : execProbeTimeout p s = .next t') : t'.disorder ≤ s.disorder := by
  refine run_disorder _ s t' ?_ h
  intro s lim dz
  with_reducible repeat' (first | assumption | apply State.probeTimeout_disorder | apply ifUp_disorder | dsimp only | simp only [State.disorder_mk, State.disorder_fold] | split | intro)

theorem execNativeSsU0Held_disorder (p : Port) (gen2 : Bool) (s : State) (t' : State) (h : execNativeSsU0Held p gen2 s = .next t') : t'.disorder ≤ s.disorder := by
  refine run_disorder _ s t' ?_ h
  intro s lim dz
  with_reducible repeat' (first | assumption | apply State.ssU0Held_disorder | apply ifUp_disorder | dsimp only | simp only [State.disorder_mk, State.disorder_fold] | split | intro)

theorem execHostPortReset_disorder (k : Part) (pos : Pos) (f : HubReset) (s : State) (t' : State) (h : execHostPortReset k pos f s = .next t') : t'.disorder ≤ s.disorder := by
  refine run_disorder _ s t' ?_ h
  intro s lim dz
  with_reducible repeat' (first | assumption | apply State.hostPortReset_disorder | apply ifUp_disorder | dsimp only | simp only [State.disorder_mk, State.disorder_fold] | split | intro)

theorem execHostResetSe0End_disorder (p : Port) (found : FoundSpeed) (s : State) (t' : State) (h : execHostResetSe0End p found s = .next t') : t'.disorder ≤ s.disorder := by
  refine run_disorder _ s t' ?_ h
  intro s lim dz
  with_reducible repeat' (first | assumption | apply State.se0End_disorder | apply ifUp_disorder | dsimp only | simp only [State.disorder_mk, State.disorder_fold] | split | intro)

theorem execHubTopPortReset_disorder (k : Part) (f : HubReset) (n : Fin 9) (s : State) (t' : State) (h : execHubTopPortReset k f n s = .next t') : t'.disorder ≤ s.disorder := by
  refine run_disorder _ s t' ?_ h
  intro s lim dz
  with_reducible repeat' (first | assumption | apply State.topPortReset_disorder | apply ifUp_disorder | dsimp only | simp only [State.disorder_mk, State.disorder_fold] | split | intro)

theorem execHubClearPortPower_disorder (k : Part) (side : Side) (q : HubPort) (s : State) (t' : State) (h : execHubClearPortPower k side q s = .next t') : t'.disorder ≤ s.disorder := by
  refine run_disorder _ s t' ?_ h
  intro s lim dz
  with_reducible repeat' (first | assumption | apply State.clearPortPower_disorder | apply ifUp_disorder | dsimp only | simp only [State.disorder_mk, State.disorder_fold] | split | intro)

theorem execHubSetPortPower_disorder (k : Part) (side : Side) (q : HubPort) (s : State) (t' : State) (h : execHubSetPortPower k side q s = .next t') : t'.disorder ≤ s.disorder := by
  refine run_disorder _ s t' ?_ h
  intro s lim dz
  with_reducible repeat' (first | assumption | apply State.setPortPower_disorder | apply ifUp_disorder | dsimp only | simp only [State.disorder_mk, State.disorder_fold] | split | intro)

theorem execHubSetPortIndicator_disorder (k : Part) (side : Side) (q : HubPort) (s : State) (t' : State) (h : execHubSetPortIndicator k side q s = .next t') : t'.disorder ≤ s.disorder := by
  refine run_disorder _ s t' ?_ h
  intro s lim dz
  with_reducible repeat' (first | assumption | apply State.ctlError_disorder | apply ifUp_disorder | dsimp only | simp only [State.disorder_mk, State.disorder_fold] | split | intro)

theorem execHubPortSuspend_disorder (k : Part) (q : HubPort) (s : State) (t' : State) (h : execHubPortSuspend k q s = .next t') : t'.disorder ≤ s.disorder := by
  refine run_disorder _ s t' ?_ h
  intro s lim dz
  with_reducible repeat' (first | assumption | apply State.hubSuspend_disorder | apply ifUp_disorder | dsimp only | simp only [State.disorder_mk, State.disorder_fold] | split | intro)

theorem execHubPortResume_disorder (k : Part) (q : HubPort) (s : State) (t' : State) (h : execHubPortResume k q s = .next t') : t'.disorder ≤ s.disorder := by
  refine run_disorder _ s t' ?_ h
  intro s lim dz
  with_reducible repeat' (first | assumption | apply State.hubResume_disorder | apply ifUp_disorder | dsimp only | simp only [State.disorder_mk, State.disorder_fold] | split | intro)

theorem execClearTtBuffer_disorder (k : Part) (pos : Pos) (key : BitVec 16) (s : State) (t' : State) (h : execClearTtBuffer k pos key s = .next t') : t'.disorder ≤ s.disorder := by
  refine run_disorder _ s t' ?_ h
  intro s lim dz
  with_reducible repeat' (first | assumption | apply State.clearTt_disorder | apply ifUp_disorder | dsimp only | simp only [State.disorder_mk, State.disorder_fold] | split | intro)

theorem execResetTt_disorder (k : Part) (pos : Pos) (s : State) (t' : State) (h : execResetTt k pos s = .next t') : t'.disorder ≤ s.disorder := by
  refine run_disorder _ s t' ?_ h
  intro s lim dz
  with_reducible repeat' (first | assumption | apply State.resetTt_disorder | apply ifUp_disorder | dsimp only | simp only [State.disorder_mk, State.disorder_fold] | split | intro)

theorem execGetTtState_disorder (k : Part) (pos : Pos) (s : State) (t' : State) (h : execGetTtState k pos s = .next t') : t'.disorder ≤ s.disorder := by
  refine run_disorder _ s t' ?_ h
  intro s lim dz
  with_reducible repeat' (first | assumption | apply State.ctlError_disorder | apply ifUp_disorder | dsimp only | simp only [State.disorder_mk, State.disorder_fold] | split | intro)

theorem execStopTt_disorder (k : Part) (pos : Pos) (s : State) (t' : State) (h : execStopTt k pos s = .next t') : t'.disorder ≤ s.disorder := by
  refine run_disorder _ s t' ?_ h
  intro s lim dz
  with_reducible repeat' (first | assumption | apply State.ctlError_disorder | apply ifUp_disorder | dsimp only | simp only [State.disorder_mk, State.disorder_fold] | split | intro)

theorem execHubStandardRequest_disorder (k : Part) (side : Side) (h : HubIx) (r : HubRequest) (s : State) (t' : State) (h : execHubStandardRequest k side h r s = .next t') : t'.disorder ≤ s.disorder := by
  refine run_disorder _ s t' ?_ h
  intro s lim dz
  with_reducible repeat' (first | assumption | apply State.setup_disorder | apply State.hubRequest_disorder | apply ifUp_disorder | dsimp only | simp only [State.disorder_mk, State.disorder_fold] | split | intro)

theorem execLiftSuspendOrder_disorder (p : Port) (s : State) (t' : State) (h : execLiftSuspendOrder p s = .next t') : t'.disorder ≤ s.disorder := by
  refine run_disorder _ s t' ?_ h
  intro s lim dz
  with_reducible repeat' (first | assumption | apply State.suspendOrder_disorder | apply ifUp_disorder | dsimp only | simp only [State.disorder_mk, State.disorder_fold] | split | intro)

theorem execLiftResumeOrder_disorder (p : Port) (s : State) (t' : State) (h : execLiftResumeOrder p s = .next t') : t'.disorder ≤ s.disorder := by
  refine run_disorder _ s t' ?_ h
  intro s lim dz
  with_reducible repeat' (first | assumption | apply State.resumeOrder_disorder | apply ifUp_disorder | dsimp only | simp only [State.disorder_mk, State.disorder_fold] | split | intro)

theorem execResumeKEnd_disorder (p : Port) (s : State) (t' : State) (h : execResumeKEnd p s = .next t') : t'.disorder ≤ s.disorder := by
  refine run_disorder _ s t' ?_ h
  intro s lim dz
  with_reducible repeat' (first | assumption | apply State.resumeEnd_disorder | apply ifUp_disorder | dsimp only | simp only [State.disorder_mk, State.disorder_fold] | split | intro)

theorem execRemoteWakeKRecognised_disorder (p : Port) (delta : BitVec 16) (s : State) (t' : State) (h : execRemoteWakeKRecognised p delta s = .next t') : t'.disorder ≤ s.disorder := by
  refine run_disorder _ s t' ?_ h
  intro s lim dz
  with_reducible repeat' (first | assumption | apply State.remoteWakeK_disorder | apply ifUp_disorder | apply State.deviceWakes_disorder | dsimp only | simp only [State.disorder_mk, State.disorder_fold] | split | intro)

theorem execU3ExitHandshakeComplete_disorder (p : Port) (s : State) (t' : State) (h : execU3ExitHandshakeComplete p s = .next t') : t'.disorder ≤ s.disorder := by
  refine run_disorder _ s t' ?_ h
  intro s lim dz
  with_reducible repeat' (first | assumption | apply State.u3ExitDone_disorder | apply ifUp_disorder | apply State.deviceResumes_disorder | dsimp only | simp only [State.disorder_mk, State.disorder_fold] | split | intro)

theorem execHostU3ExitCollision_disorder (p : Port) (delta : BitVec 16) (s : State) (t' : State) (h : execHostU3ExitCollision p delta s = .next t') : t'.disorder ≤ s.disorder := by
  refine run_disorder _ s t' ?_ h
  intro s lim dz
  with_reducible repeat' (first | assumption | apply State.wakeCollision_disorder | apply ifUp_disorder | dsimp only | simp only [State.disorder_mk, State.disorder_fold] | split | intro)

theorem execUnarmedWakeResuspend_disorder (p : Port) (s : State) (t' : State) (h : execUnarmedWakeResuspend p s = .next t') : t'.disorder ≤ s.disorder := by
  refine run_disorder _ s t' ?_ h
  intro s lim dz
  with_reducible repeat' (first | assumption | apply State.unarmedResuspend_disorder | apply ifUp_disorder | dsimp only | simp only [State.disorder_mk, State.disorder_fold] | split | intro)

theorem execL1IdleExpiry_disorder (p : Port) (s : State) (t' : State) (h : execL1IdleExpiry p s = .next t') : t'.disorder ≤ s.disorder := by
  refine run_disorder _ s t' ?_ h
  intro s lim dz
  with_reducible repeat' (first | assumption | apply State.l1Idle_disorder | apply ifUp_disorder | dsimp only | simp only [State.disorder_mk, State.disorder_fold] | split | intro)

theorem execL1ExitRequest_disorder (p : Port) (s : State) (t' : State) (h : execL1ExitRequest p s = .next t') : t'.disorder ≤ s.disorder := by
  refine run_disorder _ s t' ?_ h
  intro s lim dz
  with_reducible repeat' (first | assumption | apply State.l1Exit_disorder | apply ifUp_disorder | dsimp only | simp only [State.disorder_mk, State.disorder_fold] | split | intro)

theorem execPortBabble_disorder (p : Port) (s : State) (t' : State) (h : execPortBabble p s = .next t') : t'.disorder ≤ s.disorder := by
  refine run_disorder _ s t' ?_ h
  intro s lim dz
  with_reducible repeat' (first | assumption | apply State.babble_disorder | apply ifUp_disorder | dsimp only | simp only [State.disorder_mk, State.disorder_fold] | split | intro)

theorem execDrainComplete_disorder (p : Port) (s : State) (t' : State) (h : execDrainComplete p s = .next t') : t'.disorder ≤ s.disorder := by
  refine run_disorder _ s t' ?_ h
  intro s lim dz
  with_reducible repeat' (first | assumption | apply State.drainComplete_disorder | apply ifUp_disorder | dsimp only | simp only [State.disorder_mk, State.disorder_fold] | split | intro)

theorem execDrainWindowExpiry_disorder (p : Port) (s : State) (t' : State) (h : execDrainWindowExpiry p s = .next t') : t'.disorder ≤ s.disorder := by
  refine run_disorder _ s t' ?_ h
  intro s lim dz
  with_reducible repeat' (first | assumption | apply State.drainExpired_disorder | apply ifUp_disorder | dsimp only | simp only [State.disorder_mk, State.disorder_fold] | split | intro)

theorem execDischargeIntervalEnd_disorder (p : Port) (s : State) (t' : State) (h : execDischargeIntervalEnd p s = .next t') : t'.disorder ≤ s.disorder := by
  refine run_disorder _ s t' ?_ h
  intro s lim dz
  with_reducible repeat' (first | assumption | apply State.dischargeEnd_disorder | apply ifAon_disorder | dsimp only | simp only [State.disorder_mk, State.disorder_fold] | split | intro)

theorem execStdGetStatus_disorder (p : Port) (recipient : Fin 3) (index len : BitVec 16) (s : State) (t' : State) (h : execStdGetStatus p recipient index len s = .next t') : t'.disorder ≤ s.disorder := by
  refine run_disorder _ s t' ?_ h
  intro s lim dz
  with_reducible repeat' (first | assumption | apply State.setup_disorder | apply ifUp_disorder | dsimp only | simp only [State.disorder_mk, State.disorder_fold] | split | intro)

theorem execStdClearEndpointHalt_disorder (p : Port) (ep : Byte) (s : State) (t' : State) (h : execStdClearEndpointHalt p ep s = .next t') : t'.disorder ≤ s.disorder := by
  refine run_disorder _ s t' ?_ h
  intro s lim dz
  with_reducible repeat' (first | assumption | apply State.setup_disorder | apply ifUp_disorder | dsimp only | simp only [State.disorder_mk, State.disorder_fold] | split | intro)

theorem execStdSetEndpointHalt_disorder (p : Port) (ep : Byte) (s : State) (t' : State) (h : execStdSetEndpointHalt p ep s = .next t') : t'.disorder ≤ s.disorder := by
  refine run_disorder _ s t' ?_ h
  intro s lim dz
  with_reducible repeat' (first | assumption | apply State.setup_disorder | apply ifUp_disorder | dsimp only | simp only [State.disorder_mk, State.disorder_fold] | split | intro)

theorem execStdSetFunctionSuspend_disorder (p : Port) (interface : Byte) (suspend wake : Bool) (s : State) (t' : State) (h : execStdSetFunctionSuspend p interface suspend wake s = .next t') : t'.disorder ≤ s.disorder := by
  refine run_disorder _ s t' ?_ h
  intro s lim dz
  with_reducible repeat' (first | assumption | apply State.setup_disorder | apply State.wake_disorder | apply ifUp_disorder | dsimp only | simp only [State.disorder_mk, State.disorder_fold] | split | intro)

theorem execStdU1U2Enable_disorder (p : Port) (u2 on : Bool) (s : State) (t' : State) (h : execStdU1U2Enable p u2 on s = .next t') : t'.disorder ≤ s.disorder := by
  refine run_disorder _ s t' ?_ h
  intro s lim dz
  with_reducible repeat' (first | assumption | apply State.setup_disorder | apply ifUp_disorder | dsimp only | simp only [State.disorder_mk, State.disorder_fold] | split | intro)

theorem execStdSetLtmEnable_disorder (p : Port) (s : State) (t' : State) (h : execStdSetLtmEnable p s = .next t') : t'.disorder ≤ s.disorder := by
  refine run_disorder _ s t' ?_ h
  intro s lim dz
  with_reducible repeat' (first | assumption | apply State.setup_disorder | apply ifUp_disorder | dsimp only | simp only [State.disorder_mk, State.disorder_fold] | split | intro)

theorem execStdDeviceRemoteWakeup_disorder (p : Port) (on : Bool) (s : State) (t' : State) (h : execStdDeviceRemoteWakeup p on s = .next t') : t'.disorder ≤ s.disorder := by
  refine run_disorder _ s t' ?_ h
  intro s lim dz
  with_reducible repeat' (first | assumption | apply State.setup_disorder | apply ifUp_disorder | dsimp only | simp only [State.disorder_mk, State.disorder_fold] | split | intro)

theorem execStdSetTestMode_disorder (p : Port) (selector : Byte) (s : State) (t' : State) (h : execStdSetTestMode p selector s = .next t') : t'.disorder ≤ s.disorder := by
  refine run_disorder _ s t' ?_ h
  intro s lim dz
  with_reducible repeat' (first | assumption | apply State.setup_disorder | apply ifUp_disorder | dsimp only | simp only [State.disorder_mk, State.disorder_fold] | split | intro)

theorem execStdSetAddress_disorder (p : Port) (address : BitVec 7) (s : State) (t' : State) (h : execStdSetAddress p address s = .next t') : t'.disorder ≤ s.disorder := by
  refine run_disorder _ s t' ?_ h
  intro s lim dz
  with_reducible repeat' (first | assumption | apply State.setup_disorder | apply ifUp_disorder | dsimp only | simp only [State.disorder_mk, State.disorder_fold] | split | intro)

theorem execStdGetDescriptor_disorder (p : Port) (type index : Byte) (language len : BitVec 16) (s : State) (t' : State) (h : execStdGetDescriptor p type index language len s = .next t') : t'.disorder ≤ s.disorder := by
  refine run_disorder _ s t' ?_ h
  intro s lim dz
  with_reducible repeat' (first | assumption | apply State.setup_disorder | apply ifUp_disorder | dsimp only | simp only [State.disorder_mk, State.disorder_fold] | split | intro)

theorem execStdSetDescriptor_disorder (p : Port) (type index : Byte) (language len : BitVec 16) (s : State) (t' : State) (h : execStdSetDescriptor p type index language len s = .next t') : t'.disorder ≤ s.disorder := by
  refine run_disorder _ s t' ?_ h
  intro s lim dz
  with_reducible repeat' (first | assumption | apply State.setup_disorder | apply ifUp_disorder | dsimp only | simp only [State.disorder_mk, State.disorder_fold] | split | intro)

theorem execStdGetConfiguration_disorder (p : Port) (s : State) (t' : State) (h : execStdGetConfiguration p s = .next t') : t'.disorder ≤ s.disorder := by
  refine run_disorder _ s t' ?_ h
  intro s lim dz
  with_reducible repeat' (first | assumption | apply State.setup_disorder | apply ifUp_disorder | dsimp only | simp only [State.disorder_mk, State.disorder_fold] | split | intro)

theorem execStdSetConfiguration_disorder (p : Port) (value : Byte) (s : State) (t' : State) (h : execStdSetConfiguration p value s = .next t') : t'.disorder ≤ s.disorder := by
  refine run_disorder _ s t' ?_ h
  intro s lim dz
  with_reducible repeat' (first | assumption | apply State.setup_disorder | apply ifUp_disorder | dsimp only | simp only [State.disorder_mk, State.disorder_fold] | split | intro)

theorem execStdGetInterface_disorder (p : Port) (interface : Byte) (s : State) (t' : State) (h : execStdGetInterface p interface s = .next t') : t'.disorder ≤ s.disorder := by
  refine run_disorder _ s t' ?_ h
  intro s lim dz
  with_reducible repeat' (first | assumption | apply State.setup_disorder | apply ifUp_disorder | dsimp only | simp only [State.disorder_mk, State.disorder_fold] | split | intro)

theorem execStdSetInterface_disorder (p : Port) (interface alt : Byte) (s : State) (t' : State) (h : execStdSetInterface p interface alt s = .next t') : t'.disorder ≤ s.disorder := by
  refine run_disorder _ s t' ?_ h
  intro s lim dz
  with_reducible repeat' (first | assumption | apply State.setup_disorder | apply ifUp_disorder | dsimp only | simp only [State.disorder_mk, State.disorder_fold] | split | intro)

theorem execStdSynchFrame_disorder (p : Port) (ep : Byte) (s : State) (t' : State) (h : execStdSynchFrame p ep s = .next t') : t'.disorder ≤ s.disorder := by
  refine run_disorder _ s t' ?_ h
  intro s lim dz
  with_reducible repeat' (first | assumption | apply State.setup_disorder | apply ifUp_disorder | dsimp only | simp only [State.disorder_mk, State.disorder_fold] | split | intro)

theorem execStdSetSel_disorder (p : Port) (data : List Byte) (s : State) (t' : State) (h : execStdSetSel p data s = .next t') : t'.disorder ≤ s.disorder := by
  refine run_disorder _ s t' ?_ h
  intro s lim dz
  with_reducible repeat' (first | assumption | apply State.setup_disorder | apply ifUp_disorder | dsimp only | simp only [State.disorder_mk, State.disorder_fold] | split | intro)

theorem execStdSetIsochDelay_disorder (p : Port) (delay : BitVec 16) (s : State) (t' : State) (h : execStdSetIsochDelay p delay s = .next t') : t'.disorder ≤ s.disorder := by
  refine run_disorder _ s t' ?_ h
  intro s lim dz
  with_reducible repeat' (first | assumption | apply State.setup_disorder | apply ifUp_disorder | dsimp only | simp only [State.disorder_mk, State.disorder_fold] | split | intro)

theorem execStdOtherRequest_disorder (p : Port) (r : Setup) (s : State) (t' : State) (h : execStdOtherRequest p r s = .next t') : t'.disorder ≤ s.disorder := by
  refine run_disorder _ s t' ?_ h
  intro s lim dz
  with_reducible repeat' (first | assumption | apply State.setup_disorder | apply ifUp_disorder | dsimp only | simp only [State.disorder_mk, State.disorder_fold] | split | intro)

theorem execClassVendorRequest_disorder (p : Port) (r : Setup) (s : State) (t' : State) (h : execClassVendorRequest p r s = .next t') : t'.disorder ≤ s.disorder := by
  refine run_disorder _ s t' ?_ h
  intro s lim dz
  with_reducible repeat' (first | assumption | apply State.setup_disorder | apply ifUp_disorder | dsimp only | simp only [State.disorder_mk, State.disorder_fold] | split | intro)

theorem execControlWriteDataPacket_disorder (p : Port) (bytes : List Byte) (s : State) (t' : State) (h : execControlWriteDataPacket p bytes s = .next t') : t'.disorder ≤ s.disorder := by
  refine run_disorder _ s t' ?_ h
  intro s lim dz
  with_reducible repeat' (first | assumption | apply State.ctlOutPacket_disorder | apply ifUp_disorder | dsimp only | simp only [State.disorder_mk, State.disorder_fold] | split | intro)

theorem execDownstreamControlInPacket_disorder (p : Port) (r : InAnswer) (s : State) (t' : State) (h : execDownstreamControlInPacket p r s = .next t') : t'.disorder ≤ s.disorder := by
  refine run_disorder _ s t' ?_ h
  intro s lim dz
  with_reducible repeat' (first | assumption | apply State.ctlInPacket_disorder | apply ifUp_disorder | dsimp only | simp only [State.disorder_mk, State.disorder_fold] | split | intro)

theorem execDownstreamStatusComplete_disorder (p : Port) (r : XferResult) (s : State) (t' : State) (h : execDownstreamStatusComplete p r s = .next t') : t'.disorder ≤ s.disorder := by
  refine run_disorder _ s t' ?_ h
  intro s lim dz
  with_reducible repeat' (first | assumption | apply State.ctlStatus_disorder | apply ifUp_disorder | dsimp only | simp only [State.disorder_mk, State.disorder_fold] | split | intro)

theorem execMicroframeBoundary_disorder (l : List Periodic) (s : State) (t' : State) (h : execMicroframeBoundary l s = .next t') : t'.disorder ≤ s.disorder := by
  refine run_disorder _ s t' ?_ h
  intro s lim dz
  with_reducible repeat' (first | assumption | apply State.microFrame_disorder | apply ifUp_disorder | dsimp only | simp only [State.disorder_mk, State.disorder_fold] | split | intro)

theorem execHsBulkInPacket_disorder (p : Port) (ep : Byte) (r : InAnswer) (s : State) (t' : State) (h : execHsBulkInPacket p ep r s = .next t') : t'.disorder ≤ s.disorder := by
  refine run_disorder _ s t' ?_ h
  intro s lim dz
  with_reducible repeat' (first | assumption | apply State.bulkIn_disorder | apply ifUp_disorder | dsimp only | simp only [State.disorder_mk, State.disorder_fold] | split | intro)

theorem execHoldWindowExpiry_disorder (p : Port) (ep : Byte) (s : State) (t' : State) (h : execHoldWindowExpiry p ep s = .next t') : t'.disorder ≤ s.disorder := by
  refine run_disorder _ s t' ?_ h
  intro s lim dz
  with_reducible repeat' (first | assumption | apply State.holdExpiry_disorder | apply ifUp_disorder | dsimp only | simp only [State.disorder_mk, State.disorder_fold] | split | intro)

theorem execSsAckTpReceived_disorder (p : Port) (ep : Byte) (a : AckTp) (s : State) (t' : State) (h : execSsAckTpReceived p ep a s = .next t') : t'.disorder ≤ s.disorder := by
  refine run_disorder _ s t' ?_ h
  intro s lim dz
  with_reducible repeat' (first | assumption | apply State.ackRequest_disorder | apply ifUp_disorder | dsimp only | simp only [State.disorder_mk, State.disorder_fold] | split | intro)

theorem execSsBulkOutPacket_disorder (p : Port) (ep : Byte) (bytes : List Byte) (s : State) (t' : State) (h : execSsBulkOutPacket p ep bytes s = .next t') : t'.disorder ≤ s.disorder := by
  refine run_disorder _ s t' ?_ h
  intro s lim dz
  with_reducible repeat' (first | assumption | apply State.bulkOut_disorder | apply ifUp_disorder | dsimp only | simp only [State.disorder_mk, State.disorder_fold] | split | intro)

theorem execHsOutTransactionComplete_disorder (p : Port) (ep : Byte) (r : OutAnswer) (s : State) (t' : State) (h : execHsOutTransactionComplete p ep r s = .next t') : t'.disorder ≤ s.disorder := by
  refine run_disorder _ s t' ?_ h
  intro s lim dz
  with_reducible repeat' (first | assumption | apply State.bulkOutDone_disorder | apply State.ctlOutDone_disorder | apply ifUp_disorder | dsimp only | simp only [State.disorder_mk, State.disorder_fold] | split | intro)

theorem execHsOutStall_disorder (p : Port) (ep : Byte) (s : State) (t' : State) (h : execHsOutStall p ep s = .next t') : t'.disorder ≤ s.disorder := by
  refine run_disorder _ s t' ?_ h
  intro s lim dz
  with_reducible repeat' (first | assumption | apply State.bulkOutStall_disorder | apply ifUp_disorder | apply State.ctlOutStall_disorder | dsimp only | simp only [State.disorder_mk, State.disorder_fold] | split | intro)

theorem execInterestLapse_disorder (p : Port) (ep : Byte) (s : State) (t' : State) (h : execInterestLapse p ep s = .next t') : t'.disorder ≤ s.disorder := by
  refine run_disorder _ s t' ?_ h
  intro s lim dz
  with_reducible repeat' (first | assumption | apply State.interestLapse_disorder | apply ifUp_disorder | dsimp only | simp only [State.disorder_mk, State.disorder_fold] | split | intro)

theorem execSsInterruptOutInterval_disorder (p : Port) (ep : Byte) (bytes : List Byte) (s : State) (t' : State) (h : execSsInterruptOutInterval p ep bytes s = .next t') : t'.disorder ≤ s.disorder := by
  refine run_disorder _ s t' ?_ h
  intro s lim dz
  with_reducible repeat' (first | assumption | apply State.interruptOut_disorder | apply ifUp_disorder | dsimp only | simp only [State.disorder_mk, State.disorder_fold] | split | intro)

theorem execIsochTimestampReceived_disorder (k : Part) (interval : BitVec 14) (delta : BitVec 13) (s : State) (t' : State) (h : execIsochTimestampReceived k interval delta s = .next t') : t'.disorder ≤ s.disorder := by
  refine run_disorder _ s t' ?_ h
  intro s lim dz
  with_reducible repeat' (first | assumption | apply State.timestamp_disorder | apply ifUp_disorder | dsimp only | simp only [State.disorder_mk, State.disorder_fold] | split | intro)

theorem execSsIsoOutPacket_disorder (p : Port) (ep : Byte) (bytes : List Byte) (bad : Bool) (s : State) (t' : State) (h : execSsIsoOutPacket p ep bytes bad s = .next t') : t'.disorder ≤ s.disorder := by
  refine run_disorder _ s t' ?_ h
  intro s lim dz
  with_reducible repeat' (first | assumption | apply State.isoOut_disorder | apply ifUp_disorder | dsimp only | simp only [State.disorder_mk, State.disorder_fold] | split | intro)

theorem execMergeAgeFlush_disorder (b : Bank) (word : Nat) (s : State) (t' : State) (h : execMergeAgeFlush b word s = .next t') : t'.disorder ≤ s.disorder := by
  refine run_disorder _ s t' ?_ h
  intro s lim dz
  with_reducible repeat' (first | assumption | apply State.mergeAge_disorder | apply ifUp_disorder | dsimp only | simp only [State.disorder_mk, State.disorder_fold] | split | intro)

theorem execScrubWord_disorder (b : Bank) (queued : Bool) (s : State) (t' : State) (h : execScrubWord b queued s = .next t') : t'.disorder ≤ s.disorder := by
  refine run_disorder _ s t' ?_ h
  intro s lim dz
  with_reducible repeat' (first | assumption | apply State.scrubWord_disorder | apply ifUp_disorder | dsimp only | simp only [State.disorder_mk, State.disorder_fold] | split | intro)

theorem execBucketLeakInterval_disorder (s : State) (t' : State) (h : execBucketLeakInterval s = .next t') : t'.disorder ≤ s.disorder := by
  refine run_disorder _ s t' ?_ h
  intro s lim dz
  with_reducible repeat' (first | assumption | apply State.bucketLeak_disorder | apply ifUp_disorder | dsimp only | simp only [State.disorder_mk, State.disorder_fold] | split | intro)

theorem execBankRowEmptyMove_disorder (b : Bank) (row : Nat) (s : State) (t' : State) (h : execBankRowEmptyMove b row s = .next t') : t'.disorder ≤ s.disorder := by
  refine run_disorder _ s t' ?_ h
  intro s lim dz
  with_reducible repeat' (first | assumption | apply State.emptyRowMove_disorder | apply ifUp_disorder | dsimp only | simp only [State.disorder_mk, State.disorder_fold] | split | intro)

theorem execBankRowTimeoutCopy_disorder (b : Bank) (row : Nat) (s : State) (t' : State) (h : execBankRowTimeoutCopy b row s = .next t') : t'.disorder ≤ s.disorder := by
  refine run_disorder _ s t' ?_ h
  intro s lim dz
  with_reducible repeat' (first | assumption | apply State.timeoutRowCopy_disorder | apply ifUp_disorder | dsimp only | simp only [State.disorder_mk, State.disorder_fold] | split | intro)

theorem execCcPatternChange_disorder (p : Port) (cc1 cc2 : CcLine) (s : State) (t' : State) (h : execCcPatternChange p cc1 cc2 s = .next t') : t'.disorder ≤ s.disorder := by
  refine run_disorder _ s t' ?_ h
  intro s lim dz
  with_reducible repeat' (first | assumption | apply State.ccChange_disorder | apply ifAon_disorder | dsimp only | simp only [State.disorder_mk, State.disorder_fold] | split | intro)

theorem execTccDebounceExpiry_disorder (p : Port) (s : State) (t' : State) (h : execTccDebounceExpiry p s = .next t') : t'.disorder ≤ s.disorder := by
  refine run_disorder _ s t' ?_ h
  intro s lim dz
  with_reducible repeat' (first | assumption | apply State.ccDebounced_disorder | apply ifAon_disorder | apply State.portWakes_disorder | dsimp only | simp only [State.disorder_mk, State.disorder_fold] | split | intro)

theorem execTpdDebounceExpiry_disorder (p : Port) (s : State) (t' : State) (h : execTpdDebounceExpiry p s = .next t') : t'.disorder ≤ s.disorder := by
  refine run_disorder _ s t' ?_ h
  intro s lim dz
  with_reducible repeat' (first | assumption | apply State.rdLost_disorder | apply ifAon_disorder | apply State.portWakes_disorder | dsimp only | simp only [State.disorder_mk, State.disorder_fold] | split | intro)

theorem execRaLost_disorder (p : Port) (s : State) (t' : State) (h : execRaLost p s = .next t') : t'.disorder ≤ s.disorder := by
  refine run_disorder _ s t' ?_ h
  intro s lim dz
  with_reducible repeat' (first | assumption | apply State.raLost_disorder | apply ifAon_disorder | dsimp only | simp only [State.disorder_mk, State.disorder_fold] | split | intro)

theorem execVconnOvercurrent_disorder (p : Port) (s : State) (t' : State) (h : execVconnOvercurrent p s = .next t') : t'.disorder ≤ s.disorder := by
  refine run_disorder _ s t' ?_ h
  intro s lim dz
  with_reducible repeat' (first | assumption | apply State.vconnOvercurrent_disorder | apply ifAon_disorder | dsimp only | simp only [State.disorder_mk, State.disorder_fold] | split | intro)

theorem execErrorRecoveryExpiry_disorder (p : Port) (s : State) (t' : State) (h : execErrorRecoveryExpiry p s = .next t') : t'.disorder ≤ s.disorder := by
  refine run_disorder _ s t' ?_ h
  intro s lim dz
  with_reducible repeat' (first | assumption | apply State.recoveryDone_disorder | apply ifAon_disorder | dsimp only | simp only [State.disorder_mk, State.disorder_fold] | split | intro)

theorem execCableDiscoveryStart_disorder (p : Port) (s : State) (t' : State) (h : execCableDiscoveryStart p s = .next t') : t'.disorder ≤ s.disorder := by
  refine run_disorder _ s t' ?_ h
  intro s lim dz
  with_reducible repeat' (first | assumption | apply State.discoverStart_disorder | apply ifUp_disorder | dsimp only | simp only [State.disorder_mk, State.disorder_fold] | split | intro)

theorem execSourceCapabilitiesSend_disorder (p : Port) (s : State) (t' : State) (h : execSourceCapabilitiesSend p s = .next t') : t'.disorder ≤ s.disorder := by
  refine run_disorder _ s t' ?_ h
  intro s lim dz
  with_reducible repeat' (first | assumption | apply State.capsDue_disorder | apply ifUp_disorder | dsimp only | simp only [State.disorder_mk, State.disorder_fold] | split | intro)

theorem execTypecSendSourceCapExpiry_disorder (p : Port) (s : State) (t' : State) (h : execTypecSendSourceCapExpiry p s = .next t') : t'.disorder ≤ s.disorder := by
  refine run_disorder _ s t' ?_ h
  intro s lim dz
  with_reducible repeat' (first | assumption | apply State.capsTimer_disorder | apply ifUp_disorder | dsimp only | simp only [State.disorder_mk, State.disorder_fold] | split | intro)

theorem execPdSopDetected_disorder (p : Port) (sop : Fin 5) (size : Fin 300) (s : State) (t' : State) (h : execPdSopDetected p sop size s = .next t') : t'.disorder ≤ s.disorder := by
  refine run_disorder _ s t' ?_ h
  intro s lim dz
  with_reducible repeat' (first | assumption | apply State.sopDetected_disorder | apply State.sopPrecedence_disorder | apply ifUp_disorder | dsimp only | simp only [State.disorder_mk, State.disorder_fold] | split | intro)

theorem execPdMessageReceived_disorder (p : Port) (sop : Fin 5) (bytes : List Byte) (s : State) (t' : State) (h : execPdMessageReceived p sop bytes s = .next t') : t'.disorder ≤ s.disorder := by
  refine run_disorder _ s t' ?_ h
  intro s lim dz
  with_reducible repeat' (first | assumption | apply State.pdReceived_disorder | apply ifUp_disorder | dsimp only | simp only [State.disorder_mk, State.disorder_fold] | split | intro)

theorem execPdGoodcrcReceived_disorder (p : Port) (s : State) (t' : State) (h : execPdGoodcrcReceived p s = .next t') : t'.disorder ≤ s.disorder := by
  refine run_disorder _ s t' ?_ h
  intro s lim dz
  with_reducible repeat' (first | assumption | apply State.goodCrcFor_disorder | apply ifUp_disorder | dsimp only | simp only [State.disorder_mk, State.disorder_fold] | split | intro)

theorem execPdReceiveTimeout_disorder (p : Port) (s : State) (t' : State) (h : execPdReceiveTimeout p s = .next t') : t'.disorder ≤ s.disorder := by
  refine run_disorder _ s t' ?_ h
  intro s lim dz
  with_reducible repeat' (first | assumption | apply State.receiveTimeout_disorder | apply ifUp_disorder | dsimp only | simp only [State.disorder_mk, State.disorder_fold] | split | intro)

theorem execFwdDeadlineExpiry_disorder (p : Port) (s : State) (t' : State) (h : execFwdDeadlineExpiry p s = .next t') : t'.disorder ≤ s.disorder := by
  refine run_disorder _ s t' ?_ h
  intro s lim dz
  with_reducible repeat' (first | assumption | apply State.fwdDeadline_disorder | apply ifUp_disorder | dsimp only | simp only [State.disorder_mk, State.disorder_fold] | split | intro)

theorem execWaitRetryExpiry_disorder (p : Port) (s : State) (t' : State) (h : execWaitRetryExpiry p s = .next t') : t'.disorder ≤ s.disorder := by
  refine run_disorder _ s t' ?_ h
  intro s lim dz
  with_reducible repeat' (first | assumption | apply State.waitRetryDue_disorder | apply ifUp_disorder | dsimp only | simp only [State.disorder_mk, State.disorder_fold] | split | intro)

theorem execSinkTxExpiry_disorder (p : Port) (s : State) (t' : State) (h : execSinkTxExpiry p s = .next t') : t'.disorder ≤ s.disorder := by
  refine run_disorder _ s t' ?_ h
  intro s lim dz
  with_reducible repeat' (first | assumption | apply State.sinkTxDone_disorder | apply ifUp_disorder | dsimp only | simp only [State.disorder_mk, State.disorder_fold] | split | intro)

theorem execSenderResponseTimeout_disorder (p : Port) (s : State) (t' : State) (h : execSenderResponseTimeout p s = .next t') : t'.disorder ≤ s.disorder := by
  refine run_disorder _ s t' ?_ h
  intro s lim dz
  with_reducible repeat' (first | assumption | apply State.responseTimeout_disorder | apply ifUp_disorder | dsimp only | simp only [State.disorder_mk, State.disorder_fold] | split | intro)

theorem execNoResponseTimeout_disorder (p : Port) (s : State) (t' : State) (h : execNoResponseTimeout p s = .next t') : t'.disorder ≤ s.disorder := by
  refine run_disorder _ s t' ?_ h
  intro s lim dz
  with_reducible repeat' (first | assumption | apply State.noResponse_disorder | apply ifUp_disorder | dsimp only | simp only [State.disorder_mk, State.disorder_fold] | split | intro)

theorem execPpsTimeout_disorder (p : Port) (s : State) (t' : State) (h : execPpsTimeout p s = .next t') : t'.disorder ≤ s.disorder := by
  refine run_disorder _ s t' ?_ h
  intro s lim dz
  with_reducible repeat' (first | assumption | apply State.ppsTimeout_disorder | apply ifUp_disorder | dsimp only | simp only [State.disorder_mk, State.disorder_fold] | split | intro)

theorem execSrcTransitionExpiry_disorder (p : Port) (s : State) (t' : State) (h : execSrcTransitionExpiry p s = .next t') : t'.disorder ≤ s.disorder := by
  refine run_disorder _ s t' ?_ h
  intro s lim dz
  with_reducible repeat' (first | assumption | apply State.srcTransition_disorder | apply ifUp_disorder | dsimp only | simp only [State.disorder_mk, State.disorder_fold] | split | intro)

theorem execTransitionPgood_disorder (p : Port) (s : State) (t' : State) (h : execTransitionPgood p s = .next t') : t'.disorder ≤ s.disorder := by
  refine run_disorder _ s t' ?_ h
  intro s lim dz
  with_reducible repeat' (first | assumption | apply State.transitionPgood_disorder | apply ifUp_disorder | dsimp only | simp only [State.disorder_mk, State.disorder_fold] | split | intro)

theorem execTransitionTimeout_disorder (p : Port) (s : State) (t' : State) (h : execTransitionTimeout p s = .next t') : t'.disorder ≤ s.disorder := by
  refine run_disorder _ s t' ?_ h
  intro s lim dz
  with_reducible repeat' (first | assumption | apply State.transitionTimeout_disorder | apply ifUp_disorder | dsimp only | simp only [State.disorder_mk, State.disorder_fold] | split | intro)

theorem execHardResetReceived_disorder (p : Port) (s : State) (t' : State) (h : execHardResetReceived p s = .next t') : t'.disorder ≤ s.disorder := by
  refine run_disorder _ s t' ?_ h
  intro s lim dz
  with_reducible repeat' (first | assumption | apply State.hardResetReceived_disorder | apply ifUp_disorder | dsimp only | simp only [State.disorder_mk, State.disorder_fold] | split | intro)

theorem execPsHardResetExpiry_disorder (p : Port) (s : State) (t' : State) (h : execPsHardResetExpiry p s = .next t') : t'.disorder ≤ s.disorder := by
  refine run_disorder _ s t' ?_ h
  intro s lim dz
  with_reducible repeat' (first | assumption | apply State.psHardReset_disorder | apply ifUp_disorder | dsimp only | simp only [State.disorder_mk, State.disorder_fold] | split | intro)

theorem execSrcRecoverExpiry_disorder (p : Port) (s : State) (t' : State) (h : execSrcRecoverExpiry p s = .next t') : t'.disorder ≤ s.disorder := by
  refine run_disorder _ s t' ?_ h
  intro s lim dz
  with_reducible repeat' (first | assumption | apply State.srcRecover_disorder | apply ifUp_disorder | dsimp only | simp only [State.disorder_mk, State.disorder_fold] | split | intro)

theorem execVconnSourceTimeout_disorder (p : Port) (s : State) (t' : State) (h : execVconnSourceTimeout p s = .next t') : t'.disorder ≤ s.disorder := by
  refine run_disorder _ s t' ?_ h
  intro s lim dz
  with_reducible repeat' (first | assumption | apply State.vconnTimeout_disorder | apply ifUp_disorder | dsimp only | simp only [State.disorder_mk, State.disorder_fold] | split | intro)

theorem execVconnLineLow_disorder (p : Port) (s : State) (t' : State) (h : execVconnLineLow p s = .next t') : t'.disorder ≤ s.disorder := by
  refine run_disorder _ s t' ?_ h
  intro s lim dz
  with_reducible repeat' (first | assumption | apply State.vconnLow_disorder | apply ifUp_disorder | dsimp only | simp only [State.disorder_mk, State.disorder_fold] | split | intro)

theorem execPdQueuePop_disorder (k : Slot) (s : State) (t' : State) (h : execPdQueuePop k s = .next t') : t'.disorder ≤ s.disorder := by
  refine run_disorder _ s t' ?_ h
  intro s lim dz
  with_reducible repeat' (first | assumption | apply State.popQueue_disorder | apply ifUp_disorder | dsimp only | simp only [State.disorder_mk, State.disorder_fold] | split | intro)

theorem execCdcSetLineCoding_disorder (k : Part) (u : Fin 6) (rate : BitVec 32) (format parity bits : Byte) (s : State) (t' : State) (h : execCdcSetLineCoding k u rate format parity bits s = .next t') : t'.disorder ≤ s.disorder := by
  refine run_disorder _ s t' ?_ h
  intro s lim dz
  with_reducible repeat' (first | assumption | apply State.cdcSetLine_disorder | apply ifUp_disorder | dsimp only | simp only [State.disorder_mk, State.disorder_fold] | split | intro)

theorem execCdcGetLineCoding_disorder (k : Part) (u : Fin 6) (s : State) (t' : State) (h : execCdcGetLineCoding k u s = .next t') : t'.disorder ≤ s.disorder := by
  refine run_disorder _ s t' ?_ h
  intro s lim dz
  with_reducible repeat' (first | assumption | apply State.cdcGetLine_disorder | apply ifUp_disorder | dsimp only | simp only [State.disorder_mk, State.disorder_fold] | split | intro)

theorem execCdcSetControlLineState_disorder (k : Part) (_u : Fin 6) (_lines : BitVec 16) (s : State) (t' : State) (h : execCdcSetControlLineState k _u _lines s = .next t') : t'.disorder ≤ s.disorder := by
  refine run_disorder _ s t' ?_ h
  intro s lim dz
  with_reducible repeat' (first | assumption | apply State.ctlOk_disorder | apply ifUp_disorder | dsimp only | simp only [State.disorder_mk, State.disorder_fold] | split | intro)

theorem execCdcSendBreak_disorder (k : Part) (_u : Fin 6) (_ms : BitVec 16) (s : State) (t' : State) (h : execCdcSendBreak k _u _ms s = .next t') : t'.disorder ≤ s.disorder := by
  refine run_disorder _ s t' ?_ h
  intro s lim dz
  with_reducible repeat' (first | assumption | apply State.ctlOk_disorder | apply ifUp_disorder | dsimp only | simp only [State.disorder_mk, State.disorder_fold] | split | intro)

theorem execSeatNLow_disorder (k : Slot) (s : State) (t' : State) (h : execSeatNLow k s = .next t') : t'.disorder ≤ s.disorder := by
  refine run_disorder _ s t' ?_ h
  intro s lim dz
  with_reducible repeat' (first | assumption | apply State.seatLow_disorder | apply ifAon_disorder | apply State.slotWakes_disorder | dsimp only | simp only [State.disorder_mk, State.disorder_fold] | split | intro)

theorem execSeatNHigh_disorder (k : Slot) (s : State) (t' : State) (h : execSeatNHigh k s = .next t') : t'.disorder ≤ s.disorder := by
  refine run_disorder _ s t' ?_ h
  intro s lim dz
  with_reducible repeat' (first | assumption | apply State.seatHigh_disorder | apply ifAon_disorder | apply State.slotWakes_disorder | dsimp only | simp only [State.disorder_mk, State.disorder_fold] | split | intro)

theorem execSeatDebounceExpiry_disorder (k : Slot) (s : State) (t' : State) (h : execSeatDebounceExpiry k s = .next t') : t'.disorder ≤ s.disorder := by
  refine run_disorder _ s t' ?_ h
  intro s lim dz
  with_reducible repeat' (first | assumption | apply State.seatDebounced_disorder | apply ifAon_disorder | dsimp only | simp only [State.disorder_mk, State.disorder_fold] | split | intro)

theorem execStartConditionHolds_disorder (k : Slot) (mv : Nat) (s : State) (t' : State) (h : execStartConditionHolds k mv s = .next t') : t'.disorder ≤ s.disorder := by
  refine run_disorder _ s t' ?_ h
  intro s lim dz
  with_reducible repeat' (first | assumption | apply State.startRamp_disorder | apply ifAon_disorder | dsimp only | simp only [State.disorder_mk, State.disorder_fold] | split | intro)

theorem execPgConditionsHold_disorder (k : Slot) (s : State) (t' : State) (h : execPgConditionsHold k s = .next t') : t'.disorder ≤ s.disorder := by
  refine run_disorder _ s t' ?_ h
  intro s lim dz
  with_reducible repeat' (first | assumption | apply State.pgHold_disorder | apply ifAon_disorder | dsimp only | simp only [State.disorder_mk, State.disorder_fold] | split | intro)

theorem execPgConditionsLost_disorder (k : Slot) (s : State) (t' : State) (h : execPgConditionsLost k s = .next t') : t'.disorder ≤ s.disorder := by
  refine run_disorder _ s t' ?_ h
  intro s lim dz
  with_reducible repeat' (first | assumption | apply State.pgConditionsLost_disorder | apply ifAon_disorder | dsimp only | simp only [State.disorder_mk, State.disorder_fold] | split | intro)

theorem execPgDelayExpiry_disorder (k : Slot) (s : State) (t' : State) (h : execPgDelayExpiry k s = .next t') : t'.disorder ≤ s.disorder := by
  refine run_disorder _ s t' ?_ h
  intro s lim dz
  with_reducible repeat' (first | assumption | apply State.pgDelay_disorder | apply ifAon_disorder | dsimp only | simp only [State.disorder_mk, State.disorder_fold] | split | intro)

theorem execPgLostTrip_disorder (k : Slot) (s : State) (t' : State) (h : execPgLostTrip k s = .next t') : t'.disorder ≤ s.disorder := by
  refine run_disorder _ s t' ?_ h
  intro s lim dz
  with_reducible repeat' (first | assumption | apply State.pgLost_disorder | apply ifAon_disorder | apply State.slotWakes_disorder | dsimp only | simp only [State.disorder_mk, State.disorder_fold] | split | intro)

theorem execFastTrip_disorder (k : Slot) (sense : BitVec 12) (s : State) (t' : State) (h : execFastTrip k sense s = .next t') : t'.disorder ≤ s.disorder := by
  refine run_disorder _ s t' ?_ h
  intro s lim dz
  with_reducible repeat' (first | assumption | apply State.fastTrip_disorder | apply ifAon_disorder | apply State.slotWakes_disorder | dsimp only | simp only [State.disorder_mk, State.disorder_fold] | split | intro)

theorem execBreakerTimeout_disorder (k : Slot) (sense : BitVec 12) (s : State) (t' : State) (h : execBreakerTimeout k sense s = .next t') : t'.disorder ≤ s.disorder := by
  refine run_disorder _ s t' ?_ h
  intro s lim dz
  with_reducible repeat' (first | assumption | apply State.breakerTrip_disorder | apply ifAon_disorder | apply State.slotWakes_disorder | dsimp only | simp only [State.disorder_mk, State.disorder_fold] | split | intro)

theorem execRampStall_disorder (k : Slot) (s : State) (t' : State) (h : execRampStall k s = .next t') : t'.disorder ≤ s.disorder := by
  refine run_disorder _ s t' ?_ h
  intro s lim dz
  with_reducible repeat' (first | assumption | apply State.rampStall_disorder | apply ifAon_disorder | apply State.slotWakes_disorder | dsimp only | simp only [State.disorder_mk, State.disorder_fold] | split | intro)

theorem execVinWindowExit_disorder (k : Slot) (mv : Nat) (s : State) (t' : State) (h : execVinWindowExit k mv s = .next t') : t'.disorder ≤ s.disorder := by
  refine run_disorder _ s t' ?_ h
  intro s lim dz
  with_reducible repeat' (first | assumption | apply State.vinExit_disorder | apply ifAon_disorder | apply State.slotWakes_disorder | dsimp only | simp only [State.disorder_mk, State.disorder_fold] | split | intro)

theorem execOffTimeExpiry_disorder (k : Slot) (mv : Nat) (s : State) (t' : State) (h : execOffTimeExpiry k mv s = .next t') : t'.disorder ≤ s.disorder := by
  refine run_disorder _ s t' ?_ h
  intro s lim dz
  with_reducible repeat' (first | assumption | apply State.offTime_disorder | apply ifAon_disorder | dsimp only | simp only [State.disorder_mk, State.disorder_fold] | split | intro)

theorem execTripWindowAging_disorder (k : Slot) (s : State) (t' : State) (h : execTripWindowAging k s = .next t') : t'.disorder ≤ s.disorder := by
  refine run_disorder _ s t' ?_ h
  intro s lim dz
  with_reducible repeat' (first | assumption | apply State.tripAging_disorder | apply ifAon_disorder | dsimp only | simp only [State.disorder_mk, State.disorder_fold] | split | intro)

theorem execSlotTelemetrySample_disorder (k : Slot) (vin vout sense : BitVec 12) (s : State) (t' : State) (h : execSlotTelemetrySample k vin vout sense s = .next t') : t'.disorder ≤ s.disorder := by
  refine run_disorder _ s t' ?_ h
  intro s lim dz
  with_reducible repeat' (first | assumption | apply State.slotSample_disorder | apply ifAon_disorder | dsimp only | simp only [State.disorder_mk, State.disorder_fold] | split | intro)

theorem execSlotDisableTimeout_disorder (k : Slot) (s : State) (t' : State) (h : execSlotDisableTimeout k s = .next t') : t'.disorder ≤ s.disorder := by
  refine run_disorder _ s t' ?_ h
  intro s lim dz
  with_reducible repeat' (first | assumption | apply State.slotDisableTimeout_disorder | apply ifAon_disorder | dsimp only | simp only [State.disorder_mk, State.disorder_fold] | split | intro)

theorem execChainFrame_disorder (k : Slot) (input : List Byte) (s : State) (t' : State) (h : execChainFrame k input s = .next t') : t'.disorder ≤ s.disorder := by
  refine run_disorder _ s t' ?_ h
  intro s lim dz
  with_reducible repeat' (first | assumption | apply State.chainFrame_disorder | apply ifAon_disorder | dsimp only | simp only [State.disorder_mk, State.disorder_fold] | split | intro)

theorem execChainSettlingTimeout_disorder (k : Slot) (s : State) (t' : State) (h : execChainSettlingTimeout k s = .next t') : t'.disorder ≤ s.disorder := by
  refine run_disorder _ s t' ?_ h
  intro s lim dz
  with_reducible repeat' (first | assumption | apply State.settlingTimeout_disorder | apply ifAon_disorder | dsimp only | simp only [State.disorder_mk, State.disorder_fold] | split | intro)

theorem execVbusReleaseStagger_disorder (k : Slot) (s : State) (t' : State) (h : execVbusReleaseStagger k s = .next t') : t'.disorder ≤ s.disorder := by
  refine run_disorder _ s t' ?_ h
  intro s lim dz
  with_reducible repeat' (first | assumption | apply State.releaseNext_disorder | apply ifAon_disorder | dsimp only | simp only [State.disorder_mk, State.disorder_fold] | split | intro)

theorem execNoPgoodTimeout_disorder (p : Port) (s : State) (t' : State) (h : execNoPgoodTimeout p s = .next t') : t'.disorder ≤ s.disorder := by
  refine run_disorder _ s t' ?_ h
  intro s lim dz
  with_reducible repeat' (first | assumption | apply State.noPgoodTimeout_disorder | apply ifAon_disorder | dsimp only | simp only [State.disorder_mk, State.disorder_fold] | split | intro)

theorem execPgoodLostTimeout_disorder (p : Port) (s : State) (t' : State) (h : execPgoodLostTimeout p s = .next t') : t'.disorder ≤ s.disorder := by
  refine run_disorder _ s t' ?_ h
  intro s lim dz
  with_reducible repeat' (first | assumption | apply State.pgoodLostTimeout_disorder | apply ifAon_disorder | dsimp only | simp only [State.disorder_mk, State.disorder_fold] | split | intro)

theorem execPowerDieLinkResume_disorder (d : Fin 2) (s : State) (t' : State) (h : execPowerDieLinkResume d s = .next t') : t'.disorder ≤ s.disorder := by
  refine run_disorder _ s t' ?_ h
  intro s lim dz
  with_reducible repeat' (first | assumption | apply State.powerLinkResume_disorder | apply ifAon_disorder | dsimp only | simp only [State.disorder_mk, State.disorder_fold] | split | intro)

theorem execSupplyWarningClear_disorder (s : State) (t' : State) (h : execSupplyWarningClear s = .next t') : t'.disorder ≤ s.disorder := by
  refine run_disorder _ s t' ?_ h
  intro s lim dz
  with_reducible repeat' (first | assumption | apply State.supplyRestored_disorder | apply ifAon_disorder | dsimp only | simp only [State.disorder_mk, State.disorder_fold] | split | intro)

theorem execMfInTransfer_disorder (k : Part) (ep : Byte) (s : State) (t' : State) (h : execMfInTransfer k ep s = .next t') : t'.disorder ≤ s.disorder := by
  refine run_disorder _ s t' ?_ h
  intro s lim dz
  with_reducible repeat' (first | assumption | apply State.mfIn_disorder | apply ifUp_disorder | dsimp only | simp only [State.disorder_mk, State.disorder_fold] | split | intro)

theorem execCdcBulkOutData_disorder (k : Part) (u : Fin 6) (data : List Byte) (s : State) (t' : State) (h : execCdcBulkOutData k u data s = .next t') : t'.disorder ≤ s.disorder := by
  refine run_disorder _ s t' ?_ h
  intro s lim dz
  with_reducible repeat' (first | assumption | apply State.cdcOut_disorder | apply ifUp_disorder | dsimp only | simp only [State.disorder_mk, State.disorder_fold] | split | intro)

theorem execSbuUartRx_disorder (p : Port) (c : Byte) (s : State) (t' : State) (h : execSbuUartRx p c s = .next t') : t'.disorder ≤ s.disorder := by
  refine run_disorder _ s t' ?_ h
  intro s lim dz
  with_reducible repeat' (first | assumption | apply State.uartRx_disorder | apply ifUp_disorder | dsimp only | simp only [State.disorder_mk, State.disorder_fold] | split | intro)

theorem execSmbusClockLowTimeout_disorder (s : State) (t' : State) (h : execSmbusClockLowTimeout s = .next t') : t'.disorder ≤ s.disorder := by
  refine run_disorder _ s t' ?_ h
  intro s lim dz
  with_reducible repeat' (first | assumption | dsimp only | simp only [State.disorder_mk, State.disorder_fold] | split | intro)

theorem execMidnightContractReleaseExpiry_disorder (p : Port) (s : State) (t' : State) (h : execMidnightContractReleaseExpiry p s = .next t') : t'.disorder ≤ s.disorder := by
  refine run_disorder _ s t' ?_ h
  intro s lim dz
  with_reducible repeat' (first | assumption | apply State.releaseExpired_disorder | apply ifAon_disorder | dsimp only | simp only [State.disorder_mk, State.disorder_fold] | split | intro)

theorem execVirtualLinkInactivityTimeout_disorder (k : Part) (q : HubPort) (u2 : Bool) (s : State) (t' : State) (h : execVirtualLinkInactivityTimeout k q u2 s = .next t') : t'.disorder ≤ s.disorder := by
  refine run_disorder _ s t' ?_ h
  intro s lim dz
  with_reducible repeat' (first | assumption | apply State.linkTimeout_disorder | apply ifUp_disorder | dsimp only | simp only [State.disorder_mk, State.disorder_fold] | split | intro)

theorem execNativeSsPacketReceived_disorder (p : Port) (fromDevice : Bool) (bytes : List Byte) (s : State) (t' : State) (h : execNativeSsPacketReceived p fromDevice bytes s = .next t') : t'.disorder ≤ s.disorder := by
  refine run_disorder _ s t' ?_ h
  intro s lim dz
  with_reducible repeat' (first | assumption | apply State.nativePacket_disorder | apply ifUp_disorder | dsimp only | simp only [State.disorder_mk, State.disorder_fold] | split | intro)

theorem execTtSplitTransaction_disorder (k : Part) (pos : Pos) (op : SplitOp) (s : State) (t' : State) (h : execTtSplitTransaction k pos op s = .next t') : t'.disorder ≤ s.disorder := by
  refine run_disorder _ s t' ?_ h
  intro s lim dz
  with_reducible repeat' (first | assumption | apply State.split_disorder | apply ifUp_disorder | dsimp only | simp only [State.disorder_mk, State.disorder_fold] | split | intro)

theorem execPassthroughTransaction_disorder (k : Part) (pos : Pos) (packet answer : List Byte) (lpmAck : Bool) (s : State) (t' : State) (h : execPassthroughTransaction k pos packet answer lpmAck s = .next t') : t'.disorder ≤ s.disorder := by
  refine run_disorder _ s t' ?_ h
  intro s lim dz
  with_reducible repeat' (first | assumption | apply State.answer_disorder | apply State.repeat__disorder | apply ifUp_disorder | dsimp only | simp only [State.disorder_mk, State.disorder_fold] | split | intro)

theorem execWrstRelease_disorder (board : BoardIn) (s : State) (t' : State) (h : execWrstRelease board s = .next t') : t'.disorder ≤ s.disorder := by
  refine run_disorder _ s t' ?_ h
  intro s lim dz
  with_reducible repeat' (first | assumption | apply State.wrstRelease_disorder | dsimp only | simp only [State.disorder_mk, State.disorder_fold] | split | intro)

theorem execVdpSrcDetected_disorder (p : Port) (present : Bool) (s : State) (t' : State) (h : execVdpSrcDetected p present s = .next t') : t'.disorder ≤ s.disorder := by
  refine run_disorder _ s t' ?_ h
  intro s lim dz
  with_reducible repeat' (first | assumption | apply State.vdpSrc_disorder | apply ifUp_disorder | dsimp only | simp only [State.disorder_mk, State.disorder_fold] | split | intro)

end Sys2Proof.Machine
end

