-- ==== Sys2Proof/Laws/PartOf.lean ====
section
/-! SUPPORT. Which operations leave the assignment of ports to partitions as it is. -/

set_option Elab.async false

namespace Sys2Proof.Machine

open Sys2Proof

@[simp] theorem partOf_ite (c : Prop) [Decidable c] (a b : State) : (if c then a else b).partOf = if c then a.partOf else b.partOf := by split <;> rfl

@[simp] theorem partOf_ite1 {α : Type} (c : Prop) [Decidable c] (a b : State × α) : (if c then a else b).1.partOf = if c then a.1.partOf else b.1.partOf := by split <;> rfl

@[simp] theorem forAll_partOf {α : Type} (l : List α) (f : State → α → State) (s : State) (h : ∀ s a, (f s a).partOf = s.partOf) : (forAll l f s).partOf = s.partOf := by
  unfold forAll
  induction l generalizing s with
  | nil => rfl
  | cons a l ih => rw [List.foldl_cons, ih, h]

@[simp] theorem State.fillRsp_partOf (s : State) (m : Mbox) : (State.fillRsp s m).partOf = s.partOf := by
  unfold State.fillRsp
  first
  | (simp; done)
  | (simp; (repeat' split) <;> (simp; done); done)
  | ((repeat' split) <;> (simp; done); done)
  | (simp only []; (repeat' split) <;> (simp; done); done)

@[simp] theorem State.fillEvt_partOf (s : State) (m : Mbox) : (State.fillEvt s m).partOf = s.partOf := by
  unfold State.fillEvt
  first
  | (simp; done)
  | (simp; (repeat' split) <;> (simp; done); done)
  | ((repeat' split) <;> (simp; done); done)
  | (simp only []; (repeat' split) <;> (simp; done); done)

@[simp] theorem State.fillMailbox_partOf (s : State) (m : Mbox) : (State.fillMailbox s m).partOf = s.partOf := by
  unfold State.fillMailbox
  first
  | (simp; done)
  | (simp; (repeat' split) <;> (simp; done); done)
  | ((repeat' split) <;> (simp; done); done)
  | (simp only []; (repeat' split) <;> (simp; done); done)

@[simp] theorem State.respond_partOf (s : State) (i : Sess) (r : Rsp) : (State.respond s i r).partOf = s.partOf := by
  unfold State.respond
  first
  | (simp; done)
  | (simp; (repeat' split) <;> (simp; done); done)
  | ((repeat' split) <;> (simp; done); done)
  | (simp only []; (repeat' split) <;> (simp; done); done)

@[simp] theorem State.deliver_partOf (s : State) (e : EventOut) (i : Sess) : (State.deliver s e i).partOf = s.partOf := by
  unfold State.deliver
  first
  | (simp; done)
  | (simp; (repeat' split) <;> (simp; done); done)
  | ((repeat' split) <;> (simp; done); done)
  | (simp only []; (repeat' split) <;> (simp; done); done)

@[simp] theorem State.issue_partOf (s : State) (e : EventOut) : (State.issue s e).partOf = s.partOf := by
  unfold State.issue
  first
  | (simp; done)
  | (simp; (repeat' split) <;> (simp; done); done)
  | ((repeat' split) <;> (simp; done); done)
  | (simp only []; (repeat' split) <;> (simp; done); done)

@[simp] theorem State.issueHeld_partOf (s : State) : (State.issueHeld s).partOf = s.partOf := by
  unfold State.issueHeld
  first
  | (simp; done)
  | (simp; (repeat' split) <;> (simp; done); done)
  | ((repeat' split) <;> (simp; done); done)
  | (simp only []; (repeat' split) <;> (simp; done); done)

@[simp] theorem State.portEvent_partOf (s : State) (p : Port) (code : Nat) (payload : List Byte) : (State.portEvent s p code payload).partOf = s.partOf := by
  unfold State.portEvent
  first
  | (simp; done)
  | (simp; (repeat' split) <;> (simp; done); done)
  | ((repeat' split) <;> (simp; done); done)
  | (simp only []; (repeat' split) <;> (simp; done); done)

@[simp] theorem State.slotEvent_partOf (s : State) (k : Slot) (code : Nat) (payload : List Byte) : (State.slotEvent s k code payload).partOf = s.partOf := by
  unfold State.slotEvent
  first
  | (simp; done)
  | (simp; (repeat' split) <;> (simp; done); done)
  | ((repeat' split) <;> (simp; done); done)
  | (simp only []; (repeat' split) <;> (simp; done); done)

@[simp] theorem State.bankEvent_partOf (s : State) (b : Bank) (code : Nat) (payload : List Byte) : (State.bankEvent s b code payload).partOf = s.partOf := by
  unfold State.bankEvent
  first
  | (simp; done)
  | (simp; (repeat' split) <;> (simp; done); done)
  | ((repeat' split) <;> (simp; done); done)
  | (simp only []; (repeat' split) <;> (simp; done); done)

@[simp] theorem State.complete_partOf (s : State) (i : Sess) (status : Byte) (payload : List Byte) : (State.complete s i status payload).partOf = s.partOf := by
  unfold State.complete
  first
  | (simp; done)
  | (simp; (repeat' split) <;> (simp; done); done)
  | ((repeat' split) <;> (simp; done); done)
  | (simp only []; (repeat' split) <;> (simp; done); done)

@[simp] theorem State.answer_partOf (s : State) (w : Wait) (status : Byte) (payload : List Byte) : (State.answer s w status payload).partOf = s.partOf := by
  unfold State.answer
  first
  | (simp; done)
  | (simp; (repeat' split) <;> (simp; done); done)
  | ((repeat' split) <;> (simp; done); done)
  | (simp only []; (repeat' split) <;> (simp; done); done)

@[simp] theorem refuse_partOf (s : State) (status : Byte) : (refuse s status).1.partOf = s.partOf := by
  unfold refuse
  first
  | (simp; done)
  | (simp; (repeat' split) <;> (simp; done); done)
  | ((repeat' split) <;> (simp; done); done)
  | (simp only []; (repeat' split) <;> (simp; done); done)

@[simp] theorem ok_partOf (s : State) : (ok s).1.partOf = s.partOf := by
  unfold ok
  first
  | (simp; done)
  | (simp; (repeat' split) <;> (simp; done); done)
  | ((repeat' split) <;> (simp; done); done)
  | (simp only []; (repeat' split) <;> (simp; done); done)

@[simp] theorem State.spend_partOf (s : State) (i : Injection) : (State.spend s i).partOf = s.partOf := by
  unfold State.spend
  simp

@[simp] theorem State.addrCheck_partOf (s : State) (b : Bank) : (State.addrCheck s b).1.partOf = s.partOf := by
  unfold State.addrCheck
  (repeat' split) <;> simp

@[simp] theorem State.storeWord_partOf (s : State) (b : Bank) (row word : Nat) (cw : BitVec 137) : (State.storeWord s b row word cw).partOf = s.partOf := by
  unfold State.storeWord
  simp
  (repeat' split) <;> simp

@[simp] theorem State.trackSticky_partOf (s : State) (b : Bank) (row word : Nat) (syn : BitVec 9) (position : Nat) (inj : Bool) : (State.trackSticky s b row word syn position inj).partOf = s.partOf := by
  unfold State.trackSticky
  simp

@[simp] theorem State.raiseBucket_partOf (s : State) (b : Bank) (inj : Bool) : (State.raiseBucket s b inj).partOf = s.partOf := by
  unfold State.raiseBucket
  simp

@[simp] theorem State.countClass_partOf (s : State) (b : Bank) (row word : Nat) (syn : BitVec 9) (inj : Bool) (c : EccClass) :
    (s.countClass b row word syn inj c).partOf = s.partOf := by
  unfold State.countClass; split <;> simp

@[simp] theorem State.readWord_partOf (s : State) (b : Bank) (row word : Nat) : (State.readWord s b row word).1.partOf = s.partOf := by
  unfold State.readWord
  simp
  intro _
  split <;> simp

@[simp] theorem State.flushEntry_partOf (s : State) (b : Bank) (e : MergeEntry) : (State.flushEntry s b e).partOf = s.partOf := by
  unfold State.flushEntry
  simp

@[simp] theorem State.fence_partOf (s : State) (b : Bank) : (State.fence s b).partOf = s.partOf := by
  unfold State.fence
  simp

@[simp] theorem State.writePartial_partOf (s : State) (b : Bank) (row word : Nat) (bytes : BitVec 128) (mask : BitVec 16) : (State.writePartial s b row word bytes mask).partOf = s.partOf := by
  unfold State.writePartial
  simp
  (repeat' split) <;> simp

@[simp] theorem State.writeFull_partOf (s : State) (b : Bank) (row word : Nat) (data : BitVec 128) : (State.writeFull s b row word data).partOf = s.partOf := by
  unfold State.writeFull
  simp

@[simp] theorem State.fillBank_partOf (s : State) (b : Bank) : (State.fillBank s b).partOf = s.partOf := by
  unfold State.fillBank
  simp

@[simp] theorem State.clearBank_partOf (s : State) (b : Bank) : (State.clearBank s b).partOf = s.partOf := by
  unfold State.clearBank
  first
  | (simp; done)
  | (simp; (repeat' split) <;> (simp; done); done)
  | ((repeat' split) <;> (simp; done); done)
  | (simp only []; (repeat' split) <;> (simp; done); done)

@[simp] theorem State.mapRetired_partOf (s : State) (b : Bank) (row : Nat) : (State.mapRetired s b row).partOf = s.partOf := by
  unfold State.mapRetired
  (repeat' split) <;> simp

@[simp] theorem State.closeBank_partOf (s : State) (b : Bank) : (State.closeBank s b).partOf = s.partOf := by
  unfold State.closeBank
  simp

@[simp] theorem State.applyRows_partOf (s : State) (which : Bank → Bool) : (State.applyRows s which).partOf = s.partOf := by
  unfold State.applyRows
  simp

@[simp] theorem State.riseDomain_partOf (s : State) (d : Fin 25) : (State.riseDomain s d).partOf = s.partOf := by
  unfold State.riseDomain
  simp

@[simp] theorem State.wakeBank_partOf (s : State) (b : Bank) : (State.wakeBank s b).partOf = s.partOf := by
  unfold State.wakeBank
  first
  | (simp; done)
  | (simp; (repeat' split) <;> (simp; done); done)
  | ((repeat' split) <;> (simp; done); done)
  | (simp only []; (repeat' split) <;> (simp; done); done)

@[simp] theorem writeRing_partOf (n : Nat) (rows : List (Bank × Nat)) (pos : Nat) (bytes : List Byte) (s : State) :
    (writeRing n rows pos bytes s).partOf = s.partOf := by
  induction n generalizing pos bytes s with
  | zero => rfl
  | succ n ih =>
    cases bytes with
    | nil => rfl
    | cons x xs =>
      unfold writeRing
      split
      · rfl
      · simp [ih]

@[simp] theorem State.readForDelivery_partOf (s : State) (b : Bank) (row word : Nat) : (State.readForDelivery s b row word).1.partOf = s.partOf := by
  unfold State.readForDelivery
  simp

@[simp] theorem readRing_partOf (n : Nat) (rows : List (Bank × Nat)) (pos len : Nat) (acc : List Byte) (s : State) :
    (readRing n rows pos len acc s).1.partOf = s.partOf := by
  induction n generalizing pos len acc s with
  | zero => rfl
  | succ n ih =>
    unfold readRing
    split
    · rfl
    · split
      · rfl
      · simp [ih]

@[simp] theorem State.ringWrite_partOf (s : State) (o : RowOwner) (bytes : List Byte) : (State.ringWrite s o bytes).partOf = s.partOf := by
  unfold State.ringWrite
  split <;> simp

@[simp] theorem State.ringPeek_partOf (s : State) (o : RowOwner) (off len : Nat) : (State.ringPeek s o off len).1.partOf = s.partOf := by
  unfold State.ringPeek
  split <;> simp

@[simp] theorem State.ringDrop_partOf (s : State) (o : RowOwner) (len : Nat) : (State.ringDrop s o len).partOf = s.partOf := by
  unfold State.ringDrop
  simp

end Sys2Proof.Machine
end

