-- ==== Sys2Proof/Laws/Effects.lean ====
section
/-! SUPPORT. What single operations do, for the statements about rows: VCP commands, boots, ports, PD, slots, the code of the packet buffer. -/

set_option Elab.async false

namespace Sys2Proof.Machine

open Sys2Proof

/-- A Management Function that is not presented wakes no host. -/
theorem mfWake_noSide (s : State) (k : Part) (h : (s.mfs.get k).side = none) : s.mfWake k = s := by
  unfold State.mfWake State.mfWakeDue
  simp [h]

/-- A power-on reset: every field at its reset value but the queue, the free counter, the flash and the fuses (R362). -/
theorem powerOff_run (s : State) : run (fun s => s.powerOff) s = .next { State.reset with
  pending := s.pending, freeCount := s.freeCount
  fw := { areas := s.fw.areas, dirs := s.fw.dirs, keys := s.fw.keys, securityFloor := s.fw.securityFloor } } := by
  rw [run_eq]
  refine congrArg Host.Outcome.next ?_
  have hc : s.begin.powerOff.calm := ⟨rfl, fun i => by simp [State.powerOff, State.reset], fun m => by simp [State.powerOff, State.reset]⟩
  show ((pumpLoop 4096 s.begin.powerOff.collect).wakeHosts s.begin) = _
  rw [collect_calm s.begin.powerOff hc.1, pumpLoop_calm 4096 s.begin.powerOff hc]
  rw [wakeHosts_same]
  · rfl
  · intro k hk
    simp [State.mfWakeDue, State.powerOff, State.reset] at hk

/-- RESYNC on a session whose command is next (R385). -/
theorem runVcp_resync (s : State) (m : VcpMsg) (h : s.takes 0x0002 m) (ht : decodeTarget m.target = some .device) :
    runVcp 0x0002 m s = .next (((opResync m s.heard).1.takeReply (s.cmdAt 0x0002 m) false (opResync m s.heard).2).endWith 4095 s.begin) := by
  rw [runVcp_heard s 0x0002 m h.1]
  have hob : s.heard.objection (s.cmdAt 0x0002 m) = none := by
    have := objection_none s 0x0002 m _ .device h rfl ht rfl rfl (fun d hd => by cases hd)
    rw [← this]
    rfl
  unfold State.runCmd
  dsimp only
  rw [show cmdOpens (s.cmdAt 0x0002 m) = none from rfl]
  dsimp only
  rw [show (s.cmdAt 0x0002 m).msg.session = m.session from rfl, erase_heard s 0x0002 m (h.1.1.1.2.1 m.session)]
  rw [show s.heard.sessions = s.sessions from rfl, h.2.1]
  rw [if_neg (by simp), if_pos (by rfl)]
  unfold State.execute
  rw [hob]
  dsimp only
  rw [runOp_up s.heard (s.cmdAt 0x0002 m) _ .device rfl ht h.1.2.2.2.2.2.1 (fun d hd => by cases hd)]
  rfl

/-- A HELLO that opens a session, by OPEN or FORCE_OPEN (R377, R378). -/
theorem hello_opens (s : State) (m : VcpMsg) (n o lo hi : Byte) (force : Bool) (h : s.hears (helloMsg n m))
    (hop : force = true ∨ (s.sessions.get m.session).isOpen = false) (hn : n = if force then 1 else 0)
    (hp : m.payload = [o, 1, 0, 0, lo, hi]) (hm : get16 m.payload 4 &&& 0xFC07 = 0) (ht : m.target = 0xFFFF) (hg : s.fw.staging = none) :
    runVcp 0x0001 (helloMsg n m) s = .next (
    (let u := (s.heard.updFw (fun x => x.orphan (· == m.session))).updSession m.session (fun x => { x.closed with
        isOpen := true, eventMask := BitVec.ofNat 16 (get16 m.payload 4)
        grant := x.pendingGrant || (!isOob m.session && s.fw.grantList.getLsbD m.session.val), pendingGrant := false
        lastCseq := m.cseq, stored := some { opcode := 0x0001, length := 6, response := none } })
     u.answers s 0x0001 (helloMsg n m) stOK ([BitVec.ofNat 8 m.session.val, BitVec.ofNat 8 (bnat (u.isSteward m.session)),
       if isOob m.session then 0xFF else BitVec.ofNat 8 m.session.val, 1] ++ le32 m.cseq.toNat ++ le32 0 ++ le32 u.fwVersion.toNat ++ le16 1024 ++
       le16 (BitVec.ofNat 16 (get16 m.payload 4)).toNat))) := by
  have e : (helloMsg n m).payload = [n, 1, 0, 0, lo, hi] := by simp [helloMsg, hp]
  have em : get16 m.payload 4 = get16 [n, 1, 0, 0, lo, hi] 4 := by rw [hp]; rfl
  have e4 : get16 [n, 1, 0, 0, lo, hi] 4 &&& 0xFC07 = 0 := by rw [← em]; exact hm
  rw [runVcp_heard s 0x0001 (helloMsg n m) h]
  have hco : cmdOpens (s.cmdAt 0x0001 (helloMsg n m)) = some force := by
    unfold cmdOpens
    rw [if_pos (by rfl), show (s.cmdAt 0x0001 (helloMsg n m)).msg.payload = [n, 1, 0, 0, lo, hi] from e, hn]
    cases force <;> rfl
  unfold State.runCmd
  dsimp only
  rw [hco]
  dsimp only
  rw [show (s.cmdAt 0x0001 (helloMsg n m)).msg.session = (helloMsg n m).session from rfl,
    erase_heard s 0x0001 (helloMsg n m) (h.1.1.2.1 m.session), show s.heard.sessions = s.sessions from rfl]
  rw [if_pos (by rcases hop with hop | hop <;> simp [hop, helloMsg])]
  have hob : s.heard.helloObjection (s.cmdAt 0x0001 (helloMsg n m)) = none := by
    obtain ⟨-, -, -, -, -, hfl, hst, -, hsh⟩ := h
    have b2 : (s.mode == .safeHold && !isOob m.session) = false := by
      by_cases hq : s.mode = .safeHold
      · simp [show isOob m.session = true from hsh hq]
      · simp [hq]
    unfold State.helloObjection
    have q1 : (s.cmdAt 0x0001 (helloMsg n m)).msg = helloMsg n m := rfl
    have q2 : (s.cmdAt 0x0001 (helloMsg n m)).bad = none := rfl
    have q3 : s.heard.mode = s.mode := rfl
    have q4 : (helloMsg n m).session = m.session := rfl
    have q5 : (helloMsg n m).target = m.target := rfl
    simp only [q1, q2, q3, q4, q5, e, hfl, hst, b2, ht]
    have q6 : (([n, 1, 0, 0, lo, hi] : List Byte).length != 6) = false := rfl
    have q7 : (byteAt [n, 1, 0, 0, lo, hi] 1 != 1) = false := rfl
    have q8 : zeroSlice [n, 1, 0, 0, lo, hi] 2 2 = true := rfl
    rw [q6, q7, q8, e4]
    rfl
  have hcl : s.heard.closeSession m.session = (s.heard.updSession m.session Session.closed).updFw (fun x => x.orphan (· == m.session)) := by
    unfold State.closeSession
    dsimp only
    rw [show ((s.heard.updSession m.session Session.closed).updFw (fun x => x.orphan (· == m.session))).fw.staging = none from hg]
  have hmk : get16 (s.cmdAt 0x0001 (helloMsg n m)).msg.payload 4 = get16 m.payload 4 := by
    rw [show (s.cmdAt 0x0001 (helloMsg n m)).msg.payload = [n, 1, 0, 0, lo, hi] from e, em]
  have hpl : (helloMsg n m).payload.length = 6 := by rw [e]; rfl
  have hint : ∀ t : State, t.interim (s.cmdAt 0x0001 (helloMsg n m)) = t := by
    intro t
    unfold State.interim
    rw [show (s.cmdAt 0x0001 (helloMsg n m)).msg.flags = 0 from h.2.2.2.2.2.1]
    rfl
  have hcons : ∀ (f g : Session → Session) (w : FirmwareState → FirmwareState),
      ((((s.heard.updSession m.session f).updFw w).updSession m.session g).consume (s.cmdAt 0x0001 (helloMsg n m))) =
        (s.heard.updFw w).updSession m.session (fun x =>
          { g (f x) with lastCseq := m.cseq, stored := some { opcode := 0x0001, length := 6, response := none } }) := by
    intro f g w
    have : ((s.heard.sessions.upd m.session f).upd m.session g).upd m.session (fun x =>
        { x with lastCseq := m.cseq, stored := some { opcode := 0x0001, length := (helloMsg n m).payload.length, response := none } }) =
        s.heard.sessions.upd m.session (fun x =>
          { g (f x) with lastCseq := m.cseq, stored := some { opcode := 0x0001, length := 6, response := none } }) := by
      rw [Tab.upd_upd_same, Tab.upd_upd_same, hpl]
    exact congrArg (fun t => ({ s.heard.updFw w with sessions := t } : State)) this
  unfold State.hello
  dsimp only
  rw [hob]
  dsimp only
  rw [show (s.cmdAt 0x0001 (helloMsg n m)).msg.session = m.session from rfl, hcl, hmk, hint, hcons]
  rfl

/-- Taking a command leaves every grant. -/
theorem taken_grant (s : State) (op : BitVec 16) (m : VcpMsg) (i : Sess) : ((s.taken op m).sessions.get i).grant = (s.sessions.get i).grant := by
  unfold State.taken
  dsimp only
  rw [Tab.get_upd]
  split
  · subst_vars; rfl
  · rfl

/-- Taking a command leaves who is a steward. -/
theorem taken_isSteward (s : State) (op : BitVec 16) (m : VcpMsg) (i : Sess) : (s.taken op m).isSteward i = s.isSteward i := by
  unfold State.isSteward
  rw [taken_grant]

/-- Taking a command leaves what PART_GET reports. -/
theorem partStatus_taken (s : State) (op : BitVec 16) (m : VcpMsg) (k : Part) : (s.taken op m).partStatus k = s.partStatus k := by
  unfold State.partStatus
  dsimp only
  rw [taken_grant]
  rfl

/-- A new Rp level leaves the Type-C state. -/
theorem setRpLevel_tc (s : State) (p : Port) (r : RpLevel) : ((s.setRpLevel p r).pd.get p).tc = (s.pd.get p).tc := by
  unfold State.setRpLevel State.refreshWord State.writeWord State.setRp State.updVbus State.updPd
  (repeat' split) <;> simp

/-- A port bound to a UART slot records the slot. -/
theorem bindUart_pd (s : State) (p : Port) (u : Fin 6)
    (h : (List.finRange 6).find? (fun u => ((s.uarts.get (s.partOf.get p)).get u).port == none) = some u) :
    ((s.bindUart p).pd.get p).uartSlot = some u := by
  unfold State.bindUart
  dsimp only
  rw [h]
  simp [State.updPd]

/-- What ends a command looks only at what the hosts were waited for before, and at the events issued. -/
theorem finish_before (u a b : State) (h : a.sessions = b.sessions) (hw : ∀ k, a.mfWakeDue k = b.mfWakeDue k) : u.finish a = u.finish b := by
  unfold State.finish State.endWith State.wakeHosts
  simp only [h, hw]

/-- MODE_REQUEST is its VCP command with the board inputs of a restart noted. -/
theorem modeRequest_eq (s : State) (m : VcpMsg) (b : BoardIn) : execModeRequest m b s = runVcp 0x0702 m { s with board := b } := by
  unfold execModeRequest runVcp
  rw [run_eq, run_eq]
  exact congrArg Host.Outcome.next (finish_before _ _ _ rfl (fun _ => rfl))

/-- Two changes of one port are one. -/
@[simp] theorem updPort_updPort (s : State) (p : Port) (f g : PortState → PortState) : (s.updPort p f).updPort p g = s.updPort p (fun x => g (f x)) := by
  simp [State.updPort]

/-- Changes of a port that agree on its present value are equal. -/
theorem updPort_congr (s : State) (p : Port) (f g : PortState → PortState) (h : f (s.ports.get p) = g (s.ports.get p)) : s.updPort p f = s.updPort p g := by
  simp [State.updPort, Tab.upd, h]

/-- Changes of an upstream port that agree on its present value are equal. -/
theorem updUp_congr (s : State) (k : Part) (f g : UpState → UpState) (h : f (s.ups.get k) = g (s.ups.get k)) : s.updUp k f = s.updUp k g := by
  simp [State.updUp, Tab.upd, h]

/-- Clearing the wires leaves whether a port may present. -/
theorem begin_possible (s : State) (p : Port) : s.begin.possible p = s.possible p := rfl

/-- Whether a port may present depends on what it needs and its data mode alone. -/
theorem possible_upd (s : State) (p : Port) (f : PortState → PortState) (h1 : (f (s.ports.get p)).needSs = (s.ports.get p).needSs)
    (h2 : (f (s.ports.get p)).needU2 = (s.ports.get p).needU2) (h3 : (f (s.ports.get p)).dataMode = (s.ports.get p).dataMode)
    (h4 : (f (s.ports.get p)).line = (s.ports.get p).line) :
    (s.updPort p f).possible p = s.possible p := by
  unfold State.possible
  dsimp only
  rw [State.updPort_ports, Tab.get_upd_same, h1, h2, h3, h4]
  rfl

/-- Equal effects end in equal next states. -/
theorem finish_congr {a b c : State} (h : a = b) : (Host.Outcome.next (a.finish c) : Host.Outcome State Fault Refusal) = .next (b.finish c) := by rw [h]

/-- What the descriptors and settings of a presentation say does not depend on the wakes it has sent. -/
@[simp] theorem woken_attrs (x : LiftPort) (l : List Nat) : ({ x with woken := l } : LiftPort).attrs = x.attrs := rfl

@[simp] theorem woken_hasIface (x : LiftPort) (l : List Nat) (i : Nat) : ({ x with woken := l } : LiftPort).hasIface i = x.hasIface i := rfl

@[simp] theorem woken_altOf (x : LiftPort) (l : List Nat) (i : Nat) : ({ x with woken := l } : LiftPort).altOf i = x.altOf i := rfl

@[simp] theorem woken_funcOf (x : LiftPort) (l : List Nat) (i : Nat) : ({ x with woken := l } : LiftPort).funcOf i = x.funcOf i := rfl

/-- A SETUP packet on a presentation that stands is treated at once (R119). -/
theorem stands_setup {s : State} {p : Port} {x : LiftPort} (h : s.stands p x) (r : Setup) (d : List Byte) :
    s.begin.setup p r d = (s.called p).treat p { x with woken := [] } r d := by
  obtain ⟨h1, h2, h3, h4, h5, -, h7, h8, -⟩ := h
  have e : (s.begin.useLink p).lift.get p = some x := h1
  have hd : (s.begin.useLink p).dropCtl p = s.begin.useLink p := by
    unfold State.dropCtl
    rw [e]; simp [h5]
  have hc : (s.called p).lift.get p = some { x with woken := [] } := by
    simp [State.called, State.updLift, e]
  unfold State.setup
  rw [show s.begin.lift.get p = some x from h1]
  dsimp only
  rw [show s.begin.ports = s.ports from rfl, if_neg (by simp [h2, h7]), if_neg h8, if_neg (by simp [h3]), if_neg (by simp [h4]), hd,
    show (s.begin.useLink p).updLift p (fun x => { x with woken := [] }) = s.called p from rfl, hc]

/-- A request of the host that meets no ready packet is answered at once, and nothing else goes out (R143, R200). -/
theorem ackRequest_empty (s : State) (p : Port) (a : Byte) (n : Fin 32) (c : EpCtx) (h : s.ctx p a = some c) (hk : c.kind ≠ .isochronous) (hr : c.ready = []) :
    s.ackRequest p a ⟨n, []⟩ = s.ackTp p a (min 1 (min n.val 8)) := by
  have hi : (s.ctx p a).any (·.kind == .isochronous) = false := by rw [h]; simpa using hk
  have hj : s.jobOf (.lifted p a n) = { what := .lifted p a n, left := min n.val 8, fresh := true } := by
    unfold State.jobOf; simp only; rw [hi]; rfl
  have hs : s.serveJob (s.partOf.get p) (s.jobOf (.lifted p a n)) = (s.ackTp p a (min 1 (min n.val 8)), none) := by
    rw [hj]
    unfold State.serveJob
    simp only [if_pos]
    rw [hi, h]
    simp [hr]
  unfold State.ackRequest
  simp only [List.filter_nil, List.length_nil]
  show serveUp (9 + 1) _ _ _ _ _ = _
  unfold serveUp
  simp only [List.filter_nil, List.map_nil, List.append_nil, State.pickJob, hs, Option.toList_none]
  rfl

/-- Counting touches no context. -/
theorem count_ctx (s : State) (p : Port) (a b : Byte) (f : EpCounters → EpCounters) : (s.count p a f).ctx p b = s.ctx p b := by
  unfold State.count State.ctx
  rw [State.updLift_lift, Tab.get_upd_same]
  cases s.lift.get p with
  | none => rfl
  | some x => simp only [Option.map_some, Option.bind_some]; split <;> rfl

/-- Counting leaves a presentation a presentation. -/
theorem count_lift (s : State) (p : Port) (a : Byte) (f : EpCounters → EpCounters) (x : LiftPort) (h : s.lift.get p = some x) :
    ∃ y, (s.count p a f).lift.get p = some y := by
  unfold State.count
  rw [State.updLift_lift, Tab.get_upd_same, h]
  exact ⟨_, rfl⟩

/-- A byte widened and narrowed is itself. -/
theorem setWidth8_back : ∀ ep : Byte, BitVec.ofNat 8 (ep.setWidth 16 : BitVec 16).toNat = ep := by decide +kernel

/-- An address widened and narrowed is itself. -/
theorem setWidth7_back : ∀ a : BitVec 7, BitVec.ofNat 7 (a.setWidth 16 : BitVec 16).toNat = a := by decide +kernel

/-- The descriptor type in the wValue of a configuration descriptor request. -/
theorem configIndex_type : ∀ i : Byte, ((0x0200 ||| i.setWidth 16 : BitVec 16)).toNat / 256 = 2 := by decide +kernel

/-- The descriptor index in the wValue of a configuration descriptor request. -/
theorem configIndex_index : ∀ i : Byte, ((0x0200 ||| i.setWidth 16 : BitVec 16)).toNat % 256 = i.toNat := by decide +kernel

/-- The descriptor type in the wValue of a string descriptor request. -/
theorem stringIndex_type : ∀ i : Byte, ((0x0300 ||| i.setWidth 16 : BitVec 16)).toNat / 256 = 3 := by decide +kernel

/-- Bit 7 of bmRequestType 0x80. -/
theorem testBit_128 : Nat.testBit 128 7 = true := by decide

/-- Two changes of one port's PD side are one. -/
@[simp] theorem updPd_updPd (s : State) (p : Port) (f g : PdPort → PdPort) : (s.updPd p f).updPd p g = s.updPd p (fun x => g (f x)) := by
  simp [State.updPd]

/-- Changes of a port's PD side that agree on its present value are equal. -/
theorem updPd_congr (s : State) (p : Port) (f g : PdPort → PdPort) (h : f (s.pd.get p) = g (s.pd.get p)) : s.updPd p f = s.updPd p g := by
  simp [State.updPd, Tab.upd, h]

/-- The PD side of a port after its change. -/
@[simp] theorem updPd_get (s : State) (p : Port) (f : PdPort → PdPort) : (s.updPd p f).pd.get p = f (s.pd.get p) := by simp [State.updPd]

/-- Clearing the wires leaves the PD side. -/
theorem begin_pd (s : State) : s.begin.pd = s.pd := rfl

/-- Clearing the wires leaves whether PD runs on a port. -/
theorem begin_pdRuns (s : State) (p : Port) : s.begin.pdRuns p = s.pdRuns p := rfl

/-- Starting a command changes no port's supply. -/
theorem begin_vbusGood (s : State) (p : Port) : s.begin.vbusGood p = s.vbusGood p := rfl

/-- Two changes of one slot are one. -/
@[simp] theorem updSlot_updSlot (s : State) (k : Slot) (f g : SlotState → SlotState) : (s.updSlot k f).updSlot k g = s.updSlot k (fun x => g (f x)) := by
  simp [State.updSlot]

/-- Changes of a slot that agree on its present value are equal. -/
theorem updSlot_congr (s : State) (k : Slot) (f g : SlotState → SlotState) (h : f (s.slots.get k) = g (s.slots.get k)) : s.updSlot k f = s.updSlot k g := by
  simp [State.updSlot, Tab.upd, h]

/-- A slot after its change. -/
@[simp] theorem updSlot_get (s : State) (k : Slot) (f : SlotState → SlotState) : (s.updSlot k f).slots.get k = f (s.slots.get k) := by simp [State.updSlot]

/-- Clearing the wires leaves the slots. -/
theorem begin_slots (s : State) : s.begin.slots = s.slots := rfl

/-- What ends a command leaves the queue, the TAP, the cells, TESTMODE, PORST_N and the fuses. -/
theorem finish_parts (a b : State) : (a.finish b).pending = a.pending ∧ (a.finish b).tap = a.tap ∧ (a.finish b).scan = a.scan ∧ (a.finish b).testmode = a.testmode ∧ (a.finish b).aonUp = a.aonUp ∧ (a.finish b).fw.fuses = a.fw.fuses := by
  have e := State.finish_hands a b
  exact ⟨congrArg (·.1) e, congrArg (·.2.1) e, congrArg (·.2.2.1) e, congrArg (·.2.2.2.1) e, congrArg (·.2.2.2.2.1) e, congrArg (·.2.2.2.2.2) e⟩

/-- What PORST_RELEASE does to the queue, the TAP, TESTMODE, PORST_N and the fuses. -/
theorem porst_hands (s : State) (tm : Bool) (b : BoardIn) : (s.porstRelease tm b).hands =
    if s.mode = .off && !s.aonUp then (s.pending, s.tap, s.scan, tm, true, s.fw.fuses) else s.hands := by
  unfold State.porstRelease
  by_cases h : (s.mode = .off && !s.aonUp) = true
  · rw [if_pos h, if_pos h]
    dsimp only
    split
    · rfl
    · rw [State.strapAndBoot_hands, State.dawn_hands]; rfl
  · rw [if_neg h, if_neg h]

/-- EXTEST is taken under TESTMODE only, and leaves the queue, the levels and the firmware. -/
theorem extest_parts (s : State) (a b : BitVec 103) : (s.tapExtest a b).pending = s.pending ∧ (s.tapExtest a b).testmode = s.testmode ∧ (s.tapExtest a b).aonUp = s.aonUp ∧ (s.tapExtest a b).fw = s.fw ∧ ((s.tapExtest a b).tap = s.tap ∨ s.testmode = true) := by
  unfold State.tapExtest
  by_cases h : s.testmode = true
  · rw [if_pos h]; exact ⟨rfl, rfl, rfl, rfl, .inr h⟩
  · rw [if_neg h]; exact ⟨rfl, rfl, rfl, rfl, .inl rfl⟩

/-- A read leaves the stored words. -/
theorem State.readWord_cells (s : State) (b : Bank) (row word : Nat) : (s.readWord b row word).1.cells = s.cells := by
  unfold State.readWord
  simp
  (repeat' split) <;> simp

/-- The data bits of an encoded word. -/
theorem encode_data (d : BitVec 128) : (pbmEncode d).setWidth 128 = d := by
  unfold pbmEncode
  rw [BitVec.setWidth_append]
  simp

/-- The syndrome of one wrong bit names its position (Table 7.4). -/
theorem classify_column : ∀ i : Fin 137, classify (BitVec.ofNat 9 (pbmColumns.getD i.val 0)) = .correctable i.val := by decide +kernel

/-- A position of the code word has a column. -/
theorem column_at (i : Nat) (hi : i < 137) : pbmColumns.getD i 0 ∈ pbmColumns := by
  have hl : pbmColumns.length = 137 := by decide +kernel
  rw [List.getD_eq_getElem?_getD, List.getElem?_eq_getElem (by omega)]
  exact List.getElem_mem _

/-- Two positions have different columns. -/
theorem column_ne (i j : Nat) (hij : i < j) (hj : j < 137) : pbmColumns.getD i 0 ≠ pbmColumns.getD j 0 := by
  have hl : pbmColumns.length = 137 := by decide +kernel
  rw [List.getD_eq_getElem?_getD, List.getD_eq_getElem?_getD, List.getElem?_eq_getElem (by omega), List.getElem?_eq_getElem (by omega)]
  intro e
  simp only [Option.getD_some] at e
  exact absurd e (List.pairwise_iff_getElem.mp pbmColumns_nodup i j (by omega) (by omega) hij)

/-- The syndrome of two wrong bits is a double error (Table 7.4). -/
theorem classify_two (a b : Nat) (ha : a ∈ pbmColumns) (hb : b ∈ pbmColumns) (hab : a ≠ b) : classify (BitVec.ofNat 9 a ^^^ BitVec.ofNat 9 b) = .double := by
  have la := pbmColumns_small a ha
  have lb := pbmColumns_small b hb
  have oa := pbmColumns_odd a ha
  have ob := pbmColumns_odd b hb
  have w := weight_xor a b
  have lx : a ^^^ b < 512 := Nat.xor_lt_two_pow (n := 9) la lb
  have we : weight 9 (a ^^^ b) % 2 = 0 := by omega
  rw [← BitVec.ofNat_xor]
  have tn : (BitVec.ofNat 9 (a ^^^ b)).toNat = a ^^^ b := by rw [BitVec.toNat_ofNat]; exact Nat.mod_eq_of_lt lx
  unfold classify
  rw [if_neg, if_neg]
  · have nn : pbmColumns.idxOf? (BitVec.ofNat 9 (a ^^^ b)).toNat = none := by
      rw [List.idxOf?_eq_none_iff, tn]
      intro hm
      have := pbmColumns_odd _ hm
      omega
    rw [nn]
    dsimp only
    rw [tn, if_pos we]
  · intro e
    have := congrArg BitVec.toNat e
    rw [tn] at this
    rw [this] at we
    revert we
    decide +kernel
  · intro e
    have := congrArg BitVec.toNat e
    rw [tn] at this
    have h0 : a ^^^ b = 0 := by simpa using this
    refine hab ?_
    have := congrArg (· ^^^ b) h0
    simpa [Nat.xor_assoc] using this

/-- Writing one word leaves what every other address reads as. -/
theorem cellsGet_put_other (l : List (Nat × BitVec 137)) (k j : Nat) (v : BitVec 137) (h : cellsWf l = true) (hj : j ≠ k) : cellsGet (cellsPut l k v) j = cellsGet l j := by
  induction l with
  | nil =>
    unfold cellsPut
    split
    · rfl
    · simp [cellsGet, Ne.symm hj]
  | cons c l ih =>
    obtain ⟨a, w⟩ := c
    obtain ⟨-, h2, h3⟩ := (cellsWf_cons _ l).mp h
    unfold cellsPut
    split
    · rw [cellsGet, cellsGet, ih h3]
    · split
      · subst_vars
        split
        · rw [cellsGet, if_neg (fun e => hj e.symm)]
        · rw [cellsGet, cellsGet, if_neg (fun e => hj e.symm), if_neg (fun e => hj e.symm)]
      · split
        · rfl
        · rw [cellsGet, if_neg (fun e => hj e.symm)]

/-- A command that needs steward scope, from a session without it, is DENIED (R379). -/
theorem runVcp_scope (s : State) (op : BitVec 16) (m : VcpMsg) (t : Target) (r : CmdRow) (h : s.hears m) (ho : (s.sessions.get m.session).isOpen = true)
    (hc : m.cseq = (s.sessions.get m.session).lastCseq + 1) (hb : s.fw.bootFailed = false) (hs : s.isSteward m.session = false)
    (hr : cmdRow op = some r) (ht : decodeTarget m.target = some t) (hf : r.fits t = true) (hsc : r.scope = .steward) (h1 : op ≠ 0x0001) (h2 : op ≠ 0x0002) :
    runVcp op m s = .next ((s.taken op m).answers s op m stDenied []) := by
  refine runVcp_objected s op m stDenied h ho hc (.inl h1) h2 ?_
  obtain ⟨-, -, -, -, -, hfl, hst, hl, hsh⟩ := h
  unfold State.objection
  have e1 : ¬ 1024 < m.payload.length := by omega
  have e2 : (s.taken op m).fw = s.fw := rfl
  have e3 : (s.taken op m).mode = s.mode := rfl
  simp only [State.cmdAt, if_neg e1, hr, hfl, hst, e2, e3, hb, ht, hf, Bool.false_and, State.inScope, hsc, taken_isSteward, hs]
  by_cases hm : s.mode = .safeHold
  · simp [hsh hm]
  · simp [hm]

/-- A steward's command in a mode that does not admit it is NOT_IN_MODE (R396). -/
theorem runVcp_mode (s : State) (op : BitVec 16) (m : VcpMsg) (t : Target) (r : CmdRow) (h : s.hears m) (ho : (s.sessions.get m.session).isOpen = true)
    (hc : m.cseq = (s.sessions.get m.session).lastCseq + 1) (hb : s.fw.bootFailed = false) (hs : s.isSteward m.session = true)
    (hr : cmdRow op = some r) (ht : decodeTarget m.target = some t) (hf : r.fits t = true) (h1 : op ≠ 0x0001) (h2 : op ≠ 0x0002) (_h3 : op ≠ 0)
    (hm : ∀ u : State, u.mode = s.mode → u.modeAdmits op.toNat = false) :
    runVcp op m s = .next ((s.taken op m).answers s op m stNotInMode []) := by
  refine runVcp_objected s op m stNotInMode h ho hc (.inl h1) h2 ?_
  obtain ⟨-, -, -, -, -, hfl, hst, hl, hsh⟩ := h
  unfold State.objection
  have e1 : ¬ 1024 < m.payload.length := by omega
  have e2 : (s.taken op m).fw = s.fw := rfl
  have e3 : (s.taken op m).mode = s.mode := rfl
  have e4 : (s.taken op m).inScope m.session r t = true := by
    unfold State.inScope
    cases r.scope <;> simp [taken_isSteward, hs]
  simp only [State.cmdAt, if_neg e1, hr, hfl, hst, e2, e3, hb, ht, hf, Bool.false_and, e4, hm (s.taken op m) rfl]
  by_cases hm : s.mode = .safeHold
  · simp [hsh hm]
  · simp [hm]

/-- The events an EVENT_ACK drops, given where the first event it keeps stands (R383). -/
theorem ack_split (gone kept : List EventRec) (e : BitVec 32) (h1 : ∀ r ∈ gone, (e - r.eseq).toNat < 2 ^ 31) (h2 : ∀ r ∈ kept.head?, 2 ^ 31 ≤ (e - r.eseq).toNat) :
    (gone ++ kept).dropWhile (fun r => (e - r.eseq).toNat < 2 ^ 31) = kept := by
  induction gone with
  | nil =>
    cases kept with
    | nil => rfl
    | cons r kept =>
      have := h2 r (by simp)
      rw [List.nil_append, List.dropWhile_cons_of_neg]
      simp only [decide_eq_true_eq]
      omega
  | cons r gone ih =>
    rw [List.cons_append, List.dropWhile_cons_of_pos]
    · exact ih (fun q hq => h1 q (List.mem_cons_of_mem _ hq))
    · simp only [decide_eq_true_eq]
      exact h1 r (List.mem_cons_self ..)

/-- Putting something on a wire leaves the queue, the TAP and the fuses. -/
theorem emit_tap (s : State) (e : Emission) : (s.emit e).hands = s.hands := by simp

/-- A trial that passes leaves the queue, the TAP and the levels. -/
theorem trialPass_parts (s : State) : s.trialPass.pending = s.pending ∧ s.trialPass.tap = s.tap ∧ s.trialPass.scan = s.scan ∧ s.trialPass.testmode = s.testmode ∧ s.trialPass.aonUp = s.aonUp := by
  unfold State.trialPass
  split
  · exact ⟨rfl, rfl, rfl, rfl, rfl⟩
  · split
    · exact ⟨rfl, rfl, rfl, rfl, rfl⟩
    · rename_i t _ _
      dsimp only
      have e := State.sendResult_hands (s.updFw (fun x => { ((x.writeDir (fun d => { d with active := t.slot, trial := none })).mark (slotArea t.slot) .valid).revoke (slice (s.fw.area (slotArea t.slot)) 0 512) with
        securityFloor := max x.securityFloor (secverOf (slice (s.fw.area (slotArea t.slot)) 0 512)), trial := none })) t.session t.cseq 2 false
      exact ⟨congrArg (·.1) e, congrArg (·.2.1) e, congrArg (·.2.2.1) e, congrArg (·.2.2.2.1) e, congrArg (·.2.2.2.2.1) e⟩

/-- A trial that passes only raises the floor and only revokes keys (R407). -/
theorem trialPass_fuses (s : State) : s.fw.securityFloor ≤ s.trialPass.fw.fuses.1 ∧ ∀ i, (s.fw.keys.get i).revoked = true → (s.trialPass.fw.fuses.2.get i).revoked = true := by
  unfold State.trialPass
  split
  · exact ⟨Nat.le_refl _, fun _ h => h⟩
  · split
    · exact ⟨Nat.le_refl _, fun _ h => h⟩
    · rename_i tt _ _
      dsimp only
      have e := fun (x : FirmwareState → FirmwareState) => congrArg (·.2.2.2.2.2) (State.sendResult_hands (s.updFw x) tt.session tt.cseq 2 false)
      simp only [State.hands] at e
      rw [e]
      simp only [State.updFw, FirmwareState.fuses]
      refine ⟨Nat.le_max_left _ _, ?_⟩
      intro i hi
      show ((FirmwareState.revoke _ _).keys.get i).revoked = true
      unfold FirmwareState.revoke
      simp only [Tab.get_of]
      have hk : (((s.fw.writeDir (fun d => { d with active := tt.slot, trial := none })).mark (slotArea tt.slot) AreaSt.valid)).keys = s.fw.keys := by
        have := congrArg (·.2) (FirmwareState.fuses_mark (s.fw.writeDir (fun d => { d with active := tt.slot, trial := none })) (slotArea tt.slot) AreaSt.valid)
        rw [FirmwareState.fuses_writeDir] at this
        exact this
      rw [hk]
      split
      · rfl
      · exact hi

end Sys2Proof.Machine
end

