-- ==== Sys2Proof/Laws/PerInstr.lean ====
section
/-! SUPPORT. What holds of every command as syntax, one lemma per constructor: no word of the opcode table spells it, since the table gives no row any bits. -/

set_option Elab.async false

namespace Sys2Proof.Laws.NoWord

open Sys2Proof

/-- No word of the table's bits spells the command. -/
def Statement (c : Instr) : Prop := ∀ nbits w : Nat, decodeTableWord nbits w ≠ some c

theorem porstRelease (testmode : Bool) (board : BoardIn) : Statement (.porstRelease testmode board) := fun _ _ h => nomatch h
theorem porstAssert : Statement (.porstAssert) := fun _ _ h => nomatch h
theorem vaonFailure : Statement (.vaonFailure) := fun _ _ h => nomatch h
theorem wrstAssert : Statement (.wrstAssert) := fun _ _ h => nomatch h
theorem eveningHoldExpiry : Statement (.eveningHoldExpiry) := fun _ _ h => nomatch h
theorem autoNightStart : Statement (.autoNightStart) := fun _ _ h => nomatch h
theorem duskStepsComplete : Statement (.duskStepsComplete) := fun _ _ h => nomatch h
theorem duskStepBoundExpiry : Statement (.duskStepBoundExpiry) := fun _ _ h => nomatch h
theorem prepareAnswer (d : Fin 25) (defer : Bool) : Statement (.prepareAnswer d defer) := fun _ _ h => nomatch h
theorem prepareDeferExpiry (d : Fin 25) : Statement (.prepareDeferExpiry d) := fun _ _ h => nomatch h
theorem budgetDomainEntryStart (d : Fin 25) : Statement (.budgetDomainEntryStart d) := fun _ _ h => nomatch h
theorem domainExitStart (k : Part) : Statement (.domainExitStart k) := fun _ _ h => nomatch h
theorem domainExitComplete (d : Fin 25) : Statement (.domainExitComplete d) := fun _ _ h => nomatch h
theorem nightWake (code : Fin 32) : Statement (.nightWake code) := fun _ _ h => nomatch h
theorem midnightWake (code : Fin 32) (board : BoardIn) : Statement (.midnightWake code board) := fun _ _ h => nomatch h
theorem wakeNLow : Statement (.wakeNLow) := fun _ _ h => nomatch h
theorem wakeTimerExpiry : Statement (.wakeTimerExpiry) := fun _ _ h => nomatch h
theorem midnightDetachDischargeEnd (p : Port) : Statement (.midnightDetachDischargeEnd p) := fun _ _ h => nomatch h
theorem dieSensorSample (t : Tab 16 (BitVec 16)) : Statement (.dieSensorSample t) := fun _ _ h => nomatch h
theorem thermalEveningExpiry (sensor : Fin 16) : Statement (.thermalEveningExpiry sensor) := fun _ _ h => nomatch h
theorem tjCriticalExpiry (sensor : Fin 16) : Statement (.tjCriticalExpiry sensor) := fun _ _ h => nomatch h
theorem supplyWarning (r : Fin 8) (mv : Nat) : Statement (.supplyWarning r mv) := fun _ _ h => nomatch h
theorem supplyFailure (r : Fin 8) (mv : Nat) : Statement (.supplyFailure r mv) := fun _ _ h => nomatch h
theorem rcToCrystalSwitch : Statement (.rcToCrystalSwitch) := fun _ _ h => nomatch h
theorem rcCalibration : Statement (.rcCalibration) := fun _ _ h => nomatch h
theorem refclkLoss : Statement (.refclkLoss) := fun _ _ h => nomatch h
theorem avsReevaluate : Statement (.avsReevaluate) := fun _ _ h => nomatch h
theorem avsRequestComplete (voltage current temp status : BitVec 16) : Statement (.avsRequestComplete voltage current temp status) := fun _ _ h => nomatch h
theorem avsTimeout : Statement (.avsTimeout) := fun _ _ h => nomatch h
theorem avsHoldoffExpiry : Statement (.avsHoldoffExpiry) := fun _ _ h => nomatch h
theorem portDieLinkRetrain (d : Fin 2) : Statement (.portDieLinkRetrain d) := fun _ _ h => nomatch h
theorem portDieLinkReturn (d : Fin 2) : Statement (.portDieLinkReturn d) := fun _ _ h => nomatch h
theorem portDieLinkFail (d : Fin 2) : Statement (.portDieLinkFail d) := fun _ _ h => nomatch h
theorem powerDieLinkTimeout (d : Fin 2) : Statement (.powerDieLinkTimeout d) := fun _ _ h => nomatch h
theorem powerDieCoreSilence (d : Fin 2) : Statement (.powerDieCoreSilence d) := fun _ _ h => nomatch h
theorem alarmPairChange (pair : Fin 6) (on : Bool) : Statement (.alarmPairChange pair on) := fun _ _ h => nomatch h
theorem alarmLineFault (pair : Fin 6) (level : Bool) : Statement (.alarmLineFault pair level) := fun _ _ h => nomatch h
theorem detectorMessage (source : BitVec 12) (kind : Byte) (info : BitVec 32) (injected : Bool) (place : Option (Port × Byte)) : Statement (.detectorMessage source kind info injected place) := fun _ _ h => nomatch h
theorem faultNPulseEnd : Statement (.faultNPulseEnd) := fun _ _ h => nomatch h
theorem safeHoldRestartDone : Statement (.safeHoldRestartDone) := fun _ _ h => nomatch h
theorem reactionComplete (r : Reaction) (aged : Nat) (intact : Bool) : Statement (.reactionComplete r aged intact) := fun _ _ h => nomatch h
theorem resetShadowEnd (r : Reaction) : Statement (.resetShadowEnd r) := fun _ _ h => nomatch h
theorem watchdogKick : Statement (.watchdogKick) := fun _ _ h => nomatch h
theorem watchdogExpiry : Statement (.watchdogExpiry) := fun _ _ h => nomatch h
theorem injectionDurationEnd (source : BitVec 12) (kind : Byte) : Statement (.injectionDurationEnd source kind) := fun _ _ h => nomatch h
theorem injectionArmTimeout (source : BitVec 12) (kind : Byte) : Statement (.injectionArmTimeout source kind) := fun _ _ h => nomatch h
theorem upstreamAttach (k : Part) (orientation : Bool) (rp : Fin 4) (vbus : Bool) : Statement (.upstreamAttach k orientation rp vbus) := fun _ _ h => nomatch h
theorem upstreamDetach (k : Part) : Statement (.upstreamDetach k) := fun _ _ h => nomatch h
theorem upstreamVbusAbsent (k : Part) (late : Bool) : Statement (.upstreamVbusAbsent k late) := fun _ _ h => nomatch h
theorem upstreamPdMessage (k : Part) (m : UpPdIn) : Statement (.upstreamPdMessage k m) := fun _ _ h => nomatch h
theorem upstreamHardReset (k : Part) : Statement (.upstreamHardReset k) := fun _ _ h => nomatch h
theorem ssLinkU0 (k : Part) (rate : SsRate) : Statement (.ssLinkU0 k rate) := fun _ _ h => nomatch h
theorem ssDecidingExpiry (k : Part) : Statement (.ssDecidingExpiry k) := fun _ _ h => nomatch h
theorem ssInactiveExpiry (k : Part) (link : UpLink) : Statement (.ssInactiveExpiry k link) := fun _ _ h => nomatch h
theorem ssLinkDisabled (k : Part) : Statement (.ssLinkDisabled k) := fun _ _ h => nomatch h
theorem lgoU1U2 (k : Part) (u2 unacked : Bool) : Statement (.lgoU1U2 k u2 unacked) := fun _ _ h => nomatch h
theorem deviceU1U2Entry (k : Part) (u2 unacked : Bool) : Statement (.deviceU1U2Entry k u2 unacked) := fun _ _ h => nomatch h
theorem upstreamU3Entry (k : Part) : Statement (.upstreamU3Entry k) := fun _ _ h => nomatch h
theorem upstreamU3Exit (k : Part) : Statement (.upstreamU3Exit k) := fun _ _ h => nomatch h
theorem ssWarmReset (k : Part) : Statement (.ssWarmReset k) := fun _ _ h => nomatch h
theorem ssHotReset (k : Part) : Statement (.ssHotReset k) := fun _ _ h => nomatch h
theorem usb2BusReset (k : Part) (highSpeed : Bool) : Statement (.usb2BusReset k highSpeed) := fun _ _ h => nomatch h
theorem usb2LpmTransaction (k : Part) (hird : BitVec 4) : Statement (.usb2LpmTransaction k hird) := fun _ _ h => nomatch h
theorem usb2Suspend (k : Part) : Statement (.usb2Suspend k) := fun _ _ h => nomatch h
theorem usb2Resume (k : Part) (byDevice : Bool) : Statement (.usb2Resume k byDevice) := fun _ _ h => nomatch h
theorem mfStandardRequest (k : Part) (r : Setup) (data : List Byte) : Statement (.mfStandardRequest k r data) := fun _ _ h => nomatch h
theorem mfBulkOutCommand (k : Part) (bytes : List Byte) : Statement (.mfBulkOutCommand k bytes) := fun _ _ h => nomatch h
theorem vcpCommand (k : Part) (bytes : List Byte) : Statement (.vcpCommand k bytes) := fun _ _ h => nomatch h
theorem vcpLastResponse (k : Part) (len : BitVec 16) : Statement (.vcpLastResponse k len) := fun _ _ h => nomatch h
theorem mfOtherVendorRequest (k : Part) (r : Setup) : Statement (.mfOtherVendorRequest k r) := fun _ _ h => nomatch h
theorem doorbellRing (bus : OobBus) (mask : BitVec 3) : Statement (.doorbellRing bus mask) := fun _ _ h => nomatch h
theorem smbusDoorbellWrite (pecOk : Bool) : Statement (.smbusDoorbellWrite pecOk) := fun _ _ h => nomatch h
theorem smbusSetPointer (address : BitVec 16) (pecOk : Bool) : Statement (.smbusSetPointer address pecOk) := fun _ _ h => nomatch h
theorem smbusAlertResponse : Statement (.smbusAlertResponse) := fun _ _ h => nomatch h
theorem rspDone (m : Mbox) : Statement (.rspDone m) := fun _ _ h => nomatch h
theorem evtDone (m : Mbox) : Statement (.evtDone m) := fun _ _ h => nomatch h
theorem crcErrClear (m : Mbox) : Statement (.crcErrClear m) := fun _ _ h => nomatch h
theorem registerWrite (w : OobWrite) (bytes : List Byte) : Statement (.registerWrite w bytes) := fun _ _ h => nomatch h
theorem helloOpen (m : VcpMsg) : Statement (.helloOpen m) := fun _ _ h => nomatch h
theorem helloForceOpen (m : VcpMsg) : Statement (.helloForceOpen m) := fun _ _ h => nomatch h
theorem helloGrant (m : VcpMsg) : Statement (.helloGrant m) := fun _ _ h => nomatch h
theorem helloRevoke (m : VcpMsg) : Statement (.helloRevoke m) := fun _ _ h => nomatch h
theorem resync (m : VcpMsg) : Statement (.resync m) := fun _ _ h => nomatch h
theorem eventAck (m : VcpMsg) : Statement (.eventAck m) := fun _ _ h => nomatch h
theorem close (m : VcpMsg) : Statement (.close m) := fun _ _ h => nomatch h
theorem getInfo (m : VcpMsg) : Statement (.getInfo m) := fun _ _ h => nomatch h
theorem getStatus (m : VcpMsg) : Statement (.getStatus m) := fun _ _ h => nomatch h
theorem getTemps (m : VcpMsg) : Statement (.getTemps m) := fun _ _ h => nomatch h
theorem unsupportedOpcode (opcode : BitVec 16) (m : VcpMsg) : Statement (.unsupportedOpcode opcode m) := fun _ _ h => nomatch h
theorem partGet (m : VcpMsg) : Statement (.partGet m) := fun _ _ h => nomatch h
theorem partAssignPort (m : VcpMsg) : Statement (.partAssignPort m) := fun _ _ h => nomatch h
theorem partSetLimits (m : VcpMsg) : Statement (.partSetLimits m) := fun _ _ h => nomatch h
theorem partConnect (m : VcpMsg) : Statement (.partConnect m) := fun _ _ h => nomatch h
theorem partDisconnect (m : VcpMsg) : Statement (.partDisconnect m) := fun _ _ h => nomatch h
theorem deferredDisconnectExecute (k : Part) : Statement (.deferredDisconnectExecute k) := fun _ _ h => nomatch h
theorem portGet (m : VcpMsg) : Statement (.portGet m) := fun _ _ h => nomatch h
theorem portSetMode (m : VcpMsg) : Statement (.portSetMode m) := fun _ _ h => nomatch h
theorem portReset (m : VcpMsg) : Statement (.portReset m) := fun _ _ h => nomatch h
theorem portQuench (m : VcpMsg) : Statement (.portQuench m) := fun _ _ h => nomatch h
theorem portRelease (m : VcpMsg) : Statement (.portRelease m) := fun _ _ h => nomatch h
theorem portSetBc (m : VcpMsg) : Statement (.portSetBc m) := fun _ _ h => nomatch h
theorem liftGetPolicy (m : VcpMsg) : Statement (.liftGetPolicy m) := fun _ _ h => nomatch h
theorem liftSetClasslist (m : VcpMsg) : Statement (.liftSetClasslist m) := fun _ _ h => nomatch h
theorem liftSetEpBoundary (m : VcpMsg) : Statement (.liftSetEpBoundary m) := fun _ _ h => nomatch h
theorem liftGetEpStats (m : VcpMsg) : Statement (.liftGetEpStats m) := fun _ _ h => nomatch h
theorem liftClearPoison (m : VcpMsg) : Statement (.liftClearPoison m) := fun _ _ h => nomatch h
theorem pdSetOffer (m : VcpMsg) : Statement (.pdSetOffer m) := fun _ _ h => nomatch h
theorem pdSend (m : VcpMsg) : Statement (.pdSend m) := fun _ _ h => nomatch h
theorem pdSetAutoresp (m : VcpMsg) : Statement (.pdSetAutoresp m) := fun _ _ h => nomatch h
theorem pdHardReset (m : VcpMsg) : Statement (.pdHardReset m) := fun _ _ h => nomatch h
theorem ccSetRp (m : VcpMsg) : Statement (.ccSetRp m) := fun _ _ h => nomatch h
theorem sbuSetRoute (m : VcpMsg) : Statement (.sbuSetRoute m) := fun _ _ h => nomatch h
theorem pdSetTimers (m : VcpMsg) : Statement (.pdSetTimers m) := fun _ _ h => nomatch h
theorem slotGet (m : VcpMsg) : Statement (.slotGet m) := fun _ _ h => nomatch h
theorem slotSetLimits (m : VcpMsg) : Statement (.slotSetLimits m) := fun _ _ h => nomatch h
theorem slotEnable (m : VcpMsg) : Statement (.slotEnable m) := fun _ _ h => nomatch h
theorem slotClearLatch (m : VcpMsg) : Statement (.slotClearLatch m) := fun _ _ h => nomatch h
theorem vbusSet (m : VcpMsg) : Statement (.vbusSet m) := fun _ _ h => nomatch h
theorem ppcGet (m : VcpMsg) : Statement (.ppcGet m) := fun _ _ h => nomatch h
theorem modeGet (m : VcpMsg) : Statement (.modeGet m) := fun _ _ h => nomatch h
theorem modeRequest (m : VcpMsg) (board : BoardIn) : Statement (.modeRequest m board) := fun _ _ h => nomatch h
theorem latBudgetSet (m : VcpMsg) : Statement (.latBudgetSet m) := fun _ _ h => nomatch h
theorem wakeSourcesSet (m : VcpMsg) : Statement (.wakeSourcesSet m) := fun _ _ h => nomatch h
theorem avsGet (m : VcpMsg) : Statement (.avsGet m) := fun _ _ h => nomatch h
theorem pbmGetStats (m : VcpMsg) : Statement (.pbmGetStats m) := fun _ _ h => nomatch h
theorem pbmSetScrub (m : VcpMsg) : Statement (.pbmSetScrub m) := fun _ _ h => nomatch h
theorem pbmRetire (m : VcpMsg) : Statement (.pbmRetire m) := fun _ _ h => nomatch h
theorem pbmFlipmask (m : VcpMsg) : Statement (.pbmFlipmask m) := fun _ _ h => nomatch h
theorem faultRead (m : VcpMsg) : Statement (.faultRead m) := fun _ _ h => nomatch h
theorem faultAck (m : VcpMsg) : Statement (.faultAck m) := fun _ _ h => nomatch h
theorem faultSetSeverity (m : VcpMsg) : Statement (.faultSetSeverity m) := fun _ _ h => nomatch h
theorem faultInject (m : VcpMsg) : Statement (.faultInject m) := fun _ _ h => nomatch h
theorem faultpinControl (m : VcpMsg) : Statement (.faultpinControl m) := fun _ _ h => nomatch h
theorem fwGet (m : VcpMsg) : Statement (.fwGet m) := fun _ _ h => nomatch h
theorem fwStageBegin (m : VcpMsg) : Statement (.fwStageBegin m) := fun _ _ h => nomatch h
theorem fwStageData (m : VcpMsg) : Statement (.fwStageData m) := fun _ _ h => nomatch h
theorem fwStageCommit (m : VcpMsg) : Statement (.fwStageCommit m) := fun _ _ h => nomatch h
theorem fwActivate (m : VcpMsg) : Statement (.fwActivate m) := fun _ _ h => nomatch h
theorem activationPauseEnd : Statement (.activationPauseEnd) := fun _ _ h => nomatch h
theorem activationLoadFail : Statement (.activationLoadFail) := fun _ _ h => nomatch h
theorem trialPass : Statement (.trialPass) := fun _ _ h => nomatch h
theorem trialFail (dead : Bool) : Statement (.trialFail dead) := fun _ _ h => nomatch h
theorem diagLoopback (m : VcpMsg) : Statement (.diagLoopback m) := fun _ _ h => nomatch h
theorem diagPhyTest (m : VcpMsg) : Statement (.diagPhyTest m) := fun _ _ h => nomatch h
theorem diagEye (m : VcpMsg) : Statement (.diagEye m) := fun _ _ h => nomatch h
theorem jtagBypass (tdi : List Bool) : Statement (.jtagBypass tdi) := fun _ _ h => nomatch h
theorem jtagIdcode : Statement (.jtagIdcode) := fun _ _ h => nomatch h
theorem jtagSamplePreload (balls cells : BitVec 103) : Statement (.jtagSamplePreload balls cells) := fun _ _ h => nomatch h
theorem jtagExtest (balls cells : BitVec 103) : Statement (.jtagExtest balls cells) := fun _ _ h => nomatch h
theorem connectRecognised (c : Connect) : Statement (.connectRecognised c) := fun _ _ h => nomatch h
theorem disconnectRecognised (p : Port) : Statement (.disconnectRecognised p) := fun _ _ h => nomatch h
theorem presentationPossible (p : Port) : Statement (.presentationPossible p) := fun _ _ h => nomatch h
theorem debounceComplete (p : Port) : Statement (.debounceComplete p) := fun _ _ h => nomatch h
theorem deviceResetSe0End (p : Port) (found : FoundSpeed) : Statement (.deviceResetSe0End p found) := fun _ _ h => nomatch h
theorem resetRecoveryEnd (p : Port) : Statement (.resetRecoveryEnd p) := fun _ _ h => nomatch h
theorem probeRequestComplete (p : Port) (r : XferResult) : Statement (.probeRequestComplete p r) := fun _ _ h => nomatch h
theorem probeRequestTimeout (p : Port) : Statement (.probeRequestTimeout p) := fun _ _ h => nomatch h
theorem probeTimeout (p : Port) : Statement (.probeTimeout p) := fun _ _ h => nomatch h
theorem nativeSsU0Held (p : Port) (gen2 : Bool) : Statement (.nativeSsU0Held p gen2) := fun _ _ h => nomatch h
theorem hostPortReset (k : Part) (pos : Pos) (f : HubReset) : Statement (.hostPortReset k pos f) := fun _ _ h => nomatch h
theorem hostResetSe0End (p : Port) (found : FoundSpeed) : Statement (.hostResetSe0End p found) := fun _ _ h => nomatch h
theorem hubTopPortReset (k : Part) (f : HubReset) (n : Fin 9) : Statement (.hubTopPortReset k f n) := fun _ _ h => nomatch h
theorem hubClearPortPower (k : Part) (side : Side) (q : HubPort) : Statement (.hubClearPortPower k side q) := fun _ _ h => nomatch h
theorem hubSetPortPower (k : Part) (side : Side) (q : HubPort) : Statement (.hubSetPortPower k side q) := fun _ _ h => nomatch h
theorem hubSetPortIndicator (k : Part) (side : Side) (q : HubPort) : Statement (.hubSetPortIndicator k side q) := fun _ _ h => nomatch h
theorem hubPortSuspend (k : Part) (q : HubPort) : Statement (.hubPortSuspend k q) := fun _ _ h => nomatch h
theorem hubPortResume (k : Part) (q : HubPort) : Statement (.hubPortResume k q) := fun _ _ h => nomatch h
theorem clearTtBuffer (k : Part) (pos : Pos) (key : BitVec 16) : Statement (.clearTtBuffer k pos key) := fun _ _ h => nomatch h
theorem resetTt (k : Part) (pos : Pos) : Statement (.resetTt k pos) := fun _ _ h => nomatch h
theorem getTtState (k : Part) (pos : Pos) : Statement (.getTtState k pos) := fun _ _ h => nomatch h
theorem stopTt (k : Part) (pos : Pos) : Statement (.stopTt k pos) := fun _ _ h => nomatch h
theorem hubStandardRequest (k : Part) (side : Side) (h : HubIx) (r : HubRequest) : Statement (.hubStandardRequest k side h r) := fun _ _ h => nomatch h
theorem liftSuspendOrder (p : Port) : Statement (.liftSuspendOrder p) := fun _ _ h => nomatch h
theorem liftResumeOrder (p : Port) : Statement (.liftResumeOrder p) := fun _ _ h => nomatch h
theorem resumeKEnd (p : Port) : Statement (.resumeKEnd p) := fun _ _ h => nomatch h
theorem remoteWakeKRecognised (p : Port) (delta : BitVec 16) : Statement (.remoteWakeKRecognised p delta) := fun _ _ h => nomatch h
theorem u3ExitHandshakeComplete (p : Port) : Statement (.u3ExitHandshakeComplete p) := fun _ _ h => nomatch h
theorem hostU3ExitCollision (p : Port) (delta : BitVec 16) : Statement (.hostU3ExitCollision p delta) := fun _ _ h => nomatch h
theorem unarmedWakeResuspend (p : Port) : Statement (.unarmedWakeResuspend p) := fun _ _ h => nomatch h
theorem l1IdleExpiry (p : Port) : Statement (.l1IdleExpiry p) := fun _ _ h => nomatch h
theorem l1ExitRequest (p : Port) : Statement (.l1ExitRequest p) := fun _ _ h => nomatch h
theorem portBabble (p : Port) : Statement (.portBabble p) := fun _ _ h => nomatch h
theorem drainComplete (p : Port) : Statement (.drainComplete p) := fun _ _ h => nomatch h
theorem drainWindowExpiry (p : Port) : Statement (.drainWindowExpiry p) := fun _ _ h => nomatch h
theorem dischargeIntervalEnd (p : Port) : Statement (.dischargeIntervalEnd p) := fun _ _ h => nomatch h
theorem stdGetStatus (p : Port) (recipient : Fin 3) (index len : BitVec 16) : Statement (.stdGetStatus p recipient index len) := fun _ _ h => nomatch h
theorem stdClearEndpointHalt (p : Port) (ep : Byte) : Statement (.stdClearEndpointHalt p ep) := fun _ _ h => nomatch h
theorem stdSetEndpointHalt (p : Port) (ep : Byte) : Statement (.stdSetEndpointHalt p ep) := fun _ _ h => nomatch h
theorem stdSetFunctionSuspend (p : Port) (interface : Byte) (suspend wake : Bool) : Statement (.stdSetFunctionSuspend p interface suspend wake) := fun _ _ h => nomatch h
theorem stdU1U2Enable (p : Port) (u2 on : Bool) : Statement (.stdU1U2Enable p u2 on) := fun _ _ h => nomatch h
theorem stdSetLtmEnable (p : Port) : Statement (.stdSetLtmEnable p) := fun _ _ h => nomatch h
theorem stdDeviceRemoteWakeup (p : Port) (on : Bool) : Statement (.stdDeviceRemoteWakeup p on) := fun _ _ h => nomatch h
theorem stdSetTestMode (p : Port) (selector : Byte) : Statement (.stdSetTestMode p selector) := fun _ _ h => nomatch h
theorem stdSetAddress (p : Port) (address : BitVec 7) : Statement (.stdSetAddress p address) := fun _ _ h => nomatch h
theorem stdGetDescriptor (p : Port) (type index : Byte) (language len : BitVec 16) : Statement (.stdGetDescriptor p type index language len) := fun _ _ h => nomatch h
theorem stdSetDescriptor (p : Port) (type index : Byte) (language len : BitVec 16) : Statement (.stdSetDescriptor p type index language len) := fun _ _ h => nomatch h
theorem stdGetConfiguration (p : Port) : Statement (.stdGetConfiguration p) := fun _ _ h => nomatch h
theorem stdSetConfiguration (p : Port) (value : Byte) : Statement (.stdSetConfiguration p value) := fun _ _ h => nomatch h
theorem stdGetInterface (p : Port) (interface : Byte) : Statement (.stdGetInterface p interface) := fun _ _ h => nomatch h
theorem stdSetInterface (p : Port) (interface alt : Byte) : Statement (.stdSetInterface p interface alt) := fun _ _ h => nomatch h
theorem stdSynchFrame (p : Port) (ep : Byte) : Statement (.stdSynchFrame p ep) := fun _ _ h => nomatch h
theorem stdSetSel (p : Port) (data : List Byte) : Statement (.stdSetSel p data) := fun _ _ h => nomatch h
theorem stdSetIsochDelay (p : Port) (delay : BitVec 16) : Statement (.stdSetIsochDelay p delay) := fun _ _ h => nomatch h
theorem stdOtherRequest (p : Port) (r : Setup) : Statement (.stdOtherRequest p r) := fun _ _ h => nomatch h
theorem classVendorRequest (p : Port) (r : Setup) : Statement (.classVendorRequest p r) := fun _ _ h => nomatch h
theorem controlWriteDataPacket (p : Port) (bytes : List Byte) : Statement (.controlWriteDataPacket p bytes) := fun _ _ h => nomatch h
theorem downstreamControlInPacket (p : Port) (r : InAnswer) : Statement (.downstreamControlInPacket p r) := fun _ _ h => nomatch h
theorem downstreamStatusComplete (p : Port) (r : XferResult) : Statement (.downstreamStatusComplete p r) := fun _ _ h => nomatch h
theorem microframeBoundary (l : List Periodic) : Statement (.microframeBoundary l) := fun _ _ h => nomatch h
theorem hsBulkInPacket (p : Port) (ep : Byte) (r : InAnswer) : Statement (.hsBulkInPacket p ep r) := fun _ _ h => nomatch h
theorem holdWindowExpiry (p : Port) (ep : Byte) : Statement (.holdWindowExpiry p ep) := fun _ _ h => nomatch h
theorem ssAckTpReceived (p : Port) (ep : Byte) (a : AckTp) : Statement (.ssAckTpReceived p ep a) := fun _ _ h => nomatch h
theorem ssBulkOutPacket (p : Port) (ep : Byte) (bytes : List Byte) : Statement (.ssBulkOutPacket p ep bytes) := fun _ _ h => nomatch h
theorem hsOutTransactionComplete (p : Port) (ep : Byte) (r : OutAnswer) : Statement (.hsOutTransactionComplete p ep r) := fun _ _ h => nomatch h
theorem hsOutStall (p : Port) (ep : Byte) : Statement (.hsOutStall p ep) := fun _ _ h => nomatch h
theorem interestLapse (p : Port) (ep : Byte) : Statement (.interestLapse p ep) := fun _ _ h => nomatch h
theorem ssInterruptOutInterval (p : Port) (ep : Byte) (bytes : List Byte) : Statement (.ssInterruptOutInterval p ep bytes) := fun _ _ h => nomatch h
theorem isochTimestampReceived (k : Part) (interval : BitVec 14) (delta : BitVec 13) : Statement (.isochTimestampReceived k interval delta) := fun _ _ h => nomatch h
theorem ssIsoOutPacket (p : Port) (ep : Byte) (bytes : List Byte) (bad : Bool) : Statement (.ssIsoOutPacket p ep bytes bad) := fun _ _ h => nomatch h
theorem mergeAgeFlush (b : Bank) (word : Nat) : Statement (.mergeAgeFlush b word) := fun _ _ h => nomatch h
theorem scrubWord (b : Bank) (queued : Bool) : Statement (.scrubWord b queued) := fun _ _ h => nomatch h
theorem bucketLeakInterval : Statement (.bucketLeakInterval) := fun _ _ h => nomatch h
theorem bankRowEmptyMove (b : Bank) (row : Nat) : Statement (.bankRowEmptyMove b row) := fun _ _ h => nomatch h
theorem bankRowTimeoutCopy (b : Bank) (row : Nat) : Statement (.bankRowTimeoutCopy b row) := fun _ _ h => nomatch h
theorem ccPatternChange (p : Port) (cc1 cc2 : CcLine) : Statement (.ccPatternChange p cc1 cc2) := fun _ _ h => nomatch h
theorem tccDebounceExpiry (p : Port) : Statement (.tccDebounceExpiry p) := fun _ _ h => nomatch h
theorem tpdDebounceExpiry (p : Port) : Statement (.tpdDebounceExpiry p) := fun _ _ h => nomatch h
theorem raLost (p : Port) : Statement (.raLost p) := fun _ _ h => nomatch h
theorem vconnOvercurrent (p : Port) : Statement (.vconnOvercurrent p) := fun _ _ h => nomatch h
theorem errorRecoveryExpiry (p : Port) : Statement (.errorRecoveryExpiry p) := fun _ _ h => nomatch h
theorem cableDiscoveryStart (p : Port) : Statement (.cableDiscoveryStart p) := fun _ _ h => nomatch h
theorem sourceCapabilitiesSend (p : Port) : Statement (.sourceCapabilitiesSend p) := fun _ _ h => nomatch h
theorem typecSendSourceCapExpiry (p : Port) : Statement (.typecSendSourceCapExpiry p) := fun _ _ h => nomatch h
theorem pdSopDetected (p : Port) (sop : Fin 5) (size : Fin 300) : Statement (.pdSopDetected p sop size) := fun _ _ h => nomatch h
theorem pdMessageReceived (p : Port) (sop : Fin 5) (bytes : List Byte) : Statement (.pdMessageReceived p sop bytes) := fun _ _ h => nomatch h
theorem pdGoodcrcReceived (p : Port) : Statement (.pdGoodcrcReceived p) := fun _ _ h => nomatch h
theorem pdReceiveTimeout (p : Port) : Statement (.pdReceiveTimeout p) := fun _ _ h => nomatch h
theorem fwdDeadlineExpiry (p : Port) : Statement (.fwdDeadlineExpiry p) := fun _ _ h => nomatch h
theorem waitRetryExpiry (p : Port) : Statement (.waitRetryExpiry p) := fun _ _ h => nomatch h
theorem sinkTxExpiry (p : Port) : Statement (.sinkTxExpiry p) := fun _ _ h => nomatch h
theorem senderResponseTimeout (p : Port) : Statement (.senderResponseTimeout p) := fun _ _ h => nomatch h
theorem noResponseTimeout (p : Port) : Statement (.noResponseTimeout p) := fun _ _ h => nomatch h
theorem ppsTimeout (p : Port) : Statement (.ppsTimeout p) := fun _ _ h => nomatch h
theorem srcTransitionExpiry (p : Port) : Statement (.srcTransitionExpiry p) := fun _ _ h => nomatch h
theorem transitionPgood (p : Port) : Statement (.transitionPgood p) := fun _ _ h => nomatch h
theorem transitionTimeout (p : Port) : Statement (.transitionTimeout p) := fun _ _ h => nomatch h
theorem hardResetReceived (p : Port) : Statement (.hardResetReceived p) := fun _ _ h => nomatch h
theorem psHardResetExpiry (p : Port) : Statement (.psHardResetExpiry p) := fun _ _ h => nomatch h
theorem srcRecoverExpiry (p : Port) : Statement (.srcRecoverExpiry p) := fun _ _ h => nomatch h
theorem vconnSourceTimeout (p : Port) : Statement (.vconnSourceTimeout p) := fun _ _ h => nomatch h
theorem vconnLineLow (p : Port) : Statement (.vconnLineLow p) := fun _ _ h => nomatch h
theorem pdQueuePop (k : Slot) : Statement (.pdQueuePop k) := fun _ _ h => nomatch h
theorem cdcSetLineCoding (k : Part) (u : Fin 6) (rate : BitVec 32) (format parity bits : Byte) : Statement (.cdcSetLineCoding k u rate format parity bits) := fun _ _ h => nomatch h
theorem cdcGetLineCoding (k : Part) (u : Fin 6) : Statement (.cdcGetLineCoding k u) := fun _ _ h => nomatch h
theorem cdcSetControlLineState (k : Part) (u : Fin 6) (lines : BitVec 16) : Statement (.cdcSetControlLineState k u lines) := fun _ _ h => nomatch h
theorem cdcSendBreak (k : Part) (u : Fin 6) (ms : BitVec 16) : Statement (.cdcSendBreak k u ms) := fun _ _ h => nomatch h
theorem seatNLow (k : Slot) : Statement (.seatNLow k) := fun _ _ h => nomatch h
theorem seatNHigh (k : Slot) : Statement (.seatNHigh k) := fun _ _ h => nomatch h
theorem seatDebounceExpiry (k : Slot) : Statement (.seatDebounceExpiry k) := fun _ _ h => nomatch h
theorem startConditionHolds (k : Slot) (mv : Nat) : Statement (.startConditionHolds k mv) := fun _ _ h => nomatch h
theorem pgConditionsHold (k : Slot) : Statement (.pgConditionsHold k) := fun _ _ h => nomatch h
theorem pgConditionsLost (k : Slot) : Statement (.pgConditionsLost k) := fun _ _ h => nomatch h
theorem pgDelayExpiry (k : Slot) : Statement (.pgDelayExpiry k) := fun _ _ h => nomatch h
theorem pgLostTrip (k : Slot) : Statement (.pgLostTrip k) := fun _ _ h => nomatch h
theorem fastTrip (k : Slot) (sense : BitVec 12) : Statement (.fastTrip k sense) := fun _ _ h => nomatch h
theorem breakerTimeout (k : Slot) (sense : BitVec 12) : Statement (.breakerTimeout k sense) := fun _ _ h => nomatch h
theorem rampStall (k : Slot) : Statement (.rampStall k) := fun _ _ h => nomatch h
theorem vinWindowExit (k : Slot) (mv : Nat) : Statement (.vinWindowExit k mv) := fun _ _ h => nomatch h
theorem offTimeExpiry (k : Slot) (mv : Nat) : Statement (.offTimeExpiry k mv) := fun _ _ h => nomatch h
theorem tripWindowAging (k : Slot) : Statement (.tripWindowAging k) := fun _ _ h => nomatch h
theorem slotTelemetrySample (k : Slot) (vin vout sense : BitVec 12) : Statement (.slotTelemetrySample k vin vout sense) := fun _ _ h => nomatch h
theorem slotDisableTimeout (k : Slot) : Statement (.slotDisableTimeout k) := fun _ _ h => nomatch h
theorem chainFrame (k : Slot) (input : List Byte) : Statement (.chainFrame k input) := fun _ _ h => nomatch h
theorem chainSettlingTimeout (k : Slot) : Statement (.chainSettlingTimeout k) := fun _ _ h => nomatch h
theorem vbusReleaseStagger (k : Slot) : Statement (.vbusReleaseStagger k) := fun _ _ h => nomatch h
theorem noPgoodTimeout (p : Port) : Statement (.noPgoodTimeout p) := fun _ _ h => nomatch h
theorem pgoodLostTimeout (p : Port) : Statement (.pgoodLostTimeout p) := fun _ _ h => nomatch h
theorem powerDieLinkResume (d : Fin 2) : Statement (.powerDieLinkResume d) := fun _ _ h => nomatch h
theorem supplyWarningClear : Statement (.supplyWarningClear) := fun _ _ h => nomatch h
theorem mfInTransfer (k : Part) (ep : Byte) : Statement (.mfInTransfer k ep) := fun _ _ h => nomatch h
theorem cdcBulkOutData (k : Part) (u : Fin 6) (data : List Byte) : Statement (.cdcBulkOutData k u data) := fun _ _ h => nomatch h
theorem sbuUartRx (p : Port) (c : Byte) : Statement (.sbuUartRx p c) := fun _ _ h => nomatch h
theorem smbusClockLowTimeout : Statement (.smbusClockLowTimeout) := fun _ _ h => nomatch h
theorem midnightContractReleaseExpiry (p : Port) : Statement (.midnightContractReleaseExpiry p) := fun _ _ h => nomatch h
theorem virtualLinkInactivityTimeout (k : Part) (q : HubPort) (u2 : Bool) : Statement (.virtualLinkInactivityTimeout k q u2) := fun _ _ h => nomatch h
theorem nativeSsPacketReceived (p : Port) (fromDevice : Bool) (bytes : List Byte) : Statement (.nativeSsPacketReceived p fromDevice bytes) := fun _ _ h => nomatch h
theorem ttSplitTransaction (k : Part) (pos : Pos) (op : SplitOp) : Statement (.ttSplitTransaction k pos op) := fun _ _ h => nomatch h
theorem passthroughTransaction (k : Part) (pos : Pos) (packet answer : List Byte) (lpmAck : Bool) : Statement (.passthroughTransaction k pos packet answer lpmAck) := fun _ _ h => nomatch h
theorem wrstRelease (board : BoardIn) : Statement (.wrstRelease board) := fun _ _ h => nomatch h
theorem vdpSrcDetected (p : Port) (present : Bool) : Statement (.vdpSrcDetected p present) := fun _ _ h => nomatch h

end Sys2Proof.Laws.NoWord
end

