-- ==== Sys2Proof/Tests/Demo.lean ====
section
/-! SUPPORT. Small states that the tests run commands in. -/

namespace Sys2Proof.Machine

open Sys2Proof

/-- A device in Noon with the session of mailbox A open: everything else as after reset. -/
def demo : State :=
  { State.reset with aonUp := true, mode := .noon, domains := Tab.const 25 .on, sessions := (Tab.const 19 {}).put 16 { isOpen := true } }

/-- The first message of that session. -/
def demoMsg (target : BitVec 16) (payload : List Byte) : VcpMsg :=
  { session := 16, cseq := 1, flags := 0, status := 0, target, payload }

theorem demo_up : demo.switchedUp := ⟨by decide, by decide, rfl⟩

theorem demo_day : demo.daytime := ⟨by decide, by decide, by decide⟩

/-- A state that differs from `demo` in nothing that taking a command reads takes the message. -/
theorem demo_takes (s : State) (opcode target : BitVec 16) (payload : List Byte) (h1 : s.sessions = demo.sessions)
    (h2 : s.mailboxes = demo.mailboxes) (h3 : s.fault.inbox = []) (h4 : s.mode = .noon ∨ s.mode = .diagnostic) (h5 : s.aonUp = true)
    (h6 : s.fw.paused = false) (h7 : s.fw.bootFailed = false) (h8 : payload.length ≤ 1024)
    (h9 : s.modeAdmits opcode.toNat = true) : s.takes opcode (demoMsg target payload) := by
  have e : ∀ i, (s.sessions.get i).store = [] ∧ (s.sessions.get i).executing = none := by
    intro i
    rw [h1, show demo.sessions = (Tab.const 19 ({} : Session)).put 16 { isOpen := true } from rfl, Tab.get_put]
    split
    · exact ⟨rfl, rfl⟩
    · rw [Tab.get_const]; exact ⟨rfl, rfl⟩
  have o : (s.sessions.get 16) = { isOpen := true } := by
    rw [h1]
    exact Tab.get_put_same _ _ _
  have mb : ∀ m, (s.mailboxes.get m).cmdBusy = false := by
    intro m
    rw [h2]
    simp [demo, State.reset]
  refine ⟨⟨⟨⟨h3, fun i => (e i).1, mb⟩, fun i => (e i).2⟩, ?_, ?_, ?_, ?_, rfl, rfl, h8, fun _ => rfl⟩, ?_, ?_, ?_, h9⟩
  · rcases h4 with h | h <;> simp [State.serving, h6, h]
  · rcases h4 with h | h <;> simp [h]
  · rcases h4 with h | h <;> simp [h]
  · unfold State.transportOpen
    rw [if_pos (show isOob (demoMsg target payload).session = true from rfl)]
    rcases h4 with h | h <;> simp [State.oobAnswers, h5, h]
  · show (s.sessions.get 16).isOpen = true
    rw [o]
  · show (1 : BitVec 32) = (s.sessions.get 16).lastCseq + 1
    rw [o]; rfl
  · intro h; rw [h7] at h; cases h

theorem demo_reaches (opcode target : BitVec 16) (payload : List Byte) (t : Target) (ht : decodeTarget target = some t)
    (h8 : payload.length ≤ 1024) (h9 : demo.modeAdmits opcode.toNat = true) : demo.reaches opcode (demoMsg target payload) t :=
  ⟨demo_takes demo opcode target payload rfl rfl rfl (.inl rfl) rfl rfl rfl h8 h9, ht, rfl, fun d _ => by
    show (Tab.const 25 DomState.on).get d = .on
    exact Tab.get_const _ _⟩

/-- The same for a state that differs from `demo` in nothing that taking a command reads. -/
theorem demo_reaches_of (s : State) (opcode target : BitVec 16) (payload : List Byte) (t : Target) (ht : decodeTarget target = some t)
    (h1 : s.sessions = demo.sessions) (h2 : s.mailboxes = demo.mailboxes) (h3 : s.fault.inbox = []) (h4 : s.mode = .noon ∨ s.mode = .diagnostic)
    (h5 : s.aonUp = true) (h6 : s.fw.paused = false) (h7 : s.fw.bootFailed = false) (h8 : payload.length ≤ 1024)
    (h9 : s.modeAdmits opcode.toNat = true) (hd : s.domains = demo.domains) : s.reaches opcode (demoMsg target payload) t :=
  ⟨demo_takes s opcode target payload h1 h2 h3 h4 h5 h6 h7 h8 h9, ht, rfl, fun d _ => by
    rw [hd]
    show (Tab.const 25 DomState.on).get d = .on
    exact Tab.get_const _ _⟩

/-- The same device with the Management Function of UP3 configured on the USB 2.0 side, and its session open. -/
def demoMf : State :=
  { demo with sessions := (Tab.const 19 {}).put 3 { isOpen := true }, mfs := demo.mfs.upd 3 (fun _ => { side := some .usb2, config := 1 })
              ups := demo.ups.upd 3 (fun u => { u with usb2 := .active }) }

/-- A message of the partition's own session. -/
def mfMsg (target : BitVec 16) (payload : List Byte) : VcpMsg := { session := 3, cseq := 1, flags := 0, status := 0, target, payload }

theorem demoMf_reaches (opcode target : BitVec 16) (payload : List Byte) (t : Target) (ht : decodeTarget target = some t)
    (hl : payload.length ≤ 1024) (hm : demoMf.modeAdmits opcode.toNat = true) (ho : demoMf.ownTarget 3 t = true) :
    demoMf.reaches opcode (mfMsg target payload) t := by
  have e : ∀ i, (demoMf.sessions.get i).store = [] ∧ (demoMf.sessions.get i).executing = none := by
    intro i
    rw [show demoMf.sessions = (Tab.const 19 ({} : Session)).put 3 { isOpen := true } from rfl, Tab.get_put]
    split
    · exact ⟨rfl, rfl⟩
    · rw [Tab.get_const]; exact ⟨rfl, rfl⟩
  have o : demoMf.sessions.get 3 = { isOpen := true } := Tab.get_put_same _ _ _
  have mb : ∀ m, (demoMf.mailboxes.get m).cmdBusy = false := by
    intro m
    simp [demoMf, demo, State.reset]
  refine ⟨⟨⟨⟨⟨rfl, fun i => (e i).1, mb⟩, fun i => (e i).2⟩, rfl, by decide, by decide, ?_, rfl, rfl, hl, fun h => by cases h⟩, ?_, ?_, ?_, hm⟩, ht, ?_, ?_⟩
  · have r : demoMf.mfRoom 3 = 4096 := by
      unfold State.mfRoom
      rw [show demoMf.sessions.get (mfSession 3) = { isOpen := true } from o]
      rfl
    have q : demoMf.mfOpen 3 = true := by simp [State.mfOpen, demoMf]
    unfold State.transportOpen
    rw [if_neg (by exact (show ¬ isOob (3 : Sess) = true by decide))]
    show (demoMf.mfOpen 3 && decide (16 + min 1024 payload.length ≤ demoMf.mfRoom 3)) = true
    rw [q, r]
    simp
    omega
  · exact congrArg Session.isOpen o
  · show (1 : BitVec 32) = (demoMf.sessions.get 3).lastCseq + 1
    rw [o]; rfl
  · intro h; cases h
  · rw [show (mfMsg target payload).session = 3 from rfl, ho]
    simp
  · intro d _
    show (Tab.const 25 DomState.on).get d = .on
    exact Tab.get_const _ _

/-- After reset 32 ports stand on each partition, at its first 32 positions. -/
theorem reset_portsOf : (State.reset.portsOf 1).length = 32 := by
  unfold State.portsOf
  have e : ∀ p : Port, (State.reset.partOf.get p == 1) = (p.val / 32 == 1) := by
    intro p
    rw [Bool.eq_iff_iff]
    simp [State.reset, Fin.ext_iff]
  simp only [e]
  decide +kernel

/-- The ports of a partition, and the port at a position, look at the assignment alone. -/
theorem portsOf_same (s t : State) (k : Part) (h : s.partOf = t.partOf) : s.portsOf k = t.portsOf k := by
  unfold State.portsOf
  rw [h]

theorem portAtPos_same (s t : State) (k : Part) (i : Pos) (h : s.partOf = t.partOf) (h' : s.posOf = t.posOf) : s.portAtPos k i = t.portAtPos k i := by
  unfold State.portAtPos
  rw [h, h']

theorem reset_position_free : State.reset.portAtPos 1 40 = none := by
  unfold State.portAtPos
  rw [List.find?_eq_none]
  intro p _
  simp [State.reset, Fin.ext_iff]
  omega

theorem reset_slotsAllow : State.reset.slotsAllow 1 = true := by decide +kernel

/-- The same device with a shown device on port 0. -/
def demoShown : State := { demo with ports := demo.ports.upd 0 (fun x => { x with st := .enabled, shown := true }) }

theorem demoShown_position : demoShown.portAtPos 1 40 = none := (portAtPos_same demoShown State.reset _ _ rfl rfl).trans reset_position_free

theorem demoShown_room : (demoShown.portsOf 1).length < (demoShown.parts.get 1).cfg.maxPorts := by
  rw [portsOf_same demoShown State.reset 1 rfl, reset_portsOf]
  simp [demoShown, demo, State.reset]

theorem demoShown_slots : demoShown.slotsAllow 1 = true := rfl

/-- The descriptors of a mass-storage device: one Bulk-Only interface with bulk IN 0x81 and bulk OUT 0x02. -/
def demoSet : DescSet :=
  { device := [18, 1, 0, 2, 0, 0, 0, 64, 0x34, 0x12, 0x78, 0x56, 0, 1, 0, 0, 0, 1]
    configs := [[9, 2, 32, 0, 1, 1, 0, 0x80, 50, 9, 4, 0, 0, 2, 8, 6, 0x50, 0, 7, 5, 0x81, 2, 0, 2, 0, 7, 5, 0x02, 2, 0, 2, 0]] }

/-- Its two contexts, open. -/
def demoIn : EpCtx := { addr := 0x81, kind := .bulk, mps := 512, extra := 0, interval := 0 }
def demoOut : EpCtx := { addr := 0x02, kind := .bulk, mps := 512, extra := 0, interval := 0 }

/-- The device as port 0 presents it: configured, both contexts open. -/
def demoLifted : LiftPort := { asRead := demoSet, presented := true, config := 1, ctxs := [demoIn, demoOut] }

/-- A device in Noon with a mass-storage device lifted on port 0. -/
def demoLift : State :=
  { demo with
    lift := demo.lift.put 0 (some demoLifted)
    ports := demo.ports.upd 0 (fun x => { x with st := .enabled, path := .lifted, speed := .high, shown := true, line := true })
    parts := demo.parts.upd 0 (fun x => { x with st := .connected, tree := true })
    ups := demo.ups.upd 0 (fun u => { u with attached := true, ssSide := .active, link := .u0, usb2 := .active })
    ssTree := demo.ssTree.put 0 freshTree
    u2Tree := demo.u2Tree.put 0 freshTree
    rings := [{ owner := .control 0, rows := [(0, 40)], wr := 0, rd := 0 }, { owner := .endpoint 0 0x81, rows := [(0, 41), (0, 42)], wr := 0, rd := 0 },
      { owner := .endpoint 0 0x02, rows := [(0, 43), (0, 44)], wr := 0, rd := 0 }] }

theorem demoLift_up : demoLift.switchedUp := ⟨by decide, by decide, rfl⟩

theorem demoLift_day : demoLift.daytime := ⟨by decide, by decide, by decide⟩

theorem demoLift_lift : demoLift.lift.get 0 = some demoLifted := Tab.get_put_same _ _ _

theorem demoLift_shows : demoLift.presentation 0 = some demoLifted := by
  unfold State.presentation
  rw [demoLift_lift]
  rfl

theorem demoLift_reaches (opcode target : BitVec 16) (payload : List Byte) (t : Target) (ht : decodeTarget target = some t)
    (h8 : payload.length ≤ 1024) (h9 : demoLift.modeAdmits opcode.toNat = true) : demoLift.reaches opcode (demoMsg target payload) t :=
  demo_reaches_of demoLift opcode target payload t ht rfl rfl rfl (.inl rfl) rfl rfl rfl h8 h9 rfl

/-- A device in Noon with a PD partner attached on port 0, VBUS on. -/
def demoPd : State :=
  { demo with
    pd := demo.pd.upd 0 (fun x => { x with tc := .attached, cc1 := .rd, contract := .implicit, cfg := { x.cfg with pdEnable := true } })
    slots := demo.slots.upd 0 (fun x => { x with seatLow := true, st := .on })
    chains := demo.chains.put 0 { st := .up }
    vbus := demo.vbus.upd 0 (fun v => { v with released := true }) }

theorem demoPd_reaches (opcode target : BitVec 16) (payload : List Byte) (t : Target) (ht : decodeTarget target = some t)
    (h8 : payload.length ≤ 1024) (h9 : demoPd.modeAdmits opcode.toNat = true) : demoPd.reaches opcode (demoMsg target payload) t :=
  demo_reaches_of demoPd opcode target payload t ht rfl rfl rfl (.inl rfl) rfl rfl rfl h8 h9 rfl

theorem demoPd_day : demoPd.daytime := ⟨by decide, by decide, by decide⟩

end Sys2Proof.Machine
end

