-- ==== Sys2Proof/Tests/Helpers.lean ====
section
/-! SUPPORT. Small states in which the rows act, for the witnesses. -/

namespace Sys2Proof.Machine

open Sys2Proof

theorem demoB_hears (target : BitVec 16) (payload : List Byte) (hl : payload.length ≤ 1024) :
    demo.hears { demoMsg target payload with session := 17 } := by
  have h := (demo_takes demo 0x0101 target payload rfl rfl rfl (.inl rfl) rfl rfl rfl hl rfl).1
  exact ⟨h.1, h.2.1, h.2.2.1, h.2.2.2.1, rfl, rfl, rfl, hl, fun _ => rfl⟩

theorem demoLift_at : demoLift.portAtPos 0 0 = some 0 := by decide +kernel

theorem demoLift_hub2 : demoLift.hubHeard 0 .usb2 = true := by simp [State.hubHeard, demoLift]

theorem demoLift_hub3 : demoLift.hubHeard 0 .superSpeed = true := by simp [State.hubHeard, demoLift, State.ssActive]

def demoPass : State := { demoLift with lift := demo.lift, ports := demo.ports.upd 0 (fun x => { x with st := .enabled, path := .passthrough, speed := .high, shown := true, line := true }), u2Tree := demo.u2Tree.put 0 { freshTree with leaf := freshTree.leaf.upd 0 (fun v => { v with connected := true, enabled := true }) } }

def demoPassAs (f : PortState → PortState) : State := { demoPass with ports := demoPass.ports.upd 0 f }

theorem demoPassAs_at (f) : (demoPassAs f).portAtPos 0 0 = some 0 := demoLift_at

theorem demoPassAs_port (f) : (demoPassAs f).ports.get 0 = f { (demo.ports.get 0) with st := .enabled, path := .passthrough, speed := .high, shown := true, line := true } := by simp [demoPassAs, demoPass]

theorem demoPassAs_up (f) : (demoPassAs f).switchedUp := demoLift_up

theorem demoPassAs_hub (f) : (demoPassAs f).hubHeard 0 .usb2 = true := demoLift_hub2

/-- The hosts of those devices reach every hub of partition 0. -/
theorem demoLift_reached2 (h : HubIx) : demoLift.hubReached 0 .usb2 h = true := by
  unfold State.hubReached State.topOn
  rw [demoLift_hub2]
  split
  · rfl
  · simp [State.treeOf, demoLift, freshTree, freshPort]
    omega

theorem demoLift_reached3 (h : HubIx) : demoLift.hubReached 0 .superSpeed h = true := by
  unfold State.hubReached State.topOn
  rw [demoLift_hub3]
  split
  · rfl
  · simp [State.treeOf, demoLift, freshTree, freshPort]
    omega

theorem demoPassAs_reached (f) (h : HubIx) : (demoPassAs f).hubReached 0 .usb2 h = true := by
  unfold State.hubReached State.topOn
  rw [demoPassAs_hub]
  split
  · rfl
  · simp [State.treeOf, demoPassAs, demoPass, demoLift, freshTree, freshPort]
    omega

def demoU3 (f : LiftPort → LiftPort) (g : PortState → PortState) (l : VLink) : State := { demoLift with lift := demo.lift.put 0 (some (f demoLifted)), ports := demoLift.ports.upd 0 g, ssTree := demo.ssTree.put 0 { freshTree with leaf := freshTree.leaf.upd 0 (fun v => { v with connected := true, enabled := true, link := l }) } }

def armedLift (x : LiftPort) : LiftPort := { x with busSuspended := true, dsWake := true, functions := [{ first := 0, suspended := true, wake := true }] }

def lpmLift (x : LiftPort) : LiftPort := { x with asRead := { demoSet with bos := some [5, 15, 12, 0, 1, 7, 16, 2, 2, 0, 0, 0] } }

theorem demoU3_up (f g l) : (demoU3 f g l).switchedUp := demoLift_up

theorem demoU3_lift (f g l) : (demoU3 f g l).lift.get 0 = some (f demoLifted) := Tab.get_put_same _ _ _

theorem demoU3_port (f g l) : (demoU3 f g l).ports.get 0 = g { (demo.ports.get 0) with st := .enabled, path := .lifted, speed := .high, shown := true, line := true } := by simp [demoU3, demoLift]

theorem demoU3_link (f g l) : (demoU3 f g l).linkOf 0 = l := by
  unfold State.linkOf
  simp [demoU3, demoLift, demo, State.reset]

theorem demoLift_stands : demoLift.stands 0 demoLifted := ⟨demoLift_lift, rfl, rfl, rfl, rfl, rfl, by simp [demoLift], by simp [demoLift], rfl⟩

def liftWith (f : LiftPort → LiftPort) : State := { demoLift with lift := demo.lift.put 0 (some (f demoLifted)) }

theorem liftWith_up (f) : (liftWith f).switchedUp := demoLift_up

theorem liftWith_lift (f) : (liftWith f).lift.get 0 = some (f demoLifted) := Tab.get_put_same _ _ _

def pdAs (f : PdPort → PdPort) : State := { demoPd with pd := demoPd.pd.upd 0 f }

def slotAs (f : SlotState → SlotState) : State := { demo with slots := demo.slots.upd 0 (fun x => f { x with seatLow := true, enable := true }) }

def demoRing (ring : List EventRec) (next : BitVec 32) : State :=
  { demo with sessions := (Tab.const 19 {}).put 16 { isOpen := true, ring, nextEseq := next } }

theorem demoRing_takes (ring : List EventRec) (next : BitVec 32) (opcode target : BitVec 16) (payload : List Byte) (h8 : payload.length ≤ 1024)
    (h9 : demo.modeAdmits opcode.toNat = true) : (demoRing ring next).takes opcode (demoMsg target payload) := by
  have e : ∀ i, ((demoRing ring next).sessions.get i).store = [] ∧ ((demoRing ring next).sessions.get i).executing = none := by
    intro i
    rw [show (demoRing ring next).sessions = (Tab.const 19 ({} : Session)).put 16 { isOpen := true, ring, nextEseq := next } from rfl, Tab.get_put]
    split
    · exact ⟨rfl, rfl⟩
    · rw [Tab.get_const]; exact ⟨rfl, rfl⟩
  have o : ((demoRing ring next).sessions.get 16) = { isOpen := true, ring, nextEseq := next } := Tab.get_put_same _ _ _
  have mb : ∀ m, ((demoRing ring next).mailboxes.get m).cmdBusy = false := by
    intro m
    simp [demoRing, demo, State.reset]
  refine ⟨⟨⟨⟨rfl, fun i => (e i).1, mb⟩, fun i => (e i).2⟩, rfl, (show Mode.noon ≠ Mode.dusk by decide), (show Mode.noon ≠ Mode.night by decide), rfl, rfl, rfl, h8, fun _ => rfl⟩, ?_, ?_, ?_, h9⟩
  · show ((demoRing ring next).sessions.get 16).isOpen = true
    rw [o]
  · show (1 : BitVec 32) = ((demoRing ring next).sessions.get 16).lastCseq + 1
    rw [o]; rfl
  · intro h; cases h

theorem demoRing_session (ring : List EventRec) (next : BitVec 32) : (demoRing ring next).sessions.get 16 = { isOpen := true, ring, nextEseq := next } := Tab.get_put_same _ _ _

theorem demo_open : (demo.sessions.get 16).isOpen = true := by decide

theorem demo_cseq (target : BitVec 16) (payload : List Byte) : (demoMsg target payload).cseq = (demo.sessions.get 16).lastCseq + 1 := by
  show (1 : BitVec 32) = _
  decide

theorem demoIn_hears (d : Mode) (target : BitVec 16) (payload : List Byte) (hl : payload.length ≤ 1024) (h1 : d ≠ .dusk) (h2 : d ≠ .night) (h3 : d ≠ .off) (h4 : d ≠ .midnight) (h5 : d ≠ .dawn) :
    ({ demo with mode := d } : State).hears (demoMsg target payload) := by
  have e : ∀ i, (demo.sessions.get i).store = [] ∧ (demo.sessions.get i).executing = none := by
    intro i
    rw [show demo.sessions = (Tab.const 19 ({} : Session)).put 16 { isOpen := true } from rfl, Tab.get_put]
    split
    · exact ⟨rfl, rfl⟩
    · rw [Tab.get_const]; exact ⟨rfl, rfl⟩
  have mb : ∀ m, (demo.mailboxes.get m).cmdBusy = false := by
    intro m
    simp [demo, State.reset]
  refine ⟨⟨⟨rfl, fun i => (e i).1, mb⟩, fun i => (e i).2⟩, ?_, h1, h2, ?_, rfl, rfl, hl, fun _ => rfl⟩
  · simp [State.serving, h3, h4, h5]; rfl
  · unfold State.transportOpen
    rw [if_pos (show isOob (demoMsg target payload).session = true from rfl)]
    simp [State.oobAnswers, h3]; rfl

theorem demo_hears (target : BitVec 16) (payload : List Byte) (hl : payload.length ≤ 1024) : demo.hears (demoMsg target payload) :=
  demoIn_hears .noon target payload hl (by decide) (by decide) (by decide) (by decide) (by decide)

end Sys2Proof.Machine
end

