-- ==== Sys2Proof/WellFormed.lean ====
section
/-! DEFINITION. Which commands a bus, a pin, a message or a timer of the block can carry: the sizes and the ranges that the spec and the standards it names bound. -/

namespace Sys2Proof

/-- A VCP message's payload has a 16-bit LENGTH (Table 11.1). -/
def msgOk (m : VcpMsg) : Bool := m.payload.length < 65536

/-- A containment reaction names a row of the packet buffer that exists (R207). -/
def reactionOk (r : Reaction) : Bool :=
  match r with
  | .rowRetire _ row => row < 768
  | _ => true

/-- A code of Table 10.11. -/
def wakeCodeOk (code : Fin 32) : Bool := code.val ≤ 7 || (16 ≤ code.val && code.val ≤ 18)

/-- A PD message has its header, and at most the 264 bytes of a receive buffer (R276). -/
def pdOk (bytes : List Byte) : Bool := 2 ≤ bytes.length && bytes.length ≤ 264

/-- The type of a USB request: 0 standard, 1 class, 2 vendor. -/
def requestType (r : Setup) : Nat := r.bmRequestType.toNat / 32 % 4

/-- The data of a transaction or a request is no longer than it can be. -/
def resultOk (n : Nat) (r : XferResult) : Bool :=
  match r with
  | .data bytes => bytes.length ≤ n
  | _ => true

/-- The data a device answers an IN token with is no longer than its packet. -/
def inOk (n : Nat) (r : InAnswer) : Bool :=
  match r with
  | .data bytes => bytes.length ≤ n
  | _ => true

/-- An interval brings at most three packets of at most 1,024 bytes. -/
def periodicOk (r : PeriodicAnswer) : Bool :=
  match r with
  | .packets l => l.length ≤ 3 && l.all (fun b => b.length ≤ 1024)
  | _ => true

/-- The address of an endpoint other than 0. -/
def endpointOk (ep : Byte) : Bool := ep.toNat % 128 != 0 && ep.toNat % 128 < 16

/-- The address of an IN endpoint other than 0. -/
def inEndpoint (ep : Byte) : Bool := endpointOk ep && 128 ≤ ep.toNat

/-- The address of an OUT endpoint other than 0. -/
def outEndpoint (ep : Byte) : Bool := endpointOk ep && ep.toNat < 128

/-- Whether a request names an IN endpoint. -/
def upRequestOk : UpRequest → Bool
  | .mf ep => inEndpoint ep
  | .lifted _ ep _ => inEndpoint ep

/-- Whether a command is one that can arrive. -/
def wellFormed (c : Instr) : Bool :=
  match c with
  | .porstRelease _ _ => true
  | .porstAssert => true
  | .vaonFailure => true
  | .wrstAssert => true
  | .eveningHoldExpiry => true
  | .autoNightStart => true
  | .duskStepsComplete => true
  | .duskStepBoundExpiry => true
  | .prepareAnswer _ _ => true
  | .prepareDeferExpiry _ => true
  | .budgetDomainEntryStart _ => true
  | .domainExitStart _ => true
  | .domainExitComplete _ => true
  | .nightWake code => wakeCodeOk code && !(code == 0 || code == 1 || code == 4 || code == 5 || code == 7)
  | .midnightWake code _ => code.val ≤ 7
  | .wakeNLow => true
  | .wakeTimerExpiry => true
  | .midnightDetachDischargeEnd _ => true
  | .dieSensorSample _ => true
  | .thermalEveningExpiry _ => true
  | .tjCriticalExpiry _ => true
  | .supplyWarning _ mv => mv < 65536
  | .supplyFailure _ mv => mv < 65536
  | .rcToCrystalSwitch => true
  | .rcCalibration => true
  | .refclkLoss => true
  | .avsReevaluate => true
  | .avsRequestComplete _ _ _ _ => true
  | .avsTimeout => true
  | .avsHoldoffExpiry => true
  | .portDieLinkRetrain _ => true
  | .portDieLinkReturn _ => true
  | .portDieLinkFail _ => true
  | .powerDieLinkTimeout _ => true
  | .powerDieCoreSilence _ => true
  | .alarmPairChange _ _ => true
  | .alarmLineFault _ _ => true
  | .detectorMessage source kind _ _ _ => (Machine.faultRow source.toNat kind.toNat).isSome
  | .faultNPulseEnd => true
  | .safeHoldRestartDone => true
  | .reactionComplete r _ _ => reactionOk r
  | .resetShadowEnd r => reactionOk r
  | .watchdogKick => true
  | .watchdogExpiry => true
  | .injectionDurationEnd source kind => (Machine.faultRow source.toNat kind.toNat).isSome
  | .injectionArmTimeout source kind => (Machine.faultRow source.toNat kind.toNat).isSome
  | .upstreamAttach _ _ rp _ => rp != 0
  | .upstreamDetach _ => true
  | .upstreamVbusAbsent _ _ => true
  | .upstreamPdMessage _ m => pdOk m.bytes
  | .upstreamHardReset _ => true
  | .ssLinkU0 _ rate => rate != .none
  | .ssDecidingExpiry _ => true
  | .ssInactiveExpiry _ link => link == .ssInactive || link == .rxDetect || link == .polling
  | .ssLinkDisabled _ => true
  | .lgoU1U2 _ _ _ => true
  | .deviceU1U2Entry _ _ _ => true
  | .upstreamU3Entry _ => true
  | .upstreamU3Exit _ => true
  | .ssWarmReset _ => true
  | .ssHotReset _ => true
  | .usb2BusReset _ _ => true
  | .usb2LpmTransaction _ _ => true
  | .usb2Suspend _ => true
  | .usb2Resume _ _ => true
  | .mfStandardRequest _ r data => requestType r == 0 && data.length == (if r.bmRequestType == 0 && r.bRequest == 48 then 6 else 0)
  | .mfBulkOutCommand _ bytes => bytes.length != 0
  | .vcpCommand _ bytes => bytes.length < 65536
  | .vcpLastResponse _ _ => true
  | .mfOtherVendorRequest _ r => requestType r == 2
  | .doorbellRing _ _ => true
  | .smbusDoorbellWrite _ => true
  | .smbusSetPointer _ _ => true
  | .smbusAlertResponse => true
  | .rspDone _ => true
  | .evtDone _ => true
  | .crcErrClear _ => true
  | .registerWrite w bytes => match w with
    | .spi _ => bytes.length != 0
    | .smbus _ _ => 1 ≤ bytes.length && bytes.length ≤ 255
    | .smbusRead _ => bytes.length == 0
  | .helloOpen m => msgOk m && m.payload.length != 0
  | .helloForceOpen m => msgOk m && m.payload.length != 0
  | .helloGrant m => msgOk m && m.payload.length != 0
  | .helloRevoke m => msgOk m && m.payload.length != 0
  | .resync m => msgOk m
  | .eventAck m => msgOk m
  | .close m => msgOk m
  | .getInfo m => msgOk m
  | .getStatus m => msgOk m
  | .getTemps m => msgOk m
  | .unsupportedOpcode opcode m => msgOk m && (Machine.cmdRow opcode).isNone
  | .partGet m => msgOk m
  | .partAssignPort m => msgOk m
  | .partSetLimits m => msgOk m
  | .partConnect m => msgOk m
  | .partDisconnect m => msgOk m
  | .deferredDisconnectExecute _ => true
  | .portGet m => msgOk m
  | .portSetMode m => msgOk m
  | .portReset m => msgOk m
  | .portQuench m => msgOk m
  | .portRelease m => msgOk m
  | .portSetBc m => msgOk m
  | .liftGetPolicy m => msgOk m
  | .liftSetClasslist m => msgOk m
  | .liftSetEpBoundary m => msgOk m
  | .liftGetEpStats m => msgOk m
  | .liftClearPoison m => msgOk m
  | .pdSetOffer m => msgOk m
  | .pdSend m => msgOk m
  | .pdSetAutoresp m => msgOk m
  | .pdHardReset m => msgOk m
  | .ccSetRp m => msgOk m
  | .sbuSetRoute m => msgOk m
  | .pdSetTimers m => msgOk m
  | .slotGet m => msgOk m
  | .slotSetLimits m => msgOk m
  | .slotEnable m => msgOk m
  | .slotClearLatch m => msgOk m
  | .vbusSet m => msgOk m
  | .ppcGet m => msgOk m
  | .modeGet m => msgOk m
  | .modeRequest m _ => msgOk m
  | .latBudgetSet m => msgOk m
  | .wakeSourcesSet m => msgOk m
  | .avsGet m => msgOk m
  | .pbmGetStats m => msgOk m
  | .pbmSetScrub m => msgOk m
  | .pbmRetire m => msgOk m
  | .pbmFlipmask m => msgOk m
  | .faultRead m => msgOk m
  | .faultAck m => msgOk m
  | .faultSetSeverity m => msgOk m
  | .faultInject m => msgOk m
  | .faultpinControl m => msgOk m
  | .fwGet m => msgOk m
  | .fwStageBegin m => msgOk m
  | .fwStageData m => msgOk m
  | .fwStageCommit m => msgOk m
  | .fwActivate m => msgOk m
  | .activationPauseEnd => true
  | .activationLoadFail => true
  | .trialPass => true
  | .trialFail _ => true
  | .diagLoopback m => msgOk m
  | .diagPhyTest m => msgOk m
  | .diagEye m => msgOk m
  | .jtagBypass tdi => tdi.length != 0
  | .jtagIdcode => true
  | .jtagSamplePreload _ _ => true
  | .jtagExtest _ _ => true
  | .connectRecognised _ => true
  | .disconnectRecognised _ => true
  | .presentationPossible _ => true
  | .debounceComplete _ => true
  | .deviceResetSe0End _ _ => true
  | .resetRecoveryEnd _ => true
  | .probeRequestComplete _ r => resultOk 65535 r
  | .probeRequestTimeout _ => true
  | .probeTimeout _ => true
  | .nativeSsU0Held _ _ => true
  | .hostPortReset _ _ _ => true
  | .hostResetSe0End _ _ => true
  | .hubTopPortReset _ _ _ => true
  | .hubClearPortPower _ _ _ => true
  | .hubSetPortPower _ _ _ => true
  | .hubSetPortIndicator _ _ _ => true
  | .hubPortSuspend _ _ => true
  | .hubPortResume _ _ => true
  | .clearTtBuffer _ _ _ => true
  | .resetTt _ _ => true
  | .getTtState _ _ => true
  | .stopTt _ _ => true
  | .hubStandardRequest _ _ _ _ => true
  | .liftSuspendOrder _ => true
  | .liftResumeOrder _ => true
  | .resumeKEnd _ => true
  | .remoteWakeKRecognised _ _ => true
  | .u3ExitHandshakeComplete _ => true
  | .hostU3ExitCollision _ _ => true
  | .unarmedWakeResuspend _ => true
  | .l1IdleExpiry _ => true
  | .l1ExitRequest _ => true
  | .portBabble _ => true
  | .drainComplete _ => true
  | .drainWindowExpiry _ => true
  | .dischargeIntervalEnd _ => true
  | .stdGetStatus _ _ _ _ => true
  | .stdClearEndpointHalt _ _ => true
  | .stdSetEndpointHalt _ _ => true
  | .stdSetFunctionSuspend _ _ _ _ => true
  | .stdU1U2Enable _ _ _ => true
  | .stdSetLtmEnable _ => true
  | .stdDeviceRemoteWakeup _ _ => true
  | .stdSetTestMode _ _ => true
  | .stdSetAddress _ _ => true
  | .stdGetDescriptor _ _ _ _ _ => true
  | .stdSetDescriptor _ _ _ _ _ => true
  | .stdGetConfiguration _ => true
  | .stdSetConfiguration _ _ => true
  | .stdGetInterface _ _ => true
  | .stdSetInterface _ _ _ => true
  | .stdSynchFrame _ _ => true
  | .stdSetSel _ data => data.length == 6
  | .stdSetIsochDelay _ _ => true
  | .stdOtherRequest _ r => requestType r == 0
  | .classVendorRequest _ r => requestType r != 0
  | .controlWriteDataPacket _ bytes => bytes.length ≤ 512
  | .downstreamControlInPacket _ r => inOk 64 r
  | .downstreamStatusComplete _ r => resultOk 0 r
  | .microframeBoundary l => l.all (fun t => endpointOk t.ep && periodicOk t.answer)
  | .hsBulkInPacket _ ep r => inEndpoint ep && inOk 512 r
  | .holdWindowExpiry _ ep => inEndpoint ep
  | .ssAckTpReceived _ ep a => inEndpoint ep && a.others.all (fun x => upRequestOk x.2)
  | .ssBulkOutPacket _ ep bytes => outEndpoint ep && bytes.length ≤ 1024
  | .hsOutTransactionComplete _ ep _ => ep == 0 || outEndpoint ep
  | .hsOutStall _ ep => ep == 0 || outEndpoint ep
  | .interestLapse _ ep => inEndpoint ep
  | .ssInterruptOutInterval _ ep bytes => outEndpoint ep && bytes.length ≤ 3072
  | .isochTimestampReceived _ _ _ => true
  | .ssIsoOutPacket _ ep bytes _ => outEndpoint ep && bytes.length ≤ 49152
  | .mergeAgeFlush _ word => word < 49152
  | .scrubWord _ _ => true
  | .bucketLeakInterval => true
  | .bankRowEmptyMove _ row => row < 768
  | .bankRowTimeoutCopy _ row => row < 768
  | .ccPatternChange _ _ _ => true
  | .tccDebounceExpiry _ => true
  | .tpdDebounceExpiry _ => true
  | .raLost _ => true
  | .vconnOvercurrent _ => true
  | .errorRecoveryExpiry _ => true
  | .cableDiscoveryStart _ => true
  | .sourceCapabilitiesSend _ => true
  | .typecSendSourceCapExpiry _ => true
  | .pdSopDetected _ _ size => 2 ≤ size.val && size.val ≤ 264
  | .pdMessageReceived _ _ bytes => pdOk bytes
  | .pdGoodcrcReceived _ => true
  | .pdReceiveTimeout _ => true
  | .fwdDeadlineExpiry _ => true
  | .waitRetryExpiry _ => true
  | .sinkTxExpiry _ => true
  | .senderResponseTimeout _ => true
  | .noResponseTimeout _ => true
  | .ppsTimeout _ => true
  | .srcTransitionExpiry _ => true
  | .transitionPgood _ => true
  | .transitionTimeout _ => true
  | .hardResetReceived _ => true
  | .psHardResetExpiry _ => true
  | .srcRecoverExpiry _ => true
  | .vconnSourceTimeout _ => true
  | .vconnLineLow _ => true
  | .pdQueuePop _ => true
  | .cdcSetLineCoding _ _ _ _ _ _ => true
  | .cdcGetLineCoding _ _ => true
  | .cdcSetControlLineState _ _ _ => true
  | .cdcSendBreak _ _ _ => true
  | .seatNLow _ => true
  | .seatNHigh _ => true
  | .seatDebounceExpiry _ => true
  | .startConditionHolds _ mv => mv < 65536
  | .pgConditionsHold _ => true
  | .pgConditionsLost _ => true
  | .pgDelayExpiry _ => true
  | .pgLostTrip _ => true
  | .fastTrip _ _ => true
  | .breakerTimeout _ _ => true
  | .rampStall _ => true
  | .vinWindowExit _ mv => mv < 65536
  | .offTimeExpiry _ mv => mv < 65536
  | .tripWindowAging _ => true
  | .slotTelemetrySample _ _ _ _ => true
  | .slotDisableTimeout _ => true
  | .chainFrame _ input => input.length == 32
  | .chainSettlingTimeout _ => true
  | .vbusReleaseStagger _ => true
  | .noPgoodTimeout _ => true
  | .pgoodLostTimeout _ => true
  | .powerDieLinkResume _ => true
  | .supplyWarningClear => true
  | .mfInTransfer _ ep => inEndpoint ep
  | .cdcBulkOutData _ _ data => data.length ≤ 1024
  | .sbuUartRx _ _ => true
  | .smbusClockLowTimeout => true
  | .midnightContractReleaseExpiry _ => true
  | .virtualLinkInactivityTimeout _ _ _ => true
  | .nativeSsPacketReceived _ _ bytes => bytes.length != 0
  | .ttSplitTransaction _ _ op => match op with
    | .start _ _ bytes => bytes.length ≤ 1023
    | .complete _ r => (r.map (resultOk 1023)).getD true
  | .passthroughTransaction _ _ packet _ _ => packet.length != 0
  | .wrstRelease _ => true
  | .vdpSrcDetected _ _ => true

end Sys2Proof
end

