-- ==== Sys2Proof/Tests/Slice0.lean ====
section
/-! SUPPORT. Tests: an ill-formed command for each check of WellFormed, and the figures of the spec's worked examples and of the
standards it names. -/

section SliceTests

set_option Elab.async false
set_option linter.unusedSimpArgs false

namespace Sys2Proof.Machine

open Sys2Proof

/-! ## Commands that cannot arrive -/

theorem zeros_length (n : Nat) : (zeros n).length = n := List.length_replicate ..

/-- A message whose payload LENGTH cannot name (Table 11.1). -/
theorem test_wf_payload (m : VcpMsg) (h : m.payload = zeros 65536) : msgOk m = false := by
  unfold msgOk
  rw [h, zeros_length]
  decide

theorem test_wf_detectorMessage_unpaired : wellFormed (.detectorMessage 0xFFF 0xFF 0 false none) = false := by decide

theorem test_wf_injectionDurationEnd_unpaired : wellFormed (.injectionDurationEnd 0xFFF 0xFF) = false := by decide

theorem test_wf_injectionArmTimeout_unpaired : wellFormed (.injectionArmTimeout 0xFFF 0xFF) = false := by decide

theorem test_wf_reactionComplete_row : wellFormed (.reactionComplete (.rowRetire 0 768) 0 true) = false := by decide

theorem test_wf_resetShadowEnd_row : wellFormed (.resetShadowEnd (.rowRetire 0 768)) = false := by decide

theorem test_wf_nightWake_midnight_code : wellFormed (.nightWake 0) = false := by decide

theorem test_wf_nightWake_no_code : wellFormed (.nightWake 20) = false := by decide

theorem test_wf_midnightWake_night_code : wellFormed (.midnightWake 16 {}) = false := by decide

theorem test_wf_supplyWarning_mv : wellFormed (.supplyWarning 0 65536) = false := by decide

theorem test_wf_supplyFailure_mv : wellFormed (.supplyFailure 0 65536) = false := by decide

theorem test_wf_startConditionHolds_mv : wellFormed (.startConditionHolds 0 65536) = false := by decide

theorem test_wf_vinWindowExit_mv : wellFormed (.vinWindowExit 0 65536) = false := by decide

theorem test_wf_offTimeExpiry_mv : wellFormed (.offTimeExpiry 0 65536) = false := by decide

theorem test_wf_upstreamAttach_no_rp : wellFormed (.upstreamAttach 0 false 0 true) = false := by decide

theorem test_wf_upstreamPdMessage_no_header : wellFormed (.upstreamPdMessage 0 ⟨[0], false⟩) = false := by decide

theorem test_wf_pdMessageReceived_no_header : wellFormed (.pdMessageReceived 0 0 [0]) = false := by decide

theorem test_wf_pdMessageReceived_long : wellFormed (.pdMessageReceived 0 0 (zeros 265)) = false := by
  simp only [wellFormed, pdOk, inOk, resultOk, periodicOk, zeros_length, List.all_cons, List.all_nil, Option.map_some, Option.getD_some]
  decide

theorem test_wf_pdSopDetected_short : wellFormed (.pdSopDetected 0 0 1) = false := by decide

theorem test_wf_pdSopDetected_long : wellFormed (.pdSopDetected 0 0 265) = false := by decide

theorem test_wf_ssLinkU0_no_rate : wellFormed (.ssLinkU0 0 .none) = false := by decide

theorem test_wf_ssInactiveExpiry_u0 : wellFormed (.ssInactiveExpiry 0 .u0) = false := by decide

theorem test_wf_mfStandardRequest_class : wellFormed (.mfStandardRequest 0 { bmRequestType := 0x21, bRequest := 0, wValue := 0, wIndex := 0, wLength := 0 } []) = false := by decide

theorem test_wf_mfStandardRequest_sel : wellFormed (.mfStandardRequest 0 { bmRequestType := 0, bRequest := 48, wValue := 0, wIndex := 0, wLength := 6 } [0]) = false := by decide

theorem test_wf_mfBulkOutCommand_empty : wellFormed (.mfBulkOutCommand 0 []) = false := by decide

theorem test_wf_mfOtherVendorRequest_standard : wellFormed (.mfOtherVendorRequest 0 { bmRequestType := 0, bRequest := 0, wValue := 0, wIndex := 0, wLength := 0 }) = false := by decide

theorem test_wf_registerWrite_spi_empty : wellFormed (.registerWrite (.spi 0) []) = false := by decide

theorem test_wf_registerWrite_smbus_empty : wellFormed (.registerWrite (.smbus true true) []) = false := by decide

theorem test_wf_registerWrite_smbus_long : wellFormed (.registerWrite (.smbus true true) (zeros 256)) = false := by
  simp only [wellFormed, pdOk, inOk, resultOk, periodicOk, zeros_length, List.all_cons, List.all_nil, Option.map_some, Option.getD_some]
  decide

theorem test_wf_helloOpen_empty : wellFormed (.helloOpen (Machine.demoMsg 0 [])) = false := by decide

theorem test_wf_helloForceOpen_empty : wellFormed (.helloForceOpen (Machine.demoMsg 0 [])) = false := by decide

theorem test_wf_helloGrant_empty : wellFormed (.helloGrant (Machine.demoMsg 0 [])) = false := by decide

theorem test_wf_helloRevoke_empty : wellFormed (.helloRevoke (Machine.demoMsg 0 [])) = false := by decide

theorem test_wf_unsupportedOpcode_known : wellFormed (.unsupportedOpcode 0x0001 (Machine.demoMsg 0 [])) = false := by decide

theorem test_wf_jtagBypass_empty : wellFormed (.jtagBypass []) = false := by decide

theorem test_wf_stdSetSel_short : wellFormed (.stdSetSel 0 [0, 0, 0, 0, 0]) = false := by decide

theorem test_wf_stdOtherRequest_class : wellFormed (.stdOtherRequest 0 { bmRequestType := 0x21, bRequest := 0, wValue := 0, wIndex := 0, wLength := 0 }) = false := by decide

theorem test_wf_classVendorRequest_standard : wellFormed (.classVendorRequest 0 { bmRequestType := 0, bRequest := 0, wValue := 0, wIndex := 0, wLength := 0 }) = false := by decide

theorem test_wf_controlWriteDataPacket_long : wellFormed (.controlWriteDataPacket 0 (zeros 513)) = false := by
  simp only [wellFormed, pdOk, inOk, resultOk, periodicOk, zeros_length, List.all_cons, List.all_nil, Option.map_some, Option.getD_some]
  decide

theorem test_wf_downstreamControlInPacket_long : wellFormed (.downstreamControlInPacket 0 (.data (zeros 65))) = false := by
  simp only [wellFormed, pdOk, inOk, resultOk, periodicOk, zeros_length, List.all_cons, List.all_nil, Option.map_some, Option.getD_some]
  decide

theorem test_wf_downstreamStatusComplete_data : wellFormed (.downstreamStatusComplete 0 (.data [0])) = false := by decide

theorem test_wf_microframeBoundary_ep0 : wellFormed (.microframeBoundary [{ port := 0, ep := 0x80, answer := .nak }]) = false := by decide

theorem test_wf_microframeBoundary_packets : wellFormed (.microframeBoundary [{ port := 0, ep := 0x81, answer := .packets [[], [], [], []] }]) = false := by decide

theorem test_wf_microframeBoundary_long : wellFormed (.microframeBoundary [{ port := 0, ep := 0x81, answer := .packets [zeros 1025] }]) = false := by
  simp only [wellFormed, pdOk, inOk, resultOk, periodicOk, zeros_length, List.all_cons, List.all_nil, Option.map_some, Option.getD_some]
  decide

theorem test_wf_hsBulkInPacket_out : wellFormed (.hsBulkInPacket 0 0x01 .nak) = false := by decide

theorem test_wf_hsBulkInPacket_long : wellFormed (.hsBulkInPacket 0 0x81 (.data (zeros 513))) = false := by
  simp only [wellFormed, pdOk, inOk, resultOk, periodicOk, zeros_length, List.all_cons, List.all_nil, Option.map_some, Option.getD_some]
  decide

theorem test_wf_holdWindowExpiry_out : wellFormed (.holdWindowExpiry 0 0x01) = false := by decide

theorem test_wf_ssAckTpReceived_out : wellFormed (.ssAckTpReceived 0 0x01 ⟨0, []⟩) = false := by decide

theorem test_wf_ssAckTpReceived_others_out : wellFormed (.ssAckTpReceived 0 0x81 ⟨0, [(0, .mf 0x01)]⟩) = false := by decide

theorem test_wf_registerWrite_read_bytes : wellFormed (.registerWrite (.smbusRead 1) [0]) = false := by decide

theorem test_wf_interestLapse_out : wellFormed (.interestLapse 0 0x01) = false := by decide

theorem test_wf_mfInTransfer_out : wellFormed (.mfInTransfer 0 0x01) = false := by decide

theorem test_wf_ssBulkOutPacket_in : wellFormed (.ssBulkOutPacket 0 0x81 []) = false := by decide

theorem test_wf_ssBulkOutPacket_long : wellFormed (.ssBulkOutPacket 0 0x01 (zeros 1025)) = false := by
  simp only [wellFormed, pdOk, inOk, resultOk, periodicOk, zeros_length, List.all_cons, List.all_nil, Option.map_some, Option.getD_some]
  decide

theorem test_wf_ssInterruptOutInterval_in : wellFormed (.ssInterruptOutInterval 0 0x81 []) = false := by decide

theorem test_wf_ssInterruptOutInterval_long : wellFormed (.ssInterruptOutInterval 0 0x01 (zeros 3073)) = false := by
  simp only [wellFormed, pdOk, inOk, resultOk, periodicOk, zeros_length, List.all_cons, List.all_nil, Option.map_some, Option.getD_some]
  decide

theorem test_wf_ssIsoOutPacket_in : wellFormed (.ssIsoOutPacket 0 0x81 [] false) = false := by decide

theorem test_wf_ssIsoOutPacket_long : wellFormed (.ssIsoOutPacket 0 0x01 (zeros 49153) false) = false := by
  simp only [wellFormed, pdOk, inOk, resultOk, periodicOk, zeros_length, List.all_cons, List.all_nil, Option.map_some, Option.getD_some]
  decide

theorem test_wf_hsOutTransactionComplete_in : wellFormed (.hsOutTransactionComplete 0 0x81 .ack) = false := by decide

theorem test_wf_hsOutStall_in : wellFormed (.hsOutStall 0 0x81) = false := by decide

theorem test_wf_mergeAgeFlush_word : wellFormed (.mergeAgeFlush 0 49152) = false := by decide

theorem test_wf_bankRowEmptyMove_row : wellFormed (.bankRowEmptyMove 0 768) = false := by decide

theorem test_wf_bankRowTimeoutCopy_row : wellFormed (.bankRowTimeoutCopy 0 768) = false := by decide

theorem test_wf_chainFrame_short : wellFormed (.chainFrame 0 (zeros 31)) = false := by
  simp only [wellFormed, pdOk, inOk, resultOk, periodicOk, zeros_length, List.all_cons, List.all_nil, Option.map_some, Option.getD_some]
  decide

theorem test_wf_cdcBulkOutData_long : wellFormed (.cdcBulkOutData 0 0 (zeros 1025)) = false := by
  simp only [wellFormed, pdOk, inOk, resultOk, periodicOk, zeros_length, List.all_cons, List.all_nil, Option.map_some, Option.getD_some]
  decide

theorem test_wf_nativeSsPacketReceived_empty : wellFormed (.nativeSsPacketReceived 0 true []) = false := by decide

theorem test_wf_ttSplitTransaction_long : wellFormed (.ttSplitTransaction 0 0 (.start 0 false (zeros 1024))) = false := by
  simp only [wellFormed, pdOk, inOk, resultOk, periodicOk, zeros_length, List.all_cons, List.all_nil, Option.map_some, Option.getD_some]
  decide

theorem test_wf_ttSplitTransaction_answer_long : wellFormed (.ttSplitTransaction 0 0 (.complete 0 (some (.data (zeros 1024))))) = false := by
  simp only [wellFormed, pdOk, inOk, resultOk, periodicOk, zeros_length, List.all_cons, List.all_nil, Option.map_some, Option.getD_some]
  decide

theorem test_wf_passthroughTransaction_empty : wellFormed (.passthroughTransaction 0 0 [] [] false) = false := by decide

theorem test_wf_vcpCommand_long : wellFormed (.vcpCommand 0 (zeros 65536)) = false := by
  simp only [wellFormed, resultOk, zeros_length]
  decide

theorem test_wf_probeRequestComplete_long : wellFormed (.probeRequestComplete 0 (.data (zeros 65536))) = false := by
  simp only [wellFormed, resultOk, zeros_length]
  decide

/-- A row that carries a message refuses one whose payload is too long. -/
theorem test_wf_messages (m : VcpMsg) (h : m.payload = zeros 65536) (b : BoardIn) :
    wellFormed (.getInfo m) = false ∧ wellFormed (.portReset m) = false ∧ wellFormed (.pdSend m) = false ∧ wellFormed (.modeRequest m b) = false ∧
      wellFormed (.faultRead m) = false ∧ wellFormed (.fwStageData m) = false ∧ wellFormed (.diagEye m) = false :=
  let k := test_wf_payload m h
  ⟨k, k, k, k, k, k, k⟩

/-! ## The spec's worked examples -/

/-- A word with d4 alone set: its check bits are the column of d4, 0x013 ("Worked example: decoding", chapter 7). -/
def d4Word : BitVec 137 := pbmEncode (1#128 <<< 4)

theorem test_ecc_check_bits : d4Word = (0x013#9) ++ (1#128 <<< 4) := by decide +kernel

theorem test_ecc_as_written : classify (pbmSyndrome d4Word) = .clean := by decide +kernel

theorem test_ecc_d4_flipped : pbmSyndrome (d4Word ^^^ (1#137 <<< 4)) = 0x013 ∧ classify 0x013 = .correctable 4 ∧
    corrected (d4Word ^^^ (1#137 <<< 4)) (.correctable 4) = 1#128 <<< 4 := by decide +kernel

theorem test_ecc_c2_flipped : pbmSyndrome (d4Word ^^^ (1#137 <<< 130)) = 0x004 ∧ classify 0x004 = .correctable 130 ∧
    corrected (d4Word ^^^ (1#137 <<< 130)) (.correctable 130) = 1#128 <<< 4 := by decide +kernel

theorem test_ecc_d4_c2_flipped : pbmSyndrome (d4Word ^^^ (1#137 <<< 4) ^^^ (1#137 <<< 130)) = 0x017 ∧ classify 0x017 = .double := by decide +kernel

theorem test_ecc_poisoned : pbmSyndrome (poisoned (1#128 <<< 4)) = 0x155 ∧ classify 0x155 = .poison := by decide +kernel

/-- VSET of 5, 9, 15 and 20 V (chapter 9). -/
theorem test_vset : vsetOf 5000 = 0x064 ∧ vsetOf 9000 = 0x12C ∧ vsetOf 15000 = 0x258 ∧ vsetOf 20000 = 0x352 := by decide

/-- The frame words of ports 40 and 41 of the charge cart (chapter 9). -/
theorem test_frame_words : frameWord true false true 4 280 = 0xB118 ∧ frameWord true false false 3 0x12C = 0x8D2C := by decide

/-- Syndrome 0x075 is the column of d100 (the stuck data bit of chapter 7). -/
theorem test_ecc_d100 : classify 0x075 = .correctable 100 := by decide +kernel

/-- Index 8 stands at (1, 9), index 9 at (1, 10), index 22 at (2, 9) (chapters 3 and 4). -/
theorem test_positions : (leafOf 8, leafPortOf 8) = (1, 9) ∧ (leafOf 9, leafPortOf 9) = (1, 10) ∧ (leafOf 22, leafPortOf 22) = (2, 9) := by decide

/-- The vendor stream in HOLD: 512, 512, 512, the window's end, 512 (chapter 5). -/
theorem test_hold_stream : pairStep .empty (.packet 512) = { ready := [], next := .half, ended := false, absorbed := false } ∧
    pairStep .half (.packet 512) = { ready := [1024], next := .empty, ended := false, absorbed := false } ∧
    pairStep .half .expiry = { ready := [512], next := .released, ended := false, absorbed := false } ∧
    pairStep .released (.packet 512) = { ready := [], next := .half, ended := false, absorbed := false } ∧
    pairStep .released (.packet 0) = { ready := [], next := .empty, ended := true, absorbed := true } := by decide

/-- The Bulk-Only read: DATALEN 1,536, IN; 512 three times, then the CSW (chapter 5). -/
theorem test_bulk_only_read : cbwOf ([0x55, 0x53, 0x42, 0x43, 1, 0, 0, 0, 0x00, 0x06, 0x00, 0x00, 0x80, 0, 10] ++ zeros 16) = some (1536, true) ∧
    snoopStep (.dataIn 1536) 512 = { next := .dataIn 1024 } ∧ snoopStep (.dataIn 1024) 512 = { next := .dataIn 512 } ∧
    snoopStep (.dataIn 512) 512 = { next := .expectCsw, flush := true } ∧ snoopStep .expectCsw 13 = { next := .expectCbw, alone := true } := by decide

/-- 768 + 500 bytes in one micro-frame are presented as packets of 1,024 and 244 (chapter 5). -/
theorem test_interval_packets : intervalPackets 1 (768 + 500) = [1024, 244] := by decide

/-- The configuration of the test-lab handset as read (chapter 4). -/
def handset : List Byte :=
  [9, 2, 0x80, 0, 4, 1, 0, 0x80, 0xFA] ++
  [9, 4, 0, 0, 3, 0x06, 1, 1, 0, 7, 5, 0x81, 2, 0x00, 0x02, 0, 7, 5, 0x02, 2, 0x00, 0x02, 0, 7, 5, 0x83, 3, 0x1C, 0, 4] ++
  [9, 4, 1, 0, 2, 0xFF, 0, 0, 0, 7, 5, 0x84, 2, 0x00, 0x02, 0, 7, 5, 0x05, 2, 0x00, 0x02, 0] ++
  [8, 11, 2, 2, 2, 2, 1, 0] ++
  [9, 4, 2, 0, 1, 0x02, 2, 1, 0, 5, 0x24, 0, 0, 0, 5, 0x24, 1, 0, 0, 4, 0x24, 2, 0, 5, 0x24, 6, 0, 0, 7, 5, 0x86, 3, 0x10, 0, 9] ++
  [9, 4, 3, 0, 2, 0x0A, 0, 0, 0, 7, 5, 0x87, 2, 0x00, 0x02, 0, 7, 5, 0x08, 2, 0x00, 0x02, 0]

theorem test_handset_read : handset.length = 128 ∧ ((parseConfig handset).map (fun c => (c.ifs.map (fun i => i.eps.length), c.functions))) =
    some ([3, 2, 1, 2], [0, 1, 2]) := by decide +kernel

/-- As presented: wTotalLength 0x00B0, bMaxPower 0x3F, endpoint 0x81 at 0x0400 with bMaxBurst 7. -/
theorem test_handset_presented : (presentConfig handset).length = 176 ∧ get16 (presentConfig handset) 2 = 0x00B0 ∧
    get8 (presentConfig handset) 8 = 0x3F ∧ ((presentConfig handset).drop 18).take 13 = [7, 5, 0x81, 2, 0x00, 0x04, 0, 6, 0x30, 7, 0, 0, 0] := by decide +kernel

/-- Endpoint 0x83 keeps 0x001C and bInterval 4, and its companion says 0x001C bytes. -/
theorem test_handset_interrupt : presentEndpoint [7, 5, 0x83, 3, 0x1C, 0, 4] = [7, 5, 0x83, 3, 0x1C, 0, 4, 6, 0x30, 0, 0, 0x1C, 0] := by decide

/-- Its BOS as presented: 22 bytes, two capabilities, the extension 0x0000_0002. -/
theorem test_handset_bos : (presentBos (some [5, 15, 12, 0, 1, 7, 16, 2, 0x0E, 0x04, 0, 0])).take 12 = [5, 15, 22, 0, 2, 7, 16, 2, 2, 0, 0, 0] ∧
    (presentBos (some [5, 15, 12, 0, 1, 7, 16, 2, 0x0E, 0x04, 0, 0])).length = 22 := by decide +kernel

/-- Port 40's item (chapter 8): its header word and its payload word. -/
theorem test_pd_item : itemOf { sop := 0, time := 20000, size := 6, bytes := [0x82, 0x1A, 0x32, 0x5C, 0x03, 0x23], whole := true, overrun := false, hwAnswered := true, forwarded := false, raise := false, withheld := false } 8 0x17 =
    [queueEncode (queueWord false 8 0x4E20170400030008), queueEncode (queueWord true 6 0x000023035C321A82)] := by decide +kernel

/-- Balls of port 449 and of its slot (chapter 13, "Reading the map"). -/
theorem test_ball_dp : ballAt 61 16 = some (.dn 449 .dp) ∧ ballAt 61 17 = some (.dn 449 .dm) := by decide

theorem test_ball_cc : ballAt 58 70 = some (.dn 449 .cc1) ∧ ballAt 58 69 = some (.dn 449 .cc2) := by decide

theorem test_ball_tx : ballAt 46 44 = some (.dn 449 (.ss .tx1p)) ∧ ballAt 46 48 = some (.dn 449 (.ss .tx2n)) ∧ ballAt 48 44 = some (.dn 449 (.ss .rx1p)) ∧
    ballAt 49 45 = some (.dn 449 .sbu2) := by decide

theorem test_ball_slot : ballAt 34 64 = some (.spc 14 .vin) ∧ ballAt 40 64 = some (.spc 14 .seatN) ∧ ballAt 45 31 = some (.ppc 14 .clk) ∧
    ballAt 45 28 = some (.ppc 14 .din) ∧ ballAt 54 50 = some (.up 14 (.ss .tx1p)) ∧ ballAt 57 53 = some (.up 14 .cc1) := by decide

/-- The boundary-scan chain covers 103 balls; PORST_N, WRST_N and TESTMODE are the three that observe alone (R447). -/
theorem test_scan_chain : scanChain.length = 103 ∧ (scanChain[48]?, scanChain[49]?, scanChain[55]?) =
    (some (.sys .porstN), some (.sys .wrstN), some (.sys .testmode)) := by decide +kernel

/-- IDCODE (R447). -/
theorem test_idcode : idcodeValue = 0x1851695B := by decide

/-- The tail of the serial string 3F09A2C41B7E0D55-P03-H5: "-P03-H5" (chapter 2). -/
theorem test_serial_tail : (serialChars 3 (some 5)).drop 16 = [0x2D, 0x50, 0x30, 0x33, 0x2D, 0x48, 0x35] := rfl

/-- "-P03-MF". -/
theorem test_serial_mf : (serialChars 3 none).drop 16 = [0x2D, 0x50, 0x30, 0x33, 0x2D, 0x4D, 0x46] := rfl

/-- The check value of the CRC-32 of IEEE 802.3 over "123456789". -/
theorem test_crc32 : crc32 [0x31, 0x32, 0x33, 0x34, 0x35, 0x36, 0x37, 0x38, 0x39] = 0xCBF43926 := by decide +kernel

/-- SHA-384 of "abc", the example of FIPS 180. -/
theorem test_sha384 : sha384 [0x61, 0x62, 0x63] = [0xcb, 0x00, 0x75, 0x3f, 0x45, 0xa3, 0x5e, 0x8b, 0xb5, 0xa0, 0x3d, 0x69, 0x9a, 0xc6, 0x50, 0x07,
    0x27, 0x2c, 0x32, 0xab, 0x0e, 0xde, 0xd1, 0x63, 0x1a, 0x8b, 0x60, 0x5a, 0x43, 0xff, 0x5b, 0xed,
    0x80, 0x86, 0x07, 0x2b, 0xa1, 0xe7, 0xcc, 0x23, 0x58, 0xba, 0xec, 0xa1, 0x34, 0xc8, 0x25, 0xa7] := by decide +kernel

end Sys2Proof.Machine

end SliceTests
end

