-- ==== Sys2Proof/Tests/Witness.lean ====
section
/-! SUPPORT. For every clause with hypotheses of every statement, a concrete state and operands that meet all of them together. -/

section

open Sys2Proof Sys2Proof.Machine

set_option Elab.async false

theorem witness_PowerOnReset_2 : ∃ (s : State) (b : BoardIn), (s.mode = .off) ∧ (s.aonUp = false) :=
  ⟨State.reset, {}, by
    refine ⟨?_, ?_⟩ <;> first | rfl | decide | exact ⟨by decide, by decide, rfl⟩⟩

theorem witness_PowerOnReset_3 : ∃ (s : State) (b : BoardIn), (s.mode = .off) ∧ (s.aonUp = false) :=
  ⟨State.reset, {}, by
    refine ⟨?_, ?_⟩ <;> first | rfl | decide | exact ⟨by decide, by decide, rfl⟩⟩

theorem witness_PowerOnReset_4 : ∃ (s : State), (s.mode ≠ .off) ∧ (s.mode ≠ .dawn) :=
  ⟨demo, by
    refine ⟨?_, ?_⟩ <;> first | rfl | decide | exact ⟨by decide, by decide, rfl⟩⟩

theorem witness_PowerOnReset_5 : ∃ (s : State) (b : BoardIn), (s.mode = .dawn) ∧ (s.wrstLow = true) :=
  ⟨{ demo with mode := .dawn, wrstLow := true }, {}, by
    refine ⟨?_, ?_⟩ <;> first | rfl | decide | exact ⟨by decide, by decide, rfl⟩⟩

theorem witness_ModeMoves_0 : ∃ (s : State), (s.mode = .evening) ∧ (s.busy = false) ∧ (s.eveHolds = false) ∧ (s.coreNeed .noon ≤ s.avs.confirmed) :=
  ⟨{ demo with mode := .evening, avs := { demo.avs with confirmed := 2000 } }, by
    refine ⟨rfl, rfl, rfl, ?_⟩
    exact Nat.le_trans (Nat.add_le_add_left (Nat.le_of_lt_succ (Fin.isLt _)) 700) (by decide)⟩

theorem witness_ModeMoves_1 : ∃ (s : State), (s.mode = .noon ∨ s.mode = .evening ∨ s.mode = .morning) ∧ (s.modeCfg.autoNight = true) ∧ (s.busy = false) ∧ (s.queue = none) ∧ (s.fw.paused = false) ∧ (∀ k, (s.parts.get k).st ≠ .connected ∧ s.wantsTree k = false) :=
  ⟨{ demo with modeCfg := { demo.modeCfg with autoNight := true } }, by
    refine ⟨.inl rfl, rfl, rfl, rfl, rfl, ?_⟩
    intro k
    constructor
    · simp [demo, State.reset]
    · simp [demo, State.reset, State.wantsTree]⟩

theorem witness_ModeMoves_2 : ∃ (s : State) (code : Fin 32), (s.mode = .night) ∧ (s.wakesNight code.val = true) ∧ (s.arrival = none) :=
  ⟨{ demo with mode := .night }, 0x10, by
    refine ⟨?_, ?_, ?_⟩ <;> first | rfl | decide | exact ⟨by decide, by decide, rfl⟩⟩

theorem witness_ModeMoves_3 : ∃ (s : State) (code : Fin 32) (b : BoardIn), (s.mode = .midnight) ∧ (s.wakesMidnight code.val = true) :=
  ⟨{ demo with mode := .midnight, modeCfg := { demo.modeCfg with wakeSources := 0xFFFF } }, 3, {}, by
    refine ⟨?_, ?_⟩ <;> first | rfl | decide | exact ⟨by decide, by decide, rfl⟩⟩

theorem witness_ModeMoves_4 : ∃ (s : State), (s.mode = .midnight) ∧ (s.wakesMidnight 3 = true) :=
  ⟨{ demo with mode := .midnight, modeCfg := { demo.modeCfg with wakeSources := 0xFFFF } }, by
    refine ⟨?_, ?_⟩ <;> first | rfl | decide | exact ⟨by decide, by decide, rfl⟩⟩

theorem witness_ModeMoves_5 : ∃ (s : State), (s.mode = .night) ∧ (s.modeCfg.wakeSources.getLsbD 6 = true) ∧ (s.modeCfg.wakeTimer ≠ 0) ∧ (s.arrival = none) :=
  ⟨{ demo with mode := .night, modeCfg := { demo.modeCfg with wakeSources := 0xFFFF, wakeTimer := 5 } }, by
    refine ⟨?_, ?_, ?_, ?_⟩ <;> first | rfl | decide | exact ⟨by decide, by decide, rfl⟩⟩

theorem witness_DuskRows_0 : ∃ (s : State) (t : Trans) (u : State), (s.mode ≠ .off) ∧ (s.trans = some t) ∧ (t.stage = .steps) ∧ (s.begin.duskStep t.req.goal t.begun = some u) :=
  ⟨{ demo with mode := .dusk, trans := some { req := { goal := .midnight }, auto := false, rollback := false, origin := .noon, cause := 0, detail := 0 } }, _, _, by
    refine ⟨by decide, rfl, rfl, rfl⟩⟩

theorem witness_DuskRows_1 : ∃ (s : State) (t : Trans), (s.mode ≠ .off) ∧ (s.trans = some t) ∧ (t.stage = .steps) ∧ (t.req.goal ≠ .off) ∧ (s.begin.duskStep t.req.goal t.begun = none) :=
  ⟨{ demo with mode := .dusk, trans := some { req := { goal := .night }, auto := false, rollback := false, origin := .noon, cause := 0, detail := 0 } }, _, by
    refine ⟨by decide, rfl, rfl, by decide, rfl⟩⟩

theorem witness_DuskRows_2 : ∃ (s : State) (t : Trans), (s.mode ≠ .off) ∧ (s.trans = some t) ∧ (t.stage = .steps) :=
  ⟨{ demo with mode := .dusk, trans := some { req := { goal := .night }, auto := false, rollback := false, origin := .noon, cause := 0, detail := 0 } }, _, by
    refine ⟨by decide, rfl, rfl⟩⟩

theorem witness_DuskRows_3 : ∃ (s : State) (t : Trans) (d : Fin 25) (defer : Bool) (r : Nat), (s.mode ≠ .off) ∧ (s.trans = some t) ∧ (t.stage = .prepare) ∧ ((d, PrepAnswer.awaited) ∈ t.answers) ∧ (s.refusal t.req.goal d = some r) :=
  ⟨{ demo with mode := .dusk, fw := { demo.fw with staging := some { session := 16, area := 0, total := 4, isImage := true, bytes := [] } }, trans := some { req := { goal := .maintenance 0 }, auto := false, rollback := false, origin := .noon, cause := 0, detail := 0, stage := .prepare, answers := [(0, .awaited)] } }, _, 0, false, 9, by
    refine ⟨by decide, rfl, rfl, by decide, rfl⟩⟩

theorem witness_DuskRows_4 : ∃ (s : State) (t : Trans) (d : Fin 25) (defer : Bool), (s.mode ≠ .off) ∧ (s.trans = some t) ∧ (t.stage = .prepare) ∧ ((d, PrepAnswer.awaited) ∈ t.answers) ∧ (s.refusal t.req.goal d = none) ∧ ((defer || s.mustDefer (t.req.goal == .off || t.req.goal == .midnight) d) = true) :=
  ⟨{ demo with mode := .dusk, trans := some { req := { goal := .maintenance 0 }, auto := false, rollback := false, origin := .noon, cause := 0, detail := 0, stage := .prepare, answers := [(0, .awaited)] } }, _, 0, true, by
    refine ⟨by decide, rfl, rfl, by decide, rfl, rfl⟩⟩

theorem witness_DuskRows_5 : ∃ (s : State) (t : Trans) (d : Fin 25), (s.mode ≠ .off) ∧ (s.trans = some t) ∧ (t.stage = .prepare) ∧ ((d, PrepAnswer.awaited) ∈ t.answers) ∧ (∀ x ∈ t.answers, x.1 = d ∨ x.2 = .accepted) ∧ (s.refusal t.req.goal d = none) ∧ (s.mustDefer (t.req.goal == .off || t.req.goal == .midnight) d = false) :=
  ⟨{ demo with mode := .dusk, trans := some { req := { goal := .maintenance 0 }, auto := false, rollback := false, origin := .noon, cause := 0, detail := 0, stage := .prepare, answers := [(3, .awaited)] } }, _, 3, by
    refine ⟨by decide, rfl, rfl, by decide, by decide, rfl, rfl⟩⟩

theorem witness_DuskRows_6 : ∃ (s : State) (t : Trans) (d : Fin 25), (s.mode ≠ .off) ∧ (s.trans = some t) ∧ (t.stage = .prepare) ∧ ((d, PrepAnswer.deferring) ∈ t.answers) :=
  ⟨{ demo with mode := .dusk, trans := some { req := { goal := .maintenance 0 }, auto := false, rollback := false, origin := .noon, cause := 0, detail := 0, stage := .prepare, answers := [(0, .deferring)] } }, _, 0, by
    refine ⟨by decide, rfl, rfl, by decide⟩⟩

theorem witness_DomainRows_0 : ∃ (s : State) (d : Fin 25) (st : DomState), (s.mode ≠ .off) ∧ (s.ruleNow d = .auto) ∧ (s.entries = []) ∧ (d ∉ s.exiting) ∧ (s.trans = none) ∧ (s.autoTarget d = some st) ∧ (domDepth (s.domains.get d) < domDepth st) :=
  ⟨{ demo with mode := .night }, 9, .off, by
    refine ⟨by decide, rfl, rfl, by decide, rfl, by decide, by decide⟩⟩

theorem witness_DomainRows_1 : ∃ (s : State) (k : Part), (s.mode = .noon ∨ s.mode = .evening ∨ s.mode = .morning ∨ s.mode = .diagnostic) :=
  ⟨demo, 0, by
    exact .inl rfl⟩

theorem witness_DomainRows_2 : ∃ (s : State) (d : Fin 25), (s.mode ≠ .off) ∧ (d ∈ s.exiting) :=
  ⟨{ demo with exiting := [2] }, 2, by
    exact ⟨by decide, by decide⟩⟩

theorem witness_DomainRows_3 : ∃ (s : State) (p : Port), (s.mode = .midnight) ∧ ((s.vbus.get p).discharging = true) :=
  ⟨{ demo with mode := .midnight, vbus := demo.vbus.put 0 { discharging := true } }, 0, by
    exact ⟨rfl, by simp⟩⟩

theorem witness_DomainRows_4 : ∃ (s : State) (p : Port) (t : Trans), (s.mode ≠ .off) ∧ (s.trans = some t) ∧ (t.req.goal = .midnight) ∧ (t.begun = 1) ∧ (hasExplicit (s.pd.get p) = true) ∧ (s.contractReleased p = false) ∧ ((s.pd.get p).hr = none) :=
  ⟨{ demo with mode := .dusk, pd := demo.pd.put 0 { contract := .explicit { position := 2, rdo := 0, mv := 9000, ma := 1000, pps := false } }, trans := some { req := { goal := .midnight }, auto := false, rollback := false, origin := .noon, cause := 0, detail := 0, begun := 1 } }, 0, _, by
    refine ⟨by decide, rfl, rfl, rfl, ?_, ?_, ?_⟩
    · simp [hasExplicit]
    · simp [State.contractReleased]
    · simp⟩

theorem witness_SensorsAndSupplies_0 : ∃ (s : State) (t : Tab 16 (BitVec 16)), (s.mgtUp = true) :=
  ⟨demo, Tab.const 16 0, by
    rfl⟩

theorem witness_SensorsAndSupplies_1 : ∃ (s : State) (i : Fin 16), (s.mgtUp = true) ∧ (16 * (s.modeCfg.tjEvening : Int) ≤ (s.sensors.get i).reading.toInt) :=
  ⟨{ demo with sensors := demo.sensors.put 15 { reading := 0x0700 } }, 15, by
    refine ⟨rfl, ?_⟩
    simp [demo, State.reset]⟩

theorem witness_SensorsAndSupplies_2 : ∃ (s : State) (i : Fin 16), (s.mgtUp = true) ∧ ((s.sensors.get i).crit = true) :=
  ⟨{ demo with sensors := demo.sensors.put 0 { reading := 0x0740, crit := true } }, 0, by
    exact ⟨rfl, by simp⟩⟩

theorem witness_SensorsAndSupplies_3 : ∃ (s : State) (r : Fin 8) (mv : Nat), (s.mode ≠ .off) :=
  ⟨demo, 0, 3000, by
    decide⟩

theorem witness_SensorsAndSupplies_4 : ∃ (s : State) (r : Fin 8) (mv : Nat), (s.mode ≠ .off) :=
  ⟨demo, 7, 900, by
    decide⟩

theorem witness_SensorsAndSupplies_5 : ∃ (s : State), (s.mode ≠ .off) :=
  ⟨demo, by
    decide⟩

theorem witness_ClocksAndCoreSupply_0 : ∃ (s : State), (s.aonUp = true) :=
  ⟨demo, by
    rfl⟩

theorem witness_ClocksAndCoreSupply_1 : ∃ (s : State), (s.mgtUp = true) :=
  ⟨demo, by
    rfl⟩

theorem witness_ClocksAndCoreSupply_2 : ∃ (s : State), (s.mode ≠ .off) ∧ (s.clocks.refUsed = true) :=
  ⟨{ demo with clocks := { demo.clocks with refUsed := true } }, by
    exact ⟨by decide, rfl⟩⟩

theorem witness_ClocksAndCoreSupply_3 : ∃ (s : State), (s.mgtUp = true) ∧ (s.fw.paused = false) ∧ (s.avs.outstanding = none) ∧ (s.avs.holdoff = false) ∧ (s.avs.confirmed < s.coreNeed s.mode) :=
  ⟨{ demo with avs := { demo.avs with confirmed := 0 } }, by
    refine ⟨rfl, rfl, rfl, rfl, ?_⟩
    exact Nat.lt_of_lt_of_le (by decide) (Nat.le_add_right 700 _)⟩

theorem witness_ClocksAndCoreSupply_4 : ∃ (s : State), (s.mgtUp = true) ∧ (s.fw.paused = false) ∧ (s.avs.outstanding = none) ∧ (s.avs.holdoff = false) ∧ (s.coreNeed s.mode < s.avs.confirmed) :=
  ⟨{ demo with avs := { demo.avs with confirmed := 2000 } }, by
    refine ⟨rfl, rfl, rfl, rfl, ?_⟩
    exact Nat.lt_of_le_of_lt (Nat.add_le_add_left (Nat.le_of_lt_succ (Fin.isLt _)) 700) (by decide)⟩

theorem witness_ClocksAndCoreSupply_5 : ∃ (s : State) (v : Nat) (voltage current temp status : BitVec 16), (s.mode ≠ .off) ∧ (s.avs.outstanding = some v) ∧ (s.armed 0x005 0x34 = none) :=
  ⟨{ demo with avs := { demo.avs with outstanding := some 800 } }, 800, 0, 0, 0, 0, by
    exact ⟨by decide, rfl, rfl⟩⟩

theorem witness_ClocksAndCoreSupply_6 : ∃ (s : State) (v : Nat), (s.mode ≠ .off) ∧ (s.avs.outstanding = some v) ∧ (s.arrival = none) :=
  ⟨{ demo with avs := { demo.avs with outstanding := some 800 } }, 800, by
    exact ⟨by decide, rfl, rfl⟩⟩

theorem witness_ClocksAndCoreSupply_7 : ∃ (s : State) (v : Nat) (a : Arrival), (s.mode ≠ .off) ∧ (s.avs.outstanding = some v) ∧ (s.arrival = some a) :=
  ⟨{ demo with avs := { demo.avs with outstanding := some 800 }, arrival := some { req := none, cause := 1, detail := 0 } }, 800, _, by
    exact ⟨by decide, rfl, rfl⟩⟩

theorem witness_ClocksAndCoreSupply_8 : ∃ (s : State), (s.mode ≠ .off) :=
  ⟨demo, by
    decide⟩

theorem witness_DieLinks_0 : ∃ (s : State) (d : Fin 2), (s.switchedUp) ∧ (s.portLinks.get d = .active) :=
  ⟨demo, 0, by
    exact ⟨⟨by decide, by decide, rfl⟩, by simp [demo, State.reset]⟩⟩

theorem witness_DieLinks_1 : ∃ (s : State) (d : Fin 2), (s.switchedUp) ∧ (s.portLinks.get d ≠ .active) ∧ (s.linkHeldDown d = false) :=
  ⟨{ demo with portLinks := demo.portLinks.put 0 .retraining }, 0, by
    refine ⟨⟨by decide, by decide, rfl⟩, by simp, rfl⟩⟩

theorem witness_DieLinks_2 : ∃ (s : State) (d : Fin 2), (s.switchedUp) ∧ (s.portLinks.get d = .retraining) :=
  ⟨{ demo with portLinks := demo.portLinks.put 1 .retraining }, 1, by
    refine ⟨⟨by decide, by decide, rfl⟩, by simp⟩⟩

theorem witness_DieLinks_3 : ∃ (s : State) (d : Fin 2), (s.mode ≠ .off) ∧ ((s.powerLinks.get d).up = true) :=
  ⟨demo, 1, by
    refine ⟨by decide, by simp [demo, State.reset]⟩⟩

theorem witness_DieLinks_4 : ∃ (s : State) (d : Fin 2), (s.mode ≠ .off) ∧ ((s.powerLinks.get d).up = false) :=
  ⟨{ demo with powerLinks := demo.powerLinks.put 0 { up := false } }, 0, by
    refine ⟨by decide, by simp⟩⟩

theorem witness_DieLinks_5 : ∃ (s : State) (d : Fin 2), (s.mode ≠ .off) ∧ ((s.powerLinks.get d).up = false) ∧ ((s.powerLinks.get d).silent = false) ∧ (s.powerLinkHeldDown d = false) :=
  ⟨{ demo with powerLinks := demo.powerLinks.put 0 { up := false } }, 0, by
    refine ⟨by decide, by simp, by simp, rfl⟩⟩

theorem witness_AlarmPairs_0 : ∃ (s : State) (i : Fin 6), (s.mode ≠ .off) ∧ ((s.alarms.get i).asserted = false) :=
  ⟨demo, 5, by
    refine ⟨by decide, by simp [demo, State.reset]⟩⟩

theorem witness_AlarmPairs_1 : ∃ (s : State) (i : Fin 6), (s.mode ≠ .off) :=
  ⟨demo, 0, by
    decide⟩

theorem witness_AlarmPairs_2 : ∃ (s : State) (i : Fin 6) (level : Bool), (s.mode ≠ .off) ∧ ((s.alarms.get i).asserted = false) ∧ ((s.alarms.get i).lineFault = false) :=
  ⟨demo, 0, true, by
    refine ⟨by decide, by simp [demo, State.reset], by simp [demo, State.reset]⟩⟩

theorem witness_FaultCollectorRows_0 : ∃ (s : State) (source : BitVec 12) (kind : Byte) (info : BitVec 32) (place : Option (Port × Byte)), (s.mode ≠ .off) ∧ ((faultRow source.toNat kind.toNat).isSome = true) ∧ (source.toNat < 0x130 ∧ source.toNat ≠ 0x007 ∨ 0x160 ≤ source.toNat ∧ source.toNat < 0x800) :=
  ⟨demo, 0x006, 0x35, 0, none, by
    refine ⟨by decide, by decide, by decide⟩⟩

theorem witness_FaultCollectorRows_1 : ∃ (s : State) (source : BitVec 12) (kind : Byte) (info : BitVec 32) (injected : Bool) (place : Option (Port × Byte)), (faultRow source.toNat kind.toNat = none) :=
  ⟨demo, 0xFFF, 0, 0, false, none, by
    decide⟩

theorem witness_FaultCollectorRows_2 : ∃ (s : State), (s.mode ≠ .off) ∧ (s.fault.pulsing = true) :=
  ⟨{ demo with fault := { demo.fault with pulsing := true } }, by
    refine ⟨by decide, by decide⟩⟩

theorem witness_FaultCollectorRows_3 : ∃ (s : State), (s.mode ≠ .off) ∧ (s.fault.pulsing = false) ∧ (s.fault.gap = true) ∧ (0 < s.fault.waiting) ∧ (s.fault.pinHold = false) :=
  ⟨{ demo with fault := { demo.fault with gap := true, waiting := 1 } }, by
    refine ⟨by decide, by decide, by decide, by decide, by decide⟩⟩

theorem witness_FaultCollectorRows_4 : ∃ (s : State), (s.mode ≠ .off) ∧ (s.fault.safeHoldRestart = true) ∧ (s.inActivationPause = false) :=
  ⟨{ demo with fault := { demo.fault with safeHoldRestart := true } }, by
    refine ⟨by decide, rfl, rfl⟩⟩

theorem witness_FaultCollectorRows_5 : ∃ (s : State) (r : Reaction) (aged : Nat) (intact : Bool), (s.mode ≠ .off) ∧ (r ∈ s.fault.running) ∧ (r ≠ .mgtRestart) :=
  ⟨{ demo with fault := { demo.fault with running := [.partitionHold 3] } }, .partitionHold 3, 0, true, by
    refine ⟨by decide, by decide, by decide⟩⟩

theorem witness_FaultCollectorRows_6 : ∃ (s : State) (r : Reaction), (s.mode ≠ .off) :=
  ⟨demo, .mgtRestart, by
    decide⟩

theorem witness_FaultCollectorRows_8 : ∃ (s : State), (s.fault.watchdogOn = true) ∧ (s.mgtUp = true) ∧ (s.fault.mgtRestarting = false) ∧ (s.fault.safeHoldRestart = false) :=
  ⟨{ demo with fault := { demo.fault with watchdogOn := true } }, by
    refine ⟨rfl, rfl, rfl, rfl⟩⟩

theorem witness_InjectionEnds_0 : ∃ (s : State) (i : Injection), (s.mode ≠ .off) ∧ (s.fault.injections.find? (fun x => x.source == i.source && x.kind == i.kind && x.timed) = some i) ∧ (0x020 ≤ i.source.toNat) :=
  ⟨{ demo with fault := { demo.fault with injections := [{ source := 0x030, kind := 0x10, parameter := 0, timed := true }] } }, { source := 0x030, kind := 0x10, parameter := 0, timed := true }, by
    refine ⟨by decide, by decide, by decide⟩⟩

theorem witness_InjectionEnds_1 : ∃ (s : State) (i : Injection), (s.mode ≠ .off) ∧ (s.fault.injections.find? (fun x => x.source == i.source && x.kind == i.kind && x.timed) = some i) ∧ (0x010 ≤ i.source.toNat ∧ i.source.toNat < 0x020) :=
  ⟨{ demo with fault := { demo.fault with injections := [{ source := 0x010, kind := 0x30, parameter := 0, timed := true }] } }, { source := 0x010, kind := 0x30, parameter := 0, timed := true }, by
    refine ⟨by decide, by decide, by decide⟩⟩

theorem witness_InjectionEnds_2 : ∃ (s : State) (source : BitVec 12) (kind : Byte), (s.mode ≠ .off) :=
  ⟨demo, 0, 0, by
    decide⟩

theorem witness_UpstreamAttach_0 : ∃ (s : State) (k : Part) (orientation : Bool) (rp : Fin 4) (vbus : Bool), (s.aonUp = true) ∧ (s.daytime) ∧ ((s.ups.get k).rd = true) ∧ ((s.ups.get k).attached = false) ∧ (rp ≠ 0) ∧ ((s.ups.get k).vbusInput = false ∨ vbus = true) ∧ ((s.parts.get k).armed = false) :=
  ⟨{ demo with ups := demo.ups.put 15 { rd := true } }, 15, true, 3, false, by
    refine ⟨rfl, ⟨by decide, by decide, by decide⟩, by simp, by simp [demo, State.reset], by decide, .inl (by simp [demo, State.reset]), by simp [demo, State.reset]⟩⟩

theorem witness_UpstreamAttach_1 : ∃ (s : State) (k : Part), (s.aonUp = true) ∧ ((s.ups.get k).attached = true) :=
  ⟨{ demo with ups := demo.ups.put 0 { attached := true } }, 0, by
    refine ⟨rfl, by simp⟩⟩

theorem witness_UpstreamAttach_2 : ∃ (s : State) (k : Part), (s.aonUp = true) ∧ ((s.ups.get k).vbusInput = true) ∧ ((s.ups.get k).attached = true) ∧ ((s.ups.get k).hardReset = true) :=
  ⟨{ demo with ups := demo.ups.put 0 { attached := true, vbusInput := true, hardReset := true } }, 0, by
    refine ⟨rfl, by simp, by simp, by simp⟩⟩

theorem witness_UpstreamAttach_3 : ∃ (s : State) (k : Part) (late : Bool), (s.aonUp = true) ∧ ((s.ups.get k).vbusInput = true) ∧ ((s.ups.get k).attached = true) ∧ ((s.ups.get k).hardReset = false ∨ late = true) :=
  ⟨{ demo with ups := demo.ups.put 0 { attached := true, vbusInput := true } }, 0, true, by
    refine ⟨rfl, by simp, by simp, .inr rfl⟩⟩

theorem witness_UpstreamAttach_4 : ∃ (s : State) (k : Part), (s.switchedUp) ∧ ((s.ups.get k).attached = true) :=
  ⟨{ demo with ups := demo.ups.put 0 { attached := true } }, 0, by
    refine ⟨⟨by decide, by decide, rfl⟩, by simp⟩⟩

theorem witness_UpstreamAttach_5 : ∃ (s : State) (k : Part) (b : List Byte) (t : Nat) (objs : List Nat), (s.switchedUp) ∧ ((s.ups.get k).attached = true) ∧ (refusesSop (s.queues.get k) 32 = false) ∧ (isControl b 13 = false) ∧ ((s.ups.get k).pdRx ≠ some (pdId b)) ∧ (s.sinkAnswer b = some (t, objs)) :=
  ⟨{ demo with ups := demo.ups.put 0 { attached := true } }, 0, le16 (8 + 2 * 64), 4, [sinkPdo], by
    refine ⟨⟨by decide, by decide, rfl⟩, by simp, by simp [refusesSop, demo, State.reset], by decide, by simp, by decide⟩⟩

theorem witness_UpstreamAttach_6 : ∃ (s : State) (k : Part) (b : List Byte), (s.switchedUp) ∧ ((s.ups.get k).attached = true) ∧ (refusesSop (s.queues.get k) 32 = false) ∧ (isControl b 1 = false) ∧ (isControl b 13 = false) ∧ ((s.ups.get k).pdRx ≠ some (pdId b)) :=
  ⟨{ demo with ups := demo.ups.put 0 { attached := true } }, 0, le16 (8 + 2 * 64), by
    refine ⟨⟨by decide, by decide, rfl⟩, by simp, by simp [refusesSop, demo, State.reset], by decide, by decide, by simp⟩⟩

theorem witness_UpstreamSuperSpeedLink_0 : ∃ (s : State) (k : Part) (rate : SsRate), (s.switchedUp) ∧ ((s.ups.get k).ssSide ≠ .notPresented) ∧ (beforeU0 (s.ups.get k).link = false) ∧ ((s.ups.get k).link ≠ .u3) ∧ (rate ≠ .none) :=
  ⟨{ demo with ups := demo.ups.put 0 { ssSide := .active, link := .u1 } }, 0, .gen1x1, by
    refine ⟨⟨by decide, by decide, rfl⟩, by simp, by simp [beforeU0], by simp, by decide⟩⟩

theorem witness_UpstreamSuperSpeedLink_1 : ∃ (s : State) (k : Part) (rate : SsRate), (s.switchedUp) ∧ ((s.ups.get k).ssSide ≠ .notPresented) ∧ (beforeU0 (s.ups.get k).link = true) ∧ (rate ≠ .none) ∧ (s.capped = false ∨ twoLanes rate = false) :=
  ⟨{ demo with ups := demo.ups.put 0 { ssSide := .deciding, link := .polling } }, 0, .gen2x2, by
    refine ⟨⟨by decide, by decide, rfl⟩, by simp, by simp [beforeU0], by decide, .inl rfl⟩⟩

theorem witness_UpstreamSuperSpeedLink_2 : ∃ (s : State) (k : Part) (rate : SsRate), (s.switchedUp) ∧ ((s.ups.get k).ssSide ≠ .notPresented) ∧ ((s.ups.get k).link = .u3) ∧ (rate ≠ .none) :=
  ⟨{ demo with ups := demo.ups.put 0 { ssSide := .active, link := .u3 } }, 0, .gen2x1, by
    refine ⟨⟨by decide, by decide, rfl⟩, by simp, by simp, by decide⟩⟩

theorem witness_UpstreamSuperSpeedLink_3 : ∃ (s : State) (k : Part) (rate : SsRate), (s.switchedUp) ∧ ((s.ups.get k).ssSide = .notPresented ∨ rate = .none ∨ (s.capped = true ∧ beforeU0 (s.ups.get k).link = true ∧ twoLanes rate = true)) :=
  ⟨demo, 0, .gen2x1, by
    refine ⟨⟨by decide, by decide, rfl⟩, .inl (by simp [demo, State.reset])⟩⟩

theorem witness_UpstreamSuperSpeedLink_4 : ∃ (s : State) (k : Part), (s.switchedUp) ∧ ((s.ups.get k).ssSide = .deciding) :=
  ⟨{ demo with ups := demo.ups.put 0 { ssSide := .deciding } }, 0, by
    refine ⟨⟨by decide, by decide, rfl⟩, by simp⟩⟩

theorem witness_UpstreamSuperSpeedLink_5 : ∃ (s : State) (k : Part) (link : UpLink), (s.switchedUp) :=
  ⟨demo, 0, .polling, by
    exact ⟨by decide, by decide, rfl⟩⟩

theorem witness_UpstreamSuperSpeedLink_6 : ∃ (s : State) (k : Part) (link : UpLink), (s.switchedUp) ∧ ((s.ups.get k).ssSide = .active) ∧ (link = .ssInactive ∨ link = .rxDetect ∨ link = .polling) :=
  ⟨{ demo with ups := demo.ups.put 0 { ssSide := .active } }, 0, .rxDetect, by
    refine ⟨⟨by decide, by decide, rfl⟩, by simp, by simp⟩⟩

theorem witness_UpstreamSuperSpeedLink_7 : ∃ (s : State) (k : Part), (s.switchedUp) ∧ ((s.ups.get k).ssSide = .active) :=
  ⟨{ demo with ups := demo.ups.put 0 { ssSide := .active } }, 0, by
    refine ⟨⟨by decide, by decide, rfl⟩, by simp⟩⟩

theorem witness_UpstreamSuperSpeedLink_8 : ∃ (s : State) (k : Part), (s.switchedUp) ∧ ((s.ups.get k).ssSide = .deciding ∨ (s.ups.get k).ssSide = .inactive) :=
  ⟨{ demo with ups := demo.ups.put 0 { ssSide := .inactive } }, 0, by
    refine ⟨⟨by decide, by decide, rfl⟩, by simp⟩⟩

theorem witness_UpstreamLinkPower_0 : ∃ (s : State) (k : Part) (u2 unacked : Bool), (s.switchedUp) ∧ ((s.ups.get k).link ≠ .u0) :=
  ⟨demo, 0, true, false, by
    refine ⟨⟨by decide, by decide, rfl⟩, by simp [demo, State.reset]⟩⟩

theorem witness_UpstreamLinkPower_1 : ∃ (s : State) (k : Part) (unacked : Bool), (s.switchedUp) ∧ ((s.ups.get k).link = .u0) ∧ (s.notIdle k unacked = false) :=
  ⟨{ demo with ups := demo.ups.put 0 { link := .u0 } }, 0, false, by
    refine ⟨⟨by decide, by decide, rfl⟩, by simp, by simp [State.notIdle, State.mfReady, State.mfWakeDue, State.liftReady, demo, State.reset]⟩⟩

theorem witness_UpstreamLinkPower_2 : ∃ (s : State) (k : Part) (unacked : Bool), (s.switchedUp) ∧ ((s.ups.get k).link = .u0) ∧ (s.notIdle k unacked = false) :=
  ⟨{ demo with ups := demo.ups.put 0 { link := .u0 } }, 0, false, by
    refine ⟨⟨by decide, by decide, rfl⟩, by simp, by simp [State.notIdle, State.mfReady, State.mfWakeDue, State.liftReady, demo, State.reset]⟩⟩

theorem witness_UpstreamLinkPower_3 : ∃ (s : State) (k : Part) (u2 unacked : Bool), (s.switchedUp) ∧ ((s.ups.get k).link = .u0) ∧ (s.notIdle k unacked = true) :=
  ⟨{ demo with ups := demo.ups.put 0 { link := .u0 } }, 0, true, true, by
    refine ⟨⟨by decide, by decide, rfl⟩, by simp, by simp [State.notIdle]⟩⟩

theorem witness_UpstreamLinkPower_4 : ∃ (s : State) (k : Part) (unacked : Bool), (s.switchedUp) ∧ ((s.ups.get k).link = .u0) ∧ (((s.ssTree.get k).hubs.get 0).u1Enable = true) ∧ (s.linksLow k = true) ∧ (s.notIdle k unacked = false) ∧ (2 ≤ (s.parts.get k).latBudget) :=
  ⟨{ demo with ups := demo.ups.put 0 { link := .u0 }, ssTree := demo.ssTree.put 0 { hubs := Tab.const 9 { u1Enable := true } }, parts := demo.parts.put 0 { latBudget := 20 } }, 0, false, by
    refine ⟨⟨by decide, by decide, rfl⟩, by simp, by simp, ?_, by simp [State.notIdle, State.mfReady, State.mfWakeDue, State.liftReady, demo, State.reset], by simp⟩
    · simp [State.linksLow]⟩

theorem witness_UpstreamLinkPower_5 : ∃ (s : State) (k : Part) (unacked : Bool), (s.switchedUp) ∧ ((s.ups.get k).link = .u0) ∧ (((s.ssTree.get k).hubs.get 0).u2Enable = true) ∧ (s.linksLow k = true) ∧ (s.notIdle k unacked = false) ∧ (64 ≤ (s.parts.get k).latBudget) :=
  ⟨{ demo with ups := demo.ups.put 0 { link := .u0 }, ssTree := demo.ssTree.put 0 { hubs := Tab.const 9 { u2Enable := true } }, parts := demo.parts.put 0 { latBudget := 64 } }, 0, false, by
    refine ⟨⟨by decide, by decide, rfl⟩, by simp, by simp, ?_, by simp [State.notIdle, State.mfReady, State.mfWakeDue, State.liftReady, demo, State.reset], by simp⟩
    · simp [State.linksLow]⟩

theorem witness_UpstreamLinkPower_6 : ∃ (s : State) (k : Part) (u2 unacked : Bool), (s.switchedUp) ∧ ((if u2 then ((s.ssTree.get k).hubs.get 0).u2Enable else ((s.ssTree.get k).hubs.get 0).u1Enable) = false ∨ s.linksLow k = false ∨ s.notIdle k unacked = true ∨
    (s.parts.get k).latBudget < (if u2 then 64 else 2)) :=
  ⟨demo, 0, true, true, by
    refine ⟨⟨by decide, by decide, rfl⟩, .inr (.inr (.inl (by simp [State.notIdle])))⟩⟩

theorem witness_UpstreamSuspendAndReset_0 : ∃ (s : State) (k : Part), (s.switchedUp) ∧ ((s.ups.get k).ssSide = .active) ∧ ((s.ups.get k).link = .u0 ∨ (s.ups.get k).link = .u1 ∨ (s.ups.get k).link = .u2) :=
  ⟨{ demo with ups := demo.ups.put 0 { ssSide := .active, link := .u0 } }, 0, by
    refine ⟨⟨by decide, by decide, rfl⟩, by simp, by simp⟩⟩

theorem witness_UpstreamSuspendAndReset_1 : ∃ (s : State) (k : Part), (s.switchedUp) ∧ (s.daytime) ∧ ((s.ups.get k).link = .u3) :=
  ⟨{ demo with ups := demo.ups.put 0 { link := .u3 } }, 0, by
    refine ⟨⟨by decide, by decide, rfl⟩, ⟨by decide, by decide, by decide⟩, by simp⟩⟩

theorem witness_UpstreamSuspendAndReset_2 : ∃ (s : State) (k : Part), (s.switchedUp) ∧ (s.daytime) ∧ ((s.ups.get k).ssSide ≠ .notPresented) ∧ ((s.mfs.get k).side = some .superSpeed) :=
  ⟨{ demo with ups := demo.ups.put 0 { ssSide := .active }, mfs := demo.mfs.put 0 { side := some .superSpeed } }, 0, by
    refine ⟨⟨by decide, by decide, rfl⟩, ⟨by decide, by decide, by decide⟩, by simp, by simp⟩⟩

theorem witness_UpstreamSuspendAndReset_3 : ∃ (s : State) (k : Part), (s.switchedUp) ∧ (s.daytime) ∧ ((s.ups.get k).ssSide ≠ .notPresented) ∧ ((s.mfs.get k).side = some .superSpeed) :=
  ⟨{ demo with ups := demo.ups.put 0 { ssSide := .active }, mfs := demo.mfs.put 0 { side := some .superSpeed } }, 0, by
    refine ⟨⟨by decide, by decide, rfl⟩, ⟨by decide, by decide, by decide⟩, by simp, by simp⟩⟩

theorem witness_UpstreamSuspendAndReset_4 : ∃ (s : State) (k : Part) (high : Bool), (s.switchedUp) ∧ (s.daytime) ∧ ((s.ups.get k).usb2 ≠ .notPresented) :=
  ⟨{ demo with ups := demo.ups.put 0 { usb2 := .active } }, 0, true, by
    refine ⟨⟨by decide, by decide, rfl⟩, ⟨by decide, by decide, by decide⟩, by simp⟩⟩

theorem witness_UpstreamSuspendAndReset_5 : ∃ (s : State) (k : Part) (hird : BitVec 4), (s.switchedUp) ∧ ((s.ups.get k).usb2 = .active ∨ (s.ups.get k).usb2 = .fullSpeed) ∧ (s.usb2Quiet k = true) :=
  ⟨{ demo with ups := demo.ups.put 0 { usb2 := .active }, u2Tree := demo.u2Tree.put 0 { leaf := Tab.const 112 { suspended := true }, top := Tab.const 9 { suspended := true } } }, 0, 5, by
    refine ⟨⟨by decide, by decide, rfl⟩, by simp, ?_⟩
    simp [State.usb2Quiet, State.mfReady, demo, State.reset]⟩

theorem witness_UpstreamSuspendAndReset_6 : ∃ (s : State) (k : Part) (hird : BitVec 4), (s.switchedUp) ∧ ((s.ups.get k).usb2 = .active ∨ (s.ups.get k).usb2 = .fullSpeed) ∧ (s.usb2Quiet k = false) :=
  ⟨{ demo with ups := demo.ups.put 0 { usb2 := .active }, u2Tree := demo.u2Tree.put 0 { top := Tab.const 9 { connected := true, enabled := true } } }, 0, 5, by
    refine ⟨⟨by decide, by decide, rfl⟩, by simp, ?_⟩
    simp [State.usb2Quiet, State.mfReady, demo, State.reset]⟩

theorem witness_UpstreamSuspendAndReset_7 : ∃ (s : State) (k : Part), (s.switchedUp) ∧ ((s.ups.get k).usb2 = .active ∨ (s.ups.get k).usb2 = .fullSpeed ∨ (s.ups.get k).usb2 = .l1) :=
  ⟨{ demo with ups := demo.ups.put 0 { usb2 := .l1 } }, 0, by
    refine ⟨⟨by decide, by decide, rfl⟩, by simp⟩⟩

theorem witness_UpstreamSuspendAndReset_8 : ∃ (s : State) (k : Part), (s.switchedUp) ∧ (s.daytime) ∧ ((s.ups.get k).usb2 = .suspended ∨ (s.ups.get k).usb2 = .l1) :=
  ⟨{ demo with ups := demo.ups.put 0 { usb2 := .suspended } }, 0, by
    refine ⟨⟨by decide, by decide, rfl⟩, ⟨by decide, by decide, by decide⟩, by simp⟩⟩

theorem witness_UpstreamSuspendAndReset_9 : ∃ (s : State) (k : Part), (s.switchedUp) ∧ (s.daytime) ∧ ((s.ups.get k).usb2 = .suspended ∨ (s.ups.get k).usb2 = .l1) :=
  ⟨{ demo with ups := demo.ups.put 0 { usb2 := .suspended }, u2Tree := demo.u2Tree.put 0 { hubs := Tab.const 9 { remoteWake := true } } }, 0, by
    refine ⟨⟨by decide, by decide, rfl⟩, ⟨by decide, by decide, by decide⟩, by simp⟩⟩

theorem witness_UpstreamSuspendAndReset_10 : ∃ (s : State) (k : Part) (q : HubPort) (u2 : Bool), (s.switchedUp) ∧ ((s.hubPort k .superSpeed q).link = .u0) ∧ ((if u2 then (s.hubPort k .superSpeed q).u2Timeout else (s.hubPort k .superSpeed q).u1Timeout) ≠ 0) ∧ ((if u2 then (s.hubPort k .superSpeed q).u2Timeout else (s.hubPort k .superSpeed q).u1Timeout) ≠ 0xFF) ∧ (s.nativeAt k q = none) :=
  ⟨{ demo with ssTree := demo.ssTree.put 0 { top := Tab.const 9 { link := .u0, u2Timeout := 5 } } }, 0, .top 8, true, by
    refine ⟨⟨by decide, by decide, rfl⟩, ?_, ?_, ?_, rfl⟩ <;> simp [State.hubPort, State.treeOf]⟩

theorem witness_UpstreamSuspendAndReset_11 : ∃ (s : State) (k : Part) (interval : BitVec 14) (delta : BitVec 13), (s.switchedUp) ∧ ((s.ups.get k).link = .u0) :=
  ⟨{ demo with ups := demo.ups.put 0 { link := .u0 } }, 0, 0, 0, by
    refine ⟨⟨by decide, by decide, rfl⟩, by simp⟩⟩

theorem witness_ManagementFunctionRows_0 : ∃ (s : State) (k : Part) (side : Side) (r : Setup) (data : List Byte), (s.switchedUp) ∧ ((s.mfs.get k).side = some side) ∧ (r.bmRequestType = 0 ∧ r.bRequest = 9) ∧ (r.wValue.toNat ≤ 1) :=
  ⟨{ demo with mfs := demo.mfs.put 0 { side := some .usb2 } }, 0, .usb2, { bmRequestType := 0, bRequest := 9, wValue := 1, wIndex := 0, wLength := 0 }, [], by
    refine ⟨⟨by decide, by decide, rfl⟩, by simp, by decide, by decide⟩⟩

theorem witness_ManagementFunctionRows_1 : ∃ (s : State) (k : Part) (side : Side) (r : Setup) (data : List Byte), (s.switchedUp) ∧ ((s.mfs.get k).side = some side) ∧ (r.bmRequestType = 0 ∧ r.bRequest = 5) :=
  ⟨{ demo with mfs := demo.mfs.put 0 { side := some .usb2 } }, 0, .usb2, { bmRequestType := 0, bRequest := 5, wValue := 127, wIndex := 0, wLength := 0 }, [], by
    refine ⟨⟨by decide, by decide, rfl⟩, by simp, by decide⟩⟩

theorem witness_ManagementFunctionRows_2 : ∃ (s : State) (k : Part) (b : List Byte), (s.switchedUp) ∧ (s.mfOpen k = true) ∧ (0x01 ∉ (s.mfs.get k).halted) ∧ (min 1040 b.length ≤ s.mfRoom k) :=
  ⟨{ demo with ups := demo.ups.put 0 { usb2 := .active }, mfs := demo.mfs.put 0 { side := some .usb2, config := 1 } }, 0, le16 0x0101, by
    refine ⟨⟨by decide, by decide, rfl⟩, ?_, by simp, ?_⟩
    · simp [State.mfOpen]
    · decide⟩

theorem witness_ManagementFunctionRows_3 : ∃ (s : State) (k : Part) (b : List Byte), (s.switchedUp) ∧ (s.mfOpen k = true) ∧ (0x01 ∉ (s.mfs.get k).halted) ∧ (s.mfRoom k < min 1040 b.length) :=
  ⟨{ demo with sessions := demo.sessions.put 0 { store := List.replicate 256 { opcode := 0x0101, msg := { session := 0, cseq := 1, flags := 0, status := 0, target := 0xFFFF, payload := [] }, bad := none, arrival := 0 } }, ups := demo.ups.put 0 { usb2 := .active }, mfs := demo.mfs.put 0 { side := some .usb2, config := 1 } }, 0, le16 0x0101, by
    refine ⟨⟨by decide, by decide, rfl⟩, ?_, by simp, ?_⟩
    · simp [State.mfOpen]
    · have e : ∀ n c, ((List.replicate n c).map cmdSize).sum = n * cmdSize c := by intros; simp
      simp only [State.mfRoom, show mfSession 0 = 0 from rfl, Tab.get_put_same, e]
      decide⟩

theorem witness_ManagementFunctionRows_4 : ∃ (s : State) (k : Part) (b : List Byte), (s.switchedUp) ∧ ((s.mfs.get k).side ≠ none) ∧ (16 ≤ b.length ∧ b.length ≤ 1040) ∧ (b.length ≤ s.mfRoom k) :=
  ⟨{ demo with mfs := demo.mfs.put 0 { side := some .usb2 } }, 0, le32 0 ++ le32 0 ++ le32 0 ++ le32 0, by
    refine ⟨⟨by decide, by decide, rfl⟩, by simp, by decide, ?_⟩
    decide⟩

theorem witness_ManagementFunctionRows_5 : ∃ (s : State) (k : Part) (b : List Byte), (s.switchedUp) ∧ ((s.mfs.get k).side ≠ none) ∧ (b.length < 16 ∨ 1040 < b.length ∨ s.mfRoom k < b.length) :=
  ⟨{ demo with mfs := demo.mfs.put 0 { side := some .usb2 } }, 0, List.replicate 15 0, by
    refine ⟨⟨by decide, by decide, rfl⟩, by simp, by decide⟩⟩

theorem witness_ManagementFunctionRows_6 : ∃ (s : State) (k : Part) (len : BitVec 16) (t : StoredCmd) (r : Rsp), (s.switchedUp) ∧ ((s.mfs.get k).side ≠ none) ∧ ((s.sessions.get (mfSession k)).stored = some t) ∧ (t.response = some r) ∧ (16 ≤ len.toNat ∧ len.toNat ≤ 1040) :=
  ⟨{ demo with mfs := demo.mfs.put 0 { side := some .usb2 }, sessions := demo.sessions.put 0 { stored := some { opcode := 1, length := 0, response := some { opcode := 1, status := 0, cseq := 1, target := 0, more := false, payload := [] } } } }, 0, 16, { opcode := 1, length := 0, response := some { opcode := 1, status := 0, cseq := 1, target := 0, more := false, payload := [] } }, _, by
    refine ⟨⟨by decide, by decide, rfl⟩, by simp, by simp [mfSession], rfl, by decide⟩⟩

theorem witness_ManagementFunctionRows_7 : ∃ (s : State) (k : Part) (len : BitVec 16), (s.switchedUp) ∧ ((s.mfs.get k).side ≠ none) ∧ ((s.sessions.get (mfSession k)).stored = none) :=
  ⟨{ demo with mfs := demo.mfs.put 0 { side := some .usb2 } }, 0, 0, by
    refine ⟨⟨by decide, by decide, rfl⟩, by simp, ?_⟩
    show (demo.sessions.get 0).stored = none
    rfl⟩

theorem witness_ManagementFunctionRows_8 : ∃ (s : State) (k : Part) (r : Setup), (s.switchedUp) ∧ ((s.mfs.get k).side ≠ none) :=
  ⟨{ demo with mfs := demo.mfs.put 0 { side := some .usb2 } }, 0, { bmRequestType := 0xC0, bRequest := 9, wValue := 1, wIndex := 0, wLength := 0 }, by
    refine ⟨⟨by decide, by decide, rfl⟩, by simp⟩⟩

theorem witness_ManagementFunctionRows_9 : ∃ (s : State) (k : Part) (r : Rsp) (rest : List Rsp), (s.switchedUp) ∧ (s.mfOpen k = true) ∧ (0x81 ∉ (s.mfs.get k).halted) ∧ ((s.sessions.get (mfSession k)).out = r :: rest) :=
  ⟨{ demo with ups := demo.ups.put 0 { usb2 := .active }, mfs := demo.mfs.put 0 { side := some .usb2, config := 1 }, sessions := demo.sessions.put 0 { out := [{ opcode := 1, status := 0, cseq := 1, target := 0, more := false, payload := [] }] } }, 0, _, _, by
    refine ⟨⟨by decide, by decide, rfl⟩, ?_, by simp, by simp [mfSession]; exact ⟨rfl, rfl⟩⟩
    simp [State.mfOpen]⟩

theorem witness_ManagementFunctionRows_10 : ∃ (s : State) (k : Part) (e : EventRec), (s.switchedUp) ∧ (s.mfOpen k = true) ∧ (0x82 ∉ (s.mfs.get k).halted) ∧ ((s.mfs.get k).funcSuspend = false) ∧ (s.fw.paused = false) ∧ (nextToSend (s.sessions.get (mfSession k)) = some e) :=
  ⟨{ demo with ups := demo.ups.put 0 { usb2 := .active }, mfs := demo.mfs.put 0 { side := some .usb2, config := 1 }, sessions := demo.sessions.put 0 { ring := [{ eseq := 0, code := 1, target := 0, payload := [], sent := false, again := false }] } }, 0, _, by
    refine ⟨⟨by decide, by decide, rfl⟩, ?_, by simp, by simp, rfl, by simp [mfSession, nextToSend]; rfl⟩
    simp [State.mfOpen]⟩

theorem witness_CdcRows_0 : ∃ (s : State) (k : Part) (u : Fin 6) (rate : BitVec 32) (p : Port), (s.switchedUp) ∧ (s.mfOpen k = true) ∧ (1200 ≤ rate.toNat ∧ rate.toNat ≤ 3000000) ∧ (((s.uarts.get k).get u).port = some p) :=
  ⟨{ demo with ups := demo.ups.put 0 { usb2 := .active }, mfs := demo.mfs.put 0 { side := some .usb2, config := 1 }, uarts := demo.uarts.put 0 (Tab.const 6 { port := some 0 }) }, 0, 0, 9600, 0, by
    refine ⟨⟨by decide, by decide, rfl⟩, ?_, by decide, by simp⟩
    simp [State.mfOpen]⟩

theorem witness_CdcRows_1 : ∃ (s : State) (k : Part) (u : Fin 6) (rate : BitVec 32) (format parity bits : Byte), (s.switchedUp) ∧ (s.mfOpen k = true) ∧ (rate.toNat < 1200 ∨ 3000000 < rate.toNat ∨ format ≠ 0 ∨ parity ≠ 0 ∨ bits ≠ 8) :=
  ⟨{ demo with ups := demo.ups.put 0 { usb2 := .active }, mfs := demo.mfs.put 0 { side := some .usb2, config := 1 } }, 0, 0, 1199, 0, 0, 8, by
    refine ⟨⟨by decide, by decide, rfl⟩, ?_, by decide⟩
    simp [State.mfOpen]⟩

theorem witness_CdcRows_2 : ∃ (s : State) (k : Part) (u : Fin 6), (s.switchedUp) ∧ (s.mfOpen k = true) :=
  ⟨{ demo with ups := demo.ups.put 0 { usb2 := .active }, mfs := demo.mfs.put 0 { side := some .usb2, config := 1 } }, 0, 5, by
    refine ⟨⟨by decide, by decide, rfl⟩, ?_⟩
    simp [State.mfOpen]⟩

theorem witness_CdcRows_3 : ∃ (s : State) (k : Part) (u : Fin 6) (lines : BitVec 16), (s.switchedUp) ∧ (s.mfOpen k = true) :=
  ⟨{ demo with ups := demo.ups.put 0 { usb2 := .active }, mfs := demo.mfs.put 0 { side := some .usb2, config := 1 } }, 0, 5, 3, by
    refine ⟨⟨by decide, by decide, rfl⟩, ?_⟩
    simp [State.mfOpen]⟩

theorem witness_CdcRows_4 : ∃ (s : State) (k : Part) (u : Fin 6) (ms : BitVec 16), (s.switchedUp) ∧ (s.mfOpen k = true) :=
  ⟨{ demo with ups := demo.ups.put 0 { usb2 := .active }, mfs := demo.mfs.put 0 { side := some .usb2, config := 1 } }, 0, 0, 0xFFFF, by
    refine ⟨⟨by decide, by decide, rfl⟩, ?_⟩
    simp [State.mfOpen]⟩

theorem witness_CdcRows_5 : ∃ (s : State) (k : Part) (u : Fin 6) (data : List Byte) (p : Port), (s.switchedUp) ∧ (s.mfOpen k = true) ∧ (((s.uarts.get k).get u).port = some p) ∧ ((s.pd.get p).sbuOn = true) :=
  ⟨{ demo with ups := demo.ups.put 0 { usb2 := .active }, mfs := demo.mfs.put 0 { side := some .usb2, config := 1 }, uarts := demo.uarts.put 0 (Tab.const 6 { port := some 0 }), pd := demo.pd.put 0 { sbuOn := true } }, 0, 0, [1], 0, by
    refine ⟨⟨by decide, by decide, rfl⟩, ?_, by simp, by simp⟩
    simp [State.mfOpen]⟩

theorem witness_CdcRows_6 : ∃ (s : State) (k : Part) (u : Fin 6) (data : List Byte), (s.switchedUp) ∧ (((s.uarts.get k).get u).port = none) :=
  ⟨demo, 0, 0, [1], by
    refine ⟨⟨by decide, by decide, rfl⟩, by simp [demo, State.reset]⟩⟩

theorem witness_CdcRows_7 : ∃ (s : State) (p : Port) (c : Byte) (u : Fin 6), (s.switchedUp) ∧ ((s.pd.get p).uartSlot = some u) ∧ ((s.pd.get p).sbuOn = true) :=
  ⟨{ demo with pd := demo.pd.put 511 { sbuOn := true, uartSlot := some 3 } }, 511, 0x41, 3, by
    refine ⟨⟨by decide, by decide, rfl⟩, by simp, by simp⟩⟩

theorem witness_SessionCommands_0 : ∃ (s : State) (m : VcpMsg) (o lo hi : Byte), (s.hears (helloMsg 0 m)) ∧ ((s.sessions.get m.session).isOpen = false) ∧ (m.payload = [o, 1, 0, 0, lo, hi]) ∧ (get16 m.payload 4 &&& 0xFC07 = 0) ∧ (m.target = 0xFFFF) ∧ (s.fw.staging = none) :=
  ⟨demo, { demoMsg 0xFFFF [0, 1, 0, 0, 0xF8, 0x03] with session := 17 }, 0, 0xF8, 0x03, by
    exact ⟨demoB_hears _ [_, 1, 0, 0, 0xF8, 0x03] (by decide), by simp [demo, demoMsg]; rfl, rfl, by decide, rfl, rfl⟩⟩

theorem witness_SessionCommands_1 : ∃ (s : State) (m : VcpMsg) (o lo hi : Byte), (s.hears (helloMsg 1 m)) ∧ (m.payload = [o, 1, 0, 0, lo, hi]) ∧ (get16 m.payload 4 &&& 0xFC07 = 0) ∧ (m.target = 0xFFFF) ∧ (s.fw.staging = none) :=
  ⟨demo, { demoMsg 0xFFFF [0, 1, 0, 0, 0xF8, 0x03] with session := 17 }, 0, 0xF8, 0x03, by
    exact ⟨demoB_hears _ [_, 1, 0, 0, 0xF8, 0x03] (by decide), rfl, by decide, rfl, rfl⟩⟩

theorem witness_SessionCommands_2 : ∃ (s : State) (m : VcpMsg) (k : Part) (o lo hi : Byte), (s.takes 0x0001 (helloMsg 2 m)) ∧ (m.payload = [o, 1, 0, 0, lo, hi]) ∧ (get16 m.payload 4 &&& 0xFC07 = 0) ∧ (decodeTarget m.target = some (.partition k)) ∧ (s.isSteward m.session = true) ∧ (s.fw.bootFailed = false) :=
  ⟨demo, demoMsg 0x8000 [0, 1, 0, 0, 0xF8, 0x03], 0, 0, 0xF8, 0x03, by
    exact ⟨demo_takes _ _ _ _ rfl rfl rfl (.inl rfl) rfl rfl rfl (by decide) rfl, rfl, by decide, rfl, rfl, rfl⟩⟩

theorem witness_SessionCommands_3 : ∃ (s : State) (m : VcpMsg) (k : Part) (o lo hi : Byte), (s.takes 0x0001 (helloMsg 3 m)) ∧ (m.payload = [o, 1, 0, 0, lo, hi]) ∧ (get16 m.payload 4 &&& 0xFC07 = 0) ∧ (decodeTarget m.target = some (.partition k)) ∧ (s.isSteward m.session = true) ∧ (s.fw.bootFailed = false) :=
  ⟨demo, demoMsg 0x8000 [0, 1, 0, 0, 0xF8, 0x03], 0, 0, 0xF8, 0x03, by
    exact ⟨demo_takes _ _ _ _ rfl rfl rfl (.inl rfl) rfl rfl rfl (by decide) rfl, rfl, by decide, rfl, rfl, rfl⟩⟩

theorem witness_SessionCommands_4 : ∃ (s : State) (m : VcpMsg), (s.takes 0x0003 m) ∧ (m.target = 0xFFFF) ∧ (m.payload.length = 4) ∧ (((s.sessions.get m.session).nextEseq - 1 - bits32 m.payload 0).toNat < 2 ^ 31) :=
  ⟨demo, demoMsg 0xFFFF [0xFF, 0xFF, 0xFF, 0xFF], by
    exact ⟨demo_takes _ _ _ _ rfl rfl rfl (.inl rfl) rfl rfl rfl (by decide) rfl, rfl, rfl, by decide⟩⟩

theorem witness_SessionCommands_5 : ∃ (s : State) (m : VcpMsg), (s.takes 0x0101 m) ∧ (m.target = 0xFFFF) ∧ (m.payload = []) ∧ (s.fw.running = none) ∧ (s.fw.recordLoaded = none) :=
  ⟨demo, demoMsg 0xFFFF [], by
    exact ⟨demo_takes _ _ _ _ rfl rfl rfl (.inl rfl) rfl rfl rfl (by decide) rfl, rfl, rfl, rfl, rfl⟩⟩

theorem witness_SessionCommands_6 : ∃ (s : State) (m : VcpMsg), (s.takes 0x0102 m) ∧ (m.target = 0xFFFF) ∧ (m.payload = []) :=
  ⟨demo, demoMsg 0xFFFF [], by
    exact ⟨demo_takes _ _ _ _ rfl rfl rfl (.inl rfl) rfl rfl rfl (by decide) rfl, rfl, rfl⟩⟩

theorem witness_SessionCommands_7 : ∃ (s : State) (m : VcpMsg), (s.takes 0x0103 m) ∧ (m.target = 0xFFFF) ∧ (m.payload = []) :=
  ⟨demo, demoMsg 0xFFFF [], by
    exact ⟨demo_takes _ _ _ _ rfl rfl rfl (.inl rfl) rfl rfl rfl (by decide) rfl, rfl, rfl⟩⟩

theorem witness_SessionCommands_8 : ∃ (s : State) (m : VcpMsg) (e0 e1 e2 e3 : Byte), (s.takes 0x0002 m) ∧ (m.target = 0xFFFF) ∧ (m.payload = [0, 0, 0, 0, e0, e1, e2, e3]) :=
  ⟨demo, demoMsg 0xFFFF [0, 0, 0, 0, 0, 0, 0, 0], 0, 0, 0, 0, by
    exact ⟨demo_takes _ _ _ _ rfl rfl rfl (.inl rfl) rfl rfl rfl (by decide) rfl, rfl, rfl⟩⟩

theorem witness_SessionCommands_9 : ∃ (s : State) (m : VcpMsg) (e0 e1 e2 e3 : Byte), (s.takes 0x0002 m) ∧ (m.target = 0xFFFF) ∧ (m.payload = [1, 0, 0, 0, e0, e1, e2, e3]) :=
  ⟨demo, demoMsg 0xFFFF [1, 0, 0, 0, 0, 0, 0, 0], 0, 0, 0, 0, by
    exact ⟨demo_takes _ _ _ _ rfl rfl rfl (.inl rfl) rfl rfl rfl (by decide) rfl, rfl, rfl⟩⟩

theorem witness_SessionCommands_10 : ∃ (s : State) (m : VcpMsg), (s.takes 0x0004 m) ∧ (m.target = 0xFFFF) ∧ (m.payload = []) :=
  ⟨demo, demoMsg 0xFFFF [], by
    exact ⟨demo_takes _ _ _ _ rfl rfl rfl (.inl rfl) rfl rfl rfl (by decide) rfl, rfl, rfl⟩⟩

theorem witness_SessionCommands_11 : ∃ (s : State) (m : VcpMsg) (op : BitVec 16), (s.takes op m) ∧ (cmdRow op = none) :=
  ⟨demo, demoMsg 0xFFFF [], 0x0C00, by
    exact ⟨demo_takes _ _ _ _ rfl rfl rfl (.inl rfl) rfl rfl rfl (by decide) rfl, by decide⟩⟩

theorem witness_MailboxRows_0 : ∃ (s : State) (bus : OobBus) (m : Mbox), (s.aonUp = true) ∧ (s.daytime) ∧ (s.mode ≠ .off) ∧ (oobServes bus m = true) ∧ ((s.mailboxes.get m).cmdBusy = false) :=
  ⟨demo, .spi, 1, by
    exact ⟨rfl, demo_day, by decide, rfl, by simp [demo, State.reset]⟩⟩

theorem witness_MailboxRows_1 : ∃ (s : State), (s.aonUp = true) ∧ (s.daytime) ∧ (s.mode ≠ .off) ∧ ((s.mailboxes.get 2).cmdBusy = false) :=
  ⟨demo, by
    exact ⟨rfl, demo_day, by decide, by simp [demo, State.reset]⟩⟩

theorem witness_MailboxRows_2 : ∃ (s : State) (m : Mbox) (r : Rsp) (rest : List Rsp), (s.aonUp = true) ∧ (s.mode ≠ .off) ∧ ((s.mailboxes.get m).rspReady = true) ∧ ((s.sessions.get (sessOfMbox m)).out = r :: rest) :=
  ⟨{ demo with mailboxes := demo.mailboxes.put 0 { rspReady := true }, sessions := demo.sessions.put 16 { out := [{ opcode := 1, status := 0, cseq := 1, target := 0, more := false, payload := [] }] } }, 0, _, _, by
    exact ⟨rfl, by decide, by simp, rfl⟩⟩

theorem witness_MailboxRows_3 : ∃ (s : State) (m : Mbox), (s.aonUp = true) ∧ (s.mode ≠ .off) ∧ ((s.mailboxes.get m).rspReady = true) ∧ ((s.sessions.get (sessOfMbox m)).out = []) :=
  ⟨{ demo with mailboxes := demo.mailboxes.put 0 { rspReady := true } }, 0, by
    exact ⟨rfl, by decide, by simp, rfl⟩⟩

theorem witness_MailboxRows_4 : ∃ (s : State) (m : Mbox) (e : EventRec), (s.aonUp = true) ∧ (s.mode ≠ .off) ∧ (s.fw.paused = false) ∧ ((s.mailboxes.get m).evtReady = true) ∧ (nextToSend (s.sessions.get (sessOfMbox m)) = some e) :=
  ⟨{ demo with mailboxes := demo.mailboxes.put 0 { evtReady := true }, sessions := demo.sessions.put 16 { ring := [{ eseq := 0, code := 1, target := 0, payload := [], sent := false, again := false }] } }, 0, _, by
    exact ⟨rfl, by decide, rfl, by simp, rfl⟩⟩

theorem witness_MailboxRows_5 : ∃ (s : State) (m : Mbox), (s.aonUp = true) ∧ (s.mode ≠ .off) ∧ ((s.mailboxes.get m).evtReady = true) ∧ (nextToSend (s.sessions.get (sessOfMbox m)) = none) :=
  ⟨{ demo with mailboxes := demo.mailboxes.put 0 { evtReady := true } }, 0, by
    exact ⟨rfl, by decide, by simp, rfl⟩⟩

theorem witness_MailboxRows_6 : ∃ (s : State) (m : Mbox), (s.aonUp = true) ∧ (s.mode ≠ .off) :=
  ⟨demo, 2, by
    exact ⟨rfl, by decide⟩⟩

theorem witness_RegisterSpaceRows_0 : ∃ (s : State) (b : Byte), (s.aonUp = true) :=
  ⟨demo, 7, by
    rfl⟩

theorem witness_RegisterSpaceRows_1 : ∃ (s : State) (m : Mbox) (o : Nat) (b : Byte), (s.aonUp = true) ∧ (s.mode ≠ .off) ∧ (m ≠ 2) ∧ (o < 0x500) ∧ ((s.mailboxes.get m).cmdBusy = false) :=
  ⟨demo, 1, 0x4FF, 0xAA, by
    exact ⟨rfl, by decide, by decide, by decide, by simp [demo, State.reset]⟩⟩

theorem witness_RegisterSpaceRows_2 : ∃ (s : State) (l : List Byte), (s.aonUp = true) :=
  ⟨demo, [1, 2], by
    rfl⟩

theorem witness_RegisterSpaceRows_3 : ∃ (s : State) (l : List Byte), (s.aonUp = true) :=
  ⟨demo, [1, 2], by
    rfl⟩

theorem witness_RegisterSpaceRows_4 : ∃ (s : State) (a : BitVec 16), (s.aonUp = true) :=
  ⟨demo, 0xFFFF, by
    rfl⟩

theorem witness_RegisterSpaceRows_6 : ∃ (s : State), (s.aonUp = true) ∧ (s.mode ≠ .off) ∧ (s.alert = true) :=
  ⟨{ demo with alertEnable := 1, mailboxes := demo.mailboxes.put 0 { rspReady := true } }, by
    exact ⟨rfl, by decide, by rfl⟩⟩

theorem witness_PartitionCommands_0 : ∃ (s : State) (m : VcpMsg) (k : Part) (o : Byte), (s.reaches 0x0201 m (.partition k)) ∧ (m.payload = [o]) ∧ (o = 0 ∨ o = 1) :=
  ⟨demo, demoMsg 0x8003 [1], 3, 1, by
    exact ⟨demo_reaches _ _ _ _ rfl (by decide) rfl, rfl, .inr rfl⟩⟩

theorem witness_PartitionCommands_1 : ∃ (s : State) (m : VcpMsg) (p : Port) (k : Part) (i : Pos), (s.reaches 0x0202 m (.port p)) ∧ (s.isSteward m.session = true) ∧ (m.payload = [BitVec.ofNat 8 k.val, BitVec.ofNat 8 i.val]) ∧ (s.partOf.get p = k) ∧ (s.posOf.get p = i) :=
  ⟨demo, demoMsg 0x0000 [0, 0], 0, 0, 0, by
    exact ⟨demo_reaches _ _ _ _ rfl (by decide) rfl, rfl, rfl, by simp [demo, State.reset], by simp [demo, State.reset]⟩⟩

theorem witness_PartitionCommands_2 : ∃ (s : State) (m : VcpMsg) (p : Port) (k : Part) (i : Pos), (s.reaches 0x0202 m (.port p)) ∧ (s.isSteward m.session = true) ∧ (m.payload = [BitVec.ofNat 8 k.val, BitVec.ofNat 8 i.val]) ∧ (s.portAtPos k i = none) ∧ (s.partOf.get p ≠ k ∨ s.posOf.get p ≠ i) ∧ ((s.portsOf k).length < (s.parts.get k).cfg.maxPorts) ∧ (dataModeAttaches (s.ports.get p).dataMode = false ∨ s.partOf.get p = k ∨ s.slotsAllow k = true) ∧ ((s.ports.get p).presented = true) ∧ ((s.ports.get p).st ≠ .draining) ∧ ((s.ports.get p).st ≠ .disabling) ∧ ((s.ports.get p).reacting = false) ∧ (s.resetOnWire p = false) :=
  ⟨demoShown, demoMsg 0x0000 [1, 40], 0, 1, 40, by
    exact ⟨demo_reaches_of _ _ _ _ _ rfl rfl rfl rfl (.inl rfl) rfl rfl rfl (by decide) rfl rfl, rfl, rfl, demoShown_position, .inl (by simp [demoShown, demo, State.reset]), demoShown_room, .inr (.inr demoShown_slots), by simp [demoShown, demo, State.reset, PortState.presented, presentedSt], by simp [demoShown], by simp [demoShown], by simp [demoShown, demo, State.reset], by simp [State.resetOnWire, demoShown]⟩⟩

theorem witness_PartitionCommands_3 : ∃ (s : State) (m : VcpMsg) (k : Part), (s.reaches 0x0203 m (.partition k)) ∧ (s.isSteward m.session = true) ∧ (s.partArgsOk k m.payload = true) :=
  ⟨demo, demoMsg 0x8003 [8, 0, 0, 0, 0, 0, 0, 0, 100, 0], 3, by
    exact ⟨demo_reaches _ _ _ _ rfl (by decide) rfl, rfl, by decide +kernel⟩⟩

theorem witness_PartitionCommands_4 : ∃ (s : State) (m : VcpMsg) (k : Part), (s.reaches 0x0204 m (.partition k)) ∧ (m.payload = []) ∧ ((s.parts.get k).st = .disabled) :=
  ⟨{ demo with parts := demo.parts.upd 3 (fun x => { x with st := .disabled }) }, demoMsg 0x8003 [], 3, by
    exact ⟨demo_reaches_of _ _ _ _ _ rfl rfl rfl rfl (.inl rfl) rfl rfl rfl (by decide) rfl rfl, rfl, by simp⟩⟩

theorem witness_PartitionCommands_5 : ∃ (s : State) (m : VcpMsg) (k : Part), (s.reaches 0x0204 m (.partition k)) ∧ (m.payload = []) ∧ ((s.parts.get k).st = .chargeOnly) :=
  ⟨{ demo with parts := demo.parts.upd 3 (fun x => { x with st := .chargeOnly }) }, demoMsg 0x8003 [], 3, by
    exact ⟨demo_reaches_of _ _ _ _ _ rfl rfl rfl rfl (.inl rfl) rfl rfl rfl (by decide) rfl rfl, rfl, by simp⟩⟩

theorem witness_PartitionCommands_6 : ∃ (s : State) (m : VcpMsg) (k : Part) (o : Byte), (s.reaches 0x0205 m (.partition k)) ∧ (m.payload = [o]) ∧ (o = 0 ∨ o = 1) ∧ (m.session = mfSession k) :=
  ⟨demoMf, mfMsg 0x8003 [1], 3, 1, by
    exact ⟨demoMf_reaches _ _ _ _ rfl (by decide) rfl (by decide), rfl, .inr rfl, rfl⟩⟩

theorem witness_PartitionCommands_7 : ∃ (s : State) (m : VcpMsg) (k : Part), (s.reaches 0x0205 m (.partition k)) ∧ (m.payload = [0]) ∧ (m.session ≠ mfSession k) ∧ ((s.parts.get k).st = .chargeOnly) ∧ ((s.parts.get k).safeMarked = false) ∧ ((s.parts.get k).withdraw = none) :=
  ⟨{ demo with parts := demo.parts.upd 3 (fun x => { x with st := .chargeOnly }) }, demoMsg 0x8003 [0], 3, by
    exact ⟨demo_reaches_of _ _ _ _ _ rfl rfl rfl rfl (.inl rfl) rfl rfl rfl (by decide) rfl rfl, rfl, by decide, by simp, by simp [demo, State.reset], by simp [demo, State.reset]⟩⟩

theorem witness_PartitionCommands_8 : ∃ (s : State) (k : Part) (dis : Bool), (s.mode ≠ .off) ∧ ((s.parts.get k).deferredDisconnect = some dis) ∧ ((s.parts.get k).safeMarked = false) ∧ ((s.parts.get k).st ≠ .disabled) ∧ ((s.parts.get k).st ≠ .chargeOnly) ∧ (s.deferredWaits k = false) :=
  ⟨{ demo with parts := demo.parts.upd 3 (fun x => { x with st := .connected, deferredDisconnect := some true }) }, 3, true, by
    refine ⟨by decide, by simp, by simp [demo, State.reset], by simp, by simp, rfl⟩⟩

theorem witness_PortCommands_0 : ∃ (s : State) (m : VcpMsg) (p : Port), (s.reaches 0x0301 m (.port p)) ∧ (m.payload = []) :=
  ⟨demo, demoMsg 0x0021 [], 0x21, by
    exact ⟨demo_reaches _ _ _ _ rfl (by decide) rfl, rfl⟩⟩

theorem witness_PortCommands_1 : ∃ (s : State) (m : VcpMsg) (p : Port), (s.reaches 0x0302 m (.port p)) ∧ (setModeArgsOk m.payload = true) ∧ (bit (get8 m.payload 0) 0 = false) :=
  ⟨demo, demoMsg 0x0021 [2, 0, 1, 0, 0, 0], 0x21, by
    exact ⟨demo_reaches _ _ _ _ rfl (by decide) rfl, by decide, by decide⟩⟩

theorem witness_PortCommands_2 : ∃ (s : State) (m : VcpMsg) (p : Port) (d : DataMode), (s.reaches 0x0302 m (.port p)) ∧ (setModeArgsOk m.payload = true) ∧ (bit (get8 m.payload 0) 0 = true) ∧ (modeOfCode (get8 m.payload 1) = some d) ∧ (d ≠ (s.ports.get p).dataMode) ∧ (dataModeAttaches d = false ∨ dataModeAttaches (s.ports.get p).dataMode = true ∨ s.slotsAllow (s.partOf.get p) = true) ∧ ((s.ports.get p).presented = true) ∧ ((s.ports.get p).st ≠ .probe) ∧ ((s.ports.get p).disabling = false) ∧ ((s.ports.get p).st ≠ .draining) :=
  ⟨{ demo with ports := demo.ports.upd 0 (fun x => { x with st := .enabled, shown := true }) }, demoMsg 0x0000 [1, 2, 0, 0, 0, 0], 0, .pass, by
    exact ⟨demo_reaches_of _ _ _ _ _ rfl rfl rfl rfl (.inl rfl) rfl rfl rfl (by decide) rfl rfl, by decide, by decide, rfl, by simp [demo, State.reset], .inr (.inr (by simp [State.slotsAllow, demo, State.reset])), by simp [demo, State.reset, PortState.presented, presentedSt], by simp, by simp [demo, State.reset, PortState.disabling], by simp⟩⟩

theorem witness_PortCommands_3 : ∃ (s : State) (m : VcpMsg) (p : Port), (s.reaches 0x0303 m (.port p)) ∧ (m.payload = []) ∧ ((s.ports.get p).connected = true) ∧ (dataModeAttaches (s.ports.get p).dataMode = true) ∧ ((s.ports.get p).presented = true) ∧ ((s.ports.get p).disabling = false) ∧ ((s.ports.get p).st ≠ .draining) :=
  ⟨{ demo with ports := demo.ports.upd 0 (fun x => { x with st := .enabled, shown := true, line := true }) }, demoMsg 0x0000 [], 0, by
    exact ⟨demo_reaches_of _ _ _ _ _ rfl rfl rfl rfl (.inl rfl) rfl rfl rfl (by decide) rfl rfl, rfl, by simp [PortState.connected], by simp [demo, State.reset, dataModeAttaches], by simp [demo, State.reset, PortState.presented, presentedSt], by simp [demo, State.reset, PortState.disabling], by simp⟩⟩

theorem witness_PortCommands_4 : ∃ (s : State) (m : VcpMsg) (p : Port), (s.reaches 0x0304 m (.port p)) ∧ (m.payload = []) ∧ ((s.ports.get p).path = .lifted) ∧ ((s.ports.get p).st = .enabled ∨ (s.ports.get p).st = .suspended ∨ (s.ports.get p).st = .l1) :=
  ⟨{ demo with ports := demo.ports.upd 0 (fun x => { x with st := .enabled, path := .lifted, shown := true, line := true }) }, demoMsg 0x0000 [], 0, by
    exact ⟨demo_reaches_of _ _ _ _ _ rfl rfl rfl rfl (.inl rfl) rfl rfl rfl (by decide) rfl rfl, rfl, by simp, .inl (by simp)⟩⟩

theorem witness_PortCommands_5 : ∃ (s : State) (m : VcpMsg) (p : Port), (s.reaches 0x0304 m (.port p)) ∧ (m.payload = []) ∧ (sideOf (s.ports.get p).path = .usb2) ∧ ((s.ports.get p).st = .waitReset ∨ (s.ports.get p).st = .enabled ∨ (s.ports.get p).st = .suspended) :=
  ⟨{ demo with ports := demo.ports.upd 0 (fun x => { x with st := .enabled, path := .passthrough, shown := true, line := true }) }, demoMsg 0x0000 [], 0, by
    exact ⟨demo_reaches_of _ _ _ _ _ rfl rfl rfl rfl (.inl rfl) rfl rfl rfl (by decide) rfl rfl, rfl, by simp [sideOf], .inr (.inl (by simp))⟩⟩

theorem witness_PortCommands_6 : ∃ (s : State) (m : VcpMsg) (p : Port), (s.reaches 0x0305 m (.port p)) ∧ (m.payload = []) ∧ ((s.ports.get p).st = .quenched) ∧ ((s.ports.get p).presented = true) ∧ ((s.ports.get p).path ≠ .lifted) :=
  ⟨{ demo with ports := demo.ports.upd 0 (fun x => { x with st := .quenched, quenchedFrom := some .enabled, path := .passthrough, shown := true, line := true }) }, demoMsg 0x0000 [], 0, by
    exact ⟨demo_reaches_of _ _ _ _ _ rfl rfl rfl rfl (.inl rfl) rfl rfl rfl (by decide) rfl rfl, rfl, by simp, by simp [demo, State.reset, PortState.presented, presentedSt], by simp⟩⟩

theorem witness_PortCommands_7 : ∃ (s : State) (m : VcpMsg) (p : Port) (o : Byte), (s.reaches 0x0306 m (.port p)) ∧ (m.payload = [o]) ∧ (o = 0 ∨ o = 1) :=
  ⟨demo, demoMsg 0x0021 [1], 0x21, 1, by
    exact ⟨demo_reaches _ _ _ _ rfl (by decide) rfl, rfl, .inr rfl⟩⟩

theorem witness_PortCommands_8 : ∃ (s : State) (m : VcpMsg) (p : Port), (s.reaches 0x0605 m (.port p)) ∧ (m.payload = [1]) ∧ ((s.ports.get p).disabling = false) :=
  ⟨demo, demoMsg 0x0021 [1], 0x21, by
    exact ⟨demo_reaches _ _ _ _ rfl (by decide) rfl, rfl, by simp [demo, State.reset, PortState.disabling]⟩⟩

theorem witness_PortCommands_9 : ∃ (s : State) (m : VcpMsg) (p : Port), (s.reaches 0x0605 m (.port p)) ∧ (m.payload = [1]) ∧ ((s.ports.get p).disabling = true) :=
  ⟨{ demo with ports := demo.ports.upd 0 (fun x => { x with st := .disabling }) }, demoMsg 0x0000 [1], 0, by
    exact ⟨demo_reaches_of _ _ _ _ _ rfl rfl rfl rfl (.inl rfl) rfl rfl rfl (by decide) rfl rfl, rfl, by simp [PortState.disabling]⟩⟩

theorem witness_PortCommands_10 : ∃ (s : State) (m : VcpMsg) (p : Port), (s.reaches 0x0605 m (.port p)) ∧ (m.payload = [0]) ∧ ((s.ports.get p).st ≠ .disabling) :=
  ⟨demo, demoMsg 0x0021 [0], 0x21, by
    exact ⟨demo_reaches _ _ _ _ rfl (by decide) rfl, rfl, by simp [demo, State.reset]⟩⟩

theorem witness_LiftCommands_0 : ∃ (s : State) (m : VcpMsg) (k : Part), (s.reaches 0x0401 m (.partition k)) ∧ (m.payload = []) :=
  ⟨demo, demoMsg 0x8003 [], 3, by
    exact ⟨demo_reaches _ _ _ _ rfl (by decide) rfl, rfl⟩⟩

theorem witness_LiftCommands_1 : ∃ (s : State) (m : VcpMsg) (k : Part) (n : Nat), (s.reaches 0x0402 m (.partition k)) ∧ (get8 m.payload 0 = n) ∧ (1 ≤ n ∧ n ≤ 32) ∧ (m.payload.length = 4 + 4 * n) ∧ (zeroSlice m.payload 1 3 = true) ∧ (∀ i, i < n → get8 m.payload (4 * i + 7) < 4) :=
  ⟨demo, demoMsg 0x8003 [1, 0, 0, 0, 8, 6, 0x50, 3], 3, 1, by
    exact ⟨demo_reaches _ _ _ _ rfl (by decide) rfl, by decide, by decide, rfl, by decide, by decide⟩⟩

theorem witness_LiftCommands_2 : ∃ (s : State) (m : VcpMsg) (p : Port) (x : LiftPort) (a c : Byte) (b : Boundary), (s.reaches 0x0403 m (.port p)) ∧ (s.presentation p = some x) ∧ (m.payload = [a, 1, c, 0, 0, 0]) ∧ (x.asRead.isBulkIn a = true) ∧ (boundaryOfCode c.toNat = some b) ∧ (b = .snoopBot → x.asRead.botSomewhere a = true) :=
  ⟨demoLift, demoMsg 0x0000 [0x81, 1, 2, 0, 0, 0], 0, demoLifted, 0x81, 2, .immediate, by
    exact ⟨demoLift_reaches _ _ _ _ rfl (by decide) rfl, demoLift_shows, rfl, by decide +kernel, rfl, by intro h; cases h⟩⟩

theorem witness_LiftCommands_3 : ∃ (s : State) (m : VcpMsg) (p : Port) (x : LiftPort) (a lo hi : Byte), (s.reaches 0x0403 m (.port p)) ∧ (s.presentation p = some x) ∧ (m.payload = [a, 2, 0, 0, lo, hi]) ∧ (x.asRead.isBulkIn a = true) ∧ (get16 m.payload 4 ≤ 1000) :=
  ⟨demoLift, demoMsg 0x0000 [0x81, 2, 0, 0, 100, 0], 0, demoLifted, 0x81, 100, 0, by
    exact ⟨demoLift_reaches _ _ _ _ rfl (by decide) rfl, demoLift_shows, rfl, by decide +kernel, by decide⟩⟩

theorem witness_LiftCommands_4 : ∃ (s : State) (m : VcpMsg) (p : Port) (x : LiftPort) (a : Byte), (s.reaches 0x0404 m (.port p)) ∧ (s.presentation p = some x) ∧ (m.payload = [a, 0]) ∧ (a ≠ 0xFF) ∧ (a = 0 ∨ x.asRead.addresses.contains a = true) :=
  ⟨demoLift, demoMsg 0x0000 [0x81, 0], 0, demoLifted, 0x81, by
    exact ⟨demoLift_reaches _ _ _ _ rfl (by decide) rfl, demoLift_shows, rfl, by decide, .inr (by decide +kernel)⟩⟩

theorem witness_LiftCommands_5 : ∃ (s : State) (m : VcpMsg) (p : Port) (a : Byte), (s.reaches 0x0404 m (.port p)) ∧ (s.presentation p = none) ∧ (m.payload = [a, 0]) :=
  ⟨demo, demoMsg 0x0021 [0xFF, 0], 0x21, 0xFF, by
    exact ⟨demo_reaches _ _ _ _ rfl (by decide) rfl, rfl, rfl⟩⟩

theorem witness_LiftCommands_6 : ∃ (s : State) (m : VcpMsg) (p : Port) (x : LiftPort) (a : Byte), (s.reaches 0x0405 m (.port p)) ∧ (s.presentation p = some x) ∧ (m.payload = [a]) ∧ (a ≠ 0) ∧ (x.asRead.addresses.contains a = true) :=
  ⟨demoLift, demoMsg 0x0000 [0x81], 0, demoLifted, 0x81, by
    exact ⟨demoLift_reaches _ _ _ _ rfl (by decide) rfl, demoLift_shows, rfl, by decide, by decide +kernel⟩⟩

theorem witness_PdCommands_0 : ∃ (s : State) (m : VcpMsg) (p : Port) (n : Nat), (s.reaches 0x0501 m (.port p)) ∧ (get8 m.payload 1 = n) ∧ (1 ≤ n ∧ n ≤ 7) ∧ (m.payload.length = 4 + 4 * n) ∧ (get8 m.payload 0 < 2) ∧ (get16 m.payload 2 = 0) ∧ (s.offerOk p (pdosAt m.payload 4 n) = true) :=
  ⟨demoPd, demoMsg 0x0000 [1, 1, 0, 0, 0x2C, 0x91, 0x01, 0], 0, 1, by
    exact ⟨demoPd_reaches _ _ _ _ rfl (by decide) rfl, by decide, by decide, by decide, by decide, by decide, by decide +kernel⟩⟩

theorem witness_PdCommands_1 : ∃ (s : State) (m : VcpMsg) (p : Port) (sop f h0 h1 lo hi : Byte) (d : List Byte), (s.reaches 0x0502 m (.port p)) ∧ (m.payload = [sop, f, h0, h1, lo, hi] ++ d) ∧ (sop.toNat < 5) ∧ (f.toNat < 2) ∧ (get16 m.payload 4 = d.length) ∧ (d.length ≤ 260) ∧ ((s.pd.get p).tc ≠ .attached) :=
  ⟨demo, demoMsg 0x0021 [0, 0, 0, 0, 0, 0], 0x21, 0, 0, 0, 0, 0, 0, [], by
    exact ⟨demo_reaches _ _ _ _ rfl (by decide) rfl, rfl, by decide, by decide, rfl, by decide, by simp [demo, State.reset]⟩⟩

theorem witness_PdCommands_2 : ∃ (s : State) (m : VcpMsg) (p : Port) (sop h0 h1 lo hi : Byte) (d : List Byte), (s.reaches 0x0502 m (.port p)) ∧ (m.payload = [sop, 0, h0, h1, lo, hi] ++ d) ∧ (sop.toNat < 5) ∧ (get16 m.payload 4 = d.length) ∧ (d.length ≤ 260) ∧ ((s.pd.get p).tc = .attached) ∧ ((s.pd.get p).cfg.pdEnable = true) ∧ ((s.pd.get p).stopped = false) ∧ ((s.pd.get p).fwd = none) :=
  ⟨demoPd, demoMsg 0x0000 [0, 0, 0, 0, 0, 0], 0, 0, 0, 0, 0, 0, [], by
    exact ⟨demoPd_reaches _ _ _ _ rfl (by decide) rfl, rfl, by decide, rfl, by decide, by simp [demoPd], by simp [demoPd], by simp [demoPd, demo, State.reset], by simp [demoPd, demo, State.reset]⟩⟩

theorem witness_PdCommands_3 : ∃ (s : State) (m : VcpMsg) (p : Port) (c : PdSettings), (s.reaches 0x0503 m (.port p)) ∧ (setAutoresp p m.payload (s.pd.get p).cfg = some c) :=
  ⟨demo, demoMsg 0x0021 [1, 5, 0, 0, 0, 0, 0, 0], 0x21, { (demo.pd.get 0x21).cfg with grant := 5 }, by
    exact ⟨demo_reaches _ _ _ _ rfl (by decide) rfl, rfl⟩⟩

theorem witness_PdCommands_4 : ∃ (s : State) (m : VcpMsg) (p : Port), (s.reaches 0x0504 m (.port p)) ∧ (m.payload = []) ∧ ((s.pd.get p).tc = .attached) ∧ ((s.pd.get p).cfg.pdEnable = true) :=
  ⟨demoPd, demoMsg 0x0000 [], 0, by
    exact ⟨demoPd_reaches _ _ _ _ rfl (by decide) rfl, rfl, by simp [demoPd], by simp [demoPd]⟩⟩

theorem witness_PdCommands_5 : ∃ (s : State) (m : VcpMsg) (p : Port) (c : Byte) (r : RpLevel), (s.reaches 0x0505 m (.port p)) ∧ (m.payload = [c, 0]) ∧ (rpOfCode c.toNat = some r) ∧ (rpMa r ≤ s.cardMa p) :=
  ⟨demoPd, demoMsg 0x0000 [1, 0], 0, 1, .r1A5, by
    exact ⟨demoPd_reaches _ _ _ _ rfl (by decide) rfl, rfl, rfl, by decide +kernel⟩⟩

theorem witness_PdCommands_6 : ∃ (s : State) (m : VcpMsg) (p : Port) (c : Byte) (r : RpLevel), (s.reaches 0x0505 m (.port p)) ∧ (m.payload = [c, 1]) ∧ (rpOfCode c.toNat = some r) ∧ (rpMa r ≤ s.cardMa p) ∧ ((s.pd.get p).tc ≠ .open) :=
  ⟨demoPd, demoMsg 0x0000 [1, 1], 0, 1, .r1A5, by
    exact ⟨demoPd_reaches _ _ _ _ rfl (by decide) rfl, rfl, rfl, by decide +kernel, by simp [demoPd]⟩⟩

theorem witness_PdCommands_7 : ∃ (s : State) (m : VcpMsg) (p : Port) (mode lo hi : Byte) (u : Fin 6), (s.reaches 0x0506 m (.port p)) ∧ (m.payload = [1, 1, 0, mode, lo, hi, 0, 0, 0, 0, 0, 0]) ∧ (ssCapable p = true) ∧ ((s.pd.get p).uartSlot = none) ∧ ((List.finRange 6).find? (fun u => ((s.uarts.get (s.partOf.get p)).get u).port == none) = some u) :=
  ⟨demo, demoMsg 0x0000 [1, 1, 0, 1, 0x34, 0x12, 0, 0, 0, 0, 0, 0], 0, 1, 0x34, 0x12, 0, by
    exact ⟨demo_reaches _ _ _ _ rfl (by decide) rfl, rfl, by decide, by simp [demo, State.reset], by simp [demo, State.reset]; rfl⟩⟩

theorem witness_PdCommands_8 : ∃ (s : State) (m : VcpMsg) (p : Port) (lo hi : Byte), (s.reaches 0x0507 m (.port p)) ∧ (m.payload = [lo, hi]) ∧ (10 ≤ get16 m.payload 0 ∧ get16 m.payload 0 ≤ 500) ∧ (get16 m.payload 0 % 10 = 0) :=
  ⟨demo, demoMsg 0x0021 [100, 0], 0x21, 100, 0, by
    exact ⟨demo_reaches _ _ _ _ rfl (by decide) rfl, rfl, by decide, by decide⟩⟩

theorem witness_SlotCommands_0 : ∃ (s : State) (m : VcpMsg) (k : Slot), (s.reaches 0x0601 m (.slot k)) ∧ (m.payload = []) :=
  ⟨demo, demoMsg 0x8102 [], 2, by
    exact ⟨demo_reaches _ _ _ _ rfl (by decide) rfl, rfl⟩⟩

theorem witness_SlotCommands_1 : ∃ (s : State) (m : VcpMsg) (k : Slot), (s.reaches 0x0602 m (.slot k)) ∧ (s.isSteward m.session = true) ∧ (limitsOk m.payload = true) ∧ ((limitsOf m.payload (s.slots.get k).cfg).vinUv + 10 ≤ (limitsOf m.payload (s.slots.get k).cfg).vinOv) ∧ (s.profileKeeps k (s.slots.get k).cfg (limitsOf m.payload (s.slots.get k).cfg) = true) :=
  ⟨demo, demoMsg 0x8102 ([1, 0, 0, 0, 250, 0] ++ List.replicate 26 0), 2, by
    refine ⟨demo_reaches _ _ _ _ rfl (by decide) rfl, rfl, by decide, by decide +kernel, ?_⟩
    simp only [State.profileKeeps, demo, State.reset, Tab.get_const]
    decide +kernel⟩

theorem witness_SlotCommands_2 : ∃ (s : State) (m : VcpMsg) (k : Slot), (s.reaches 0x0603 m (.slot k)) ∧ (s.isSteward m.session = true) ∧ (m.payload = [1]) :=
  ⟨demo, demoMsg 0x8102 [1], 2, by
    exact ⟨demo_reaches _ _ _ _ rfl (by decide) rfl, rfl, rfl⟩⟩

theorem witness_SlotCommands_3 : ∃ (s : State) (m : VcpMsg) (k : Slot), (s.reaches 0x0603 m (.slot k)) ∧ (s.isSteward m.session = true) ∧ (m.payload = [0]) ∧ ((s.slots.get k).st ≠ .on) ∧ ((s.slots.get k).disabling = false) :=
  ⟨demo, demoMsg 0x8102 [0], 2, by
    exact ⟨demo_reaches _ _ _ _ rfl (by decide) rfl, rfl, rfl, by simp [demo, State.reset], by simp [demo, State.reset]⟩⟩

theorem witness_SlotCommands_4 : ∃ (s : State) (m : VcpMsg) (k : Slot), (s.reaches 0x0604 m (.slot k)) ∧ (s.isSteward m.session = true) ∧ (m.payload = []) ∧ ((s.slots.get k).st = .latched) :=
  ⟨{ demo with slots := demo.slots.upd 2 (fun x => { x with st := .latched, seatLow := true }) }, demoMsg 0x8102 [], 2, by
    exact ⟨demo_reaches_of _ _ _ _ _ rfl rfl rfl rfl (.inl rfl) rfl rfl rfl (by decide) rfl rfl, rfl, rfl, by simp⟩⟩

theorem witness_SlotCommands_5 : ∃ (s : State) (m : VcpMsg) (p : Port), (s.reaches 0x0606 m (.port p)) ∧ (m.payload = []) :=
  ⟨demo, demoMsg 0x0021 [], 0x21, by
    exact ⟨demo_reaches _ _ _ _ rfl (by decide) rfl, rfl⟩⟩

theorem witness_SlotCommands_6 : ∃ (s : State) (m : VcpMsg) (k : Slot), (s.reaches 0x0606 m (.slot k)) ∧ (s.isSteward m.session = true) ∧ (m.payload = []) :=
  ⟨demo, demoMsg 0x8102 [], 2, by
    exact ⟨demo_reaches _ _ _ _ rfl (by decide) rfl, rfl, rfl⟩⟩

theorem witness_ModeCommands_0 : ∃ (s : State) (m : VcpMsg), (s.reaches 0x0701 m .device) ∧ (m.payload = []) :=
  ⟨demo, demoMsg 0xFFFF [], by
    exact ⟨demo_reaches _ _ _ _ rfl (by decide) rfl, rfl⟩⟩

theorem witness_ModeCommands_1 : ∃ (s : State) (m : VcpMsg) (b : BoardIn) (c : Byte) (g : Goal), (s.reaches 0x0702 m .device) ∧ (s.isSteward m.session = true) ∧ (m.payload = [c]) ∧ (goalOf c.toNat = some g) ∧ (s.fw.bootFailed = false) :=
  ⟨demo, demoMsg 0xFFFF [0x06], demo.board, 6, .evening, by
    exact ⟨demo_reaches _ _ _ _ rfl (by decide) rfl, rfl, rfl, rfl, rfl⟩⟩

theorem witness_ModeCommands_2 : ∃ (s : State) (m : VcpMsg) (k : Part) (lo hi : Byte), (s.reaches 0x0703 m (.partition k)) ∧ (m.payload = [lo, hi]) :=
  ⟨demo, demoMsg 0x8003 [30, 0], 3, 30, 0, by
    exact ⟨demo_reaches _ _ _ _ rfl (by decide) rfl, rfl⟩⟩

theorem witness_ModeCommands_3 : ∃ (s : State) (m : VcpMsg) (lo hi t0 t1 t2 t3 : Byte), (s.reaches 0x0704 m .device) ∧ (s.isSteward m.session = true) ∧ (m.payload = [3, 0, lo, hi, t0, t1, t2, t3]) ∧ (get32 m.payload 4 ≤ 86400) :=
  ⟨demo, demoMsg 0xFFFF [3, 0, 0x40, 0, 60, 0, 0, 0], 0x40, 0, 60, 0, 0, 0, by
    exact ⟨demo_reaches _ _ _ _ rfl (by decide) rfl, rfl, rfl, by decide⟩⟩

theorem witness_ModeCommands_4 : ∃ (s : State) (m : VcpMsg), (s.reaches 0x0705 m .device) ∧ (m.payload = []) :=
  ⟨demo, demoMsg 0xFFFF [], by
    exact ⟨demo_reaches _ _ _ _ rfl (by decide) rfl, rfl⟩⟩

theorem witness_BufferCommands_0 : ∃ (s : State) (m : VcpMsg) (b : Bank) (o : Byte), (s.takes 0x0801 m) ∧ (decodeTarget m.target = some (.bank b)) ∧ (s.domains.get (quarterDom (quarterOf b)) = .on) ∧ (m.payload = [o]) ∧ (o = 0 ∨ o = 2) :=
  ⟨demo, demoMsg 0x8305 [2], 5, 2, by
    exact ⟨demo_takes _ _ _ _ rfl rfl rfl (.inl rfl) rfl rfl rfl (by decide) rfl, rfl, by simp [demo], rfl, .inr rfl⟩⟩

theorem witness_BufferCommands_1 : ∃ (s : State) (m : VcpMsg) (b : Bank) (o : Byte), (s.reaches 0x0801 m (.bank b)) ∧ (s.isSteward m.session = true) ∧ (m.payload = [o]) ∧ (o = 1 ∨ o = 3) :=
  ⟨demo, demoMsg 0x8305 [3], 5, 3, by
    exact ⟨demo_reaches _ _ _ _ rfl (by decide) rfl, rfl, rfl, .inr rfl⟩⟩

theorem witness_BufferCommands_2 : ∃ (s : State) (m : VcpMsg), (s.reaches 0x0802 m .device) ∧ (s.isSteward m.session = true) ∧ (scrubArgsOk m.payload = true) :=
  ⟨demo, demoMsg 0xFFFF [2, 0, 24, 0, 0, 0, 0, 0], by
    exact ⟨demo_reaches _ _ _ _ rfl (by decide) rfl, rfl, by decide⟩⟩

theorem witness_BufferCommands_3 : ∃ (s : State) (m : VcpMsg) (b : Bank), (s.reaches 0x0803 m (.bank b)) ∧ (s.isSteward m.session = true) ∧ (m.payload = [1, 0, 0, 0]) :=
  ⟨demo, demoMsg 0x8305 [1, 0, 0, 0], 5, by
    exact ⟨demo_reaches _ _ _ _ rfl (by decide) rfl, rfl, rfl⟩⟩

theorem witness_BufferCommands_4 : ∃ (s : State) (m : VcpMsg) (b : Bank) (lo hi : Byte) (spare : Nat), (s.reaches 0x0803 m (.bank b)) ∧ (s.isSteward m.session = true) ∧ (m.payload = [0, 0, lo, hi]) ∧ (get16 m.payload 2 < 768) ∧ ((s.banks.get b).freeSpare = some spare) :=
  ⟨demo, demoMsg 0x8305 [0, 0, 7, 0], 5, 7, 0, 0, by
    exact ⟨demo_reaches _ _ _ _ rfl (by decide) rfl, rfl, rfl, by decide, by rw [show demo.banks.get 5 = {} from Tab.get_const _ _]; decide⟩⟩

theorem witness_BufferCommands_5 : ∃ (s : State) (m : VcpMsg) (b : Bank) (a0 a1 a2 a3 : Byte) (l : List Byte), (s.reaches 0x0804 m (.bank b)) ∧ (s.isSteward m.session = true) ∧ (m.payload = [1, 0, 0, 0, a0, a1, a2, a3] ++ l) ∧ (l.length = 18) ∧ (get8 m.payload 25 < 2) ∧ (get32 m.payload 4 / 65536 = b.val) ∧ (get32 m.payload 4 / 64 % 1024 < 768) ∧ (flipBits m.payload ≠ 0) :=
  ⟨demo, demoMsg 0x8305 ([1, 0, 0, 0, 0, 0, 5, 0, 1] ++ List.replicate 17 0), 5, 0, 0, 5, 0, [1] ++ List.replicate 17 0, by
    exact ⟨demo_reaches _ _ _ _ rfl (by decide) rfl, rfl, rfl, rfl, by decide, by decide, by decide, by decide⟩⟩

theorem witness_FaultCommands_0 : ∃ (s : State) (m : VcpMsg) (sev opts n0 n1 i0 i1 i2 i3 : Byte), (s.reaches 0x0901 m .device) ∧ (s.isSteward m.session = true) ∧ (m.payload = [sev, opts, n0, n1, i0, i1, i2, i3]) ∧ (sev.toNat ≤ 4) ∧ (opts.toNat < 2) :=
  ⟨demo, demoMsg 0xFFFF [0, 0, 0, 0, 0, 0, 0, 0], 0, 0, 0, 0, 0, 0, 0, 0, by
    exact ⟨demo_reaches _ _ _ _ rfl (by decide) rfl, rfl, rfl, by decide, by decide⟩⟩

theorem witness_FaultCommands_1 : ∃ (s : State) (m : VcpMsg) (sev opts n0 n1 i0 i1 i2 i3 : Byte), (s.reaches 0x0901 m .device) ∧ (s.isSteward m.session = false) ∧ (m.payload = [sev, opts, n0, n1, i0, i1, i2, i3]) ∧ (sev.toNat ≤ 4) ∧ (opts.toNat < 2) :=
  ⟨demoMf, mfMsg 0xFFFF [0, 0, 0, 0, 0, 0, 0, 0], 0, 0, 0, 0, 0, 0, 0, 0, by
    exact ⟨demoMf_reaches _ _ _ _ rfl (by decide) rfl rfl, rfl, rfl, by decide, by decide⟩⟩

theorem witness_FaultCommands_2 : ∃ (s : State) (m : VcpMsg) (i0 i1 i2 i3 u : Byte), (s.reaches 0x0902 m .device) ∧ (m.payload = [i0, i1, i2, i3, u]) ∧ (u.toNat < 2) :=
  ⟨demo, demoMsg 0xFFFF [3, 0, 0, 0, 1], 3, 0, 0, 0, 1, by
    exact ⟨demo_reaches _ _ _ _ rfl (by decide) rfl, rfl, by decide⟩⟩

theorem witness_FaultCommands_3 : ∃ (s : State) (m : VcpMsg) (s0 s1 k v : Byte) (r : FaultRow) (x : Severity), (s.reaches 0x0903 m .device) ∧ (s.isSteward m.session = true) ∧ (m.payload = [s0, s1, k, v]) ∧ (get16 m.payload 0 < 4096) ∧ (k.toNat ≠ 0xFF) ∧ (faultRow (get16 m.payload 0) k.toNat = some r) ∧ (r.locked = false) ∧ (severityOfCode v.toNat = some x) :=
  ⟨demo, demoMsg 0xFFFF [0x10, 0, 0x30, 2], 0x10, 0, 0x30, 2, { lo := 0x010, hi := 0x01F, kind := 0x30, sev := .note }, .degraded, by
    exact ⟨demo_reaches _ _ _ _ rfl (by decide) rfl, rfl, rfl, by decide, by decide, rfl, rfl, rfl⟩⟩

theorem witness_FaultCommands_4 : ∃ (s : State) (m : VcpMsg) (s0 s1 k v0 v1 v2 v3 : Byte), (s.reaches 0x0904 m .device) ∧ (s.isSteward m.session = true) ∧ (m.payload = [s0, s1, k, 0, v0, v1, v2, v3]) ∧ (get16 m.payload 0 < 4096) ∧ ((faultRow (get16 m.payload 0) k.toNat).isSome = true) ∧ (injectionParamOk (get16 m.payload 0) k.toNat (get32 m.payload 4) = true) ∧ (s.armed (get16 m.payload 0) k.toNat = none) ∧ (s.injectionMode (get16 m.payload 0) k.toNat = true) ∧ ((s.taken 0x0904 m).actNow (get16 m.payload 0) k.toNat (get32 m.payload 4) = none) ∧ (injectionTimed (get16 m.payload 0) = false) :=
  ⟨demo, demoMsg 0xFFFF [0x05, 2, 3, 0, 0, 0, 0, 0], 0x05, 2, 3, 0, 0, 0, 0, by
    exact ⟨demo_reaches _ _ _ _ rfl (by decide) rfl, rfl, rfl, by decide, by decide, by decide, rfl, by decide, rfl, rfl⟩⟩

theorem witness_FaultCommands_5 : ∃ (s : State) (m : VcpMsg) (s0 s1 k v0 v1 v2 v3 : Byte) (t : State), (s.reaches 0x0904 m .device) ∧ (s.isSteward m.session = true) ∧ (m.payload = [s0, s1, k, 0, v0, v1, v2, v3]) ∧ (get16 m.payload 0 < 4096) ∧ ((faultRow (get16 m.payload 0) k.toNat).isSome = true) ∧ (injectionParamOk (get16 m.payload 0) k.toNat (get32 m.payload 4) = true) ∧ (s.armed (get16 m.payload 0) k.toNat = none) ∧ (s.injectionMode (get16 m.payload 0) k.toNat = true) ∧ ((s.taken 0x0904 m).actNow (get16 m.payload 0) k.toNat (get32 m.payload 4) = some t) :=
  ⟨demo, demoMsg 0xFFFF [0x08, 0, 0x23, 0, 0, 0, 0, 0], 0x08, 0, 0x23, 0, 0, 0, 0, (demo.taken 0x0904 (demoMsg 0xFFFF [0x08, 0, 0x23, 0, 0, 0, 0, 0])).forcedReport 8 0x23 0, by
    exact ⟨demo_reaches _ _ _ _ rfl (by decide) rfl, rfl, rfl, by decide, by decide, by decide, rfl, by decide, rfl⟩⟩

theorem witness_FaultCommands_6 : ∃ (s : State) (m : VcpMsg), (s.reaches 0x0905 m .device) ∧ (s.isSteward m.session = true) ∧ (faultPinOk m.payload = true) :=
  ⟨demo, demoMsg 0xFFFF [4, 0, 1, 0, 0, 0], by
    exact ⟨demo_reaches _ _ _ _ rfl (by decide) rfl, rfl, by decide⟩⟩

theorem witness_FirmwareCommands_0 : ∃ (s : State) (m : VcpMsg), (s.reaches 0x0A01 m .device) ∧ (m.payload = []) :=
  ⟨demo, demoMsg 0xFFFF [], by
    exact ⟨demo_reaches _ _ _ _ rfl (by decide) rfl, rfl⟩⟩

theorem witness_FirmwareCommands_1 : ∃ (s : State) (m : VcpMsg) (k t0 t1 t2 t3 : Byte), (s.reaches 0x0A02 m .device) ∧ (s.isSteward m.session = true) ∧ (m.payload = [k, 0, 0, 0, t0, t1, t2, t3]) ∧ (k = 1 ∨ k = 2) ∧ (s.stagingMode = true) ∧ (1 ≤ get32 m.payload 4 ∧ get32 m.payload 4 ≤ (if k = 1 then 8388608 else 262144)) ∧ (s.fw.staging = none) ∧ (s.fw.trial = none) ∧ (s.fw.activation = none) :=
  ⟨demo, demoMsg 0xFFFF [1, 0, 0, 0, 0, 4, 0, 0], 1, 0, 4, 0, 0, by
    exact ⟨demo_reaches _ _ _ _ rfl (by decide) rfl, rfl, rfl, .inl rfl, rfl, by decide, rfl, rfl, rfl⟩⟩

theorem witness_FirmwareCommands_2 : ∃ (s : State) (m : VcpMsg) (g : Staging) (o0 o1 o2 o3 : Byte) (d : List Byte), (s.reaches 0x0A03 m .device) ∧ (s.isSteward m.session = true) ∧ (s.stagingMode = true) ∧ (s.fw.staging = some g) ∧ (g.session = m.session) ∧ (m.payload = [o0, o1, o2, o3, 0, 0, 0, 0] ++ d) ∧ (1 ≤ d.length ∧ d.length ≤ 1016) ∧ (get32 m.payload 0 = g.bytes.length) ∧ (g.bytes.length + d.length ≤ g.total) :=
  ⟨{ demo with fw := { demo.fw with staging := some { session := 16, area := 0, isImage := true, total := 600, bytes := [] } } }, demoMsg 0xFFFF [0, 0, 0, 0, 0, 0, 0, 0, 7], { session := 16, area := 0, isImage := true, total := 600, bytes := [] }, 0, 0, 0, 0, [7], by
    exact ⟨demo_reaches_of _ _ _ _ _ rfl rfl rfl rfl (.inl rfl) rfl rfl rfl (by decide) rfl rfl, rfl, rfl, rfl, rfl, rfl, by decide, by decide, by decide⟩⟩

theorem witness_FirmwareCommands_3 : ∃ (s : State) (m : VcpMsg) (g : Staging), (s.reaches 0x0A04 m .device) ∧ (s.isSteward m.session = true) ∧ (s.stagingMode = true) ∧ (s.fw.staging = some g) ∧ (g.session = m.session) ∧ (m.payload = []) :=
  ⟨{ demo with fw := { demo.fw with staging := some { session := 16, area := 0, isImage := true, total := 600, bytes := [] } } }, demoMsg 0xFFFF [], { session := 16, area := 0, isImage := true, total := 600, bytes := [] }, by
    exact ⟨demo_reaches_of _ _ _ _ _ rfl rfl rfl rfl (.inl rfl) rfl rfl rfl (by decide) rfl rfl, rfl, rfl, rfl, rfl, rfl⟩⟩

theorem witness_FirmwareCommands_4 : ∃ (s : State) (m : VcpMsg) (i : Fin 2), (s.reaches 0x0A05 m .device) ∧ (s.isSteward m.session = true) ∧ (m.payload = [BitVec.ofNat 8 i.val]) ∧ (s.mode = .noon ∨ s.mode = .evening) ∧ (s.trans = none) ∧ (s.arrival = none) ∧ (s.fw.staging = none) ∧ (s.fw.trial = none) ∧ (s.fw.activation = none) ∧ ((s.fw.areas.get (slotArea i)).st = .valid) ∧ (s.fw.running ≠ some i) :=
  ⟨{ demo with fw := { demo.fw with areas := demo.fw.areas.upd 1 (fun a => { a with st := .valid }), running := some 0 } }, demoMsg 0xFFFF [1], 1, by
    exact ⟨demo_reaches_of _ _ _ _ _ rfl rfl rfl rfl (.inl rfl) rfl rfl rfl (by decide) rfl rfl, rfl, rfl, .inl rfl, rfl, rfl, rfl, rfl, rfl, by simp [slotArea], by decide⟩⟩

theorem witness_FirmwareCommands_5 : ∃ (s : State) (a : Activation), (s.mode ≠ .off) ∧ (s.fw.activation = some a) ∧ (a.step = .pause) ∧ (a.rollback = false) ∧ (s.fault.mgtRestarting = false) ∧ (s.loadOk a = true) :=
  ⟨{ demo with fw := { demo.fw with activation := some { target := 1, previous := 0, session := none, cseq := 0, step := .pause, rollback := false }, dirs := demo.fw.dirs.put 0 { intact := true, generation := 1, digestB := sha384 (slice (demo.fw.area (slotArea 1)) 0 512) } } }, { target := 1, previous := 0, session := none, cseq := 0, step := .pause, rollback := false }, by
    refine ⟨by decide, rfl, rfl, rfl, rfl, ?_⟩
    unfold State.loadOk
    have e : FirmwareState.dir { demo.fw with activation := some { target := 1, previous := 0, session := none, cseq := 0, step := .pause, rollback := false }, dirs := demo.fw.dirs.put 0 { intact := true, generation := 1, digestB := sha384 (slice (demo.fw.area (slotArea 1)) 0 512) } } = some { intact := true, generation := 1, digestB := sha384 (slice (demo.fw.area (slotArea 1)) 0 512) } := by
      generalize sha384 (slice (demo.fw.area (slotArea 1)) 0 512) = x
      rfl
    dsimp only
    rw [e]
    simp [Directory.slotDigest, FirmwareState.area]
    rfl⟩

theorem witness_FirmwareCommands_6 : ∃ (s : State) (a : Activation), (s.mode ≠ .off) ∧ (s.fw.activation = some a) ∧ (a.step = .pause) ∧ (a.rollback = false) :=
  ⟨{ demo with fw := { demo.fw with activation := some { target := 1, previous := 0, session := none, cseq := 0, step := .pause, rollback := false } } }, { target := 1, previous := 0, session := none, cseq := 0, step := .pause, rollback := false }, by
    exact ⟨by decide, rfl, rfl, rfl⟩⟩

theorem witness_FirmwareCommands_7 : ∃ (s : State) (t : Trial), (s.mode ≠ .off) ∧ (s.fw.trial = some t) ∧ (s.fw.paused = false) :=
  ⟨{ demo with fw := { demo.fw with trial := some { slot := 1, previous := 0, session := none, cseq := 0, target := 0xFFFF } } }, { slot := 1, previous := 0, session := none, cseq := 0, target := 0xFFFF }, by
    exact ⟨by decide, rfl, rfl⟩⟩

theorem witness_FirmwareCommands_8 : ∃ (s : State) (t : Trial), (s.mode = .noon ∨ s.mode = .evening) ∧ (s.trans = none) ∧ (s.arrival = none) ∧ (s.fw.trial = some t) :=
  ⟨{ demo with fw := { demo.fw with trial := some { slot := 1, previous := 0, session := none, cseq := 0, target := 0xFFFF } } }, { slot := 1, previous := 0, session := none, cseq := 0, target := 0xFFFF }, by
    exact ⟨.inl rfl, rfl, rfl, rfl⟩⟩

theorem witness_FirmwareCommands_9 : ∃ (s : State) (t : Trial) (dead : Bool), (s.mode ≠ .off ∧ s.mode ≠ .noon ∧ s.mode ≠ .evening) ∧ (s.fw.trial = some t) :=
  ⟨{ demo with mode := .morning, fw := { demo.fw with trial := some { slot := 1, previous := 0, session := none, cseq := 0, target := 0xFFFF } } }, { slot := 1, previous := 0, session := none, cseq := 0, target := 0xFFFF }, false, by
    exact ⟨by simp, rfl⟩⟩

theorem witness_DiagnosticCommands_0 : ∃ (s : State) (m : VcpMsg) (t : Target) (k l0 l1 : Byte), (s.reaches 0x0B01 m t) ∧ (s.isSteward m.session = true) ∧ ((isPort t || isUpstream t) = true) ∧ (m.payload = [k, 0, l0, l1]) ∧ (k.toNat < 4) ∧ (2 ≤ k.toNat → diagSs t = true) :=
  ⟨{ demo with mode := .diagnostic }, demoMsg 0x0000 [2, 0, 10, 0], .port 0, 2, 10, 0, by
    exact ⟨demo_reaches_of _ _ _ _ _ rfl rfl rfl rfl (.inr rfl) rfl rfl rfl (by decide) rfl rfl, rfl, rfl, rfl, by decide, by intro _; rfl⟩⟩

theorem witness_DiagnosticCommands_1 : ∃ (s : State) (m : VcpMsg) (t : Target) (side pat : Byte), (s.reaches 0x0B02 m t) ∧ (s.isSteward m.session = true) ∧ ((isPort t || isUpstream t) = true) ∧ (m.payload = [side, pat]) ∧ ((side = 0 ∧ pat.toNat ≤ 5) ∨ (side = 1 ∧ pat.toNat ≤ 16 ∧ diagSs t = true)) ∧ (pat ≠ 0) :=
  ⟨{ demo with mode := .diagnostic }, demoMsg 0x0000 [0, 4], .port 0, 0, 4, by
    exact ⟨demo_reaches_of _ _ _ _ _ rfl rfl rfl rfl (.inr rfl) rfl rfl rfl (by decide) rfl rfl, rfl, rfl, rfl, .inl ⟨rfl, by decide⟩, by decide⟩⟩

theorem witness_DiagnosticCommands_2 : ∃ (s : State) (m : VcpMsg) (t : Target) (side : Byte), (s.reaches 0x0B02 m t) ∧ (s.isSteward m.session = true) ∧ ((isPort t || isUpstream t) = true) ∧ (m.payload = [side, 0]) ∧ (side = 0 ∨ (side = 1 ∧ diagSs t = true)) :=
  ⟨{ demo with mode := .diagnostic }, demoMsg 0x0000 [0, 0], .port 0, 0, by
    exact ⟨demo_reaches_of _ _ _ _ _ rfl rfl rfl rfl (.inr rfl) rfl rfl rfl (by decide) rfl rfl, rfl, rfl, rfl, .inl rfl⟩⟩

theorem witness_DiagnosticCommands_3 : ∃ (s : State) (m : VcpMsg) (t : Target) (lane x y : Byte), (s.reaches 0x0B03 m t) ∧ (s.isSteward m.session = true) ∧ ((isPort t || isUpstream t) = true) ∧ (m.payload = [lane, 0, x, y]) ∧ (lane.toNat < diagLanes t) :=
  ⟨{ demo with mode := .diagnostic }, demoMsg 0x8203 [1, 0, 10, 0], .upstream 3, 1, 10, 0, by
    exact ⟨demo_reaches_of _ _ _ _ _ rfl rfl rfl rfl (.inr rfl) rfl rfl rfl (by decide) rfl rfl, rfl, rfl, rfl, by decide⟩⟩

theorem witness_PortAttach_0 : ∃ (s : State) (p : Port), (s.switchedUp) ∧ ((s.ports.get p).st = .idle) ∧ ((s.ports.get p).dataMode = .auto ∨ (s.ports.get p).dataMode = .lift) ∧ ((s.ports.get p).line = false) ∧ ((s.ports.get p).vdmSrc = false) ∧ ((s.ports.get p).ssLink ≠ .u0 ∧ (s.ports.get p).ssLink ≠ .training) ∧ ((s.ports.get p).noDebounce = false) ∧ ((s.ports.get p).carry = none) ∧ (s.possible p = true) :=
  ⟨{ demo with parts := demo.parts.upd 0 (fun x => { x with st := .connected }), ups := demo.ups.upd 0 (fun u => { u with ssSide := .active }) }, 0, by
    refine ⟨⟨by decide, by decide, rfl⟩, by simp [demo, State.reset], by simp [demo, State.reset], by simp [demo, State.reset], by simp [demo, State.reset], by simp [demo, State.reset], by simp [demo, State.reset], by simp [demo, State.reset], by decide +kernel⟩⟩

theorem witness_PortAttach_1 : ∃ (s : State) (p : Port), (s.switchedUp) ∧ ((s.ports.get p).line = true) ∧ ((s.ports.get p).st ∈ [.waitReset, .enabled, .suspended, .l1]) :=
  ⟨demoLift, 0, by
    refine ⟨demoLift_up, ?_, ?_⟩ <;> simp [demoLift]⟩

theorem witness_PortAttach_2 : ∃ (s : State) (p : Port), (s.switchedUp) ∧ ((s.ports.get p).st = .pending) ∧ (s.possible p = true) ∧ ((s.ports.get p).ssLink ≠ .u0) ∧ ((s.ports.get p).dataMode ≠ .pass) ∧ ((s.ports.get p).carry = none) ∧ ((s.ports.get p).noDebounce = true) :=
  ⟨{ demo with parts := demo.parts.upd 0 (fun x => { x with st := .connected }), ups := demo.ups.upd 0 (fun u => { u with ssSide := .active }), ports := demo.ports.upd 0 (fun x => { x with st := .pending, line := true, noDebounce := true }) }, 0, by
    refine ⟨⟨by decide, by decide, rfl⟩, by simp [demo, State.reset], by decide +kernel, by simp [demo, State.reset], by simp [demo, State.reset], by simp [demo, State.reset], by simp [demo, State.reset]⟩⟩

theorem witness_PortAttach_3 : ∃ (s : State) (p : Port), (s.switchedUp) ∧ ((s.ports.get p).st = .debounce) :=
  ⟨{ demo with ports := demo.ports.upd 0 (fun x => { x with st := .debounce, line := true }) }, 0, by
    refine ⟨?_, ?_⟩ <;> first | exact ⟨by decide, by decide, rfl⟩ | decide +kernel | rfl | exact demo_day | exact demoLift_day | (simp [demo, State.reset]; done)⟩

theorem witness_PortAttach_4 : ∃ (s : State) (p : Port), (s.switchedUp) ∧ ((s.ports.get p).st = .probe) :=
  ⟨{ demo with ports := demo.ports.upd 0 (fun x => { x with st := .probe, line := true }), lift := demo.lift.put 0 (some {}) }, 0, by
    refine ⟨?_, ?_⟩ <;> first | exact ⟨by decide, by decide, rfl⟩ | decide +kernel | rfl | exact demo_day | exact demoLift_day | (simp [demo, State.reset]; done)⟩

theorem witness_PortAttach_5 : ∃ (s : State) (p : Port) (found : FoundSpeed), (s.switchedUp) ∧ ((s.ports.get p).st = .probe) ∧ (found ≠ .high) :=
  ⟨{ demo with ports := demo.ports.upd 0 (fun x => { x with st := .probe, line := true }), lift := demo.lift.put 0 (some {}) }, 0, .full, by
    refine ⟨?_, ?_, ?_⟩ <;> first | exact ⟨by decide, by decide, rfl⟩ | decide +kernel | rfl | exact demo_day | exact demoLift_day | (simp [demo, State.reset]; done)⟩

theorem witness_PortAttach_6 : ∃ (s : State) (p : Port) (l : LiftPort), (s.switchedUp) ∧ ((s.ports.get p).st = .probe) ∧ (s.lift.get p = some l) ∧ (l.probe = none) ∧ (s.dieUp p = true) :=
  ⟨{ demo with ports := demo.ports.upd 0 (fun x => { x with st := .probe, line := true }), lift := demo.lift.put 0 (some {}) }, 0, {}, by
    refine ⟨?_, ?_, ?_, ?_, ?_⟩ <;> first | exact ⟨by decide, by decide, rfl⟩ | decide +kernel | rfl | exact demo_day | exact demoLift_day | (simp [demo, State.reset]; done)⟩

theorem witness_PortAttach_7 : ∃ (s : State) (p : Port) (b : Probe) (bytes : List Byte), (s.switchedUp) ∧ (s.probing p = some b) ∧ (b.step = .p2) ∧ (b.waitLink = false) :=
  ⟨{ demo with ports := demo.ports.upd 0 (fun x => { x with st := .probe, line := true }), lift := demo.lift.put 0 (some { probe := some { step := .p2 } }) }, 0, { step := .p2 }, [], by
    refine ⟨⟨by decide, by decide, rfl⟩, by simp [demo, State.reset, State.probing], rfl, rfl⟩⟩

theorem witness_PortAttach_8 : ∃ (s : State) (p : Port) (b : Probe), (s.switchedUp) ∧ (s.probing p = some b) ∧ (b.retried = false) :=
  ⟨{ demo with ports := demo.ports.upd 0 (fun x => { x with st := .probe, line := true }), lift := demo.lift.put 0 (some { probe := some { step := .p2 } }) }, 0, { step := .p2 }, by
    refine ⟨⟨by decide, by decide, rfl⟩, by simp [demo, State.reset, State.probing], rfl⟩⟩

theorem witness_PortAttach_9 : ∃ (s : State) (p : Port) (b : Probe), (s.switchedUp) ∧ (s.probing p = some b) ∧ (b.retried = true) ∧ (b.refetch = false) ∧ ((s.ports.get p).dataMode ≠ .lift ∨ b.second = true) :=
  ⟨{ demo with ports := demo.ports.upd 0 (fun x => { x with st := .probe, line := true }), lift := demo.lift.put 0 (some { probe := some { step := .p2, retried := true } }) }, 0, { step := .p2, retried := true }, by
    refine ⟨⟨by decide, by decide, rfl⟩, by simp [demo, State.reset, State.probing], rfl, rfl, .inl (by simp [demo, State.reset])⟩⟩

theorem witness_PortAttach_10 : ∃ (s : State) (p : Port) (b : Probe), (s.switchedUp) ∧ (s.probing p = some b) :=
  ⟨{ demo with ports := demo.ports.upd 0 (fun x => { x with st := .probe, line := true }), lift := demo.lift.put 0 (some { probe := some { step := .p2, retried := true } }) }, 0, { step := .p2, retried := true }, by
    refine ⟨⟨by decide, by decide, rfl⟩, by simp [demo, State.reset, State.probing]⟩⟩

theorem witness_PortAttach_11 : ∃ (s : State) (p : Port) (gen2 : Bool), (s.switchedUp) ∧ (ssCapable p = true) ∧ ((s.ports.get p).st = .idle) ∧ (dataModeAttaches (s.ports.get p).dataMode = true) ∧ ((s.ports.get p).line = false) ∧ (s.possible p = true) ∧ (s.ssActive (s.partOf.get p) = true) :=
  ⟨{ demo with parts := demo.parts.upd 0 (fun x => { x with st := .connected }), ups := demo.ups.upd 0 (fun u => { u with ssSide := .active }) }, 0, true, by
    refine ⟨⟨by decide, by decide, rfl⟩, rfl, by simp [demo, State.reset], by simp [demo, State.reset, dataModeAttaches], by simp [demo, State.reset], by decide +kernel, by decide +kernel⟩⟩

theorem witness_PortAttach_12 : ∃ (s : State) (p : Port), (s.switchedUp) ∧ ((s.ports.get p).st = .idle) ∧ (dataModeAttaches (s.ports.get p).dataMode = true) ∧ ((s.ports.get p).line = false) ∧ ((s.ports.get p).bcMode = .cdp) ∧ ((s.ports.get p).vdmSrc = false) :=
  ⟨demo, 0, by
    refine ⟨⟨by decide, by decide, rfl⟩, ?_, ?_, ?_, ?_, ?_⟩ <;> simp [demo, State.reset, dataModeAttaches]⟩

theorem witness_PortAttach_13 : ∃ (s : State) (p : Port), (s.switchedUp) ∧ ((s.ports.get p).vdmSrc = true) :=
  ⟨{ demo with ports := demo.ports.upd 0 (fun x => { x with vdmSrc := true }) }, 0, by
    refine ⟨?_, ?_⟩ <;> first | exact ⟨by decide, by decide, rfl⟩ | decide +kernel | rfl | exact demo_day | exact demoLift_day | (simp [demo, State.reset]; done)⟩

theorem witness_PortAttach_14 : ∃ (s : State) (p : Port), (s.switchedUp) ∧ ((s.ports.get p).st = .draining) ∧ (s.deliverable p = false) :=
  ⟨{ demo with ports := demo.ports.upd 0 (fun x => { x with st := .draining, path := .passthrough, reason := some .unplug }) }, 0, by
    refine ⟨⟨by decide, by decide, rfl⟩, by simp, ?_⟩
    unfold State.deliverable
    simp [demo, State.reset]⟩

theorem witness_PortAttach_15 : ∃ (s : State) (p : Port), (s.switchedUp) ∧ ((s.ports.get p).st = .draining) :=
  ⟨{ demoLift with ports := demoLift.ports.upd 0 (fun x => { x with st := .draining, reason := some .unplug }) }, 0, by
    refine ⟨⟨by decide, by decide, rfl⟩, by simp⟩⟩

theorem witness_PortAttach_16 : ∃ (s : State) (p : Port), (s.mode ≠ .off) ∧ ((s.vbus.get p).discharging = true) :=
  ⟨{ demo with vbus := demo.vbus.upd 0 (fun v => { v with discharging := true }) }, 0, by
    refine ⟨?_, ?_⟩ <;> first | exact ⟨by decide, by decide, rfl⟩ | decide +kernel | rfl | exact demo_day | exact demoLift_day | (simp [demo, State.reset]; done)⟩

theorem witness_HostPortResets_0 : ∃ (s : State) (k : Part) (i : Pos) (p : Port), (s.switchedUp) ∧ (s.hubReached k .usb2 (leafOf i) = true) ∧ (s.portAtPos k i = some p) ∧ ((s.ports.get p).shown = true) ∧ (sideOf (s.ports.get p).path = .usb2) ∧ ((s.ports.get p).st ∈ [.waitReset, .enabled, .suspended, .l1]) :=
  ⟨demoPassAs id, 0, 0, 0, by
    exact ⟨demoPassAs_up _, demoPassAs_reached _ _, demoPassAs_at _, by rw [demoPassAs_port]; rfl, by rw [demoPassAs_port]; rfl, by rw [demoPassAs_port]; decide⟩⟩

theorem witness_HostPortResets_1 : ∃ (s : State) (k : Part) (i : Pos) (r : HubReset) (p : Port), (s.switchedUp) ∧ (r ≠ .usb2) ∧ (s.hubReached k .superSpeed (leafOf i) = true) ∧ (s.portAtPos k i = some p) ∧ ((s.ports.get p).shown = true) ∧ ((s.ports.get p).path = .lifted) ∧ ((s.ports.get p).st ≠ .draining ∧ (s.ports.get p).st ≠ .quenched) :=
  ⟨demoLift, 0, 0, .bh, 0, by
    exact ⟨demoLift_up, by decide, demoLift_reached3 _, demoLift_at, by simp [demoLift], by simp [demoLift], by simp [demoLift]⟩⟩

theorem witness_HostPortResets_2 : ∃ (s : State) (k : Part) (i : Pos) (r : HubReset) (p : Port), (s.switchedUp) ∧ (r ≠ .usb2) ∧ (s.hubReached k .superSpeed (leafOf i) = true) ∧ (s.portAtPos k i = some p) ∧ ((s.ports.get p).shown = true) ∧ ((s.ports.get p).path = .native) ∧ ((s.ports.get p).st = .enabled) :=
  ⟨{ demoLift with ports := demoLift.ports.upd 0 (fun x => { x with path := .native }) }, 0, 0, .superSpeed, 0, by
    exact ⟨demoLift_up, by decide, demoLift_reached3 _, demoLift_at, by simp [demoLift], by simp [demoLift], by simp [demoLift]⟩⟩

theorem witness_HostPortResets_3 : ∃ (s : State) (p : Port) (found : FoundSpeed), (s.switchedUp) ∧ ((s.ports.get p).st = .resetting) ∧ ((s.ports.get p).ownReset = false) ∧ (s.lift.get p = none) ∧ ((s.ports.get p).path ≠ .extHub ∧ (s.ports.get p).path ≠ .native) ∧ ((s.ports.get p).quenchedFrom = none) :=
  ⟨demoPassAs (fun x => { x with st := .resetting }), 0, .full, by
    refine ⟨demoPassAs_up _, ?_, ?_, by simp [demoPassAs, demoPass, demo, State.reset], ?_, ?_⟩ <;> rw [demoPassAs_port] <;> simp [demo, State.reset]⟩

theorem witness_HostPortResets_4 : ∃ (s : State) (k : Part) (r : HubReset), (s.switchedUp) ∧ (s.hubHeard k r.side = true) ∧ (((s.treeOf k r.side).top.get 8).connected = true ∧ ((s.treeOf k r.side).top.get 8).powered = true) :=
  ⟨{ demoLift with u2Tree := demo.u2Tree.put 0 { freshTree with top := freshTree.top.put 8 (freshPort true) } }, 0, .usb2, by
    refine ⟨demoLift_up, ?_, by simp [HubReset.side, State.treeOf, freshPort]⟩
    exact demoLift_hub2⟩

theorem witness_HostPortResets_5 : ∃ (s : State) (k : Part) (r : HubReset) (n : Fin 9) (h : HubIx), (s.switchedUp) ∧ (s.hubHeard k r.side = true) ∧ (((s.treeOf k r.side).top.get n).connected = true ∧ ((s.treeOf k r.side).top.get n).powered = true) ∧ (n.val < 8) ∧ (h.val = n.val + 1) :=
  ⟨demoLift, 0, .usb2, 3, 4, by
    exact ⟨demoLift_up, demoLift_hub2, by first | (simp [State.treeOf, freshTree, freshPort, demoLift, HubReset.side]; done) | (simp [State.treeOf, freshTree, freshPort, demoLift, HubReset.side]; decide), by decide, rfl⟩⟩

theorem witness_HubRequests_0 : ∃ (s : State) (k : Part) (q : HubPort), (s.switchedUp) ∧ (s.hubReached k .usb2 (hubOf q) = true) :=
  ⟨demoLift, 0, .leaf 0, by
    exact ⟨demoLift_up, demoLift_reached2 _⟩⟩

theorem witness_HubRequests_1 : ∃ (s : State) (k : Part) (i : Pos), (s.switchedUp) ∧ (s.hubReached k .superSpeed (hubOf (.leaf i)) = true) ∧ (s.nativeAt k (.leaf i) = none) :=
  ⟨demoLift, 0, 0, by
    refine ⟨demoLift_up, demoLift_reached3 _, ?_⟩
    unfold State.nativeAt
    dsimp only
    rw [demoLift_at]
    simp [demoLift]⟩

theorem witness_HubRequests_2 : ∃ (s : State) (k : Part) (i : Pos), (s.switchedUp) ∧ (s.hubReached k .superSpeed (hubOf (.leaf i)) = true) ∧ (((s.ssTree.get k).leaf.get i).powered = false) ∧ (s.nativeAt k (.leaf i) = none) :=
  ⟨{ demoLift with ssTree := demo.ssTree.put 0 { freshTree with leaf := freshTree.leaf.upd 0 (fun v => { v with powered := false }) } }, 0, 0, by
    refine ⟨demoLift_up, ?_, by simp, ?_⟩
    · simp [State.hubReached, State.topOn, hubOf, State.hubHeard, State.ssActive, State.treeOf, demoLift, freshTree, freshPort]
      decide
    · unfold State.nativeAt
      dsimp only
      rw [show ({ demoLift with ssTree := demo.ssTree.put 0 { freshTree with leaf := freshTree.leaf.upd 0 (fun v => { v with powered := false }) } } : State).portAtPos 0 0 = some 0 from demoLift_at]
      simp [demoLift]⟩

theorem witness_HubRequests_3 : ∃ (s : State) (k : Part) (side : Side) (q : HubPort), (s.switchedUp) ∧ (s.hubReached k side (hubOf q) = true) :=
  ⟨demoLift, 0, .usb2, .leaf 0, by
    exact ⟨demoLift_up, demoLift_reached2 _⟩⟩

theorem witness_HubRequests_4 : ∃ (s : State) (k : Part) (i : Pos) (p : Port), (s.switchedUp) ∧ (s.hubReached k .usb2 (hubOf (.leaf i)) = true) ∧ (((s.u2Tree.get k).leaf.get i).enabled = true) ∧ (s.portAtPos k i = some p) ∧ ((s.ports.get p).st = .enabled) ∧ ((s.ports.get p).path ≠ .lifted) :=
  ⟨demoPassAs id, 0, 0, 0, by
    refine ⟨demoPassAs_up _, demoPassAs_reached _ _, by simp [demoPassAs, demoPass], demoPassAs_at _, ?_, ?_⟩ <;> rw [demoPassAs_port] <;> simp⟩

theorem witness_HubRequests_5 : ∃ (s : State) (k : Part) (i : Pos) (p : Port), (s.switchedUp) ∧ (s.hubReached k .usb2 (hubOf (.leaf i)) = true) ∧ (s.portAtPos k i = some p) ∧ ((s.ports.get p).st = .suspended) ∧ ((s.ports.get p).path ≠ .lifted) ∧ ((s.ports.get p).resumeK = false) :=
  ⟨demoPassAs (fun x => { x with st := .suspended }), 0, 0, 0, by
    refine ⟨demoPassAs_up _, demoPassAs_reached _ _, demoPassAs_at _, ?_, ?_, ?_⟩ <;> rw [demoPassAs_port] <;> simp [demo, State.reset]⟩

theorem witness_HubRequests_6 : ∃ (s : State) (k : Part) (i : Pos) (key : BitVec 16) (p : Port), (s.switchedUp) ∧ (s.hubReached k .usb2 (leafOf i) = true) ∧ (s.portAtPos k i = some p) :=
  ⟨demoPassAs id, 0, 0, 5, 0, by
    exact ⟨demoPassAs_up _, demoPassAs_reached _ _, demoPassAs_at _⟩⟩

theorem witness_HubRequests_7 : ∃ (s : State) (k : Part) (i : Pos) (p : Port), (s.switchedUp) ∧ (s.hubReached k .usb2 (leafOf i) = true) ∧ (s.portAtPos k i = some p) :=
  ⟨demoPassAs id, 0, 0, 0, by
    exact ⟨demoPassAs_up _, demoPassAs_reached _ _, demoPassAs_at _⟩⟩

theorem witness_HubRequests_8 : ∃ (s : State) (k : Part) (i : Pos), (s.switchedUp) ∧ (s.hubReached k .usb2 (leafOf i) = true) :=
  ⟨demoLift, 0, 0, by
    exact ⟨demoLift_up, demoLift_reached2 _⟩⟩

theorem witness_HubRequests_9 : ∃ (s : State) (k : Part) (side : Side) (h : HubIx) (r : Setup) (a : Bool), (s.switchedUp) ∧ (s.hubReached k side h = true) ∧ (r.bmRequestType = 0x00 ∧ r.bRequest = 5) :=
  ⟨demoLift, 0, .usb2, 0, { bmRequestType := 0, bRequest := 5, wValue := 3, wIndex := 0, wLength := 0 }, false, by
    exact ⟨demoLift_up, demoLift_reached2 _, rfl, rfl⟩⟩

theorem witness_HubRequests_10 : ∃ (s : State) (k : Part) (side : Side) (h : HubIx) (r : Setup) (a : Bool), (s.switchedUp) ∧ (s.hubReached k side h = true) ∧ (r.bmRequestType.toNat / 32 % 4 = 2 ∨ r.bmRequestType.toNat / 32 % 4 = 3) :=
  ⟨demoLift, 0, .usb2, 0, { bmRequestType := 0xC0, bRequest := 5, wValue := 3, wIndex := 0, wLength := 0 }, true, by
    exact ⟨demoLift_up, demoLift_reached2 _, .inl rfl⟩⟩

theorem witness_HubRequests_11 : ∃ (s : State) (k : Part) (i : Pos) (p : Port) (key : BitVec 16) (periodic : Bool) (bytes : List Byte), (s.switchedUp) ∧ (s.portAtPos k i = some p) ∧ ((s.ports.get p).path = .translated) ∧ ((s.ports.get p).st = .enabled) ∧ (ttRoom (s.ports.get p).tt periodic bytes.length = true) :=
  ⟨demoPassAs (fun x => { x with path := .translated, speed := .full }), 0, 0, 0, 7, false, [1, 2], by
    refine ⟨demoPassAs_up _, demoPassAs_at _, ?_, ?_, ?_⟩ <;> rw [demoPassAs_port] <;> simp [demo, State.reset, ttRoom]⟩

theorem witness_HubRequests_12 : ∃ (s : State) (k : Part) (i : Pos) (p : Port) (key : BitVec 16) (periodic : Bool) (bytes : List Byte), (s.switchedUp) ∧ (s.portAtPos k i = some p) ∧ ((s.ports.get p).path = .translated) ∧ ((s.ports.get p).st = .enabled) ∧ (ttRoom (s.ports.get p).tt periodic bytes.length = false) :=
  ⟨demoPassAs (fun x => { x with path := .translated, speed := .full, tt := List.replicate 4 { key := 7, periodic := false, bytes := [] } }), 0, 0, 0, 7, false, [1, 2], by
    refine ⟨demoPassAs_up _, demoPassAs_at _, ?_, ?_, ?_⟩ <;> rw [demoPassAs_port] <;> rfl⟩

theorem witness_HubRequests_13 : ∃ (s : State) (k : Part) (i : Pos) (p : Port) (key : BitVec 16), (s.switchedUp) ∧ (s.portAtPos k i = some p) ∧ ((s.ports.get p).path = .translated) ∧ ((s.ports.get p).st = .enabled) ∧ (∀ e ∈ (s.ports.get p).tt, e.lost = false) :=
  ⟨demoPassAs (fun x => { x with path := .translated, speed := .full }), 0, 0, 0, 7, by
    refine ⟨demoPassAs_up _, demoPassAs_at _, ?_, ?_, ?_⟩ <;> rw [demoPassAs_port] <;> simp [demo, State.reset]⟩

theorem witness_HubRequests_14 : ∃ (s : State) (k : Part) (i : Pos) (p : Port) (packet answer : List Byte) (lpmAck : Bool), (s.switchedUp) ∧ (s.portAtPos k i = some p) ∧ ((s.ports.get p).shown = true) ∧ ((s.ports.get p).path = .passthrough ∨ (s.ports.get p).path = .extHub) ∧ ((s.ports.get p).st = .enabled) ∧ (s.dieUp p = true) ∧ (answer ≠ []) :=
  ⟨demoPassAs id, 0, 0, 0, [1], [2], false, by
    refine ⟨demoPassAs_up _, demoPassAs_at _, ?_, .inl ?_, ?_, ?_, by decide⟩ <;> first | rfl | (rw [demoPassAs_port]; rfl)⟩

theorem witness_HubRequests_15 : ∃ (s : State) (p : Port) (d : Bool) (bytes l : List Byte), (s.switchedUp) ∧ ((s.ports.get p).path = .native) ∧ ((s.ports.get p).st = .enabled) ∧ (s.linkOf p = .u0) ∧ (((s.begin.useLink p).passBuffer (.native p d) bytes).2 = some l) :=
  ⟨{ demo with ports := demo.ports.upd 0 (fun x => { x with st := .enabled, path := .native }), ssTree := demo.ssTree.put 0 { freshTree with leaf := freshTree.leaf.upd 0 (fun v => { v with connected := true, link := .u0 }) } }, 0, true, [1, 2, 3], [1, 2, 3], by
    refine ⟨⟨by decide, by decide, rfl⟩, by simp, by simp, ?_, by decide +kernel⟩
    simp [State.linkOf, demo, State.reset]⟩

theorem witness_SuspendAndResume_0 : ∃ (s : State) (p : Port) (x : LiftPort), (s.switchedUp) ∧ (s.lift.get p = some x) ∧ (x.presented = true ∧ x.busSuspended = false) ∧ (s.linkOf p = .u3 ∨ x.allSuspended = true ∧ s.wasU3 p = false) ∧ ((s.ports.get p).st = .enabled) ∧ (x.conf.isSome = true ∧ bit x.attrs 5 = true ∧ x.functions.any (·.wake) = true) ∧ (s.dieUp p = true) :=
  ⟨demoU3 (fun x => { x with functions := [{ first := 0, suspended := true, wake := true }], asRead := { demoSet with configs := [[9, 2, 32, 0, 1, 1, 0, 0xA0, 50, 9, 4, 0, 0, 2, 8, 6, 0x50, 0, 7, 5, 0x81, 2, 0, 2, 0, 7, 5, 0x02, 2, 0, 2, 0]] } }) id .u3, 0, _, by
    exact ⟨demoU3_up _ _ _, demoU3_lift _ _ _, ⟨rfl, rfl⟩, .inl (demoU3_link _ _ _), by rw [demoU3_port]; rfl, by decide +kernel, rfl⟩⟩

theorem witness_SuspendAndResume_1 : ∃ (s : State) (p : Port) (x : LiftPort), (s.switchedUp) ∧ (s.lift.get p = some x) ∧ (x.presented = true ∧ x.busSuspended = false) ∧ (s.linkOf p = .u3 ∨ x.allSuspended = true ∧ s.wasU3 p = false) ∧ ((s.ports.get p).st = .enabled) ∧ (x.conf.isNone = true ∨ x.functions.any (·.wake) = false ∧ x.dsWake = false) ∧ (s.dieUp p = true) :=
  ⟨demoU3 id id .u3, 0, demoLifted, by
    exact ⟨demoU3_up _ _ _, demoU3_lift _ _ _, ⟨rfl, rfl⟩, .inl (demoU3_link _ _ _), by rw [demoU3_port]; rfl, .inr ⟨rfl, rfl⟩, rfl⟩⟩

theorem witness_SuspendAndResume_2 : ∃ (s : State) (p : Port) (x : LiftPort), (s.switchedUp) ∧ (s.lift.get p = some x) ∧ (x.busSuspended = true) ∧ (s.linkOf p ≠ .u3) ∧ (s.wasU3 p = true ∨ x.allSuspended = false) ∧ ((s.ports.get p).resumeK = false) :=
  ⟨demoU3 (fun x => { x with busSuspended := true }) (fun y => { y with st := .suspended }) .u0, 0, _, by
    exact ⟨demoU3_up _ _ _, demoU3_lift _ _ _, rfl, by rw [demoU3_link]; decide, .inr rfl, by rw [demoU3_port]; simp [demo, State.reset]⟩⟩

theorem witness_SuspendAndResume_3 : ∃ (s : State) (p : Port) (x : LiftPort), (s.switchedUp) ∧ (s.lift.get p = some x) ∧ ((s.ports.get p).resumeK = true) ∧ ((s.ports.get p).st = .suspended) :=
  ⟨demoU3 (fun x => { x with busSuspended := true }) (fun y => { y with st := .suspended, resumeK := true }) .u0, 0, _, by
    exact ⟨demoU3_up _ _ _, demoU3_lift _ _ _, by rw [demoU3_port], by rw [demoU3_port]⟩⟩

theorem witness_SuspendAndResume_4 : ∃ (s : State) (p : Port), (s.switchedUp) ∧ (s.lift.get p = none) ∧ ((s.ports.get p).resumeK = true) ∧ ((s.ports.get p).st = .suspended) :=
  ⟨{ demo with ports := demo.ports.upd 0 (fun x => { x with st := .suspended, path := .passthrough, resumeK := true }) }, 0, by
    refine ⟨?_, ?_, ?_, ?_⟩ <;> first | exact ⟨by decide, by decide, rfl⟩ | decide +kernel | rfl | exact demo_day | exact demoLift_day | (simp [demo, State.reset]; done)⟩

theorem witness_SuspendAndResume_5 : ∃ (s : State) (p : Port) (delta : BitVec 16) (x : LiftPort), (s.switchedUp) ∧ (s.daytime) ∧ (s.lift.get p = some x) ∧ (x.presented = true ∧ x.busSuspended = true ∧ x.dsWake = true ∧ x.hostExit = false) ∧ ((s.ports.get p).st ≠ .draining) ∧ ((s.ports.get p).resumeK = false) ∧ (s.linkOf p = .u3) ∧ ((s.ups.get (s.partOf.get p)).link = .u3) :=
  ⟨{ demoU3 armedLift (fun y => { y with st := .suspended }) .u3 with ups := demoLift.ups.upd 0 (fun u => { u with link := .u3 }) }, 0, 5, armedLift demoLifted, by
    refine ⟨?_, ?_, ?_, ?_, ?_, ?_, ?_, ?_⟩ <;> first | exact ⟨by decide, by decide, rfl⟩ | decide +kernel | rfl | exact demo_day | exact demoLift_day | (simp [demo, State.reset]; done)⟩

theorem witness_SuspendAndResume_6 : ∃ (s : State) (p : Port) (delta : BitVec 16) (x : LiftPort), (s.switchedUp) ∧ (s.daytime) ∧ (s.lift.get p = some x) ∧ (x.presented = true ∧ x.busSuspended = true ∧ x.dsWake = true ∧ x.hostExit = true) ∧ ((s.ports.get p).st ≠ .draining) ∧ ((s.ports.get p).resumeK = false) ∧ (s.linkOf p = .u3) :=
  ⟨demoU3 (fun x => { armedLift x with hostExit := true }) (fun y => { y with st := .suspended }) .u3, 0, 5, { armedLift demoLifted with hostExit := true }, by
    refine ⟨?_, ?_, ?_, ?_, ?_, ?_, ?_⟩ <;> first | exact ⟨by decide, by decide, rfl⟩ | decide +kernel | rfl | exact demo_day | exact demoLift_day | (simp [demo, State.reset]; done)⟩

theorem witness_SuspendAndResume_7 : ∃ (s : State) (p : Port) (delta : BitVec 16) (x : LiftPort), (s.switchedUp) ∧ (s.daytime) ∧ (s.lift.get p = some x) ∧ (x.presented = true ∧ x.busSuspended = true ∧ x.dsWake = false) ∧ ((s.ports.get p).st ≠ .draining) ∧ ((s.ports.get p).resumeK = false) :=
  ⟨demoU3 (fun x => { x with busSuspended := true }) (fun y => { y with st := .suspended }) .u3, 0, 5, _, by
    exact ⟨demoLift_up, demoLift_day, demoU3_lift _ _ _, ⟨rfl, rfl, rfl⟩, by rw [demoU3_port]; decide, by rw [demoU3_port]; simp [demo, State.reset]⟩⟩

theorem witness_SuspendAndResume_8 : ∃ (s : State) (p : Port) (x : LiftPort) (l : List Nat), (s.switchedUp) ∧ (s.daytime) ∧ (s.lift.get p = some x) ∧ (x.wake = some l) ∧ ((s.ports.get p).st ≠ .quenched) :=
  ⟨demoU3 (fun x => { x with busSuspended := true, dsWake := true, functions := [{ first := 0, suspended := true, wake := true }], wake := some [0] }) (fun y => { y with st := .suspended }) .u3, 0, _, [0], by
    exact ⟨demoLift_up, demoLift_day, demoU3_lift _ _ _, rfl, by rw [demoU3_port]; decide⟩⟩

theorem witness_SuspendAndResume_9 : ∃ (s : State) (p : Port) (delta : BitVec 16) (x : LiftPort) (l : List Nat), (s.switchedUp) ∧ (s.lift.get p = some x) ∧ (x.wake = some l) :=
  ⟨demoU3 (fun x => { x with busSuspended := true, dsWake := true, functions := [{ first := 0, suspended := true, wake := true }], wake := some [0] }) (fun y => { y with st := .suspended }) .u3, 0, 5, _, [0], by
    exact ⟨demoLift_up, demoU3_lift _ _ _, rfl⟩⟩

theorem witness_SuspendAndResume_10 : ∃ (s : State) (p : Port) (x : LiftPort), (s.switchedUp) ∧ (s.lift.get p = some x) ∧ (x.presented = true ∧ x.busSuspended = false ∧ x.dsWake = false) ∧ (x.functions.any (·.wake) = false) ∧ (s.linkOf p = .u3) ∧ ((s.ports.get p).st = .enabled) ∧ (s.dieUp p = true) :=
  ⟨demoU3 id id .u3, 0, demoLifted, by
    exact ⟨demoU3_up _ _ _, demoU3_lift _ _ _, ⟨rfl, rfl, rfl⟩, rfl, demoU3_link _ _ _, by rw [demoU3_port]; rfl, rfl⟩⟩

theorem witness_SuspendAndResume_11 : ∃ (s : State) (p : Port) (x : LiftPort), (s.switchedUp) ∧ (s.lift.get p = some x) ∧ (s.busMoves p = true) ∧ ((s.ports.get p).l1Enable = true) ∧ (bit x.lpmAttrs 1 = true) ∧ (x.ctl = none) ∧ (x.ctxs.all (fun c => c.kind == .bulk) = true) ∧ (beslUs.getD x.besl.val 0 + 50 ≤ (s.parts.get (s.partOf.get p)).latBudget) :=
  ⟨{ demoU3 lpmLift id .u0 with parts := demoLift.parts.upd 0 (fun x => { x with latBudget := 10000 }) }, 0, lpmLift demoLifted, by
    refine ⟨?_, ?_, ?_, ?_, ?_, ?_, ?_, ?_⟩ <;> first | exact ⟨by decide, by decide, rfl⟩ | decide +kernel | rfl | exact demo_day | exact demoLift_day | (simp [demo, State.reset]; done)⟩

theorem witness_SuspendAndResume_12 : ∃ (s : State) (p : Port) (x : LiftPort), (s.switchedUp) ∧ (s.lift.get p = some x) ∧ ((s.ports.get p).l1Enable = false ∨ bit x.lpmAttrs 1 = false ∨ x.ctl.isSome = true ∨ x.ctxs.any (fun c => c.kind != .bulk) = true) :=
  ⟨demoU3 id id .u0, 0, demoLifted, by
    exact ⟨demoLift_up, demoU3_lift _ _ _, .inr (.inl (by decide +kernel))⟩⟩

theorem witness_SuspendAndResume_13 : ∃ (s : State) (p : Port), (s.switchedUp) ∧ ((s.ports.get p).st = .l1) :=
  ⟨demoU3 id (fun y => { y with st := .l1 }) .u0, 0, by
    exact ⟨demoLift_up, by rw [demoU3_port]⟩⟩

theorem witness_SuspendAndResume_14 : ∃ (s : State) (p : Port), (s.switchedUp) ∧ ((s.ports.get p).st = .enabled) ∧ ((s.ports.get p).path = .passthrough ∨ (s.ports.get p).path = .translated) :=
  ⟨{ demo with ports := demo.ports.upd 0 (fun x => { x with st := .enabled, path := .passthrough, shown := true }) }, 0, by
    refine ⟨?_, ?_, ?_⟩ <;> first | exact ⟨by decide, by decide, rfl⟩ | decide +kernel | rfl | exact demo_day | exact demoLift_day | (simp [demo, State.reset]; done)⟩

theorem witness_SuspendAndResume_15 : ∃ (s : State) (p : Port), (s.switchedUp) ∧ ((s.ports.get p).st = .enabled) ∧ ((s.ports.get p).path = .lifted) ∧ ((s.ports.get p).ownReset = false) :=
  ⟨demoLift, 0, by
    refine ⟨demoLift_up, ?_, ?_, ?_⟩ <;> simp [demoLift, demo, State.reset]⟩

theorem witness_StandardRequests_0 : ∃ (s : State) (p : Port) (x : LiftPort) (index len : BitVec 16), (s.switchedUp) ∧ (s.stands p x) :=
  ⟨demoLift, 0, demoLifted, 0, 2, by
    exact ⟨demoLift_up, demoLift_stands⟩⟩

theorem witness_StandardRequests_1 : ∃ (s : State) (p : Port) (x : LiftPort) (index len : BitVec 16), (s.switchedUp) ∧ (s.stands p x) :=
  ⟨demoLift, 0, demoLifted, 0, 2, by
    exact ⟨demoLift_up, demoLift_stands⟩⟩

theorem witness_StandardRequests_2 : ∃ (s : State) (p : Port) (x : LiftPort) (index len : BitVec 16) (c : EpCtx), (s.switchedUp) ∧ (s.stands p x) ∧ (index.toNat % 128 ≠ 0) ∧ (x.ctxs.find? (·.addr == BitVec.ofNat 8 index.toNat) = some c) :=
  ⟨demoLift, 0, demoLifted, 0x81, 2, demoIn, by
    exact ⟨demoLift_up, demoLift_stands, by decide, by decide⟩⟩

theorem witness_StandardRequests_3 : ∃ (s : State) (p : Port) (x : LiftPort) (ep : Byte), (s.switchedUp) ∧ (s.stands p x) ∧ ((x.ctxs.find? (·.addr == ep)).any (·.localClear) = false) :=
  ⟨demoLift, 0, demoLifted, 0x81, by
    exact ⟨demoLift_up, demoLift_stands, by decide⟩⟩

theorem witness_StandardRequests_4 : ∃ (s : State) (p : Port) (x : LiftPort) (ep : Byte), (s.switchedUp) ∧ (s.stands p x) ∧ ((x.ctxs.find? (·.addr == ep)).any (·.localClear) = true) :=
  ⟨{ demoLift with lift := demo.lift.put 0 (some { demoLifted with ctxs := [{ demoIn with localClear := true, halted := true }] }) }, 0, { demoLifted with ctxs := [{ demoIn with localClear := true, halted := true }] }, 0x81, by
    exact ⟨demoLift_up, ⟨Tab.get_put_same _ _ _, rfl, rfl, rfl, rfl, rfl, by simp [demoLift], by simp [demoLift], rfl⟩, by decide⟩⟩

theorem witness_StandardRequests_5 : ∃ (s : State) (p : Port) (x : LiftPort) (a b : Byte) (len lang : BitVec 16), (s.switchedUp) ∧ (s.stands p x) :=
  ⟨demoLift, 0, demoLifted, 1, 0, 0, 0, by
    exact ⟨demoLift_up, demoLift_stands⟩⟩

theorem witness_StandardRequests_6 : ∃ (s : State) (p : Port) (x : LiftPort) (i : Byte) (susp wake : Bool), (s.switchedUp) ∧ (s.stands p x) ∧ (x.functions.any (·.first == i.toNat) = true) :=
  ⟨{ demoLift with lift := demo.lift.put 0 (some { demoLifted with functions := [{ first := 0 }] }) }, 0, { demoLifted with functions := [{ first := 0 }] }, 0, true, true, by
    exact ⟨demoLift_up, ⟨Tab.get_put_same _ _ _, rfl, rfl, rfl, rfl, rfl, by simp [demoLift], by simp [demoLift], rfl⟩, by decide⟩⟩

theorem witness_StandardRequests_7 : ∃ (s : State) (p : Port) (x : LiftPort) (u2 on : Bool), (s.switchedUp) ∧ (s.stands p x) :=
  ⟨demoLift, 0, demoLifted, true, true, by
    exact ⟨demoLift_up, demoLift_stands⟩⟩

theorem witness_StandardRequests_8 : ∃ (s : State) (p : Port) (x : LiftPort) (a : Byte), (s.switchedUp) ∧ (s.stands p x) :=
  ⟨demoLift, 0, demoLifted, 1, by
    exact ⟨demoLift_up, demoLift_stands⟩⟩

theorem witness_StandardRequests_9 : ∃ (s : State) (p : Port) (x : LiftPort) (on : Bool), (s.switchedUp) ∧ (s.stands p x) :=
  ⟨demoLift, 0, demoLifted, true, by
    exact ⟨demoLift_up, demoLift_stands⟩⟩

theorem witness_StandardRequests_10 : ∃ (s : State) (p : Port) (x : LiftPort) (a : BitVec 7), (s.switchedUp) ∧ (s.stands p x) :=
  ⟨demoLift, 0, demoLifted, 9, by
    exact ⟨demoLift_up, demoLift_stands⟩⟩

theorem witness_StandardRequests_11 : ∃ (s : State) (p : Port) (x : LiftPort) (lang len : BitVec 16) (i : Byte) (c : List Byte), (s.switchedUp) ∧ (s.stands p x) ∧ (x.asRead.present.configs[i.toNat]? = some c) :=
  ⟨demoLift, 0, demoLifted, 0, 9, 0, (demoSet.present.configs[0]?).getD [], by
    exact ⟨demoLift_up, demoLift_stands, by decide +kernel⟩⟩

theorem witness_StandardRequests_12 : ∃ (s : State) (p : Port) (x : LiftPort) (lang len : BitVec 16) (i : Byte), (s.switchedUp) ∧ (s.stands p x) :=
  ⟨demoLift, 0, demoLifted, 0x409, 255, 1, by
    exact ⟨demoLift_up, demoLift_stands⟩⟩

theorem witness_StandardRequests_13 : ∃ (s : State) (p : Port) (x : LiftPort) (i : Byte), (s.switchedUp) ∧ (s.stands p x) ∧ (x.hasIface i.toNat = true) :=
  ⟨demoLift, 0, demoLifted, 0, by
    exact ⟨demoLift_up, demoLift_stands, by decide +kernel⟩⟩

theorem witness_StandardRequests_14 : ∃ (s : State) (p : Port) (x : LiftPort) (l : List Byte) (v : BitVec 16), (s.switchedUp) ∧ (s.stands p x) ∧ (l.length = 6) :=
  ⟨demoLift, 0, demoLifted, [1, 2, 3, 4, 5, 6], 40, by
    exact ⟨demoLift_up, demoLift_stands, rfl⟩⟩

theorem witness_StandardRequests_15 : ∃ (s : State) (p : Port) (x : LiftPort) (r : Setup), (s.switchedUp) ∧ (s.stands p x) ∧ (r.type = 0) ∧ (13 ≤ r.bRequest.toNat ∧ r.bRequest.toNat ≠ 48 ∧ r.bRequest.toNat ≠ 49) :=
  ⟨demoLift, 0, demoLifted, { bmRequestType := 0x80, bRequest := 20, wValue := 0, wIndex := 0, wLength := 0 }, by
    exact ⟨demoLift_up, demoLift_stands, by decide, by decide⟩⟩

theorem witness_StandardRequests_16 : ∃ (s : State) (p : Port) (x : LiftPort) (r : Setup), (s.switchedUp) ∧ (s.stands p x) ∧ (r.type ≠ 0) :=
  ⟨demoLift, 0, demoLifted, { bmRequestType := 0x21, bRequest := 0xFF, wValue := 0, wIndex := 0, wLength := 0 }, by
    exact ⟨demoLift_up, demoLift_stands, by decide⟩⟩

theorem witness_ControlTransfers_0 : ∃ (s : State) (p : Port) (x : LiftPort) (t : CtlXfer) (bytes : List Byte), (s.switchedUp) ∧ (s.lift.get p = some x) ∧ (x.ctl = some t) ∧ (t.req.isRead = false ∧ t.req.wLength ≠ 0 ∧ t.ended = false) ∧ (1024 < t.moved - t.sent + bytes.length) :=
  ⟨liftWith (fun x => { x with ctl := some { req := { bmRequestType := 0x21, bRequest := 1, wValue := 0, wIndex := 0, wLength := 2000 }, stage := .dataOut, moved := 1024 } }), 0, { demoLifted with ctl := some { req := { bmRequestType := 0x21, bRequest := 1, wValue := 0, wIndex := 0, wLength := 2000 }, stage := .dataOut, moved := 1024 } }, { req := { bmRequestType := 0x21, bRequest := 1, wValue := 0, wIndex := 0, wLength := 2000 }, stage := .dataOut, moved := 1024 }, [1], by
    exact ⟨liftWith_up _, liftWith_lift _, rfl, by decide, by decide⟩⟩

theorem witness_ControlTransfers_1 : ∃ (s : State) (p : Port) (x : LiftPort) (t : CtlXfer) (bytes : List Byte), (s.switchedUp) ∧ (s.lift.get p = some x) ∧ (x.ctl = some t) ∧ (t.req.isRead = false ∧ t.ended = false ∧ t.stage = .dataOut) ∧ (s.hostMoves p = true) ∧ (bytes.length = 512) ∧ (t.sent < t.moved ∧ t.moved - t.sent ≤ 512) ∧ (t.moved + 512 < t.req.wLength.toNat) :=
  ⟨liftWith (fun x => { x with ctl := some { req := { bmRequestType := 0x21, bRequest := 1, wValue := 0, wIndex := 0, wLength := 2000 }, stage := .dataOut, moved := 512 } }), 0, { demoLifted with ctl := some { req := { bmRequestType := 0x21, bRequest := 1, wValue := 0, wIndex := 0, wLength := 2000 }, stage := .dataOut, moved := 512 } }, { req := { bmRequestType := 0x21, bRequest := 1, wValue := 0, wIndex := 0, wLength := 2000 }, stage := .dataOut, moved := 512 }, List.replicate 512 0, by
    exact ⟨liftWith_up _, liftWith_lift _, rfl, by decide, by decide +kernel, List.length_replicate, by decide, by decide⟩⟩

theorem witness_ControlTransfers_2 : ∃ (s : State) (p : Port) (x : LiftPort) (t : CtlXfer), (s.switchedUp) ∧ (s.lift.get p = some x) ∧ (x.ctl = some t) ∧ (t.stage = .dataIn) ∧ (t.wire = true ∧ s.busMoves p = true) :=
  ⟨liftWith (fun x => { x with ctl := some { req := { bmRequestType := 0xA1, bRequest := 1, wValue := 0, wIndex := 0, wLength := 20 }, stage := .dataIn, wire := true } }), 0, { demoLifted with ctl := some { req := { bmRequestType := 0xA1, bRequest := 1, wValue := 0, wIndex := 0, wLength := 20 }, stage := .dataIn, wire := true } }, { req := { bmRequestType := 0xA1, bRequest := 1, wValue := 0, wIndex := 0, wLength := 20 }, stage := .dataIn, wire := true }, by
    exact ⟨liftWith_up _, liftWith_lift _, rfl, rfl, rfl, by decide +kernel⟩⟩

theorem witness_ControlTransfers_3 : ∃ (s : State) (p : Port) (x : LiftPort) (t : CtlXfer), (s.switchedUp) ∧ (s.lift.get p = some x) ∧ (x.ctl = some t) ∧ (t.stage = .dataIn) ∧ (t.errors < 2 ∧ t.wire = true ∧ s.busMoves p = true) :=
  ⟨liftWith (fun x => { x with ctl := some { req := { bmRequestType := 0xA1, bRequest := 1, wValue := 0, wIndex := 0, wLength := 20 }, stage := .dataIn, wire := true } }), 0, { demoLifted with ctl := some { req := { bmRequestType := 0xA1, bRequest := 1, wValue := 0, wIndex := 0, wLength := 20 }, stage := .dataIn, wire := true } }, { req := { bmRequestType := 0xA1, bRequest := 1, wValue := 0, wIndex := 0, wLength := 20 }, stage := .dataIn, wire := true }, by
    exact ⟨liftWith_up _, liftWith_lift _, rfl, rfl, by decide, rfl, by decide +kernel⟩⟩

theorem witness_ControlTransfers_4 : ∃ (s : State) (p : Port) (x : LiftPort) (t : CtlXfer), (s.switchedUp) ∧ (s.lift.get p = some x) ∧ (x.ctl = some t) ∧ (t.stage = .dataIn) ∧ (t.wire = true ∧ s.busMoves p = true) :=
  ⟨liftWith (fun x => { x with ctl := some { req := { bmRequestType := 0xA1, bRequest := 1, wValue := 0, wIndex := 0, wLength := 20 }, stage := .dataIn, wire := true } }), 0, { demoLifted with ctl := some { req := { bmRequestType := 0xA1, bRequest := 1, wValue := 0, wIndex := 0, wLength := 20 }, stage := .dataIn, wire := true } }, { req := { bmRequestType := 0xA1, bRequest := 1, wValue := 0, wIndex := 0, wLength := 20 }, stage := .dataIn, wire := true }, by
    exact ⟨liftWith_up _, liftWith_lift _, rfl, rfl, rfl, by decide +kernel⟩⟩

theorem witness_ControlTransfers_5 : ∃ (s : State) (p : Port) (x : LiftPort) (t : CtlXfer) (bytes : List Byte), (s.switchedUp) ∧ (s.lift.get p = some x) ∧ (x.ctl = some t) ∧ (t.stage = .status) ∧ (t.wire = true ∧ s.busMoves p = true ∧ s.hostMoves p = true) :=
  ⟨liftWith (fun x => { x with ctl := some { req := { bmRequestType := 0xA1, bRequest := 1, wValue := 0, wIndex := 0, wLength := 20 }, stage := .status, wire := true } }), 0, { demoLifted with ctl := some { req := { bmRequestType := 0xA1, bRequest := 1, wValue := 0, wIndex := 0, wLength := 20 }, stage := .status, wire := true } }, { req := { bmRequestType := 0xA1, bRequest := 1, wValue := 0, wIndex := 0, wLength := 20 }, stage := .status, wire := true }, [], by
    exact ⟨liftWith_up _, liftWith_lift _, rfl, rfl, rfl, by decide +kernel, by decide +kernel⟩⟩

theorem witness_ControlTransfers_6 : ∃ (s : State) (p : Port) (x : LiftPort) (t : CtlXfer) (bytes : List Byte), (s.switchedUp) ∧ (s.lift.get p = some x) ∧ (x.ctl = some t) ∧ (t.stage = .status) ∧ (t.wire = true ∧ s.wireEnds p = true) :=
  ⟨(liftWith (fun x => { x with ctl := some { req := { bmRequestType := 0xA1, bRequest := 1, wValue := 0, wIndex := 0, wLength := 20 }, stage := .status, wire := true } })).updPort 0 (fun x => { x with st := .quenched }), 0, { demoLifted with ctl := some { req := { bmRequestType := 0xA1, bRequest := 1, wValue := 0, wIndex := 0, wLength := 20 }, stage := .status, wire := true } }, { req := { bmRequestType := 0xA1, bRequest := 1, wValue := 0, wIndex := 0, wLength := 20 }, stage := .status, wire := true }, [], by
    exact ⟨by exact (liftWith_up id), (by rw [State.updPort_lift]; exact liftWith_lift _), rfl, rfl, rfl, by decide +kernel⟩⟩

theorem witness_ControlTransfers_7 : ∃ (s : State) (p : Port) (x : LiftPort) (t : CtlXfer) (r : XferResult), (s.switchedUp) ∧ (s.lift.get p = some x) ∧ (x.ctl = some t) ∧ (t.stage = .status) ∧ (t.wire = true ∧ s.busMoves p = true) ∧ (r = .stall ∨ (r = .busError ∧ t.errors = 2)) :=
  ⟨liftWith (fun x => { x with ctl := some { req := { bmRequestType := 0xA1, bRequest := 1, wValue := 0, wIndex := 0, wLength := 20 }, stage := .status, wire := true } }), 0, { demoLifted with ctl := some { req := { bmRequestType := 0xA1, bRequest := 1, wValue := 0, wIndex := 0, wLength := 20 }, stage := .status, wire := true } }, { req := { bmRequestType := 0xA1, bRequest := 1, wValue := 0, wIndex := 0, wLength := 20 }, stage := .status, wire := true }, .stall, by
    exact ⟨liftWith_up _, liftWith_lift _, rfl, rfl, ⟨rfl, by decide +kernel⟩, .inl rfl⟩⟩

theorem witness_BulkAndPeriodicData_0 : ∃ (s : State) (l : List Periodic), (s.switchedUp) ∧ (s.liftedPorts = []) ∧ ((s.microframe + 1).toNat % 8 ≠ 0) :=
  ⟨demo, [], by
    exact ⟨⟨by decide, by decide, rfl⟩, by simp [State.liftedPorts, demo, State.reset], by decide⟩⟩

theorem witness_BulkAndPeriodicData_1 : ∃ (s : State) (l : List Periodic), (s.switchedUp) ∧ ((s.microframe + 1).toNat % 8 = 0) :=
  ⟨{ demo with microframe := 7 }, [], by
    refine ⟨?_, ?_⟩ <;> first | exact ⟨by decide, by decide, rfl⟩ | decide +kernel | rfl | exact demo_day | exact demoLift_day | (simp [demo, State.reset]; done)⟩

theorem witness_BulkAndPeriodicData_2 : ∃ (s : State) (p : Port) (a : Byte) (x : LiftPort) (c : EpCtx) (bytes : List Byte), (s.switchedUp) ∧ (s.lift.get p = some x) ∧ (x.ctxs.find? (·.addr == a) = some c) ∧ (isIn a = true ∧ c.kind = .bulk) ∧ (s.inTokens p c = true) :=
  ⟨liftWith (fun x => { x with ctxs := [{ demoIn with interest := true }] }), 0, 0x81, { demoLifted with ctxs := [{ demoIn with interest := true }] }, { demoIn with interest := true }, [], by
    exact ⟨liftWith_up _, liftWith_lift _, by decide, by decide, by decide +kernel⟩⟩

theorem witness_BulkAndPeriodicData_3 : ∃ (s : State) (p : Port) (a : Byte) (x : LiftPort) (c : EpCtx), (s.switchedUp) ∧ (s.lift.get p = some x) ∧ (x.ctxs.find? (·.addr == a) = some c) ∧ (isIn a = true ∧ c.kind = .bulk) ∧ (s.inTokens p c = true) ∧ (c.window ≠ 0) :=
  ⟨liftWith (fun x => { x with ctxs := [{ demoIn with interest := true }] }), 0, 0x81, { demoLifted with ctxs := [{ demoIn with interest := true }] }, { demoIn with interest := true }, by
    exact ⟨liftWith_up _, liftWith_lift _, by decide, by decide, by decide +kernel, by decide⟩⟩

theorem witness_BulkAndPeriodicData_4 : ∃ (s : State) (p : Port) (a : Byte) (x : LiftPort) (c : EpCtx), (s.switchedUp) ∧ (s.lift.get p = some x) ∧ (s.ctx p a = some c) ∧ (isIn a = true ∧ c.kind = .bulk ∧ c.pair = .half ∧ c.mode = .hold) ∧ (s.inTokens p c = true) :=
  ⟨liftWith (fun x => { x with ctxs := [{ demoIn with interest := true, pair := .half }] }), 0, 0x81, { demoLifted with ctxs := [{ demoIn with interest := true, pair := .half }] }, { demoIn with interest := true, pair := .half }, by
    exact ⟨liftWith_up _, liftWith_lift _, by decide +kernel, by decide, by decide +kernel⟩⟩

theorem witness_BulkAndPeriodicData_5 : ∃ (s : State) (p : Port) (a : Byte) (n : Fin 32) (x : LiftPort) (c : EpCtx), (s.switchedUp) ∧ (s.lift.get p = some x) ∧ (s.ctx p a = some c) ∧ (x.presented = true ∧ isIn a = true) ∧ (s.hostMoves p = true) ∧ (c.kind ≠ .isochronous ∧ c.ready = [] ∧ c.poisoned = false ∧ c.halted = false ∧ c.stall = false) :=
  ⟨demoLift, 0, 0x81, 1, demoLifted, demoIn, by
    exact ⟨demoLift_up, demoLift_lift, by decide +kernel, by decide, by decide +kernel, by decide⟩⟩

theorem witness_BulkAndPeriodicData_6 : ∃ (s : State) (p : Port) (a : Byte) (n : Fin 32) (x : LiftPort) (c : EpCtx), (s.switchedUp) ∧ (s.lift.get p = some x) ∧ (s.ctx p a = some c) ∧ (x.presented = true ∧ isIn a = true) ∧ (s.hostMoves p = true) ∧ (c.kind ≠ .isochronous ∧ c.ready = []) ∧ (c.poisoned = true ∨ c.halted = true ∨ c.stall = true) :=
  ⟨liftWith (fun x => { x with ctxs := [{ demoIn with halted := true }] }), 0, 0x81, 1, { demoLifted with ctxs := [{ demoIn with halted := true }] }, { demoIn with halted := true }, by
    exact ⟨liftWith_up _, liftWith_lift _, by decide +kernel, by decide, by decide +kernel, by decide, by decide⟩⟩

theorem witness_BulkAndPeriodicData_7 : ∃ (s : State) (p : Port) (a : Byte) (bytes : List Byte) (x : LiftPort) (c : EpCtx), (s.switchedUp) ∧ (s.lift.get p = some x) ∧ (s.ctx p a = some c) ∧ (x.presented = true ∧ isIn a = false ∧ c.kind = .bulk) ∧ (s.hostMoves p = true) ∧ (c.poisoned = false ∧ c.halted = false ∧ c.stall = false) ∧ (s.epRoom p a < 1024) :=
  ⟨{ demoLift with rings := [{ owner := .endpoint 0 0x02, rows := [(0, 43), (0, 44)], wr := 2000, rd := 0 }] }, 0, 0x02, [1], demoLifted, demoOut, by
    exact ⟨demoLift_up, demoLift_lift, by decide +kernel, by decide, by decide +kernel, by decide, by decide +kernel⟩⟩

theorem witness_BulkAndPeriodicData_8 : ∃ (s : State) (p : Port) (a : Byte) (bytes : List Byte) (x : LiftPort) (c : EpCtx), (s.switchedUp) ∧ (s.lift.get p = some x) ∧ (s.ctx p a = some c) ∧ (x.presented = true ∧ isIn a = false ∧ c.kind = .bulk) ∧ (s.hostMoves p = true) ∧ (c.poisoned = false ∧ c.halted = false ∧ c.stall = false) ∧ (1024 ≤ s.epRoom p a) ∧ (c.fresh = false ∧ c.out ≠ []) :=
  ⟨liftWith (fun x => { x with ctxs := [{ demoOut with fresh := false, out := [(512, false)] }] }), 0, 0x02, [1], { demoLifted with ctxs := [{ demoOut with fresh := false, out := [(512, false)] }] }, { demoOut with fresh := false, out := [(512, false)] }, by
    exact ⟨liftWith_up _, liftWith_lift _, by decide +kernel, by decide, by decide +kernel, by decide, by decide +kernel, by decide⟩⟩

theorem witness_BulkAndPeriodicData_9 : ∃ (s : State) (p : Port) (a : Byte) (c : EpCtx) (e : Nat × Bool) (l : List (Nat × Bool)), (s.switchedUp) ∧ (a ≠ 0 ∧ isIn a = false) ∧ (s.ctx p a = some c) ∧ (c.out = e :: l) ∧ (c.kind = .bulk ∧ c.poisoned = false) :=
  ⟨liftWith (fun x => { x with ctxs := [{ demoOut with fresh := false, out := [(512, false)] }] }), 0, 0x02, { demoOut with fresh := false, out := [(512, false)] }, (512, false), [], by
    exact ⟨liftWith_up _, by decide, by decide +kernel, rfl, by decide⟩⟩

theorem witness_BulkAndPeriodicData_10 : ∃ (s : State) (p : Port) (a : Byte) (c : EpCtx) (e : Nat × Bool) (l : List (Nat × Bool)), (s.switchedUp) ∧ (a ≠ 0 ∧ isIn a = false) ∧ (s.ctx p a = some c) ∧ (c.out = e :: l) ∧ (c.kind = .bulk ∧ c.poisoned = false ∧ c.pingNext = false) ∧ (e.1 ≠ 0) :=
  ⟨liftWith (fun x => { x with ctxs := [{ demoOut with fresh := false, out := [(512, false)] }] }), 0, 0x02, { demoOut with fresh := false, out := [(512, false)] }, (512, false), [], by
    exact ⟨liftWith_up _, by decide, by decide +kernel, rfl, by decide, by decide⟩⟩

theorem witness_BulkAndPeriodicData_11 : ∃ (s : State) (p : Port) (a : Byte) (c : EpCtx), (s.switchedUp) ∧ (a ≠ 0 ∧ isIn a = false) ∧ (s.ctx p a = some c) ∧ (c.poisoned = false) :=
  ⟨demoLift, 0, 0x02, demoOut, by
    exact ⟨demoLift_up, by decide, by decide +kernel, rfl⟩⟩

theorem witness_BulkAndPeriodicData_12 : ∃ (s : State) (p : Port) (a : Byte), (s.switchedUp) :=
  ⟨demoLift, 0, 0x81, by
    exact demoLift_up⟩

theorem witness_BulkAndPeriodicData_13 : ∃ (s : State) (p : Port) (a : Byte) (bytes : List Byte) (x : LiftPort) (c : EpCtx), (s.switchedUp) ∧ (s.lift.get p = some x) ∧ (s.ctx p a = some c) ∧ (x.presented = true ∧ isIn a = false ∧ c.kind = .interrupt) ∧ (s.hostMoves p = true) ∧ (c.poisoned = false ∧ c.halted = false ∧ c.stall = false) ∧ (bytes.length ≤ s.epRoom p a) :=
  ⟨liftWith (fun x => { x with ctxs := [{ demoOut with kind := .interrupt, mps := 64 }] }), 0, 0x02, [1], { demoLifted with ctxs := [{ demoOut with kind := .interrupt, mps := 64 }] }, { demoOut with kind := .interrupt, mps := 64 }, by
    exact ⟨liftWith_up _, liftWith_lift _, by decide +kernel, by decide, by decide +kernel, by decide, by decide +kernel⟩⟩

theorem witness_BulkAndPeriodicData_14 : ∃ (s : State) (p : Port) (a : Byte) (bytes : List Byte) (c : EpCtx), (s.switchedUp) ∧ (s.ctx p a = some c) ∧ (isIn a = false ∧ c.kind = .isochronous ∧ c.poisoned = false ∧ c.halted = false ∧ c.stall = false) ∧ (s.hostMoves p = true) ∧ (c.lastB ≠ some s.microframe.toNat) ∧ (bytes.length ≤ s.epRoom p a) :=
  ⟨liftWith (fun x => { x with ctxs := [{ demoOut with kind := .isochronous, mps := 64 }] }), 0, 0x02, [1], { demoOut with kind := .isochronous, mps := 64 }, by
    exact ⟨liftWith_up _, by decide +kernel, by decide, by decide +kernel, by decide, by decide +kernel⟩⟩

theorem witness_BulkAndPeriodicData_15 : ∃ (s : State) (p : Port) (a : Byte) (bytes : List Byte) (bad : Bool) (c : EpCtx), (s.switchedUp) ∧ (s.ctx p a = some c) ∧ (isIn a = false ∧ c.kind = .isochronous ∧ c.poisoned = false ∧ c.halted = false ∧ c.stall = false) ∧ (s.hostMoves p = true) ∧ (c.lastB = some s.microframe.toNat) :=
  ⟨liftWith (fun x => { x with ctxs := [{ demoOut with kind := .isochronous, mps := 64, lastB := some 0 }] }), 0, 0x02, [1], false, { demoOut with kind := .isochronous, mps := 64, lastB := some 0 }, by
    exact ⟨liftWith_up _, by decide +kernel, by decide, by decide +kernel, by decide +kernel⟩⟩

theorem witness_BulkAndPeriodicData_16 : ∃ (s : State) (jobs l r : List UpJob) (j : UpJob), (s.pickJob jobs = some (l, j, r)) :=
  ⟨demo, [{ what := .mf 0, left := 1, fresh := true }], [], [], { what := .mf 0, left := 1, fresh := true }, by
    rfl⟩

theorem witness_BankControllerRows_0 : ∃ (s : State) (b : Bank) (word : Nat) (e : MergeEntry) (u : State) (r : WordRead), (s.switchedUp) ∧ ((s.banks.get b).merge.find? (·.word == word) = some e) ∧ (e.mask ≠ 0xFFFF) ∧ ((s.begin.updBank b (fun x => { x with merge := x.merge.filter (·.word != e.word), mergeRmw := satAdd 32 x.mergeRmw 1 })).readWord b (e.word / 64) (e.word % 64) = (u, r)) ∧ (r.cls.lost = false) :=
  ⟨{ demo with banks := demo.banks.upd 0 (fun b => { b with filled := true, merge := [{ word := 5, bytes := 7, mask := 1 }] }) }, 0, 5, { word := 5, bytes := 7, mask := 1 }, _, _, by
    refine ⟨⟨by decide, by decide, rfl⟩, by decide +kernel, by decide, rfl, by decide +kernel⟩⟩

theorem witness_BankControllerRows_1 : ∃ (s : State) (b : Bank) (word : Nat) (e : MergeEntry), (s.switchedUp) ∧ ((s.banks.get b).merge.find? (·.word == word) = some e) ∧ (e.mask = 0xFFFF) :=
  ⟨{ demo with banks := demo.banks.upd 0 (fun b => { b with filled := true, merge := [{ word := 5, bytes := 7, mask := 0xFFFF }] }) }, 0, 5, { word := 5, bytes := 7, mask := 0xFFFF }, by
    refine ⟨⟨by decide, by decide, rfl⟩, by decide +kernel, rfl⟩⟩

theorem witness_BankControllerRows_2 : ∃ (s : State) (b : Bank) (queued : Bool) (u : State) (r : WordRead), (s.switchedUp) ∧ (s.scrubRuns b = true) ∧ (s.begin.readWord b ((s.banks.get b).scrubAt / 64) ((s.banks.get b).scrubAt % 64) = (u, r)) ∧ (r.cls = .clean) :=
  ⟨{ demo with banks := demo.banks.upd 0 (fun b => { b with filled := true }) }, 0, false, _, _, by
    refine ⟨⟨by decide, by decide, rfl⟩, by decide +kernel, rfl, by decide +kernel⟩⟩

theorem witness_BankControllerRows_3 : ∃ (s : State) (b : Bank) (u : State) (r : WordRead) (i : Nat), (s.switchedUp) ∧ (s.scrubRuns b = true) ∧ (s.begin.readWord b ((s.banks.get b).scrubAt / 64) ((s.banks.get b).scrubAt % 64) = (u, r)) ∧ (r.cls = .correctable i) ∧ ((s.banks.get b).merge.any (·.word == (s.banks.get b).scrubAt) = false) :=
  ⟨{ demo with banks := demo.banks.upd 0 (fun b => { b with filled := true }), cells := [(0, 1)] }, 0, _, _, 0, by
    refine ⟨⟨by decide, by decide, rfl⟩, by decide +kernel, rfl, by decide +kernel, by decide +kernel⟩⟩

theorem witness_BankControllerRows_4 : ∃ (s : State), (s.switchedUp) ∧ (∀ b, s.domains.get (quarterDom (quarterOf b)) ≠ .retention ∧ s.domains.get (quarterDom (quarterOf b)) ≠ .off) :=
  ⟨demo, by
    refine ⟨⟨by decide, by decide, rfl⟩, fun b => ?_⟩
    rw [show demo.domains = Tab.const 25 .on from rfl, Tab.get_const]
    decide⟩

theorem witness_BankControllerRows_5 : ∃ (s : State) (b : Bank) (row : Nat) (r : Ring), (s.switchedUp) ∧ (s.rings.find? (fun r => r.rows.contains (b, row)) = some r) ∧ ((s.banks.get b).closed = true) ∧ (r.rowBusy (r.rows.idxOf (b, row)) = false) :=
  ⟨{ demo with rings := [{ owner := .control 0, rows := [(0, 40)], wr := 0, rd := 0 }], banks := demo.banks.upd 0 (fun b => { b with filled := true, closed := true }) }, 0, 40, { owner := .control 0, rows := [(0, 40)], wr := 0, rd := 0 }, by
    refine ⟨⟨by decide, by decide, rfl⟩, by decide +kernel, by decide +kernel, by decide +kernel⟩⟩

theorem witness_BankControllerRows_6 : ∃ (s : State) (b : Bank) (row : Nat) (r : Ring), (s.switchedUp) ∧ (s.rings.find? (fun r => r.rows.contains (b, row)) = some r) ∧ ((s.banks.get b).closed = true) ∧ (r.rowBusy (r.rows.idxOf (b, row)) = true) :=
  ⟨{ demo with rings := [{ owner := .control 0, rows := [(0, 40)], wr := 20, rd := 0 }], banks := demo.banks.upd 0 (fun b => { b with filled := true, closed := true }) }, 0, 40, { owner := .control 0, rows := [(0, 40)], wr := 20, rd := 0 }, by
    refine ⟨⟨by decide, by decide, rfl⟩, by decide +kernel, by decide +kernel, by decide +kernel⟩⟩

theorem witness_TypeCTransitions_0 : ∃ (s : State) (p : Port) (c1 c2 : CcLine), (s.mode ≠ .off) ∧ ((s.pd.get p).tc = .unattached ∧ (s.pd.get p).settling = false) ∧ (attachPattern { s.pd.get p with cc1 := c1, cc2 := c2 } = true) :=
  ⟨pdAs (fun x => { x with tc := .unattached, cc1 := .open }), 0, .rd, .open, by
    refine ⟨?_, ?_, ?_⟩ <;> first | exact ⟨by decide, by decide, rfl⟩ | decide +kernel | rfl | exact demo_day | exact demoLift_day | (simp [demo, State.reset]; done)⟩

theorem witness_TypeCTransitions_1 : ∃ (s : State) (p : Port), (s.mode ≠ .off) ∧ ((s.pd.get p).tc = .attachWait) ∧ ((s.pd.get p).cc1 ≠ .open ∨ (s.pd.get p).cc2 ≠ .open) :=
  ⟨pdAs (fun x => { x with tc := .attachWait }), 0, by
    refine ⟨?_, ?_, ?_⟩ <;> first | exact ⟨by decide, by decide, rfl⟩ | decide +kernel | rfl | exact demo_day | exact demoLift_day | (simp [demo, State.reset]; done)⟩

theorem witness_TypeCTransitions_2 : ∃ (s : State) (p : Port), (s.daytime) ∧ (s.mode ≠ .off) ∧ ((s.pd.get p).tc = .attachWait) ∧ (((s.pd.get p).cc1 = .rd) ≠ ((s.pd.get p).cc2 = .rd)) ∧ (s.fw.paused = false) :=
  ⟨pdAs (fun x => { x with tc := .attachWait }), 0, by
    refine ⟨demoPd_day, by decide, by decide +kernel, ?_, rfl⟩
    rw [show ((pdAs (fun x => { x with tc := .attachWait })).pd.get 0).cc1 = .rd from by decide +kernel, show ((pdAs (fun x => { x with tc := .attachWait })).pd.get 0).cc2 = .open from by decide +kernel]
    simp⟩

theorem witness_TypeCTransitions_3 : ∃ (s : State) (p : Port), (s.daytime) ∧ (s.mode ≠ .off) ∧ ((s.pd.get p).tc = .attachWait ∧ (s.pd.get p).cc1 = .ra ∧ (s.pd.get p).cc2 = .ra) :=
  ⟨pdAs (fun x => { x with tc := .attachWait, cc1 := .ra, cc2 := .ra }), 0, by
    exact ⟨demoPd_day, by decide, by decide +kernel⟩⟩

theorem witness_TypeCTransitions_4 : ∃ (s : State) (p : Port), (s.daytime) ∧ (s.mode ≠ .off) ∧ ((s.pd.get p).tc = .attached) ∧ ((if (s.pd.get p).orientation then (s.pd.get p).cc2 else (s.pd.get p).cc1) ≠ .rd) :=
  ⟨pdAs (fun x => { x with cc1 := .open }), 0, by
    exact ⟨demoPd_day, by decide, by decide +kernel, by decide +kernel⟩⟩

theorem witness_TypeCTransitions_5 : ∃ (s : State) (p : Port), (s.mode ≠ .off) ∧ ((s.pd.get p).tc = .unsupportedAcc) ∧ ((s.pd.get p).cc1 = .open ∧ (s.pd.get p).cc2 ≠ .rd) :=
  ⟨pdAs (fun x => { x with tc := .unsupportedAcc, cc1 := .open, cc2 := .ra }), 0, by
    refine ⟨?_, ?_, ?_⟩ <;> first | exact ⟨by decide, by decide, rfl⟩ | decide +kernel | rfl | exact demo_day | exact demoLift_day | (simp [demo, State.reset]; done)⟩

theorem witness_TypeCTransitions_6 : ∃ (s : State) (p : Port), (s.mode ≠ .off) ∧ ((s.pd.get p).tc = .attached ∧ (s.pd.get p).vconnOn = true) :=
  ⟨pdAs (fun x => { x with vconnOn := true }), 0, by
    refine ⟨?_, ?_⟩ <;> first | exact ⟨by decide, by decide, rfl⟩ | decide +kernel | rfl | exact demo_day | exact demoLift_day | (simp [demo, State.reset]; done)⟩

theorem witness_TypeCTransitions_7 : ∃ (s : State) (p : Port), (s.mode ≠ .off) ∧ ((s.pd.get p).tc = .errorRecovery) ∧ (s.atVSafe0V p = true) :=
  ⟨{ pdAs (fun x => { x with tc := .errorRecovery }) with vbus := demo.vbus }, 0, by
    refine ⟨?_, ?_, ?_⟩ <;> first | exact ⟨by decide, by decide, rfl⟩ | decide +kernel | rfl | exact demo_day | exact demoLift_day | (simp [demo, State.reset]; done)⟩

theorem witness_PdSequences_0 : ∃ (s : State) (p : Port), (s.switchedUp) ∧ (s.pdRuns p = true) ∧ (ssCapable p = true ∧ (s.pd.get p).vconnOn = true ∧ (s.pd.get p).cableDone = false ∧ (s.pd.get p).discoverTries < 3) ∧ ((s.pd.get p).tx = none ∧ (s.pd.get p).expect = none ∧ (s.pd.get p).hr = none ∧ s.vbusGood p = true) :=
  ⟨{ pdAs (fun x => { x with vconnOn := true }) with vbus := demo.vbus.upd 0 (fun v => { v with applied := 0x8064 }) }, 0, by
    refine ⟨?_, ?_, ?_, ?_⟩ <;> first | exact ⟨by decide, by decide, rfl⟩ | decide +kernel | rfl | exact demo_day | exact demoLift_day | (simp [demo, State.reset]; done)⟩

theorem witness_PdSequences_1 : ∃ (s : State) (p : Port), (s.switchedUp) ∧ (s.pdRuns p = true) ∧ ((s.pd.get p).capsStopped = false ∧ (s.pd.get p).notPd = false ∧ (s.pd.get p).hr = none) ∧ (s.vbusGood p = true) :=
  ⟨{ demoPd with vbus := demo.vbus.upd 0 (fun v => { v with applied := 0x8064 }) }, 0, by
    refine ⟨?_, ?_, ?_, ?_⟩ <;> first | exact ⟨by decide, by decide, rfl⟩ | decide +kernel | rfl | exact demo_day | exact demoLift_day | (simp [demo, State.reset]; done)⟩

theorem witness_PdSequences_2 : ∃ (s : State) (p : Port), (s.switchedUp) ∧ (s.pdRuns p = true) ∧ (0 < (s.pd.get p).capsCount ∧ (s.pd.get p).capsStopped = false ∧ hasExplicit (s.pd.get p) = false) ∧ ((s.pd.get p).tx = none ∧ (s.pd.get p).expect = none ∧ s.vbusGood p = true) :=
  ⟨{ pdAs (fun x => { x with capsCount := 1 }) with vbus := demo.vbus.upd 0 (fun v => { v with applied := 0x8064 }) }, 0, by
    refine ⟨?_, ?_, ?_, ?_⟩ <;> first | exact ⟨by decide, by decide, rfl⟩ | decide +kernel | rfl | exact demo_day | exact demoLift_day | (simp [demo, State.reset]; done)⟩

theorem witness_PdSequences_3 : ∃ (s : State) (p : Port) (sop : Fin 5) (size : Fin 300), (s.switchedUp) ∧ (refusesSop (s.queues.get (slotOf p)) (posInSlot p).castSucc = false) :=
  ⟨demoPd, 0, 0, 6, by
    refine ⟨?_, ?_⟩ <;> first | exact ⟨by decide, by decide, rfl⟩ | decide +kernel | rfl | exact demo_day | exact demoLift_day | (simp [demo, State.reset]; done)⟩

theorem witness_PdSequences_4 : ∃ (s : State) (p : Port) (sop : Fin 5) (size : Fin 300), (s.switchedUp) ∧ (refusesSop (s.queues.get (slotOf p)) (posInSlot p).castSucc = true) :=
  ⟨{ demoPd with queues := demo.queues.upd 0 (fun q => { q with rx := q.rx.put 0 (some { sop := 0, size := 2, time := 0, bytes := [1, 2], whole := true, overrun := false, hwAnswered := false, forwarded := false, raise := false, withheld := false }) }) }, 0, 0, 6, by
    refine ⟨?_, ?_⟩ <;> first | exact ⟨by decide, by decide, rfl⟩ | decide +kernel | rfl | exact demo_day | exact demoLift_day | (simp [demo, State.reset]; done)⟩

theorem witness_PdSequences_5 : ∃ (s : State) (p : Port) (sop : Fin 5) (b : List Byte) (m : RxMsg), (s.switchedUp) ∧ ((s.queues.get (slotOf p)).rx.get (posInSlot p).castSucc = some m) ∧ (m.whole = false ∧ m.withheld = false) ∧ ((s.pd.get p).cfg.pdEnable = true ∧ (s.pd.get p).tc = .attached) ∧ (s.mode ≠ .dawn) ∧ ((s.pd.get p).rxId.get sop = some (pdId b)) ∧ (isControl b 13 = false) :=
  ⟨{ pdAs (fun x => { x with rxId := x.rxId.put 0 (some 1) }) with queues := demo.queues.upd 0 (fun q => { q with order := [.message 0], placed := true, rx := q.rx.put 0 (some { sop := 0, size := 2, time := 0, bytes := [], whole := false, overrun := false, hwAnswered := false, forwarded := false, raise := false, withheld := false }) }) }, 0, 0, [0x42, 0x12], { sop := 0, size := 2, time := 0, bytes := [], whole := false, overrun := false, hwAnswered := false, forwarded := false, raise := false, withheld := false }, by
    refine ⟨?_, ?_, ?_, ?_, ?_, ?_, ?_⟩ <;> first | exact ⟨by decide, by decide, rfl⟩ | decide +kernel | rfl | exact demo_day | exact demoLift_day | (simp [demo, State.reset]; done)⟩

theorem witness_PdSequences_6 : ∃ (s : State) (p : Port) (o : PdOut), (s.switchedUp) ∧ ((s.pd.get p).tx = some o) ∧ (o.purpose = .answer) :=
  ⟨pdAs (fun x => { x with tx := some { sop := 0, bytes := [0x64, 0x01], purpose := .answer, tries := 0 } }), 0, { sop := 0, bytes := [0x64, 0x01], purpose := .answer, tries := 0 }, by
    refine ⟨?_, ?_, ?_⟩ <;> first | exact ⟨by decide, by decide, rfl⟩ | decide +kernel | rfl | exact demo_day | exact demoLift_day | (simp [demo, State.reset]; done)⟩

theorem witness_PdSequences_7 : ∃ (s : State) (p : Port) (o : PdOut), (s.switchedUp) ∧ ((s.pd.get p).tx = some o) ∧ (o.purpose = .caps) :=
  ⟨pdAs (fun x => { x with tx := some { sop := 0, bytes := [0x61, 0x11], purpose := .caps, tries := 0 } }), 0, { sop := 0, bytes := [0x61, 0x11], purpose := .caps, tries := 0 }, by
    refine ⟨?_, ?_, ?_⟩ <;> first | exact ⟨by decide, by decide, rfl⟩ | decide +kernel | rfl | exact demo_day | exact demoLift_day | (simp [demo, State.reset]; done)⟩

theorem witness_PdSequences_8 : ∃ (s : State) (p : Port) (o : PdOut), (s.switchedUp) ∧ ((s.pd.get p).tx = some o) ∧ (o.tries < 2 ∧ (s.pd.get p).cfg.pdEnable = true) :=
  ⟨pdAs (fun x => { x with tx := some { sop := 0, bytes := [0x61, 0x11], purpose := .caps, tries := 0 } }), 0, { sop := 0, bytes := [0x61, 0x11], purpose := .caps, tries := 0 }, by
    refine ⟨?_, ?_, ?_⟩ <;> first | exact ⟨by decide, by decide, rfl⟩ | decide +kernel | rfl | exact demo_day | exact demoLift_day | (simp [demo, State.reset]; done)⟩

theorem witness_PdSequences_9 : ∃ (s : State) (p : Port) (o : PdOut), (s.switchedUp) ∧ ((s.pd.get p).tx = some o) ∧ (2 ≤ o.tries) ∧ (o.purpose = .softReset) :=
  ⟨pdAs (fun x => { x with tx := some { sop := 0, bytes := [0x61, 0x11], purpose := .softReset, tries := 2 } }), 0, { sop := 0, bytes := [0x61, 0x11], purpose := .softReset, tries := 2 }, by
    refine ⟨?_, ?_, ?_, ?_⟩ <;> first | exact ⟨by decide, by decide, rfl⟩ | decide +kernel | rfl | exact demo_day | exact demoLift_day | (simp [demo, State.reset]; done)⟩

theorem witness_PdSequences_10 : ∃ (s : State) (p : Port) (f : Forwarded), (s.switchedUp) ∧ ((s.pd.get p).fwd = some f) ∧ ((s.pd.get p).tx = none ∧ (s.pd.get p).arriving = false ∧ (s.pd.get p).cfg.pdEnable = true) :=
  ⟨pdAs (fun x => { x with fwd := some { sop := 0, bytes := [0x42, 0x10, 0, 0, 0, 0], request := none } }), 0, { sop := 0, bytes := [0x42, 0x10, 0, 0, 0, 0], request := none }, by
    refine ⟨?_, ?_, ?_⟩ <;> first | exact ⟨by decide, by decide, rfl⟩ | decide +kernel | rfl | exact demo_day | exact demoLift_day | (simp [demo, State.reset]; done)⟩

theorem witness_PdSequences_11 : ∃ (s : State) (p : Port) (w : WaitRetry), (s.switchedUp) ∧ ((s.pd.get p).retry = some w) ∧ (w.waiting = true) :=
  ⟨pdAs (fun x => { x with retry := some { out := { sop := 0, bytes := [0x61, 0x11], purpose := .retry, tries := 0 }, retries := 1, waiting := true } }), 0, { out := { sop := 0, bytes := [0x61, 0x11], purpose := .retry, tries := 0 }, retries := 1, waiting := true }, by
    refine ⟨?_, ?_, ?_⟩ <;> first | exact ⟨by decide, by decide, rfl⟩ | decide +kernel | rfl | exact demo_day | exact demoLift_day | (simp [demo, State.reset]; done)⟩

theorem witness_PdSequences_12 : ∃ (s : State) (p : Port) (o : PdOut) (l : List PdOut), (s.switchedUp) ∧ ((s.pd.get p).pending = o :: l) ∧ ((s.pd.get p).sinkTxNg = true ∧ (s.pd.get p).engaged = false) :=
  ⟨pdAs (fun x => { x with pending := [{ sop := 0, bytes := [0x61, 0x11], purpose := .caps, tries := 0 }], sinkTxNg := true }), 0, { sop := 0, bytes := [0x61, 0x11], purpose := .caps, tries := 0 }, [], by
    refine ⟨?_, ?_, ?_⟩ <;> first | exact ⟨by decide, by decide, rfl⟩ | decide +kernel | rfl | exact demo_day | exact demoLift_day | (simp [demo, State.reset]; done)⟩

theorem witness_PdSequences_13 : ∃ (s : State) (p : Port), (s.switchedUp) ∧ ((s.pd.get p).expect = some .request ∨ (s.pd.get p).expect = some .acceptOfReset) :=
  ⟨pdAs (fun x => { x with expect := some .request }), 0, by
    refine ⟨?_, ?_⟩ <;> first | exact ⟨by decide, by decide, rfl⟩ | decide +kernel | rfl | exact demo_day | exact demoLift_day | (simp [demo, State.reset]; done)⟩

theorem witness_PdSequences_14 : ∃ (s : State) (p : Port), (s.switchedUp) ∧ (s.pdRuns p = true) ∧ (2 ≤ (s.pd.get p).hardResets ∧ hasExplicit (s.pd.get p) = false) :=
  ⟨pdAs (fun x => { x with hardResets := 2 }), 0, by
    refine ⟨?_, ?_, ?_⟩ <;> first | exact ⟨by decide, by decide, rfl⟩ | decide +kernel | rfl | exact demo_day | exact demoLift_day | (simp [demo, State.reset]; done)⟩

theorem witness_PdSequences_15 : ∃ (s : State) (p : Port), (s.switchedUp) ∧ (s.pdRuns p = true) ∧ ((s.pd.get p).hardResets = 1 ∧ hasExplicit (s.pd.get p) = false) :=
  ⟨pdAs (fun x => { x with hardResets := 1 }), 0, by
    refine ⟨?_, ?_, ?_⟩ <;> first | exact ⟨by decide, by decide, rfl⟩ | decide +kernel | rfl | exact demo_day | exact demoLift_day | (simp [demo, State.reset]; done)⟩

theorem witness_PdSequences_16 : ∃ (s : State) (p : Port) (c : Contract), (s.switchedUp) ∧ ((s.pd.get p).contract = .explicit c) ∧ (c.pps = true) ∧ (s.pdRuns p = true) :=
  ⟨pdAs (fun x => { x with contract := .explicit { position := 2, rdo := 0, mv := 5000, ma := 1000, pps := true } }), 0, { position := 2, rdo := 0, mv := 5000, ma := 1000, pps := true }, by
    refine ⟨?_, ?_, ?_, ?_⟩ <;> first | exact ⟨by decide, by decide, rfl⟩ | decide +kernel | rfl | exact demo_day | exact demoLift_day | (simp [demo, State.reset]; done)⟩

theorem witness_ContractTransitionsAndHardReset_0 : ∃ (s : State) (p : Port) (t : Transition), (s.switchedUp) ∧ ((s.pd.get p).trans = some t) ∧ (t.step = .srcTransition ∧ t.noChange = false) :=
  ⟨pdAs (fun x => { x with trans := some { goal := { position := 2, rdo := 0, mv := 9000, ma := 1000, pps := false }, step := .srcTransition, noChange := false } }), 0, { goal := { position := 2, rdo := 0, mv := 9000, ma := 1000, pps := false }, step := .srcTransition, noChange := false }, by
    refine ⟨?_, ?_, ?_⟩ <;> first | exact ⟨by decide, by decide, rfl⟩ | decide +kernel | rfl | exact demo_day | exact demoLift_day | (simp [demo, State.reset]; done)⟩

theorem witness_ContractTransitionsAndHardReset_1 : ∃ (s : State) (p : Port) (t : Transition), (s.switchedUp) ∧ ((s.pd.get p).trans = some t) ∧ (t.step = .srcTransition ∧ t.noChange = true) :=
  ⟨pdAs (fun x => { x with trans := some { goal := { position := 2, rdo := 0, mv := 9000, ma := 1000, pps := false }, step := .srcTransition, noChange := true } }), 0, { goal := { position := 2, rdo := 0, mv := 9000, ma := 1000, pps := false }, step := .srcTransition, noChange := true }, by
    refine ⟨?_, ?_, ?_⟩ <;> first | exact ⟨by decide, by decide, rfl⟩ | decide +kernel | rfl | exact demo_day | exact demoLift_day | (simp [demo, State.reset]; done)⟩

theorem witness_ContractTransitionsAndHardReset_2 : ∃ (s : State) (p : Port) (t : Transition), (s.switchedUp) ∧ ((s.pd.get p).trans = some t) ∧ (t.step = .pgood ∧ (s.vbus.get p).awaitPgood = false) ∧ ((s.pd.get p).arriving = false) :=
  ⟨pdAs (fun x => { x with trans := some { goal := { position := 2, rdo := 0, mv := 9000, ma := 1000, pps := false }, step := .pgood, noChange := false } }), 0, { goal := { position := 2, rdo := 0, mv := 9000, ma := 1000, pps := false }, step := .pgood, noChange := false }, by
    refine ⟨?_, ?_, ?_, ?_⟩ <;> first | exact ⟨by decide, by decide, rfl⟩ | decide +kernel | rfl | exact demo_day | exact demoLift_day | (simp [demo, State.reset]; done)⟩

theorem witness_ContractTransitionsAndHardReset_3 : ∃ (s : State) (p : Port) (t : Transition), (s.switchedUp) ∧ ((s.pd.get p).trans = some t) ∧ (t.step = .pgood ∧ (s.vbus.get p).awaitPgood = true) :=
  ⟨{ pdAs (fun x => { x with trans := some { goal := { position := 2, rdo := 0, mv := 9000, ma := 1000, pps := false }, step := .pgood, noChange := false } }) with vbus := demo.vbus.upd 0 (fun v => { v with awaitPgood := true }) }, 0, { goal := { position := 2, rdo := 0, mv := 9000, ma := 1000, pps := false }, step := .pgood, noChange := false }, by
    refine ⟨?_, ?_, ?_⟩ <;> first | exact ⟨by decide, by decide, rfl⟩ | decide +kernel | rfl | exact demo_day | exact demoLift_day | (simp [demo, State.reset]; done)⟩

theorem witness_ContractTransitionsAndHardReset_4 : ∃ (s : State) (p : Port), (s.switchedUp) ∧ (s.mode ≠ .dawn) ∧ ((s.pd.get p).tc = .attached ∧ (s.pd.get p).cfg.pdEnable = true) :=
  ⟨demoPd, 0, by
    refine ⟨?_, ?_, ?_⟩ <;> first | exact ⟨by decide, by decide, rfl⟩ | decide +kernel | rfl | exact demo_day | exact demoLift_day | (simp [demo, State.reset]; done)⟩

theorem witness_ContractTransitionsAndHardReset_5 : ∃ (s : State) (p : Port), (s.switchedUp) ∧ ((s.pd.get p).hr = some .reset) ∧ ((s.powerLinks.get (dieOf p)).up = true) :=
  ⟨pdAs (fun x => { x with hr := some .reset }), 0, by
    refine ⟨?_, ?_, ?_⟩ <;> first | exact ⟨by decide, by decide, rfl⟩ | decide +kernel | rfl | exact demo_day | exact demoLift_day | (simp [demo, State.reset]; done)⟩

theorem witness_ContractTransitionsAndHardReset_6 : ∃ (s : State) (p : Port), (s.switchedUp) ∧ ((s.pd.get p).hr = some .recover) :=
  ⟨pdAs (fun x => { x with hr := some .recover }), 0, by
    refine ⟨?_, ?_⟩ <;> first | exact ⟨by decide, by decide, rfl⟩ | decide +kernel | rfl | exact demo_day | exact demoLift_day | (simp [demo, State.reset]; done)⟩

theorem witness_ContractTransitionsAndHardReset_7 : ∃ (s : State) (p : Port), (s.switchedUp) ∧ ((s.pd.get p).expect = some .partnerPsRdy) :=
  ⟨pdAs (fun x => { x with expect := some .partnerPsRdy }), 0, by
    refine ⟨?_, ?_⟩ <;> first | exact ⟨by decide, by decide, rfl⟩ | decide +kernel | rfl | exact demo_day | exact demoLift_day | (simp [demo, State.reset]; done)⟩

theorem witness_ContractTransitionsAndHardReset_8 : ∃ (s : State) (p : Port), (s.switchedUp) ∧ ((s.powerLinks.get (dieOf p)).up = true) ∧ ((s.pd.get p).vconnReturn = true ∧ (s.pd.get p).tc = .attached) :=
  ⟨pdAs (fun x => { x with vconnReturn := true }), 0, by
    refine ⟨?_, ?_, ?_⟩ <;> first | exact ⟨by decide, by decide, rfl⟩ | decide +kernel | rfl | exact demo_day | exact demoLift_day | (simp [demo, State.reset]; done)⟩

theorem witness_ContractTransitionsAndHardReset_9 : ∃ (s : State) (k : Slot) (w : BitVec 77) (l : List (BitVec 77)), (s.switchedUp) ∧ (s.fw.paused = false) ∧ ((s.queues.get k).drain = w :: l) ∧ (s.fault.injections.find? (fun i => i.source.toNat == 0x150 + k.val) = none) ∧ (queueClass (queueSyndrome w) = .clean) :=
  ⟨{ demoPd with queues := demo.queues.upd 0 (fun q => { q with drain := [0] }) }, 0, 0, [], by
    refine ⟨?_, ?_, ?_, ?_, ?_⟩ <;> first | exact ⟨by decide, by decide, rfl⟩ | decide +kernel | rfl | exact demo_day | exact demoLift_day | (simp [demo, State.reset]; done)⟩

theorem witness_ContractTransitionsAndHardReset_10 : ∃ (s : State) (k : Slot) (w : BitVec 77) (l : List (BitVec 77)), (s.switchedUp) ∧ (s.fw.paused = false) ∧ ((s.queues.get k).drain = w :: l) ∧ (s.fault.injections.find? (fun i => i.source.toNat == 0x150 + k.val) = none) ∧ (queueClass (queueSyndrome w) = .multiple) :=
  ⟨{ demoPd with queues := demo.queues.upd 0 (fun q => { q with drain := [3] }) }, 0, 3, [], by
    refine ⟨?_, ?_, ?_, ?_, ?_⟩ <;> first | exact ⟨by decide, by decide, rfl⟩ | decide +kernel | rfl | exact demo_day | exact demoLift_day | (simp [demo, State.reset]; done)⟩

theorem witness_SlotStates_0 : ∃ (s : State) (k : Slot), (s.mode ≠ .off) ∧ (s.daytime) ∧ ((s.slots.get k).st = .empty) :=
  ⟨demo, 0, by
    refine ⟨?_, ?_, ?_⟩ <;> first | exact ⟨by decide, by decide, rfl⟩ | decide +kernel | rfl | exact demo_day | exact demoLift_day | (simp [demo, State.reset]; done)⟩

theorem witness_SlotStates_1 : ∃ (s : State) (k : Slot), (s.mode ≠ .off) ∧ (s.daytime) ∧ ((s.slots.get k).st = .seating ∨ (s.slots.get k).st = .idle ∨ (s.slots.get k).st = .cooldown) :=
  ⟨slotAs (fun x => { x with st := .idle }), 0, by
    refine ⟨?_, ?_, ?_⟩ <;> first | exact ⟨by decide, by decide, rfl⟩ | decide +kernel | rfl | exact demo_day | exact demoLift_day | (simp [demo, State.reset]; done)⟩

theorem witness_SlotStates_2 : ∃ (s : State) (k : Slot), (s.mode ≠ .off) ∧ (s.daytime) ∧ ((s.slots.get k).st = .ramp ∨ (s.slots.get k).st = .pgWait ∨ (s.slots.get k).st = .on) :=
  ⟨slotAs (fun x => { x with st := .on }), 0, by
    refine ⟨?_, ?_, ?_⟩ <;> first | exact ⟨by decide, by decide, rfl⟩ | decide +kernel | rfl | exact demo_day | exact demoLift_day | (simp [demo, State.reset]; done)⟩

theorem witness_SlotStates_3 : ∃ (s : State) (k : Slot), (s.mode ≠ .off) ∧ ((s.slots.get k).st = .seating ∧ (s.slots.get k).seatLow = true) :=
  ⟨slotAs (fun x => { x with st := .seating }), 0, by
    refine ⟨?_, ?_⟩ <;> first | exact ⟨by decide, by decide, rfl⟩ | decide +kernel | rfl | exact demo_day | exact demoLift_day | (simp [demo, State.reset]; done)⟩

theorem witness_SlotStates_4 : ∃ (s : State) (k : Slot) (mv : Nat), (s.mode ≠ .off) ∧ ((s.slots.get k).st = .idle ∧ (s.slots.get k).enable = true) ∧ (100 * (s.slots.get k).spc.vinUv ≤ mv ∧ mv < 100 * (s.slots.get k).spc.vinOv) :=
  ⟨slotAs (fun x => { x with st := .idle }), 0, 48000, by
    refine ⟨?_, ?_, ?_⟩ <;> first | exact ⟨by decide, by decide, rfl⟩ | decide +kernel | rfl | exact demo_day | exact demoLift_day | (simp [demo, State.reset]; done)⟩

theorem witness_SlotStates_5 : ∃ (s : State) (k : Slot), (s.mode ≠ .off) ∧ ((s.slots.get k).st = .ramp) :=
  ⟨slotAs (fun x => { x with st := .ramp }), 0, by
    refine ⟨?_, ?_⟩ <;> first | exact ⟨by decide, by decide, rfl⟩ | decide +kernel | rfl | exact demo_day | exact demoLift_day | (simp [demo, State.reset]; done)⟩

theorem witness_SlotStates_6 : ∃ (s : State) (k : Slot), (s.mode ≠ .off) ∧ ((s.slots.get k).st = .pgWait) :=
  ⟨slotAs (fun x => { x with st := .pgWait }), 0, by
    refine ⟨?_, ?_⟩ <;> first | exact ⟨by decide, by decide, rfl⟩ | decide +kernel | rfl | exact demo_day | exact demoLift_day | (simp [demo, State.reset]; done)⟩

theorem witness_SlotStates_7 : ∃ (s : State) (k : Slot), (s.mode ≠ .off) ∧ ((s.slots.get k).st = .pgWait) ∧ ((s.powerLinks.get (dieOfSlot k)).up = true) :=
  ⟨slotAs (fun x => { x with st := .pgWait }), 0, by
    refine ⟨?_, ?_, ?_⟩ <;> first | exact ⟨by decide, by decide, rfl⟩ | decide +kernel | rfl | exact demo_day | exact demoLift_day | (simp [demo, State.reset]; done)⟩

theorem witness_SlotStates_8 : ∃ (s : State) (k : Slot) (mv : Nat), (s.mode ≠ .off) ∧ ((s.slots.get k).st = .cooldown) :=
  ⟨slotAs (fun x => { x with st := .cooldown }), 0, 48000, by
    refine ⟨?_, ?_⟩ <;> first | exact ⟨by decide, by decide, rfl⟩ | decide +kernel | rfl | exact demo_day | exact demoLift_day | (simp [demo, State.reset]; done)⟩

theorem witness_SlotStates_9 : ∃ (s : State) (k : Slot), (s.mode ≠ .off) :=
  ⟨demo, 0, by
    first | exact ⟨by decide, by decide, rfl⟩ | decide +kernel | rfl | exact demo_day | exact demoLift_day | (simp [demo, State.reset]; done)⟩

theorem witness_SlotStates_10 : ∃ (s : State) (k : Slot) (vin vout sense : BitVec 12), (s.mode ≠ .off) ∧ ((s.powerLinks.get (dieOfSlot k)).up = true) :=
  ⟨demo, 0, 1, 2, 3, by
    refine ⟨?_, ?_⟩ <;> first | exact ⟨by decide, by decide, rfl⟩ | decide +kernel | rfl | exact demo_day | exact demoLift_day | (simp [demo, State.reset]; done)⟩

theorem witness_SlotStates_11 : ∃ (s : State) (k : Slot), (s.mode ≠ .off) ∧ ((s.slots.get k).disabling = true) :=
  ⟨slotAs (fun x => { x with st := .on, disabling := true }), 0, by
    refine ⟨?_, ?_⟩ <;> first | exact ⟨by decide, by decide, rfl⟩ | decide +kernel | rfl | exact demo_day | exact demoLift_day | (simp [demo, State.reset]; done)⟩

theorem witness_SlotTrips_0 : ∃ (s : State) (k : Slot) (sense : BitVec 12), (s.mode ≠ .off) ∧ (s.daytime) ∧ ((s.slots.get k).st = .on) :=
  ⟨slotAs (fun x => { x with st := .on }), 0, 100, by
    refine ⟨?_, ?_, ?_⟩ <;> first | exact ⟨by decide, by decide, rfl⟩ | decide +kernel | rfl | exact demo_day | exact demoLift_day | (simp [demo, State.reset]; done)⟩

theorem witness_SlotTrips_1 : ∃ (s : State) (k : Slot), (s.mode ≠ .off) ∧ (s.daytime) ∧ ((s.slots.get k).st = .ramp) :=
  ⟨slotAs (fun x => { x with st := .ramp }), 0, by
    refine ⟨?_, ?_, ?_⟩ <;> first | exact ⟨by decide, by decide, rfl⟩ | decide +kernel | rfl | exact demo_day | exact demoLift_day | (simp [demo, State.reset]; done)⟩

theorem witness_SlotTrips_2 : ∃ (s : State) (k : Slot) (mv : Nat), (s.mode ≠ .off) ∧ (s.daytime) ∧ ((s.slots.get k).st = .ramp ∨ (s.slots.get k).st = .pgWait ∨ (s.slots.get k).st = .on) :=
  ⟨slotAs (fun x => { x with st := .on }), 0, 10000, by
    refine ⟨?_, ?_, ?_⟩ <;> first | exact ⟨by decide, by decide, rfl⟩ | decide +kernel | rfl | exact demo_day | exact demoLift_day | (simp [demo, State.reset]; done)⟩

theorem witness_SlotTrips_3 : ∃ (s : State) (k : Slot) (kind : Byte), ((s.slots.get k).spc.retry = true) ∧ ((s.slots.get k).tripsInWindow + 1 < (s.slots.get k).spc.tripBudget) ∧ ((s.slots.get k).tripsInWindow < 63) :=
  ⟨slotAs (fun x => { x with st := .ramp, spc := { x.spc with retry := true, tripBudget := 5 } }), 0, 1, by
    refine ⟨?_, ?_, ?_⟩ <;> first | exact ⟨by decide, by decide, rfl⟩ | decide +kernel | rfl | exact demo_day | exact demoLift_day | (simp [demo, State.reset]; done)⟩

theorem witness_SlotTrips_4 : ∃ (s : State) (k : Slot) (kind : Byte), ((s.slots.get k).spc.retry = false ∨ (s.slots.get k).spc.tripBudget ≤ (s.slots.get k).tripsInWindow + 1) ∧ ((s.slots.get k).tripsInWindow < 63) :=
  ⟨slotAs (fun x => { x with st := .ramp, spc := { x.spc with retry := false } }), 0, 1, by
    refine ⟨?_, ?_⟩ <;> first | exact ⟨by decide, by decide, rfl⟩ | decide +kernel | rfl | exact demo_day | exact demoLift_day | (simp [demo, State.reset]; done)⟩

theorem witness_PortPowerChains_0 : ∃ (s : State) (k : Slot) (input : List Byte), (s.mode ≠ .off) ∧ ((s.chains.get k).st = .down) :=
  ⟨demo, 0, [], by
    refine ⟨?_, ?_⟩ <;> first | exact ⟨by decide, by decide, rfl⟩ | decide +kernel | rfl | exact demo_day | exact demoLift_day | (simp [demo, State.reset]; done)⟩

theorem witness_PortPowerChains_1 : ∃ (s : State) (k : Slot) (input : List Byte), (s.mode ≠ .off) ∧ ((s.chains.get k).st = .settling ∧ 50 ≤ (s.chains.get k).frames ∧ (s.chains.get k).cleanRun = 2) ∧ ((portsOfSlot k).all (fun p => byteClean (inputByte input p)) = true) :=
  ⟨{ demo with chains := demo.chains.put 0 { st := .settling, faultKind := 1, frames := 50, cleanRun := 2, badRun := 0 } }, 0, List.replicate 32 0x2A, by
    refine ⟨?_, ?_, ?_⟩ <;> first | exact ⟨by decide, by decide, rfl⟩ | decide +kernel | rfl | exact demo_day | exact demoLift_day | (simp [demo, State.reset]; done)⟩

theorem witness_PortPowerChains_2 : ∃ (s : State) (k : Slot) (input : List Byte), (s.mode ≠ .off) ∧ ((s.chains.get k).st = .up ∧ (s.chains.get k).badRun = 2) ∧ (8 ≤ (portsOfSlot k).countP (fun p => !byteClean (inputByte input p))) :=
  ⟨{ demo with chains := demo.chains.put 0 { st := .up, faultKind := 1, frames := 0, cleanRun := 0, badRun := 2 } }, 0, [], by
    refine ⟨?_, ?_, ?_⟩ <;> first | exact ⟨by decide, by decide, rfl⟩ | decide +kernel | rfl | exact demo_day | exact demoLift_day | (simp [demo, State.reset]; done)⟩

theorem witness_PortPowerChains_3 : ∃ (s : State) (k : Slot), (s.mode ≠ .off) ∧ ((s.chains.get k).st = .settling) :=
  ⟨{ demo with chains := demo.chains.put 0 { st := .settling, faultKind := 1, frames := 0, cleanRun := 0, badRun := 0 } }, 0, by
    refine ⟨?_, ?_⟩ <;> first | exact ⟨by decide, by decide, rfl⟩ | decide +kernel | rfl | exact demo_day | exact demoLift_day | (simp [demo, State.reset]; done)⟩

theorem witness_PortPowerChains_4 : ∃ (s : State) (k : Slot) (p : Port), (s.mode ≠ .off) ∧ ((s.begin.releaseIdle k).mayRelease k = true) ∧ ((portsOfSlot k).find? (fun p => !((s.begin.releaseIdle k).vbus.get p).released) = some p) :=
  ⟨{ slotAs (fun x => { x with st := .on }) with chains := demo.chains.put 0 { st := .up }, vbus := demo.vbus.upd 3 (fun v => { v with shadow := 0xFFFF }) }, 0, 3, by
    refine ⟨?_, ?_, ?_⟩ <;> first | exact ⟨by decide, by decide, rfl⟩ | decide +kernel | rfl | exact demo_day | exact demoLift_day | (simp [demo, State.reset]; done)⟩

theorem witness_PortPowerChains_5 : ∃ (s : State) (p : Port), (s.mode ≠ .off) ∧ (s.chainJudges p = true) ∧ ((s.vbus.get p).awaitPgood = true ∧ (s.pd.get p).trans = none) :=
  ⟨{ demo with chains := demo.chains.put 0 { st := .up }, vbus := demo.vbus.upd 0 (fun v => { v with applied := 0xFFFF, awaitPgood := true }) }, 0, by
    refine ⟨?_, ?_, ?_⟩ <;> first | exact ⟨by decide, by decide, rfl⟩ | decide +kernel | rfl | exact demo_day | exact demoLift_day | (simp [demo, State.reset]; done)⟩

theorem witness_PortPowerChains_6 : ∃ (s : State) (p : Port), (s.mode ≠ .off) ∧ (s.chainJudges p = true) ∧ ((s.vbus.get p).awaitPgood = false ∧ (s.vbus.get p).pgood.value = false ∧ (s.pd.get p).trans = none) :=
  ⟨{ demo with chains := demo.chains.put 0 { st := .up }, vbus := demo.vbus.upd 0 (fun v => { v with applied := 0xFFFF }) }, 0, by
    refine ⟨?_, ?_, ?_⟩ <;> first | exact ⟨by decide, by decide, rfl⟩ | decide +kernel | rfl | exact demo_day | exact demoLift_day | (simp [demo, State.reset]; done)⟩

theorem witness_StepRunsFrontCommand_0 : ∃ (s : State) (c : Instr) (q : List Instr), (s.pending = c :: q) :=
  ⟨{ demo with pending := [.watchdogKick] }, .watchdogKick, [], by
    rfl⟩

theorem witness_StepRunsFrontCommand_1 : ∃ (s : State), (s.pending = []) :=
  ⟨demo, by
    rfl⟩

theorem witness_QueueKept_0 : ∃ (c : Instr) (s t : State), (exec c s = .next t) :=
  ⟨.watchdogKick, demo, demo.begin.finish demo.begin, by
    rfl⟩

theorem witness_BoundaryScanKept_0 : ∃ (s t : State), (s.tap = .extest → s.testmode = true) ∧ (s.aonUp = false → s.testmode = false) ∧ (step s = .next t) :=
  ⟨State.reset, State.reset, by
    exact ⟨fun e => (by cases e), fun _ => rfl, rfl⟩⟩

theorem witness_MemoryOrderKept_0 : ∃ (s t : State), (cellsWf s.cells = true) ∧ (step s = .next t) :=
  ⟨State.reset, State.reset, by
    exact ⟨rfl, rfl⟩⟩

theorem witness_FusesOnlyBurn_0 : ∃ (c : Instr) (s t : State), (exec c s = .next t) :=
  ⟨.watchdogKick, demo, demo.begin.finish demo.begin, by
    rfl⟩

theorem witness_WordReadAfterWrite_0 : ∃ (s : State) (b : Bank) (row word : Nat) (cw : BitVec 137), (cellsWf s.cells = true) ∧ ((s.banks.get b).filled = true) ∧ (s.addrPoint b = none) ∧ ((s.banks.get b).flip = none) ∧ (s.bankPoint b 1 = none) ∧ (s.bankPoint b 2 = none) :=
  ⟨{ demo with banks := demo.banks.upd 5 (fun x => { x with filled := true }) }, 5, 700, 63, 5, by
    refine ⟨rfl, ?_, rfl, ?_, rfl, rfl⟩ <;> rfl⟩

theorem witness_CorrectionLeavesStoredWord_1 : ∃ (s : State) (b : Bank) (row word i : Nat), (s.addrPoint b = none) ∧ (s.bankPoint b 0 = none) ∧ (classify (pbmSyndrome (s.cell b row word)) = .correctable i) :=
  ⟨{ demo with banks := demo.banks.upd 5 (fun x => { x with filled := true }), cells := [(cellKey 5 0 0, 1#137 <<< 4)] }, 5, 0, 0, 4, by
    exact ⟨rfl, rfl, by decide +kernel⟩⟩

theorem witness_CodeCorrects_1 : ∃ (d : BitVec 128) (i : Nat), (i < 137) :=
  ⟨0, 136, by
    decide⟩

theorem witness_CodeCorrects_2 : ∃ (d : BitVec 128) (i j : Nat), (i < j) ∧ (j < 137) :=
  ⟨0, 0, 136, by
    decide⟩

theorem witness_OnlyUnpairedReportsRefused_1 : ∃ (s : State) (source : BitVec 12) (kind : Byte) (info : BitVec 32) (injected : Bool) (place : Option (Port × Byte)), (faultRow source.toNat kind.toNat = none) :=
  ⟨demo, 0xFFF, 0xFF, 0, false, none, by
    decide +kernel⟩

theorem witness_OnlyUnpairedReportsRefused_2 : ∃ (s : State) (source : BitVec 12) (kind : Byte) (info : BitVec 32) (injected : Bool) (place : Option (Port × Byte)), ((faultRow source.toNat kind.toNat).isSome = true) :=
  ⟨demo, 0x001, 0x21, 0, false, none, by
    decide +kernel⟩

theorem witness_SwitchedRowsSleep_0 : ∃ (c : Instr) (s : State), (switchedRow c = true) ∧ (¬ s.switchedUp) :=
  ⟨.bucketLeakInterval, State.reset, by
    exact ⟨rfl, fun h => h.1 rfl⟩⟩

theorem witness_SwitchedRowsSleep_1 : ∃ (c : Instr) (s : State), (switchedRow c = true) ∧ (¬ s.switchedUp) ∧ (s.calm) :=
  ⟨.bucketLeakInterval, State.reset, by
    exact ⟨rfl, fun h => h.1 rfl, rfl, fun i => by simp [State.reset], fun m => by simp [State.reset]⟩⟩

theorem witness_DiagnosticModeOnly_0 : ∃ (s : State) (m : VcpMsg) (t : Target) (r : CmdRow), (s.hears m) ∧ ((s.sessions.get m.session).isOpen = true) ∧ (m.cseq = (s.sessions.get m.session).lastCseq + 1) ∧ (s.fw.bootFailed = false) ∧ (s.isSteward m.session = true) ∧ (cmdRow 0x0B01 = some r) ∧ (decodeTarget m.target = some t) ∧ (r.fits t = true) ∧ (s.mode ≠ .diagnostic) :=
  ⟨demo, demoMsg 0x0000 [], .port 0, deviceCmds.find? (·.opcode == 0x0B01) |>.get (by decide), by
    exact ⟨demo_hears _ _ (by decide), demo_open, demo_cseq _ _, rfl, rfl, rfl, rfl, rfl, by decide⟩⟩

theorem witness_DiagnosticModeOnly_1 : ∃ (s : State) (m : VcpMsg) (t : Target) (r : CmdRow), (s.hears m) ∧ ((s.sessions.get m.session).isOpen = true) ∧ (m.cseq = (s.sessions.get m.session).lastCseq + 1) ∧ (s.fw.bootFailed = false) ∧ (s.isSteward m.session = true) ∧ (cmdRow 0x0B02 = some r) ∧ (decodeTarget m.target = some t) ∧ (r.fits t = true) ∧ (s.mode ≠ .diagnostic) :=
  ⟨demo, demoMsg 0x0000 [], .port 0, deviceCmds.find? (·.opcode == 0x0B02) |>.get (by decide), by
    exact ⟨demo_hears _ _ (by decide), demo_open, demo_cseq _ _, rfl, rfl, rfl, rfl, rfl, by decide⟩⟩

theorem witness_DiagnosticModeOnly_2 : ∃ (s : State) (m : VcpMsg) (t : Target) (r : CmdRow), (s.hears m) ∧ ((s.sessions.get m.session).isOpen = true) ∧ (m.cseq = (s.sessions.get m.session).lastCseq + 1) ∧ (s.fw.bootFailed = false) ∧ (s.isSteward m.session = true) ∧ (cmdRow 0x0B03 = some r) ∧ (decodeTarget m.target = some t) ∧ (r.fits t = true) ∧ (s.mode ≠ .diagnostic) :=
  ⟨demo, demoMsg 0x0000 [], .port 0, deviceCmds.find? (·.opcode == 0x0B03) |>.get (by decide), by
    exact ⟨demo_hears _ _ (by decide), demo_open, demo_cseq _ _, rfl, rfl, rfl, rfl, rfl, by decide⟩⟩

theorem witness_PartConnectOwnConnected_0 : ∃ (s : State) (m : VcpMsg) (k : Part), (s.reaches 0x0204 m (.partition k)) ∧ (m.payload = []) ∧ (m.session = mfSession k) ∧ (s.isSteward m.session = false) ∧ ((s.parts.get k).st = .connected) :=
  ⟨{ demoMf with parts := demoMf.parts.upd 3 (fun x => { x with st := .connected }) }, mfMsg 0x8003 [], 3, by
    exact ⟨demoMf_reaches _ _ _ _ rfl (by decide) rfl (by decide), rfl, rfl, by decide, by simp⟩⟩

theorem witness_FlipmaskRights_0 : ∃ (s : State) (m : VcpMsg) (b : Bank), (s.hears m) ∧ ((s.sessions.get m.session).isOpen = true) ∧ (m.cseq = (s.sessions.get m.session).lastCseq + 1) ∧ (s.fw.bootFailed = false) ∧ (decodeTarget m.target = some (.bank b)) ∧ (s.isSteward m.session = false) :=
  ⟨demoMf, mfMsg 0x8305 [], 5, by
    exact ⟨(demoMf_reaches 0x0204 0x8003 [] (.partition 3) rfl (by decide) rfl (by decide)).1.1, (demoMf_reaches 0x0204 0x8003 [] (.partition 3) rfl (by decide) rfl (by decide)).1.2.1, (demoMf_reaches 0x0204 0x8003 [] (.partition 3) rfl (by decide) rfl (by decide)).1.2.2.1, rfl, rfl, by decide⟩⟩

theorem witness_FlipmaskRights_1 : ∃ (s : State) (m : VcpMsg) (b : Bank), (s.hears m) ∧ ((s.sessions.get m.session).isOpen = true) ∧ (m.cseq = (s.sessions.get m.session).lastCseq + 1) ∧ (s.fw.bootFailed = false) ∧ (decodeTarget m.target = some (.bank b)) ∧ (s.isSteward m.session = true) ∧ (s.mode ≠ .noon) ∧ (s.mode ≠ .evening) ∧ (s.mode ≠ .diagnostic) :=
  ⟨{ demo with mode := .morning }, demoMsg 0x8305 [], 5, by
    exact ⟨demoIn_hears .morning _ _ (by decide) (by decide) (by decide) (by decide) (by decide) (by decide), demo_open, demo_cseq _ _, rfl, rfl, rfl, by decide, by decide, by decide⟩⟩

theorem witness_FlipmaskRights_2 : ∃ (s : State) (m : VcpMsg) (b : Bank) (l : List Byte), (s.reaches 0x0804 m (.bank b)) ∧ (s.isSteward m.session = true) ∧ (s.mode = .noon ∨ s.mode = .evening ∨ s.mode = .diagnostic) ∧ (m.payload = [0, 0, 0, 0, 0, 0, 0, 0] ++ l) ∧ (l.length = 18) ∧ (get8 m.payload 25 < 2) ∧ (flipBits m.payload ≠ 0) :=
  ⟨demo, demoMsg 0x8305 ([0, 0, 0, 0, 0, 0, 0, 0, 1] ++ List.replicate 17 0), 5, [1] ++ List.replicate 17 0, by
    exact ⟨demo_reaches _ _ _ _ rfl (by decide) rfl, rfl, .inl rfl, rfl, rfl, by decide, by decide⟩⟩

theorem witness_EventAckRule_0 : ∃ (s : State) (m : VcpMsg) (gone kept : List EventRec), (s.takes 0x0003 m) ∧ (m.target = 0xFFFF) ∧ (m.payload.length = 4) ∧ (((s.sessions.get m.session).nextEseq - 1 - bits32 m.payload 0).toNat < 2 ^ 31) ∧ ((s.sessions.get m.session).ring = gone ++ kept) ∧ (gone ≠ []) ∧ (∀ e ∈ gone, (bits32 m.payload 0 - e.eseq).toNat < 2 ^ 31) ∧ (∀ e ∈ kept.head?, 2 ^ 31 ≤ (bits32 m.payload 0 - e.eseq).toNat) :=
  ⟨demoRing [{ eseq := 4, code := 0x8101, target := 0xFFFF, payload := [], sent := true, again := false }, { eseq := 5, code := 0x8101, target := 0xFFFF, payload := [], sent := true, again := false }] 6, demoMsg 0xFFFF [4, 0, 0, 0], [{ eseq := 4, code := 0x8101, target := 0xFFFF, payload := [], sent := true, again := false }], [{ eseq := 5, code := 0x8101, target := 0xFFFF, payload := [], sent := true, again := false }], by
    exact ⟨demoRing_takes _ _ _ _ _ (by decide) rfl, rfl, rfl, by rw [show (demoMsg 0xFFFF [4, 0, 0, 0]).session = 16 from rfl, demoRing_session]; decide, by rw [show (demoMsg 0xFFFF [4, 0, 0, 0]).session = 16 from rfl, demoRing_session]; rfl, by simp, by simp [demoMsg]; decide, by simp [demoMsg]; decide⟩⟩

theorem witness_EventAckRule_1 : ∃ (s : State) (m : VcpMsg), (s.takes 0x0003 m) ∧ (m.target = 0xFFFF) ∧ (m.payload.length = 4) ∧ (((s.sessions.get m.session).nextEseq - 1 - bits32 m.payload 0).toNat < 2 ^ 31) ∧ (∀ e ∈ (s.sessions.get m.session).ring.head?, 2 ^ 31 ≤ (bits32 m.payload 0 - e.eseq).toNat) :=
  ⟨demoRing [{ eseq := 5, code := 0x8101, target := 0xFFFF, payload := [], sent := true, again := false }] 6, demoMsg 0xFFFF [4, 0, 0, 0], by
    exact ⟨demoRing_takes _ _ _ _ _ (by decide) rfl, rfl, rfl, by rw [show (demoMsg 0xFFFF [4, 0, 0, 0]).session = 16 from rfl, demoRing_session]; decide, by rw [show (demoMsg 0xFFFF [4, 0, 0, 0]).session = 16 from rfl, demoRing_session]; simp [demoMsg]; decide⟩⟩

theorem witness_EventAckRule_2 : ∃ (s : State) (m : VcpMsg), (s.takes 0x0003 m) ∧ (m.target = 0xFFFF) ∧ (m.payload.length = 4) ∧ (2 ^ 31 ≤ ((s.sessions.get m.session).nextEseq - 1 - bits32 m.payload 0).toNat) :=
  ⟨demo, demoMsg 0xFFFF [0, 0, 0, 0], by
    exact ⟨demo_takes _ _ _ _ rfl rfl rfl (.inl rfl) rfl rfl rfl (by decide) rfl, rfl, rfl, by decide⟩⟩

end
end

