-- ==== Sys2Proof/Proofs/Partitions.lean ====
section
/-! PROOF. The commands of a partition (chapter 2). -/

namespace Sys2Proof.Machine

open Sys2Proof

/-- The row of PART_CONNECT in the command table. -/
theorem cmdRow_partConnect : cmdRow 0x0204 = some (onPart 0x0204 opPartConnect) := rfl

/-- PART_CONNECT of a session without steward scope has no effect on a Connected partition (R58). -/
theorem opPartConnect_connected (m : VcpMsg) (k : Part) (s : State) (hp : m.payload = [])
    (hsteward : s.isSteward m.session = false) (hst : (s.parts.get k).st = .connected) :
    opPartConnect m k s = (s, .done stOK []) := by
  simp [opPartConnect, ok, hp, hsteward, hst]

/-- Settles O57: the row's operation leaves the taken command's state as it is, and OK is the answer to it. -/
theorem partConnectOwnConnected : Obligations.PartConnectOwnConnected := by
  unfold Obligations.PartConnectOwnConnected
  intro s m k hreach hp _ hsteward hst
  have hrun : (onPart 0x0204 opPartConnect).run m (.partition k) (s.taken 0x0204 m) = (s.taken 0x0204 m, .done stOK []) :=
    opPartConnect_connected m k (s.taken 0x0204 m) hp ((taken_isSteward s 0x0204 m m.session).trans hsteward)
      (by rw [State.taken_parts, hst])
  exact reaches_done s _ 0x0204 m _ _ stOK [] hreach cmdRow_partConnect (by simp [onPart]) rfl (by decide) hrun

end Sys2Proof.Machine
end

