-- ==== Sys2Proof/Proofs/BufferMemory.lean ====
section
/-! PROOF. The stored words of the buffer memory and what a read returns of them (chapter 7). -/

namespace Sys2Proof.Machine

open Sys2Proof

/-- An access that no injection point addresses to row 768 is accepted, and the check changes nothing (R207). -/
theorem addrCheck_of_unarmed (s : State) (b : Bank) (haddr : s.addrPoint b = none) : s.addrCheck b = (s, false) := by
  simp [State.addrCheck, haddr]

/-- What a reader gets where no injection point is armed: the checker classes the stored word by its own syndrome (R216, R217). -/
theorem readWord_of_unarmed (s : State) (b : Bank) (row word : Nat) (haddr : s.addrPoint b = none)
    (hcheck : s.bankPoint b 0 = none) :
    (s.readWord b row word).2 =
      { cls := classify (pbmSyndrome (s.cell b row word))
        data := corrected (s.cell b row word) (classify (pbmSyndrome (s.cell b row word)))
        injected := (s.banks.get b).injWords.contains (cellKey b ((s.banks.get b).physRow row) word) } := by
  simp [State.readWord, addrCheck_of_unarmed s b haddr, hcheck]

/-- Settles O52: a read changes counters, tracker and points but no cell, and the class of the stored word decides the data. -/
theorem correctionLeavesStoredWord : Obligations.CorrectionLeavesStoredWord := by
  unfold Obligations.CorrectionLeavesStoredWord
  constructor
  · exact State.readWord_cells
  · intro s b row word i haddr hcheck hclass
    rw [readWord_of_unarmed s b row word haddr hcheck, hclass]

end Sys2Proof.Machine
end

