-- ==== Sys2Proof/Proofs/EventRing.lean ====
section
/-! PROOF. What EVENT_ACK removes from a session's event ring (chapter 11). -/

namespace Sys2Proof.Machine

open Sys2Proof

/-- Two changes of a session that agree on what the session holds are one change. -/
theorem State.updSession_congr (s : State) (i : Sess) (f g : Session → Session) (h : f (s.sessions.get i) = g (s.sessions.get i)) :
    s.updSession i f = s.updSession i g := by
  simp [State.updSession, Tab.upd, h]

/-- A change of a session that leaves what the session holds leaves the state. -/
theorem State.updSession_same (s : State) (i : Sess) (f : Session → Session) (h : f (s.sessions.get i) = s.sessions.get i) :
    s.updSession i f = s := by
  rw [State.updSession, Tab.upd_same _ _ _ h]

/-- Taking a command leaves its session's event ring and issues no event. -/
theorem taken_eventRing (s : State) (op : BitVec 16) (m : VcpMsg) :
    ((s.taken op m).sessions.get m.session).ring = (s.sessions.get m.session).ring ∧
      ((s.taken op m).sessions.get m.session).nextEseq = (s.sessions.get m.session).nextEseq := by
  rw [State.taken_sessions, Tab.get_upd_same]
  exact ⟨rfl, rfl⟩

/-- The row of EVENT_ACK in the command table. -/
theorem cmdRow_eventAck : cmdRow 0x0003 = some (onDevice 0x0003 .any opEventAck) := rfl

/-- A taken EVENT_ACK is answered as its operation says. -/
theorem exec_eventAck_done (s u : State) (m : VcpMsg) (st : Byte) (htakes : s.takes 0x0003 m) (htarget : m.target = 0xFFFF)
    (hop : opEventAck m (s.taken 0x0003 m) = (u, .done st [])) :
    exec (.eventAck m) s = .next (u.answers s 0x0003 m st []) :=
  runVcp_done s u 0x0003 m _ .device st [] htakes cmdRow_eventAck (by rw [htarget]; rfl) rfl rfl
    (fun _ hneeded => nomatch hneeded) (.inl (by decide)) (by decide) hop

/-- An ESEQ newer than the newest issued is refused. -/
theorem opEventAck_newer (s : State) (m : VcpMsg)
    (hnewer : 2 ^ 31 ≤ ((s.sessions.get m.session).nextEseq - 1 - bits32 m.payload 0).toNat) :
    opEventAck m s = (s, .done stBadArg []) := by
  unfold opEventAck
  exact if_pos (by simp only [Bool.or_eq_true, decide_eq_true_eq]; exact .inr hnewer)

/-- An ESEQ that was issued is accepted, and the leading events it covers leave the ring. -/
theorem opEventAck_issued (s : State) (m : VcpMsg) (gone kept : List EventRec) (hlen : m.payload.length = 4)
    (hissued : ((s.sessions.get m.session).nextEseq - 1 - bits32 m.payload 0).toNat < 2 ^ 31)
    (hring : (s.sessions.get m.session).ring = gone ++ kept)
    (hgone : ∀ r ∈ gone, (bits32 m.payload 0 - r.eseq).toNat < 2 ^ 31)
    (hkept : ∀ r ∈ kept.head?, 2 ^ 31 ≤ (bits32 m.payload 0 - r.eseq).toNat) :
    opEventAck m s = ok (s.updSession m.session (fun x =>
      { x with ring := kept, lastAcked := if gone = [] then x.lastAcked else bits32 m.payload 0 })) := by
  have haccepted : ¬ (m.payload.length != 4 ||
      decide (2 ^ 31 ≤ ((s.sessions.get m.session).nextEseq - 1 - bits32 m.payload 0).toNat)) = true := by
    simp only [hlen, bne_self_eq_false, Bool.false_or, decide_eq_true_eq]
    omega
  unfold opEventAck
  refine (if_neg haccepted).trans (congrArg ok (State.updSession_congr s m.session _ _ ?_))
  have hcount : kept.length = (gone ++ kept).length ↔ gone = [] := by
    rw [List.length_append, ← List.length_eq_zero_iff]
    omega
  simp only [hring, ack_split gone kept _ hgone hkept, hcount]

/-- Settles O59: the operation on the state that taking the command leaves, with the ring split where the ESEQ falls. -/
theorem eventAckRule : Obligations.EventAckRule := by
  unfold Obligations.EventAckRule
  refine ⟨?removed, ?older, ?newer⟩
  case removed =>
    intro s m gone kept htakes htarget hlen hissued hring hsome hgone hkept
    obtain ⟨hsame, hnext⟩ := taken_eventRing s 0x0003 m
    refine exec_eventAck_done s _ m stOK htakes htarget ?_
    rw [opEventAck_issued _ m gone kept hlen (by rwa [hnext]) (by rwa [hsame]) hgone hkept]
    simp only [if_neg hsome, ok]
  case older =>
    intro s m htakes htarget hlen hissued holder
    obtain ⟨hsame, hnext⟩ := taken_eventRing s 0x0003 m
    refine exec_eventAck_done s _ m stOK htakes htarget ?_
    rw [opEventAck_issued _ m [] (s.sessions.get m.session).ring hlen (by rwa [hnext]) hsame
      (fun _ hr => nomatch hr) holder, State.updSession_same, ok]
    rw [if_pos rfl, ← hsame]
  case newer =>
    intro s m htakes htarget _ hnewer
    obtain ⟨-, hnext⟩ := taken_eventRing s 0x0003 m
    exact exec_eventAck_done s _ m stBadArg htakes htarget (opEventAck_newer _ m (by rwa [hnext]))

end Sys2Proof.Machine
end

