-- ==== Sys2Proof/Proofs/Registers.lean ====
section
/-! PROOF. What one command can do to the queue, the test access port, TESTMODE, PORST_N and the fuses, and the invariants that follow
(chapters 10, 11 and 13). -/

namespace Sys2Proof.Machine

open Sys2Proof

/-- The eight rows that change the bundle `State.hands`: the power-on reset and its release, a trial that passes, the TAP instructions. -/
def changesHands : Instr → Bool
  | .porstRelease _ _ => true
  | .porstAssert => true
  | .vaonFailure => true
  | .trialPass => true
  | .jtagBypass _ => true
  | .jtagIdcode => true
  | .jtagSamplePreload _ _ => true
  | .jtagExtest _ _ => true
  | _ => false

/-- Every other row leaves the bundle as it is. -/
theorem exec_keeps_hands (c : Instr) (hc : changesHands c = false) (s t : State) (h : exec c s = .next t) : t.hands = s.hands := by
  cases c with
  | porstRelease => cases hc
  | porstAssert => cases hc
  | vaonFailure => cases hc
  | wrstAssert => exact execWrstAssert_hands s t h
  | eveningHoldExpiry => exact execEveningHoldExpiry_hands s t h
  | autoNightStart => exact execAutoNightStart_hands s t h
  | duskStepsComplete => exact execDuskStepsComplete_hands s t h
  | duskStepBoundExpiry => exact execDuskStepBoundExpiry_hands s t h
  | prepareAnswer d defer => exact execPrepareAnswer_hands d defer s t h
  | prepareDeferExpiry d => exact execPrepareDeferExpiry_hands d s t h
  | budgetDomainEntryStart d => exact execBudgetDomainEntryStart_hands d s t h
  | domainExitStart k => exact execDomainExitStart_hands k s t h
  | domainExitComplete d => exact execDomainExitComplete_hands d s t h
  | nightWake code => exact execNightWake_hands code s t h
  | midnightWake code board => exact execMidnightWake_hands code board s t h
  | wakeNLow => exact execWakeNLow_hands s t h
  | wakeTimerExpiry => exact execWakeTimerExpiry_hands s t h
  | midnightDetachDischargeEnd p => exact execMidnightDetachDischargeEnd_hands p s t h
  | dieSensorSample temps => exact execDieSensorSample_hands temps s t h
  | thermalEveningExpiry sensor => exact execThermalEveningExpiry_hands sensor s t h
  | tjCriticalExpiry sensor => exact execTjCriticalExpiry_hands sensor s t h
  | supplyWarning r mv => exact execSupplyWarning_hands r mv s t h
  | supplyFailure r mv => exact execSupplyFailure_hands r mv s t h
  | rcToCrystalSwitch => exact execRcToCrystalSwitch_hands s t h
  | rcCalibration => exact execRcCalibration_hands s t h
  | refclkLoss => exact execRefclkLoss_hands s t h
  | avsReevaluate => exact execAvsReevaluate_hands s t h
  | avsRequestComplete voltage current temp status => exact execAvsRequestComplete_hands voltage current temp status s t h
  | avsTimeout => exact execAvsTimeout_hands s t h
  | avsHoldoffExpiry => exact execAvsHoldoffExpiry_hands s t h
  | portDieLinkRetrain d => exact execPortDieLinkRetrain_hands d s t h
  | portDieLinkReturn d => exact execPortDieLinkReturn_hands d s t h
  | portDieLinkFail d => exact execPortDieLinkFail_hands d s t h
  | powerDieLinkTimeout d => exact execPowerDieLinkTimeout_hands d s t h
  | powerDieCoreSilence d => exact execPowerDieCoreSilence_hands d s t h
  | alarmPairChange pair on => exact execAlarmPairChange_hands pair on s t h
  | alarmLineFault pair level => exact execAlarmLineFault_hands pair level s t h
  | detectorMessage source kind info injected place => exact execDetectorMessage_hands source kind info injected place s t h
  | faultNPulseEnd => exact execFaultNPulseEnd_hands s t h
  | safeHoldRestartDone => exact execSafeHoldRestartDone_hands s t h
  | reactionComplete r aged intact => exact execReactionComplete_hands r aged intact s t h
  | resetShadowEnd r => exact execResetShadowEnd_hands r s t h
  | watchdogKick => exact execWatchdogKick_hands s t h
  | watchdogExpiry => exact execWatchdogExpiry_hands s t h
  | injectionDurationEnd source kind => exact execInjectionDurationEnd_hands source kind s t h
  | injectionArmTimeout source kind => exact execInjectionArmTimeout_hands source kind s t h
  | upstreamAttach k orientation rp vbus => exact execUpstreamAttach_hands k orientation rp vbus s t h
  | upstreamDetach k => exact execUpstreamDetach_hands k s t h
  | upstreamVbusAbsent k late => exact execUpstreamVbusAbsent_hands k late s t h
  | upstreamPdMessage k m => exact execUpstreamPdMessage_hands k m s t h
  | upstreamHardReset k => exact execUpstreamHardReset_hands k s t h
  | ssLinkU0 k rate => exact execSsLinkU0_hands k rate s t h
  | ssDecidingExpiry k => exact execSsDecidingExpiry_hands k s t h
  | ssInactiveExpiry k link => exact execSsInactiveExpiry_hands k link s t h
  | ssLinkDisabled k => exact execSsLinkDisabled_hands k s t h
  | lgoU1U2 k u2 unacked => exact execLgoU1U2_hands k u2 unacked s t h
  | deviceU1U2Entry k u2 unacked => exact execDeviceU1U2Entry_hands k u2 unacked s t h
  | upstreamU3Entry k => exact execUpstreamU3Entry_hands k s t h
  | upstreamU3Exit k => exact execUpstreamU3Exit_hands k s t h
  | ssWarmReset k => exact execSsWarmReset_hands k s t h
  | ssHotReset k => exact execSsHotReset_hands k s t h
  | usb2BusReset k highSpeed => exact execUsb2BusReset_hands k highSpeed s t h
  | usb2LpmTransaction k hird => exact execUsb2LpmTransaction_hands k hird s t h
  | usb2Suspend k => exact execUsb2Suspend_hands k s t h
  | usb2Resume k byDevice => exact execUsb2Resume_hands k byDevice s t h
  | mfStandardRequest k r data => exact execMfStandardRequest_hands k r data s t h
  | mfBulkOutCommand k bytes => exact execMfBulkOutCommand_hands k bytes s t h
  | vcpCommand k bytes => exact execVcpCommand_hands k bytes s t h
  | vcpLastResponse k len => exact execVcpLastResponse_hands k len s t h
  | mfOtherVendorRequest k r => exact execMfOtherVendorRequest_hands k r s t h
  | doorbellRing bus mask => exact execDoorbellRing_hands bus mask s t h
  | smbusDoorbellWrite pecOk => exact execSmbusDoorbellWrite_hands pecOk s t h
  | smbusSetPointer address pecOk => exact execSmbusSetPointer_hands address pecOk s t h
  | smbusAlertResponse => exact execSmbusAlertResponse_hands s t h
  | rspDone m => exact execRspDone_hands m s t h
  | evtDone m => exact execEvtDone_hands m s t h
  | crcErrClear m => exact execCrcErrClear_hands m s t h
  | registerWrite w bytes => exact execRegisterWrite_hands w bytes s t h
  | helloOpen m => exact execHelloOpen_hands m s t h
  | helloForceOpen m => exact execHelloForceOpen_hands m s t h
  | helloGrant m => exact execHelloGrant_hands m s t h
  | helloRevoke m => exact execHelloRevoke_hands m s t h
  | resync m => exact execResync_hands m s t h
  | eventAck m => exact execEventAck_hands m s t h
  | close m => exact execClose_hands m s t h
  | getInfo m => exact execGetInfo_hands m s t h
  | getStatus m => exact execGetStatus_hands m s t h
  | getTemps m => exact execGetTemps_hands m s t h
  | unsupportedOpcode opcode m => exact execUnsupportedOpcode_hands opcode m s t h
  | partGet m => exact execPartGet_hands m s t h
  | partAssignPort m => exact execPartAssignPort_hands m s t h
  | partSetLimits m => exact execPartSetLimits_hands m s t h
  | partConnect m => exact execPartConnect_hands m s t h
  | partDisconnect m => exact execPartDisconnect_hands m s t h
  | deferredDisconnectExecute k => exact execDeferredDisconnectExecute_hands k s t h
  | portGet m => exact execPortGet_hands m s t h
  | portSetMode m => exact execPortSetMode_hands m s t h
  | portReset m => exact execPortReset_hands m s t h
  | portQuench m => exact execPortQuench_hands m s t h
  | portRelease m => exact execPortRelease_hands m s t h
  | portSetBc m => exact execPortSetBc_hands m s t h
  | liftGetPolicy m => exact execLiftGetPolicy_hands m s t h
  | liftSetClasslist m => exact execLiftSetClasslist_hands m s t h
  | liftSetEpBoundary m => exact execLiftSetEpBoundary_hands m s t h
  | liftGetEpStats m => exact execLiftGetEpStats_hands m s t h
  | liftClearPoison m => exact execLiftClearPoison_hands m s t h
  | pdSetOffer m => exact execPdSetOffer_hands m s t h
  | pdSend m => exact execPdSend_hands m s t h
  | pdSetAutoresp m => exact execPdSetAutoresp_hands m s t h
  | pdHardReset m => exact execPdHardReset_hands m s t h
  | ccSetRp m => exact execCcSetRp_hands m s t h
  | sbuSetRoute m => exact execSbuSetRoute_hands m s t h
  | pdSetTimers m => exact execPdSetTimers_hands m s t h
  | slotGet m => exact execSlotGet_hands m s t h
  | slotSetLimits m => exact execSlotSetLimits_hands m s t h
  | slotEnable m => exact execSlotEnable_hands m s t h
  | slotClearLatch m => exact execSlotClearLatch_hands m s t h
  | vbusSet m => exact execVbusSet_hands m s t h
  | ppcGet m => exact execPpcGet_hands m s t h
  | modeGet m => exact execModeGet_hands m s t h
  | modeRequest m board => exact execModeRequest_hands m board s t h
  | latBudgetSet m => exact execLatBudgetSet_hands m s t h
  | wakeSourcesSet m => exact execWakeSourcesSet_hands m s t h
  | avsGet m => exact execAvsGet_hands m s t h
  | pbmGetStats m => exact execPbmGetStats_hands m s t h
  | pbmSetScrub m => exact execPbmSetScrub_hands m s t h
  | pbmRetire m => exact execPbmRetire_hands m s t h
  | pbmFlipmask m => exact execPbmFlipmask_hands m s t h
  | faultRead m => exact execFaultRead_hands m s t h
  | faultAck m => exact execFaultAck_hands m s t h
  | faultSetSeverity m => exact execFaultSetSeverity_hands m s t h
  | faultInject m => exact execFaultInject_hands m s t h
  | faultpinControl m => exact execFaultpinControl_hands m s t h
  | fwGet m => exact execFwGet_hands m s t h
  | fwStageBegin m => exact execFwStageBegin_hands m s t h
  | fwStageData m => exact execFwStageData_hands m s t h
  | fwStageCommit m => exact execFwStageCommit_hands m s t h
  | fwActivate m => exact execFwActivate_hands m s t h
  | activationPauseEnd => exact execActivationPauseEnd_hands s t h
  | activationLoadFail => exact execActivationLoadFail_hands s t h
  | trialPass => cases hc
  | trialFail dead => exact execTrialFail_hands dead s t h
  | diagLoopback m => exact execDiagLoopback_hands m s t h
  | diagPhyTest m => exact execDiagPhyTest_hands m s t h
  | diagEye m => exact execDiagEye_hands m s t h
  | jtagBypass => cases hc
  | jtagIdcode => cases hc
  | jtagSamplePreload => cases hc
  | jtagExtest => cases hc
  | connectRecognised c => exact execConnectRecognised_hands c s t h
  | disconnectRecognised p => exact execDisconnectRecognised_hands p s t h
  | presentationPossible p => exact execPresentationPossible_hands p s t h
  | debounceComplete p => exact execDebounceComplete_hands p s t h
  | deviceResetSe0End p found => exact execDeviceResetSe0End_hands p found s t h
  | resetRecoveryEnd p => exact execResetRecoveryEnd_hands p s t h
  | probeRequestComplete p r => exact execProbeRequestComplete_hands p r s t h
  | probeRequestTimeout p => exact execProbeRequestTimeout_hands p s t h
  | probeTimeout p => exact execProbeTimeout_hands p s t h
  | nativeSsU0Held p gen2 => exact execNativeSsU0Held_hands p gen2 s t h
  | hostPortReset k pos f => exact execHostPortReset_hands k pos f s t h
  | hostResetSe0End p found => exact execHostResetSe0End_hands p found s t h
  | hubTopPortReset k f n => exact execHubTopPortReset_hands k f n s t h
  | hubClearPortPower k side q => exact execHubClearPortPower_hands k side q s t h
  | hubSetPortPower k side q => exact execHubSetPortPower_hands k side q s t h
  | hubSetPortIndicator k side q => exact execHubSetPortIndicator_hands k side q s t h
  | hubPortSuspend k q => exact execHubPortSuspend_hands k q s t h
  | hubPortResume k q => exact execHubPortResume_hands k q s t h
  | clearTtBuffer k pos key => exact execClearTtBuffer_hands k pos key s t h
  | resetTt k pos => exact execResetTt_hands k pos s t h
  | getTtState k pos => exact execGetTtState_hands k pos s t h
  | stopTt k pos => exact execStopTt_hands k pos s t h
  | hubStandardRequest k side hub r => exact execHubStandardRequest_hands k side hub r s t h
  | liftSuspendOrder p => exact execLiftSuspendOrder_hands p s t h
  | liftResumeOrder p => exact execLiftResumeOrder_hands p s t h
  | resumeKEnd p => exact execResumeKEnd_hands p s t h
  | remoteWakeKRecognised p delta => exact execRemoteWakeKRecognised_hands p delta s t h
  | u3ExitHandshakeComplete p => exact execU3ExitHandshakeComplete_hands p s t h
  | hostU3ExitCollision p delta => exact execHostU3ExitCollision_hands p delta s t h
  | unarmedWakeResuspend p => exact execUnarmedWakeResuspend_hands p s t h
  | l1IdleExpiry p => exact execL1IdleExpiry_hands p s t h
  | l1ExitRequest p => exact execL1ExitRequest_hands p s t h
  | portBabble p => exact execPortBabble_hands p s t h
  | drainComplete p => exact execDrainComplete_hands p s t h
  | drainWindowExpiry p => exact execDrainWindowExpiry_hands p s t h
  | dischargeIntervalEnd p => exact execDischargeIntervalEnd_hands p s t h
  | stdGetStatus p recipient index len => exact execStdGetStatus_hands p recipient index len s t h
  | stdClearEndpointHalt p ep => exact execStdClearEndpointHalt_hands p ep s t h
  | stdSetEndpointHalt p ep => exact execStdSetEndpointHalt_hands p ep s t h
  | stdSetFunctionSuspend p interface suspend wake => exact execStdSetFunctionSuspend_hands p interface suspend wake s t h
  | stdU1U2Enable p u2 on => exact execStdU1U2Enable_hands p u2 on s t h
  | stdSetLtmEnable p => exact execStdSetLtmEnable_hands p s t h
  | stdDeviceRemoteWakeup p on => exact execStdDeviceRemoteWakeup_hands p on s t h
  | stdSetTestMode p selector => exact execStdSetTestMode_hands p selector s t h
  | stdSetAddress p address => exact execStdSetAddress_hands p address s t h
  | stdGetDescriptor p type index language len => exact execStdGetDescriptor_hands p type index language len s t h
  | stdSetDescriptor p type index language len => exact execStdSetDescriptor_hands p type index language len s t h
  | stdGetConfiguration p => exact execStdGetConfiguration_hands p s t h
  | stdSetConfiguration p value => exact execStdSetConfiguration_hands p value s t h
  | stdGetInterface p interface => exact execStdGetInterface_hands p interface s t h
  | stdSetInterface p interface alt => exact execStdSetInterface_hands p interface alt s t h
  | stdSynchFrame p ep => exact execStdSynchFrame_hands p ep s t h
  | stdSetSel p data => exact execStdSetSel_hands p data s t h
  | stdSetIsochDelay p delay => exact execStdSetIsochDelay_hands p delay s t h
  | stdOtherRequest p r => exact execStdOtherRequest_hands p r s t h
  | classVendorRequest p r => exact execClassVendorRequest_hands p r s t h
  | controlWriteDataPacket p bytes => exact execControlWriteDataPacket_hands p bytes s t h
  | downstreamControlInPacket p r => exact execDownstreamControlInPacket_hands p r s t h
  | downstreamStatusComplete p r => exact execDownstreamStatusComplete_hands p r s t h
  | microframeBoundary l => exact execMicroframeBoundary_hands l s t h
  | hsBulkInPacket p ep r => exact execHsBulkInPacket_hands p ep r s t h
  | holdWindowExpiry p ep => exact execHoldWindowExpiry_hands p ep s t h
  | ssAckTpReceived p ep a => exact execSsAckTpReceived_hands p ep a s t h
  | ssBulkOutPacket p ep bytes => exact execSsBulkOutPacket_hands p ep bytes s t h
  | hsOutTransactionComplete p ep r => exact execHsOutTransactionComplete_hands p ep r s t h
  | hsOutStall p ep => exact execHsOutStall_hands p ep s t h
  | interestLapse p ep => exact execInterestLapse_hands p ep s t h
  | ssInterruptOutInterval p ep bytes => exact execSsInterruptOutInterval_hands p ep bytes s t h
  | isochTimestampReceived k interval delta => exact execIsochTimestampReceived_hands k interval delta s t h
  | ssIsoOutPacket p ep bytes bad => exact execSsIsoOutPacket_hands p ep bytes bad s t h
  | mergeAgeFlush b word => exact execMergeAgeFlush_hands b word s t h
  | scrubWord b queued => exact execScrubWord_hands b queued s t h
  | bucketLeakInterval => exact execBucketLeakInterval_hands s t h
  | bankRowEmptyMove b row => exact execBankRowEmptyMove_hands b row s t h
  | bankRowTimeoutCopy b row => exact execBankRowTimeoutCopy_hands b row s t h
  | ccPatternChange p cc1 cc2 => exact execCcPatternChange_hands p cc1 cc2 s t h
  | tccDebounceExpiry p => exact execTccDebounceExpiry_hands p s t h
  | tpdDebounceExpiry p => exact execTpdDebounceExpiry_hands p s t h
  | raLost p => exact execRaLost_hands p s t h
  | vconnOvercurrent p => exact execVconnOvercurrent_hands p s t h
  | errorRecoveryExpiry p => exact execErrorRecoveryExpiry_hands p s t h
  | cableDiscoveryStart p => exact execCableDiscoveryStart_hands p s t h
  | sourceCapabilitiesSend p => exact execSourceCapabilitiesSend_hands p s t h
  | typecSendSourceCapExpiry p => exact execTypecSendSourceCapExpiry_hands p s t h
  | pdSopDetected p sop size => exact execPdSopDetected_hands p sop size s t h
  | pdMessageReceived p sop bytes => exact execPdMessageReceived_hands p sop bytes s t h
  | pdGoodcrcReceived p => exact execPdGoodcrcReceived_hands p s t h
  | pdReceiveTimeout p => exact execPdReceiveTimeout_hands p s t h
  | fwdDeadlineExpiry p => exact execFwdDeadlineExpiry_hands p s t h
  | waitRetryExpiry p => exact execWaitRetryExpiry_hands p s t h
  | sinkTxExpiry p => exact execSinkTxExpiry_hands p s t h
  | senderResponseTimeout p => exact execSenderResponseTimeout_hands p s t h
  | noResponseTimeout p => exact execNoResponseTimeout_hands p s t h
  | ppsTimeout p => exact execPpsTimeout_hands p s t h
  | srcTransitionExpiry p => exact execSrcTransitionExpiry_hands p s t h
  | transitionPgood p => exact execTransitionPgood_hands p s t h
  | transitionTimeout p => exact execTransitionTimeout_hands p s t h
  | hardResetReceived p => exact execHardResetReceived_hands p s t h
  | psHardResetExpiry p => exact execPsHardResetExpiry_hands p s t h
  | srcRecoverExpiry p => exact execSrcRecoverExpiry_hands p s t h
  | vconnSourceTimeout p => exact execVconnSourceTimeout_hands p s t h
  | vconnLineLow p => exact execVconnLineLow_hands p s t h
  | pdQueuePop k => exact execPdQueuePop_hands k s t h
  | cdcSetLineCoding k u rate format parity bits => exact execCdcSetLineCoding_hands k u rate format parity bits s t h
  | cdcGetLineCoding k u => exact execCdcGetLineCoding_hands k u s t h
  | cdcSetControlLineState k u lines => exact execCdcSetControlLineState_hands k u lines s t h
  | cdcSendBreak k u ms => exact execCdcSendBreak_hands k u ms s t h
  | seatNLow k => exact execSeatNLow_hands k s t h
  | seatNHigh k => exact execSeatNHigh_hands k s t h
  | seatDebounceExpiry k => exact execSeatDebounceExpiry_hands k s t h
  | startConditionHolds k mv => exact execStartConditionHolds_hands k mv s t h
  | pgConditionsHold k => exact execPgConditionsHold_hands k s t h
  | pgConditionsLost k => exact execPgConditionsLost_hands k s t h
  | pgDelayExpiry k => exact execPgDelayExpiry_hands k s t h
  | pgLostTrip k => exact execPgLostTrip_hands k s t h
  | fastTrip k sense => exact execFastTrip_hands k sense s t h
  | breakerTimeout k sense => exact execBreakerTimeout_hands k sense s t h
  | rampStall k => exact execRampStall_hands k s t h
  | vinWindowExit k mv => exact execVinWindowExit_hands k mv s t h
  | offTimeExpiry k mv => exact execOffTimeExpiry_hands k mv s t h
  | tripWindowAging k => exact execTripWindowAging_hands k s t h
  | slotTelemetrySample k vin vout sense => exact execSlotTelemetrySample_hands k vin vout sense s t h
  | slotDisableTimeout k => exact execSlotDisableTimeout_hands k s t h
  | chainFrame k input => exact execChainFrame_hands k input s t h
  | chainSettlingTimeout k => exact execChainSettlingTimeout_hands k s t h
  | vbusReleaseStagger k => exact execVbusReleaseStagger_hands k s t h
  | noPgoodTimeout p => exact execNoPgoodTimeout_hands p s t h
  | pgoodLostTimeout p => exact execPgoodLostTimeout_hands p s t h
  | powerDieLinkResume d => exact execPowerDieLinkResume_hands d s t h
  | supplyWarningClear => exact execSupplyWarningClear_hands s t h
  | mfInTransfer k ep => exact execMfInTransfer_hands k ep s t h
  | cdcBulkOutData k u data => exact execCdcBulkOutData_hands k u data s t h
  | sbuUartRx p c => exact execSbuUartRx_hands p c s t h
  | smbusClockLowTimeout => exact execSmbusClockLowTimeout_hands s t h
  | midnightContractReleaseExpiry p => exact execMidnightContractReleaseExpiry_hands p s t h
  | virtualLinkInactivityTimeout k q u2 => exact execVirtualLinkInactivityTimeout_hands k q u2 s t h
  | nativeSsPacketReceived p fromDevice bytes => exact execNativeSsPacketReceived_hands p fromDevice bytes s t h
  | ttSplitTransaction k pos op => exact execTtSplitTransaction_hands k pos op s t h
  | passthroughTransaction k pos packet answer lpmAck => exact execPassthroughTransaction_hands k pos packet answer lpmAck s t h
  | wrstRelease board => exact execWrstRelease_hands board s t h
  | vdpSrcDetected p present => exact execVdpSrcDetected_hands p present s t h

/-- Everything that one command can do to the bundle: nothing; the reset values under PORST_N; TESTMODE sampled as PORST_N rises; a TAP
instruction, EXTEST under TESTMODE alone (R365); fuses that burn (R407). -/
inductive HandsStep (s t : State) : Prop
  | kept (h : t.hands = s.hands)
  | reset (h : t.hands = (s.pending, .idcode, State.reset.scan, false, false, s.fw.fuses))
  | released (testmode : Bool) (hlow : s.aonUp = false) (h : t.hands = (s.pending, s.tap, s.scan, testmode, true, s.fw.fuses))
  | tap (i : TapInstr) (scan : BitVec 103) (hi : i = .extest → s.testmode = true)
      (h : t.hands = (s.pending, i, scan, s.testmode, s.aonUp, s.fw.fuses))
  | burnt (f : Nat × Tab 4 FusedKey) (hfloor : s.fw.securityFloor ≤ f.1)
      (hkeys : ∀ i, (s.fw.keys.get i).revoked = true → (f.2.get i).revoked = true)
      (h : t.hands = (s.pending, s.tap, s.scan, s.testmode, s.aonUp, f))

/-- A run's bundle is its effect's. -/
theorem hands_of_run {f : State → State} {s t : State} (h : run f s = .next t) : t.hands = (f s.begin).hands := by
  cases h
  exact State.finish_hands _ _

theorem powerOff_handsStep {s t : State} (h : run (fun s => s.powerOff) s = .next t) : HandsStep s t := .reset (hands_of_run h)

theorem porstRelease_handsStep {s t : State} {testmode : Bool} {b : BoardIn} (h : execPorstRelease testmode b s = .next t) :
    HandsStep s t := by
  have hh : t.hands = (s.begin.porstRelease testmode b).hands := hands_of_run h
  rw [porst_hands] at hh
  split at hh
  · next hoff =>
    simp only [State.begin_aonUp, Bool.and_eq_true, Bool.not_eq_true'] at hoff
    exact .released testmode hoff.2 hh
  · exact .kept (hh.trans (State.begin_hands s))

theorem trialPass_handsStep {s t : State} (h : execTrialPass s = .next t) : HandsStep s t := by
  have hh : t.hands = (ifAon (fun s => s.trialPass) s.begin).hands := hands_of_run h
  unfold ifAon at hh
  split at hh
  · exact .kept (hh.trans (State.begin_hands s))
  · obtain ⟨hpending, htap, hscan, htest, haon⟩ := trialPass_parts s.begin
    obtain ⟨hfloor, hkeys⟩ := trialPass_fuses s.begin
    refine .burnt _ hfloor hkeys (hh.trans ?_)
    rw [← State.hands_fold, hpending, htap, hscan, htest, haon]
    rfl

theorem jtagExtest_handsStep {s t : State} {balls cells : BitVec 103} (h : execJtagExtest balls cells s = .next t) : HandsStep s t := by
  have hh : t.hands = (s.begin.tapExtest balls cells).hands := hands_of_run h
  unfold State.tapExtest at hh
  split at hh
  · next htest => exact .tap .extest cells (fun _ => htest) (hh.trans (State.emits_hands _ _))
  · exact .kept (hh.trans (State.begin_hands s))

theorem tapBypass_hands (s : State) (tdi : List Bool) :
    (s.tapBypass tdi).hands = (s.pending, .bypass, s.scan, s.testmode, s.aonUp, s.fw.fuses) := rfl

theorem tapIdcode_hands (s : State) : s.tapIdcode.hands = (s.pending, .idcode, s.scan, s.testmode, s.aonUp, s.fw.fuses) := rfl

theorem tapSample_hands (s : State) (balls cells : BitVec 103) :
    (s.tapSample balls cells).hands = (s.pending, .samplePreload, cells, s.testmode, s.aonUp, s.fw.fuses) := rfl

theorem jtagBypass_handsStep {s t : State} {tdi : List Bool} (h : execJtagBypass tdi s = .next t) : HandsStep s t :=
  .tap .bypass s.scan nofun ((hands_of_run h).trans (tapBypass_hands s.begin tdi))

theorem jtagIdcode_handsStep {s t : State} (h : execJtagIdcode s = .next t) : HandsStep s t :=
  .tap .idcode s.scan nofun ((hands_of_run h).trans (tapIdcode_hands s.begin))

theorem jtagSamplePreload_handsStep {s t : State} {balls cells : BitVec 103} (h : execJtagSamplePreload balls cells s = .next t) :
    HandsStep s t :=
  .tap .samplePreload cells nofun ((hands_of_run h).trans (tapSample_hands s.begin balls cells))

/-- What a command did to the bundle is one of these. -/
theorem exec_handsStep (c : Instr) (s t : State) (h : exec c s = .next t) : HandsStep s t := by
  cases hc : changesHands c with
  | false => exact .kept (exec_keeps_hands c hc s t h)
  | true =>
    cases c with
    | porstRelease testmode b => exact porstRelease_handsStep h
    | porstAssert => exact powerOff_handsStep h
    | vaonFailure => exact powerOff_handsStep h
    | trialPass => exact trialPass_handsStep h
    | jtagBypass tdi => exact jtagBypass_handsStep h
    | jtagIdcode => exact jtagIdcode_handsStep h
    | jtagSamplePreload balls cells => exact jtagSamplePreload_handsStep h
    | jtagExtest balls cells => exact jtagExtest_handsStep h
    | _ => cases hc

/-- The bundle read field by field. -/
theorem hands_inj {t : State} {q : List Instr} {i : TapInstr} {c : BitVec 103} {tm up : Bool} {f : Nat × Tab 4 FusedKey}
    (h : t.hands = (q, i, c, tm, up, f)) : t.pending = q ∧ t.tap = i ∧ t.testmode = tm ∧ t.aonUp = up ∧ t.fw.fuses = f :=
  ⟨congrArg (·.1) h, congrArg (·.2.1) h, congrArg (·.2.2.2.1) h, congrArg (·.2.2.2.2.1) h, congrArg (·.2.2.2.2.2) h⟩

/-- Settles O46: whatever a command does to the bundle, its queue is the one before. -/
theorem queueKept : Obligations.QueueKept := by
  unfold Obligations.QueueKept
  intro c s t h
  cases exec_handsStep c s t h with
  | kept h => exact (hands_inj h).1
  | reset h => exact (hands_inj h).1
  | released _ _ h => exact (hands_inj h).1
  | tap _ _ _ h => exact (hands_inj h).1
  | burnt _ _ _ h => exact (hands_inj h).1

/-- EXTEST stands only under TESTMODE, and TESTMODE only while PORST_N is high (R365, R447). -/
def ScanSafe (s : State) : Prop := (s.tap = .extest → s.testmode = true) ∧ (s.aonUp = false → s.testmode = false)

/-- Every command keeps it. -/
theorem exec_scanSafe (c : Instr) (s t : State) (hs : ScanSafe s) (h : exec c s = .next t) : ScanSafe t := by
  obtain ⟨hextest, hlow⟩ := hs
  unfold ScanSafe
  cases exec_handsStep c s t h with
  | kept h =>
    obtain ⟨-, htap, htest, haon, -⟩ := hands_inj h
    rw [htap, htest, haon]
    exact ⟨hextest, hlow⟩
  | reset h =>
    obtain ⟨-, htap, htest, haon, -⟩ := hands_inj h
    rw [htap, htest]
    exact ⟨nofun, fun _ => rfl⟩
  | released testmode hdown h =>
    obtain ⟨-, htap, htest, haon, -⟩ := hands_inj h
    rw [htap, haon]
    have hclear := hlow hdown
    exact ⟨fun he => absurd (hextest he) (by simp [hclear]), nofun⟩
  | tap i _ hi h =>
    obtain ⟨-, htap, htest, haon, -⟩ := hands_inj h
    rw [htap, htest, haon]
    exact ⟨hi, hlow⟩
  | burnt _ _ _ h =>
    obtain ⟨-, htap, htest, haon, -⟩ := hands_inj h
    rw [htap, htest, haon]
    exact ⟨hextest, hlow⟩

/-- Settles O47: a step on an empty queue changes nothing; any other runs a command, which keeps the invariant. -/
theorem boundaryScanKept : Obligations.BoundaryScanKept := by
  unfold Obligations.BoundaryScanKept
  intro s t hextest hlow h
  unfold step at h
  split at h
  · cases h
    exact ⟨hextest, hlow⟩
  · next c rest _ => exact exec_scanSafe c { s with pending := rest } t ⟨hextest, hlow⟩ h

/-- Fuses that stand as before have burnt no further. -/
theorem fuses_kept {s t : State} (h : t.fw.fuses = s.fw.fuses) : s.fw.securityFloor ≤ t.fw.securityFloor ∧
    ∀ i, (s.fw.keys.get i).revoked = true → (t.fw.keys.get i).revoked = true := by
  have hfloor : t.fw.securityFloor = s.fw.securityFloor := congrArg (·.1) h
  have hkeys : t.fw.keys = s.fw.keys := congrArg (·.2) h
  rw [hfloor, hkeys]
  exact ⟨Nat.le_refl _, fun _ hrevoked => hrevoked⟩

/-- Settles O50: the one row that touches the fuses is a trial that passes, and it only burns them. -/
theorem fusesOnlyBurn : Obligations.FusesOnlyBurn := by
  unfold Obligations.FusesOnlyBurn
  intro c s t h
  cases exec_handsStep c s t h with
  | kept h => exact fuses_kept (hands_inj h).2.2.2.2
  | reset h => exact fuses_kept (hands_inj h).2.2.2.2
  | released _ _ h => exact fuses_kept (hands_inj h).2.2.2.2
  | tap _ _ _ h => exact fuses_kept (hands_inj h).2.2.2.2
  | burnt f hfloor hkeys h =>
    have hf : t.fw.fuses = f := (hands_inj h).2.2.2.2
    subst hf
    exact ⟨hfloor, hkeys⟩

end Sys2Proof.Machine
end

