-- ==== Sys2Proof/Proofs/MemoryOrder.lean ====
section
/-! PROOF. The canonical form of the packet buffer's memory, which every command keeps (chapter 7, log 12). -/

namespace Sys2Proof.Machine

open Sys2Proof

/-- No command disorders the list of code words. -/
theorem exec_disorder (c : Instr) (s t : State) (h : exec c s = .next t) : t.disorder ≤ s.disorder := by
  cases c with
  | porstRelease testmode board => exact execPorstRelease_disorder testmode board s t h
  | porstAssert => exact execPorstAssert_disorder s t h
  | vaonFailure => exact execVaonFailure_disorder s t h
  | wrstAssert => exact execWrstAssert_disorder s t h
  | eveningHoldExpiry => exact execEveningHoldExpiry_disorder s t h
  | autoNightStart => exact execAutoNightStart_disorder s t h
  | duskStepsComplete => exact execDuskStepsComplete_disorder s t h
  | duskStepBoundExpiry => exact execDuskStepBoundExpiry_disorder s t h
  | prepareAnswer d defer => exact execPrepareAnswer_disorder d defer s t h
  | prepareDeferExpiry d => exact execPrepareDeferExpiry_disorder d s t h
  | budgetDomainEntryStart d => exact execBudgetDomainEntryStart_disorder d s t h
  | domainExitStart k => exact execDomainExitStart_disorder k s t h
  | domainExitComplete d => exact execDomainExitComplete_disorder d s t h
  | nightWake code => exact execNightWake_disorder code s t h
  | midnightWake code board => exact execMidnightWake_disorder code board s t h
  | wakeNLow => exact execWakeNLow_disorder s t h
  | wakeTimerExpiry => exact execWakeTimerExpiry_disorder s t h
  | midnightDetachDischargeEnd p => exact execMidnightDetachDischargeEnd_disorder p s t h
  | dieSensorSample temps => exact execDieSensorSample_disorder temps s t h
  | thermalEveningExpiry sensor => exact execThermalEveningExpiry_disorder sensor s t h
  | tjCriticalExpiry sensor => exact execTjCriticalExpiry_disorder sensor s t h
  | supplyWarning r mv => exact execSupplyWarning_disorder r mv s t h
  | supplyFailure r mv => exact execSupplyFailure_disorder r mv s t h
  | rcToCrystalSwitch => exact execRcToCrystalSwitch_disorder s t h
  | rcCalibration => exact execRcCalibration_disorder s t h
  | refclkLoss => exact execRefclkLoss_disorder s t h
  | avsReevaluate => exact execAvsReevaluate_disorder s t h
  | avsRequestComplete voltage current temp status => exact execAvsRequestComplete_disorder voltage current temp status s t h
  | avsTimeout => exact execAvsTimeout_disorder s t h
  | avsHoldoffExpiry => exact execAvsHoldoffExpiry_disorder s t h
  | portDieLinkRetrain d => exact execPortDieLinkRetrain_disorder d s t h
  | portDieLinkReturn d => exact execPortDieLinkReturn_disorder d s t h
  | portDieLinkFail d => exact execPortDieLinkFail_disorder d s t h
  | powerDieLinkTimeout d => exact execPowerDieLinkTimeout_disorder d s t h
  | powerDieCoreSilence d => exact execPowerDieCoreSilence_disorder d s t h
  | alarmPairChange pair on => exact execAlarmPairChange_disorder pair on s t h
  | alarmLineFault pair level => exact execAlarmLineFault_disorder pair level s t h
  | detectorMessage source kind info injected place => exact execDetectorMessage_disorder source kind info injected place s t h
  | faultNPulseEnd => exact execFaultNPulseEnd_disorder s t h
  | safeHoldRestartDone => exact execSafeHoldRestartDone_disorder s t h
  | reactionComplete r aged intact => exact execReactionComplete_disorder r aged intact s t h
  | resetShadowEnd r => exact execResetShadowEnd_disorder r s t h
  | watchdogKick => exact execWatchdogKick_disorder s t h
  | watchdogExpiry => exact execWatchdogExpiry_disorder s t h
  | injectionDurationEnd source kind => exact execInjectionDurationEnd_disorder source kind s t h
  | injectionArmTimeout source kind => exact execInjectionArmTimeout_disorder source kind s t h
  | upstreamAttach k orientation rp vbus => exact execUpstreamAttach_disorder k orientation rp vbus s t h
  | upstreamDetach k => exact execUpstreamDetach_disorder k s t h
  | upstreamVbusAbsent k late => exact execUpstreamVbusAbsent_disorder k late s t h
  | upstreamPdMessage k m => exact execUpstreamPdMessage_disorder k m s t h
  | upstreamHardReset k => exact execUpstreamHardReset_disorder k s t h
  | ssLinkU0 k rate => exact execSsLinkU0_disorder k rate s t h
  | ssDecidingExpiry k => exact execSsDecidingExpiry_disorder k s t h
  | ssInactiveExpiry k link => exact execSsInactiveExpiry_disorder k link s t h
  | ssLinkDisabled k => exact execSsLinkDisabled_disorder k s t h
  | lgoU1U2 k u2 unacked => exact execLgoU1U2_disorder k u2 unacked s t h
  | deviceU1U2Entry k u2 unacked => exact execDeviceU1U2Entry_disorder k u2 unacked s t h
  | upstreamU3Entry k => exact execUpstreamU3Entry_disorder k s t h
  | upstreamU3Exit k => exact execUpstreamU3Exit_disorder k s t h
  | ssWarmReset k => exact execSsWarmReset_disorder k s t h
  | ssHotReset k => exact execSsHotReset_disorder k s t h
  | usb2BusReset k highSpeed => exact execUsb2BusReset_disorder k highSpeed s t h
  | usb2LpmTransaction k hird => exact execUsb2LpmTransaction_disorder k hird s t h
  | usb2Suspend k => exact execUsb2Suspend_disorder k s t h
  | usb2Resume k byDevice => exact execUsb2Resume_disorder k byDevice s t h
  | mfStandardRequest k r data => exact execMfStandardRequest_disorder k r data s t h
  | mfBulkOutCommand k bytes => exact execMfBulkOutCommand_disorder k bytes s t h
  | vcpCommand k bytes => exact execVcpCommand_disorder k bytes s t h
  | vcpLastResponse k len => exact execVcpLastResponse_disorder k len s t h
  | mfOtherVendorRequest k r => exact execMfOtherVendorRequest_disorder k r s t h
  | doorbellRing bus mask => exact execDoorbellRing_disorder bus mask s t h
  | smbusDoorbellWrite pecOk => exact execSmbusDoorbellWrite_disorder pecOk s t h
  | smbusSetPointer address pecOk => exact execSmbusSetPointer_disorder address pecOk s t h
  | smbusAlertResponse => exact execSmbusAlertResponse_disorder s t h
  | rspDone m => exact execRspDone_disorder m s t h
  | evtDone m => exact execEvtDone_disorder m s t h
  | crcErrClear m => exact execCrcErrClear_disorder m s t h
  | registerWrite w bytes => exact execRegisterWrite_disorder w bytes s t h
  | helloOpen m => exact execHelloOpen_disorder m s t h
  | helloForceOpen m => exact execHelloForceOpen_disorder m s t h
  | helloGrant m => exact execHelloGrant_disorder m s t h
  | helloRevoke m => exact execHelloRevoke_disorder m s t h
  | resync m => exact execResync_disorder m s t h
  | eventAck m => exact execEventAck_disorder m s t h
  | close m => exact execClose_disorder m s t h
  | getInfo m => exact execGetInfo_disorder m s t h
  | getStatus m => exact execGetStatus_disorder m s t h
  | getTemps m => exact execGetTemps_disorder m s t h
  | unsupportedOpcode opcode m => exact execUnsupportedOpcode_disorder opcode m s t h
  | partGet m => exact execPartGet_disorder m s t h
  | partAssignPort m => exact execPartAssignPort_disorder m s t h
  | partSetLimits m => exact execPartSetLimits_disorder m s t h
  | partConnect m => exact execPartConnect_disorder m s t h
  | partDisconnect m => exact execPartDisconnect_disorder m s t h
  | deferredDisconnectExecute k => exact execDeferredDisconnectExecute_disorder k s t h
  | portGet m => exact execPortGet_disorder m s t h
  | portSetMode m => exact execPortSetMode_disorder m s t h
  | portReset m => exact execPortReset_disorder m s t h
  | portQuench m => exact execPortQuench_disorder m s t h
  | portRelease m => exact execPortRelease_disorder m s t h
  | portSetBc m => exact execPortSetBc_disorder m s t h
  | liftGetPolicy m => exact execLiftGetPolicy_disorder m s t h
  | liftSetClasslist m => exact execLiftSetClasslist_disorder m s t h
  | liftSetEpBoundary m => exact execLiftSetEpBoundary_disorder m s t h
  | liftGetEpStats m => exact execLiftGetEpStats_disorder m s t h
  | liftClearPoison m => exact execLiftClearPoison_disorder m s t h
  | pdSetOffer m => exact execPdSetOffer_disorder m s t h
  | pdSend m => exact execPdSend_disorder m s t h
  | pdSetAutoresp m => exact execPdSetAutoresp_disorder m s t h
  | pdHardReset m => exact execPdHardReset_disorder m s t h
  | ccSetRp m => exact execCcSetRp_disorder m s t h
  | sbuSetRoute m => exact execSbuSetRoute_disorder m s t h
  | pdSetTimers m => exact execPdSetTimers_disorder m s t h
  | slotGet m => exact execSlotGet_disorder m s t h
  | slotSetLimits m => exact execSlotSetLimits_disorder m s t h
  | slotEnable m => exact execSlotEnable_disorder m s t h
  | slotClearLatch m => exact execSlotClearLatch_disorder m s t h
  | vbusSet m => exact execVbusSet_disorder m s t h
  | ppcGet m => exact execPpcGet_disorder m s t h
  | modeGet m => exact execModeGet_disorder m s t h
  | modeRequest m board => exact execModeRequest_disorder m board s t h
  | latBudgetSet m => exact execLatBudgetSet_disorder m s t h
  | wakeSourcesSet m => exact execWakeSourcesSet_disorder m s t h
  | avsGet m => exact execAvsGet_disorder m s t h
  | pbmGetStats m => exact execPbmGetStats_disorder m s t h
  | pbmSetScrub m => exact execPbmSetScrub_disorder m s t h
  | pbmRetire m => exact execPbmRetire_disorder m s t h
  | pbmFlipmask m => exact execPbmFlipmask_disorder m s t h
  | faultRead m => exact execFaultRead_disorder m s t h
  | faultAck m => exact execFaultAck_disorder m s t h
  | faultSetSeverity m => exact execFaultSetSeverity_disorder m s t h
  | faultInject m => exact execFaultInject_disorder m s t h
  | faultpinControl m => exact execFaultpinControl_disorder m s t h
  | fwGet m => exact execFwGet_disorder m s t h
  | fwStageBegin m => exact execFwStageBegin_disorder m s t h
  | fwStageData m => exact execFwStageData_disorder m s t h
  | fwStageCommit m => exact execFwStageCommit_disorder m s t h
  | fwActivate m => exact execFwActivate_disorder m s t h
  | activationPauseEnd => exact execActivationPauseEnd_disorder s t h
  | activationLoadFail => exact execActivationLoadFail_disorder s t h
  | trialPass => exact execTrialPass_disorder s t h
  | trialFail dead => exact execTrialFail_disorder dead s t h
  | diagLoopback m => exact execDiagLoopback_disorder m s t h
  | diagPhyTest m => exact execDiagPhyTest_disorder m s t h
  | diagEye m => exact execDiagEye_disorder m s t h
  | jtagBypass tdi => exact execJtagBypass_disorder tdi s t h
  | jtagIdcode => exact execJtagIdcode_disorder s t h
  | jtagSamplePreload balls cells => exact execJtagSamplePreload_disorder balls cells s t h
  | jtagExtest balls cells => exact execJtagExtest_disorder balls cells s t h
  | connectRecognised c => exact execConnectRecognised_disorder c s t h
  | disconnectRecognised p => exact execDisconnectRecognised_disorder p s t h
  | presentationPossible p => exact execPresentationPossible_disorder p s t h
  | debounceComplete p => exact execDebounceComplete_disorder p s t h
  | deviceResetSe0End p found => exact execDeviceResetSe0End_disorder p found s t h
  | resetRecoveryEnd p => exact execResetRecoveryEnd_disorder p s t h
  | probeRequestComplete p r => exact execProbeRequestComplete_disorder p r s t h
  | probeRequestTimeout p => exact execProbeRequestTimeout_disorder p s t h
  | probeTimeout p => exact execProbeTimeout_disorder p s t h
  | nativeSsU0Held p gen2 => exact execNativeSsU0Held_disorder p gen2 s t h
  | hostPortReset k pos f => exact execHostPortReset_disorder k pos f s t h
  | hostResetSe0End p found => exact execHostResetSe0End_disorder p found s t h
  | hubTopPortReset k f n => exact execHubTopPortReset_disorder k f n s t h
  | hubClearPortPower k side q => exact execHubClearPortPower_disorder k side q s t h
  | hubSetPortPower k side q => exact execHubSetPortPower_disorder k side q s t h
  | hubSetPortIndicator k side q => exact execHubSetPortIndicator_disorder k side q s t h
  | hubPortSuspend k q => exact execHubPortSuspend_disorder k q s t h
  | hubPortResume k q => exact execHubPortResume_disorder k q s t h
  | clearTtBuffer k pos key => exact execClearTtBuffer_disorder k pos key s t h
  | resetTt k pos => exact execResetTt_disorder k pos s t h
  | getTtState k pos => exact execGetTtState_disorder k pos s t h
  | stopTt k pos => exact execStopTt_disorder k pos s t h
  | hubStandardRequest k side hub r => exact execHubStandardRequest_disorder k side hub r s t h
  | liftSuspendOrder p => exact execLiftSuspendOrder_disorder p s t h
  | liftResumeOrder p => exact execLiftResumeOrder_disorder p s t h
  | resumeKEnd p => exact execResumeKEnd_disorder p s t h
  | remoteWakeKRecognised p delta => exact execRemoteWakeKRecognised_disorder p delta s t h
  | u3ExitHandshakeComplete p => exact execU3ExitHandshakeComplete_disorder p s t h
  | hostU3ExitCollision p delta => exact execHostU3ExitCollision_disorder p delta s t h
  | unarmedWakeResuspend p => exact execUnarmedWakeResuspend_disorder p s t h
  | l1IdleExpiry p => exact execL1IdleExpiry_disorder p s t h
  | l1ExitRequest p => exact execL1ExitRequest_disorder p s t h
  | portBabble p => exact execPortBabble_disorder p s t h
  | drainComplete p => exact execDrainComplete_disorder p s t h
  | drainWindowExpiry p => exact execDrainWindowExpiry_disorder p s t h
  | dischargeIntervalEnd p => exact execDischargeIntervalEnd_disorder p s t h
  | stdGetStatus p recipient index len => exact execStdGetStatus_disorder p recipient index len s t h
  | stdClearEndpointHalt p ep => exact execStdClearEndpointHalt_disorder p ep s t h
  | stdSetEndpointHalt p ep => exact execStdSetEndpointHalt_disorder p ep s t h
  | stdSetFunctionSuspend p interface suspend wake => exact execStdSetFunctionSuspend_disorder p interface suspend wake s t h
  | stdU1U2Enable p u2 on => exact execStdU1U2Enable_disorder p u2 on s t h
  | stdSetLtmEnable p => exact execStdSetLtmEnable_disorder p s t h
  | stdDeviceRemoteWakeup p on => exact execStdDeviceRemoteWakeup_disorder p on s t h
  | stdSetTestMode p selector => exact execStdSetTestMode_disorder p selector s t h
  | stdSetAddress p address => exact execStdSetAddress_disorder p address s t h
  | stdGetDescriptor p type index language len => exact execStdGetDescriptor_disorder p type index language len s t h
  | stdSetDescriptor p type index language len => exact execStdSetDescriptor_disorder p type index language len s t h
  | stdGetConfiguration p => exact execStdGetConfiguration_disorder p s t h
  | stdSetConfiguration p value => exact execStdSetConfiguration_disorder p value s t h
  | stdGetInterface p interface => exact execStdGetInterface_disorder p interface s t h
  | stdSetInterface p interface alt => exact execStdSetInterface_disorder p interface alt s t h
  | stdSynchFrame p ep => exact execStdSynchFrame_disorder p ep s t h
  | stdSetSel p data => exact execStdSetSel_disorder p data s t h
  | stdSetIsochDelay p delay => exact execStdSetIsochDelay_disorder p delay s t h
  | stdOtherRequest p r => exact execStdOtherRequest_disorder p r s t h
  | classVendorRequest p r => exact execClassVendorRequest_disorder p r s t h
  | controlWriteDataPacket p bytes => exact execControlWriteDataPacket_disorder p bytes s t h
  | downstreamControlInPacket p r => exact execDownstreamControlInPacket_disorder p r s t h
  | downstreamStatusComplete p r => exact execDownstreamStatusComplete_disorder p r s t h
  | microframeBoundary l => exact execMicroframeBoundary_disorder l s t h
  | hsBulkInPacket p ep r => exact execHsBulkInPacket_disorder p ep r s t h
  | holdWindowExpiry p ep => exact execHoldWindowExpiry_disorder p ep s t h
  | ssAckTpReceived p ep a => exact execSsAckTpReceived_disorder p ep a s t h
  | ssBulkOutPacket p ep bytes => exact execSsBulkOutPacket_disorder p ep bytes s t h
  | hsOutTransactionComplete p ep r => exact execHsOutTransactionComplete_disorder p ep r s t h
  | hsOutStall p ep => exact execHsOutStall_disorder p ep s t h
  | interestLapse p ep => exact execInterestLapse_disorder p ep s t h
  | ssInterruptOutInterval p ep bytes => exact execSsInterruptOutInterval_disorder p ep bytes s t h
  | isochTimestampReceived k interval delta => exact execIsochTimestampReceived_disorder k interval delta s t h
  | ssIsoOutPacket p ep bytes bad => exact execSsIsoOutPacket_disorder p ep bytes bad s t h
  | mergeAgeFlush b word => exact execMergeAgeFlush_disorder b word s t h
  | scrubWord b queued => exact execScrubWord_disorder b queued s t h
  | bucketLeakInterval => exact execBucketLeakInterval_disorder s t h
  | bankRowEmptyMove b row => exact execBankRowEmptyMove_disorder b row s t h
  | bankRowTimeoutCopy b row => exact execBankRowTimeoutCopy_disorder b row s t h
  | ccPatternChange p cc1 cc2 => exact execCcPatternChange_disorder p cc1 cc2 s t h
  | tccDebounceExpiry p => exact execTccDebounceExpiry_disorder p s t h
  | tpdDebounceExpiry p => exact execTpdDebounceExpiry_disorder p s t h
  | raLost p => exact execRaLost_disorder p s t h
  | vconnOvercurrent p => exact execVconnOvercurrent_disorder p s t h
  | errorRecoveryExpiry p => exact execErrorRecoveryExpiry_disorder p s t h
  | cableDiscoveryStart p => exact execCableDiscoveryStart_disorder p s t h
  | sourceCapabilitiesSend p => exact execSourceCapabilitiesSend_disorder p s t h
  | typecSendSourceCapExpiry p => exact execTypecSendSourceCapExpiry_disorder p s t h
  | pdSopDetected p sop size => exact execPdSopDetected_disorder p sop size s t h
  | pdMessageReceived p sop bytes => exact execPdMessageReceived_disorder p sop bytes s t h
  | pdGoodcrcReceived p => exact execPdGoodcrcReceived_disorder p s t h
  | pdReceiveTimeout p => exact execPdReceiveTimeout_disorder p s t h
  | fwdDeadlineExpiry p => exact execFwdDeadlineExpiry_disorder p s t h
  | waitRetryExpiry p => exact execWaitRetryExpiry_disorder p s t h
  | sinkTxExpiry p => exact execSinkTxExpiry_disorder p s t h
  | senderResponseTimeout p => exact execSenderResponseTimeout_disorder p s t h
  | noResponseTimeout p => exact execNoResponseTimeout_disorder p s t h
  | ppsTimeout p => exact execPpsTimeout_disorder p s t h
  | srcTransitionExpiry p => exact execSrcTransitionExpiry_disorder p s t h
  | transitionPgood p => exact execTransitionPgood_disorder p s t h
  | transitionTimeout p => exact execTransitionTimeout_disorder p s t h
  | hardResetReceived p => exact execHardResetReceived_disorder p s t h
  | psHardResetExpiry p => exact execPsHardResetExpiry_disorder p s t h
  | srcRecoverExpiry p => exact execSrcRecoverExpiry_disorder p s t h
  | vconnSourceTimeout p => exact execVconnSourceTimeout_disorder p s t h
  | vconnLineLow p => exact execVconnLineLow_disorder p s t h
  | pdQueuePop k => exact execPdQueuePop_disorder k s t h
  | cdcSetLineCoding k u rate format parity bits => exact execCdcSetLineCoding_disorder k u rate format parity bits s t h
  | cdcGetLineCoding k u => exact execCdcGetLineCoding_disorder k u s t h
  | cdcSetControlLineState k u lines => exact execCdcSetControlLineState_disorder k u lines s t h
  | cdcSendBreak k u ms => exact execCdcSendBreak_disorder k u ms s t h
  | seatNLow k => exact execSeatNLow_disorder k s t h
  | seatNHigh k => exact execSeatNHigh_disorder k s t h
  | seatDebounceExpiry k => exact execSeatDebounceExpiry_disorder k s t h
  | startConditionHolds k mv => exact execStartConditionHolds_disorder k mv s t h
  | pgConditionsHold k => exact execPgConditionsHold_disorder k s t h
  | pgConditionsLost k => exact execPgConditionsLost_disorder k s t h
  | pgDelayExpiry k => exact execPgDelayExpiry_disorder k s t h
  | pgLostTrip k => exact execPgLostTrip_disorder k s t h
  | fastTrip k sense => exact execFastTrip_disorder k sense s t h
  | breakerTimeout k sense => exact execBreakerTimeout_disorder k sense s t h
  | rampStall k => exact execRampStall_disorder k s t h
  | vinWindowExit k mv => exact execVinWindowExit_disorder k mv s t h
  | offTimeExpiry k mv => exact execOffTimeExpiry_disorder k mv s t h
  | tripWindowAging k => exact execTripWindowAging_disorder k s t h
  | slotTelemetrySample k vin vout sense => exact execSlotTelemetrySample_disorder k vin vout sense s t h
  | slotDisableTimeout k => exact execSlotDisableTimeout_disorder k s t h
  | chainFrame k input => exact execChainFrame_disorder k input s t h
  | chainSettlingTimeout k => exact execChainSettlingTimeout_disorder k s t h
  | vbusReleaseStagger k => exact execVbusReleaseStagger_disorder k s t h
  | noPgoodTimeout p => exact execNoPgoodTimeout_disorder p s t h
  | pgoodLostTimeout p => exact execPgoodLostTimeout_disorder p s t h
  | powerDieLinkResume d => exact execPowerDieLinkResume_disorder d s t h
  | supplyWarningClear => exact execSupplyWarningClear_disorder s t h
  | mfInTransfer k ep => exact execMfInTransfer_disorder k ep s t h
  | cdcBulkOutData k u data => exact execCdcBulkOutData_disorder k u data s t h
  | sbuUartRx p c => exact execSbuUartRx_disorder p c s t h
  | smbusClockLowTimeout => exact execSmbusClockLowTimeout_disorder s t h
  | midnightContractReleaseExpiry p => exact execMidnightContractReleaseExpiry_disorder p s t h
  | virtualLinkInactivityTimeout k q u2 => exact execVirtualLinkInactivityTimeout_disorder k q u2 s t h
  | nativeSsPacketReceived p fromDevice bytes => exact execNativeSsPacketReceived_disorder p fromDevice bytes s t h
  | ttSplitTransaction k pos op => exact execTtSplitTransaction_disorder k pos op s t h
  | passthroughTransaction k pos packet answer lpmAck => exact execPassthroughTransaction_disorder k pos packet answer lpmAck s t h
  | wrstRelease board => exact execWrstRelease_disorder board s t h
  | vdpSrcDetected p present => exact execVdpSrcDetected_disorder p present s t h

/-- The canonical form is the absence of disorder. -/
theorem cellsWf_iff_disorder (s : State) : cellsWf s.cells = true ↔ s.disorder = 0 := by
  rw [← State.disorder_fold]
  unfold disorderOf
  split <;> simp_all

/-- Settles O48: a step is a command or nothing, and neither disorders the list. -/
theorem memoryOrderKept : Obligations.MemoryOrderKept := by
  unfold Obligations.MemoryOrderKept
  intro s t hwf h
  unfold step at h
  split at h
  · cases h
    exact hwf
  · next c rest _ =>
    have hle := exec_disorder c { s with pending := rest } t h
    have hzero : State.disorder { s with pending := rest } = 0 := (cellsWf_iff_disorder _).mp hwf
    exact (cellsWf_iff_disorder t).mpr (by omega)

/-- Settles O49: at reset the list is empty and every register of the claim is low. -/
theorem invariantsAtReset : Obligations.InvariantsAtReset := by
  unfold Obligations.InvariantsAtReset
  exact ⟨reset_cellsWf, nofun, fun _ => rfl⟩

end Sys2Proof.Machine
end

