-- ==== Sys2Proof/Proofs/CodeWord.lean ====
section
/-! PROOF. What the checker makes of a word with one or two wrong bits (R215, Table 7.4). -/

namespace Sys2Proof.Machine

open Sys2Proof

/-- The syndrome of an encoded word with wrong bits is that of the wrong bits alone. -/
theorem pbmSyndrome_encode_xor (d : BitVec 128) (e : BitVec 137) : pbmSyndrome (pbmEncode d ^^^ e) = pbmSyndrome e := by
  rw [pbmSyndrome_xor, pbmSyndrome_encode]
  exact BitVec.zero_xor

/-- The data bits of an encoded word with wrong bits. -/
theorem dataOf_encode_xor (d : BitVec 128) (e : BitVec 137) : dataOf (pbmEncode d ^^^ e) = d ^^^ e.setWidth 128 := by
  unfold dataOf
  rw [BitVec.setWidth_xor, encode_data]

/-- One wrong bit among the data bits, as data. -/
theorem oneHot_data (i : Nat) : (1#137 <<< i).setWidth 128 = 1#128 <<< i := by
  apply BitVec.eq_of_getLsbD_eq
  intro j hj
  rw [BitVec.getLsbD_setWidth, BitVec.getLsbD_shiftLeft, BitVec.getLsbD_shiftLeft, BitVec.getLsbD_one, BitVec.getLsbD_one]
  simp only [hj, show j < 137 by omega, decide_true, Bool.true_and]
  simp

/-- One wrong check bit leaves the data. -/
theorem oneHot_check (i : Nat) (hi : 128 ≤ i) : (1#137 <<< i).setWidth 128 = 0#128 := by
  apply BitVec.eq_of_getLsbD_eq
  intro j hj
  rw [BitVec.getLsbD_setWidth, BitVec.getLsbD_shiftLeft]
  simp only [show j < i by omega, decide_true, Bool.not_true, Bool.and_false, Bool.false_and, BitVec.getLsbD_zero]

/-- A word with one wrong bit gives its data back (R217). -/
theorem corrected_one (d : BitVec 128) (i : Nat) : corrected (pbmEncode d ^^^ (1#137 <<< i)) (.correctable i) = d := by
  unfold corrected
  dsimp only
  rw [dataOf_encode_xor]
  split
  · next => rw [oneHot_data i, BitVec.xor_assoc, BitVec.xor_self, BitVec.xor_zero]
  · next hcheck => rw [oneHot_check i (by omega), BitVec.xor_zero]

/-- Settles O53: the code is linear, so what the checker sees is the column of one wrong bit or the sum of two columns. -/
theorem codeCorrects : Obligations.CodeCorrects := by
  unfold Obligations.CodeCorrects
  refine ⟨?clean, ?single, ?double⟩
  case clean =>
    intro d
    rw [pbmSyndrome_encode]
    exact ⟨rfl, encode_data d⟩
  case single =>
    intro d i hi
    refine ⟨?_, corrected_one d i⟩
    rw [pbmSyndrome_encode_xor, pbmSyndrome_one i hi]
    exact classify_column ⟨i, hi⟩
  case double =>
    intro d i j hij hj
    have hi : i < 137 := by omega
    rw [BitVec.xor_assoc, pbmSyndrome_encode_xor, pbmSyndrome_xor, pbmSyndrome_one i hi, pbmSyndrome_one j hj]
    exact classify_two _ _ (column_at i hi) (column_at j hj) (column_ne i j hij hj)

end Sys2Proof.Machine
end

