-- ==== Sys2Proof/Proofs/RowEffects.lean ====
section
/-! PROOF. What an opcode row answers, once its effect on the state with clear wires is known: one lemma per kind of row. -/

namespace Sys2Proof.Machine

open Sys2Proof

/-- A row that acts in every condition of the block. -/
theorem row_next {f : State → State} {s u : State} (h : f s.begin = u) : run f s = .next (u.finish s.begin) := by
  rw [run_eq, h]

/-- A row of AON or of a power die, outside Off. -/
theorem aonRow_next {f : State → State} {s u : State} (hmode : s.mode ≠ .off) (h : f s.begin = u) :
    run (ifAon f) s = .next (u.finish s.begin) := by
  rw [run_ifAon f s hmode, h]

/-- A row of the always-on domain, with PORST_N high. -/
theorem porstRow_next {f : State → State} {s u : State} (hup : s.aonUp = true) (h : f s.begin = u) :
    run (ifPorst f) s = .next (u.finish s.begin) := by
  rw [run_ifPorst f s hup, h]

/-- A row of a switched domain, with the domain up. -/
theorem upRow_next {f : State → State} {s u : State} (hup : s.switchedUp) (h : f s.begin = u) :
    run (ifUp f) s = .next (u.finish s.begin) := by
  rw [run_ifUp f s hup, h]

end Sys2Proof.Machine
end

