-- ==== Sys2Proof/Proofs/Modes.lean ====
section
/-! PROOF. Resets, mode changes, Dusk and the power domains (chapter 10). -/

namespace Sys2Proof.Machine

open Sys2Proof

/-- Settles O1: a power-on reset leaves the reset state; every other row is its branch of the row's effect. -/
theorem powerOnReset : Obligations.PowerOnReset := by
  unfold Obligations.PowerOnReset
  refine ⟨?porstAssert, ?vaonFailure, ?releaseTest, ?releaseBoot, ?wrstAssert, ?wrstRelease⟩
  case porstAssert => exact powerOff_run
  case vaonFailure => exact powerOff_run
  case releaseTest =>
    intro s b hoff hlow
    refine row_next ?_
    exact if_pos (by simp [hoff, hlow])
  case releaseBoot =>
    intro s b hoff hlow
    refine row_next ?_
    exact (if_pos (by simp [hoff, hlow])).trans (if_neg (by simp))
  case wrstAssert =>
    intro s hoff hdawn
    refine row_next ?_
    exact if_neg (by simp [hoff, hdawn])
  case wrstRelease =>
    intro s b hdawn hlow
    refine row_next ?_
    exact if_pos (by simp [hdawn, hlow])

/-- In Night an enabled source wakes the device to where it came from (Table 10.3). -/
theorem wake_night (s : State) (code : Nat) (hmode : s.mode = .night) (hwakes : s.wakesNight code = true) (harrival : s.arrival = none) :
    s.wake code = (s.goBack s.back causeWake code).runQueue := by
  unfold State.wake State.nightWake
  simp [hmode, hwakes, harrival]

/-- In Midnight an enabled source starts the device (R341). -/
theorem wake_midnight (s : State) (code : Nat) (hmode : s.mode = .midnight) (hwakes : s.wakesMidnight code = true) :
    s.wake code = s.boot true := by
  unfold State.wake
  simp [hmode, hwakes]

/-- With no cause left and the core supply high enough, a rise without a request ends in Noon (R337, R353). -/
theorem rise_noon (s : State) (cause : Byte) (detail : Nat) (hcauses : s.eveHolds = false) (hcore : s.coreNeed .noon ≤ s.avs.confirmed) :
    s.rise cause detail none = State.enterMode { s with arrival := none } .noon cause detail none := by
  unfold State.rise State.arriveUp
  simp [hcauses, hcore, State.okReq, State.answerReq]

/-- Settles O2: each row reaches its branch under the clause's conditions, and a wake is `wake_night` or `wake_midnight`. -/
theorem modeMoves : Obligations.ModeMoves := by
  unfold Obligations.ModeMoves
  refine ⟨?eveningHoldExpiry, ?autoNightStart, ?nightWake, ?midnightWake, ?wakeNLow, ?wakeTimerExpiry⟩
  case eveningHoldExpiry =>
    intro s hmode hbusy hcauses hcore
    refine aonRow_next (by simp [hmode]) ?_
    rw [← rise_noon s.begin causeClear 0 hcauses hcore]
    refine if_pos ?_
    rw [show s.begin.busy = s.busy from rfl, show s.begin.eveHolds = s.eveHolds from rfl, hbusy, hcauses]
    simp [hmode]
  case autoNightStart =>
    intro s hmode hauto hbusy hqueue hpaused hquiet
    have hon : s.mode ≠ .off := by rcases hmode with h | h | h <;> simp [h]
    refine aonRow_next hon ?_
    refine if_pos ?_
    have hall : (List.finRange 16).all (fun k => (s.parts.get k).st != .connected && !s.wantsTree k) = true := by
      simpa using hquiet
    rw [show s.begin.busy = s.busy from rfl, hbusy]
    refine Bool.and_eq_true_iff.mpr ⟨?_, by simp [hpaused]⟩
    refine Bool.and_eq_true_iff.mpr ⟨?_, hall⟩
    rcases hmode with h | h | h <;> simp [hauto, hqueue, h]
  case nightWake =>
    intro s code hmode hwakes harrival
    refine aonRow_next (by simp [hmode]) ?_
    exact (if_pos hmode).trans (wake_night s.begin code.val hmode hwakes harrival)
  case midnightWake =>
    intro s code b hmode hwakes
    refine aonRow_next (by simp [hmode]) ?_
    exact (if_pos hmode).trans (wake_midnight { s.begin with board := b } code.val hmode hwakes)
  case wakeNLow =>
    intro s hmode hwakes
    exact aonRow_next (by simp [hmode]) (wake_midnight s.begin 3 hmode hwakes)
  case wakeTimerExpiry =>
    intro s hmode hsource htimer harrival
    refine aonRow_next (by simp [hmode]) (wake_night s.begin 6 hmode ?_ harrival)
    simp [State.wakesNight, hsource, htimer]

/-- Each step of Dusk is begun, or PREPARE goes out, as `State.duskStep` says. -/
theorem duskSteps_eq (s : State) (t : Trans) (htrans : s.trans = some t) (hstage : t.stage = .steps) :
    s.duskSteps = match s.duskStep t.req.goal t.begun with
      | some u => u
      | none => ((if t.req.goal = .off then forAll allPorts (fun s p => s.openTypeC p) s else s).sendPrepare).runQueue := by
  unfold State.duskSteps
  split
  · next hnone => cases hnone.symm.trans htrans
  · next u hsome =>
    cases hsome.symm.trans htrans
    rw [if_neg (by simp [hstage])]
    cases s.duskStep t.req.goal t.begun <;> rfl

/-- An answer that PREPARE still awaits is pending. -/
theorem any_awaited {l : List (Fin 25 × PrepAnswer)} {d : Fin 25} {a b : PrepAnswer} (hmem : (d, a) ∈ l) (hne : a ≠ b) :
    l.any (fun x => x.1 == d && x.2 != b) = true :=
  List.any_eq_true.mpr ⟨(d, a), hmem, by simp [hne]⟩

/-- What a participant's awaited answer does (R336). -/
theorem prepareAnswer_awaited (s : State) (t : Trans) (d : Fin 25) (defer : Bool) (htrans : s.trans = some t) (hstage : t.stage = .prepare)
    (hmem : (d, PrepAnswer.awaited) ∈ t.answers) :
    s.prepareAnswer d defer = match s.refusal t.req.goal d with
      | some r => (s.abortDusk r (domCode d)).runQueue
      | none =>
        if defer || s.mustDefer (t.req.goal == .off || t.req.goal == .midnight) d then s.setAnswer d .deferring
        else if (((s.setAnswer d .accepted).trans.map (fun (t : Trans) => t.answers.all (fun x => x.2 == PrepAnswer.accepted))).getD false)
          then (s.setAnswer d .accepted).commitDusk.runQueue else s.setAnswer d .accepted := by
  unfold State.prepareAnswer
  refine (if_pos ?pending).trans ?answer
  case pending =>
    rw [htrans]
    simp [hstage, any_awaited hmem (b := .accepted) (by decide)]
  case answer =>
    split
    · next hnone => cases hnone.symm.trans htrans
    · next u hsome =>
      cases hsome.symm.trans htrans
      cases s.refusal t.req.goal d <;> rfl

/-- The last awaited answer makes all of them accepted. -/
theorem setAnswer_allAccepted (s : State) (t : Trans) (d : Fin 25) (htrans : s.trans = some t)
    (hrest : ∀ x ∈ t.answers, x.1 = d ∨ x.2 = .accepted) :
    (((s.setAnswer d .accepted).trans.map (fun (t : Trans) => t.answers.all (fun x => x.2 == PrepAnswer.accepted))).getD false) = true := by
  simp only [State.setAnswer, htrans, Option.map_some, Option.getD_some, List.all_map, List.all_eq_true]
  intro x hx
  rcases hrest x hx with h | h
  · simp [h]
  · by_cases hd : x.1 = d <;> simp [hd, h]

/-- Settles O3: the steps by `duskSteps_eq`, the answers by `prepareAnswer_awaited`. -/
theorem duskRows : Obligations.DuskRows := by
  unfold Obligations.DuskRows
  refine ⟨?nextStep, ?prepare, ?bound, ?refused, ?deferred, ?accepted, ?deferExpired⟩
  case nextStep =>
    intro s t u hmode htrans hstage hstep
    refine aonRow_next hmode ?_
    exact (duskSteps_eq s.begin t htrans hstage).trans (by rw [hstep])
  case prepare =>
    intro s t hmode htrans hstage hgoal hstep
    refine aonRow_next hmode ?_
    exact (duskSteps_eq s.begin t htrans hstage).trans (by rw [hstep]; dsimp only; rw [if_neg hgoal])
  case bound =>
    intro s t hmode htrans hstage
    refine aonRow_next hmode ?_
    unfold State.duskBound
    simp only [State.begin_trans, htrans, hstage, if_true]
  case refused =>
    intro s t d defer r hmode htrans hstage hmem hrefusal
    refine aonRow_next hmode ?_
    refine (prepareAnswer_awaited s.begin t d defer htrans hstage hmem).trans ?_
    rw [show s.begin.refusal t.req.goal d = some r from hrefusal]
  case deferred =>
    intro s t d defer hmode htrans hstage hmem hrefusal hdefer
    refine aonRow_next hmode ?_
    refine (prepareAnswer_awaited s.begin t d defer htrans hstage hmem).trans ?_
    rw [show s.begin.refusal t.req.goal d = none from hrefusal]
    exact if_pos hdefer
  case accepted =>
    intro s t d hmode htrans hstage hmem hrest hrefusal hdefer
    refine aonRow_next hmode ?_
    refine (prepareAnswer_awaited s.begin t d false htrans hstage hmem).trans ?_
    rw [show s.begin.refusal t.req.goal d = none from hrefusal]
    refine (if_neg (by rw [show s.begin.mustDefer _ d = s.mustDefer _ d from rfl, hdefer]; simp)).trans ?_
    exact if_pos (setAnswer_allAccepted s.begin t d htrans hrest)
  case deferExpired =>
    intro s t d hmode htrans hstage hmem
    refine aonRow_next hmode ?_
    unfold State.deferExpired
    have hany : t.answers.any (fun x => x.1 == d && x.2 == PrepAnswer.deferring) = true :=
      List.any_eq_true.mpr ⟨_, hmem, by simp⟩
    simp only [State.begin_trans, htrans, hstage, beq_self_eq_true, Bool.true_and, hany, if_true]

/-- Settles O4: each clause's conditions are the guards of its row's effect. -/
theorem domainRows : Obligations.DomainRows := by
  unfold Obligations.DomainRows
  refine ⟨?budgetEntry, ?exitStart, ?exitComplete, ?dischargeEnd, ?contractRelease⟩
  case budgetEntry =>
    intro s d st hmode hrule hentries hexiting htrans htarget hdeeper
    refine aonRow_next hmode ?_
    show s.begin.budgetEntry d = _
    unfold State.budgetEntry
    simp only [show s.begin.ruleNow d = s.ruleNow d from rfl, show s.begin.autoTarget d = s.autoTarget d from rfl, hrule, htarget,
      State.begin_entries, State.begin_exiting, State.begin_trans, State.begin_domains, hentries, htrans]
    simp [hexiting, hdeeper]
  case exitStart =>
    intro s k hmode
    have hon : s.mode ≠ .off := by rcases hmode with h | h | h | h <;> simp [h]
    refine aonRow_next hon ?_
    refine if_neg ?_
    rcases hmode with h | h | h | h <;> simp [h]
  case exitComplete =>
    intro s d hmode hmem
    refine aonRow_next hmode ?_
    exact if_pos (by simpa using hmem)
  case dischargeEnd =>
    intro s p hmode hdis
    refine aonRow_next (by simp [hmode]) ?_
    exact if_pos (by simp [hmode, hdis])
  case contractRelease =>
    intro s p t hmode htrans hgoal hbegun hexplicit hreleased hhr
    refine aonRow_next hmode ?_
    unfold State.releaseExpired
    simp only [State.begin_trans, htrans]
    exact if_pos (by simp [hgoal, hbegun, hexplicit, hhr, show s.begin.contractReleased p = s.contractReleased p from rfl, hreleased])

end Sys2Proof.Machine
end

