-- ==== Sys2Proof/Proofs/Supplies.lean ====
section
/-! PROOF. Die sensors, monitored rails, clocks and the AVSBus master (chapter 10). -/

namespace Sys2Proof.Machine

open Sys2Proof

/-- Where management runs, the device is not in Off. -/
theorem mode_ne_off_of_mgtUp {s : State} (h : s.mgtUp = true) : s.mode ≠ .off := by
  intro hoff
  simp [State.mgtUp, hoff] at h

/-- Settles O5: management runs, or the device is not in Off, and the row's effect takes its one branch. -/
theorem sensorsAndSupplies : Obligations.SensorsAndSupplies := by
  unfold Obligations.SensorsAndSupplies
  refine ⟨?dieSensorSample, ?thermalEvening, ?tjCritical, ?supplyWarning, ?supplyFailure, ?supplyWarningClear⟩
  case dieSensorSample =>
    intro s t hmgt
    exact aonRow_next (mode_ne_off_of_mgtUp hmgt) (if_pos hmgt)
  case thermalEvening =>
    intro s i hmgt hhot
    exact aonRow_next (mode_ne_off_of_mgtUp hmgt) (if_pos (Bool.and_eq_true_iff.mpr ⟨hmgt, decide_eq_true hhot⟩))
  case tjCritical =>
    intro s i hmgt hcrit
    exact aonRow_next (mode_ne_off_of_mgtUp hmgt) (if_pos (Bool.and_eq_true_iff.mpr ⟨hmgt, hcrit⟩))
  case supplyWarning =>
    intro s r mv hmode
    exact aonRow_next hmode (if_neg hmode)
  case supplyFailure =>
    intro s r mv hmode
    exact aonRow_next hmode (if_neg hmode)
  case supplyWarningClear =>
    intro s hmode
    exact aonRow_next hmode rfl

/-- The state after an AVSBus request for a voltage. -/
def State.avsRequest (s : State) (v : Nat) : State := { s with avs := { s.avs with target := v, outstanding := some v } }.emit (.avsWrite v)

/-- The re-evaluation asks for the next voltage toward the target, where the bus is free and that is a change (R352). -/
theorem avsEvaluate_eq (s : State) (v : Nat) (hmgt : s.mgtUp = true) (hpaused : s.fw.paused = false) (hfree : s.avs.outstanding = none)
    (hholdoff : s.avs.holdoff = false)
    (hv : (if s.avs.confirmed < s.coreNeed s.mode then min (s.coreNeed s.mode) (s.avs.confirmed + 25)
      else max (s.coreNeed s.mode) (s.avs.confirmed - 25)) = v) (hchange : v ≠ s.avs.confirmed) :
    s.avsEvaluate = s.avsRequest v := by
  unfold State.avsEvaluate
  rw [if_neg (by simp [hmgt, hpaused, hfree, hholdoff])]
  dsimp only
  rw [hv, if_neg hchange]
  rfl

/-- Settles O6: the request moves by at most 25 mV either way, and each completion or timeout takes its branch. -/
theorem clocksAndCoreSupply : Obligations.ClocksAndCoreSupply := by
  unfold Obligations.ClocksAndCoreSupply
  refine ⟨?crystal, ?calibration, ?refclkLoss, ?avsRaise, ?avsLower, ?avsComplete, ?avsTimeout, ?avsTimeoutArrival, ?holdoff⟩
  case crystal =>
    intro s haon
    exact row_next (if_neg (by simp [haon]))
  case calibration =>
    intro s hmgt
    exact aonRow_next (mode_ne_off_of_mgtUp hmgt) (if_pos hmgt)
  case refclkLoss =>
    intro s hmode hused
    exact aonRow_next hmode (if_pos hused)
  case avsRaise =>
    intro s hmgt hpaused hfree hholdoff hlow
    refine aonRow_next (mode_ne_off_of_mgtUp hmgt) ?_
    exact avsEvaluate_eq s.begin _ hmgt hpaused hfree hholdoff (if_pos hlow) (by simp only [State.begin_avs]; omega)
  case avsLower =>
    intro s hmgt hpaused hfree hholdoff hhigh
    refine aonRow_next (mode_ne_off_of_mgtUp hmgt) ?_
    exact avsEvaluate_eq s.begin _ hmgt hpaused hfree hholdoff (if_neg (Nat.lt_asymm hhigh)) (by simp only [State.begin_avs]; omega)
  case avsComplete =>
    intro s v voltage current temp status hmode hout harmed
    refine aonRow_next hmode ?_
    rw [show s.begin.armed 0x005 0x34 = none from harmed]
    show s.begin.avsComplete voltage current temp status = _
    unfold State.avsComplete
    rw [show s.begin.avs.outstanding = some v from hout]
    rfl
  case avsTimeout =>
    intro s v hmode hout harrival
    refine aonRow_next hmode ?_
    show s.begin.avsTimeout = _
    unfold State.avsTimeout
    rw [show s.begin.avs.outstanding = some v from hout]
    dsimp only
    rw [show (s.begin.avsFail v).arrival = none from harrival]
    rfl
  case avsTimeoutArrival =>
    intro s v a hmode hout harrival
    refine aonRow_next hmode ?_
    show s.begin.avsTimeout = _
    unfold State.avsTimeout
    rw [show s.begin.avs.outstanding = some v from hout]
    dsimp only
    rw [show (s.begin.avsFail v).arrival = some a from harrival]
    rfl
  case holdoff =>
    intro s hmode
    exact aonRow_next hmode rfl

end Sys2Proof.Machine
end

