-- ==== Sys2Proof/Proofs/FaultRows.lean ====
section
/-! PROOF. Links between the dies, alarm pairs, the Fault Collector and injection points (chapters 1 and 12). -/

namespace Sys2Proof.Machine

open Sys2Proof

/-- Settles O7: the link is in the state that the row acts on, and nothing holds it down. -/
theorem dieLinks : Obligations.DieLinks := by
  unfold Obligations.DieLinks
  refine ⟨?retrain, ?returns, ?fail, ?timeout, ?silence, ?resume⟩
  case retrain =>
    intro s d hup hactive
    refine upRow_next hup ?_
    show State.portLinkRetrain s.begin d = _
    unfold State.portLinkRetrain
    simp [Tab.upd, hactive]
  case returns =>
    intro s d hup hactive hheld
    refine upRow_next hup ?_
    exact (if_neg (by rw [show s.begin.linkHeldDown d = s.linkHeldDown d from rfl, hheld]; simp)).trans (if_neg hactive)
  case fail =>
    intro s d hup hretraining
    exact upRow_next hup (if_pos hretraining)
  case timeout =>
    intro s d hmode hlink
    exact aonRow_next hmode (if_pos (by simp [hmode, hlink]))
  case silence =>
    intro s d hmode hlink
    exact aonRow_next hmode (if_pos (by simp [hlink]))
  case resume =>
    intro s d hmode hlink hsilent hheld
    refine aonRow_next hmode ?_
    exact (if_neg (by rw [show s.begin.powerLinkHeldDown d = s.powerLinkHeldDown d from rfl, hheld]; simp)).trans
      (if_neg (by simp [hlink]))

/-- Settles O8: what the pair showed before decides the branch. -/
theorem alarmPairs : Obligations.AlarmPairs := by
  unfold Obligations.AlarmPairs
  refine ⟨?asserted, ?cleared, ?lineFault⟩
  case asserted =>
    intro s i hmode hwas
    refine aonRow_next hmode ?_
    exact (if_neg hmode).trans (if_pos (by simp [hwas]))
  case cleared =>
    intro s i hmode
    refine aonRow_next hmode ?_
    exact (if_neg hmode).trans ((if_neg (by simp)).trans (if_pos rfl))
  case lineFault =>
    intro s i level hmode hwas hfault
    refine aonRow_next hmode ?_
    refine (if_neg hmode).trans ?_
    simp only [State.begin_alarms, hwas, hfault, Bool.false_eq_true, if_false]

/-- A report outside the sources that act by themselves only enters the Fault Collector (Table 12.3). -/
theorem detectorReports_plain (s : State) (source : BitVec 12) (kind : Byte) (info : BitVec 32) (place : Option (Port × Byte))
    (hsource : source.toNat < 0x130 ∧ source.toNat ≠ 0x007 ∨ 0x160 ≤ source.toNat ∧ source.toNat < 0x800) :
    s.detectorReports source kind info false place = s.report { source, kind, info, injected := false } := by
  have hdata : ¬ 0x800 ≤ source.toNat := by omega
  have hfabric : source.toNat ≠ 0x007 := by omega
  have htt : ¬ (0x130 ≤ source.toNat ∧ source.toNat < 0x140) := by omega
  have hpd : ¬ (0x150 ≤ source.toNat ∧ source.toNat < 0x160) := by omega
  unfold State.detectorReports State.inherent
  simp [hdata, hfabric, htt, hpd]

/-- A change of the Fault Collector's state, given what it comes to. -/
theorem updFault_eq {s : State} {f : FaultState → FaultState} {x : FaultState} (h : f s.fault = x) :
    s.updFault f = { s with fault := x } := by
  unfold State.updFault
  rw [h]

/-- Settles O9: a message of a known pair is handed on, and each end of a pulse, a reaction or a restart takes its branch. -/
theorem faultCollectorRows : Obligations.FaultCollectorRows := by
  unfold Obligations.FaultCollectorRows
  refine ⟨?report, ?unknown, ?pulseEnd, ?gapEnd, ?safeHold, ?reaction, ?shadow, ?kick, ?watchdog⟩
  case report =>
    intro s source kind info place hmode hrow hsource
    refine (if_neg ?_).trans (aonRow_next hmode (detectorReports_plain s.begin source kind info place hsource))
    rw [Option.isNone_iff_eq_none, ← Option.not_isSome_iff_eq_none, hrow]
    simp
  case unknown =>
    intro s source kind info injected place hrow
    exact if_pos (by simp [hrow])
  case pulseEnd =>
    intro s hmode hpulsing
    exact aonRow_next hmode (updFault_eq (if_pos hpulsing))
  case gapEnd =>
    intro s hmode hpulsing hgap hwaiting hpin
    refine aonRow_next hmode (updFault_eq ?_)
    exact (if_neg (by simp [hpulsing])).trans ((if_pos hgap).trans (if_pos (by simp [hwaiting, hpin])))
  case safeHold =>
    intro s hmode hrestart hpause
    refine aonRow_next hmode ?_
    refine (if_neg (by simp [hrestart])).trans (if_neg ?_)
    exact ne_true_of_eq_false hpause
  case reaction =>
    intro s r aged intact hmode _ hr
    exact aonRow_next hmode (if_neg (by simp [hr]))
  case shadow =>
    intro s r hmode
    exact aonRow_next hmode (updFault_eq rfl)
  case kick =>
    intro s
    exact row_next (f := fun s => s) rfl
  case watchdog =>
    intro s hon hmgt hrestarting hrestart
    refine aonRow_next (mode_ne_off_of_mgtUp hmgt) (if_pos ?_)
    rw [show s.begin.mgtUp = s.mgtUp from rfl, hmgt]
    simp [hon, hrestarting, hrestart]

/-- The end of a timed point that is armed: what its source does first, then the point is spent (R429). -/
theorem injectionEnds_armed (s : State) (i : Injection)
    (harmed : s.fault.injections.find? (fun x => x.source == i.source && x.kind == i.kind && x.timed) = some i) :
    s.injectionEnds i.source i.kind =
      ((if 0x010 ≤ i.source.toNat && i.source.toNat < 0x020 then
          s.forced i.source.toNat (fun s => s.thermalCritical (Fin.ofNat 16 i.source.toNat)) else s).spend i).endForce i.source.toNat := by
  unfold State.injectionEnds
  rw [harmed]

/-- A forced die sensor leaves nothing behind. -/
theorem endForce_sensor (s : State) (source : Nat) (h : source < 0x020) : s.endForce source = s := if_pos h

/-- Settles O10: the source of the point decides what its end does. -/
theorem injectionEnds : Obligations.InjectionEnds := by
  unfold Obligations.InjectionEnds
  refine ⟨?durationEnd, ?sensorEnd, ?armTimeout⟩
  case durationEnd =>
    intro s i hmode harmed hsource
    refine aonRow_next hmode ((injectionEnds_armed s.begin i harmed).trans ?_)
    rw [if_neg (by simp only [Bool.and_eq_true, decide_eq_true_eq]; omega)]
    rfl
  case sensorEnd =>
    intro s i hmode harmed hsource
    refine aonRow_next hmode ((injectionEnds_armed s.begin i harmed).trans ?_)
    rw [if_pos (by simpa using hsource), endForce_sensor _ _ hsource.2]
  case armTimeout =>
    intro s source kind hmode
    exact aonRow_next hmode rfl

end Sys2Proof.Machine
end

