-- ==== Sys2Proof/Proofs/Commands.lean ====
section
/-! PROOF. What holds of every command: which one a step runs, which is refused, which sleep with their domain; and the state at reset. -/

namespace Sys2Proof.Machine

open Sys2Proof

/-- Settles O45: the two branches of `step`. -/
theorem stepRunsFrontCommand : Obligations.StepRunsFrontCommand := by
  unfold Obligations.StepRunsFrontCommand
  refine ⟨?waiting, ?idle⟩
  case waiting =>
    intro s c q hq
    unfold step
    rw [hq]
  case idle =>
    intro s hq
    unfold step
    rw [hq]

/-- A message of a pair that no row of the fault table names is refused. -/
theorem detectorMessage_unpaired (s : State) (source : BitVec 12) (kind : Byte) (info : BitVec 32) (injected : Bool)
    (place : Option (Port × Byte)) (h : faultRow source.toNat kind.toNat = none) :
    exec (.detectorMessage source kind info injected place) s = .refused (.illFormed "DETECTOR_MESSAGE") :=
  if_pos (Option.isNone_iff_eq_none.mpr h)

/-- A message of a pair that the fault table names has a next state. -/
theorem detectorMessage_paired (s : State) (source : BitVec 12) (kind : Byte) (info : BitVec 32) (injected : Bool)
    (place : Option (Port × Byte)) (h : (faultRow source.toNat kind.toNat).isSome = true) :
    ∃ t, exec (.detectorMessage source kind info injected place) s = .next t := by
  refine ⟨_, (if_neg ?_).trans (run_eq (ifAon fun s => s.detectorMessage source kind info injected place) s)⟩
  rw [Option.isNone_iff_eq_none, ← Option.not_isSome_iff_eq_none, h]
  simp

/-- Settles O54: every row but DETECTOR_MESSAGE is a run of an effect, which has a next state. -/
theorem onlyUnpairedReportsRefused : Obligations.OnlyUnpairedReportsRefused := by
  unfold Obligations.OnlyUnpairedReportsRefused
  refine ⟨?total, detectorMessage_unpaired, detectorMessage_paired⟩
  intro c s
  cases c
  case detectorMessage source kind info injected place =>
    cases h : faultRow source.toNat kind.toNat with
    | none => exact .inr (detectorMessage_unpaired s source kind info injected place h)
    | some r => exact .inl (detectorMessage_paired s source kind info injected place (by rw [h]; rfl))
  all_goals exact .inl ⟨_, rfl⟩

/-- A row of a switched domain is a run of an effect that the domain gates. -/
theorem exec_switchedRow (c : Instr) (s : State) (h : switchedRow c = true) : ∃ f, exec c s = run (ifUp f) s := by
  cases c with
  | portDieLinkRetrain | portDieLinkReturn | portDieLinkFail | upstreamPdMessage | upstreamHardReset | ssLinkU0 | ssDecidingExpiry
  | ssInactiveExpiry | ssLinkDisabled | lgoU1U2 | deviceU1U2Entry | upstreamU3Entry | upstreamU3Exit | ssWarmReset | ssHotReset
  | usb2BusReset | usb2LpmTransaction | usb2Suspend | usb2Resume | mfStandardRequest | mfBulkOutCommand | vcpCommand | vcpLastResponse
  | mfOtherVendorRequest | connectRecognised | disconnectRecognised | presentationPossible | debounceComplete | deviceResetSe0End
  | resetRecoveryEnd | probeRequestComplete | probeRequestTimeout | probeTimeout | nativeSsU0Held | hostPortReset | hostResetSe0End
  | hubTopPortReset | hubClearPortPower | hubSetPortPower | hubSetPortIndicator | hubPortSuspend | hubPortResume | clearTtBuffer | resetTt
  | getTtState | stopTt | hubStandardRequest | liftSuspendOrder | liftResumeOrder | resumeKEnd | remoteWakeKRecognised
  | u3ExitHandshakeComplete | hostU3ExitCollision | unarmedWakeResuspend | l1IdleExpiry | l1ExitRequest | portBabble | drainComplete
  | drainWindowExpiry | stdGetStatus | stdClearEndpointHalt | stdSetEndpointHalt | stdSetFunctionSuspend | stdU1U2Enable | stdSetLtmEnable
  | stdDeviceRemoteWakeup | stdSetTestMode | stdSetAddress | stdGetDescriptor | stdSetDescriptor | stdGetConfiguration
  | stdSetConfiguration | stdGetInterface | stdSetInterface | stdSynchFrame | stdSetSel | stdSetIsochDelay | stdOtherRequest
  | classVendorRequest | controlWriteDataPacket | downstreamControlInPacket | downstreamStatusComplete | microframeBoundary
  | hsBulkInPacket | holdWindowExpiry | ssAckTpReceived | ssBulkOutPacket | hsOutTransactionComplete | hsOutStall | interestLapse
  | ssInterruptOutInterval | isochTimestampReceived | ssIsoOutPacket | mergeAgeFlush | scrubWord | bucketLeakInterval | bankRowEmptyMove
  | bankRowTimeoutCopy | cableDiscoveryStart | sourceCapabilitiesSend | typecSendSourceCapExpiry | pdSopDetected | pdMessageReceived
  | pdGoodcrcReceived | pdReceiveTimeout | fwdDeadlineExpiry | waitRetryExpiry | sinkTxExpiry | senderResponseTimeout | noResponseTimeout
  | ppsTimeout | srcTransitionExpiry | transitionPgood | transitionTimeout | hardResetReceived | psHardResetExpiry | srcRecoverExpiry
  | vconnSourceTimeout | vconnLineLow | pdQueuePop | cdcSetLineCoding | cdcGetLineCoding | cdcSetControlLineState | cdcSendBreak
  | mfInTransfer | cdcBulkOutData | sbuUartRx | virtualLinkInactivityTimeout | nativeSsPacketReceived | ttSplitTransaction
  | passthroughTransaction | vdpSrcDetected => exact ⟨_, rfl⟩
  | _ => cases h

/-- Settles O55: the gated effect does nothing, and where nothing waits what ends the command does nothing either. -/
theorem switchedRowsSleep : Obligations.SwitchedRowsSleep := by
  unfold Obligations.SwitchedRowsSleep
  have hsleep : ∀ (c : Instr) (s : State), switchedRow c = true → ¬ s.switchedUp → exec c s = .next (s.begin.finish s.begin) := by
    intro c s hrow hdown
    obtain ⟨f, hf⟩ := exec_switchedRow c s hrow
    rw [hf, run_ifUp_down f s hdown]
  refine ⟨hsleep, ?_⟩
  intro c s hrow hdown hcalm
  rw [hsleep c s hrow hdown, finish_calm s.begin s.begin hcalm (fun _ hdue => ⟨hdue, rfl⟩)]

/-- Settles O60: each field of the reset state is the one the clause names. -/
theorem resetState : Obligations.ResetState := by
  unfold Obligations.ResetState
  refine ⟨?device, ?sessions, ⟨rfl, rfl, rfl⟩, ?power, ⟨rfl, rfl, rfl⟩⟩
  case device => exact ⟨rfl, rfl, rfl, fun d => Tab.get_const _ d⟩
  case sessions =>
    intro i
    rw [show State.reset.sessions.get i = {} from Tab.get_const _ i]
    exact ⟨rfl, rfl, rfl⟩
  case power =>
    refine ⟨fun k => ?_, fun k => ?_, fun p => ?_⟩
    · rw [show State.reset.slots.get k = {} from Tab.get_const _ k]
    · rw [show State.reset.chains.get k = {} from Tab.get_const _ k]
    · rw [show State.reset.pd.get p = {} from Tab.get_const _ p]

end Sys2Proof.Machine
end

