-- ==== Sys2Proof/Proofs/UpstreamAttach.lean ====
section
/-! PROOF. Attach, detach and PD of an upstream port (chapter 6). -/

namespace Sys2Proof.Machine

open Sys2Proof

/-- An attach where CONNECT_ARMED is clear presents nothing (R56, R179). -/
theorem upAttach_unarmed (s : State) (k : Part) (orientation : Bool) (rp : Fin 4) (vbus : Bool) (hrd : (s.ups.get k).rd = true)
    (hdetached : (s.ups.get k).attached = false) (hrp : rp ≠ 0) (hvbus : (s.ups.get k).vbusInput = false ∨ vbus = true)
    (harmed : (s.parts.get k).armed = false) :
    s.upAttach k orientation rp vbus = s.updUp k (fun u =>
      { u with attached := true, orientation, hostRp := rp, vbusPresent := true, hardReset := false }) := by
  unfold State.upAttach State.evalPresent
  dsimp only
  have hpresent : (vbus || !(s.ups.get k).vbusInput) = true := by rcases hvbus with h | h <;> simp [h]
  rw [if_neg (by rcases hvbus with h | h <;> simp [hrd, hdetached, hrp, h]), if_neg (by simp [harmed])]
  exact updUp_congr s k _ _ (by rw [hpresent])

/-- A detach of an attached port (R179). -/
theorem upDetach_attached (s : State) (k : Part) (hattached : (s.ups.get k).attached = true) :
    s.upDetach k =
      let u := s.updUp k (fun u => { u with
        attached := false, orientation := false, swapped := false, hostRp := 0, vbusPresent := false, contract := false, hardReset := false,
        pdTx := 0, pdRx := none })
      if (s.parts.get k).st = .connected ∨ (s.parts.get k).st = .suspended then u.withdraw k .withdrawn false .chargeOnly else u := by
  unfold State.upDetach
  rw [if_neg (by simp [hattached])]
  simp only [Bool.or_eq_true, beq_iff_eq, State.updUp_parts]

/-- Two changes of one upstream port are one. -/
theorem updUp_updUp (s : State) (k : Part) (f g : UpState → UpState) : (s.updUp k f).updUp k g = s.updUp k (fun u => g (f u)) := by
  simp [State.updUp]

/-- An SOP* touches the receive queue and the free counter alone. -/
@[simp] theorem State.sopDetected_ups (s : State) (k : Slot) (j : Fin 33) (sop size : Nat) : (s.sopDetected k j sop size).ups = s.ups := by
  unfold State.sopDetected
  dsimp only
  split <;> rfl

@[simp] theorem State.sopDetected_vendorId (s : State) (k : Slot) (j : Fin 33) (sop size : Nat) :
    (s.sopDetected k j sop size).vendorId = s.vendorId := by
  unfold State.sopDetected
  dsimp only
  split <;> rfl

@[simp] theorem State.messageWhole_ups (s : State) (k : Slot) (j : Fin 33) (b : List Byte) (hw fwd raise : Bool) :
    (s.messageWhole k j b hw fwd raise).ups = s.ups := rfl

@[simp] theorem State.messageWhole_vendorId (s : State) (k : Slot) (j : Fin 33) (b : List Byte) (hw fwd raise : Bool) :
    (s.messageWhole k j b hw fwd raise).vendorId = s.vendorId := rfl

/-- The answer to a message depends on the device's vendor ID alone (Table 6.1). -/
theorem sinkAnswer_congr {s t : State} (h : t.vendorId = s.vendorId) (b : List Byte) : t.sinkAnswer b = s.sinkAnswer b := by
  unfold State.sinkAnswer State.identityVdos
  rw [h]

/-- What an upstream port does with a new message: GoodCRC, its item in the queue, the port's own record of it (R182, R276). -/
def State.upPdTaken (s : State) (k : Part) (b : List Byte) (hw : Bool) : State :=
  (((s.emit (.upPd k (sinkHeader 1 0 (pdId b)))).sopDetected k 32 0 b.length).messageWhole k 32 b hw false false).updUp k (fun u =>
    { u with pdRx := some (pdId b), hardReset := false, contract := u.contract || isControl b 6 })

/-- A new message that is no Soft Reset is taken, and answered where the table has an answer and nothing cuts it off (Table 6.1). -/
theorem upPdMessage_new (s : State) (k : Part) (b : List Byte) (cut : Bool) (hattached : (s.ups.get k).attached = true)
    (hroom : refusesSop (s.queues.get k) 32 = false) (hcrc : isControl b 1 = false) (hsoft : isControl b 13 = false)
    (hnew : (s.ups.get k).pdRx ≠ some (pdId b)) :
    s.upPdMessage k b cut =
      match if cut then none else s.sinkAnswer b with
      | none => s.upPdTaken k b (!cut && (s.sinkAnswer b).isSome)
      | some (t, objs) => ((s.upPdTaken k b (!cut && (s.sinkAnswer b).isSome)).updUp k (fun u => { u with pdTx := u.pdTx + 1 })).emit
          (.upPd k (sinkMsg t objs (s.ups.get k).pdTx)) := by
  unfold State.upPdMessage
  dsimp only
  rw [if_neg (by simp [hattached, hcrc]), if_neg (by simp [hroom]), hsoft, if_neg (by simp [hnew])]
  have hfinal : ∀ hw, ((((s.emit (.upPd k (sinkHeader 1 0 (pdId b)))).sopDetected k 32 0 b.length).messageWhole k 32 b hw false false).updUp k
      (fun u => { u with pdRx := if false = true then none else some (pdId b), pdTx := if false = true then 0 else u.pdTx, hardReset := false,
                         contract := u.contract || isControl b 6 })) = s.upPdTaken k b hw :=
    fun _ => updUp_congr _ _ _ _ rfl
  rw [hfinal]
  have htx : ∀ hw, ((s.upPdTaken k b hw).ups.get k).pdTx = (s.ups.get k).pdTx := fun _ => by
    simp [State.upPdTaken]
  have hanswer : ∀ hw, (s.upPdTaken k b hw).sinkAnswer b = s.sinkAnswer b := fun _ => sinkAnswer_congr (by simp [State.upPdTaken]) b
  rw [sinkAnswer_congr (State.emit_vendorId s _) b, hanswer, htx] <;> rfl

/-- Settles O11: the state of the attach and of the receiver selects one branch of each row. -/
theorem upstreamAttach : Obligations.UpstreamAttach := by
  unfold Obligations.UpstreamAttach
  refine ⟨?attach, ?detach, ?vbusHardReset, ?vbusAbsent, ?hardReset, ?answered, ?cut⟩
  case attach =>
    intro s k orientation rp vbus haon hday hrd hdetached hrp hvbus harmed
    refine porstRow_next haon ?_
    have hattach := upAttach_unarmed s.begin k orientation rp vbus hrd hdetached hrp hvbus harmed
    exact (attachWakes_day s.begin k (fun s => s.upAttach k orientation rp vbus) (by rw [hattach]; exact hday)).trans hattach
  case detach =>
    intro s k haon hattached
    exact porstRow_next haon (upDetach_attached s.begin k hattached)
  case vbusHardReset =>
    intro s k haon hinput hattached hreset
    refine porstRow_next haon ?_
    exact (if_pos (by simp [hinput, hattached])).trans (if_pos (by simp [hreset]))
  case vbusAbsent =>
    intro s k late haon hinput hattached hlate
    refine porstRow_next haon ?_
    exact (if_pos (by simp [hinput, hattached])).trans (if_neg (by rcases hlate with h | h <;> simp [h]))
  case hardReset =>
    intro s k hup hattached
    exact upRow_next hup (if_pos hattached)
  case answered =>
    intro s k b t objs hup hattached hroom hsoft hnew hanswer
    have hcrc : isControl b 1 = false := by
      cases h : isControl b 1 with
      | false => rfl
      | true => simp [State.sinkAnswer, h] at hanswer
    refine upRow_next hup ((upPdMessage_new s.begin k b false hattached hroom hcrc hsoft hnew).trans ?_)
    rw [if_neg (by simp), show s.begin.sinkAnswer b = some (t, objs) from hanswer]
    dsimp only
    rw [State.upPdTaken, updUp_updUp]
    rfl
  case cut =>
    intro s k b hup hattached hroom hcrc hsoft hnew
    exact upRow_next hup (upPdMessage_new s.begin k b true hattached hroom hcrc hsoft hnew)

end Sys2Proof.Machine
end

