-- ==== Sys2Proof/Proofs/UpstreamLinks.lean ====
section
/-! PROOF. The SuperSpeed and USB 2.0 links of an upstream port: training, U1 and U2, suspend, resume and reset (chapter 6). -/

namespace Sys2Proof.Machine

open Sys2Proof

/-- The link of a presented side reaches U0 from a state that is not U3 (R185–R188). -/
theorem ssU0_fromOther (s : State) (k : Part) (rate : SsRate) (f : UpState → UpState) (hside : (s.ups.get k).ssSide ≠ .notPresented)
    (hrate : rate ≠ .none) (hcap : s.capped = false ∨ beforeU0 (s.ups.get k).link = false ∨ twoLanes rate = false)
    (hlink : (s.ups.get k).link ≠ .u3)
    (hf : f (s.ups.get k) = { (s.ups.get k).toU0 with
      rate := if beforeU0 (s.ups.get k).link then rate else (s.ups.get k).rate
      paced := (s.ups.get k).paced && !beforeU0 (s.ups.get k).link
      counters := if beforeU0 (s.ups.get k).link && !s.capped && rate != .gen2x2 then
        { (s.ups.get k).toU0.counters with rateDowngrades := satAdd 16 (s.ups.get k).toU0.counters.rateDowngrades 1 }
        else (s.ups.get k).toU0.counters }) :
    s.ssU0 k rate = if (s.ups.get k).ssSide = .active then s.updUp k f else (s.updUp k f).setSide k .active := by
  unfold State.ssU0
  dsimp only
  rw [if_neg (by rcases hcap with h | h | h <;> simp [hside, hrate, h]), if_neg hlink]
  refine congrArg (fun u => if (s.ups.get k).ssSide = .active then u else State.setSide u k .active) ?_
  exact updUp_congr s k _ _ hf.symm

/-- A link that the device or its host takes out of U3 (R56, R193). -/
theorem leaveU3_eq (s : State) (k : Part) (hlink : (s.ups.get k).link = .u3) :
    s.leaveU3 k = (let u := s.updUp k (fun u => { u with
        link := .u0, ownExit := false, counters := { u.counters with linkRecoveries := satAdd 32 u.counters.linkRecoveries 1 } })
      (if (s.ups.get k).ownExit then u else u.noteExit k true).wakePart k) := by
  unfold State.leaveU3
  rw [if_neg (by simp [hlink])]
  refine congrArg (fun u => State.wakePart (if (s.ups.get k).ownExit then u else u.noteExit k true) k) ?_
  exact updUp_congr s k _ _ (by simp [UpState.toU0, throughRecovery, hlink])

/-- An active side is lost (R186). -/
theorem ssLost_active (s : State) (k : Part) (f g : UpState → UpState) (hside : (f (s.ups.get k)).ssSide = .active)
    (hg : g (s.ups.get k) = { f (s.ups.get k) with
      rate := .none, counters := { (f (s.ups.get k)).counters with
        ssInactiveChanges := satAdd 16 (f (s.ups.get k)).counters.ssInactiveChanges 1 } }) :
    (s.updUp k f).ssLost k = (s.updUp k g).setSide k .inactive := by
  unfold State.ssLost
  rw [if_pos (by simpa using hside), updUp_updUp]
  exact congrArg (fun u => State.setSide u k .inactive) (updUp_congr s k _ _ hg.symm)

/-- A side that is not active is not lost. -/
theorem ssLost_other (s : State) (k : Part) (hside : (s.ups.get k).ssSide ≠ .active) : s.ssLost k = s := if_neg hside

/-- Settles O12: the side and the state of its link select the branch; what the branch writes is the clause's record. -/
theorem upstreamSuperSpeedLink : Obligations.UpstreamSuperSpeedLink := by
  unfold Obligations.UpstreamSuperSpeedLink
  refine ⟨?untrained, ?trained, ?fromU3, ?noEffect, ?decided, ?notTheirs, ?inactive, ?disabled, ?linkAlone⟩
  case untrained =>
    intro s k rate hup hside hbefore hlink hrate
    refine upRow_next hup (ssU0_fromOther s.begin k rate _ hside hrate (.inr (.inl hbefore)) hlink ?_)
    have hthrough : (throughRecovery (s.ups.get k).link = true) = ((s.ups.get k).link = .u1 ∨ (s.ups.get k).link = .u2) := by
      simp [throughRecovery, hlink]
    by_cases hlow : (s.ups.get k).link = .u1 ∨ (s.ups.get k).link = .u2
    · simp [hbefore, UpState.toU0, hthrough]
      exact (if_pos hlow).trans (if_pos hlow).symm
    · simp [hbefore, UpState.toU0, hthrough]
      exact (if_neg hlow).trans (if_neg hlow).symm
  case trained =>
    intro s k rate hup hside hbefore hrate hcap
    have hlink : (s.ups.get k).link ≠ .u3 := by
      intro h
      simp [beforeU0, h] at hbefore
    have hthrough : throughRecovery (s.ups.get k).link = false := by
      cases h : (s.ups.get k).link <;> simp_all [beforeU0, throughRecovery]
    refine upRow_next hup (ssU0_fromOther s.begin k rate _ hside hrate (hcap.imp_right .inr) hlink ?_)
    simp [hbefore, UpState.toU0, hthrough, show s.begin.capped = s.capped from rfl]
  case fromU3 =>
    intro s k rate hup hside hlink hrate
    refine upRow_next hup ?_
    refine (if_neg ?_).trans ((if_pos hlink).trans (leaveU3_eq s.begin k hlink))
    simp [hside, hrate, beforeU0, hlink]
  case noEffect =>
    intro s k rate hup hnone
    refine upRow_next hup (if_pos ?_)
    rcases hnone with h | h | ⟨hcap, hbefore, hlanes⟩
    · simp [h]
    · simp [h]
    · simp [hbefore, hlanes, show s.begin.capped = s.capped from rfl, hcap]
  case decided =>
    intro s k hup hside
    exact upRow_next hup (if_pos hside)
  case notTheirs =>
    intro s k link hup
    refine ⟨fun hside => ?_, fun hside => ?_, fun hside => ?_⟩
    · exact upRow_next hup (if_neg hside)
    · exact upRow_next hup (if_neg (by simp [hside]))
    · exact upRow_next hup (if_pos hside)
  case inactive =>
    intro s k link hup hside hlink
    refine upRow_next hup ((if_pos ?_).trans (ssLost_active s.begin k _ _ hside rfl))
    rcases hlink with h | h | h <;> simp [hside, h]
  case disabled =>
    intro s k hup hside
    exact upRow_next hup ((if_neg (by simp [hside])).trans (ssLost_active s.begin k _ _ hside rfl))
  case linkAlone =>
    intro s k hup hside
    refine upRow_next hup ((if_neg ?_).trans (ssLost_other _ k ?_))
    · rcases hside with h | h <;> simp [h]
    · rcases hside with h | h <;> simp [h]

/-- A link that is not in U0 starts no entry into U1 or U2. -/
theorem ownU_refused (s : State) (k : Part) (u2 unacked : Bool)
    (h : (s.ups.get k).link ≠ .u0 ∨ (if u2 then ((s.ssTree.get k).hubs.get 0).u2Enable else ((s.ssTree.get k).hubs.get 0).u1Enable) = false ∨
      s.linksLow k = false ∨ s.notIdle k unacked = true ∨ (s.parts.get k).latBudget < (if u2 then 64 else 2)) :
    s.ownU k u2 unacked = s := by
  refine if_neg ?_
  simp only [Bool.and_eq_true, beq_iff_eq, decide_eq_true_eq, Bool.not_eq_true', not_and]
  rintro ⟨⟨⟨hlink, hon⟩, hlow⟩, hidle⟩
  rcases h with h | h | h | h | h
  · exact absurd hlink h
  · exact absurd (h.symm.trans hon) (by simp)
  · exact absurd (h.symm.trans hlow) (by simp)
  · exact absurd (h.symm.trans hidle) (by simp)
  · exact Nat.not_le.mpr h

/-- Settles O13: an entry needs U0 and an idle side, and the device's own also its host's leave, the budget and low virtual links. -/
theorem upstreamLinkPower : Obligations.UpstreamLinkPower := by
  unfold Obligations.UpstreamLinkPower
  refine ⟨?notU0, ?acceptU1, ?acceptU2, ?refuse, ?ownU1, ?ownU2, ?ownRefused⟩
  case notU0 =>
    intro s k u2 unacked hup hlink
    exact ⟨upRow_next hup (if_pos (by simp [hlink])), upRow_next hup (ownU_refused s.begin k u2 unacked (.inl hlink))⟩
  case acceptU1 =>
    intro s k unacked hup hlink hidle
    exact upRow_next hup ((if_neg (by simp [hlink])).trans (if_neg (ne_true_of_eq_false hidle)))
  case acceptU2 =>
    intro s k unacked hup hlink hidle
    exact upRow_next hup ((if_neg (by simp [hlink])).trans (if_neg (ne_true_of_eq_false hidle)))
  case refuse =>
    intro s k u2 unacked hup hlink hbusy
    exact upRow_next hup ((if_neg (by simp [hlink])).trans (if_pos hbusy))
  case ownU1 =>
    intro s k unacked hup hlink hon hlow hidle hbudget
    refine upRow_next hup (if_pos ?_)
    rw [show s.begin.linksLow k = true from hlow, show s.begin.notIdle k unacked = false from hidle]
    simp [hlink, hon, hbudget]
  case ownU2 =>
    intro s k unacked hup hlink hon hlow hidle hbudget
    refine upRow_next hup (if_pos ?_)
    rw [show s.begin.linksLow k = true from hlow, show s.begin.notIdle k unacked = false from hidle]
    simp [hlink, hon, hbudget]
  case ownRefused =>
    intro s k u2 unacked hup hrefused
    exact upRow_next hup (ownU_refused s.begin k u2 unacked (.inr hrefused))

/-- A warm or hot reset of a presented side on which the Management Function stands (R197). -/
theorem ssReset_presented (s : State) (k : Part) (warm : Bool) (f : UpState → UpState) (hside : (s.ups.get k).ssSide ≠ .notPresented)
    (hmf : (s.mfs.get k).side = some .superSpeed)
    (hf : f (s.ups.get k) = if warm then { s.ups.get k with link := .polling, ownExit := false }
      else if beforeU0 (s.ups.get k).link then s.ups.get k
      else { s.ups.get k with link := .hotReset, ownExit := false, counters := { (s.ups.get k).counters with
        linkRecoveries := satAdd 32 (s.ups.get k).counters.linkRecoveries 1 } }) :
    s.ssReset k warm = (((((s.updUp k f).updTree k .superSpeed defaultTree).restartMf k).resetPositions k .superSpeed
      (fun _ => true)).wakePart k) := by
  unfold State.ssReset
  rw [if_neg hside]
  dsimp only
  rw [updUp_congr s k _ f hf.symm, if_pos (by simpa using hmf)]

/-- Clearing the wires leaves what keeps the USB 2.0 side awake. -/
theorem begin_usb2Quiet (s : State) (k : Part) : s.begin.usb2Quiet k = s.usb2Quiet k := by
  have hpos : s.begin.portAtPos k = s.portAtPos k := rfl
  have hready : s.begin.mfReady k .usb2 = s.mfReady k .usb2 := rfl
  have hports : s.begin.portsOf k = s.portsOf k := rfl
  simp only [State.usb2Quiet, State.begin_u2Tree, State.begin_ports, hpos, hready, hports]

/-- A resume from suspend or L1, by the host or by an enabled remote wake (R195). -/
theorem usb2Resume_eq (s : State) (k : Part) (byDevice : Bool) (hlink : (s.ups.get k).usb2 = .suspended ∨ (s.ups.get k).usb2 = .l1)
    (hwake : byDevice = true → ((s.u2Tree.get k).hubs.get 0).remoteWake = true) :
    s.usb2Resume k byDevice =
      (((if (s.ups.get k).usb2 = .suspended then (if byDevice then s.emit (.up k .usb2Resume) else s).repeatResume k
          else (if byDevice then s.emit (.up k .usb2Resume) else s)).updUp k
        (fun u => { u with usb2 := if u.fullSpeed then .fullSpeed else .active })).wakePart k) := by
  unfold State.usb2Resume
  dsimp only
  rw [if_neg (by rcases hlink with h | h <;> simp [h]), if_neg (by cases byDevice <;> simp_all)]

/-- A change of a hub port leaves which native port stands where. -/
theorem nativeAt_updHubPort (s : State) (k : Part) (q : HubPort) (f : VPort → VPort) :
    (s.updHubPort k .superSpeed q f).nativeAt k q = s.nativeAt k q := by
  cases q <;> rfl

/-- Settles O14: in daytime a signal acts at once, and the state of the side and its link selects the branch. -/
theorem upstreamSuspendAndReset : Obligations.UpstreamSuspendAndReset := by
  unfold Obligations.UpstreamSuspendAndReset
  refine ⟨?u3Entry, ?u3Exit, ?warmReset, ?hotReset, ?busReset, ?lpmAck, ?lpmNyet, ?suspend, ?hostResume, ?deviceResume, ?linkTimeout,
    ?timestamp⟩
  case u3Entry =>
    intro s k hup hside hlink
    refine upRow_next hup (if_neg ?_)
    rcases hlink with h | h | h <;> simp [hside, h]
  case u3Exit =>
    intro s k hup hday hlink
    exact upRow_next hup ((hostWakes_day s.begin k _ hday).trans (leaveU3_eq s.begin k hlink))
  case warmReset =>
    intro s k hup hday hside hmf
    exact upRow_next hup ((hostWakes_day s.begin k _ hday).trans (ssReset_presented s.begin k true _ hside hmf rfl))
  case hotReset =>
    intro s k hup hday hside hmf
    exact upRow_next hup ((hostWakes_day s.begin k _ hday).trans (ssReset_presented s.begin k false _ hside hmf rfl))
  case busReset =>
    intro s k high hup hday hside
    exact upRow_next hup ((hostWakes_day s.begin k _ hday).trans (if_neg hside))
  case lpmAck =>
    intro s k hird hup hside hquiet
    refine upRow_next hup ?_
    show s.begin.usb2Lpm k hird = _
    unfold State.usb2Lpm
    rw [if_neg (by rcases hside with h | h <;> simp [h]), if_pos ((begin_usb2Quiet s k).trans hquiet)]
  case lpmNyet =>
    intro s k hird hup hside hquiet
    refine upRow_next hup ?_
    show s.begin.usb2Lpm k hird = _
    unfold State.usb2Lpm
    rw [if_neg (by rcases hside with h | h <;> simp [h]),
      if_neg (ne_true_of_eq_false ((begin_usb2Quiet s k).trans hquiet))]
  case suspend =>
    intro s k hup hside
    refine upRow_next hup (if_pos ?_)
    rcases hside with h | h | h <;> simp [h]
  case hostResume =>
    intro s k hup hday hlink
    refine upRow_next (f := fun s => s.hostWakes k (fun s => s.usb2Resume k false)) hup ((hostWakes_day s.begin k _ hday).trans ?_)
    simp only [usb2Resume_eq s.begin k false hlink nofun, Bool.false_eq_true, if_false, State.begin_ups]
  case deviceResume =>
    intro s k hup hday hlink
    refine upRow_next (f := fun s => s.deviceResumes k (fun s => s.usb2Resume k true)) hup ((deviceResumes_day s.begin k _ hday).trans ?_)
    split
    · next hwake => simp only [usb2Resume_eq s.begin k true hlink (fun _ => hwake), if_true, State.begin_ups]
    · next hwake =>
      refine (if_neg ?_).trans (if_pos (by simp [hwake]))
      rcases hlink with h | h <;> simp [h]
  case linkTimeout =>
    intro s k q u2 hup hlink hzero hmax hnative
    refine upRow_next hup ((if_pos ?_).trans ?_)
    · rw [show s.begin.hubPort k .superSpeed q = s.hubPort k .superSpeed q from rfl]
      simpa [hlink] using ⟨hzero, hmax⟩
    · rw [nativeAt_updHubPort, show s.begin.nativeAt k q = none from hnative]
  case timestamp =>
    intro s k interval delta hup hlink
    exact upRow_next hup (if_pos hlink)

end Sys2Proof.Machine
end

