-- ==== Sys2Proof/Proofs/ManagementFunction.lean ====
section
/-! PROOF. The Management Function of a partition and its CDC functions (chapters 2, 6 and 8). -/

namespace Sys2Proof.Machine

open Sys2Proof

/-- A SET_CONFIGURATION of 0 or 1 on the Management Function. -/
theorem mfRequest_setConfig (s : State) (k : Part) (side : Side) (r : Setup) (data : List Byte) (hside : (s.mfs.get k).side = some side)
    (htype : r.bmRequestType = 0) (hreq : r.bRequest = 9) (hvalue : r.wValue.toNat ≤ 1) :
    s.mfRequest k r data = (s.updMf k (fun m => { m with config := r.wValue.toNat, halted := [] })).ctlOk k := by
  unfold State.mfRequest
  simp [hside, Setup.is, htype, hreq, hvalue]

/-- A SET_ADDRESS on the Management Function. -/
theorem mfRequest_setAddress (s : State) (k : Part) (side : Side) (r : Setup) (data : List Byte) (hside : (s.mfs.get k).side = some side)
    (htype : r.bmRequestType = 0) (hreq : r.bRequest = 5) :
    s.mfRequest k r data = (s.updMf k (fun m => { m with address := BitVec.ofNat 7 r.wValue.toNat })).ctlOk k := by
  unfold State.mfRequest
  simp [hside, Setup.is, htype, hreq]

/-- VCP_LAST_RESPONSE with a stored response and a length in range. -/
theorem mfLastResponse_stored (s : State) (k : Part) (len : Nat) (t : StoredCmd) (r : Rsp) (hside : (s.mfs.get k).side ≠ none)
    (hstored : (s.sessions.get (mfSession k)).stored = some t) (hresp : t.response = some r) (hlen : 16 ≤ len ∧ len ≤ 1040) :
    s.mfLastResponse k len = (let q := s.mfPass k .ep0 ((rspBytes (mfSession k) r).take len)
      q.1.emits [.ctlData k q.2, .ctlDone k]) := by
  unfold State.mfLastResponse
  rw [if_neg (by simpa using hside), hstored]
  simp [hresp, hlen]

/-- VCP_LAST_RESPONSE without a stored command (log 28). -/
theorem mfLastResponse_none (s : State) (k : Part) (len : Nat) (hside : (s.mfs.get k).side ≠ none)
    (hstored : (s.sessions.get (mfSession k)).stored = none) : s.mfLastResponse k len = s.ctlError k := by
  unfold State.mfLastResponse
  rw [if_neg (by simpa using hside), hstored]
  rfl

/-- The next response leaves on the bulk IN endpoint. -/
theorem mfTakeRsp_cons (s : State) (k : Part) (r : Rsp) (rest : List Rsp) (hout : (s.sessions.get (mfSession k)).out = r :: rest) :
    s.mfTakeRsp k = (let q := (s.updSession (mfSession k) (fun x => { x with out := rest })).mfPass k .bulkIn (rspBytes (mfSession k) r)
      q.1.emit (.vcp (mfSession k) q.2)) := by
  unfold State.mfTakeRsp
  simp only [hout]

/-- The next event leaves on the interrupt IN endpoint. -/
theorem mfTakeEvent_some (s : State) (k : Part) (e : EventRec) (hfunc : (s.mfs.get k).funcSuspend = false) (hpaused : s.fw.paused = false)
    (hnext : nextToSend (s.sessions.get (mfSession k)) = some e) :
    s.mfTakeEvent k = (let q := (s.updSession (mfSession k) (fun x => markSent x e.eseq)).mfPass k .intIn (evtBytes (mfSession k) e (s.sessions.get (mfSession k)).lostFlag)
      q.1.emit (.vcp (mfSession k) q.2)) := by
  unfold State.mfTakeEvent
  simp only [hfunc, hpaused, hnext]
  rfl

/-- An IN transfer of an open endpoint that is not halted goes on to the endpoint's own source. -/
theorem mfIn_open (s : State) (k : Part) (ep : Byte) (hopen : s.mfOpen k = true) (hhalt : ep ∉ (s.mfs.get k).halted) :
    (ep = 0x81 → s.mfIn k ep = s.mfTakeRsp k) ∧ (ep = 0x82 → s.mfIn k ep = s.mfTakeEvent k) := by
  unfold State.mfIn
  rw [if_neg (by simp [hopen]), if_neg (by simpa using hhalt)]
  refine ⟨fun h => if_pos h, ?_⟩
  rintro rfl
  rw [if_neg (by decide), if_pos rfl]

/-- Settles O15: each request selects one branch of the function's endpoint logic. -/
theorem managementFunctionRows : Obligations.ManagementFunctionRows := by
  unfold Obligations.ManagementFunctionRows
  refine ⟨?setConfig, ?setAddress, ?bulkOut, ?bulkOutFull, ?vcp, ?vcpRefused, ?last, ?lastNone, ?vendor, ?response, ?event⟩
  case setConfig =>
    rintro s k side r data hup hside ⟨htype, hreq⟩ hvalue
    exact upRow_next hup (mfRequest_setConfig s.begin k side r data hside htype hreq hvalue)
  case setAddress =>
    rintro s k side r data hup hside ⟨htype, hreq⟩
    exact upRow_next hup (mfRequest_setAddress s.begin k side r data hside htype hreq)
  case bulkOut =>
    intro s k b hup hopen hhalt hroom
    refine upRow_next (f := fun s => s.mfBulkOut k b) hup ?_
    unfold State.mfBulkOut
    rw [if_neg (by simp [show s.begin.mfOpen k = true from hopen]), if_neg (by simpa using hhalt),
      if_neg (show ¬ s.begin.mfRoom k < min 1040 b.length from Nat.not_lt.mpr hroom)]
  case bulkOutFull =>
    intro s k b hup hopen hhalt hroom
    refine upRow_next (f := fun s => s.mfBulkOut k b) hup ?_
    unfold State.mfBulkOut
    rw [if_neg (by simp [show s.begin.mfOpen k = true from hopen]), if_neg (by simpa using hhalt),
      if_pos (show s.begin.mfRoom k < min 1040 b.length from hroom)]
  case vcp =>
    rintro s k b hup hside ⟨hmin, hmax⟩ hroom
    refine upRow_next (f := fun s => s.mfControlOut k b) hup ?_
    unfold State.mfControlOut
    rw [if_neg (by simpa using hside), if_neg]
    simp only [Bool.or_eq_true, decide_eq_true_eq, not_or, Nat.not_lt]
    exact ⟨⟨hmin, hmax⟩, hroom⟩
  case vcpRefused =>
    intro s k b hup hside hrefused
    refine upRow_next (f := fun s => s.mfControlOut k b) hup ?_
    unfold State.mfControlOut
    rw [if_neg (by simpa using hside), if_pos]
    · rfl
    · simp only [Bool.or_eq_true, decide_eq_true_eq, or_assoc]
      exact hrefused
  case last =>
    intro s k len t r hup hside hstored hresp hlen
    exact upRow_next hup (mfLastResponse_stored s.begin k len.toNat t r hside hstored hresp hlen)
  case lastNone =>
    intro s k len hup hside hstored
    exact upRow_next hup (mfLastResponse_none s.begin k len.toNat hside hstored)
  case vendor =>
    intro s k r hup hside
    exact upRow_next hup (if_pos (by simpa [Option.isSome_iff_ne_none] using hside))
  case response =>
    intro s k r rest hup hopen hhalt hout
    exact upRow_next hup (((mfIn_open s.begin k 0x81 hopen hhalt).1 rfl).trans (mfTakeRsp_cons s.begin k r rest hout))
  case event =>
    intro s k e hup hopen hhalt hfunc hpaused hnext
    exact upRow_next hup (((mfIn_open s.begin k 0x82 hopen hhalt).2 rfl).trans (mfTakeEvent_some s.begin k e hfunc hpaused hnext))

/-- Settles O16: the line coding is judged once; a binding to a port is where the bytes go. -/
theorem cdcRows : Obligations.CdcRows := by
  unfold Obligations.CdcRows
  refine ⟨?setLine, ?setLineRefused, ?getLine, ?lines, ?sendBreak, ?out, ?outUnbound, ?receive⟩
  case setLine =>
    rintro s k u rate p hup hopen ⟨hmin, hmax⟩ hport
    refine upRow_next hup ((if_pos hopen).trans ((if_neg ?_).trans ?_))
    · simp [Nat.not_lt.mpr hmin, Nat.not_lt.mpr hmax]
    · simp only [State.begin_uarts, hport]
  case setLineRefused =>
    intro s k u rate format parity bits hup hopen hrefused
    refine upRow_next hup ((if_pos hopen).trans (if_pos ?_))
    simp only [Bool.or_eq_true, decide_eq_true_eq, bne_iff_ne, or_assoc]
    simpa [← BitVec.toNat_inj] using hrefused
  case getLine =>
    intro s k u hup hopen
    exact upRow_next hup (if_pos hopen)
  case lines =>
    intro s k u lines hup hopen
    exact upRow_next hup (if_pos hopen)
  case sendBreak =>
    intro s k u ms hup hopen
    exact upRow_next hup (if_pos hopen)
  case out =>
    intro s k u data p hup hopen hport hon
    refine upRow_next hup ((if_pos hopen).trans ?_)
    simp only [State.cdcOut, State.begin_uarts, hport, State.begin_pd, hon, if_true]
  case outUnbound =>
    intro s k u data hup hport
    refine upRow_next (f := fun s => if s.mfOpen k then s.cdcOut k u data else s) hup ?_
    split
    · simp only [State.cdcOut, State.begin_uarts, hport]
    · rfl
  case receive =>
    intro s p c u hup hslot hon
    refine upRow_next (f := fun s => s.uartRx p c) hup ?_
    simp only [State.uartRx, State.begin_pd, hslot, hon, if_true]
    rfl

end Sys2Proof.Machine
end

