-- ==== Sys2Proof/Proofs/OutOfBand.lean ====
section
/-! PROOF. The OOB mailboxes, the register space, the SMBus target and the test access port (chapters 11 and 13). -/

namespace Sys2Proof.Machine

open Sys2Proof

/-- A doorbell of a free mailbox in daytime sets CMD_BUSY and wakes nothing. -/
theorem ringDoorbell_free (s : State) (m : Mbox) (haon : s.aonUp = true) (hday : s.daytime) (hmode : s.mode ≠ .off)
    (hfree : (s.mailboxes.get m).cmdBusy = false) : s.ringDoorbell m = s.updMbox m (fun x => { x with cmdBusy := true }) := by
  unfold State.ringDoorbell
  rw [if_neg (by simp [State.oobAnswers, haon, hmode, hfree])]
  exact wake_day _ _ hday

/-- The doorbell word with one bit set rings that one mailbox of the bus. -/
theorem writeDoorbell_single (s : State) (bus : OobBus) (m : Mbox) (hserves : oobServes bus m = true) :
    s.writeDoorbell bus (1#3 <<< m.val) = s.ringDoorbell m := by
  have hone : (List.finRange 3).filter (fun i => (1#3 <<< m.val).getLsbD i.val && oobServes bus i) = [m] := by
    have hbit : ∀ i : Fin 3, ((1#3 <<< m.val).getLsbD i.val && oobServes bus i) = (i == m) := by
      intro i
      rw [(by decide : ∀ i j : Fin 3, (1#3 <<< j.val).getLsbD i.val = (i == j)) i m]
      by_cases h : i = m
      · simp [h, hserves]
      · simp [h]
    rw [List.filter_congr (fun i _ => hbit i)]
    exact (by decide : ∀ j : Fin 3, (List.finRange 3).filter (· == j) = [j]) m
  unfold State.writeDoorbell
  rw [hone]
  rfl

/-- A released response buffer takes the next response. -/
theorem fillRsp_cons (s : State) (m : Mbox) (r : Rsp) (rest : List Rsp) (hout : (s.sessions.get (sessOfMbox m)).out = r :: rest)
    (hfree : (s.mailboxes.get m).rspReady = false) :
    s.fillRsp m = { s.updSession (sessOfMbox m) (fun x => { x with out := rest }) with
      mailboxes := s.mailboxes.upd m (fun b => { b with rspReady := true, rspBuf := rspBytes (sessOfMbox m) r }) } := by
  unfold State.fillRsp
  simp only [hout]
  rw [if_neg (by simp [hfree])]

/-- Without a response the buffer stays free. -/
theorem fillRsp_nil (s : State) (m : Mbox) (hout : (s.sessions.get (sessOfMbox m)).out = []) : s.fillRsp m = s := by
  unfold State.fillRsp
  simp only [hout]

/-- A released event buffer takes the next event. -/
theorem fillEvt_some (s : State) (m : Mbox) (e : EventRec) (hnext : nextToSend (s.sessions.get (sessOfMbox m)) = some e)
    (hfree : (s.mailboxes.get m).evtReady = false) (hpaused : s.fw.paused = false) :
    s.fillEvt m = { s.updSession (sessOfMbox m) (fun x => markSent x e.eseq) with
      mailboxes := s.mailboxes.upd m (fun b => { b with
        evtReady := true, evtBuf := evtBytes (sessOfMbox m) e (s.sessions.get (sessOfMbox m)).lostFlag }) } := by
  unfold State.fillEvt
  simp only [hnext]
  rw [if_neg (by simp [hfree, hpaused])]

/-- Without an event the buffer stays free. -/
theorem fillEvt_none (s : State) (m : Mbox) (hnext : nextToSend (s.sessions.get (sessOfMbox m)) = none) : s.fillEvt m = s := by
  unfold State.fillEvt
  simp only [hnext]

/-- Settles O18: a doorbell rings one mailbox; a released buffer is filled from its session's queue. -/
theorem mailboxRows : Obligations.MailboxRows := by
  unfold Obligations.MailboxRows
  refine ⟨?doorbell, ?smbusDoorbell, ?rspNext, ?rspLast, ?evtNext, ?evtLast, ?crcErr⟩
  case doorbell =>
    intro s bus m haon hday hmode hserves hfree
    exact row_next (f := fun s => s.writeDoorbell bus (1#3 <<< m.val))
      ((writeDoorbell_single s.begin bus m hserves).trans (ringDoorbell_free s.begin m haon hday hmode hfree))
  case smbusDoorbell =>
    intro s haon hday hmode hfree
    exact row_next ((if_pos rfl).trans (ringDoorbell_free s.begin 2 haon hday hmode hfree))
  case rspNext =>
    intro s m r rest haon hmode hready hout
    refine row_next (f := fun s => s.rspDone m) ((if_pos ?_).trans ?_)
    · simp [State.oobAnswers, State.oobServed, haon, hmode, hready]
    · rw [fillRsp_cons (s.begin.updMbox m (fun x => { x with rspReady := false })) m r rest hout (by simp [State.updMbox])]
      simp only [State.updMbox, Tab.upd_upd_same]
      rfl
  case rspLast =>
    intro s m haon hmode hready hout
    refine row_next ((if_pos ?_).trans (fillRsp_nil _ m hout))
    simp [State.oobAnswers, State.oobServed, haon, hmode, hready]
  case evtNext =>
    intro s m e haon hmode hpaused hready hnext
    refine row_next (f := fun s => s.evtDone m) ((if_pos ?_).trans ?_)
    · simp [State.oobAnswers, State.oobServed, haon, hmode, hready]
    · rw [fillEvt_some (s.begin.updMbox m (fun x => { x with evtReady := false })) m e hnext (by simp [State.updMbox]) hpaused]
      simp only [State.updMbox, Tab.upd_upd_same]
      rfl
  case evtLast =>
    intro s m haon hmode hready hnext
    refine row_next ((if_pos ?_).trans (fillEvt_none _ m hnext))
    simp [State.oobAnswers, State.oobServed, haon, hmode, hready]
  case crcErr =>
    intro s m haon hmode
    exact row_next (if_pos (by simp [State.oobAnswers, State.oobServed, haon, hmode]))

/-- Writing one byte over SPI into the command buffer of a mailbox that is not busy. -/
theorem oobWriteByte_cmdBuf (s : State) (m : Mbox) (o : Nat) (b : Byte) (hmode : s.mode ≠ .off) (hspi : m ≠ 2) (ho : o < 0x500)
    (hfree : (s.mailboxes.get m).cmdBusy = false) :
    s.oobWriteByte .spi (0x1000 * (m.val + 1) + 0x100 + o) b = s.updMbox m (fun x => { x with cmdBuf := putByte x.cmdBuf o b }) := by
  have hm : m.val < 2 := by
    have hne : m.val ≠ 2 := fun h => hspi (Fin.ext h)
    omega
  have hdiv : (0x1000 * (m.val + 1) + 0x100 + o) / 0x1000 - 1 = m.val := by omega
  have hmod : (0x1000 * (m.val + 1) + 0x100 + o) % 0x1000 = 0x100 + o := by omega
  have hmbox : (Fin.ofNat 3 m.val : Mbox) = m := Fin.ext (Nat.mod_eq_of_lt m.isLt)
  unfold State.oobWriteByte
  rw [if_neg (by simp only [oobReach, Bool.not_eq_true', decide_eq_false_iff_not]; omega), if_neg (by omega),
    if_pos (by simp only [Bool.and_eq_true, decide_eq_true_eq, bne_iff_ne]; exact ⟨by omega, hmode⟩)]
  dsimp only
  rw [hdiv, hmod, hmbox, if_pos (by simp only [hfree, Bool.not_false, Bool.and_true, Bool.and_eq_true, decide_eq_true_eq]; omega), Nat.add_sub_cancel_left]

/-- Writing ALERT_ENABLE, which every bus reaches. -/
theorem oobWriteByte_alertEnable (s : State) (bus : OobBus) (b : Byte) :
    s.oobWriteByte bus 0x000C b = { s with alertEnable := b.setWidth 3 } := by
  unfold State.oobWriteByte
  rw [if_neg (by cases bus <;> simp [oobReach]), if_pos rfl]

/-- A target that answers takes the bytes of an SPI write from the address on. -/
theorem oobWrite_spi (s : State) (a : BitVec 16) (l : List Byte) (haon : s.aonUp = true) :
    s.oobWrite (.spi a) l = oobWriteBytes l .spi a.toNat s := if_neg (by simp [State.oobAnswers, haon])

/-- Settles O19: the target answers whenever AON is up; the address or the frame selects the branch. -/
theorem registerSpaceRows : Obligations.RegisterSpaceRows := by
  unfold Obligations.RegisterSpaceRows
  refine ⟨?alertEnable, ?cmdBuf, ?gather, ?badPec, ?pointer, ?pointerBad, ?alertResponse, ?clockLow⟩
  case alertEnable =>
    intro s b haon
    exact row_next (f := fun s => s.oobWrite (.spi 0x000C) [b])
      ((oobWrite_spi s.begin _ _ haon).trans (oobWriteByte_alertEnable s.begin .spi b))
  case cmdBuf =>
    intro s m o b haon hmode hspi ho hfree
    have haddr : (BitVec.ofNat 16 (0x1000 * (m.val + 1) + 0x100 + o)).toNat = 0x1000 * (m.val + 1) + 0x100 + o := by
      rw [BitVec.toNat_ofNat]
      exact Nat.mod_eq_of_lt (by omega)
    refine row_next (f := fun s => s.oobWrite (.spi _) [b]) ((oobWrite_spi s.begin _ _ haon).trans ?_)
    rw [haddr]
    exact oobWriteByte_cmdBuf s.begin m o b hmode hspi ho hfree
  case gather =>
    intro s l haon
    refine row_next (f := fun s => s.oobWrite (.smbus false true) l) ?_
    unfold State.oobWrite
    rw [if_neg (by simp [State.oobAnswers, haon])]
    rfl
  case badPec =>
    intro s l haon
    refine row_next (f := fun s => s.oobWrite (.smbus true false) l) ?_
    unfold State.oobWrite
    rw [if_neg (by simp [State.oobAnswers, haon])]
    rfl
  case pointer =>
    intro s a haon
    exact row_next (if_pos (by simp [State.oobAnswers, haon]))
  case pointerBad =>
    intro s a
    exact row_next (if_neg (by simp))
  case alertResponse =>
    intro s haon hmode halert
    refine row_next (if_pos ?_)
    simp [State.oobAnswers, State.oobServed, haon, hmode, show s.begin.alert = true from halert]
  case clockLow =>
    intro s
    exact row_next (f := fun s => { s with smbus := { s.smbus with rx := [] } }) rfl

/-- Settles O30: each TAP row is one write of the TAP's own fields and its wires. -/
theorem testAccessPort : Obligations.TestAccessPort := by
  unfold Obligations.TestAccessPort
  refine ⟨?bypass, ?idcode, ?samplePreload, ?extest⟩
  case bypass =>
    intro s tdi
    exact row_next (f := fun s => s.tapBypass tdi) rfl
  case idcode =>
    intro s
    exact row_next (f := fun s => s.tapIdcode) rfl
  case samplePreload =>
    intro s balls cells
    exact row_next (f := fun s => s.tapSample balls cells) rfl
  case extest =>
    intro s balls cells
    exact row_next (f := fun s => s.tapExtest balls cells) rfl

end Sys2Proof.Machine
end

