-- ==== Sys2Proof/Proofs/CommandRules.lean ====
section
/-! PROOF. What a taken VCP command answers, once its operation is known: one lemma per kind of row of the command table. -/

namespace Sys2Proof.Machine

open Sys2Proof

variable {s u : State} {op : BitVec 16} {m : VcpMsg} {n : Nat} {st : Byte} {b : List Byte}

/-- A command on the device that its session's mode lets through reaches the device. -/
theorem reaches_device (h : s.takes op m) (htarget : m.target = 0xFFFF) : s.reaches op m .device :=
  ⟨h, by rw [htarget]; rfl, Bool.or_true _, fun _ hneeded => nomatch hneeded⟩

/-- A command on the device. -/
theorem device_done {scope : CmdScope} {f : VcpMsg → State → State × Reply} (h : s.reaches op m .device)
    (hrow : cmdRow op = some (onDevice n scope f)) (hscope : scope = .steward → s.isSteward m.session = true)
    (hop : op ≠ 0x0001 ∧ op ≠ 0x0002) (hf : f m (s.taken op m) = (u, .done st b)) :
    runVcp op m s = .next (u.answers s op m st b) :=
  reaches_done s u op m _ _ st b h hrow hscope rfl hop hf

/-- A command on the device that answers by itself. -/
theorem device_answered {scope : CmdScope} {f : VcpMsg → State → State × Reply} (h : s.reaches op m .device)
    (hrow : cmdRow op = some (onDevice n scope f)) (hscope : scope = .steward → s.isSteward m.session = true)
    (hop : op ≠ 0x0001 ∧ op ≠ 0x0002) (hf : f m (s.taken op m) = (u, .answered)) :
    runVcp op m s = .next (u.endWith 4095 s.begin) :=
  reaches_answered s u op m _ _ h hrow hscope rfl hop hf

/-- A command on a partition. -/
theorem part_done {f : VcpMsg → Part → State → State × Reply} {k : Part} (h : s.reaches op m (.partition k))
    (hrow : cmdRow op = some (onPart n f)) (hop : op ≠ 0x0001 ∧ op ≠ 0x0002) (hf : f m k (s.taken op m) = (u, .done st b)) :
    runVcp op m s = .next (u.answers s op m st b) :=
  reaches_done s u op m _ _ st b h hrow (fun hscope => nomatch hscope) rfl hop hf

/-- A command on a port. -/
theorem port_done {f : VcpMsg → Port → State → State × Reply} {p : Port} (h : s.reaches op m (.port p))
    (hrow : cmdRow op = some (onPort n f)) (hop : op ≠ 0x0001 ∧ op ≠ 0x0002) (hf : f m p (s.taken op m) = (u, .done st b)) :
    runVcp op m s = .next (u.answers s op m st b) :=
  reaches_done s u op m _ _ st b h hrow (fun hscope => nomatch hscope) rfl hop hf

/-- A command on a port that waits. -/
theorem port_waits {f : VcpMsg → Port → State → State × Reply} {p : Port} {w : Wait} (h : s.reaches op m (.port p))
    (hrow : cmdRow op = some (onPort n f)) (hop : op ≠ 0x0001 ∧ op ≠ 0x0002) (hf : f m p (s.taken op m) = (u, .wait w)) :
    runVcp op m s = .next ((u.updSession m.session (fun x => { x with executing := some (s.cmdAt op m, w) })).endWith 4095 s.begin) :=
  reaches_waits s u op m _ _ w h hrow (fun hscope => nomatch hscope) rfl hop hf

/-- A command on a slot. -/
theorem slot_done {scope : CmdScope} {f : VcpMsg → Slot → State → State × Reply} {k : Slot} (h : s.reaches op m (.slot k))
    (hrow : cmdRow op = some (onSlot n scope f)) (hscope : scope = .steward → s.isSteward m.session = true)
    (hop : op ≠ 0x0001 ∧ op ≠ 0x0002) (hf : f m k (s.taken op m) = (u, .done st b)) :
    runVcp op m s = .next (u.answers s op m st b) :=
  reaches_done s u op m _ _ st b h hrow hscope rfl hop hf

/-- A command on a bank. -/
theorem bank_done {scope : CmdScope} {f : VcpMsg → Bank → State → State × Reply} {c : Bank} (h : s.reaches op m (.bank c))
    (hrow : cmdRow op = some (onBank n scope f)) (hscope : scope = .steward → s.isSteward m.session = true)
    (hop : op ≠ 0x0001 ∧ op ≠ 0x0002) (hf : f m c (s.taken op m) = (u, .done st b)) :
    runVcp op m s = .next (u.answers s op m st b) :=
  reaches_done s u op m _ _ st b h hrow hscope rfl hop hf

end Sys2Proof.Machine
end

