-- ==== Sys2Proof/Proofs/Sessions.lean ====
section
/-! PROOF. The session and identity commands (chapter 11). -/

namespace Sys2Proof.Machine

open Sys2Proof

/-- HELLO with GRANT or REVOKE, which the payload's first byte tells apart (R378). -/
theorem opHelloGrant_ok (s : State) (m : VcpMsg) (k : Part) (n lo hi : Byte) (hp : m.payload = [n, 1, 0, 0, lo, hi])
    (hmask : get16 m.payload 4 &&& 0xFC07 = 0) (hboot : s.fw.bootFailed = false) :
    opHelloGrant m k s = ok (s.updSession (mfSession k) (fun x =>
      { x with grant := n.toNat == 2 && x.isOpen, pendingGrant := n.toNat == 2 && !x.isOpen })) := by
  have hsecond : byteAt m.payload 1 = 1 := by rw [hp]; rfl
  have hzero : zeroSlice m.payload 2 2 = true := by rw [hp]; rfl
  have hfirst : get8 m.payload 0 = n.toNat := by rw [hp]; rfl
  have hlen : m.payload.length = 6 := by rw [hp]; rfl
  unfold opHelloGrant
  rw [if_neg (by simp [hboot]), if_neg (by simp [hlen, hsecond, hzero, hmask])]
  rw [hfirst]

/-- A HELLO with GRANT or REVOKE of a steward. -/
theorem hello_grants (s : State) (m : VcpMsg) (k : Part) (n o lo hi : Byte) (hn : 1 < n.toNat) (h : s.takes 0x0001 (helloMsg n m))
    (hp : m.payload = [o, 1, 0, 0, lo, hi]) (hmask : get16 m.payload 4 &&& 0xFC07 = 0)
    (htarget : decodeTarget m.target = some (.partition k)) (hsteward : s.isSteward m.session = true) (hboot : s.fw.bootFailed = false) :
    runVcp 0x0001 (helloMsg n m) s = .next (((s.taken 0x0001 (helloMsg n m)).updSession (mfSession k) (fun x =>
      { x with grant := n.toNat == 2 && x.isOpen, pendingGrant := n.toNat == 2 && !x.isOpen })).answers s 0x0001 (helloMsg n m) stOK []) := by
  have hpayload : (helloMsg n m).payload = [n, 1, 0, 0, lo, hi] := by simp [helloMsg, hp]
  have hmask' : get16 (helloMsg n m).payload 4 &&& 0xFC07 = 0 := by
    rw [hpayload]
    rw [hp] at hmask
    exact hmask
  exact runVcp_done s _ 0x0001 (helloMsg n m) _ (.partition k) stOK [] h rfl htarget rfl hsteward (fun _ hneeded => nomatch hneeded)
    (.inr (by rw [hpayload]; exact hn)) (by decide) (opHelloGrant_ok _ _ k n lo hi hpayload hmask' hboot)

/-- RESYNC of eight bytes, without and with REPLAY (R385). -/
theorem opResync_ok (s : State) (m : VcpMsg) (n e0 e1 e2 e3 : Byte) (hn : n.toNat < 2) (hp : m.payload = [n, 0, 0, 0, e0, e1, e2, e3]) :
    opResync m s =
      (let x := s.sessions.get m.session
       let oldest := (x.ring.head?.map (·.eseq)).getD x.nextEseq
       let off := (bits32 m.payload 4 - oldest).toNat
       let first := if 2 ^ 31 ≤ off then 0 else off
       (if n.toNat = 1 then
          s.updSession m.session (fun x => { x with ring := x.ring.mapIdx (fun i e => if first ≤ i && e.sent then { e with again := true } else e) })
        else s,
        .done stOK (le32 x.lastCseq.toNat ++ le32 oldest.toNat ++ le32 (x.nextEseq - 1).toNat ++ le32 x.lastAcked.toNat ++ le32 x.lostCount.toNat))) := by
  have hfirst : get8 m.payload 0 = n.toNat := by rw [hp]; rfl
  have hzero : zeroSlice m.payload 1 3 = true := by rw [hp]; rfl
  have hlen : m.payload.length = 8 := by rw [hp]; rfl
  unfold opResync
  dsimp only
  rw [if_neg (by simp only [hlen, hfirst, hzero, Bool.not_true, Bool.or_false, Bool.or_eq_true, decide_eq_true_eq, bne_iff_ne]; omega), hfirst]

/-- The version an idle device reports where no image runs (log 9). -/
theorem fwVersion_none (s : State) (h : s.fw.running = none) : s.fwVersion = Config.noVersion := by
  unfold State.fwVersion
  rw [h]

/-- GET_INFO without an image and without a boot record (log 9). -/
theorem opGetInfo_noImage (s : State) (m : VcpMsg) (hp : m.payload = []) (hrun : s.fw.running = none) (hrecord : s.fw.recordLoaded = none) :
    opGetInfo m s = (s, .done stOK (le64 Config.uniqueId.toNat ++ le16 s.vendorId.toNat ++ le16 0x8516 ++
       [0xB0, Config.noSlot, BitVec.ofNat 8 (2 * bnat s.clocks.refSelect + 4 * bnat s.clocks.axin), 0] ++ le32 Config.noVersion.toNat ++
       le32 Config.bootRomVersion.toNat ++ ((List.range 4).map Config.noRecord ++ le32 s.fw.securityFloor ++
         (List.range 48).map (fun i => Config.noRecord (4 + i))))) := by
  unfold opGetInfo
  rw [if_neg (by simp [hp])]
  dsimp only
  rw [hrun, hrecord, fwVersion_none s hrun]
  simp only [Option.isSome_none, Option.map_none, Option.getD_none, show bnat false = 0 from rfl, Nat.zero_add]

/-- An opcode without a row is answered UNSUPPORTED. -/
theorem runVcp_unsupported (s : State) (m : VcpMsg) (op : BitVec 16) (h : s.takes op m) (hrow : cmdRow op = none) :
    runVcp op m s = .next ((s.taken op m).answers s op m stUnsupported []) := by
  obtain ⟨hhears, hopen, hcseq, -, -⟩ := h
  have hlen : m.payload.length ≤ 1024 := hhears.2.2.2.2.2.2.2.1
  have hne (known : BitVec 16) (r : CmdRow) (hknown : cmdRow known = some r) : op ≠ known := by
    rintro rfl
    exact absurd (hrow.symm.trans hknown) nofun
  refine runVcp_objected s op m stUnsupported hhears hopen hcseq (.inl (hne 0x0001 _ rfl)) (hne 0x0002 _ rfl) ?_
  unfold State.objection
  simp only [State.cmdAt, if_neg (Nat.not_lt.mpr hlen), hrow]

/-- Settles O17: the operation of each row, on the state that taking the command leaves. -/
theorem sessionCommands : Obligations.SessionCommands := by
  unfold Obligations.SessionCommands
  refine ⟨?helloOpen, ?helloForce, ?grant, ?revoke, ?eventAck, ?getInfo, ?getStatus, ?getTemps, ?resync, ?replay, ?close, ?unsupported⟩
  case helloOpen =>
    intro s m o lo hi hhears hclosed hp hmask htarget hstaging
    exact hello_opens s m 0 o lo hi false hhears (.inr hclosed) rfl hp hmask htarget hstaging
  case helloForce =>
    intro s m o lo hi hhears hp hmask htarget hstaging
    exact hello_opens s m 1 o lo hi true hhears (.inl rfl) rfl hp hmask htarget hstaging
  case grant =>
    intro s m k o lo hi htakes hp hmask htarget hsteward hboot
    exact hello_grants s m k 2 o lo hi (by decide) htakes hp hmask htarget hsteward hboot
  case revoke =>
    intro s m k o lo hi htakes hp hmask htarget hsteward hboot
    exact hello_grants s m k 3 o lo hi (by decide) htakes hp hmask htarget hsteward hboot
  case eventAck =>
    intro s m htakes htarget hlen hissued
    obtain ⟨-, hnext⟩ := taken_eventRing s 0x0003 m
    refine exec_eventAck_done s _ m stOK htakes htarget ?_
    unfold opEventAck
    refine (if_neg ?_).trans (congrArg ok (State.updSession_congr _ _ _ _ rfl))
    rw [hnext]
    simp only [hlen, bne_self_eq_false, Bool.false_or, decide_eq_true_eq]
    exact Nat.not_le.mpr hissued
  case getInfo =>
    intro s m htakes htarget hp hrun hrecord
    exact device_done (reaches_device htakes htarget) rfl nofun (by decide) (opGetInfo_noImage _ m hp hrun hrecord)
  case getStatus =>
    intro s m htakes htarget hp
    exact device_done (reaches_device htakes htarget) rfl nofun (by decide) (if_neg (by simp [hp]))
  case getTemps =>
    intro s m htakes htarget hp
    exact device_done (reaches_device htakes htarget) rfl nofun (by decide) (if_pos (by simp [hp]))
  case resync =>
    intro s m e0 e1 e2 e3 htakes htarget hp
    refine (runVcp_resync s m htakes (by rw [htarget]; rfl)).trans ?_
    rw [opResync_ok s.heard m 0 e0 e1 e2 e3 (by decide) hp]
    rfl
  case replay =>
    intro s m e0 e1 e2 e3 htakes htarget hp
    refine (runVcp_resync s m htakes (by rw [htarget]; rfl)).trans ?_
    rw [opResync_ok s.heard m 1 e0 e1 e2 e3 (by decide) hp]
    rfl
  case close =>
    intro s m htakes htarget hp
    exact device_answered (reaches_device htakes htarget) rfl nofun (by decide) (if_neg (by simp [hp]))
  case unsupported =>
    intro s m op htakes hrow
    exact runVcp_unsupported s m op htakes hrow

end Sys2Proof.Machine
end

