-- ==== Sys2Proof/Proofs/PartitionCommands.lean ====
section
/-! PROOF. The other commands of a partition and of its ports (chapters 2 and 3). -/

namespace Sys2Proof.Machine

open Sys2Proof

/-- The first byte of a payload as the commands read it. -/
theorem get8_head (b : Byte) (l : List Byte) : get8 (b :: l) 0 = b.toNat := rfl

/-- A payload of one byte that is 0 or 1 is in range. -/
theorem flagByte_inRange {m : VcpMsg} {o : Byte} (hp : m.payload = [o]) (ho : o = 0 ∨ o = 1) :
    ¬ (m.payload.length != 1 || decide (2 ≤ get8 m.payload 0)) = true := by
  rw [hp]
  rcases ho with rfl | rfl <;> decide

/-- PART_GET, with and without CLEAR. -/
theorem opPartGet_ok (s : State) (m : VcpMsg) (k : Part) (o : Byte) (hp : m.payload = [o]) (ho : o = 0 ∨ o = 1) :
    opPartGet m k s = (if o = 1 then s.updUp k (fun u => { u with counters := {} }) else s, .done stOK (s.partStatus k)) := by
  have hclear : (get8 m.payload 0 = 1) = (o = 1) := by
    rw [hp]
    rcases ho with rfl | rfl <;> simp [get8_head]
  unfold opPartGet
  dsimp only
  rw [if_neg (flagByte_inRange hp ho)]
  simp only [hclear]

/-- The two bytes of a PART_ASSIGN_PORT name the partition and the position, and are in range. -/
theorem assignBytes {m : VcpMsg} {k : Part} {i : Pos} (hp : m.payload = [BitVec.ofNat 8 k.val, BitVec.ofNat 8 i.val]) :
    get8 m.payload 0 = k.val ∧ get8 m.payload 1 = i.val ∧ m.payload.length = 2 := by
  rw [hp]
  refine ⟨?_, ?_, rfl⟩
  · show (BitVec.ofNat 8 k.val).toNat = k.val
    rw [BitVec.toNat_ofNat]
    omega
  · show (BitVec.ofNat 8 i.val).toNat = i.val
    rw [BitVec.toNat_ofNat]
    omega

/-- PART_ASSIGN_PORT with a position named goes on to the position's own case. -/
theorem opPartAssignPort_named (s : State) (m : VcpMsg) (p : Port) (k : Part) (i : Pos)
    (hp : m.payload = [BitVec.ofNat 8 k.val, BitVec.ofNat 8 i.val]) :
    opPartAssignPort m p s =
      if s.partOf.get p = k ∧ s.posOf.get p = i then (s, assignReply k i)
      else if (s.portAtPos k i).isSome then refuse s stBadArg
      else s.assignTo p k i := by
  obtain ⟨hfirst, hsecond, hlen⟩ := assignBytes hp
  have hpart : (Fin.ofNat 16 k.val : Part) = k := Fin.ext (Nat.mod_eq_of_lt k.isLt)
  have hpos : (Fin.ofNat 112 i.val : Pos) = i := Fin.ext (Nat.mod_eq_of_lt i.isLt)
  unfold opPartAssignPort
  dsimp only
  have hrange : ¬ (2 != 2 || decide (16 ≤ k.val) || decide (112 ≤ i.val) && i.val != 0xFF) = true := by
    rw [decide_eq_false (show ¬ 16 ≤ k.val by omega), decide_eq_false (show ¬ 112 ≤ i.val by omega)]
    exact Bool.false_ne_true
  rw [hfirst, hsecond, hlen, hpart, hpos, if_neg hrange, if_neg (by omega)]

/-- Pending on the move, a presented port drains. -/
theorem pendMove_beginDrain (s : State) (p : Port) (k : Part) (i : Pos) (hdrain : (s.ports.get p).st ≠ .draining) :
    (((s.updPort p (fun x => { x with pendMove := some (k, i) })).beginDrain p .moved).ports.get p).pendMove = some (k, i) := by
  rw [beginDrain_get _ p .moved (by simpa [State.updPort] using hdrain)]
  simp [State.updPort]

/-- A move of a presented port waits for the drain (Table 2.5). -/
theorem assignTo_presented (s : State) (p : Port) (k : Part) (i : Pos) (hassign : s.assignable p k = true)
    (hpresented : (s.ports.get p).presented = true) (hdrain : (s.ports.get p).st ≠ .draining) (hdisabling : (s.ports.get p).st ≠ .disabling)
    (hreacting : (s.ports.get p).reacting = false) (hreset : s.resetOnWire p = false) :
    s.assignTo p k i = ((s.updPort p (fun x => { x with pendMove := some (k, i) })).beginDrain p .moved, .wait (.assign p k i)) := by
  unfold State.assignTo
  rw [if_neg (by simp [hassign])]
  dsimp only
  rw [if_neg (show ¬ ((s.ports.get p).reacting || s.resetOnWire p) = true by simp [hreacting, hreset]),
    drainThen_presented s p .moved _ hpresented (.inr nofun) hdisabling hdrain, pendMove_beginDrain s p k i hdrain]
  rfl

/-- A partition takes a port where it has room, and where the port's data mode leaves its host slots enough. -/
theorem assignable_of_room (s : State) (p : Port) (k : Part) (hroom : (s.portsOf k).length < (s.parts.get k).cfg.maxPorts)
    (hslots : dataModeAttaches (s.ports.get p).dataMode = false ∨ s.partOf.get p = k ∨ s.slotsAllow k = true) :
    s.assignable p k = true := by
  unfold State.assignable
  simp only [decide_eq_true hroom, Bool.true_and, Bool.or_eq_true, beq_iff_eq, Bool.not_eq_true']
  rcases hslots with h | h | h
  · exact .inl (.inr h)
  · exact .inl (.inl h)
  · exact .inr h

/-- The row of PART_ASSIGN_PORT in the command table. -/
theorem cmdRow_partAssignPort : cmdRow 0x0202 = some { onPort 0x0202 opPartAssignPort with scope := .steward } := rfl

/-- PART_SET_LIMITS of a steward. -/
theorem opPartSetLimits_steward (s : State) (m : VcpMsg) (k : Part) (hsteward : s.isSteward m.session = true)
    (hargs : s.partArgsOk k m.payload = true) :
    opPartSetLimits m k s = (s.updPart k (fun x => { x with cfg := applyLimits m.payload x.cfg }),
      .done stOK (partLimits (applyLimits m.payload (s.parts.get k).cfg))) := by
  unfold opPartSetLimits
  rw [if_neg (by simp [hargs]), if_neg (by simp [hsteward])]
  simp [State.updPart]

/-- Two changes of a partition are one. -/
theorem updPart_updPart (s : State) (k : Part) (f g : PartState → PartState) :
    (s.updPart k f).updPart k g = s.updPart k (fun x => g (f x)) := by
  simp [State.updPart]

/-- A partition that is not safe-marked leaves its tree when its deferred disconnect is due. -/
theorem disconnect_withdraws (s : State) (k : Part) (dis answer : Bool) (hsafe : (s.parts.get k).safeMarked = false)
    (hdis : (s.parts.get k).st ≠ .disabled) (hcharge : (s.parts.get k).st ≠ .chargeOnly) :
    s.disconnect k dis answer = (s.updPart k (fun x => { x with armed := false, deferredDisconnect := none })).withdraw
      k .withdrawn answer (if dis then .disabled else .chargeOnly) := by
  unfold State.disconnect
  dsimp only
  rw [if_neg (by simp [hsafe])]
  cases h : (s.parts.get k).st with
  | disabled => exact absurd h hdis
  | chargeOnly => exact absurd h hcharge
  | _ => cases dis <;> rfl

/-- A partition in Charge-only has no tree to withdraw. -/
theorem disconnect_chargeOnly (s : State) (k : Part) (answer : Bool) (hst : (s.parts.get k).st = .chargeOnly)
    (hsafe : (s.parts.get k).safeMarked = false) :
    s.disconnect k false answer = s.updPart k (fun x => { x with armed := false, deferredDisconnect := none }) := by
  unfold State.disconnect
  dsimp only
  rw [if_neg (by simp [hsafe]), hst]

/-- Settles O20: the state of the partition, or of the port named, selects the branch of each command. -/
theorem partitionCommands : Obligations.PartitionCommands := by
  unfold Obligations.PartitionCommands
  refine ⟨?get, ?assignSame, ?assignDrains, ?setLimits, ?connectDisabled, ?connectChargeOnly, ?ownDisconnect, ?disconnect, ?deferred⟩
  case get =>
    intro s m k o hreach hp ho
    refine part_done hreach rfl (by decide) ?_
    rw [opPartGet_ok _ m k o hp ho, partStatus_taken]
  case assignSame =>
    intro s m p k i hreach hsteward hp hpart hpos
    have hrun : opPartAssignPort m p (s.taken 0x0202 m) = (s.taken 0x0202 m, assignReply k i) :=
      (opPartAssignPort_named _ m p k i hp).trans (if_pos ⟨hpart, hpos⟩)
    exact reaches_done s _ 0x0202 m _ (.port p) stOK _ hreach cmdRow_partAssignPort (fun _ => hsteward) rfl (by decide) hrun
  case assignDrains =>
    intro s m p k i hreach hsteward hp hfree hmoves hroom hslots hpresented hdrain hdisabling hreacting hreset
    have hassign := assignTo_presented (s.taken 0x0202 m) p k i (assignable_of_room _ p k hroom hslots) hpresented hdrain hdisabling
      hreacting hreset
    have hrun := opPartAssignPort_named (s.taken 0x0202 m) m p k i hp
    rw [if_neg (fun ⟨hpart, hpos⟩ => hmoves.elim (· hpart) (· hpos)), if_neg, hassign] at hrun
    · exact reaches_waits s _ 0x0202 m _ (.port p) _ hreach cmdRow_partAssignPort (fun _ => hsteward) rfl (by decide) hrun
    · rw [show (s.taken 0x0202 m).portAtPos k i = none from hfree]
      exact nofun
  case setLimits =>
    intro s m k hreach hsteward hargs
    exact part_done hreach rfl (by decide)
      (opPartSetLimits_steward _ m k ((taken_isSteward s 0x0203 m m.session).trans hsteward) hargs)
  case connectDisabled =>
    intro s m k hreach hp hst
    refine part_done hreach rfl (by decide) ?_
    unfold opPartConnect
    dsimp only
    rw [if_neg (by simp [hp]), State.taken_parts, hst]
    dsimp only
    rw [updPart_updPart]
    rfl
  case connectChargeOnly =>
    intro s m k hreach hp hst
    refine part_done hreach rfl (by decide) ?_
    unfold opPartConnect
    dsimp only
    rw [if_neg (by simp [hp]), State.taken_parts, hst]
    rfl
  case ownDisconnect =>
    intro s m k o hreach hp ho hown
    refine part_done hreach rfl (by decide) ?_
    unfold opPartDisconnect
    dsimp only
    rw [if_neg (flagByte_inRange hp ho), if_pos hown, hp]
    rcases ho with rfl | rfl <;> rfl
  case disconnect =>
    intro s m k hreach hp hother hst hsafe hwithdraw
    refine part_done hreach rfl (by decide) ?_
    unfold opPartDisconnect
    dsimp only
    rw [if_neg (flagByte_inRange hp (.inl rfl)), if_neg hother, hp, show (get8 [0] 0 == 1) = false from rfl,
      disconnect_chargeOnly (s.taken 0x0205 m) k true hst hsafe, if_neg (by simp [State.updPart, hwithdraw])]
    rfl
  case deferred =>
    intro s k dis hmode hdue hsafe hdis hcharge hdelivered
    refine aonRow_next (f := fun s => s.deferredDisconnect k) hmode ?_
    unfold State.deferredDisconnect
    rw [State.begin_parts, hdue]
    dsimp only
    rw [if_neg (by simp [show s.begin.deferredWaits k = false from hdelivered])]
    exact disconnect_withdraws s.begin k dis false hsafe hdis hcharge

end Sys2Proof.Machine
end

