-- ==== Sys2Proof/Proofs/PortCommands.lean ====
section
/-! PROOF. The commands of a port (chapter 3). -/

namespace Sys2Proof.Machine

open Sys2Proof

/-- A port that is not in the disable sequence and has none pending. -/
theorem disabling_false (x : PortState) : x.disabling = false ↔ x.st ≠ .disabling ∧ x.pendDisable = false := by
  simp [PortState.disabling]

/-- New settings of a port leave whether it is presented. -/
theorem applyPortMode_presented (b : List Byte) (x : PortState) : (applyPortMode b x).presented = x.presented := rfl

/-- A new mode of a presented port waits for its drain (R66). -/
theorem changeMode_presented (s : State) (p : Port) (d : DataMode) (hpresented : (s.ports.get p).presented = true)
    (hprobe : (s.ports.get p).st ≠ .probe) (hdisabling : (s.ports.get p).disabling = false) (hdrain : (s.ports.get p).st ≠ .draining) :
    s.changeMode p d = (s.updPort p (fun x => { x with
      pendMode := some d
      pendDisable := d == .off || ((d == .charge || (s.ports.get p).dataMode == .charge) && !hasExplicit (s.pd.get p)) })).beginDrain p .mode := by
  obtain ⟨hst, hpend⟩ := (disabling_false _).mp hdisabling
  unfold State.changeMode
  dsimp only
  rw [drainThen_presented s p .mode _ hpresented (.inl hprobe) hst hdrain]
  refine congrArg (fun u => State.beginDrain u p .mode) (updPort_congr s p _ _ ?_)
  simp [hpend, hst]

/-- PORT_SET_MODE with a new mode for a presented port. -/
theorem opPortSetMode_presented (s : State) (m : VcpMsg) (p : Port) (d : DataMode) (hargs : setModeArgsOk m.payload = true)
    (hbit : bit (get8 m.payload 0) 0 = true) (hmode : modeOfCode (get8 m.payload 1) = some d) (hnew : d ≠ (s.ports.get p).dataMode)
    (hslots : dataModeAttaches d = false ∨ dataModeAttaches (s.ports.get p).dataMode = true ∨ s.slotsAllow (s.partOf.get p) = true)
    (hpresented : (s.ports.get p).presented = true) (hprobe : (s.ports.get p).st ≠ .probe)
    (hdisabling : (s.ports.get p).disabling = false) (hdrain : (s.ports.get p).st ≠ .draining) :
    opPortSetMode m p s = (((s.updPort p (applyPortMode m.payload)).updPort p (fun x => { x with
      pendMode := some d
      pendDisable := d == .off || ((d == .charge || (s.ports.get p).dataMode == .charge) && !hasExplicit (s.pd.get p)) })).beginDrain p .mode,
      .wait (.setMode p)) := by
  have hget : (s.updPort p (applyPortMode m.payload)).ports.get p = applyPortMode m.payload (s.ports.get p) := Tab.get_upd_same _ _ _
  have hchange := changeMode_presented (s.updPort p (applyPortMode m.payload)) p d (by rw [hget]; exact hpresented)
    (by rw [hget]; exact hprobe) (by rw [hget]; exact hdisabling) (by rw [hget]; exact hdrain)
  rw [hget] at hchange
  unfold opPortSetMode
  dsimp only
  rw [if_neg (by simp [hargs]), if_neg (by simp [hbit]), hmode]
  dsimp only
  rw [if_neg (by rcases hslots with h | h | h <;> simp [h]), if_neg (by simp [hdisabling]), if_neg (by simp [hnew]), hchange, if_neg]
  · rfl
  · rw [beginDrain_get _ p .mode (by rw [State.updPort_ports, Tab.get_upd_same, hget]; exact hdrain)]
    simp

/-- PORT_RESET of a presented port (R65). -/
theorem opPortReset_presented (s : State) (m : VcpMsg) (p : Port) (hp : m.payload = []) (hconnected : (s.ports.get p).connected = true)
    (hattaches : dataModeAttaches (s.ports.get p).dataMode = true) (hpresented : (s.ports.get p).presented = true)
    (hdisabling : (s.ports.get p).disabling = false) (hdrain : (s.ports.get p).st ≠ .draining) :
    opPortReset m p s = ((s.updPort p (fun x => { x with pendReset := true })).beginDrain p .reset, .wait (.portReset p)) := by
  unfold opPortReset
  dsimp only
  rw [if_neg (by simp [hp]), if_neg (by simp [hdisabling]), if_neg (by simp [hconnected, hattaches]),
    drainThen_presented s p .reset _ hpresented (.inr nofun) ((disabling_false _).mp hdisabling).1 hdrain, if_pos]
  rw [beginDrain_get _ p .reset (by simpa using hdrain)]
  simp

/-- PORT_QUENCH of a lifted port in operation. -/
theorem quench_lifted (s : State) (p : Port) (hpath : (s.ports.get p).path = .lifted)
    (hst : (s.ports.get p).st = .enabled ∨ (s.ports.get p).st = .suspended ∨ (s.ports.get p).st = .l1) :
    s.quench p = s.updPort p (fun x => { x with st := .quenched, quenchedFrom := some (s.ports.get p).st, resumeK := false }) := by
  unfold State.quench
  dsimp only
  rcases hst with h | h | h <;> simp [h, hpath]

/-- PORT_QUENCH of a port on the USB 2.0 side. -/
theorem quench_usb2 (s : State) (p : Port) (hside : sideOf (s.ports.get p).path = .usb2)
    (hst : (s.ports.get p).st = .waitReset ∨ (s.ports.get p).st = .enabled ∨ (s.ports.get p).st = .suspended) :
    s.quench p = (s.updPort p (fun x => { x with st := .quenched, quenchedFrom := some (s.ports.get p).st, resumeK := false })).updLeaf
      (s.partOf.get p) .usb2 (s.posOf.get p) (fun v => { v with enabled := false, cEnable := true }) := by
  unfold State.quench
  dsimp only
  cases hpath : (s.ports.get p).path with
  | lifted => simp [hpath, sideOf] at hside
  | native => simp [hpath, sideOf] at hside
  | _ => rcases hst with h | h | h <;> simp [h]

/-- PORT_RELEASE of a presented port that is not lifted (R79). -/
theorem releasePort_notLifted (s : State) (p : Port) (hst : (s.ports.get p).st = .quenched) (hpresented : (s.ports.get p).presented = true)
    (hpath : (s.ports.get p).path ≠ .lifted) :
    s.releasePort p = s.updPort p (fun x => { x with st := .waitReset, quenchedFrom := none }) := by
  unfold State.releasePort
  dsimp only
  rw [if_neg (by simp [hst]), if_neg (by simp [hst]), if_neg (by simp [hpresented])]
  cases h : (s.ports.get p).path with
  | lifted => exact absurd h hpath
  | _ => simp

/-- Settles O21: the payload and the port's state select the branch; a presented port drains before the change. -/
theorem portCommands : Obligations.PortCommands := by
  unfold Obligations.PortCommands
  refine ⟨?get, ?settings, ?mode, ?reset, ?quenchLifted, ?quenchUsb2, ?release, ?setBc, ?vbusOn, ?vbusDeferred, ?vbusOff⟩
  case get =>
    intro s m p hreach hp
    exact port_done hreach rfl (by decide) (if_pos (by simp [hp]))
  case settings =>
    intro s m p hreach hargs hbit
    exact port_done hreach rfl (by decide) ((if_neg (by simp [hargs])).trans (if_pos (by simp [hbit])))
  case mode =>
    intro s m p d hreach hargs hbit hmode hnew hslots hpresented hprobe hdisabling hdrain
    exact port_waits hreach rfl (by decide)
      (opPortSetMode_presented _ m p d hargs hbit hmode hnew hslots hpresented hprobe hdisabling hdrain)
  case reset =>
    intro s m p hreach hp hconnected hattaches hpresented hdisabling hdrain
    exact port_waits hreach rfl (by decide) (opPortReset_presented _ m p hp hconnected hattaches hpresented hdisabling hdrain)
  case quenchLifted =>
    intro s m p hreach hp hpath hst
    exact port_done hreach rfl (by decide) ((if_pos (by simp [hp])).trans (congrArg ok (quench_lifted _ p hpath hst)))
  case quenchUsb2 =>
    intro s m p hreach hp hside hst
    exact port_done hreach rfl (by decide) ((if_pos (by simp [hp])).trans (congrArg ok (quench_usb2 _ p hside hst)))
  case release =>
    intro s m p hreach hp hst hpresented hpath
    exact port_done hreach rfl (by decide) ((if_pos (by simp [hp])).trans (congrArg ok (releasePort_notLifted _ p hst hpresented hpath)))
  case setBc =>
    intro s m p o hreach hp ho
    have hmode : (get8 m.payload 0 = 1) = (o = 1) := by
      rw [hp]
      rcases ho with rfl | rfl <;> simp [get8_head]
    refine port_done hreach rfl (by decide) ((if_neg (flagByte_inRange hp ho)).trans ?_)
    simp only [hmode]
    rfl
  case vbusOn =>
    intro s m p hreach hp hdisabling
    refine port_done hreach rfl (by decide) ((if_neg (flagByte_inRange hp (.inr rfl))).trans ((if_pos ?_).trans (if_neg ?_)))
    · rw [hp]
      rfl
    · simp [hdisabling]
  case vbusDeferred =>
    intro s m p hreach hp hdisabling
    refine port_done hreach rfl (by decide) ((if_neg (flagByte_inRange hp (.inr rfl))).trans ((if_pos ?_).trans (if_pos ?_)))
    · rw [hp]
      rfl
    · exact hdisabling
  case vbusOff =>
    intro s m p hreach hp hst
    refine port_done hreach rfl (by decide) ((if_neg (flagByte_inRange hp (.inl rfl))).trans ((if_neg ?_).trans (congrArg ok (if_neg hst))))
    rw [hp]
    exact nofun

end Sys2Proof.Machine
end

