-- ==== Sys2Proof/Proofs/LiftCommands.lean ====
section
/-! PROOF. The Lift commands (chapters 4 and 5). -/

namespace Sys2Proof.Machine

open Sys2Proof

/-- LIFT_SET_CLASSLIST of a well-formed list. -/
theorem opLiftSetClasslist_ok (s : State) (m : VcpMsg) (k : Part) (n : Nat) (hcount : get8 m.payload 0 = n) (hrange : 1 ≤ n ∧ n ≤ 32)
    (hlen : m.payload.length = 4 + 4 * n) (hzero : zeroSlice m.payload 1 3 = true) (hclass : ∀ i, i < n → get8 m.payload (4 * i + 7) < 4) :
    opLiftSetClasslist m k s =
      ok (s.updPart k (fun x => { x with classes := (List.range n).map (fun i => classAt m.payload (4 * i + 4)) })) := by
  have hall : (List.range n).any (fun i => decide (4 ≤ get8 m.payload (4 * i + 7))) = false := by
    simpa using hclass
  unfold opLiftSetClasslist
  dsimp only
  rw [hcount, if_neg]
  simp only [hlen, hzero, hall, bne_self_eq_false, Bool.not_true, Bool.or_false, Bool.or_eq_true, decide_eq_true_eq]
  omega

/-- LIFT_SET_EP_BOUNDARY with a mode alone. -/
theorem opLiftSetEpBoundary_mode (s : State) (m : VcpMsg) (p : Port) (x : LiftPort) (a c : Byte) (b : Boundary)
    (hpres : s.presentation p = some x) (hp : m.payload = [a, 1, c, 0, 0, 0]) (hbulk : x.asRead.isBulkIn a = true)
    (hcode : boundaryOfCode c.toNat = some b) (hbot : b = .snoopBot → x.asRead.botSomewhere a = true) :
    opLiftSetEpBoundary m p s = ok (s.setBoundary p a (some b) none) := by
  have haddr : byteAt m.payload 0 = a := by rw [hp]; rfl
  have hv : get8 m.payload 1 = 1 := by rw [hp]; rfl
  have hc : get8 m.payload 2 = c.toNat := by rw [hp]; rfl
  have hzero : byteAt m.payload 3 = 0 := by rw [hp]; rfl
  have hlen : m.payload.length = 6 := by rw [hp]; rfl
  have hmode : bit 1 0 = true := by decide
  have hwindow : bit 1 1 = false := by decide
  unfold opLiftSetEpBoundary
  dsimp only
  rw [hpres, haddr, hv, hc, hzero, hlen, hmode, hwindow, hcode]
  dsimp only
  rw [if_neg (by simp [hbulk]), if_pos rfl]
  dsimp only [Option.map_some]
  rw [if_neg, if_neg Bool.false_ne_true]
  simp only [Option.some.injEq, Bool.and_eq_true, decide_eq_true_eq, Bool.not_eq_true', not_and, Bool.not_eq_false]
  exact hbot

/-- LIFT_SET_EP_BOUNDARY with a hold window alone. -/
theorem opLiftSetEpBoundary_window (s : State) (m : VcpMsg) (p : Port) (x : LiftPort) (a lo hi : Byte) (hpres : s.presentation p = some x)
    (hp : m.payload = [a, 2, 0, 0, lo, hi]) (hbulk : x.asRead.isBulkIn a = true) (hmax : get16 m.payload 4 ≤ 1000) :
    opLiftSetEpBoundary m p s = ok (s.setBoundary p a none (some (get16 m.payload 4))) := by
  have haddr : byteAt m.payload 0 = a := by rw [hp]; rfl
  have hv : get8 m.payload 1 = 2 := by rw [hp]; rfl
  have hzero : byteAt m.payload 3 = 0 := by rw [hp]; rfl
  have hlen : m.payload.length = 6 := by rw [hp]; rfl
  have hmode : bit 2 0 = false := by decide
  have hwindow : bit 2 1 = true := by decide
  unfold opLiftSetEpBoundary
  dsimp only
  rw [hpres, haddr, hv, hzero, hlen, hmode, hwindow]
  dsimp only
  rw [if_neg (by simp [hbulk, hmax]), if_neg Bool.false_ne_true]
  dsimp only
  rw [if_neg nofun, if_pos rfl]

/-- LIFT_GET_EP_STATS of one endpoint of the presented set. -/
theorem opLiftGetEpStats_one (s : State) (m : VcpMsg) (p : Port) (x : LiftPort) (a : Byte) (hpres : s.presentation p = some x)
    (hp : m.payload = [a, 0]) (hone : a ≠ 0xFF) (hknown : a = 0 ∨ x.asRead.addresses.contains a = true) :
    opLiftGetEpStats m p s = (s, .done stOK ([1, 0, 0, 0] ++ epStats x a)) := by
  have haddr : byteAt m.payload 0 = a := by rw [hp]; rfl
  have hv : get8 m.payload 1 = 0 := by rw [hp]; rfl
  have hlen : m.payload.length = 2 := by rw [hp]; rfl
  have hall : (0 :: x.asRead.addresses).contains a = true := by
    rw [List.contains_cons]
    rcases hknown with rfl | h
    · rfl
    · rw [h, Bool.or_true]
  unfold opLiftGetEpStats
  dsimp only
  rw [haddr, hv, hlen, if_neg nofun, hpres]
  dsimp only
  rw [if_neg hone, if_pos hall]
  simp [twelves]

/-- LIFT_GET_EP_STATS of a port that presents nothing. -/
theorem opLiftGetEpStats_none (s : State) (m : VcpMsg) (p : Port) (a : Byte) (hpres : s.presentation p = none) (hp : m.payload = [a, 0]) :
    opLiftGetEpStats m p s = (s, .done stOK [0, 0, 0, 0]) := by
  unfold opLiftGetEpStats
  dsimp only
  rw [hp, hpres]
  exact if_neg nofun

/-- LIFT_CLEAR_POISON of one endpoint. -/
theorem opLiftClearPoison_one (s : State) (m : VcpMsg) (p : Port) (x : LiftPort) (a : Byte) (hpres : s.presentation p = some x)
    (hp : m.payload = [a]) (hzero : a ≠ 0) (hknown : x.asRead.addresses.contains a = true) :
    opLiftClearPoison m p s =
      ok (s.updCtx p a (fun c => if c.poisoned then { c with poisoned := false, halted := true, localClear := true, stall := false } else c)) := by
  unfold opLiftClearPoison
  dsimp only
  rw [hpres, hp, show byteAt [a] 0 = a from rfl]
  dsimp only
  rw [if_neg (by rw [hknown]; simp), if_neg hzero]

/-- Settles O22: a payload that is well formed for the endpoint, or for the class list, reaches the command's effect. -/
theorem liftCommands : Obligations.LiftCommands := by
  unfold Obligations.LiftCommands
  refine ⟨?policy, ?classlist, ?mode, ?window, ?stats, ?statsNone, ?clearPoison⟩
  case policy =>
    intro s m k hreach hp
    exact part_done hreach rfl (by decide) (if_pos (by simp [hp]))
  case classlist =>
    intro s m k n hreach hcount hrange hlen hzero hclass
    exact part_done hreach rfl (by decide) (opLiftSetClasslist_ok _ m k n hcount hrange hlen hzero hclass)
  case mode =>
    intro s m p x a c b hreach hpres hp hbulk hcode hbot
    exact port_done hreach rfl (by decide) (opLiftSetEpBoundary_mode _ m p x a c b hpres hp hbulk hcode hbot)
  case window =>
    intro s m p x a lo hi hreach hpres hp hbulk hmax
    exact port_done hreach rfl (by decide) (opLiftSetEpBoundary_window _ m p x a lo hi hpres hp hbulk hmax)
  case stats =>
    intro s m p x a hreach hpres hp hone hknown
    exact port_done hreach rfl (by decide) (opLiftGetEpStats_one _ m p x a hpres hp hone hknown)
  case statsNone =>
    intro s m p a hreach hpres hp
    exact port_done hreach rfl (by decide) (opLiftGetEpStats_none _ m p a hpres hp)
  case clearPoison =>
    intro s m p x a hreach hpres hp hzero hknown
    exact port_done hreach rfl (by decide) (opLiftClearPoison_one _ m p x a hpres hp hzero hknown)

end Sys2Proof.Machine
end

