-- ==== Sys2Proof/Proofs/PdCommands.lean ====
section
/-! PROOF. The PD, CC and SBU commands (chapter 8). -/

namespace Sys2Proof.Machine

open Sys2Proof

/-- An offer of one to seven PDOs that the port may make is taken into its settings. -/
theorem setOffer_ok (s : State) (p : Port) (l : List Byte) (n : Nat) (hcount : get8 l 1 = n) (hrange : 1 ≤ n ∧ n ≤ 7)
    (hlen : l.length = 4 + 4 * n) (hflags : get8 l 0 < 2) (hzero : get16 l 2 = 0) (hoffer : s.offerOk p (pdosAt l 4 n) = true) :
    s.setOffer p l = some (s.updPd p (fun x => { x with cfg := { x.cfg with offer := some (pdosAt l 4 n), pdEnable := bit (get8 l 0) 0 } })) := by
  unfold State.setOffer
  dsimp only
  rw [hcount, if_neg]
  simp only [hlen, hzero, hoffer, bne_self_eq_false, Bool.not_true, Bool.or_false, Bool.false_or, Bool.or_eq_true, decide_eq_true_eq]
  omega

/-- PD_SET_OFFER: the new offer disables PD, or is sent where the source is ready (R263). -/
theorem opPdSetOffer_ok (s t : State) (m : VcpMsg) (p : Port) (hoffer : s.setOffer p m.payload = some t) :
    opPdSetOffer m p s = ok (
      if (t.pd.get p).cfg.pdEnable = false then t.pdDisable p
      else if t.pdRuns p = true ∧ (t.pd.get p).capsStopped = false ∧ (t.pd.get p).notPd = false ∧ (t.pd.get p).hr = none ∧
        ((t.pd.get p).trans.isSome = true ∨ t.vbusGood p = true) then t.sendCaps p false else t) := by
  unfold opPdSetOffer
  rw [hoffer]
  dsimp only
  cases hen : (t.pd.get p).cfg.pdEnable with
  | false => simp only [Bool.not_false, if_true]
  | true =>
    simp only [Bool.not_true, Bool.false_eq_true, Bool.true_eq_false, if_false]
    refine congrArg ok (ite_congr (propext ?_) (fun _ => rfl) (fun _ => rfl))
    simp only [Bool.and_eq_true, Bool.or_eq_true, Bool.not_eq_true', Option.isNone_iff_eq_none, and_assoc]

/-- The bytes of a PD_SEND: its kind of packet, its flags, the length and the message. -/
theorem pdSendBytes {m : VcpMsg} {sop f h0 h1 lo hi : Byte} {d : List Byte} (hp : m.payload = [sop, f, h0, h1, lo, hi] ++ d) :
    get8 m.payload 0 = sop.toNat ∧ get8 m.payload 1 = f.toNat ∧ m.payload.length = 6 + d.length ∧
      (m.payload.drop 2).take 2 ++ m.payload.drop 6 = [h0, h1] ++ d := by
  rw [hp]
  refine ⟨rfl, rfl, ?_, rfl⟩
  simp
  omega

/-- A well-formed PD_SEND is judged by the port's state. -/
theorem opPdSend_inRange {m : VcpMsg} {sop f h0 h1 lo hi : Byte} {d : List Byte} (hp : m.payload = [sop, f, h0, h1, lo, hi] ++ d)
    (hsop : sop.toNat < 5) (hf : f.toNat < 2) (hlen : get16 m.payload 4 = d.length) (hmax : d.length ≤ 260) :
    ¬ (decide (m.payload.length < 6) || decide (5 ≤ get8 m.payload 0) || decide (2 ≤ get8 m.payload 1) || decide (260 < get16 m.payload 4) ||
      m.payload.length != 6 + get16 m.payload 4) = true := by
  obtain ⟨hfirst, hsecond, hlength, -⟩ := pdSendBytes hp
  simp only [hfirst, hsecond, hlength, hlen, bne_self_eq_false, Bool.or_false, Bool.or_eq_true, decide_eq_true_eq]
  omega

/-- PD_SEND with a partner on a free protocol layer starts the message's own sequence. -/
theorem opPdSend_starts (s : State) (m : VcpMsg) (p : Port) (sop h0 h1 lo hi : Byte) (d : List Byte)
    (hp : m.payload = [sop, 0, h0, h1, lo, hi] ++ d) (hsop : sop.toNat < 5) (hlen : get16 m.payload 4 = d.length) (hmax : d.length ≤ 260)
    (htc : (s.pd.get p).tc = .attached) (hen : (s.pd.get p).cfg.pdEnable = true) (hstop : (s.pd.get p).stopped = false)
    (hfwd : (s.pd.get p).fwd = none) :
    opPdSend m p s = (s.pdStart p { sop := Fin.ofNat 5 sop.toNat, bytes := [h0, h1] ++ d, purpose := .pdSend m.session, tries := 0 },
      .wait (.pdSend p)) := by
  obtain ⟨hfirst, hsecond, -, hbytes⟩ := pdSendBytes hp
  unfold opPdSend
  dsimp only
  rw [if_neg (opPdSend_inRange hp hsop (by decide) hlen hmax), if_neg (by simp [htc]), if_neg (by simp [hen]),
    if_neg (by simp [hstop, hfwd]), hfwd, if_neg nofun, hfirst, hsecond, hbytes, if_neg nofun]

/-- CC_SET_RP with a level the card may source. -/
theorem opCcSetRp_ok (s : State) (m : VcpMsg) (p : Port) (c f : Byte) (r : RpLevel) (hp : m.payload = [c, f]) (hf : f.toNat < 2)
    (hcode : rpOfCode c.toNat = some r) (hcard : rpMa r ≤ s.cardMa p) :
    opCcSetRp m p s = ok (
      if bit f.toNat 0 && ((s.setRpLevel p r).pd.get p).tc != .open then (s.setRpLevel p r).enterRecovery p else s.setRpLevel p r) := by
  have hfirst : get8 m.payload 0 = c.toNat := by rw [hp]; rfl
  have hsecond : get8 m.payload 1 = f.toNat := by rw [hp]; rfl
  have hlen : m.payload.length = 2 := by rw [hp]; rfl
  unfold opCcSetRp
  dsimp only
  rw [hfirst, hsecond, hlen, hcode]
  dsimp only
  rw [if_neg]
  simp only [bne_self_eq_false, Bool.false_or, Bool.or_eq_true, decide_eq_true_eq]
  omega

/-- SBU_SET_ROUTE that turns the routing at ENTER_MODE on and binds a free UART slot. -/
theorem opSbuSetRoute_binds (s : State) (m : VcpMsg) (p : Port) (mode lo hi : Byte) (u : Fin 6)
    (hp : m.payload = [1, 1, 0, mode, lo, hi, 0, 0, 0, 0, 0, 0]) (hss : ssCapable p = true) (hslot : (s.pd.get p).uartSlot = none)
    (hfree : (List.finRange 6).find? (fun u => ((s.uarts.get (s.partOf.get p)).get u).port == none) = some u) :
    opSbuSetRoute m p s = ((((s.updPd p (fun x => { x with
        cfg := { x.cfg with sbuOnEnter := true, sbuSvid := BitVec.ofNat 16 (get16 m.payload 4), sbuMode := mode } })).bindUart p).syncBaud p),
      .done stOK [BitVec.ofNat 8 u.val]) := by
  have hv : get8 m.payload 0 = 1 := by rw [hp]; rfl
  have hroute : get8 m.payload 1 = 1 := by rw [hp]; rfl
  have hargs : sbuArgsOk p m.payload = true := by
    rw [hp]
    have hflags : bit 1 0 = true ∧ bit 1 1 = false ∧ bit 1 2 = false := by decide
    simp [sbuArgsOk, hss, get8, get16, byteAt, hflags]
  have hcfg (c : PdSettings) : sbuSettings m.payload c =
      { c with sbuOnEnter := true, sbuSvid := BitVec.ofNat 16 (get16 m.payload 4), sbuMode := mode } := by
    have hflags : bit 1 0 = true ∧ bit 1 1 = false ∧ bit 1 2 = false := by decide
    have hmode : byteAt m.payload 3 = mode := by rw [hp]; rfl
    simp [sbuSettings, hv, hroute, hmode, hflags]
  have hbound : ((((s.updPd p (fun x => { x with
      cfg := { x.cfg with sbuOnEnter := true, sbuSvid := BitVec.ofNat 16 (get16 m.payload 4), sbuMode := mode } })).bindUart p).syncBaud p).pd.get
      p).uartSlot = some u := bindUart_pd _ p u hfree
  unfold opSbuSetRoute
  dsimp only
  rw [if_neg (by simp [hargs]), hfree, if_neg (by simp)]
  simp only [hcfg]
  rw [hv, hroute, if_pos (by decide), if_pos rfl, if_pos (by simp [State.updPd, hslot])]
  simp only [hbound]

/-- PD_SET_TIMERS in range. -/
theorem opPdSetTimers_ok (s : State) (m : VcpMsg) (p : Port) (lo hi : Byte) (hp : m.payload = [lo, hi])
    (hrange : 10 ≤ get16 m.payload 0 ∧ get16 m.payload 0 ≤ 500) (hten : get16 m.payload 0 % 10 = 0) :
    opPdSetTimers m p s = ok (s.updPd p (fun x => { x with cfg := { x.cfg with waitRetry := get16 m.payload 0 } })) := by
  have hlen : m.payload.length = 2 := by rw [hp]; rfl
  unfold opPdSetTimers
  dsimp only
  rw [if_neg]
  simp only [hlen, hten, bne_self_eq_false, Bool.or_false, Bool.false_or, Bool.or_eq_true, decide_eq_true_eq]
  omega

/-- Settles O23: a payload in range reaches the command's effect on the port's settings and protocol layer. -/
theorem pdCommands : Obligations.PdCommands := by
  unfold Obligations.PdCommands
  refine ⟨?offer, ?sendNoPartner, ?send, ?autoresp, ?hardReset, ?rp, ?rpRecovery, ?route, ?timers⟩
  case offer =>
    intro s m p n hreach hcount hrange hlen hflags hzero hoffer
    refine port_done hreach rfl (by decide)
      ((opPdSetOffer_ok _ _ m p (setOffer_ok (s.taken 0x0501 m) p m.payload n hcount hrange hlen hflags hzero hoffer)).trans ?_)
    refine congrArg ok (ite_congr (propext ?_) (fun _ => rfl) (fun _ => rfl))
    simp [State.updPd]
  case sendNoPartner =>
    intro s m p sop f h0 h1 lo hi d hreach hp hsop hf hlen hmax htc
    exact port_done hreach rfl (by decide) ((if_neg (opPdSend_inRange hp hsop hf hlen hmax)).trans (if_pos (by simpa using htc)))
  case send =>
    intro s m p sop h0 h1 lo hi d hreach hp hsop hlen hmax htc hen hstop hfwd
    exact port_waits hreach rfl (by decide) (opPdSend_starts _ m p sop h0 h1 lo hi d hp hsop hlen hmax htc hen hstop hfwd)
  case autoresp =>
    intro s m p c hreach hset
    refine port_done hreach rfl (by decide) ?_
    unfold opPdSetAutoresp
    rw [State.taken_pd, hset]
    rfl
  case hardReset =>
    intro s m p hreach hp htc hen
    exact port_done hreach rfl (by decide)
      ((if_neg (by simp [hp])).trans ((if_neg (by simp [htc])).trans (if_neg (by simp [hen]))))
  case rp =>
    intro s m p c r hreach hp hcode hcard
    exact port_done hreach rfl (by decide) (opCcSetRp_ok _ m p c 0 r hp (by decide) hcode hcard)
  case rpRecovery =>
    intro s m p c r hreach hp hcode hcard htc
    have hrecovers : (bit (1 : Byte).toNat 0 && (((s.taken 0x0505 m).setRpLevel p r).pd.get p).tc != .open) = true := by
      rw [setRpLevel_tc]
      simpa [bit] using htc
    have hrun := opCcSetRp_ok (s.taken 0x0505 m) m p c 1 r hp (by decide) hcode hcard
    rw [if_pos hrecovers] at hrun
    exact port_done hreach rfl (by decide) hrun
  case route =>
    intro s m p mode lo hi u hreach hp hss hslot hfree
    exact port_done hreach rfl (by decide) (opSbuSetRoute_binds _ m p mode lo hi u hp hss hslot hfree)
  case timers =>
    intro s m p lo hi hreach hp hrange hten
    exact port_done hreach rfl (by decide) (opPdSetTimers_ok _ m p lo hi hp hrange hten)

end Sys2Proof.Machine
end

