-- ==== Sys2Proof/Proofs/SlotCommands.lean ====
section
/-! PROOF. The slot and chain commands (chapter 9). -/

namespace Sys2Proof.Machine

open Sys2Proof

/-- SLOT_SET_LIMITS of limits that the slot's profiles keep. -/
theorem setLimits_ok (s : State) (k : Slot) (l : List Byte) (hargs : limitsOk l = true)
    (hwindow : (limitsOf l (s.slots.get k).cfg).vinUv + 10 ≤ (limitsOf l (s.slots.get k).cfg).vinOv)
    (hkeeps : s.profileKeeps k (s.slots.get k).cfg (limitsOf l (s.slots.get k).cfg) = true) :
    s.setLimits k l = some (s.updSlot k (fun x => { x with
      cfg := limitsOf l x.cfg, spc := if (s.powerLinks.get (dieOfSlot k)).up then limitsOf l x.cfg else x.spc })) := by
  unfold State.setLimits
  dsimp only
  rw [if_neg]
  · exact congrArg some (updSlot_congr s k _ _ rfl)
  · simp only [hargs, hkeeps, Bool.not_true, Bool.false_or, Bool.or_false, decide_eq_true_eq]
    exact Nat.not_lt.mpr hwindow

/-- SLOT_ENABLE 0 of a slot whose gate is off (R299). -/
theorem slotOff_notOn (s : State) (k : Slot) (hst : (s.slots.get k).st ≠ .on) :
    s.slotOff k = s.updSlot k (fun x => { x with enable := false, st := if x.st = .ramp ∨ x.st = .pgWait then .idle else x.st }) := by
  unfold State.slotOff
  dsimp only
  rw [if_neg hst]
  refine updSlot_congr s k _ _ ?_
  simp only [Bool.or_eq_true, decide_eq_true_eq]

/-- PPC_GET of a steward sees every port of the slot. -/
theorem opPpcGet_steward (s : State) (m : VcpMsg) (k : Slot) (hsteward : s.isSteward m.session = true) (hp : m.payload = []) :
    opPpcGet m k none s = (s, .done stOK ([BitVec.ofNat 8 k.val, BitVec.ofNat 8 (chainCode (s.chains.get k).st), 32, 0] ++
      (portsOfSlot k).flatMap s.ppcEntry)) := by
  have hlen : (portsOfSlot k).length = 32 := by simp [portsOfSlot]
  have hall : (portsOfSlot k).filter (fun p => true || mfSession (s.partOf.get p) == m.session) = portsOfSlot k :=
    List.filter_eq_self.mpr (fun _ _ => rfl)
  unfold opPpcGet
  dsimp only
  rw [hsteward, hall, hlen]
  exact if_neg (by simp [hp])

/-- The row of PPC_GET in the command table. -/
theorem cmdRow_ppcGet :
    cmdRow 0x0606 = some { opcode := 0x0606, scope := .own, fits := fun t => isSlot t || isPort t, run := runPpcGet } := rfl

/-- Settles O24: each command's effect on the slot, or what it reports of it. -/
theorem slotCommands : Obligations.SlotCommands := by
  unfold Obligations.SlotCommands
  refine ⟨?get, ?setLimits, ?enable, ?disable, ?clearLatch, ?ppcPort, ?ppcSlot⟩
  case get =>
    intro s m k hreach hp
    exact slot_done hreach rfl nofun (by decide) (if_neg (by simp [hp]))
  case setLimits =>
    intro s m k hreach hsteward hargs hwindow hkeeps
    refine slot_done hreach rfl (fun _ => hsteward) (by decide) ?_
    unfold opSlotSetLimits
    rw [setLimits_ok (s.taken 0x0602 m) k m.payload hargs hwindow hkeeps]
    rfl
  case enable =>
    intro s m k hreach hsteward hp
    refine slot_done hreach rfl (fun _ => hsteward) (by decide) ((if_neg (flagByte_inRange hp (.inr rfl))).trans (if_pos ?_))
    rw [hp]
    rfl
  case disable =>
    intro s m k hreach hsteward hp hst hdisabling
    refine slot_done hreach rfl (fun _ => hsteward) (by decide) ((if_neg (flagByte_inRange hp (.inl rfl))).trans ((if_neg ?_).trans ?_))
    · rw [hp]
      exact nofun
    · rw [slotOff_notOn (s.taken 0x0603 m) k hst, if_neg (by simp [State.updSlot, hdisabling])]
      rfl
  case clearLatch =>
    intro s m k hreach hsteward hp hst
    refine slot_done hreach rfl (fun _ => hsteward) (by decide) ((if_neg (by simp [hp])).trans (congrArg ok (updSlot_congr _ k _ _ ?_)))
    exact if_pos hst
  case ppcPort =>
    intro s m p hreach hp
    have hrun : runPpcGet m (.port p) (s.taken 0x0606 m) = (s.taken 0x0606 m,
        .done stOK ([BitVec.ofNat 8 (slotOf p).val, BitVec.ofNat 8 (chainCode (s.chains.get (slotOf p)).st), 1, 0] ++ s.ppcEntry p)) := by
      unfold runPpcGet opPpcGet
      refine (if_neg (by simp [hp])).trans ?_
      rw [List.flatMap_singleton]
      rfl
    exact reaches_done s _ 0x0606 m _ (.port p) stOK _ hreach cmdRow_ppcGet nofun rfl (by decide) hrun
  case ppcSlot =>
    intro s m k hreach hsteward hp
    exact reaches_done s _ 0x0606 m _ (.slot k) stOK _ hreach cmdRow_ppcGet nofun rfl (by decide)
      (opPpcGet_steward _ m k ((taken_isSteward s 0x0606 m m.session).trans hsteward) hp)

end Sys2Proof.Machine
end

