-- ==== Sys2Proof/Proofs/ModeCommands.lean ====
section
/-! PROOF. The mode and power commands (chapter 10). -/

namespace Sys2Proof.Machine

open Sys2Proof

/-- MODE_REQUEST for a mode that the code names. -/
theorem opModeRequest_meets (s : State) (m : VcpMsg) (c : Byte) (g : Goal) (hp : m.payload = [c]) (hgoal : goalOf c.toNat = some g)
    (hboot : s.fw.bootFailed = false) : opModeRequest m s = (s.meetRequest m 0x0702 g, .answered) := by
  have hcode : get8 m.payload 0 = c.toNat := by rw [hp]; rfl
  unfold opModeRequest
  rw [hcode, hgoal]
  dsimp only
  rw [if_neg (by simp [hp]), if_neg (by simp [hboot])]

/-- WAKE_SOURCES_SET of both settings. -/
theorem opWakeSourcesSet_both (s : State) (m : VcpMsg) (lo hi t0 t1 t2 t3 : Byte) (hp : m.payload = [3, 0, lo, hi, t0, t1, t2, t3])
    (hmax : get32 m.payload 4 ≤ 86400) :
    opWakeSourcesSet m s = ok { s with
      modeCfg := { s.modeCfg with wakeSources := BitVec.ofNat 16 (get16 m.payload 2), wakeTimer := get32 m.payload 4 } } := by
  have hv : get8 m.payload 0 = 3 := by rw [hp]; rfl
  have hzero : byteAt m.payload 1 = 0 := by rw [hp]; rfl
  have hlen : m.payload.length = 8 := by rw [hp]; rfl
  have hbits : bit 3 0 = true ∧ bit 3 1 = true := by decide
  unfold opWakeSourcesSet
  dsimp only
  rw [hv, hzero, hlen, hbits.1, hbits.2, if_neg (by simp [hmax]), if_pos rfl, if_pos rfl]

/-- Settles O25: each command reports or sets its own field; a request for a mode starts the model's own transition. -/
theorem modeCommands : Obligations.ModeCommands := by
  unfold Obligations.ModeCommands
  refine ⟨?get, ?request, ?latBudget, ?wakeSources, ?avs⟩
  case get =>
    intro s m hreach hp
    exact device_done hreach rfl nofun (by decide) (if_pos (by simp [hp]))
  case request =>
    intro s m b c g hreach hsteward hp hgoal hboot
    exact (modeRequest_eq s m b).trans (device_answered (s := { s with board := b }) hreach rfl (fun _ => hsteward) (by decide)
      (opModeRequest_meets _ m c g hp hgoal hboot))
  case latBudget =>
    intro s m k lo hi hreach hp
    exact part_done hreach rfl (by decide) (if_neg (by simp [hp]))
  case wakeSources =>
    intro s m lo hi t0 t1 t2 t3 hreach hsteward hp hmax
    exact device_done hreach rfl (fun _ => hsteward) (by decide) (opWakeSourcesSet_both _ m lo hi t0 t1 t2 t3 hp hmax)
  case avs =>
    intro s m hreach hp
    exact device_done hreach rfl nofun (by decide) (if_pos (by simp [hp]))

end Sys2Proof.Machine
end

