-- ==== Sys2Proof/Proofs/BufferCommands.lean ====
section
/-! PROOF. The commands on the packet buffer (chapter 7). -/

namespace Sys2Proof.Machine

open Sys2Proof

/-- The row of PBM_GET_STATS in the command table. -/
theorem cmdRow_pbmGetStats : cmdRow 0x0801 = some (onBank 0x0801 .any opPbmGetStats) := rfl

/-- PBM_GET_STATS: bit 0 clears and needs steward scope, bit 1 adds the tracker. -/
theorem opPbmGetStats_ok (s : State) (m : VcpMsg) (b : Bank) (o : Byte) (clear tracker : Bool) (hp : m.payload = [o]) (ho : o.toNat < 4)
    (hclear : bit o.toNat 0 = clear) (htracker : bit o.toNat 1 = tracker) (hscope : clear = true → s.isSteward m.session = true) :
    opPbmGetStats m b s = (if clear then s.clearStats b else s, .done stOK (s.bankStats b tracker)) := by
  have hopts : get8 m.payload 0 = o.toNat := by rw [hp]; rfl
  have hlen : m.payload.length = 1 := by rw [hp]; rfl
  unfold opPbmGetStats
  dsimp only
  rw [hopts, hlen, hclear, htracker, if_neg (by simp only [Bool.or_eq_true, decide_eq_true_eq, bne_iff_ne]; omega), if_neg]
  cases clear with
  | false => exact nofun
  | true => simp [hscope rfl]

/-- PBM_RETIRE of a bank closes it. -/
theorem opPbmRetire_bank (s : State) (m : VcpMsg) (b : Bank) (hp : m.payload = [1, 0, 0, 0]) :
    opPbmRetire m b s = (s.closeBank b, .done stOK [0xFF, BitVec.ofNat 8 (s.banks.get b).sparesUsed]) := by
  unfold opPbmRetire
  dsimp only
  rw [hp, if_neg nofun, if_pos (show get8 [1, 0, 0, 0] 0 = 1 from rfl), if_neg nofun]

/-- PBM_RETIRE of a row moves it to the next spare row. -/
theorem opPbmRetire_row (s t : State) (m : VcpMsg) (b : Bank) (lo hi : Byte) (spare : Nat) (hp : m.payload = [0, 0, lo, hi])
    (hrow : get16 m.payload 2 < 768) (hretire : s.retire b (get16 m.payload 2) = some (t, spare)) :
    opPbmRetire m b s = (t, .done stOK [BitVec.ofNat 8 spare, BitVec.ofNat 8 (t.banks.get b).sparesUsed]) := by
  have hv : get8 m.payload 0 = 0 := by rw [hp]; rfl
  have hzero : byteAt m.payload 1 = 0 := by rw [hp]; rfl
  have hlen : m.payload.length = 4 := by rw [hp]; rfl
  unfold opPbmRetire
  dsimp only
  rw [hv, hzero, hlen, if_neg nofun, if_neg nofun, if_neg (Nat.not_le.mpr hrow), hretire]

/-- PBM_FLIPMASK with a mask that is not empty arms the bank, whatever was armed before. -/
theorem opPbmFlipmask_arms (s : State) (m : VcpMsg) (b : Bank) (v a0 a1 a2 a3 : Byte) (l : List Byte) (given : Bool)
    (hp : m.payload = [v, 0, 0, 0, a0, a1, a2, a3] ++ l) (hv : v.toNat < 2) (hgiven : bit v.toNat 0 = given) (hlen : l.length = 18)
    (hlast : get8 m.payload 25 < 2) (hmask : flipBits m.payload ≠ 0)
    (hword : if given then get32 m.payload 4 / 65536 = b.val ∧ get32 m.payload 4 / 64 % 1024 < 768 else get32 m.payload 4 = 0) :
    opPbmFlipmask m b s = ok (s.updBank b (fun x => { x with
      flip := some { mask := flipBits m.payload, word := if given then some (get32 m.payload 4 % 65536) else none } })) := by
  have hfirst : get8 m.payload 0 = v.toNat := by rw [hp]; rfl
  have hzero : zeroSlice m.payload 1 3 = true := by rw [hp]; rfl
  have hlength : m.payload.length = 26 := by rw [hp]; simp [hlen]
  unfold opPbmFlipmask
  dsimp only
  rw [hfirst, hzero, hlength, hgiven, if_neg (by simp only [Bool.not_true, Bool.false_eq_true, or_false, Bool.or_eq_true, decide_eq_true_eq, bne_iff_ne]; omega), if_neg]
  · simp only [if_neg hmask]
  · cases given with
    | false => simpa using hword
    | true => simpa using hword

/-- Settles O26: the payload's options select the branch, and the bank named is the one that changes. -/
theorem bufferCommands : Obligations.BufferCommands := by
  unfold Obligations.BufferCommands
  refine ⟨?stats, ?statsClear, ?scrub, ?retireBank, ?retireRow, ?flipmask⟩
  case stats =>
    intro s m b o htakes htarget hdomain hp ho
    have hneeded (d : Fin 25) (hd : neededDomain (0x0801 : BitVec 16).toNat (.bank b) = some d) : s.domains.get d = .on := by
      rwa [← Option.some.inj hd]
    have hrun : opPbmGetStats m b (s.taken 0x0801 m) = (s.taken 0x0801 m, .done stOK (s.bankStats b (o == 2))) := by
      rcases ho with rfl | rfl
      · exact opPbmGetStats_ok _ m b 0 false false hp (by decide) (by decide) (by decide) nofun
      · exact opPbmGetStats_ok _ m b 2 false true hp (by decide) (by decide) (by decide) nofun
    exact runVcp_done s _ 0x0801 m _ (.bank b) stOK _ htakes cmdRow_pbmGetStats htarget rfl rfl hneeded (.inl (by decide)) (by decide) hrun
  case statsClear =>
    intro s m b o hreach hsteward hp ho
    have hscope := (taken_isSteward s 0x0801 m m.session).trans hsteward
    refine bank_done hreach rfl nofun (by decide) ?_
    rcases ho with rfl | rfl
    · exact opPbmGetStats_ok _ m b 1 true false hp (by decide) (by decide) (by decide) (fun _ => hscope)
    · exact opPbmGetStats_ok _ m b 3 true true hp (by decide) (by decide) (by decide) (fun _ => hscope)
  case scrub =>
    intro s m hreach hsteward hargs
    exact device_done hreach rfl (fun _ => hsteward) (by decide) (if_pos hargs)
  case retireBank =>
    intro s m b hreach hsteward hp
    exact bank_done hreach rfl (fun _ => hsteward) (by decide) (opPbmRetire_bank _ m b hp)
  case retireRow =>
    intro s m b lo hi spare hreach hsteward hp hrow hspare
    obtain ⟨t, hretire⟩ : ∃ t, (s.taken 0x0803 m).retire b (get16 m.payload 2) = some (t, spare) := by
      unfold State.retire
      rw [State.taken_banks, hspare]
      exact ⟨_, rfl⟩
    exact ⟨t, hretire, bank_done hreach rfl (fun _ => hsteward) (by decide) (opPbmRetire_row _ t m b lo hi spare hp hrow hretire)⟩
  case flipmask =>
    intro s m b a0 a1 a2 a3 l hreach hsteward hp hlen hlast hbank hword hmask
    exact bank_done hreach rfl (fun _ => hsteward) (by decide)
      (opPbmFlipmask_arms _ m b 1 a0 a1 a2 a3 l true hp (by decide) (by decide) hlen hlast hmask ⟨hbank, hword⟩)

/-- Settles O58: scope is judged before the mode (log 24); in the three modes the mask given replaces what was armed. -/
theorem flipmaskRights : Obligations.FlipmaskRights := by
  unfold Obligations.FlipmaskRights
  refine ⟨?scope, ?mode, ?arms⟩
  case scope =>
    intro s m b hhears hopen hcseq hboot htarget hsteward
    exact runVcp_scope s 0x0804 m (.bank b) _ hhears hopen hcseq hboot hsteward rfl htarget rfl rfl (by decide) (by decide)
  case mode =>
    intro s m b hhears hopen hcseq hboot htarget hsteward hnoon hevening hdiagnostic
    refine runVcp_mode s 0x0804 m (.bank b) _ hhears hopen hcseq hboot hsteward rfl htarget rfl (by decide) (by decide) (by decide) ?_
    intro u hu
    simp [State.modeAdmits, hu, hnoon, hevening, hdiagnostic]
  case arms =>
    intro s m b l hreach hsteward _ hp hlen hlast hmask
    have haddr : get32 m.payload 4 = 0 := by rw [hp]; rfl
    exact bank_done hreach rfl (fun _ => hsteward) (by decide)
      (opPbmFlipmask_arms _ m b 0 0 0 0 0 l false hp (by decide) (by decide) hlen hlast hmask haddr)

end Sys2Proof.Machine
end

