-- ==== Sys2Proof/Proofs/FaultCommands.lean ====
section
/-! PROOF. The fault commands (chapter 12). -/

namespace Sys2Proof.Machine

open Sys2Proof

/-- The fields of a FAULT_READ. -/
theorem faultReadBytes {m : VcpMsg} {sev opts n0 n1 i0 i1 i2 i3 : Byte} (hp : m.payload = [sev, opts, n0, n1, i0, i1, i2, i3]) :
    get8 m.payload 0 = sev.toNat ∧ get8 m.payload 1 = opts.toNat ∧ m.payload.length = 8 := by
  rw [hp]
  exact ⟨rfl, rfl, rfl⟩

/-- FAULT_READ in range: the records the session sees, at most 42 (R411, R414). -/
theorem opFaultRead_ok (s : State) (m : VcpMsg) (sev opts n0 n1 i0 i1 i2 i3 : Byte) (sees : FaultRec → Bool)
    (hp : m.payload = [sev, opts, n0, n1, i0, i1, i2, i3]) (hsev : sev.toNat ≤ 4) (hopts : opts.toNat < 2)
    (hsees : ∀ r, (get32 m.payload 4 ≤ r.index.toNat && sev.toNat ≤ severityCode r.severity && (opts.toNat == 0 || !r.acked) &&
      s.seesRecord m.session r) = sees r) :
    opFaultRead m s =
      (let l := (s.fault.records.filter sees).take (if get16 m.payload 2 = 0 then 42 else min (get16 m.payload 2) 42)
       (s, .done stOK ([BitVec.ofNat 8 l.length, 24, 0, 0] ++ le32 ((l.getLast?.map (fun r => r.index.toNat + 1)).getD (get32 m.payload 4)) ++
         l.flatMap s.recordBytes))) := by
  obtain ⟨hfirst, hsecond, hlen⟩ := faultReadBytes hp
  unfold opFaultRead
  dsimp only
  rw [hfirst, hsecond, hlen, if_neg (by simp only [Bool.or_eq_true, decide_eq_true_eq, bne_iff_ne]; omega)]
  simp only [hsees]

/-- A steward sees every record. -/
theorem seesRecord_steward (s : State) (i : Sess) (r : FaultRec) (hsteward : s.isSteward i = true) : s.seesRecord i r = true := by
  unfold State.seesRecord
  rw [hsteward, Bool.true_or]

/-- A session without steward scope is a partition's and sees the records of that partition. -/
theorem seesRecord_partition (s : State) (i : Sess) (r : FaultRec) (hsteward : s.isSteward i = false) :
    s.seesRecord i r = r.partitions.getLsbD i.val := by
  have hoob : ¬ 16 ≤ i.val := by
    have h := hsteward
    simp only [State.isSteward, isOob, Bool.or_eq_false_iff, decide_eq_false_iff_not] at h
    exact h.1
  unfold State.seesRecord
  rw [hsteward, Bool.false_or, decide_eq_true (Nat.not_le.mp hoob), Bool.true_and]

/-- FAULT_ACK in range acknowledges what the session may acknowledge (R417). -/
theorem opFaultAck_ok (s : State) (m : VcpMsg) (i0 i1 i2 i3 u : Byte) (hp : m.payload = [i0, i1, i2, i3, u]) (hu : u.toNat < 2) :
    opFaultAck m s =
      (let hit := fun (r : FaultRec) => !r.acked && (r.index.toNat == get32 m.payload 0 ||
         (u.toNat == 1 && r.index.toNat ≤ get32 m.payload 0)) && s.mayAck m.session r
       ((s.updFault (fun x => { x with records := x.records.map (fun r => if hit r then { r with acked := true } else r) })).overflow,
         .done stOK (le32 (s.fault.records.countP hit)))) := by
  have hlast : get8 m.payload 4 = u.toNat := by rw [hp]; rfl
  have hlen : m.payload.length = 5 := by rw [hp]; rfl
  unfold opFaultAck
  dsimp only
  rw [hlast, hlen, if_neg (by simp only [Bool.or_eq_true, decide_eq_true_eq, bne_iff_ne]; omega)]

/-- FAULT_SET_SEVERITY of one source and kind that is not locked. -/
theorem setSeverity_one (s : State) (m : VcpMsg) (s0 s1 k v : Byte) (r : FaultRow) (x : Severity) (hp : m.payload = [s0, s1, k, v])
    (hsource : get16 m.payload 0 < 4096) (hkind : k.toNat ≠ 0xFF) (hrow : faultRow (get16 m.payload 0) k.toNat = some r)
    (hlocked : r.locked = false) (hcode : severityOfCode v.toNat = some x) :
    s.setSeverity m.payload = .ok (s.putSeverity (BitVec.ofNat 12 (get16 m.payload 0)) (BitVec.ofNat 8 r.kind) x) := by
  have hk : get8 m.payload 2 = k.toNat := by rw [hp]; rfl
  have hv : get8 m.payload 3 = v.toNat := by rw [hp]; rfl
  have hlen : m.payload.length = 4 := by rw [hp]; rfl
  unfold State.setSeverity
  dsimp only
  rw [hk, hv, hlen, if_neg (Nat.not_le.mpr hsource), if_neg hkind, hrow, hcode]
  simp [hlocked, forAll]

/-- The fields of a FAULT_INJECT that names a known point, with a parameter that suits it, are in range. -/
theorem faultInject_inRange {m : VcpMsg} {s0 s1 k v0 v1 v2 v3 : Byte} (hp : m.payload = [s0, s1, k, 0, v0, v1, v2, v3])
    (hsource : get16 m.payload 0 < 4096) (hrow : (faultRow (get16 m.payload 0) k.toNat).isSome = true)
    (hparam : injectionParamOk (get16 m.payload 0) k.toNat (get32 m.payload 4) = true) :
    get8 m.payload 2 = k.toNat ∧ ¬ (m.payload.length != 8 || byteAt m.payload 3 != 0 || decide (4096 ≤ get16 m.payload 0) ||
      (faultRow (get16 m.payload 0) k.toNat).isNone || !injectionParamOk (get16 m.payload 0) k.toNat (get32 m.payload 4)) = true := by
  have hzero : byteAt m.payload 3 = 0 := by rw [hp]; rfl
  have hlen : m.payload.length = 8 := by rw [hp]; rfl
  refine ⟨by rw [hp]; rfl, ?_⟩
  simp [hlen, hzero, hparam, Option.isSome_iff_ne_none.mp hrow]
  omega

/-- FAULT_INJECT of a free point that acts as soon as it is armed. -/
theorem opFaultInject_acts (s t : State) (m : VcpMsg) (s0 s1 k v0 v1 v2 v3 : Byte) (hp : m.payload = [s0, s1, k, 0, v0, v1, v2, v3])
    (hsource : get16 m.payload 0 < 4096) (hrow : (faultRow (get16 m.payload 0) k.toNat).isSome = true)
    (hparam : injectionParamOk (get16 m.payload 0) k.toNat (get32 m.payload 4) = true) (harmed : s.armed (get16 m.payload 0) k.toNat = none)
    (hmode : s.injectionMode (get16 m.payload 0) k.toNat = true)
    (hnow : s.actNow (get16 m.payload 0) k.toNat (get32 m.payload 4) = some t) : opFaultInject m s = ok t := by
  obtain ⟨hk, hrange⟩ := faultInject_inRange hp hsource hrow hparam
  unfold opFaultInject
  dsimp only
  rw [hk, if_neg hrange, if_neg (by simp [harmed]), if_neg (by simp [hmode]), hnow]

/-- FAULT_INJECT of a free point that waits for its event. -/
theorem opFaultInject_waits (s : State) (m : VcpMsg) (s0 s1 k v0 v1 v2 v3 : Byte) (hp : m.payload = [s0, s1, k, 0, v0, v1, v2, v3])
    (hsource : get16 m.payload 0 < 4096) (hrow : (faultRow (get16 m.payload 0) k.toNat).isSome = true)
    (hparam : injectionParamOk (get16 m.payload 0) k.toNat (get32 m.payload 4) = true) (harmed : s.armed (get16 m.payload 0) k.toNat = none)
    (hmode : s.injectionMode (get16 m.payload 0) k.toNat = true) (hnow : s.actNow (get16 m.payload 0) k.toNat (get32 m.payload 4) = none)
    (htimed : injectionTimed (get16 m.payload 0) = false) :
    opFaultInject m s = ok (s.updFault (fun x => { x with injections := x.injections ++ [
      { source := BitVec.ofNat 12 (get16 m.payload 0), kind := BitVec.ofNat 8 k.toNat, parameter := BitVec.ofNat 32 (get32 m.payload 4)
        timed := false }] })) := by
  obtain ⟨hk, hrange⟩ := faultInject_inRange hp hsource hrow hparam
  unfold opFaultInject
  dsimp only
  rw [hk, if_neg hrange, if_neg (by simp [harmed]), if_neg (by simp [hmode]), hnow, htimed]
  dsimp only
  rw [if_neg Bool.false_ne_true]

/-- Settles O27: the payload's fields in range, then what the session sees, may acknowledge or arms. -/
theorem faultCommands : Obligations.FaultCommands := by
  unfold Obligations.FaultCommands
  refine ⟨?readSteward, ?readPartition, ?ack, ?severity, ?injectWaits, ?injectActs, ?pin⟩
  case readSteward =>
    intro s m sev opts n0 n1 i0 i1 i2 i3 hreach hsteward hp hsev hopts
    refine device_done hreach rfl nofun (by decide) (opFaultRead_ok _ m sev opts n0 n1 i0 i1 i2 i3 _ hp hsev hopts (fun r => ?_))
    rw [seesRecord_steward _ _ r ((taken_isSteward s 0x0901 m m.session).trans hsteward), Bool.and_true]
  case readPartition =>
    intro s m sev opts n0 n1 i0 i1 i2 i3 hreach hsteward hp hsev hopts
    refine device_done hreach rfl nofun (by decide) (opFaultRead_ok _ m sev opts n0 n1 i0 i1 i2 i3 _ hp hsev hopts (fun r => ?_))
    rw [seesRecord_partition _ _ r ((taken_isSteward s 0x0901 m m.session).trans hsteward)]
  case ack =>
    intro s m i0 i1 i2 i3 u hreach hp hu
    exact device_done hreach rfl nofun (by decide) (opFaultAck_ok _ m i0 i1 i2 i3 u hp hu)
  case severity =>
    intro s m s0 s1 k v r x hreach hsteward hp hsource hkind hrow hlocked hcode
    refine device_done hreach rfl (fun _ => hsteward) (by decide) ?_
    unfold opFaultSetSeverity
    rw [setSeverity_one _ m s0 s1 k v r x hp hsource hkind hrow hlocked hcode]
    rfl
  case injectWaits =>
    intro s m s0 s1 k v0 v1 v2 v3 hreach hsteward hp hsource hrow hparam harmed hmode hnow htimed
    exact device_done hreach rfl (fun _ => hsteward) (by decide)
      (opFaultInject_waits _ m s0 s1 k v0 v1 v2 v3 hp hsource hrow hparam harmed hmode hnow htimed)
  case injectActs =>
    intro s m s0 s1 k v0 v1 v2 v3 t hreach hsteward hp hsource hrow hparam harmed hmode hnow
    exact device_done hreach rfl (fun _ => hsteward) (by decide)
      (opFaultInject_acts _ t m s0 s1 k v0 v1 v2 v3 hp hsource hrow hparam harmed hmode hnow)
  case pin =>
    intro s m hreach hsteward hargs
    exact device_done hreach rfl (fun _ => hsteward) (by decide) (if_pos hargs)

end Sys2Proof.Machine
end

