-- ==== Sys2Proof/Proofs/FirmwareCommands.lean ====
section
/-! PROOF. The firmware commands, activation and trial (chapter 11). -/

namespace Sys2Proof.Machine

open Sys2Proof

/-- FW_STAGE_BEGIN in range, where nothing is staged, tried or activated. -/
theorem opFwStageBegin_ok (s : State) (m : VcpMsg) (k t0 t1 t2 t3 : Byte) (hp : m.payload = [k, 0, 0, 0, t0, t1, t2, t3])
    (hk : k = 1 ∨ k = 2) (hmode : s.stagingMode = true)
    (htotal : 1 ≤ get32 m.payload 4 ∧ get32 m.payload 4 ≤ (if k = 1 then 8388608 else 262144)) (hstaging : s.fw.staging = none)
    (htrial : s.fw.trial = none) (hactivation : s.fw.activation = none) :
    opFwStageBegin m s = (s.updFw (fun x => { x with
        areas := x.areas.put (s.fw.stagingArea (k == 1)) { st := .staging, bytes := [] }
        staging := some { session := m.session, area := s.fw.stagingArea (k == 1), isImage := k == 1, total := get32 m.payload 4, bytes := [] } }),
      .done stOK [BitVec.ofNat 8 (s.fw.stagingArea (k == 1)).val]) := by
  have hkind : get8 m.payload 0 = k.toNat := by rw [hp]; rfl
  have hzero : zeroSlice m.payload 1 3 = true := by rw [hp]; rfl
  have hlen : m.payload.length = 8 := by rw [hp]; rfl
  have himage : (k.toNat == 1) = (k == 1) := by rcases hk with rfl | rfl <;> rfl
  have hbound : ¬ (if (k == 1) = true then 8388608 else 262144) < get32 m.payload 4 := by
    rw [show (if (k == 1) = true then 8388608 else 262144) = (if k = 1 then 8388608 else 262144 : Nat) by simp]
    exact Nat.not_lt.mpr htotal.2
  have habandon : s.abandonStaging = s := by
    unfold State.abandonStaging
    rw [hstaging]
  have hrange : ¬ (m.payload.length != 8 || !((k == 1) || k.toNat == 2) || !zeroSlice m.payload 1 3 || decide (get32 m.payload 4 = 0) ||
      decide ((if (k == 1) = true then 8388608 else 262144) < get32 m.payload 4)) = true := by
    rw [hlen, hzero, decide_eq_false hbound, decide_eq_false (by omega)]
    rcases hk with rfl | rfl <;> decide
  unfold opFwStageBegin
  dsimp only
  rw [hkind, himage, if_neg (by simp [hmode]), if_neg hrange, if_neg (by simp [hstaging, htrial, hactivation]), habandon]

/-- FW_STAGE_DATA that continues the session's own staging. -/
theorem opFwStageData_ok (s : State) (m : VcpMsg) (g : Staging) (o0 o1 o2 o3 : Byte) (d : List Byte) (hmode : s.stagingMode = true)
    (hstaging : s.fw.staging = some g) (hown : g.session = m.session) (hp : m.payload = [o0, o1, o2, o3, 0, 0, 0, 0] ++ d)
    (hlen : 1 ≤ d.length ∧ d.length ≤ 1016) (hoffset : get32 m.payload 0 = g.bytes.length) (htotal : g.bytes.length + d.length ≤ g.total) :
    opFwStageData m s = (s.updFw (fun x => { x with
        areas := x.areas.put g.area { st := .staging, bytes := g.bytes ++ d }, staging := some { g with bytes := g.bytes ++ d } }),
      .done stOK (le32 (g.bytes ++ d).length)) := by
  have hdata : m.payload.drop 8 = d := by rw [hp]; rfl
  have hzero : zeroSlice m.payload 4 4 = true := by rw [hp]; rfl
  have hsome : d.isEmpty = false := by
    cases d with
    | nil => exact absurd hlen.1 (by decide)
    | cons => rfl
  unfold opFwStageData
  dsimp only
  rw [if_neg (by simp [hmode]), hstaging]
  dsimp only
  rw [hdata, if_neg (by simp [hown]), if_neg]
  simp [hsome, hzero, hoffset, hlen.2, htotal]

/-- FW_STAGE_COMMIT of the session's own staging. -/
theorem opFwStageCommit_ok (s : State) (m : VcpMsg) (g : Staging) (hmode : s.stagingMode = true) (hstaging : s.fw.staging = some g)
    (hown : g.session = m.session) (hp : m.payload = []) :
    opFwStageCommit m s =
      (let r := s.commitResult g
       let answer : List Byte := [BitVec.ofNat 8 r, 0, 0, 0] ++ le32 (versionOf (slice g.bytes 0 512)) ++ le32 (secverOf (slice g.bytes 0 512))
       let t := s.updFw (fun x => { x with staging := none })
       if r = 0 then (t.updFw (fun x => (x.writeDir (commitDirectory g x.bootFailed)).mark g.area .valid), .done stOK answer)
       else (t.updFw (fun x => x.mark g.area .invalid), .done stBadArg answer)) := by
  unfold opFwStageCommit
  rw [if_neg (by simp [hmode]), hstaging]
  dsimp only
  rw [if_neg (by simp [hown]), if_neg (by simp [hp])]

/-- FW_ACTIVATE of a valid image that does not run, in Noon or Evening with nothing under way. -/
theorem opFwActivate_starts (s : State) (m : VcpMsg) (i : Fin 2) (hp : m.payload = [BitVec.ofNat 8 i.val])
    (hmode : s.mode = .noon ∨ s.mode = .evening) (htrans : s.trans = none) (harrival : s.arrival = none) (hstaging : s.fw.staging = none)
    (htrial : s.fw.trial = none) (hactivation : s.fw.activation = none) (hvalid : (s.fw.areas.get (slotArea i)).st = .valid)
    (hother : s.fw.running ≠ some i) :
    opFwActivate m s = (((s.beginWait m 0x0A05 .mode).updFw (fun x => { x with
      activation := some { target := i, previous := s.fw.running.getD (other2 i), session := some m.session, cseq := m.cseq, step := .dusk,
                           rollback := false } })).startDusk { goal := .maintenance i, session := some m.session, cseq := m.cseq }
        false false causeActivate 0, .answered) := by
  have hslot : get8 m.payload 0 = i.val := by
    rw [hp]
    exact (by decide : ∀ i : Fin 2, get8 [BitVec.ofNat 8 i.val] 0 = i.val) i
  have hfin : (Fin.ofNat 2 i.val : Fin 2) = i := Fin.ext (Nat.mod_eq_of_lt i.isLt)
  have hlen : m.payload.length = 1 := by rw [hp]; rfl
  have hidle : s.busy = false := by simp [State.busy, htrans, harrival]
  have hday : (s.mode == .noon || s.mode == .evening) = true := by simpa using hmode
  have hnight : s.mode ≠ .night := by rcases hmode with h | h <;> simp [h]
  have hmeet : s.meetRequest m 0x0A05 (.maintenance i) =
      (s.beginWait m 0x0A05 .mode).startMode { goal := .maintenance i, session := some m.session, cseq := m.cseq } := by
    unfold State.meetRequest
    dsimp only
    rw [htrans]
    dsimp only
    rw [if_pos (by simp [hidle])]
  have hstart (u : State) (req : ModeRequest) (hu : u.mode ≠ .night) : u.startMode req = u.startFrom req := by
    unfold State.startMode
    rw [if_neg (by simp [hu])]
  unfold opFwActivate
  dsimp only
  rw [hslot, hfin, hlen, if_neg (by simp only [Bool.or_eq_true, decide_eq_true_eq, bne_iff_ne]; omega), if_neg (by simp [hday]), if_neg (by simp [hstaging, htrial, hactivation]),
    if_neg (by simp [hvalid, hother]), hmeet, hstart (s.beginWait m 0x0A05 .mode) _ hnight]
  unfold State.startFrom State.startActivation
  dsimp only
  rw [if_neg (by simp [State.beginWait, hday]), if_neg (by simp [State.beginWait, hstaging, htrial, hactivation]),
    if_neg (by simp [State.beginWait, hvalid, hother])]
  rfl

/-- Settles O28: each command in range takes effect; the record of the activation or of the trial selects what its end does. -/
theorem firmwareCommands : Obligations.FirmwareCommands := by
  unfold Obligations.FirmwareCommands
  refine ⟨?get, ?begins, ?data, ?commit, ?activate, ?pauseEnd, ?loadFail, ?pass, ?failDusk, ?failPause⟩
  case get =>
    intro s m hreach hp
    exact device_done hreach rfl nofun (by decide) (if_pos (by simp [hp]))
  case begins =>
    intro s m k t0 t1 t2 t3 hreach hsteward hp hk hmode htotal hstaging htrial hactivation
    exact device_done hreach rfl (fun _ => hsteward) (by decide)
      (opFwStageBegin_ok _ m k t0 t1 t2 t3 hp hk hmode htotal hstaging htrial hactivation)
  case data =>
    intro s m g o0 o1 o2 o3 d hreach hsteward hmode hstaging hown hp hlen hoffset htotal
    exact device_done hreach rfl (fun _ => hsteward) (by decide)
      (opFwStageData_ok _ m g o0 o1 o2 o3 d hmode hstaging hown hp hlen hoffset htotal)
  case commit =>
    intro s m g hreach hsteward hmode hstaging hown hp
    have hrun := opFwStageCommit_ok (s.taken 0x0A04 m) m g hmode hstaging hown hp
    by_cases hr : s.commitResult g = 0
    · refine (device_done hreach rfl (fun _ => hsteward) (by decide) (hrun.trans (if_pos hr))).trans ?_
      exact congrArg Host.Outcome.next (if_pos hr).symm
    · refine (device_done hreach rfl (fun _ => hsteward) (by decide) (hrun.trans (if_neg hr))).trans ?_
      exact congrArg Host.Outcome.next (if_neg hr).symm
  case activate =>
    intro s m i hreach hsteward hp hmode htrans harrival hstaging htrial hactivation hvalid hother
    exact device_answered hreach rfl (fun _ => hsteward) (by decide)
      (opFwActivate_starts _ m i hp hmode htrans harrival hstaging htrial hactivation hvalid hother)
  case pauseEnd =>
    intro s a hmode hactivation hstep hrollback hrestart hload
    refine aonRow_next (f := fun s => s.activationEnd) hmode ?_
    unfold State.activationEnd
    rw [State.begin_fw, hactivation]
    dsimp only
    rw [if_neg (by simp [hstep]), if_neg (by simp [hrollback]), if_neg]
    rw [show s.begin.loadOk a = true from hload, State.begin_fault, hrestart]
    exact nofun
  case loadFail =>
    intro s a hmode hactivation hstep hrollback
    refine aonRow_next (f := fun s => s.loadFailed) hmode ?_
    unfold State.loadFailed
    rw [State.begin_fw, hactivation]
    exact if_pos (by simp [hstep, hrollback])
  case pass =>
    intro s t hmode htrial hpaused
    refine aonRow_next (f := fun s => s.trialPass) hmode ?_
    unfold State.trialPass
    rw [State.begin_fw, htrial]
    dsimp only
    rw [if_neg (by simp [hpaused])]
  case failDusk =>
    intro s t hmode htrans harrival htrial
    have hday : (s.mode == .noon || s.mode == .evening) = true := by simpa using hmode
    refine aonRow_next (f := fun s => s.trialFail false) (by rcases hmode with h | h <;> simp [h]) ?_
    unfold State.trialFail
    rw [State.begin_fw, htrial]
    dsimp only
    rw [if_pos, if_neg Bool.false_ne_true]
    simp [State.busy, htrans, harrival, hday]
  case failPause =>
    rintro s t dead ⟨hoff, hnoon, hevening⟩ htrial
    refine aonRow_next (f := fun s => s.trialFail dead) hoff ?_
    unfold State.trialFail
    rw [State.begin_fw, htrial]
    dsimp only
    rw [if_neg (by simp [hnoon, hevening])]
    rfl

end Sys2Proof.Machine
end

