-- ==== Sys2Proof/Proofs/DiagnosticCommands.lean ====
section
/-! PROOF. The diagnostic commands (chapters 10 and 11). -/

namespace Sys2Proof.Machine

open Sys2Proof

section
variable {s u : State} {m : VcpMsg} {t : Target} {b : List Byte} {f : VcpMsg → Target → State → State × Reply}

/-- A diagnostic command on a port or an upstream port. -/
theorem diag_done {op : BitVec 16} {n : Nat} (h : s.reaches op m t)
    (hrow : cmdRow op = some { opcode := n, scope := .steward, fits := fun t => isPort t || isUpstream t, run := f })
    (hsteward : s.isSteward m.session = true) (hfits : (isPort t || isUpstream t) = true) (hop : op ≠ 0x0001 ∧ op ≠ 0x0002)
    (hf : f m t (s.taken op m) = (u, .done stOK b)) : runVcp op m s = .next (u.answers s op m stOK b) :=
  reaches_done s u op m _ t stOK b h hrow (fun _ => hsteward) hfits hop hf

end

/-- DIAG_LOOPBACK of a kind that the port has. -/
theorem opDiagLoopback_ok (s : State) (m : VcpMsg) (t : Target) (k l0 l1 : Byte) (hp : m.payload = [k, 0, l0, l1]) (hk : k.toNat < 4)
    (hss : 2 ≤ k.toNat → diagSs t = true) :
    opDiagLoopback m t s = (s.tick, .done stOK ((List.range 16).map (fun i => Config.loopback s.freeCount i))) := by
  have hkind : get8 m.payload 0 = k.toNat := by rw [hp]; rfl
  have hzero : byteAt m.payload 1 = 0 := by rw [hp]; rfl
  have hlen : m.payload.length = 4 := by rw [hp]; rfl
  unfold opDiagLoopback
  dsimp only
  rw [hkind, hzero, hlen, if_neg]
  simpa [Nat.not_le.mpr hk] using hss

/-- DIAG_PHY_TEST of a pattern that the side has. -/
theorem opDiagPhyTest_ok (s : State) (m : VcpMsg) (t : Target) (side pat : Byte) (hp : m.payload = [side, pat])
    (hside : (side = 0 ∧ pat.toNat ≤ 5) ∨ (side = 1 ∧ pat.toNat ≤ 16 ∧ diagSs t = true)) :
    opDiagPhyTest m t s =
      (let others := s.diag.filter (fun (x : DiagTest) => !(x.target == m.target && x.side.toNat == side.toNat))
       ok (({ s with diag := if pat.toNat = 0 then others else others ++ [{ target := m.target, side, pattern := pat }] } : State).testOn t pat)) := by
  have hfirst : get8 m.payload 0 = side.toNat ∧ byteAt m.payload 0 = side := by rw [hp]; exact ⟨rfl, rfl⟩
  have hsecond : get8 m.payload 1 = pat.toNat ∧ byteAt m.payload 1 = pat := by rw [hp]; exact ⟨rfl, rfl⟩
  have hlen : m.payload.length = 2 := by rw [hp]; rfl
  unfold opDiagPhyTest
  dsimp only
  rw [hfirst.1, hfirst.2, hsecond.1, hsecond.2, hlen, if_neg]
  rcases hside with ⟨rfl, hmax⟩ | ⟨rfl, hmax, hss⟩
  · simpa using hmax
  · simpa [hss] using hmax

/-- DIAG_EYE of a lane that the port has. -/
theorem opDiagEye_ok (s : State) (m : VcpMsg) (t : Target) (lane x y : Byte) (hp : m.payload = [lane, 0, x, y])
    (hlane : lane.toNat < diagLanes t) :
    opDiagEye m t s = (s.tick, .done stOK ([32, 31, 0, 0] ++ (List.range 992).map (fun i => Config.eyePoint s.freeCount i))) := by
  have hfirst : get8 m.payload 0 = lane.toNat := by rw [hp]; rfl
  have hzero : byteAt m.payload 1 = 0 := by rw [hp]; rfl
  have hlen : m.payload.length = 4 := by rw [hp]; rfl
  unfold opDiagEye
  dsimp only
  rw [hfirst, hzero, hlen, if_neg]
  simpa using hlane

/-- Settles O29: a payload in range for the target reaches the command's effect. -/
theorem diagnosticCommands : Obligations.DiagnosticCommands := by
  unfold Obligations.DiagnosticCommands
  refine ⟨?loopback, ?starts, ?ends, ?eye⟩
  case loopback =>
    intro s m t k l0 l1 hreach hsteward hfits hp hk hss
    exact diag_done hreach rfl hsteward hfits (by decide) (opDiagLoopback_ok _ m t k l0 l1 hp hk hss)
  case starts =>
    intro s m t side pat hreach hsteward hfits hp hside hpat
    refine diag_done hreach rfl hsteward hfits (by decide) ((opDiagPhyTest_ok _ m t side pat hp hside).trans ?_)
    have hne : ¬ pat.toNat = 0 := fun h => hpat (BitVec.eq_of_toNat_eq h)
    simp only [if_neg hne]
    rfl
  case ends =>
    intro s m t side hreach hsteward hfits hp hside
    refine diag_done hreach rfl hsteward hfits (by decide) ((opDiagPhyTest_ok _ m t side 0 hp ?_).trans rfl)
    exact hside.imp (fun h => ⟨h, by decide⟩) (fun ⟨h, hss⟩ => ⟨h, by decide, hss⟩)
  case eye =>
    intro s m t lane x y hreach hsteward hfits hp hlane
    exact diag_done hreach rfl hsteward hfits (by decide) (opDiagEye_ok _ m t lane x y hp hlane)

/-- Outside Diagnostic the mode admits no command of group 0x0B. -/
theorem modeAdmits_diag (s u : State) (op : Nat) (hmode : s.mode ≠ .diagnostic) (hu : u.mode = s.mode) (hop : op / 256 = 0x0B) :
    u.modeAdmits op = false := by
  unfold State.modeAdmits
  rw [if_neg (by omega), if_pos hop, hu]
  simpa using hmode

/-- Settles O56: the three opcodes are of group 0x0B, which only Diagnostic admits. -/
theorem diagnosticModeOnly : Obligations.DiagnosticModeOnly := by
  unfold Obligations.DiagnosticModeOnly
  refine ⟨?loopback, ?phyTest, ?eye⟩
  case loopback =>
    intro s m t r hhears hopen hcseq hboot hsteward hrow htarget hfits hmode
    exact runVcp_mode s 0x0B01 m t r hhears hopen hcseq hboot hsteward hrow htarget hfits (by decide) (by decide) (by decide)
      (fun u hu => modeAdmits_diag s u _ hmode hu (by decide))
  case phyTest =>
    intro s m t r hhears hopen hcseq hboot hsteward hrow htarget hfits hmode
    exact runVcp_mode s 0x0B02 m t r hhears hopen hcseq hboot hsteward hrow htarget hfits (by decide) (by decide) (by decide)
      (fun u hu => modeAdmits_diag s u _ hmode hu (by decide))
  case eye =>
    intro s m t r hhears hopen hcseq hboot hsteward hrow htarget hfits hmode
    exact runVcp_mode s 0x0B03 m t r hhears hopen hcseq hboot hsteward hrow htarget hfits (by decide) (by decide) (by decide)
      (fun u hu => modeAdmits_diag s u _ hmode hu (by decide))

end Sys2Proof.Machine
end

