-- ==== Sys2Proof/Proofs/PortAttach.lean ====
section
/-! PROOF. Attach, probe and detach of a downstream port (chapters 3 and 4). -/

namespace Sys2Proof.Machine

open Sys2Proof

/-- A device that is not SuperSpeed, with nothing carried over, is debounced or probed (Table 3.5). -/
theorem attachFlow_usb2 (s : State) (p : Port) (hpossible : s.possible p = true) (hlink : (s.ports.get p).ssLink ≠ .u0)
    (hmode : (s.ports.get p).dataMode ≠ .pass) (hcarry : (s.ports.get p).carry = none) :
    s.attachFlow p = if (s.ports.get p).noDebounce then s.startProbe p else s.updPort p (fun x => { x with st := .debounce }) := by
  unfold State.attachFlow
  dsimp only
  rw [if_neg (by simp [hpossible]), if_neg (by simp [hlink]), if_neg hmode, hcarry]

/-- A SuperSpeed device that is held in U0 is presented natively where the side is active. -/
theorem attachFlow_native (s : State) (p : Port) (hpossible : s.possible p = true) (hlink : (s.ports.get p).ssLink = .u0)
    (hheld : (s.ports.get p).ssHeld = true) (hline : (s.ports.get p).line = false) (hactive : s.ssActive (s.partOf.get p) = true) :
    s.attachFlow p = s.showNative p := by
  unfold State.attachFlow
  dsimp only
  rw [if_neg (by simp [hpossible]), if_pos (by simp [hlink, hheld, hline]), if_pos hactive]

/-- Outside PASS a connected line leaves where a presentation is possible. -/
theorem possible_line (s : State) (p : Port) (f : PortState → PortState) (hmode : (s.ports.get p).dataMode ≠ .pass)
    (hss : (f (s.ports.get p)).needSs = (s.ports.get p).needSs) (hu2 : (f (s.ports.get p)).needU2 = (s.ports.get p).needU2)
    (hkeeps : (f (s.ports.get p)).dataMode = (s.ports.get p).dataMode) : (s.updPort p f).possible p = s.possible p := by
  have hpass : ((s.ports.get p).dataMode != .pass) = true := by simpa using hmode
  unfold State.possible
  dsimp only
  rw [State.updPort_ports, Tab.get_upd_same, hss, hu2, hkeeps, hpass]
  rfl

/-- AUTO and LIFT attach devices, and are not PASS. -/
theorem autoOrLift {d : DataMode} (h : d = .auto ∨ d = .lift) : dataModeAttaches d = true ∧ d ≠ .pass := by
  rcases h with rfl | rfl <;> decide

/-- A new device on the lines of an idle port whose SuperSpeed link does not train starts the debounce. -/
theorem connectSeen_debounce (s : State) (p : Port) (hst : (s.ports.get p).st = .idle)
    (hmode : (s.ports.get p).dataMode = .auto ∨ (s.ports.get p).dataMode = .lift) (hline : (s.ports.get p).line = false)
    (hvdm : (s.ports.get p).vdmSrc = false) (hlink : (s.ports.get p).ssLink ≠ .u0) (hnow : (s.ports.get p).noDebounce = false)
    (hcarry : (s.ports.get p).carry = none) (hpossible : s.possible p = true) :
    s.connectSeen p false = s.updPort p (fun x => { x with line := true, st := .debounce }) := by
  obtain ⟨hattaches, hpass⟩ := autoOrLift hmode
  have hss : (ssCapable p && (false || (s.ports.get p).ssLink == .u0)) = false := by simp [hlink]
  have hflow := attachFlow_usb2 (s.updPort p (fun x => { x with
      line := true, vdmSrc := false, ssLink := if false = true then .disabled else x.ssLink, ssHeld := x.ssHeld && !false })) p
    ((possible_line s p _ hpass rfl rfl rfl).trans hpossible) (by simpa using hlink) (by simpa using hpass) (by simpa using hcarry)
  unfold State.connectSeen
  dsimp only
  rw [if_neg (by simp [hattaches, hline]), hss, hvdm, if_neg Bool.false_ne_true, if_neg Bool.false_ne_true, if_neg (by simp), hst]
  dsimp only
  rw [hflow, if_neg (by simp [hnow]), updPort_updPort]
  refine updPort_congr s p _ _ ?_
  simp [hvdm]

/-- A device that is shown leaves by a drain with reason UNPLUG (Table 3.8). -/
theorem disconnectSeen_shown (s : State) (p : Port) (hline : (s.ports.get p).line = true)
    (hst : (s.ports.get p).st ∈ [.waitReset, .enabled, .suspended, .l1]) :
    s.disconnectSeen p = (s.updPort p (fun x => { x with
      line := false, ssLink := .off, ssHeld := false, bcMode := x.bcNext.getD x.bcMode, bcNext := none, needSs := false, needU2 := false
      noDebounce := false, carry := none, pendError := false })).beginDrain p .unplug := by
  unfold State.disconnectSeen
  dsimp only
  rw [if_neg (by simp [hline])]
  simp only [List.mem_cons, List.not_mem_nil, or_false] at hst
  rcases hst with h | h | h | h <;> rw [h]

/-- The probe that runs on a port is the one its lifted state holds. -/
theorem probe_of_probing {s : State} {p : Port} {b : Probe} (h : s.probing p = some b) : (s.lift.get p).bind (·.probe) = some b := by
  unfold State.probing at h
  dsimp only at h
  split at h
  · obtain ⟨l, hl, hb⟩ := Option.bind_eq_some_iff.mp h
    obtain ⟨c, hc, hwait⟩ := Option.bind_eq_some_iff.mp hb
    rw [hl, Option.bind_some, hc]
    split at hwait
    · exact nomatch hwait
    · exact hwait
  · exact nomatch h

/-- Two changes of a port's probe are one. -/
theorem updProbe_updProbe (s : State) (p : Port) (f g : Probe → Probe) :
    (s.updProbe p f).updProbe p g = s.updProbe p (fun b => g (f b)) := by
  simp only [State.updProbe, State.updLift, Tab.upd_upd_same, Option.map_map, Function.comp_def]

/-- On an active port-die link the request of the probe's step is issued at once. -/
theorem issueProbe_up (s : State) (p : Port) (b : Probe) (hprobe : (s.lift.get p).bind (·.probe) = some b) (hdie : s.dieUp p = true) :
    s.issueProbe p = (s.updProbe p (fun b => { b with errors := 0, waitLink := false })).emit (.dsSetup p b.request.1 b.request.2) := by
  have hdie' : (s.updProbe p (fun b => { b with errors := 0, waitLink := false })).dieUp p = true := hdie
  unfold State.issueProbe
  rw [hprobe]
  dsimp only
  rw [hdie, Bool.not_true, if_pos hdie']

/-- The first request of a probe on an active port-die link. -/
theorem recoveryEnd_first (s : State) (p : Port) (l : LiftPort) (hst : (s.ports.get p).st = .probe) (hlift : s.lift.get p = some l)
    (hprobe : l.probe = none) (hdie : s.dieUp p = true) :
    s.recoveryEnd p = ({ s with lift := s.lift.put p (some { l with probe := some {} }) } : State).emit
      (.dsSetup p 0 { bmRequestType := 0x80, bRequest := 6, wValue := 0x0100, wIndex := 0, wLength := 64 }) := by
  have hput : s.updLift p (fun l => { l with probe := some { second := false } }) =
      { s with lift := s.lift.put p (some { l with probe := some {} }) } := by
    unfold State.updLift Tab.upd
    rw [hlift]
    rfl
  have hsame : ({ s with lift := s.lift.put p (some { l with probe := some {} }) } : State).updProbe p
      (fun b => { b with errors := 0, waitLink := false }) = { s with lift := s.lift.put p (some { l with probe := some {} }) } := by
    unfold State.updProbe State.updLift
    dsimp only
    rw [Tab.upd_same]
    rw [Tab.get_put_same]
    rfl
  unfold State.recoveryEnd
  dsimp only
  rw [hst, hlift]
  dsimp only
  rw [hprobe, Option.map_none, Option.getD_none, hput,
    issueProbe_up { s with lift := s.lift.put p (some { l with probe := some {} }) } p {} (by rw [Tab.get_put_same]; rfl) hdie, hsame]
  rfl

/-- SET_ADDRESS of the probe is over: the device descriptor is read again at the new address. -/
theorem probeRequest_addressed (s : State) (p : Port) (b : Probe) (bytes : List Byte) (hprobing : s.probing p = some b) (hstep : b.step = .p2)
    (hwait : b.waitLink = false) :
    s.probeRequest p (.data bytes) =
      (s.updProbe p (fun x => { x with got := b.got, step := .p3, asked := 18, retried := false })).issueProbe p := by
  have hanswer (l : List Byte) : probeAnswer b l = .go b.got .p3 18 := by
    unfold probeAnswer
    dsimp only
    rw [hstep]
  unfold State.probeRequest
  rw [hprobing]
  dsimp only
  rw [if_neg (by simp [hwait]), hanswer]
  unfold State.probeGo State.probeTo
  dsimp only
  rw [updProbe_updProbe]

/-- A request that fails the first time is issued once more. -/
theorem requestFails_first (s : State) (p : Port) (b : Probe) (hprobing : s.probing p = some b) (hretried : b.retried = false) :
    s.requestFails p = (s.updProbe p (fun b => { b with retried := true })).issueProbe p := by
  unfold State.requestFails
  rw [hprobing]
  dsimp only
  rw [if_neg (by simp [hretried])]

/-- A request that fails again ends the probe; outside LIFT, or after the second probe, the device falls back with reason 2. -/
theorem requestFails_again (s : State) (p : Port) (b : Probe) (hprobing : s.probing p = some b) (hretried : b.retried = true)
    (hrefetch : b.refetch = false) (hlast : (s.ports.get p).dataMode ≠ .lift ∨ b.second = true) :
    s.requestFails p = (s.noteDevice p b.got true).fallBack p 2 b.detail := by
  unfold State.requestFails State.probeStopped
  rw [hprobing]
  dsimp only
  rw [if_pos hretried, probe_of_probing hprobing]
  dsimp only
  rw [if_neg (by simp [hrefetch]), if_neg (by rcases hlast with h | h <;> simp [h])]

/-- Settles O31: the state of the port, and of its probe, selects the branch of each row. -/
theorem portAttach : Obligations.PortAttach := by
  unfold Obligations.PortAttach
  refine ⟨?connect, ?disconnect, ?possible, ?debounce, ?high, ?notHigh, ?recovery, ?addressed, ?retry, ?fallback, ?timeout, ?native,
    ?vdmOn, ?vdmOff, ?drained, ?expired, ?discharged⟩
  case connect =>
    rintro s p hup hst hmode hline hvdm ⟨hlink, -⟩ hnow hcarry hpossible
    exact upRow_next hup (connectSeen_debounce s.begin p hst hmode hline hvdm hlink hnow hcarry hpossible)
  case disconnect =>
    intro s p hup hline hst
    exact upRow_next hup (disconnectSeen_shown s.begin p hline hst)
  case possible =>
    intro s p hup hst hpossible hlink hmode hcarry hnow
    refine upRow_next hup ((if_pos ?_).trans ((attachFlow_usb2 s.begin p hpossible hlink hmode hcarry).trans ((if_pos hnow).trans ?_)))
    · simp [hst, begin_possible, hpossible]
    · refine congrArg (fun u => State.emit u (.bus p .se0)) (updPort_congr _ p _ _ ?_)
      simp [hcarry]
  case debounce =>
    intro s p hup hst
    exact upRow_next hup (if_pos hst)
  case high =>
    intro s p hup hst
    refine upRow_next hup ((if_pos (.inl hst)).trans ?_)
    unfold State.se0End
    dsimp only
    rw [State.begin_ports, hst]
    rfl
  case notHigh =>
    intro s p found hup hst hfound
    refine upRow_next hup ((if_pos (.inl hst)).trans ?_)
    unfold State.se0End
    dsimp only
    rw [State.begin_ports, hst]
    cases found with
    | high => exact absurd rfl hfound
    | _ => exact updPort_updPort _ p _ _
  case recovery =>
    intro s p l hup hst hlift hprobe hdie
    exact upRow_next hup (recoveryEnd_first s.begin p l hst hlift hprobe hdie)
  case addressed =>
    intro s p b bytes hup hprobing hstep hwait
    exact upRow_next hup (probeRequest_addressed s.begin p b bytes hprobing hstep hwait)
  case retry =>
    intro s p b hup hprobing hretried
    exact upRow_next hup (requestFails_first s.begin p b hprobing hretried)
  case fallback =>
    intro s p b hup hprobing hretried hrefetch hlast
    exact upRow_next hup (requestFails_again s.begin p b hprobing hretried hrefetch hlast)
  case timeout =>
    intro s p b hup hprobing
    refine upRow_next (f := fun s => s.probeTimeout p) hup ?_
    unfold State.probeTimeout
    rw [show s.begin.probing p = some b from hprobing]
  case native =>
    intro s p gen2 hup hss hst hattaches hline hpossible hactive
    refine upRow_next hup ((if_pos (by simp [hss, hattaches, hline, hst])).trans (attachFlow_native _ p ?_ ?_ ?_ ?_ hactive))
    · exact (possible_upd s.begin p _ rfl rfl rfl rfl).trans hpossible
    · simp
    · simp
    · simpa using hline
  case vdmOn =>
    intro s p hup hst hattaches hline hbc hvdm
    refine upRow_next (f := fun s => s.vdpSrc p true) hup ?_
    unfold State.vdpSrc
    dsimp only
    rw [if_pos rfl, if_pos (by simp [hattaches, hbc, hline, hst, hvdm])]
  case vdmOff =>
    intro s p hup hvdm
    refine upRow_next (f := fun s => s.vdpSrc p false) hup ?_
    unfold State.vdpSrc
    dsimp only
    rw [if_neg Bool.false_ne_true, State.begin_ports, if_pos hvdm]
  case drained =>
    intro s p hup hst hempty
    refine upRow_next hup (if_pos ?_)
    simp [hst, show s.begin.deliverable p = false from hempty]
  case expired =>
    intro s p hup hst
    exact upRow_next hup (if_pos hst)
  case discharged =>
    intro s p hmode hdischarging
    exact aonRow_next hmode (if_pos hdischarging)

end Sys2Proof.Machine
end

