-- ==== Sys2Proof/Proofs/HostPortResets.lean ====
section
/-! PROOF. Port resets by a host (chapters 2 to 4). -/

namespace Sys2Proof.Machine

open Sys2Proof

/-- A reset of a shown position on the USB 2.0 side drives SE0. -/
theorem hostPortReset_usb2 (s : State) (k : Part) (i : Pos) (p : Port) (bh : Bool) (hat : s.portAtPos k i = some p)
    (hshown : (s.ports.get p).shown = true) (hside : sideOf (s.ports.get p).path = .usb2)
    (hst : (s.ports.get p).st ∈ [.waitReset, .enabled, .suspended, .l1]) :
    s.hostPortReset k i .usb2 bh = s.startHostReset k .usb2 i p bh .se0 := by
  have hlifted : (s.ports.get p).path ≠ .lifted := by
    intro h
    simp [h, sideOf] at hside
  have hnative : (s.ports.get p).path ≠ .native := by
    intro h
    simp [h, sideOf] at hside
  simp only [List.mem_cons, List.not_mem_nil, or_false] at hst
  unfold State.hostPortReset
  rw [hat]
  dsimp only
  rw [if_neg (by simp [hshown, hside]), if_neg (by rcases hst with h | h | h | h <;> simp [h]), if_neg hlifted,
    if_neg (by rcases hst with h | h | h | h <;> simp [h]), if_neg hnative]

/-- A reset of a lifted position starts the reset of its device. -/
theorem hostPortReset_lifted (s : State) (k : Part) (i : Pos) (p : Port) (bh : Bool) (hat : s.portAtPos k i = some p)
    (hshown : (s.ports.get p).shown = true) (hpath : (s.ports.get p).path = .lifted)
    (hst : (s.ports.get p).st ≠ .draining ∧ (s.ports.get p).st ≠ .quenched) :
    s.hostPortReset k i .superSpeed bh = (s.updLeaf k .superSpeed i (fun v => { v with bhReset := bh })).startLiftReset p true := by
  unfold State.hostPortReset
  rw [hat]
  dsimp only
  rw [if_neg (by simp [hshown, hpath, sideOf]), if_neg (by simp [hst.1, hst.2]), if_pos hpath]

/-- A reset of an enabled native position resets its link. -/
theorem hostPortReset_native (s : State) (k : Part) (i : Pos) (p : Port) (bh : Bool) (hat : s.portAtPos k i = some p)
    (hshown : (s.ports.get p).shown = true) (hpath : (s.ports.get p).path = .native) (hst : (s.ports.get p).st = .enabled) :
    s.hostPortReset k i .superSpeed bh = s.startHostReset k .superSpeed i p bh (if bh then .warmReset else .hotReset) := by
  unfold State.hostPortReset
  rw [hat]
  dsimp only
  rw [if_neg (by simp [hshown, hpath, sideOf]), if_neg (by simp [hst]), if_neg (by simp [hpath]), if_neg (by simp [hst]), if_pos hpath,
    if_neg (by simp [hst])]

/-- A change of a hub port and a change of a downstream port are independent. -/
theorem updPort_updLeaf (s : State) (p : Port) (f : PortState → PortState) (k : Part) (side : Side) (i : Pos) (g : VPort → VPort) :
    (s.updPort p f).updLeaf k side i g = (s.updLeaf k side i g).updPort p f := by
  cases side <;> rfl

/-- The end of a host's reset enables the port at the speed found. -/
theorem se0End_host (s : State) (p : Port) (found : FoundSpeed) (hst : (s.ports.get p).st = .resetting)
    (hown : (s.ports.get p).ownReset = false) (hlift : s.lift.get p = none)
    (hpath : (s.ports.get p).path ≠ .extHub ∧ (s.ports.get p).path ≠ .native) (hquench : (s.ports.get p).quenchedFrom = none) :
    s.se0End p found = (s.updLeaf (s.partOf.get p) .usb2 (s.posOf.get p) (fun v => { v with
      enabled := true, suspended := false, cReset := true, cBhReset := v.cBhReset || v.bhReset, bhReset := false, speedKnown := true })).updPort
      p (fun x => { x with st := .enabled, path := (pathOf found).1, speed := (pathOf found).2 }) := by
  have hspeed : (if (s.ports.get p).path = .extHub && found = .high then .extHub else (pathOf found).1) = (pathOf found).1 :=
    if_neg (by simp [hpath.1])
  unfold State.se0End
  dsimp only
  rw [hst]
  dsimp only
  rw [if_neg (by simp [hown]), if_neg (by simp [hlift]), if_neg hpath.2, hspeed]
  unfold State.hostResetDone
  simp only [State.updPort_ports, Tab.get_upd_same, hquench, updPort_updLeaf, updPort_updPort, Option.isSome_none, Bool.not_false,
    Bool.false_and, Bool.or_false, Bool.false_eq_true, if_false, beq_iff_eq, reduceCtorEq]
  rfl

/-- A reset of a connected and powered top port resets what is behind it. -/
theorem topPortReset_connected (s : State) (k : Part) (side : Side) (n : Fin 9) (bh : Bool)
    (hup : ((s.treeOf k side).top.get n).connected = true ∧ ((s.treeOf k side).top.get n).powered = true) :
    s.topPortReset k side n bh =
      (let u := s.updTop k side n (fun v =>
         { v with enabled := true, suspended := false, cReset := true, cBhReset := v.cBhReset || bh, speedKnown := true, link := .u0 })
       if n.val = 8 then u.restartMf k
       else u.leafDefault k side (leafBehind n) (fun i => ((u.treeOf k side).leaf.get i).connected)) := by
  unfold State.topPortReset
  dsimp only
  rw [if_neg (by simp [hup.1, hup.2])]

/-- A change of a top port leaves the leaf ports. -/
theorem leaf_updTop (s : State) (k : Part) (side : Side) (n : Fin 9) (f : VPort → VPort) :
    ((s.updTop k side n f).treeOf k side).leaf = (s.treeOf k side).leaf := by
  cases side <;> simp [State.updTop, State.updTree, State.treeOf]

/-- Settles O32: the path and the state of the position select what the reset does. -/
theorem hostPortResets : Obligations.HostPortResets := by
  unfold Obligations.HostPortResets
  refine ⟨?usb2, ?lifted, ?native, ?se0End, ?mf, ?leafHub⟩
  case usb2 =>
    intro s k i p hup hreached hat hshown hside hst
    exact upRow_next hup ((if_pos hreached).trans (hostPortReset_usb2 s.begin k i p _ hat hshown hside hst))
  case lifted =>
    intro s k i r p hup hr hreached hat hshown hpath hst
    cases r with
    | usb2 => exact absurd rfl hr
    | _ => exact upRow_next hup ((if_pos hreached).trans (hostPortReset_lifted s.begin k i p _ hat hshown hpath hst))
  case native =>
    intro s k i r p hup hr hreached hat hshown hpath hst
    cases r with
    | usb2 => exact absurd rfl hr
    | _ => exact upRow_next hup ((if_pos hreached).trans (hostPortReset_native s.begin k i p _ hat hshown hpath hst))
  case se0End =>
    intro s p found hup hst hown hlift hpath hquench
    exact upRow_next hup ((if_pos ⟨hst, hown⟩).trans (se0End_host s.begin p found hst hown hlift hpath hquench))
  case mf =>
    intro s k r hup hheard hport
    exact upRow_next hup ((if_pos hheard).trans ((topPortReset_connected s.begin k r.side 8 _ hport).trans (if_pos rfl)))
  case leafHub =>
    intro s k r n h hup hheard hport hn hh
    have hbehind : leafBehind n = h := Fin.ext (by simp only [leafBehind]; omega)
    refine upRow_next hup ((if_pos hheard).trans ((topPortReset_connected s.begin k r.side n _ hport).trans ((if_neg (by omega)).trans ?_)))
    rw [hbehind, leaf_updTop]
    rfl

end Sys2Proof.Machine
end

