-- ==== Sys2Proof/Proofs/HubRequests.lean ====
section
/-! PROOF. Requests to the virtual hubs, the translators, the repeater and native packets (chapters 2, 3 and 7). -/

namespace Sys2Proof.Machine

open Sys2Proof

/-- A hub that hears its host has its tree. -/
theorem tree_of_reached {s : State} {k : Part} {side : Side} {h : HubIx} (hreached : s.hubReached k side h = true) :
    (s.parts.get k).tree = true := by
  simp only [State.hubReached, State.hubHeard, Bool.and_eq_true] at hreached
  exact hreached.1.1

/-- A leaf port without a native device is switched off by the tree alone. -/
theorem clearPortPower_leaf (s : State) (k : Part) (i : Pos) (hnative : s.nativeAt k (.leaf i) = none) :
    s.clearPortPower k .superSpeed (.leaf i) =
      (s.updLeaf k .superSpeed i (fun v => { v with powered := false, enabled := false, link := .disabled })).ctlOk k := by
  have hnone := (nativeAt_updHubPort s k (.leaf i) (fun v => { v with powered := false, enabled := false, link := .disabled })).trans hnative
  unfold State.clearPortPower
  dsimp only
  rw [hnone]
  rfl

/-- A leaf port that is off and without a native device is switched on by the tree alone. -/
theorem setPortPower_leaf (s : State) (k : Part) (i : Pos) (hoff : ((s.ssTree.get k).leaf.get i).powered = false)
    (hnative : s.nativeAt k (.leaf i) = none) :
    s.setPortPower k .superSpeed (.leaf i) = (s.updLeaf k .superSpeed i (fun v => { v with
      powered := true, cConnect := v.connected, enabled := v.connected, link := if v.connected then .u0 else .disabled })).ctlOk k := by
  have hnone := (nativeAt_updHubPort s k (.leaf i) (fun v => { v with
    powered := true, cConnect := v.connected, enabled := v.connected, link := if v.connected then .u0 else .disabled })).trans hnative
  unfold State.setPortPower
  dsimp only
  rw [if_neg (by rw [show s.hubPort k .superSpeed (.leaf i) = (s.ssTree.get k).leaf.get i from rfl, hoff]; exact nofun), hnone]
  rfl

/-- A selective suspend of an enabled position that is not lifted stops its SOFs. -/
theorem hubSuspend_enabled (s : State) (k : Part) (i : Pos) (p : Port) (hen : ((s.u2Tree.get k).leaf.get i).enabled = true)
    (hat : s.portAtPos k i = some p) (hst : (s.ports.get p).st = .enabled) (hpath : (s.ports.get p).path ≠ .lifted) :
    s.hubSuspend k (.leaf i) = ((((s.emit (.ctlDone k)).updLeaf k .usb2 i (fun v => { v with suspended := true })).updPort p
      (fun x => { x with st := .suspended })).emit (.bus p .sofStop)) := by
  have hat' : ((s.ctlOk k).updHubPort k .usb2 (.leaf i) (fun v => { v with suspended := true })).portAtPos k i = some p := hat
  have hen' : ((s.ctlOk k).hubPort k .usb2 (.leaf i)).enabled = true := hen
  unfold State.hubSuspend
  dsimp only
  rw [hen', hat', if_neg (by simp)]
  exact if_pos (show ((s.ports.get p).st == .enabled && (s.ports.get p).path != .lifted) = true by simp [hst, hpath])

/-- A resume of a suspended position that is not lifted drives K. -/
theorem hubResume_suspended (s : State) (k : Part) (i : Pos) (p : Port) (hat : s.portAtPos k i = some p)
    (hst : (s.ports.get p).st = .suspended) (hpath : (s.ports.get p).path ≠ .lifted) (hidle : (s.ports.get p).resumeK = false) :
    s.hubResume k (.leaf i) = ((s.emit (.ctlDone k)).updPort p (fun x => { x with resumeK := true })).emit (.bus p .resumeK) := by
  have hat' : (s.ctlOk k).portAtPos k i = some p := hat
  unfold State.hubResume
  dsimp only
  rw [hat']
  dsimp only
  rw [if_neg (by simp [State.ctlOk, hpath]), if_neg (by simp [State.ctlOk, hst]), if_pos (by simp [State.ctlOk, hst, hidle])]
  rfl

/-- A request of another type is another request. -/
theorem is_of_type {r : Setup} {bm : Byte} {req : Nat} (h : bm.toNat / 32 % 4 ≠ r.bmRequestType.toNat / 32 % 4) : r.is bm req = false := by
  have hne : r.bmRequestType ≠ bm := by
    rintro rfl
    exact h rfl
  simp [Setup.is, hne]

/-- SET_ADDRESS of a hub. -/
theorem hubRequest_setAddress (s : State) (k : Part) (side : Side) (h : HubIx) (r : Setup) (a : Bool) (htree : (s.parts.get k).tree = true)
    (htype : r.bmRequestType = 0x00) (hreq : r.bRequest = 5) :
    s.hubRequest k side h r a = (s.updHub k side h (fun u => { u with address := BitVec.ofNat 7 r.wValue.toNat })).ctlOk k := by
  have his (bm : Byte) (req : Nat) : r.is bm req = (bm == 0 && req == 5) := by
    simp only [Setup.is, htype, hreq]
    congr 1
    · exact Bool.beq_comm
    · exact Bool.beq_comm
  unfold State.hubRequest
  dsimp only
  simp only [htree, his]
  rfl

/-- A vendor request, or one of the reserved type, is a Request Error of a hub. -/
theorem hubRequest_vendor (s : State) (k : Part) (side : Side) (h : HubIx) (r : Setup) (a : Bool) (htree : (s.parts.get k).tree = true)
    (htype : r.bmRequestType.toNat / 32 % 4 = 2 ∨ r.bmRequestType.toNat / 32 % 4 = 3) : s.hubRequest k side h r a = s.ctlError k := by
  have hother (bm : Byte) (req : Nat) (hbm : bm.toNat / 32 % 4 < 2) : r.is bm req = false := is_of_type (by omega)
  unfold State.hubRequest
  simp (disch := decide) only [htree, hother, Bool.not_true, Bool.false_and, Bool.or_self, Bool.false_eq_true, if_false]

/-- A split of an enabled translated position goes on to its kind. -/
theorem split_translated (s : State) (k : Part) (i : Pos) (p : Port) (hat : s.portAtPos k i = some p)
    (hpath : (s.ports.get p).path = .translated) (hst : (s.ports.get p).st = .enabled) :
    (∀ key periodic bytes, s.split k i (.start key periodic bytes) =
      if ttRoom (s.ports.get p).tt periodic bytes.length then
        if periodic then s.updPort p (fun x => { x with tt := x.tt ++ [{ key, periodic, bytes, check := ttChecks bytes }] })
        else (s.updPort p (fun x => { x with tt := x.tt ++ [{ key, periodic, bytes, check := ttChecks bytes }] })).ttIssue p
          { key, periodic, bytes, check := ttChecks bytes }
      else if periodic then s else s.emit (.notReady k)) ∧
    ((∀ e ∈ (s.ports.get p).tt, e.lost = false) → ∀ key, s.split k i (.complete key none) = s.emit (.forwardUp k [0x96])) := by
  constructor
  · intro key periodic bytes
    unfold State.split
    rw [hat]
    dsimp only
    rw [if_neg (by simp [hpath, hst])]
  · intro hlost key
    unfold State.split
    rw [hat]
    dsimp only
    rw [if_neg (by simp [hpath, hst])]
    cases hfind : (s.ports.get p).tt.find? (·.key == key) with
    | none => rfl
    | some e =>
      dsimp only
      rw [if_neg (by simp [hlost e (List.mem_of_find?_eq_some hfind)])]
      cases e.sent <;> rfl

/-- A transaction of an enabled passthrough position is repeated both ways. -/
theorem repeat_passthrough (s : State) (k : Part) (i : Pos) (p : Port) (packet answer : List Byte) (lpmAck : Bool)
    (hat : s.portAtPos k i = some p) (hshown : (s.ports.get p).shown = true)
    (hpath : (s.ports.get p).path = .passthrough ∨ (s.ports.get p).path = .extHub) (hst : (s.ports.get p).st = .enabled)
    (hdie : s.dieUp p = true) (hanswer : answer ≠ []) :
    s.repeat_ k i packet answer lpmAck =
      (let t := (s.emit (.forwardDown p packet)).emit (.forwardUp k answer)
       if lpmAck = true ∧ (s.ports.get p).path = .passthrough then t.updPort p (fun x => { x with st := .l1 }) else t) := by
  unfold State.repeat_
  rw [hat]
  dsimp only
  rw [if_neg (by simp [hshown, hst, hdie]), if_pos (by rcases hpath with h | h <;> simp [h]),
    if_neg (show ¬ answer.isEmpty = true by simpa using hanswer)]
  exact ite_congr (propext (by simp)) (fun _ => rfl) (fun _ => rfl)

/-- A native packet that the buffer returns whole is forwarded. -/
theorem nativePacket_whole (s : State) (p : Port) (d : Bool) (bytes l : List Byte) (hpath : (s.ports.get p).path = .native)
    (hst : (s.ports.get p).st = .enabled) (hlink : s.linkOf p = .u0)
    (hwhole : ((s.useLink p).passBuffer (.native p d) bytes).2 = some l) :
    s.nativePacket p d bytes = ((s.useLink p).passBuffer (.native p d) bytes).1.emit
      (if d then .forwardUp (s.partOf.get p) l else .forwardDown p l) := by
  unfold State.nativePacket
  dsimp only
  rw [if_neg (by simp [hpath, hst, hlink]), if_neg (by simp [hlink])]
  generalize (s.useLink p).passBuffer (.native p d) bytes = r at hwhole
  obtain ⟨t, o⟩ := r
  dsimp only at hwhole
  rw [hwhole]

/-- Settles O33: what the hub, the translator or the repeater holds of the position selects the branch. -/
theorem hubRequests : Obligations.HubRequests := by
  unfold Obligations.HubRequests
  refine ⟨?usb2Power, ?clearPower, ?setPower, ?indicator, ?suspend, ?resume, ?clearTt, ?resetTt, ?ttState, ?setAddress, ?vendor, ?start,
    ?startFull, ?complete, ?passthrough, ?native⟩
  case usb2Power =>
    intro s k q hup hreached
    exact ⟨upRow_next hup (if_pos hreached), upRow_next hup (if_pos hreached)⟩
  case clearPower =>
    intro s k i hup hreached hnative
    exact upRow_next hup ((if_pos hreached).trans (clearPortPower_leaf s.begin k i hnative))
  case setPower =>
    intro s k i hup hreached hoff hnative
    exact upRow_next hup ((if_pos hreached).trans (setPortPower_leaf s.begin k i hoff hnative))
  case indicator =>
    intro s k side q hup hreached
    exact upRow_next hup (if_pos hreached)
  case suspend =>
    intro s k i p hup hreached hen hat hst hpath
    exact upRow_next hup ((if_pos hreached).trans (hubSuspend_enabled s.begin k i p hen hat hst hpath))
  case resume =>
    intro s k i p hup hreached hat hst hpath hidle
    exact upRow_next hup ((if_pos hreached).trans (hubResume_suspended s.begin k i p hat hst hpath hidle))
  case clearTt =>
    intro s k i key p hup hreached hat
    refine upRow_next hup ((if_pos hreached).trans ?_)
    unfold State.clearTt
    dsimp only
    rw [show (s.begin.ctlOk k).portAtPos k i = some p from hat]
    rfl
  case resetTt =>
    intro s k i p hup hreached hat
    refine upRow_next hup ((if_pos hreached).trans ?_)
    unfold State.resetTt
    dsimp only
    rw [show (s.begin.ctlOk k).portAtPos k i = some p from hat]
    rfl
  case ttState =>
    intro s k i hup hreached
    exact ⟨upRow_next hup (if_pos hreached), upRow_next hup (if_pos hreached)⟩
  case setAddress =>
    rintro s k side h r a hup hreached ⟨htype, hreq⟩
    exact upRow_next hup ((if_pos hreached).trans (hubRequest_setAddress s.begin k side h r a (tree_of_reached hreached) htype hreq))
  case vendor =>
    intro s k side h r a hup hreached htype
    exact upRow_next hup ((if_pos hreached).trans (hubRequest_vendor s.begin k side h r a (tree_of_reached hreached) htype))
  case start =>
    intro s k i p key periodic bytes hup hat hpath hst hroom
    exact upRow_next (f := fun s => s.split k i (.start key periodic bytes)) hup
      (((split_translated s.begin k i p hat hpath hst).1 key periodic bytes).trans (if_pos hroom))
  case startFull =>
    intro s k i p key periodic bytes hup hat hpath hst hroom
    exact upRow_next (f := fun s => s.split k i (.start key periodic bytes)) hup
      (((split_translated s.begin k i p hat hpath hst).1 key periodic bytes).trans (if_neg (ne_true_of_eq_false hroom)))
  case complete =>
    intro s k i p key hup hat hpath hst hlost
    exact upRow_next hup ((split_translated s.begin k i p hat hpath hst).2 hlost key)
  case passthrough =>
    intro s k i p packet answer lpmAck hup hat hshown hpath hst hdie hanswer
    exact upRow_next hup (repeat_passthrough s.begin k i p packet answer lpmAck hat hshown hpath hst hdie hanswer)
  case native =>
    intro s p d bytes l hup hpath hst hlink hwhole
    exact upRow_next hup (nativePacket_whole s.begin p d bytes l hpath hst hlink hwhole)

end Sys2Proof.Machine
end

