-- ==== Sys2Proof/Proofs/SuspendResume.lean ====
section
/-! PROOF. Suspend, resume and remote wake of downstream ports (chapters 3 to 5). -/

namespace Sys2Proof.Machine

open Sys2Proof

/-- Two changes of a lifted side that agree on what the port holds are one change. -/
theorem updLift_congr (s : State) (p : Port) (f g : LiftPort → LiftPort) (x : LiftPort) (hlift : s.lift.get p = some x) (h : f x = g x) :
    s.updLift p f = s.updLift p g := by
  simp [State.updLift, Tab.upd, hlift, h]

/-- A bus that is due to suspend is suspended, after the request that arms or disarms its device's wake (R162). -/
theorem suspendOrder_enabled (s : State) (p : Port) (x : LiftPort) (hlift : s.lift.get p = some x)
    (hpres : x.presented = true ∧ x.busSuspended = false) (hdue : s.linkOf p = .u3 ∨ x.allSuspended = true ∧ s.wasU3 p = false)
    (hst : (s.ports.get p).st = .enabled) (hdie : s.dieUp p = true) :
    s.suspendOrder p = (((
      (if x.conf.isNone then s
       else if bit x.attrs 5 && x.functions.any (·.wake) then
         s.emit (.dsSetup p 1 { bmRequestType := 0, bRequest := 3, wValue := 1, wIndex := 0, wLength := 0 })
       else if x.dsWake then s.emit (.dsSetup p 1 { bmRequestType := 0, bRequest := 1, wValue := 1, wIndex := 0, wLength := 0 }) else s).updLift p
        (fun y => { y with dsWake := if y.conf.isNone then y.dsWake else bit x.attrs 5 && x.functions.any (·.wake)
                           busSuspended := true, sof := false })).updPort p
      (fun y => { y with st := .suspended })).emit (.bus p .sofStop)) := by
  unfold State.suspendOrder
  rw [hlift]
  dsimp only
  rw [if_neg (by rcases hdue with h | h <;> simp [hpres.1, hpres.2, h, hst, hdie]), if_neg (show ¬ (s.ports.get p).st = .l1 by simp [hst])]
  rfl

/-- Without a configuration, or with no wake armed, the bus is suspended without a request. -/
theorem suspendOrder_unarmed (s : State) (p : Port) (x : LiftPort) (hlift : s.lift.get p = some x)
    (hpres : x.presented = true ∧ x.busSuspended = false) (hdue : s.linkOf p = .u3 ∨ x.allSuspended = true ∧ s.wasU3 p = false)
    (hst : (s.ports.get p).st = .enabled) (hwake : x.conf.isNone = true ∨ x.functions.any (·.wake) = false ∧ x.dsWake = false)
    (hdie : s.dieUp p = true) :
    s.suspendOrder p = ((s.updLift p (fun x => { x with busSuspended := true, sof := false })).updPort p
      (fun y => { y with st := .suspended })).emit (.bus p .sofStop) := by
  rw [suspendOrder_enabled s p x hlift hpres hdue hst hdie]
  refine congrArg (fun u => State.emit (State.updPort u p _) (.bus p .sofStop)) ?_
  rcases hwake with hnone | ⟨hany, hds⟩
  · rw [if_pos hnone]
    refine updLift_congr s p _ _ x hlift ?_
    simp [hnone]
  · rw [hany, Bool.and_false, if_neg Bool.false_ne_true, hds, if_neg Bool.false_ne_true, ite_self]
    refine updLift_congr s p _ _ x hlift ?_
    simp [hds]

/-- A wake of a lifted bus is counted and its K taken over; what follows depends on the wake's arming and on the virtual link. -/
theorem remoteWakeK_lifted (s : State) (p : Port) (x : LiftPort) (delta : Nat) (hlift : s.lift.get p = some x)
    (hpres : x.presented = true) (hbus : x.busSuspended = true) (hst : (s.ports.get p).st ≠ .draining)
    (hidle : (s.ports.get p).resumeK = false) :
    s.remoteWakeK p delta =
      (let t := ((s.count p 0 (fun c => { c with wakes := up1 c.wakes })).updPort p (fun y => { y with resumeK := true })).emit (.bus p .resumeK)
       if !x.dsWake then t
       else if s.linkOf p = .u3 then
         if x.hostExit then t.collision p 1 delta (wakeMap x.wakers)
         else ((t.updLift p (fun y => { y with wake := some y.wakers })).setLink p .recovery).signalU3Exit (s.partOf.get p)
       else if s.wasU3 p then t.collision p 1 delta (wakeMap x.wakers)
       else t.functionWakes p) := by
  have hdrive : (s.count p 0 (fun c => { c with wakes := up1 c.wakes })).driveK p =
      ((s.count p 0 (fun c => { c with wakes := up1 c.wakes })).updPort p (fun y => { y with resumeK := true })).emit (.bus p .resumeK) :=
    if_neg (show ¬ (s.ports.get p).resumeK = true by simp [hidle])
  unfold State.remoteWakeK
  rw [hlift]
  dsimp only
  rw [if_neg (by simp [hpres, hbus, hst])]
  unfold State.liftedWake
  dsimp only
  rw [hdrive, hidle, if_neg Bool.false_ne_true]
  rfl

/-- A collision reports a time that the counter holds as it is. -/
theorem collision_eq (s : State) (p : Port) (order : Nat) (delta : BitVec 16) (map : Nat) :
    s.collision p order delta.toNat map = (s.count p 0 (fun k => { k with wakeCollisions := up1 k.wakeCollisions })).portEvent p 0x8403
      ([BitVec.ofNat 8 order, 0] ++ le16 delta.toNat ++ le32 map) := by
  unfold State.collision
  rw [Nat.min_eq_left (by omega)]

/-- The exit from U3 is complete: Function Wake goes out (Table 5.9). -/
theorem u3ExitDone_wakes (s : State) (p : Port) (x : LiftPort) (l : List Nat) (hday : s.daytime) (hlift : s.lift.get p = some x)
    (hwake : x.wake = some l) (hst : (s.ports.get p).st ≠ .quenched) :
    s.u3ExitDone p = (((((s.setLink p .u0).updUp (s.partOf.get p) (fun u => if u.link = .u3 then { u with
        link := .u0, ownExit := false, counters := { u.counters with linkRecoveries := satAdd 32 u.counters.linkRecoveries 1 } } else u)).updPart
        (s.partOf.get p) (fun y => if y.st = .suspended then { y with st := .connected } else y)).updLift p
        (fun y => { y with wake := none, woken := x.wakers, notify := 20000 })).emits (x.wakers.map (fun i => .functionWake p i))) := by
  have hmode : (s.mode != .night) = true := by simpa using hday.1
  unfold State.u3ExitDone
  rw [hlift, Option.bind_some, hwake]
  dsimp only
  have hside : (s.setLink p .u0).lift = s.lift ∧ (s.setLink p .u0).mode = s.mode ∧ (s.setLink p .u0).ports = s.ports := ⟨rfl, rfl, rfl⟩
  unfold State.wakePart State.functionWakes
  simp only [State.updPart_lift, State.updUp_lift, State.updUp_mode, State.updPart_ports, State.updUp_ports, hside, hlift, hmode,
    Bool.and_true, decide_eq_true_eq, if_neg hst]

/-- Settles O34: what the lifted side or the port holds selects the branch of each row. -/
theorem suspendAndResume : Obligations.SuspendAndResume := by
  unfold Obligations.SuspendAndResume
  refine ⟨?suspendArmed, ?suspendPlain, ?resume, ?kEndLifted, ?kEndUsb2, ?wakeArmed, ?wakeCollides, ?wakeUnarmed, ?exitDone, ?collision,
    ?resuspend, ?l1, ?l1Not, ?l1Exit, ?babbleUsb2, ?babbleLifted⟩
  case suspendArmed =>
    rintro s p x hup hlift hpres hdue hst ⟨hconf, hattr, hany⟩ hdie
    have hnone : x.conf.isNone = false := by simpa using hconf
    refine upRow_next hup ((suspendOrder_enabled s.begin p x hlift hpres hdue hst hdie).trans ?_)
    rw [hnone, hattr, hany]
    refine congrArg (fun u => State.emit (State.updPort u p _) (.bus p .sofStop)) (updLift_congr _ p _ _ x hlift ?_)
    simp [hnone]
  case suspendPlain =>
    intro s p x hup hlift hpres hdue hst hwake hdie
    exact upRow_next hup (suspendOrder_unarmed s.begin p x hlift hpres hdue hst hwake hdie)
  case resume =>
    intro s p x hup hlift hbus hlink hdue hidle
    refine upRow_next (f := fun s => s.resumeOrder p) hup ?_
    unfold State.resumeOrder
    rw [State.begin_lift, hlift]
    refine if_pos ?_
    rw [show s.begin.linkOf p = s.linkOf p from rfl, show s.begin.wasU3 p = s.wasU3 p from rfl]
    rcases hdue with h | h <;> simp [hbus, hlink, h, hidle]
  case kEndLifted =>
    intro s p x hup hlift hk hst
    refine upRow_next (f := fun s => s.resumeEnd p) hup ?_
    unfold State.resumeEnd
    dsimp only
    rw [if_neg (by simp [hk]), updPort_congr s.begin p _ (fun y => { y with resumeK := false, st := .enabled }) (by simp [hst])]
    simp only [State.emit_lift, State.updPort_lift, State.begin_lift, hlift]
  case kEndUsb2 =>
    intro s p hup hlift hk hst
    refine upRow_next (f := fun s => s.resumeEnd p) hup ?_
    unfold State.resumeEnd
    dsimp only
    rw [if_neg (by simp [hk]), updPort_congr s.begin p _ (fun y => { y with resumeK := false, st := .enabled }) (by simp [hst])]
    simp only [State.emit_lift, State.updPort_lift, State.begin_lift, hlift]
    rfl
  case wakeArmed =>
    rintro s p delta x hup hday hlift ⟨hpres, hbus, hds, hexit⟩ hst hidle hlink hu3
    refine upRow_next (f := fun s => s.deviceWakes p (fun s => s.remoteWakeK p delta.toNat)) hup ((deviceWakes_day s.begin p _ hday).trans ?_)
    refine (remoteWakeK_lifted s.begin p x _ hlift hpres hbus hst hidle).trans ?_
    dsimp only
    rw [if_neg (by simp [hds]), if_pos (show s.begin.linkOf p = .u3 from hlink), if_neg (by simp [hexit])]
    exact if_pos hu3
  case wakeCollides =>
    rintro s p delta x hup hday hlift ⟨hpres, hbus, hds, hexit⟩ hst hidle hlink
    refine upRow_next (f := fun s => s.deviceWakes p (fun s => s.remoteWakeK p delta.toNat)) hup ((deviceWakes_day s.begin p _ hday).trans ?_)
    refine (remoteWakeK_lifted s.begin p x _ hlift hpres hbus hst hidle).trans ?_
    dsimp only
    rw [if_neg (by simp [hds]), if_pos (show s.begin.linkOf p = .u3 from hlink), if_pos hexit, collision_eq]
    rfl
  case wakeUnarmed =>
    rintro s p delta x hup hday hlift ⟨hpres, hbus, hds⟩ hst hidle
    refine upRow_next (f := fun s => s.deviceWakes p (fun s => s.remoteWakeK p delta.toNat)) hup ((deviceWakes_day s.begin p _ hday).trans ?_)
    exact (remoteWakeK_lifted s.begin p x _ hlift hpres hbus hst hidle).trans (if_pos (by simp [hds]))
  case exitDone =>
    intro s p x l hup hday hlift hwake hst
    exact upRow_next (f := fun s => s.deviceResumes (s.partOf.get p) (fun s => s.u3ExitDone p)) hup
      ((deviceResumes_day s.begin _ _ hday).trans (u3ExitDone_wakes s.begin p x l hday hlift hwake hst))
  case collision =>
    intro s p delta x l hup hlift hwake
    refine upRow_next (f := fun s => s.wakeCollision p delta.toNat) hup ?_
    unfold State.wakeCollision
    rw [State.begin_lift, hlift]
    dsimp only
    rw [hwake]
    exact collision_eq _ p 0 delta (wakeMap l)
  case resuspend =>
    rintro s p x hup hlift ⟨hpres, hbus, hds⟩ hany hlink hst hdie
    refine upRow_next (f := fun s => s.unarmedResuspend p) hup ?_
    unfold State.unarmedResuspend
    rw [State.begin_lift, hlift]
    dsimp only
    rw [if_pos (by simp [hds, hbus, show s.begin.linkOf p = .u3 from hlink])]
    exact suspendOrder_unarmed s.begin p x hlift ⟨hpres, hbus⟩ (.inl hlink) hst (.inr ⟨hany, hds⟩) hdie
  case l1 =>
    intro s p x hup hlift hmoves hen hattr hctl hall hbudget
    refine upRow_next (f := fun s => s.l1Idle p) hup ?_
    unfold State.l1Idle
    rw [State.begin_lift, hlift]
    refine if_pos ?_
    rw [show s.begin.busMoves p = true from hmoves, State.begin_ports, hen, hattr, hctl, hall, State.begin_parts, State.begin_partOf,
      decide_eq_true hbudget]
    rfl
  case l1Not =>
    intro s p x hup hlift hnot
    refine upRow_next (f := fun s => s.l1Idle p) hup ?_
    unfold State.l1Idle
    rw [State.begin_lift, hlift]
    refine if_neg ?_
    simp only [Bool.and_eq_true, not_and, State.begin_ports]
    rintro ⟨⟨⟨⟨-, hen⟩, hattr⟩, hctl⟩, hall⟩ -
    rcases hnot with h | h | h | h
    · simp [h] at hen
    · simp [h] at hattr
    · simp [Option.isNone_iff_eq_none.mp hctl] at h
    · obtain ⟨c, hmem, hkind⟩ := List.any_eq_true.mp h
      have := List.all_eq_true.mp hall c hmem
      simp_all
  case l1Exit =>
    intro s p hup hst
    exact upRow_next hup (if_pos hst)
  case babbleUsb2 =>
    intro s p hup hst hpath
    have hside : sideOf (s.ports.get p).path = .usb2 := by rcases hpath with h | h <;> simp [h, sideOf]
    refine upRow_next (f := fun s => s.babble p) hup ?_
    unfold State.babble
    dsimp only
    rw [if_neg (by simp [hst]), if_neg (by rcases hpath with h | h <;> simp [h])]
    simp only [State.begin_ports, hside, hst]
    rfl
  case babbleLifted =>
    intro s p hup hst hpath hown
    refine upRow_next (f := fun s => s.babble p) hup ?_
    unfold State.babble
    dsimp only
    rw [if_neg (by simp [hst]), if_pos (by simp [hpath]), State.begin_ports, hst]
    refine drainThen_presented _ p .portError _ ?_ (.inr nofun) ?_ ?_
    · simp [PortState.presented, hst, presentedSt, hown]
    · simp [hst]
    · simp [hst]

end Sys2Proof.Machine
end

