-- ==== Sys2Proof/Proofs/StandardRequests.lean ====
section
/-! PROOF. Standard, class and vendor requests to a lifted position (Table 4.9). -/

namespace Sys2Proof.Machine

open Sys2Proof

/-- Requests as their fields show them: what each test of Table 4.9 compares. -/
@[simp] theorem setup_is (bm q b : Byte) (v i l : BitVec 16) (n : Nat) :
    Setup.is { bmRequestType := bm, bRequest := q, wValue := v, wIndex := i, wLength := l } b n = (bm == b && q.toNat == n) := rfl

@[simp] theorem setup_type (bm q : Byte) (v i l : BitVec 16) :
    Setup.type { bmRequestType := bm, bRequest := q, wValue := v, wIndex := i, wLength := l } = bm.toNat / 2 ^ 5 % 2 ^ 2 := rfl

/-- The treatment of a request by a presentation whose EP0 is neither poisoned nor halted, past the rows for those (Table 4.9). -/
theorem stands_treats {s t : State} {p : Port} {x : LiftPort} {r : Setup} {d : List Byte} {c : Instr} (hup : s.switchedUp) (h : s.stands p x)
    (hrow : exec c s = run (ifUp (fun s => s.setup p r d)) s)
    (htreat : x.ep0Poisoned = false → x.ep0Halted = false → (s.called p).treat p { x with woken := [] } r d = t) :
    exec c s = .next (t.finish s.begin) := by
  obtain ⟨-, -, -, -, -, hpoison, -, -, hhalt⟩ := id h
  exact hrow.trans (upRow_next hup ((stands_setup h r d).trans (htreat hpoison hhalt)))

/-- GET_STATUS goes to its own row. -/
theorem treat_getStatus (t : State) (p : Port) (x : LiftPort) (r : Setup) (d : List Byte) (hpoison : x.ep0Poisoned = false)
    (hhalt : x.ep0Halted = false) (htype : r.type = 0) (hreq : r.bRequest = 0) : t.treat p x r d = t.stdGetStatus p x r := by
  unfold State.treat
  dsimp only
  rw [hpoison, hhalt, if_neg (by decide), htype, if_neg (by decide), if_pos hreq]

/-- GET_STATUS by recipient: the device, an interface, an endpoint with a context (Table 4.9). -/
theorem stdGetStatus_recipient (t : State) (p : Port) (x : LiftPort) (r : Setup) :
    (r.bmRequestType = 0x80 → t.stdGetStatus p x r =
      t.localData p r (le16 (bnat (bit x.attrs 6) + 4 * bnat x.u1Enable + 8 * bnat x.u2Enable))) ∧
    (r.bmRequestType = 0x81 → t.stdGetStatus p x r =
      if x.hasIface (r.wIndex.toNat % 256) then
        t.localData p r (le16 (bnat (bit x.attrs 5) + 2 * bnat (x.funcOf (r.wIndex.toNat % 256)).wake))
      else t.requestError p) ∧
    (r.bmRequestType = 0x82 → ∀ c, r.wIndex.toNat % 256 % 128 ≠ 0 → x.ctxs.find? (·.addr == r.endpoint) = some c →
      t.stdGetStatus p x r = t.localData p r (le16 (bnat (c.halted || c.poisoned)))) := by
  unfold State.stdGetStatus
  dsimp only
  refine ⟨fun h => if_pos h, fun h => ?_, fun h c hnz hctx => ?_⟩
  · rw [h, if_neg (by decide), if_pos rfl]
  · rw [h, if_neg (by decide), if_neg (by decide), if_pos rfl, if_neg hnz, hctx]

/-- The row of GET_STATUS: the recipient stands in bmRequestType. -/
theorem getStatus_row (s : State) (p : Port) (recipient : Fin 3) (bm : Byte) (index len : BitVec 16)
    (h : 0x80 + BitVec.ofNat 8 recipient.val = bm) :
    exec (.stdGetStatus p recipient index len) s =
      run (ifUp (fun s => s.setup p { bmRequestType := bm, bRequest := 0, wValue := 0, wIndex := index, wLength := len } [])) s := by
  subst h
  rfl

/-- The options that wIndex of SET_FEATURE(FUNCTION_SUSPEND) carries beside the interface. -/
theorem suspendOptions (i : Byte) (susp wake : Bool) :
    (BitVec.ofNat 16 (i.toNat + 256 * bnat susp + 512 * bnat wake)).toNat % 256 = i.toNat ∧
      bit ((BitVec.ofNat 16 (i.toNat + 256 * bnat susp + 512 * bnat wake)).toNat / 256) 0 = susp ∧
      bit ((BitVec.ofNat 16 (i.toNat + 256 * bnat susp + 512 * bnat wake)).toNat / 256) 1 = wake := by
  have hi := i.isLt
  have hs : bnat susp ≤ 1 := by cases susp <;> decide
  have hw : bnat wake ≤ 1 := by cases wake <;> decide
  have hopt : (i.toNat + 256 * bnat susp + 512 * bnat wake) % 65536 / 256 = bnat susp + 2 * bnat wake := by omega
  rw [BitVec.toNat_ofNat, hopt]
  refine ⟨by omega, ?_, ?_⟩
  all_goals cases susp <;> cases wake <;> decide

/-- Settles O35: the request's fields select the row of Table 4.9. -/
theorem standardRequests : Obligations.StandardRequests := by
  unfold Obligations.StandardRequests
  refine ⟨?statusDevice, ?statusInterface, ?statusEndpoint, ?clearForwarded, ?clearLocal, ?forwarded, ?functionSuspend, ?u1u2, ?refused,
    ?remoteWakeup, ?address, ?descriptors, ?strings, ?tracked, ?delays, ?other, ?classVendor⟩
  case statusDevice =>
    intro s p x index len hup h
    refine stands_treats hup h (getStatus_row s p 0 0x80 index len (by decide)) fun hpoison hhalt =>
      (treat_getStatus _ p _ _ _ hpoison hhalt ((setup_type _ _ _ _ _).trans (by decide)) rfl).trans ?_
    exact (stdGetStatus_recipient _ p _ _).1 rfl
  case statusInterface =>
    intro s p x index len hup h
    refine stands_treats hup h (getStatus_row s p 1 0x81 index len (by decide)) fun hpoison hhalt =>
      (treat_getStatus _ p _ _ _ hpoison hhalt ((setup_type _ _ _ _ _).trans (by decide)) rfl).trans ?_
    exact (stdGetStatus_recipient _ p _ _).2.1 rfl
  case statusEndpoint =>
    intro s p x index len c hup h hnz hctx
    refine stands_treats hup h (getStatus_row s p 2 0x82 index len (by decide)) fun hpoison hhalt =>
      (treat_getStatus _ p _ _ _ hpoison hhalt ((setup_type _ _ _ _ _).trans (by decide)) rfl).trans ?_
    exact (stdGetStatus_recipient _ p _ _).2.2 rfl c (show index.toNat % 256 % 128 ≠ 0 by omega) hctx
  case clearForwarded =>
    intro s p x ep hup h hlocal
    refine stands_treats hup h rfl fun hpoison hhalt => ?_
    unfold State.treat
    rw [if_neg (by simp [hpoison, hhalt])]
    simp [-BitVec.toNat_setWidth, -BitVec.ofNat_toNat, Setup.isClearHalt, Setup.endpoint, setWidth8_back, hlocal]
  case clearLocal =>
    intro s p x ep hup h hlocal
    refine stands_treats hup h rfl fun hpoison hhalt => ?_
    unfold State.treat
    rw [if_neg (by simp [hpoison, hhalt])]
    simp [-BitVec.toNat_setWidth, -BitVec.ofNat_toNat, Setup.isClearHalt, Setup.endpoint, setWidth8_back, hlocal]
  case forwarded =>
    intro s p x a b len lang hup h
    refine ⟨?_, ?_, ?_, ?_, ?_⟩
    · refine stands_treats hup h rfl fun hpoison hhalt => ?_
      unfold State.treat
      rw [if_neg (by simp [hpoison, hhalt])]
      simp [Setup.isClearHalt, Setup.isSetHalt]
    all_goals
      refine stands_treats hup h rfl fun hpoison hhalt => ?_
      unfold State.treat
      rw [if_neg (by simp [hpoison, hhalt])]
      simp [Setup.isClearHalt, Setup.isSetHalt, Setup.isSetConfig, Setup.isSetInterface]
  case functionSuspend =>
    intro s p x i susp wake hup h hfirst
    obtain ⟨hindex, hsusp, hwake⟩ := suspendOptions i susp wake
    refine stands_treats hup h rfl fun hpoison hhalt => ?_
    unfold State.treat
    rw [if_neg (by simp [hpoison, hhalt])]
    refine Eq.trans (b := (s.called p).stdFunctionSuspend p { x with woken := [] }
      { bmRequestType := 0x01, bRequest := 3, wValue := 0, wLength := 0
        wIndex := BitVec.ofNat 16 (i.toNat + 256 * bnat susp + 512 * bnat wake) }) (by simp [Setup.isClearHalt, Setup.isSetHalt]) ?_
    unfold State.stdFunctionSuspend
    dsimp only
    rw [hindex, hsusp, hwake, if_pos hfirst]
    rfl
  case u1u2 =>
    intro s p x u2 on hup h
    refine stands_treats hup h rfl fun hpoison hhalt => ?_
    unfold State.treat
    rw [if_neg (by simp [hpoison, hhalt])]
    cases u2 <;> cases on <;> simp [Setup.isClearHalt, Setup.isSetHalt, State.localSet]
  case refused =>
    intro s p x a hup h
    constructor
    all_goals
      refine stands_treats hup h rfl fun hpoison hhalt => ?_
      unfold State.treat
      rw [if_neg (by simp [hpoison, hhalt])]
      simp [Setup.isClearHalt, Setup.isSetHalt, Setup.isSetConfig, Setup.isSetInterface, State.requestError]
  case remoteWakeup =>
    intro s p x on hup h
    refine stands_treats hup h rfl fun hpoison hhalt => ?_
    unfold State.treat
    rw [if_neg (by simp [hpoison, hhalt])]
    cases on <;> simp [Setup.isClearHalt, Setup.isSetHalt]
  case address =>
    intro s p x a hup h
    refine stands_treats hup h rfl fun hpoison hhalt => ?_
    unfold State.treat
    rw [if_neg (by simp [hpoison, hhalt])]
    simp [Setup.isClearHalt, Setup.isSetHalt, State.localSet, -BitVec.toNat_setWidth, -BitVec.ofNat_toNat, setWidth7_back]
  case descriptors =>
    intro s p x lang len i c hup h hconf
    have htype : (512#16 ||| i.setWidth 16).toNat / 256 = 2 := configIndex_type i
    have hindex : (512#16 ||| i.setWidth 16).toNat % 256 = i.toNat := configIndex_index i
    refine ⟨?_, ?_, ?_⟩
    all_goals
      refine stands_treats hup h rfl fun hpoison hhalt => ?_
      unfold State.treat
      rw [if_neg (by simp [hpoison, hhalt])]
      simp [Setup.isClearHalt, Setup.isSetHalt, State.stdGetDescriptor, bit, testBit_128, -BitVec.toNat_or, -BitVec.toNat_setWidth,
        htype, hindex, hconf]
  case strings =>
    intro s p x lang len i hup h
    have htype : (768#16 ||| i.setWidth 16).toNat / 256 = 3 := stringIndex_type i
    refine stands_treats hup h rfl fun hpoison hhalt => ?_
    unfold State.treat
    rw [if_neg (by simp [hpoison, hhalt])]
    simp [Setup.isClearHalt, Setup.isSetHalt, State.stdGetDescriptor, bit, testBit_128, -BitVec.toNat_or, -BitVec.toNat_setWidth, htype]
  case tracked =>
    intro s p x i hup h hif
    have hbyte : (i.setWidth 16 : BitVec 16).toNat % 256 = i.toNat := by rw [BitVec.toNat_setWidth]; omega
    constructor
    all_goals
      refine stands_treats hup h rfl fun hpoison hhalt => ?_
      unfold State.treat
      rw [if_neg (by simp [hpoison, hhalt])]
      simp [Setup.isClearHalt, Setup.isSetHalt, Setup.isSetConfig, -BitVec.toNat_setWidth, hif, hbyte, bit, testBit_128]
  case delays =>
    intro s p x l v hup h hlen
    constructor
    all_goals
      refine stands_treats hup h rfl fun hpoison hhalt => ?_
      unfold State.treat
      rw [if_neg (by simp [hpoison, hhalt])]
      simp [Setup.isClearHalt, Setup.isSetHalt, Setup.isSetConfig, Setup.isSetInterface, State.localSet, hlen]
  case other =>
    rintro s p x r hup h htype ⟨hlo, h48, h49⟩
    refine stands_treats hup h rfl fun hpoison hhalt => ?_
    have hne : ∀ (bm : Byte) (n : Nat), n < 13 ∨ n = 48 ∨ n = 49 → r.is bm n = false := fun bm n hn => by
      simp only [Setup.is, Bool.and_eq_false_iff, beq_eq_false_iff_ne]
      right; omega
    have hzero : r.bRequest ≠ 0 := by rintro e; simp [e] at hlo
    have hsix : r.bRequest ≠ 6#8 := by rintro e; simp [e] at hlo
    unfold State.treat
    rw [if_neg (by simp [hpoison, hhalt]), if_neg (by simp [htype]), if_neg hzero]
    simp [hsix, Setup.isClearHalt, Setup.isSetHalt, Setup.isSetConfig, Setup.isSetInterface, State.requestError, hne]
  case classVendor =>
    intro s p x r hup h htype
    refine stands_treats hup h rfl fun hpoison hhalt => ?_
    unfold State.treat
    rw [if_neg (by simp [hpoison, hhalt])]
    simp [htype]

end Sys2Proof.Machine
end

