-- ==== Sys2Proof/Proofs/ControlTransfers.lean ====
section
/-! PROOF. Forwarded control transfers (Table 4.10, R124 to R128). -/

namespace Sys2Proof.Machine

open Sys2Proof

/-- The control transfer under way at a lifted position. -/
theorem ctl_of_lift {s : State} {p : Port} {x : LiftPort} {t : CtlXfer} (hlift : s.lift.get p = some x) (hctl : x.ctl = some t) :
    (s.lift.get p).bind (·.ctl) = some t := by
  rw [hlift, Option.bind_some, hctl]

/-- Two changes of a control transfer that agree on the one under way are one change. -/
theorem updCtl_congr {s : State} {p : Port} {x : LiftPort} {t : CtlXfer} (f g : CtlXfer → CtlXfer) (hlift : s.lift.get p = some x)
    (hctl : x.ctl = some t) (h : f t = g t) : s.updCtl p f = s.updCtl p g :=
  updLift_congr s p _ _ x hlift (by simp [hctl, h])

/-- A packet on the wire completes where the bus moves, or where PORT_QUENCH lets what is on the wire end (R128, Table 4.14). -/
theorem answered_of_wire {s : State} {p : Port} {t : CtlXfer} (hwire : t.wire = true) (hbus : s.busMoves p = true ∨ s.wireEnds p = true) :
    s.ctlAnswered p t = true := by
  rcases hbus with h | h <;> simp [State.ctlAnswered, hwire, h]

/-- An IN packet or handshake that answers the token on the wire is taken (R126, R128). -/
theorem ctlInPacket_answered {s : State} {p : Port} {x : LiftPort} {t : CtlXfer} (r : InAnswer) (hlift : s.lift.get p = some x)
    (hctl : x.ctl = some t) (hstage : t.stage = .dataIn) (hans : s.ctlAnswered p t = true) :
    (r = .nak → s.ctlInPacket p r = s.ctlNak p) ∧ (r = .stall → s.ctlInPacket p r = s.failCtl p) ∧
      (r = .busError → s.ctlInPacket p r = s.ctlBusError p t) := by
  unfold State.ctlInPacket
  rw [ctl_of_lift hlift hctl]
  refine ⟨?_, ?_, ?_⟩
  all_goals
    rintro rfl
    exact if_neg (by simp [hstage, hans])

/-- The status stage's answer is taken (R127, R128). -/
theorem ctlStatus_answered {s : State} {p : Port} {x : LiftPort} {t : CtlXfer} (r : XferResult) (hlift : s.lift.get p = some x)
    (hctl : x.ctl = some t) (hstage : t.stage = .status) (hans : s.ctlAnswered p t = true) :
    (∀ bytes, r = .data bytes → s.ctlStatus p r =
      if s.hostMoves p then s.ctlFinish p t.req else s.updCtl p (fun t => { t with stage := .done, wire := false })) ∧
      (r = .stall → s.ctlStatus p r = s.failCtl p) ∧ (r = .busError → s.ctlStatus p r = s.ctlBusError p t) := by
  unfold State.ctlStatus
  rw [ctl_of_lift hlift hctl]
  refine ⟨?_, ?_, ?_⟩
  · rintro bytes rfl
    exact if_neg (by simp [hstage, hans])
  all_goals
    rintro rfl
    exact if_neg (by simp [hstage, hans])

/-- A transfer that fails is abandoned and the presented EP0 stalls. -/
theorem failCtl_running {s : State} {p : Port} {x : LiftPort} {t : CtlXfer} (hlift : s.lift.get p = some x) (hctl : x.ctl = some t) :
    s.failCtl p = (((s.ringClear (.control p)).updLift p (fun x => { x with ctl := none })).reopenStopped p).emit (.ssStall p 0) := by
  unfold State.failCtl State.dropCtl
  rw [ctl_of_lift hlift hctl]

/-- Settles O36: the stage of the transfer and what the two buses can carry select the branch of each row. -/
theorem controlTransfers : Obligations.ControlTransfers := by
  unfold Obligations.ControlTransfers
  refine ⟨?writeNrdy, ?writeHeld, ?readNak, ?readError, ?readStall, ?statusDone, ?statusWaits, ?statusFails⟩
  case writeNrdy =>
    rintro s p x t bytes hup hlift hctl ⟨hread, hlen, hended⟩ hroom
    refine upRow_next (f := fun s => s.ctlOutPacket p bytes) hup ?_
    unfold State.ctlOutPacket
    rw [ctl_of_lift (s := s.begin) hlift hctl]
    dsimp only
    rw [if_neg (by simpa [hread, hended] using hlen), if_pos (by simp [hroom])]
    rfl
  case writeHeld =>
    rintro s p x t bytes hup hlift hctl ⟨hread, hended, hstage⟩ hmoves hbytes ⟨hsent, hheld⟩ hmore
    refine upRow_next (f := fun s => s.ctlOutPacket p bytes) hup ?_
    have hlen : t.req.wLength ≠ 0 := by rintro e; simp [e] at hmore
    have hcan : ¬ (!s.begin.hostMoves p || decide (t.moved - t.sent + bytes.length > 1024) || t.stage != .dataOut) = true := by
      rw [show s.begin.hostMoves p = true from hmoves, decide_eq_false (by omega), hstage]
      decide
    unfold State.ctlOutPacket
    rw [ctl_of_lift (s := s.begin) hlift hctl]
    dsimp only
    rw [if_neg (by simpa [hread, hended] using hlen), if_neg hcan,
      hbytes, Nat.min_eq_left (by omega), List.take_of_length_le (by omega)]
    have hopen : (t.moved + 512 == t.req.wLength.toNat || decide (512 < 512)) = false := by
      rw [beq_eq_false_iff_ne.mpr (show t.moved + 512 ≠ t.req.wLength.toNat by omega)]
      rfl
    rw [hopen]
    rfl
  case readNak =>
    rintro s p x t hup hlift hctl hstage ⟨hwire, hmoves⟩
    have hans := answered_of_wire (s := s.begin) hwire (.inl hmoves)
    exact upRow_next hup ((ctlInPacket_answered .nak (s := s.begin) hlift hctl hstage hans).1 rfl)
  case readError =>
    rintro s p x t hup hlift hctl hstage ⟨herr, hwire, hmoves⟩
    have hans := answered_of_wire (s := s.begin) hwire (.inl hmoves)
    exact upRow_next hup (((ctlInPacket_answered .busError (s := s.begin) hlift hctl hstage hans).2.2 rfl).trans (if_neg (by omega)))
  case readStall =>
    rintro s p x t hup hlift hctl hstage ⟨hwire, hmoves⟩
    have hans := answered_of_wire (s := s.begin) hwire (.inl hmoves)
    exact upRow_next hup ((ctlInPacket_answered .stall (s := s.begin) hlift hctl hstage hans).2.1 rfl)
  case statusDone =>
    rintro s p x t bytes hup hlift hctl hstage ⟨hwire, hmoves, hhost⟩
    have hans := answered_of_wire (s := s.begin) hwire (.inl hmoves)
    exact upRow_next hup (((ctlStatus_answered (.data bytes) (s := s.begin) hlift hctl hstage hans).1 bytes rfl).trans (if_pos hhost))
  case statusWaits =>
    rintro s p x t bytes hup hlift hctl hstage ⟨hwire, hends⟩
    have hans := answered_of_wire (s := s.begin) hwire (.inr hends)
    have hquenched : (s.ports.get p).st = .quenched := by
      simp only [State.wireEnds, Bool.and_eq_true, beq_iff_eq] at hends
      exact hends.1.1
    refine upRow_next hup (((ctlStatus_answered (.data bytes) (s := s.begin) hlift hctl hstage hans).1 bytes rfl).trans (if_neg ?_))
    simp [State.hostMoves, hquenched]
  case statusFails =>
    rintro s p x t r hup hlift hctl hstage ⟨hwire, hmoves⟩ hr
    have hans := answered_of_wire (s := s.begin) hwire (.inl hmoves)
    obtain ⟨-, hstall, herror⟩ := ctlStatus_answered r (s := s.begin) hlift hctl hstage hans
    refine upRow_next (f := fun s => s.ctlStatus p r) hup (Eq.trans (b := s.begin.failCtl p) ?_ (failCtl_running (s := s.begin) hlift hctl))
    rcases hr with rfl | ⟨rfl, herr⟩
    · exact hstall rfl
    · exact (herror rfl).trans (if_pos herr)

end Sys2Proof.Machine
end

