-- ==== Sys2Proof/Proofs/LiftData.lean ====
section
/-! PROOF. Lifted data: bulk, interrupt and isochronous (chapter 5). -/

namespace Sys2Proof.Machine

open Sys2Proof

/-- There is nothing to pick only among no requests. -/
theorem pickJob_none (s : State) (jobs : List UpJob) (h : s.pickJob jobs = none) : jobs = [] := by
  cases jobs with
  | nil => rfl
  | cons j rest =>
    unfold State.pickJob at h
    cases hrest : s.pickJob rest with
    | none => simp [hrest] at h
    | some q =>
      rw [hrest] at h
      dsimp only at h
      split at h <;> cases h

/-- Of a list of requests, `pickJob` takes apart the list, and no request in it has a higher class than the one picked (R200). -/
theorem pickJob_highest (s : State) (jobs : List UpJob) : ∀ l r j, s.pickJob jobs = some (l, j, r) →
    jobs = l ++ j :: r ∧ ∀ i ∈ jobs, classRank (s.jobClass j) ≤ classRank (s.jobClass i) := by
  induction jobs with
  | nil => nofun
  | cons first rest ih =>
    intro l r j h
    unfold State.pickJob at h
    cases hrest : s.pickJob rest with
    | none =>
      have hnil : rest = [] := pickJob_none s rest hrest
      rw [hrest] at h
      obtain ⟨rfl, rfl, rfl⟩ : [] = l ∧ first = j ∧ [] = r := by simpa using h
      simp [hnil]
    | some q =>
      obtain ⟨l', i, r'⟩ := q
      obtain ⟨hsplit, hleast⟩ := ih l' r' i hrest
      rw [hrest] at h
      dsimp only at h
      split at h
      · rename_i hlt
        obtain ⟨rfl, rfl, rfl⟩ : first :: l' = l ∧ i = j ∧ r' = r := by simpa using h
        refine ⟨by rw [hsplit]; rfl, fun k hk => ?_⟩
        rcases List.mem_cons.mp hk with rfl | hk
        · exact Nat.le_of_lt hlt
        · exact hleast k hk
      · rename_i hge
        obtain ⟨rfl, rfl, rfl⟩ : [] = l ∧ first = j ∧ rest = r := by simpa using h
        refine ⟨rfl, fun k hk => ?_⟩
        rcases List.mem_cons.mp hk with rfl | hk
        · exact Nat.le_refl _
        · exact Nat.le_trans (Nat.le_of_not_lt hge) (hleast k hk)

/-- A request of the host on an IN endpoint of a presented position whose tokens move (R143, R176). -/
theorem ackTp_empty (s : State) (p : Port) (a : Byte) (n : Nat) (x : LiftPort) (c : EpCtx) (hlift : s.lift.get p = some x) (hctx : s.ctx p a = some c)
    (hpres : x.presented = true) (hin : isIn a = true) (hmoves : s.hostMoves p = true) (hkind : c.kind ≠ .isochronous) (hready : c.ready = []) :
    s.ackTp p a n = if c.poisoned || c.halted || c.stall then ((s.useLink p).updCtx p a (fun c => { c with interest := true })).answerStall p a
      else ((s.useLink p).updCtx p a (fun c => { c with interest := true })).answerNrdy p a := by
  unfold State.ackTp
  rw [hctx]
  dsimp only
  have hmoves' : ((s.useLink p).updCtx p a (fun c => { c with interest := true })).hostMoves p = true := by
    rw [← hmoves]
    unfold State.hostMoves State.updCtx
    simp only [State.updLift_ports, State.updLift_lift, Tab.get_upd_same, show (s.useLink p).lift.get p = some x from hlift, hlift]
    rfl
  rw [if_neg (by simp [hin, hlift, hpres]), if_neg (by simp [hmoves']), if_neg hkind, if_neg (by simp [hready])]

/-- Noting a service opportunity touches no ring. -/
theorem noteOpportunity_epRoom (s : State) (p q : Port) (a b : Byte) : (s.noteOpportunity p a).epRoom q b = s.epRoom q b := by
  unfold State.noteOpportunity
  dsimp only
  split <;> rfl

/-- The hold window of a held half ends: the half goes out as a short packet (R151). -/
theorem expireHalf_held {s : State} {p : Port} {a : Byte} {x : LiftPort} {c : EpCtx} (hlift : s.lift.get p = some x) (hctx : s.ctx p a = some c)
    (hpair : c.pair = .half) (hmode : c.mode = .hold) :
    s.expireHalf p a = (s.count p a (fun k => { k with holdReleases := up1 k.holdReleases })).pairApply p a .expiry := by
  unfold State.expireHalf
  rw [hlift, hctx]
  exact if_pos (by simp [hpair, hmode, LiftPort.snoops])

/-- Settles O37: the context of the endpoint and what the two buses can carry select the branch of each row. -/
theorem bulkAndPeriodicData : Obligations.BulkAndPeriodicData := by
  unfold Obligations.BulkAndPeriodicData
  refine ⟨?frameIdle, ?frameOpens, ?inData, ?inNak, ?holdExpires, ?ackNrdy, ?ackStall, ?outNrdy, ?outStored, ?outNak, ?outTaken, ?outStall,
    ?lapse, ?interruptStored, ?isoStored, ?isoSlip, pickJob_highest⟩
  case frameIdle =>
    intro s l hup hnone hframe
    refine upRow_next (f := fun s => s.microFrame l) hup ?_
    unfold State.microFrame
    dsimp only
    rw [if_neg (show ¬ (s.begin.microframe + 1).toNat % 8 = 0 from hframe),
      show ({ s.begin with microframe := s.begin.microframe + 1 } : State).liftedPorts = [] from hnone]
    rfl
  case frameOpens =>
    intro s l hup hframe
    refine upRow_next (f := fun s => s.microFrame l) hup ?_
    unfold State.microFrame
    dsimp only
    rw [if_pos (show (s.begin.microframe + 1).toNat % 8 = 0 from hframe)]
    rfl
  case inData =>
    rintro s p a x c bytes hup hlift hctx ⟨hin, hkind⟩ htok
    refine upRow_next (f := fun s => s.bulkIn p a (.data bytes)) hup ?_
    unfold State.bulkIn
    rw [State.begin_lift, hlift]
    dsimp only
    rw [hctx]
    exact if_pos (by simp [hin, hkind, show s.begin.inTokens p c = true from htok])
  case inNak =>
    rintro s p a x c hup hlift hctx ⟨hin, hkind⟩ htok hwindow
    refine upRow_next (f := fun s => s.bulkIn p a .nak) hup ?_
    unfold State.bulkIn
    rw [State.begin_lift, hlift]
    dsimp only
    rw [hctx]
    exact (if_pos (by simp [hin, hkind, show s.begin.inTokens p c = true from htok])).trans (if_neg hwindow)
  case holdExpires =>
    rintro s p a x c hup hlift hctx ⟨hin, hkind, hpair, hmode⟩ htok
    refine upRow_next (f := fun s => s.holdExpiry p a) hup ?_
    unfold State.holdExpiry
    rw [show s.begin.ctx p a = some c from hctx]
    refine (if_pos (by simp [hin, hkind, show s.begin.inTokens p c = true from htok])).trans ?_
    obtain ⟨y, hy⟩ := count_lift s.begin p a (fun k => { k with hsNaks := up1 k.hsNaks }) x hlift
    exact expireHalf_held hy ((count_ctx _ _ _ _ _).trans hctx) hpair hmode
  case ackNrdy =>
    rintro s p a n x c hup hlift hctx ⟨hpres, hin⟩ hmoves ⟨hkind, hready, hpoison, hhalt, hstall⟩
    refine upRow_next hup ((ackRequest_empty s.begin p a n c hctx hkind hready).trans ?_)
    refine (ackTp_empty s.begin p a _ x c hlift hctx hpres hin hmoves hkind hready).trans (if_neg ?_)
    simp [hpoison, hhalt, hstall]
  case ackStall =>
    rintro s p a n x c hup hlift hctx ⟨hpres, hin⟩ hmoves ⟨hkind, hready⟩ hbad
    refine upRow_next hup ((ackRequest_empty s.begin p a n c hctx hkind hready).trans ?_)
    refine (ackTp_empty s.begin p a _ x c hlift hctx hpres hin hmoves hkind hready).trans (if_pos ?_)
    simpa [or_assoc] using hbad
  case outNrdy =>
    rintro s p a bytes x c hup hlift hctx ⟨hpres, hin, hkind⟩ hmoves ⟨hpoison, hhalt, hstall⟩ hroom
    refine upRow_next (f := fun s => s.bulkOut p a bytes) hup ?_
    unfold State.bulkOut
    rw [State.begin_lift, hlift, show s.begin.ctx p a = some c from hctx]
    dsimp only
    rw [if_neg (by simp [hin, hkind, hpres]), if_neg (by simp [show (s.begin.useLink p).hostMoves p = true from hmoves]),
      if_neg (by simp [hpoison, hhalt, hstall])]
    exact if_pos hroom
  case outStored =>
    rintro s p a bytes x c hup hlift hctx ⟨hpres, hin, hkind⟩ hmoves ⟨hpoison, hhalt, hstall⟩ hroom ⟨hfresh, hout⟩
    refine upRow_next (f := fun s => s.bulkOut p a bytes) hup ?_
    unfold State.bulkOut
    rw [State.begin_lift, hlift, show s.begin.ctx p a = some c from hctx]
    dsimp only
    rw [if_neg (by simp [hin, hkind, hpres]), if_neg (by simp [show (s.begin.useLink p).hostMoves p = true from hmoves]),
      if_neg (by simp [hpoison, hhalt, hstall]), if_neg (show ¬ (s.begin.useLink p).epRoom p a < 1024 from Nat.not_lt.mpr hroom), hfresh,
      if_neg Bool.false_ne_true]
    exact if_neg (by simp [hout])
  case outNak =>
    rintro s p a c e l hup ⟨hnz, hin⟩ hctx hout ⟨hkind, hpoison⟩
    obtain ⟨len, ends⟩ := e
    refine upRow_next hup ((if_neg hnz).trans ?_)
    unfold State.bulkOutDone
    rw [show s.begin.ctx p a = some c from hctx]
    dsimp only
    rw [hout]
    exact if_neg (by simp [hin, hkind, hpoison])
  case outTaken =>
    rintro s p a c e l hup ⟨hnz, hin⟩ hctx hout ⟨hkind, hpoison, hping⟩ hlen
    obtain ⟨len, ends⟩ := e
    refine upRow_next hup ((if_neg hnz).trans ?_)
    unfold State.bulkOutDone
    rw [show s.begin.ctx p a = some c from hctx]
    dsimp only
    rw [hout]
    refine (if_neg (by simp [hin, hkind, hpoison])).trans ((if_neg (by simp [hping])).trans ?_)
    simp only [if_neg (show ¬ len = 0 from hlen)]
  case outStall =>
    rintro s p a c hup ⟨hnz, hin⟩ hctx hpoison
    refine upRow_next hup ((if_neg hnz).trans ?_)
    unfold State.bulkOutStall
    rw [show s.begin.ctx p a = some c from hctx]
    exact if_neg (by simp [hin, hpoison])
  case lapse =>
    intro s p a hup
    exact upRow_next hup rfl
  case interruptStored =>
    rintro s p a bytes x c hup hlift hctx ⟨hpres, hin, hkind⟩ hmoves ⟨hpoison, hhalt, hstall⟩ hroom
    refine upRow_next (f := fun s => s.interruptOut p a bytes) hup ?_
    unfold State.interruptOut
    rw [show s.begin.ctx p a = some c from hctx]
    dsimp only
    rw [if_neg (by simp [hin, hkind, hlift, hpres]), if_neg (by simp [show (s.begin.useLink p).hostMoves p = true from hmoves]),
      if_neg (by simp [hpoison, hhalt, hstall])]
    exact if_neg (Nat.not_lt.mpr hroom)
  case isoStored =>
    rintro s p a bytes c hup hctx ⟨hin, hkind, hpoison, hhalt, hstall⟩ hmoves hlast hroom
    refine upRow_next (f := fun s => s.isoOut p a bytes false) hup ?_
    unfold State.isoOut
    rw [show s.begin.ctx p a = some c from hctx]
    dsimp only
    rw [if_neg (by simp [hin, hkind, show s.begin.hostMoves p = true from hmoves]), if_neg (by simp [hpoison, hhalt, hstall])]
    refine (if_neg hlast).trans ?_
    rw [if_neg Bool.false_ne_true]
    have hroom' : ¬ ((s.begin.useLink p).noteOpportunity p a).epRoom p a < bytes.length := by
      rw [noteOpportunity_epRoom]
      exact Nat.not_lt.mpr hroom
    rw [if_neg hroom']
  case isoSlip =>
    rintro s p a bytes bad c hup hctx ⟨hin, hkind, hpoison, hhalt, hstall⟩ hmoves hlast
    refine upRow_next (f := fun s => s.isoOut p a bytes bad) hup ?_
    unfold State.isoOut
    rw [show s.begin.ctx p a = some c from hctx]
    dsimp only
    rw [if_neg (by simp [hin, hkind, show s.begin.hostMoves p = true from hmoves]), if_neg (by simp [hpoison, hhalt, hstall])]
    exact if_pos hlast

end Sys2Proof.Machine
end

