-- ==== Sys2Proof/Proofs/BankControllers.lean ====
section
/-! PROOF. The bank controllers: merge entries, the scrubber, the buckets and the rows of a closed bank (chapter 7). -/

namespace Sys2Proof.Machine

open Sys2Proof

/-- A complete merge entry is written whole (R225). -/
theorem flushEntry_complete (s : State) (b : Bank) (e : MergeEntry) (hmask : e.mask = 0xFFFF) :
    s.flushEntry b e = (s.updBank b (fun x => { x with merge := x.merge.filter (·.word != e.word) })).storeWord b (e.word / 64) (e.word % 64)
      (pbmEncode e.bytes) :=
  if_pos hmask

/-- An incomplete merge entry is written over the word read, where that word is not lost (R225). -/
theorem flushEntry_incomplete (s u : State) (b : Bank) (e : MergeEntry) (r : WordRead) (hmask : e.mask ≠ 0xFFFF)
    (hread : (s.updBank b (fun x => { x with merge := x.merge.filter (·.word != e.word), mergeRmw := satAdd 32 x.mergeRmw 1 })).readWord b
      (e.word / 64) (e.word % 64) = (u, r)) (hkept : r.cls.lost = false) :
    s.flushEntry b e = u.storeWord b (e.word / 64) (e.word % 64) (pbmEncode (mergeBytes r.data e.bytes e.mask)) := by
  have hboth : (s.updBank b (fun x => { x with merge := x.merge.filter (·.word != e.word) })).updBank b
      (fun x => { x with mergeRmw := satAdd 32 x.mergeRmw 1 }) =
      s.updBank b (fun x => { x with merge := x.merge.filter (·.word != e.word), mergeRmw := satAdd 32 x.mergeRmw 1 }) := by
    simp [State.updBank]
  unfold State.flushEntry
  dsimp only
  rw [if_neg hmask, hboth, hread]
  exact if_neg (by simp [hkept])

/-- What the scrubber does with the word it has read, and its next word (R230, R231). -/
theorem scrubWord_runs (s u : State) (b : Bank) (queued : Bool) (r : WordRead) (hruns : s.scrubRuns b = true)
    (hread : s.readWord b ((s.banks.get b).scrubAt / 64) ((s.banks.get b).scrubAt % 64) = (u, r)) :
    s.scrubWord b queued = (u.scrubAct b ((s.banks.get b).scrubAt / 64) ((s.banks.get b).scrubAt % 64) r
      (queued || (s.banks.get b).merge.any (·.word == (s.banks.get b).scrubAt))).scrubAdvance b := by
  unfold State.scrubWord
  dsimp only
  rw [if_pos hruns, hread]

/-- Settles O38: what the bank holds selects the branch of each row. -/
theorem bankControllerRows : Obligations.BankControllerRows := by
  unfold Obligations.BankControllerRows
  refine ⟨?mergeRmw, ?mergeWhole, ?scrubClean, ?scrubRewrites, ?leak, ?emptyMove, ?copyMove⟩
  case mergeRmw =>
    intro s b word e u r hup hfind hmask hread hkept
    refine upRow_next (f := fun s => s.mergeAge b word) hup ?_
    unfold State.mergeAge
    rw [show s.begin.banks = s.banks from rfl, hfind]
    exact flushEntry_incomplete s.begin u b e r hmask hread hkept
  case mergeWhole =>
    intro s b word e hup hfind hmask
    refine upRow_next (f := fun s => s.mergeAge b word) hup ?_
    unfold State.mergeAge
    rw [show s.begin.banks = s.banks from rfl, hfind]
    exact flushEntry_complete s.begin b e hmask
  case scrubClean =>
    intro s b queued u r hup hruns hread hclean
    refine upRow_next hup ((scrubWord_runs s.begin u b queued r hruns hread).trans ?_)
    unfold State.scrubAct
    rw [hclean]
  case scrubRewrites =>
    intro s b u r i hup hruns hread hclass hmerge
    refine upRow_next hup ((scrubWord_runs s.begin u b false r hruns hread).trans ?_)
    rw [show s.begin.banks = s.banks from rfl, hmerge]
    unfold State.scrubAct
    rw [hclass]
    rfl
  case leak =>
    intro s hup hruns
    refine upRow_next (f := State.bucketLeak) hup ?_
    have hleak : ∀ b, (s.domains.get (quarterDom (quarterOf b)) != .retention && s.domains.get (quarterDom (quarterOf b)) != .off) = true :=
      fun b => by simpa using hruns b
    unfold State.bucketLeak
    simp only [State.begin_domains, hleak, if_true]
    rfl
  case emptyMove =>
    intro s b row r hup hfind hclosed hidle
    refine upRow_next (f := fun s => s.emptyRowMove b row) hup ?_
    unfold State.emptyRowMove
    rw [show s.begin.rings = s.rings from rfl, hfind]
    exact if_pos (by rw [show s.begin.banks = s.banks from rfl, hclosed, hidle]; rfl)
  case copyMove =>
    intro s b row r hup hfind hclosed hbusy
    refine upRow_next (f := fun s => s.timeoutRowCopy b row) hup ?_
    unfold State.timeoutRowCopy
    rw [show s.begin.rings = s.rings from rfl, hfind]
    exact if_pos (by rw [show s.begin.banks = s.banks from rfl, hclosed, hbusy]; rfl)

end Sys2Proof.Machine
end

