-- ==== Sys2Proof/Proofs/StoredWords.lean ====
section
/-! PROOF. A word stored in the packet buffer reads back, and no other word changes (chapter 7). -/

namespace Sys2Proof.Machine

open Sys2Proof

/-- A store into a filled bank with no fault injected puts the code word as it is. -/
theorem storeWord_plain (s : State) (b : Bank) (row word : Nat) (cw : BitVec 137) (hfilled : (s.banks.get b).filled = true)
    (haddr : s.addrPoint b = none) (hflip : (s.banks.get b).flip = none) (hsingle : s.bankPoint b 1 = none) (hdouble : s.bankPoint b 2 = none) :
    s.storeWord b row word cw =
      { s.updBank b (fun x => { x with injWords := x.injWords.erase (cellKey b ((s.banks.get b).physRow row) word) }) with
        cells := cellsPut s.cells (cellKey b ((s.banks.get b).physRow row) word) cw } := by
  unfold State.storeWord
  rw [addrCheck_of_unarmed s b haddr]
  dsimp only
  rw [if_neg (by simp [hfilled]), hflip, hsingle, hdouble]
  rfl

/-- In a filled bank a word reads as the memory holds it, the fill pattern where nothing was written (log 12). -/
theorem cell_filled (s : State) (b : Bank) (row word : Nat) (hfilled : (s.banks.get b).filled = true) :
    s.cell b row word = cellAt s.cells (cellKey b ((s.banks.get b).physRow row) word) := by
  unfold State.cell cellAt
  cases hget : cellsGet s.cells (cellKey b ((s.banks.get b).physRow row) word) with
  | some v => simp [hget]
  | none => simp [hget, hfilled]

/-- Noting injected words moves no row and empties no bank. -/
theorem injWords_rows (s : State) (b c : Bank) (row : Nat) (k : Nat) :
    ((s.updBank b (fun x => { x with injWords := x.injWords.erase k })).banks.get c).physRow row = (s.banks.get c).physRow row ∧
      ((s.updBank b (fun x => { x with injWords := x.injWords.erase k })).banks.get c).filled = (s.banks.get c).filled := by
  rw [State.updBank_banks]
  by_cases h : c = b
  · subst h
    rw [Tab.get_upd_same]
    exact ⟨rfl, rfl⟩
  · rw [Tab.get_upd_other _ _ _ _ (Ne.symm h)]
    exact ⟨rfl, rfl⟩

/-- A word reads by the cells and the rows of its bank alone: noting injected words changes no read. -/
theorem cell_injWords (s : State) (b c : Bank) (row word : Nat) (k : Nat) (cells : List (Nat × BitVec 137)) :
    ({ s.updBank b (fun x => { x with injWords := x.injWords.erase k }) with cells } : State).cell c row word =
      ({ s with cells } : State).cell c row word := by
  obtain ⟨hrow, hfilled⟩ := injWords_rows s b c row k
  unfold State.cell
  dsimp only
  rw [hrow, hfilled]
  rfl

/-- Settles O51: the store puts one entry, and entries at other physical addresses stay. -/
theorem wordReadAfterWrite : Obligations.WordReadAfterWrite := by
  unfold Obligations.WordReadAfterWrite
  intro s b row word cw hwf hfilled haddr hflip hsingle hdouble
  rw [storeWord_plain s b row word cw hfilled haddr hflip hsingle hdouble]
  constructor
  · rw [cell_injWords]
    exact (cell_filled { s with cells := cellsPut s.cells (cellKey b ((s.banks.get b).physRow row) word) cw } b row word hfilled).trans
      ((cellAt_put s.cells _ _ cw hwf).trans (if_pos rfl))
  · intro c r w hother
    rw [cell_injWords]
    unfold State.cell
    dsimp only
    rw [cellsGet_put_other s.cells _ _ cw hwf hother]

end Sys2Proof.Machine
end

