-- ==== Sys2Proof/Proofs/TypeCTransitions.lean ====
section
/-! PROOF. The Type-C source state machine (Table 8.2). -/

namespace Sys2Proof.Machine

open Sys2Proof

/-- A change of the lines is judged where it leaves the port. -/
theorem updPd_ccEvaluate (s : State) (p : Port) (f : PdPort → PdPort) :
    (s.updPd p f).ccEvaluate p = s.updPd p (fun x =>
      if (f x).tc == .unattached && !(f x).settling && attachPattern (f x) then { f x with tc := .attachWait, debounced := false } else f x) :=
  updPd_updPd s p f _

/-- A debounce that ends by day runs its row without a wake (log 20). -/
theorem ccDebounced_day (s : State) (p : Port) (hday : s.daytime) : s.portWakes p 0 (fun s => s.ccDebounced p) = s.ccDebounced p :=
  portWakes_day s p 0 _ (by rw [State.daytime, State.ccDebounced_mode]; exact hday)

/-- The loss of Rd by day runs its row without a wake (log 20). -/
theorem rdLost_day (s : State) (p : Port) (hday : s.daytime) : s.portWakes p 1 (fun s => s.rdLost p) = s.rdLost p :=
  portWakes_day s p 1 _ (by rw [State.daytime, State.rdLost_mode]; exact hday)

/-- Settles O39: the state of Table 8.2 and the two lines select the branch of each row. -/
theorem typeCTransitions : Obligations.TypeCTransitions := by
  unfold Obligations.TypeCTransitions
  refine ⟨?attach, ?patternLost, ?attached, ?unsupported, ?detach, ?raLost, ?overcurrent, ?recovered⟩
  case attach =>
    rintro s p c1 c2 hmode ⟨htc, hsettle⟩ hpattern
    refine aonRow_next (f := fun s => s.ccChange p c1 c2) hmode ?_
    unfold State.ccChange
    dsimp only
    rw [if_neg (by simp [htc]), updPd_ccEvaluate]
    refine updPd_congr _ _ _ _ (if_pos ?_)
    show ((s.pd.get p).tc == .unattached && !(s.pd.get p).settling && attachPattern { s.pd.get p with cc1 := c1, cc2 := c2 }) = true
    rw [hpattern, htc, hsettle]
    rfl
  case patternLost =>
    intro s p hmode htc hlost
    refine aonRow_next (f := fun s => s.ccChange p .open .open) hmode ?_
    unfold State.ccChange
    dsimp only
    rw [State.begin_pd, if_pos ⟨htc, hlost⟩, updPd_updPd, updPd_ccEvaluate]
    refine updPd_congr _ _ _ _ (if_neg ?_)
    simp [attachPattern]
  case attached =>
    intro s p hday hmode htc hone hrun
    refine aonRow_next (f := fun s => s.portWakes p 0 (fun s => s.ccDebounced p)) hmode ((ccDebounced_day s.begin p hday).trans ?_)
    have hra : ((s.pd.get p).cc1 == .ra && (s.pd.get p).cc2 == .ra) = false := by
      refine Bool.eq_false_iff.mpr fun h => ?_
      simp only [Bool.and_eq_true, beq_iff_eq] at h
      simp [h] at hone
    have hrd : ((s.pd.get p).cc1 == .rd && (s.pd.get p).cc2 == .rd) = false := by
      refine Bool.eq_false_iff.mpr fun h => ?_
      simp only [Bool.and_eq_true, beq_iff_eq] at h
      simp [h] at hone
    unfold State.ccDebounced
    dsimp only
    rw [State.begin_pd, if_neg (by simp [htc]), hra, if_neg Bool.false_ne_true, State.begin_fw, hrun, if_neg Bool.false_ne_true, hrd,
      if_neg Bool.false_ne_true]
  case unsupported =>
    rintro s p hday hmode ⟨htc, h1, h2⟩
    refine aonRow_next (f := fun s => s.portWakes p 0 (fun s => s.ccDebounced p)) hmode ((ccDebounced_day s.begin p hday).trans ?_)
    unfold State.ccDebounced
    dsimp only
    rw [State.begin_pd, if_neg (by simp [htc]), if_pos (by simp [h1, h2])]
  case detach =>
    intro s p hday hmode htc hgone
    refine aonRow_next (f := fun s => s.portWakes p 1 (fun s => s.rdLost p)) hmode ((rdLost_day s.begin p hday).trans ?_)
    unfold State.rdLost
    dsimp only
    rw [State.begin_pd, if_pos (by simp [htc])]
    refine if_pos ?_
    rw [htc]
    cases ho : (s.pd.get p).orientation <;> simpa [ho] using hgone
  case raLost =>
    rintro s p hmode htc ⟨h1, h2⟩
    refine aonRow_next (f := fun s => s.raLost p) hmode ((if_pos ?_).trans ?_)
    · simp [htc, h1]
    · rw [updPd_ccEvaluate]
      refine updPd_congr _ _ _ _ (if_neg ?_)
      simp [attachPattern, h1, h2]
  case overcurrent =>
    rintro s p hmode ⟨htc, hon⟩
    exact aonRow_next hmode (if_pos (by simp [htc, hon]))
  case recovered =>
    intro s p hmode htc hsafe
    exact aonRow_next hmode (if_pos (by rw [State.begin_pd, htc, show s.begin.atVSafe0V p = true from hsafe]; rfl))

end Sys2Proof.Machine
end

