-- ==== Sys2Proof/Proofs/PdSequences.lean ====
section
/-! PROOF. PD message sequences (Tables 8.6 and 8.7). -/

namespace Sys2Proof.Machine

open Sys2Proof

/-- GoodCRC for the message on the line: its counter advances, and its purpose says what follows (R256). -/
theorem goodCrcFor_sent {s : State} {p : Port} {o : PdOut} (htx : (s.pd.get p).tx = some o) :
    (o.purpose = .answer → s.goodCrcFor p = (s.updPd p (fun x => bumpTx x o.sop)).pdIdle p) ∧
      (o.purpose = .caps → s.goodCrcFor p =
        (s.updPd p (fun x => bumpTx x o.sop)).updPd p (fun x => { x with expect := some .request, partner := true, capsCount := 0 })) := by
  unfold State.goodCrcFor
  rw [htx]
  constructor
  all_goals
    intro h
    dsimp only
    rw [h]

/-- A message goes out on a port whose PD runs. -/
theorem pdTransmit_enabled {s : State} {p : Port} (o : PdOut) (hen : (s.pd.get p).cfg.pdEnable = true) :
    s.pdTransmit p o = (s.updPd p (fun x => { x with tx := some o, caps := if o.purpose.offers then objectsOf o.bytes else x.caps })).emit
      (.pd p o.sop (withId o.bytes ((s.pd.get p).txId.get o.sop))) :=
  if_pos hen

/-- A repeated MessageID: GoodCRC goes out and the message makes no item (R267). -/
theorem pdArrived_repeat {s : State} {p : Port} {sop : Fin 5} {b : List Byte} {m : RxMsg} (hup : s.switchedUp)
    (hrx : (s.queues.get (slotOf p)).rx.get (posInSlot p).castSucc = some m) (hwhole : m.whole = false) (hheld : m.withheld = false)
    (hen : (s.pd.get p).cfg.pdEnable = true) (htc : (s.pd.get p).tc = .attached) (hdawn : s.mode ≠ .dawn)
    (hid : (s.pd.get p).rxId.get sop = some (pdId b)) (hreset : isControl b 13 = false) :
    s.pdArrived p sop b = (s.emit (.goodCrc p sop (pdId b))).messageDropped (slotOf p) (posInSlot p).castSucc := by
  obtain ⟨hoff, hmidnight, -⟩ := hup
  unfold State.pdArrived
  dsimp only
  rw [show ((s.queues.get (slotOf p)).rx.get ⟨(posInSlot p).val, by omega⟩) = some m from hrx]
  dsimp only
  rw [if_neg (by simp [hwhole]), if_neg (by simp [hheld]), if_neg (by simp [hen, htc, hoff, hmidnight, hdawn])]
  exact if_pos (by rw [State.emit_pd, hid, hreset]; simp)

/-- Settles O40: what the port's PD side holds selects the branch of each row. -/
theorem pdSequences : Obligations.PdSequences := by
  unfold Obligations.PdSequences
  refine ⟨?discover, ?caps, ?capsAgain, ?sopFree, ?sopOverrun, ?repeated, ?crcAnswer, ?crcCaps, ?retries, ?exhausted, ?deadline, ?waitRetry,
    ?sinkTx, ?response, ?notPd, ?again, ?pps⟩
  case discover =>
    rintro s p hup hruns ⟨hss, hvconn, hdone, htries⟩ ⟨htx, hexpect, hhr, hgood⟩
    refine upRow_next hup (if_pos ?_)
    rw [begin_pdRuns, begin_vbusGood, begin_pd, hruns, hss, hvconn, hhr, hgood, hdone, htx, hexpect, decide_eq_true htries]
    rfl
  case caps =>
    rintro s p hup hruns ⟨hstop, hnot, hhr⟩ hgood
    refine upRow_next hup (if_pos ?_)
    rw [begin_pdRuns, begin_vbusGood, begin_pd, hruns, hstop, hnot, hhr, hgood]
    rfl
  case capsAgain =>
    rintro s p hup hruns ⟨hcount, hstop, hexp⟩ ⟨htx, hexpect, hgood⟩
    refine upRow_next hup (if_pos ?_)
    rw [begin_pdRuns, begin_vbusGood, begin_pd, hruns, hgood, decide_eq_true hcount, hstop, hexp, htx, hexpect]
    rfl
  case sopFree =>
    intro s p sop size hup hfree
    refine upRow_next (f := fun s => (s.sopDetected (slotOf p) (posInSlot p).castSucc sop.val size.val).sopPrecedence p) hup
      (congrArg (fun u => State.sopPrecedence u p) ?_)
    exact if_neg (by simp [hfree])
  case sopOverrun =>
    intro s p sop size hup hfull
    refine upRow_next (f := fun s => (s.sopDetected (slotOf p) (posInSlot p).castSucc sop.val size.val).sopPrecedence p) hup
      (congrArg (fun u => State.sopPrecedence u p) ?_)
    exact if_pos hfull
  case repeated =>
    rintro s p sop b m hup hrx ⟨hwhole, hheld⟩ ⟨hen, htc⟩ hdawn hid hreset
    refine upRow_next (f := fun s => s.pdReceived p sop b) hup ?_
    have harrived : (s.begin.updPd p (fun x => { x with arriving := false })).pdArrived p sop b = _ :=
      pdArrived_repeat (m := m) hup hrx hwhole hheld (by rw [updPd_get]; exact hen) (by rw [updPd_get]; exact htc) hdawn
        (by rw [updPd_get]; exact hid) hreset
    have hmessage : ((s.begin.queues.get (slotOf p)).rx.get ⟨(posInSlot p).val, by omega⟩).isNone = false := by
      rw [show (s.begin.queues.get (slotOf p)).rx.get ⟨(posInSlot p).val, by omega⟩ = some m from hrx]
      rfl
    unfold State.pdReceived
    dsimp only
    rw [hmessage, if_neg Bool.false_ne_true, harrived]
    have hruns : (((s.begin.updPd p (fun x => { x with arriving := false })).emit (.goodCrc p sop (pdId b))).messageDropped (slotOf p)
        (posInSlot p).castSucc).pdRuns p = s.pdRuns p := by
      show (s.begin.updPd p (fun x => { x with arriving := false })).pdRuns p = s.pdRuns p
      simp only [State.pdRuns, updPd_get, State.updPd_mode, State.begin_mode, begin_pd]
    exact ite_congr (by rw [← hruns]) (fun _ => rfl) (fun _ => rfl)
  case crcAnswer =>
    intro s p o hup htx hpurpose
    exact upRow_next hup ((goodCrcFor_sent (s := s.begin) htx).1 hpurpose)
  case crcCaps =>
    intro s p o hup htx hpurpose
    exact upRow_next hup (((goodCrcFor_sent (s := s.begin) htx).2 hpurpose).trans (updPd_updPd _ _ _ _))
  case retries =>
    rintro s p o hup htx ⟨htries, hen⟩
    refine upRow_next (f := fun s => s.receiveTimeout p) hup ?_
    unfold State.receiveTimeout
    rw [begin_pd, htx]
    exact (if_pos htries).trans (pdTransmit_enabled _ hen)
  case exhausted =>
    intro s p o hup htx htries hpurpose
    refine upRow_next (f := fun s => s.receiveTimeout p) hup ?_
    unfold State.receiveTimeout
    rw [begin_pd, htx]
    refine (if_neg (by omega)).trans ?_
    unfold State.sendFailed
    rw [hpurpose]
  case deadline =>
    rintro s p f hup hfwd ⟨htx, harr, hen⟩
    refine upRow_next (f := fun s => s.fwdDeadline p) hup ?_
    unfold State.fwdDeadline
    rw [begin_pd, hfwd]
    refine (if_neg (by simp [htx])).trans ?_
    unfold State.pdReply State.pdSay
    rw [if_neg (by rw [updPd_get]; simp [harr]), pdTransmit_enabled _ (by rw [updPd_get]; exact hen), updPd_get, updPd_updPd]
    rfl
  case waitRetry =>
    intro s p w hup hretry hwait
    refine upRow_next (f := fun s => s.waitRetryDue p) hup ?_
    unfold State.waitRetryDue
    rw [begin_pd, hretry]
    exact if_pos hwait
  case sinkTx =>
    rintro s p o l hup hpend ⟨hng, hengaged⟩
    refine upRow_next (f := fun s => s.sinkTxDone p) hup ?_
    unfold State.sinkTxDone
    dsimp only
    rw [begin_pd, hpend]
    exact if_pos (by rw [hng, hengaged]; rfl)
  case response =>
    intro s p hup hexpect
    refine upRow_next (f := fun s => s.responseTimeout p) hup ?_
    unfold State.responseTimeout
    dsimp only
    rw [begin_pd]
    rcases hexpect with h | h <;> rw [h]
  case notPd =>
    rintro s p hup hruns ⟨htwo, hexp⟩
    refine upRow_next (f := fun s => s.noResponse p) hup ?_
    unfold State.noResponse
    dsimp only
    rw [begin_pdRuns, begin_pd, if_neg (by simp only [hexp, hruns, Bool.not_true, Bool.or_false, decide_eq_true_eq]; omega)]
    exact if_pos htwo
  case again =>
    rintro s p hup hruns ⟨hone, hexp⟩
    refine upRow_next (f := fun s => s.noResponse p) hup ?_
    unfold State.noResponse
    dsimp only
    rw [begin_pdRuns, begin_pd, if_neg (by simp [hexp, hruns, hone])]
    exact if_neg (by omega)
  case pps =>
    intro s p c hup hcontract hpps hruns
    refine upRow_next (f := fun s => s.ppsTimeout p) hup ?_
    unfold State.ppsTimeout
    rw [begin_pd, hcontract]
    exact if_pos (by rw [hpps, begin_pdRuns, hruns]; rfl)

end Sys2Proof.Machine
end

