-- ==== Sys2Proof/Proofs/ContractTransitions.lean ====
section
/-! PROOF. Contract transitions, Hard Reset and the PD Receive Queue (Tables 8.8 and 8.9). -/

namespace Sys2Proof.Machine

open Sys2Proof

/-- Two changes of a port's PD side made one after the other, where the second switches VCONN. -/
theorem updPd_setVconn (s : State) (p : Port) (f : PdPort → PdPort) (on : Bool) (hup : (s.powerLinks.get (dieOf p)).up = true) :
    (s.updPd p f).setVconn p on = s.updPd p (fun x => { f x with vconnOn := on }) :=
  (if_pos hup).trans (updPd_updPd s p f _)

/-- PS_RDY goes out where no message arrives. -/
theorem sendPsRdy_idle (s : State) (p : Port) (harr : (s.pd.get p).arriving = false) :
    s.sendPsRdy p = (s.updPd p (fun x => { x with trans := x.trans.map (fun t => { t with step := .psRdy }) })).pdTransmit p
      { sop := 0, bytes := controlMsg 6, purpose := .psRdy, tries := 0 } := by
  unfold State.sendPsRdy State.pdReply State.pdSay
  exact if_neg (by rw [updPd_get]; simp [harr])

/-- Settles O41: the step of the transition or of the Hard Reset selects the branch of each row, and the class of the word that of a pop. -/
theorem contractTransitionsAndHardReset : Obligations.ContractTransitionsAndHardReset := by
  unfold Obligations.ContractTransitionsAndHardReset
  refine ⟨?newLevel, ?noChange, ?pgood, ?timeout, ?hardReset, ?resetOff, ?recover, ?vconnSource, ?vconnLow, ?popClean, ?popLost⟩
  case newLevel =>
    rintro s p t hup htrans ⟨hstep, hnew⟩
    refine upRow_next (f := fun s => s.srcTransition p) hup ?_
    unfold State.srcTransition
    rw [begin_pd, htrans]
    exact (if_pos hstep).trans (if_neg (by simp [hnew]))
  case noChange =>
    rintro s p t hup htrans ⟨hstep, hsame⟩
    refine upRow_next (f := fun s => s.srcTransition p) hup ?_
    unfold State.srcTransition
    rw [begin_pd, htrans]
    exact (if_pos hstep).trans (if_pos hsame)
  case pgood =>
    rintro s p t hup htrans ⟨hstep, hgood⟩ harr
    refine upRow_next (f := fun s => s.transitionPgood p) hup ?_
    unfold State.transitionPgood
    rw [begin_pd, htrans]
    exact (if_pos (by simp [hstep, hgood])).trans (sendPsRdy_idle s.begin p harr)
  case timeout =>
    rintro s p t hup htrans ⟨hstep, hwait⟩
    refine upRow_next (f := fun s => s.transitionTimeout p) hup ?_
    unfold State.transitionTimeout
    rw [begin_pd, htrans]
    exact if_pos (by simp [hstep, hwait])
  case hardReset =>
    rintro s p hup hdawn ⟨htc, hen⟩
    obtain ⟨hoff, hmidnight, -⟩ := id hup
    refine upRow_next (f := fun s => s.hardResetReceived p) hup ?_
    unfold State.hardResetReceived
    dsimp only
    exact if_pos (by simp [htc, hen, hoff, hmidnight, hdawn])
  case resetOff =>
    intro s p hup hhr hlink
    refine upRow_next hup ((if_pos hhr).trans ?_)
    unfold State.hardResetOff
    dsimp only
    rw [updPd_setVconn s.begin p _ false hlink]
  case recover =>
    intro s p hup hhr
    exact upRow_next hup (if_pos hhr)
  case vconnSource =>
    intro s p hup hexpect
    exact upRow_next hup (if_pos hexpect)
  case vconnLow =>
    rintro s p hup hlink ⟨hret, htc⟩
    refine upRow_next hup ((if_pos (by simp [hret, htc])).trans ?_)
    rw [updPd_setVconn s.begin p _ true hlink]
  case popClean =>
    intro s k w l hup hrun hdrain hinj hclean
    refine upRow_next (f := fun s => s.popQueue k) hup ?_
    unfold State.popQueue
    rw [State.begin_fw, hrun, if_neg Bool.false_ne_true, State.begin_queues, hdrain]
    dsimp only
    rw [State.begin_fault, hinj]
    dsimp only
    rw [hclean]
    rfl
  case popLost =>
    intro s k w l hup hrun hdrain hinj hlost
    refine upRow_next (f := fun s => s.popQueue k) hup ?_
    unfold State.popQueue
    rw [State.begin_fw, hrun, if_neg Bool.false_ne_true, State.begin_queues, hdrain]
    dsimp only
    rw [State.begin_fault, hinj]
    dsimp only
    rw [hlost]
    dsimp only
    rw [Tab.get_upd_same]
    rfl

end Sys2Proof.Machine
end

