-- ==== Sys2Proof/Proofs/SlotStates.lean ====
section
/-! PROOF. The states of a slot and its trips (Tables 9.4 and 9.16). -/

namespace Sys2Proof.Machine

open Sys2Proof

/-- A slot's row by day runs without a wake (log 20): it leaves the operating mode. -/
theorem slotRow_next {f : State → State} {s u : State} {k : Slot} (hmode : s.mode ≠ .off) (hday : s.daytime)
    (hkeeps : (f s.begin).mode = s.begin.mode) (h : f s.begin = u) :
    run (ifAon (fun s => s.slotWakes k f)) s = .next (u.finish s.begin) :=
  aonRow_next (f := fun s => s.slotWakes k f) hmode ((slotWakes_day s.begin k f (by rw [State.daytime, hkeeps]; exact hday)).trans h)

/-- The gate is on in RAMP, PG_WAIT and ON. -/
theorem gateOn_iff (x : SlotState) : gateOn x = true ↔ x.st = .ramp ∨ x.st = .pgWait ∨ x.st = .on := by
  simp [gateOn, or_assoc]

/-- Settles O42: the state of the slot selects the branch of each row. -/
theorem slotStates : Obligations.SlotStates := by
  unfold Obligations.SlotStates
  refine ⟨?seatLow, ?seatHighOff, ?seatHighOn, ?debounced, ?start, ?pgHold, ?pgLost, ?pgDelay, ?offTime, ?aging, ?sample, ?disable⟩
  case seatLow =>
    intro s k hmode hday hst
    refine slotRow_next hmode hday (State.seatLow_mode _ _) (updSlot_congr s.begin k _ _ ?_)
    rw [State.begin_slots, hst]
    rfl
  case seatHighOff =>
    intro s k hmode hday hst
    refine slotRow_next (f := fun s => s.seatHigh k false) hmode hday (State.seatHigh_mode _ _ _) ?_
    have hgate : ¬ gateOn (s.slots.get k) = true := by
      rw [gateOn_iff]
      rcases hst with h | h | h <;> simp [h]
    unfold State.seatHigh
    dsimp only
    rw [State.begin_slots, if_neg (by rcases hst with h | h | h <;> simp [h]), if_neg hgate, updSlot_updSlot]
  case seatHighOn =>
    intro s k hmode hday hst
    refine slotRow_next (f := fun s => s.seatHigh k false) hmode hday (State.seatHigh_mode _ _ _) ?_
    unfold State.seatHigh
    dsimp only
    rw [State.begin_slots, if_neg (by rcases hst with h | h | h <;> simp [h]), if_pos ((gateOn_iff _).mpr hst), updSlot_updSlot]
  case debounced =>
    rintro s k hmode ⟨hst, hlow⟩
    exact aonRow_next hmode (updSlot_congr s.begin k _ _ (if_pos (by simp [hst, hlow])))
  case start =>
    rintro s k mv hmode ⟨hst, hen⟩ ⟨hlo, hhi⟩
    refine aonRow_next hmode ((updSlot_updSlot _ _ _ _).trans (updSlot_congr s.begin k _ _ ((if_pos ?_).trans ?_)))
    · simp [hst, hen, vinInWindow, hlo, hhi]
    · simp [Nat.not_lt.mpr hlo, Nat.not_le.mpr hhi]
  case pgHold =>
    intro s k hmode hst
    exact aonRow_next hmode (updSlot_congr s.begin k _ _ (if_pos hst))
  case pgLost =>
    intro s k hmode hst
    exact aonRow_next hmode (updSlot_congr s.begin k _ _ (if_pos hst))
  case pgDelay =>
    intro s k hmode hst hlink
    exact aonRow_next hmode ((if_pos hst).trans (if_pos hlink))
  case offTime =>
    intro s k mv hmode hst
    exact aonRow_next hmode ((updSlot_updSlot _ _ _ _).trans (updSlot_congr s.begin k _ _ (if_pos hst)))
  case aging =>
    intro s k hmode
    exact aonRow_next hmode rfl
  case sample =>
    intro s k vin vout sense hmode hlink
    exact aonRow_next hmode ((if_pos hlink).trans (updSlot_updSlot _ _ _ _))
  case disable =>
    intro s k hmode hdis
    exact aonRow_next hmode (if_pos hdis)

end Sys2Proof.Machine
end

