-- ==== Sys2Proof/Proofs/SlotTrips.lean ====
section
/-! PROOF. Trips of a slot (Table 9.16, R300). -/

namespace Sys2Proof.Machine

open Sys2Proof

/-- Settles O43: the slot's state selects the branch of each row, its budget that of a trip. -/
theorem slotTrips : Obligations.SlotTrips := by
  unfold Obligations.SlotTrips
  refine ⟨?counted, ?stall, ?window, ?cooldown, ?latched, ?gateOff⟩
  case counted =>
    intro s k sense hmode hday hst
    have hgate : gateOn (s.begin.slots.get k) = true := (gateOn_iff _).mpr (.inr (.inr hst))
    exact ⟨slotRow_next hmode hday (State.pgLost_mode _ _ _) (if_pos hst),
      slotRow_next hmode hday (State.fastTrip_mode _ _ _ _) (if_pos hgate),
      slotRow_next hmode hday (State.breakerTrip_mode _ _ _ _ _) (if_pos hgate)⟩
  case stall =>
    intro s k hmode hday hst
    exact slotRow_next hmode hday (State.rampStall_mode _ _ _) (if_pos hst)
  case window =>
    intro s k mv hmode hday hst
    refine slotRow_next (f := fun s => s.vinExit k mv false) hmode hday (State.vinExit_mode _ _ _ _) ?_
    unfold State.vinExit State.noteVin
    dsimp only
    rw [updSlot_get, updSlot_updSlot]
    exact if_pos ((gateOn_iff _).mpr hst)
  case cooldown =>
    intro s k kind hretry hbelow hroom
    have hlatch : (!(s.slots.get k).spc.retry || decide ((s.slots.get k).spc.tripBudget ≤ (s.slots.get k).tripsInWindow + 1)) = false := by
      simp [hretry, hbelow]
    unfold State.trip
    simp only [Bool.false_eq_true, if_false, hlatch, Nat.min_eq_right (show (s.slots.get k).tripsInWindow + 1 ≤ 63 from hroom)]
  case latched =>
    intro s k kind hbudget hroom
    have hlatch : (!(s.slots.get k).spc.retry || decide ((s.slots.get k).spc.tripBudget ≤ (s.slots.get k).tripsInWindow + 1)) = true := by
      simpa using hbudget
    unfold State.trip
    simp only [Bool.false_eq_true, if_false, hlatch, if_true, Nat.min_eq_right (show (s.slots.get k).tripsInWindow + 1 ≤ 63 from hroom)]
  case gateOff =>
    intro s k d
    refine ⟨fun hst => ?_, fun hst hlink => ?_, fun hst hlink => ?_⟩
    · exact if_pos (by simpa using hst)
    · exact (if_neg (by simp [hst])).trans (if_pos hlink)
    · exact (if_neg (by simp [hst])).trans ((if_neg (by simp [hlink])).trans (updSlot_updSlot _ _ _ _))

end Sys2Proof.Machine
end

