-- ==== Sys2Proof/Proofs/PortPowerChains.lean ====
section
/-! PROOF. Port power chains and hold (Tables 9.7, 9.10 and 9.12). -/

namespace Sys2Proof.Machine

open Sys2Proof

/-- A frame carries the words out and judges what comes back (R311). -/
theorem chainFrame_runs {s t : State} {k : Slot} {input : List Byte} (hmode : s.mode ≠ .off) (hjudge : s.begin.judgeFrame k input = t) :
    exec (.chainFrame k input) s = .next (((forAll ((portsOfSlot k).map (fun p => (p, s.frameOf p)))
      (fun s pw => s.updVbus pw.1 (applyWord pw.2)) t).emit (.chainOut k (s.chainOut k))).finish s.begin) := by
  subst hjudge
  exact aonRow_next hmode (if_neg hmode)

/-- Settles O44: the state of the chain and what a frame brings back select the branch of each row. -/
theorem portPowerChains : Obligations.PortPowerChains := by
  unfold Obligations.PortPowerChains
  refine ⟨?frameDown, ?frameUp, ?frameFault, ?settling, ?stagger, ?noPgood, ?pgoodLost⟩
  case frameDown =>
    intro s k input hmode hst
    refine chainFrame_runs hmode ?_
    unfold State.judgeFrame
    dsimp only
    rw [State.begin_chains, hst]
  case frameUp =>
    rintro s k input hmode ⟨hst, hframes, hclean⟩ hall
    refine chainFrame_runs hmode ?_
    unfold State.judgeFrame
    dsimp only
    rw [State.begin_chains, hst]
    exact if_pos (by simp [hall, hframes, hclean])
  case frameFault =>
    rintro s k input hmode ⟨hst, hbad⟩ height
    refine chainFrame_runs hmode ?_
    unfold State.judgeFrame
    dsimp only
    rw [State.begin_chains, hst]
    exact if_pos (by simp [height, hbad])
  case settling =>
    intro s k hmode hst
    exact aonRow_next hmode (if_pos hst)
  case stagger =>
    intro s k p hmode hmay hfind
    refine aonRow_next (f := fun s => s.releaseNext k) hmode ?_
    unfold State.releaseNext
    dsimp only
    rw [if_pos hmay, hfind]
  case noPgood =>
    rintro s p hmode hjudge ⟨hwait, htrans⟩
    exact aonRow_next hmode (if_pos (by simp [show s.begin.chainJudges p = true from hjudge, hwait, htrans]))
  case pgoodLost =>
    rintro s p hmode hjudge ⟨hwait, hpgood, htrans⟩
    exact aonRow_next hmode (if_pos (by simp [show s.begin.chainJudges p = true from hjudge, hwait, hpgood, htrans]))

end Sys2Proof.Machine
end
